-- ==== Sys2Proof/Word.lean ====
section
/-!
DEFINITION. Word.lean: the word and byte types. Registers are 32 bits wide and little-endian (spec/00_scope.md).
-/

namespace Sys2Proof

/-- A 32-bit register, descriptor or record word. -/
abbrev Word := BitVec 32

/-- One byte of memory. -/
abbrev Byte := BitVec 8

/-- A list of bytes at addresses, as a sender of a command hands it over. -/
abbrev Cells := List (Nat × Byte)

end Sys2Proof
end

