-- ==== Sys2Proof/Config.lean ====
section
/-!
DEFINITION. Config.lean: what the fuses fix (the part, R15, R16) and the free values: constants without a body, of
which nothing can be proved, for the results the manual leaves open.
-/

namespace Sys2Proof

/-- The three fused configurations of the die (spec/00_scope.md, R1). DESIGN CHOICE: log entry 1. -/
inductive Part where
  | krv3296 | krv3248 | krv3224
deriving DecidableEq, Repr

namespace Config

/-- Display heads present (R16, SYS_UNITS0). -/
def heads : Part → Nat
  | .krv3296 => 24 | .krv3248 => 12 | .krv3224 => 6

/-- Source channels present (R16, SYS_UNITS2.SRC_COUNT). -/
def sources : Part → Nat
  | .krv3296 => 96 | .krv3248 => 48 | .krv3224 => 24

/-- W-lanes present (R16, SYS_UNITS1). -/
def lanes : Part → Nat
  | .krv3296 => 32 | .krv3248 => 32 | .krv3224 => 16

/-- Lane quads present (R16, SYS_UNITS2.QUAD_PRESENT). -/
def quads : Part → Nat
  | .krv3296 => 4 | .krv3248 => 4 | .krv3224 => 2

/-- DRAM channels present (R16, SYS_UNITS2.DMC_PRESENT). -/
def dmcChannels : Part → Nat
  | .krv3296 => 8 | .krv3248 => 8 | .krv3224 => 4

/-- Encode pipelines present (R16, SYS_UNITS2.ENC_PRESENT). -/
def encPipes : Part → Nat
  | .krv3296 => 2 | .krv3248 => 1 | .krv3224 => 1

/-- Entropy engines present (R16, SYS_UNITS3). -/
def entropyEngines : Part → Nat
  | .krv3296 => 4 | .krv3248 => 4 | .krv3224 => 2

/-- Pixel engines present (R16, SYS_UNITS3). -/
def pixelEngines : Part → Nat
  | .krv3296 => 8 | .krv3248 => 8 | .krv3224 => 4

/-- Sub-frame slice emission present (R16, SYS_UNITS2.SLICE_EMIT). -/
def sliceEmit : Part → Bool
  | .krv3296 => true | .krv3248 => false | .krv3224 => false

/-- SYS_ID at stepping B0, grade -X (R4). -/
def sysId : Part → Nat
  | .krv3296 => 0x4B601010 | .krv3248 => 0x4B301010 | .krv3224 => 0x4B181010

/-- SYS_UNITS0 to SYS_UNITS3 (R16). -/
def sysUnits : Part → Nat → Nat
  | .krv3296, 0 => 0x00FFFFFF | .krv3296, 1 => 0xFFFFFFFF | .krv3296, 2 => 0x00FFFE60 | .krv3296, 3 => 0x0000FF0F
  | .krv3248, 0 => 0x00000FFF | .krv3248, 1 => 0xFFFFFFFF | .krv3248, 2 => 0x00FFF430 | .krv3248, 3 => 0x0000FF0F
  | .krv3224, 0 => 0x0000003F | .krv3224, 1 => 0x0000FFFF | .krv3224, 2 => 0x000F3418 | .krv3224, 3 => 0x00000F03
  | _, _ => 0

/-- A window of the host port: size, prefetchable, 64-bit (R149). -/
structure PcieBar where
  size : Nat
  prefetch : Bool
  wide : Bool := true
deriving DecidableEq, Repr

/-- The configuration that the host port presents: link generation and width at most, identity, class code, the windows of
BAR0, BAR2 and BAR4, MSI-X vectors with the offsets of table and pending bits in BAR2, largest payload and read request,
advanced error reporting, ASPM, function level reset (R149). No command reads it. -/
structure PcieConfig where
  gen : Nat := 4
  width : Nat := 4
  vendor : Nat := 0x1F3C
  device : Nat
  revision : Nat
  classCode : Nat := 0x048000
  bars : List PcieBar := [{ size := 2 ^ 24, prefetch := false }, { size := 2 ^ 16, prefetch := false },
                          { size := 2 ^ 26, prefetch := true }]
  vectors : Nat := 64
  tableAt : Nat := 0x8000
  pendingAt : Nat := 0x9000
  maxPayload : Nat := 512
  maxReadRequest : Nat := 4096
  errorReporting : Bool := true
  aspm : Bool := false
  functionReset : Bool := false
deriving DecidableEq, Repr

/-- The host port's configuration of a part (R149). -/
def pcie (p : Part) : PcieConfig :=
  { device := (match p with | .krv3296 => 0x3296 | .krv3248 => 0x3248 | .krv3224 => 0x3224)
    revision := sysId p / 2 ^ 8 % 2 ^ 8 }

/-- FREE VALUE: the byte a memory cell whose content the manual leaves undefined reads as, the n-th time one is
drawn (Cellar after a reset or a training, R471, R472). -/
opaque freeByte : Nat → Byte

/-- FREE VALUE: the n-th 32-bit word the device draws at random (LCS_NONCE, R429). -/
opaque freeWord : Nat → Word

/-- FREE VALUE: a value the manual does not state, drawn the n-th time for one purpose. -/
opaque freeNat : Nat → Nat

/-- What a word of the state tables beside the provenance records holds (R11, R367): a word of a ledger instance by code and
instance; an ownership word of a channel; a state word of a head (0x200 + h) or channel (0x300 + s); the K word of a pair
whose V word stands at a BAR0 offset; else something whose loss has no outcome. -/
inductive StateWord where
  | other
  | ledger (kind instance_ : Nat)
  | ownership (ch : Nat)
  | dataPath (ix : Nat)
  | pair (off : Nat)
deriving DecidableEq, Repr, Inhabited

/-- FREE VALUE: which of them stands at a BAR4 offset. DESIGN CHOICE: log entry 65. -/
opaque stateWord : Nat → StateWord

/-- FREE VALUE: word i of the device's identity in fuses (LCS_UID, R430). DESIGN CHOICE: log entry 9. -/
opaque uidWord : Nat → Word

/-- FREE VALUE: word i of the hash of the vendor's key in slot 4 (R436). DESIGN CHOICE: log entry 9. -/
opaque vendorHash : Nat → Word

/-- FREE VALUE: the factory reference count of a touch slice at a frequency, in fuses (R392); a count is not 0.
DESIGN CHOICE: log entry 9. -/
opaque refTrimFuse : Nat → Nat → Nat
def refTrim (slice freq : Nat) : Nat := refTrimFuse slice freq % 65535 + 1

/-- FREE VALUE: what the device's own form of dictionary entry k is XORed with (R386). DESIGN CHOICE: log entry 9. -/
opaque cpxMask : Nat → Nat

/-- SHA-384 of a list of bytes, 48 bytes (R430, R435); the standard's function, not given by the manual.
DESIGN CHOICE: log entry 9. -/
opaque sha384 : List Byte → List Byte

/-- What an encode session's stream signals (R332, R334, R340): codec, profile, level, depth, picture size; reorder depth and
picture buffer; CTU or macroblock side, transforms from 4 up to a side, tiles, wavefronts, dependent slices, CABAC,
deblocking, SAO; rows of a slice; bits a second and bits of the CPB, CBR; timing; the initial CPB removal delay in ms as a
fraction; colour description in the form of word 6 of a slot header, chroma sample location. -/
structure StreamInfo where
  h265 : Bool := true
  profile : Nat := 1
  level : Nat := 0
  depth : Nat := 8
  width : Nat := 64
  height : Nat := 64
  reorder : Nat := 0
  buffering : Nat := 1
  block : Nat := 64
  transform : Nat := 32
  tiles : Nat := 1
  wavefront : Bool := false
  dependentSlices : Bool := false
  cabac : Bool := true
  deblocking : Bool := true
  sao : Bool := true
  sliceRows : Nat := 0
  bitRate : Nat := 0
  cpbBits : Nat := 0
  cbr : Bool := false
  timeScale : Nat := 0
  unitsInTick : Nat := 0
  initialDelay : Nat × Nat := (0, 1)
  colour : Nat := 0
  chromaLoc : Nat := 0
deriving DecidableEq, Repr, Inhabited

/-- The NAL units ahead of the slices of an access unit whose bytes the standards give (R343): the delimiter of an IDR or
another picture; parameter sets; buffering period; picture timing with the intervals since the last buffering period;
recovery point with its count and an exact match (R341). -/
inductive NalKind where
  | delimiter (idr : Bool) | vps | sps | pps | bufferingPeriod | pictureTiming (intervals : Nat)
  | recoveryPoint (count : Nat) (exact : Bool)
deriving DecidableEq, Repr, Inhabited

/-- A block predicted from the reference picture: its place and side in luma samples, its vector in quarter samples. -/
structure BlockVector where
  x : Nat
  y : Nat
  side : Nat
  mx : Int
  my : Int
deriving DecidableEq, Repr, Inhabited

/-- What the coding of a row is made from (R336 to R338, R341): the stream; the QP limits of the picture; the N of its seal,
its kind, the columns of luma samples to be coded intra and those that predict from the columns below them alone; the row
and the bits it may spend; the input's samples line by line; offsets in the work area whose reads failed. -/
structure RowInput where
  info : StreamInfo
  qpMin : Nat
  qpMax : Nat
  n : Nat
  idr : Bool
  repeated : Bool
  intra : List (Nat × Nat)
  clean : Nat
  row : Nat
  cap : Nat
  luma : List (List Nat)
  cb : List (List Nat)
  cr : List (List Nat)
  refBad : List Nat
deriving DecidableEq, Repr, Inhabited

/-- What the encoder's own model makes of a row (R336, R337): the QP and the bits of its normal coding, its bits at QP 51, its
bits in floor mode, and the vectors it finds. -/
structure RowChoice where
  qp : Nat
  bits : Nat
  bits51 : Nat
  floorBits : Nat
  vectors : List BlockVector
deriving DecidableEq, Repr, Inhabited

/-- A row as it is coded: 0 normal, 1 at QP 51, 2 in floor mode; its QP, the bits it spends, its vectors. -/
structure RowCoded where
  mode : Nat
  qp : Nat
  spent : Nat
  vectors : List BlockVector
deriving DecidableEq, Repr, Inhabited

/-- FREE VALUES: the encoder's own model (R337, R338). What it has kept of the pictures before is a number, 0 at the start
of a session; from it and a row's input come the choices for the row and, with the row as coded, what it keeps; the bytes
of a slice, and of the work area's picture, are functions of it. DESIGN CHOICE: log entry 75. -/
opaque encRow : Nat → RowInput → RowChoice
opaque encKeep : Nat → RowInput → RowCoded → Nat
opaque encSliceByte : Nat → StreamInfo → List RowCoded → Nat → Byte
opaque encWorkByte : Nat → Nat → Byte

/-- FREE VALUE: the bytes of a NAL unit as the standards give them for a stream (R343). DESIGN CHOICE: log entry 75. -/
opaque encNal : StreamInfo → NalKind → List Byte

/-- ECDSA P-384 with SHA-384 verification: public key x ‖ y (96 bytes), message, signature r ‖ s (96 bytes)
(R430, R435); the standard's function, not given by the manual. DESIGN CHOICE: log entry 9. -/
opaque ecdsaVerify : List Byte → List Byte → List Byte → Bool

end Config
end Sys2Proof
end

