-- ==== Sys2Proof/Syntax.lean ====
section
/-!
DEFINITION. Syntax.lean: the commands of the block, one constructor per row of spec/opcode_table.json, and the types
of their operands. A command is something the device's surroundings do (a register access, an edge, a packet, a
block of the link), or a step the device takes at an instant. What an engine or the outside alone decides (a sensor
reading, a parsed picture, the bytes the SPI NOR gives) is an operand of the command.
-/

namespace Sys2Proof

/-- A ring: submission, completion or event ring (R150). -/
inductive RingId where
  | sq (r : Fin 64)
  | cq (c : Fin 32)
  | eq (e : Fin 4)
deriving DecidableEq, Repr

/-- What the check bits of a memory word, or the link's ECC, show at a read (R366, R367). -/
inductive Ecc where
  | clean | corrected | uncorrected
deriving DecidableEq, Repr

/-- What the ECC of Cellar's link shows at reads, by Cellar address (R366). -/
abbrev LinkErrs := List (Nat × Ecc)

/-- What a seal meets besides the device's own state: how long it took in ns (R36, TCK_SEAL_MAX), whether Demal
advanced BEAT since the last tick (R19), mode register 4 of each DRAM channel's devices (R359), and the cycles that the
pictures in decode have taken since the last seal, by channel, in ENT and in PIX (R54). DESIGN CHOICE: log entry 12. -/
structure SealObs where
  durNs : Fin 24001 := 0
  beat : Bool := true
  mr4 : List (Fin 8 × Byte) := []
  work : List (Fin 96 × Nat × Nat) := []
deriving DecidableEq, Repr

/-- What the receiver of a lane gets since its last block position (R185, R204): line bits up to the end of the next position,
8,384 of them once it is aligned; and what the other slice of a rotation reads there, the spare or, while it carries the
lane, the lane's own (R214). DESIGN CHOICE: log entry 12. -/
structure RxBlock where
  line : List Bool := []
  other : List Bool := []
deriving DecidableEq, Repr

/-- What the PCS of a MAC's lane notes beside a received frame: codewords corrected and not corrected (R184), and the
error of the receive timestamp in 2⁻³² ns (R108). DESIGN CHOICE: log entry 12. -/
structure EthObs where
  fecCorrected : Nat := 0
  fecUncorrected : Nat := 0
  err : Int := 0
deriving DecidableEq, Repr

/-- A picture that a picture names in its reference picture set or final reference picture lists: its picture order count
where the stream gives it, and whether a final list holds it (R266, R267). DESIGN CHOICE: log entry 12. -/
structure RefName where
  poc : Option Int := none
  listed : Bool := true
deriving DecidableEq, Repr

/-- What the decoder reads from the headers of an access unit before it starts its picture (R244, R245, R253 to R258,
R266 to R268, R67): the channel; whether it carries a VCL NAL unit; the kind of an IRAP or IDR picture (0 IDR, 1 BLA, 2 CRA);
the count of a recovery point SEI; whether it is a RASL picture; whether no slice can be parsed, with the error; profile and
level indications, general profile compatibility flags 1 and 2; the tools that R244 excludes; the sizes and limits of the
DPB, no_output_of_prior_pics_flag; frame_num and MaxFrameNum; the references named, the reference pictures kept after it
(H.264), whether it is one; the size of a coding tree unit, 16 · 2^k; coded size, cropping window, output size; 10-bit
samples, chroma_format_idc; colour word; picture order count; whether it will be output; its user data unregistered SEI
messages with their UUIDs. DESIGN CHOICE: log entry 12. -/
structure PictureStart where
  ch : Fin 96
  vcl : Bool := true
  irap : Option (Fin 3) := some 0
  recovery : Option Int := none
  rasl : Bool := false
  lost : Bool := false
  error : Option (Fin 6 × Fin 16777216) := none
  profile : Byte := 1
  level : Byte := 0
  compat1 : Bool := false
  compat2 : Bool := false
  interlaced : Bool := false
  sliceGroups : Bool := false
  redundant : Bool := false
  dpbMinus1 : Nat := 0
  reorder : Nat := 0
  latency : Option Nat := none
  dropPrior : Bool := false
  frameNum : Nat := 0
  maxFrameNum : Nat := 16
  refs : List RefName := []
  keep : List Int := []
  isRef : Bool := true
  unitLog : Fin 3 := 0
  codedW : Fin 65536 := 16
  codedH : Fin 65536 := 16
  top : Fin 65536 := 0
  left : Fin 65536 := 0
  outW : Fin 65536 := 16
  outH : Fin 65536 := 16
  tenBit : Bool := false
  chroma : Fin 4 := 1
  colour : Word := 0x00020202
  poc : Int := 0
  output : Bool := true
  sei : List (List Byte) := []
deriving DecidableEq, Repr

/-- A slice, or slice segment, of an access unit as its parsing goes: the bytes of the access unit ahead of it and in it, its
first unit, whether it is independent, the units parsed before parsing stops, and an error that the parser itself finds, by
class (R263, R264). DESIGN CHOICE: log entry 12. -/
structure SliceObs where
  skip : Nat := 0
  bytes : Nat := 0
  first : Nat := 0
  independent : Bool := true
  units : Nat := 0
  err : Option (Fin 6) := none
deriving DecidableEq, Repr

/-- What the parsing of a picture's slice data gives: cycles of the entropy engine since the last seal (R54); the coefficient
pages taken by it (none) and returned by pixel engines meanwhile (some e), in order (R248); its slices, in order; what the
reads of the bitstream meet (R366). DESIGN CHOICE: log entry 12. -/
structure ParseObs where
  cycles : Nat := 0
  pages : List (Option (Fin 8)) := []
  slices : List SliceObs := []
  links : LinkErrs := []
deriving DecidableEq, Repr

/-- A read of a reference picture: its slot, offset in it and length, and the unit that uses the data (R366). -/
structure RefRead where
  slot : Fin 16
  off : Nat
  len : Nat
  unit : Nat
deriving DecidableEq, Repr

/-- What the decoding of a picture gives: cycles of the pixel engine since the last seal; the rows of its planes and its
motion area as the standard reconstructs them (R257); the reads of reference pictures it makes, and what they meet (R366);
the words of the Granary found uncorrectable, by BAR4 offset and the unit whose records held them (R367).
DESIGN CHOICE: log entry 12. -/
structure DecodeObs where
  cycles : Nat := 0
  luma : List (List Byte) := []
  chroma : List (List Byte) := []
  motion : List Byte := []
  reads : List RefRead := []
  links : LinkErrs := []
  granary : List (Nat × Nat) := []
deriving DecidableEq, Repr

/-- The end of the work of a ring command, of FRAME_POST, CHK_JOB, CPX_JOB or SNAPSHOT: its tag, and what its reads of Cellar
meet (R366). DESIGN CHOICE: log entry 12. -/
structure WorkEnd where
  tag : Fin 4096
  links : LinkErrs := []
deriving DecidableEq, Repr

/-- The sending of a frame of NET_TX: the error of its transmit timestamp in 2⁻³² ns (R108), and what its reads of Cellar
meet (R366). DESIGN CHOICE: log entry 12. -/
structure SendObs where
  err : Int := 0
  links : LinkErrs := []
deriving DecidableEq, Repr

/-- The next block of a lane: the lane, and what the reads of Cellar for it meet (R366). DESIGN CHOICE: log entry 12. -/
structure LaneSend where
  lane : Fin 32
  links : LinkErrs := []
deriving DecidableEq, Repr

/-- Activations of a row of DRAM: the port whose request made the last of them, and how many there were since the count was
last seen (R362). DESIGN CHOICE: log entry 12. -/
structure RowActs where
  port : Fin 24
  acts : Nat
deriving DecidableEq, Repr

/-- What a head meets while it outputs a line: the bytes its fetch found in a host buffer that software was writing in
place of the buffer's present bytes, by space and address (R275), a word of its line stores that proves uncorrectable, with
the pixel that needs it (R367), whether its writeback queue overflows (R295), and the lines of the writeback frame whose
writes the DMC has acknowledged (R328). DESIGN CHOICE: log entry 12. DEDUCED: log entry 40. -/
structure ScanObs where
  mix : List (Nat × Nat × Byte) := []
  store : Option (Nat × Nat) := none
  wbOverflow : Bool := false
  acked : Nat := 0
deriving DecidableEq, Repr

/-- What a fetch unit's bursts meet: the bytes host software has stored in its own memory before them, and what the
ECC of Cellar's link shows (R366). DESIGN CHOICE: log entry 12. -/
structure BurstObs where
  hm : List (Nat × Byte) := []
  ecc : LinkErrs := []
deriving DecidableEq, Repr

/-- What the coding of a row of an encode session meets beside the session's own state: the cycles it took (R330), the reads
it makes of the work area, by offset and length, what the reads meet, and the words of its search cache found
uncorrectable, by BAR4 offset (R332, R366, R367). DESIGN CHOICE: log entry 12. -/
structure RowObs where
  cycles : Nat := 0
  refs : List (Nat × Nat) := []
  links : LinkErrs := []
  granary : List Nat := []
deriving DecidableEq, Repr

/-- What a bus access asks: a read, a posted write (with an answer for the debug port alone), an instruction fetch of a
Hearth core, or an atomic read-modify-write, which stores the bytes its master has computed (R415 to R417). -/
inductive BusOp where
  | read (len : Fin 4097)
  | write (data : List Byte)
  | fetch (len : Fin 4097)
  | atomic (data : List Byte)
deriving DecidableEq, Repr

/-- An access of a bus master, named by its guard (R411): address space and address (R413), what it asks; the port
of the Vestibule and lane DMA it uses (0 VST, 1 LNK_RX, 2 LNK_TX); what host software has stored in its own memory
before it; what the ECC shows at a read; counter updates from the guard's check to its completion (R424).
DESIGN CHOICE: log entry 12. -/
structure BusReq where
  guard : Fin 28
  space : Fin 4
  addr : Nat
  op : BusOp
  dma : Fin 3 := 0
  hm : Cells := []
  ecc : Ecc := .clean
  span : Nat := 0
deriving DecidableEq, Repr

/-- What a touch scan counts (R389, R390): quiet counts per frequency and slice (nine of which fit TCH_QUIET_f), the
reference count of each of the nine slices, and the counts of the 64 keys. DESIGN CHOICE: log entry 12. -/
structure TouchObs where
  quiet : List (List (Fin 7282)) := []
  refs : List (Fin 65536) := []
  keys : List Nat := []
deriving DecidableEq, Repr


/-- How the measurement of a calibration ends: its result lies within the item's trim range or outside it (R457),
and for the ADC what REFV measures in µV (R456). DESIGN CHOICE: log entry 12. -/
structure CalObs where
  inRange : Bool := true
  refUv : Nat := 1250000
deriving DecidableEq, Repr

/-- What the debug port does with a Hearth core (R426). -/
inductive CoreOp where
  | halt | step | run
deriving DecidableEq, Repr

/-- The commands, one constructor per row of spec/opcode_table.json. -/
inductive Instr where
  /-- PORST_N_ASSERT. PORST_n goes low for 10 µs or longer (R471, R474). -/
  | porstNAssert
  /-- PORST_N_RELEASE. PORST_n is released; `railTable` is what the SPI NOR gives at 0x01FF_F000, `g33` what the level
  detector of bank G reports: 3.3 V, else 1.8 V (R445, R471). -/
  | porstNRelease (railTable : List Byte) (g33 : Bool)
  /-- SYSRST_N. SYSRST_n is held low for at least 1 µs and released (R472). -/
  | sysrstN
  /-- PCIE_PERST_N. PCIE_PERST_n goes low (R473). -/
  | pciePerstN
  /-- PCIE_LINK_UP. PCIe link training completes at a width and generation (R473). -/
  | pcieLinkUp (width : Fin 16) (gen : Fin 16)
  /-- RAIL_SEQUENCE_STEP. The commanded rail (by rail code) reaches power-good (R445). -/
  | railSequenceStep (rail : Fin 8)
  /-- GRANARY_INIT_DONE. Every Granary word has been zeroed (R368). -/
  | granaryInitDone
  /-- DEMAL_BOOT_DONE. The Demal image copies, as the SPI NOR gives them, have been verified (R435). -/
  | demalBootDone (copyA : List Byte) (copyB : List Byte)
  /-- DEMAL_STALL. BEAT has not advanced across 8 consecutive ticks (R19). -/
  | demalStall
  /-- REGISTER_WRITE. A 32-bit write to BAR0 (R10). -/
  | registerWrite (off : Nat) (v : Word)
  /-- TICK_RUN_START. A write of RUN = 1 to TCK_CTRL (R27, R28). -/
  | tickRunStart
  /-- TICK_RUN_STOP. A write of RUN = 0 to TCK_CTRL (R30). -/
  | tickRunStop
  /-- TICK_TIMEBASE_WRITE. A write to TCK_PERIOD_NUM, _DEN, TCK_PHASE_NS or _FRAC (R29). -/
  | tickTimebaseWrite (reg : Fin 4) (v : Word)
  /-- GUARD_PM_WRITE. A write to TCK_GUARD (R49, R50). -/
  | guardPmWrite (v : Word)
  /-- SEAL. Tick N fires and is sealed (R25, R35). -/
  | tickSeal (o : SealObs)
  /-- HUSK_V_WRITE. A write to the V word of an HK pair (R74). -/
  | huskVWrite (off : Nat) (v : Word)
  /-- HUSK_K_WRITE. A write to the K word of an HK pair (R74). -/
  | huskKWrite (off : Nat) (k : Word)
  /-- HUSK_PENDING_TIMEOUT. A pending V has waited 81.92 µs (R74). -/
  | huskPendingTimeout (off : Nat)
  /-- TIM_NOW_READ. A read of TIM_NOW_SEC_LO (R106). -/
  | timNowRead
  /-- TCK_N_READ. A read of TCK_N_LO. -/
  | tckNRead
  /-- TIM_U_READ. A read of TIM_U_LO (R119). -/
  | timURead
  /-- SERVO_SAMPLE. A write to TIM_SRV_CMD (R111). -/
  | servoSample (v : Word)
  /-- STEP_ACCEPT. The K write of the TIM_STEP_ACCEPT pair (R116). -/
  | stepAccept (k : Word)
  /-- TIME_SET. A write to TIM_SET_CMD (R117). -/
  | timeSet (v : Word)
  /-- FREQ_WRITE. A write to TIM_FREQ, TIM_INC_NOM_LO or TIM_INC_NOM_HI (R113). -/
  | freqWrite (reg : Fin 3) (v : Word)
  /-- SERVO_DISABLE. A write of SERVO_EN = 0 (R113, R118). -/
  | servoDisable
  /-- HOLDOVER_TIMEOUT. HOLD_TIMEOUT passes with no accepted sample (R118). -/
  | holdoverTimeout
  /-- CAPTURE_EDGE. An edge at a capture input (R121). -/
  | captureEdge (input : Fin 17) (rising : Bool) (err : Int)
  /-- CAPTURE_FIFO_READ. A read of TIM_CAP_c_SEC_LO (R122). -/
  | captureFifoRead (input : Fin 17)
  /-- TRIGGER_ARM. A write with ARM = 1 to TIM_TRIG_t_CTRL (R124). -/
  | triggerArm (t : Fin 12) (v : Word)
  /-- TRIGGER_DISARM. A write with ARM = 0 to TIM_TRIG_t_CTRL (R124). -/
  | triggerDisarm (t : Fin 12) (v : Word)
  /-- TRIGGER_FIRE. An armed trigger reaches its next instant (R123). -/
  | triggerFire (t : Fin 12)
  /-- TRIGGER_PULSE_END. A trigger pulse has lasted WIDTH_NS (R123). -/
  | triggerPulseEnd (t : Fin 12)
  /-- SHEAF_SLOT_OPEN. A write of OPEN = 1 (R131). -/
  | sheafSlotOpen (slot : Fin 8)
  /-- SHEAF_CANCEL. A write of CANCEL = 1 (R139). -/
  | sheafCancel (slot : Fin 8)
  /-- SHEAF_SLOT_ENTRY_WRITE. A host write to a word of a slot’s entries (R131). -/
  | sheafSlotEntryWrite (slot : Fin 8) (word : Fin 16384) (v : Word)
  /-- SHEAF_SUBMIT. A SHEAF_SUBMIT command in flight executes (R132). -/
  | sheafSubmit (tag : Fin 4096)
  /-- SHEAF_CHECK_DONE. The checker completes the check of the oldest CHECKING slot (R140). -/
  | sheafCheckDone
  /-- SHF_APPLIED_READ. A read of a slot’s _APPLIED_LO. -/
  | shfAppliedRead (slot : Fin 8)
  /-- DIRECT_ENTER. A write to SHF_DIRECT_HEAD, SHF_DIRECT_SRC_0 to _2 or SHF_DIRECT_DEV (R144). -/
  | directEnter (reg : Fin 5) (v : Word)
  /-- ST_DIRECT_WRITE. A direct write to an ST register (R145, R146). -/
  | stDirectWrite (off : Nat) (v : Word)
  /-- SQ_DOORBELL. A write to the doorbell of a submission ring; `hm` are the bytes host software has stored in its own
  memory before it. -/
  | sqDoorbell (r : Fin 64) (w : Word) (narrow : Bool) (hm : Cells)
  /-- CQ_DOORBELL. A write to the doorbell of a completion ring (R153, R154). -/
  | cqDoorbell (c : Fin 32) (w : Word) (narrow : Bool)
  /-- EQ_DOORBELL. A write to the doorbell of an event ring (R153, R154, R172). -/
  | eqDoorbell (e : Fin 4) (w : Word) (narrow : Bool)
  /-- RING_ENABLE. A CFG write with EN = 1 (R152). -/
  | ringEnable (ring : RingId) (cfg : Word)
  /-- RING_DISABLE. A CFG write with EN = 0 (R152). -/
  | ringDisable (ring : RingId) (cfg : Word)
  /-- DESCRIPTOR_FETCH. The ring engine fetches the next descriptor of the ready SQ that is served and allocates `tag`
  (R157). -/
  | descriptorFetch (tag : Fin 4096) (hm : Cells) (ecc : Ecc)
  /-- COMPLETION_WRITE. The completion of a finished command falls due to be written (R165). -/
  | completionWrite (tag : Fin 4096) (linkOk : Bool)
  /-- EVT_PIN_ACK. A write of ACK = 1 (R174). -/
  | evtPinAck (pin : Fin 4)
  /-- NOP. The NOP command in flight under a tag executes (R159). -/
  | nop (tag : Fin 4096)
  /-- SRC_OPEN. The SRC_OPEN command in flight under a tag executes (R160, R237). -/
  | srcOpen (tag : Fin 4096)
  /-- SRC_CLOSE. The SRC_CLOSE command in flight under a tag executes (R176). -/
  | srcClose (tag : Fin 4096)
  /-- SRC_MAP. The SRC_MAP command in flight under a tag executes (R221). -/
  | srcMap (tag : Fin 4096)
  /-- FRAME_POST. The FRAME_POST command in flight under a tag executes (R239). -/
  | framePost (tag : Fin 4096)
  /-- FRAME_POST_COPY_DONE. The copy of a posted frame into its slot completes (R239). -/
  | framePostCopyDone (w : WorkEnd)
  /-- HEAD_CTL. The HEAD_CTL command executes (R309, R310). -/
  | headCtl (tag : Fin 4096)
  /-- FLOW_ADD. The FLOW_ADD command executes (R220). -/
  | flowAdd (tag : Fin 4096)
  /-- FLOW_DEL. The FLOW_DEL command executes (R220). -/
  | flowDel (tag : Fin 4096)
  /-- ENC_START. The ENC_START command executes (R322). -/
  | encStart (tag : Fin 4096)
  /-- ENC_STOP. The ENC_STOP command executes (R347). -/
  | encStop (tag : Fin 4096)
  /-- CHK_JOB. The CHK_JOB command starts (R374). -/
  | chkJob (tag : Fin 4096)
  /-- CHK_JOB_COMPLETE. A CHK job finishes its data (R374). -/
  | chkJobComplete (w : WorkEnd)
  /-- CPX_JOB. The CPX_JOB command starts (R384). -/
  | cpxJob (tag : Fin 4096)
  /-- CPX_JOB_COMPLETE. A CPX job completes (R385). -/
  | cpxJobComplete (w : WorkEnd)
  /-- SNAPSHOT. The SNAPSHOT command starts (R378). -/
  | snapshot (tag : Fin 4096)
  /-- SNAPSHOT_COMPLETE. A snapshot finishes (R379). -/
  | snapshotComplete (w : WorkEnd)
  /-- NET_TX. The NET_TX command executes (R236). -/
  | netTx (tag : Fin 4096)
  /-- NET_TX_SENT. The frame of a NET_TX command leaves its MAC (R236). -/
  | netTxSent (tag : Fin 4096) (o : SendObs)
  /-- NET_RX_POST. The NET_RX_POST command executes (R234). -/
  | netRxPost (tag : Fin 4096)
  /-- KEY_CONFIG. The KEY_CONFIG command executes (R408). -/
  | keyConfig (tag : Fin 4096)
  /-- BARRIER. The BARRIER command starts (R167). -/
  | barrier (tag : Fin 4096)
  /-- LEDGER_READ. The LEDGER_READ command executes (R164). -/
  | ledgerRead (tag : Fin 4096)
  /-- TRIM_RUN. The TRIM_RUN command executes (R460). -/
  | trimRun (tag : Fin 4096)
  /-- UNIT_DRAIN_COMPLETE. A DRAINING unit reaches OFF (R176): kind 0 source channel, 1 head, 2 encode session, 3 ring. -/
  | unitDrainComplete (kind : Fin 4) (unit : Nat)
  /-- LANE_ENABLE. A write of EN = 1 to LANE_n_CTRL (R183). -/
  | laneEnable (n : Fin 32) (ctrl : Word)
  /-- LANE_DISABLE. A write of EN = 0 to LANE_n_CTRL (R183). -/
  | laneDisable (n : Fin 32) (ctrl : Word)
  /-- QUAD_PLL_LOCK. A quad PLL reaches lock (R491). -/
  | quadPllLock (q : Fin 4) (pllB : Bool)
  /-- CDR_LOCK. The CDR of a lane locks (R201). -/
  | cdrLock (n : Fin 32)
  /-- CDR_LOSS. The CDR of a lane loses lock (R201). -/
  | cdrLoss (n : Fin 32)
  /-- BLIND_PERIOD_END. BLIND_US expires (R202). -/
  | blindPeriodEnd (n : Fin 32)
  /-- BLOCK_TRANSMIT. The lane reaches a transmit block boundary (R196). -/
  | blockTransmit (o : LaneSend)
  /-- BLOCK_RECEIVE. The lane receiver reaches a block position (R205). -/
  | blockReceive (n : Fin 32) (blk : RxBlock)
  /-- GENLOCK_TIMEOUT. No STATUS has been delivered for 2 ms (R200). -/
  | genlockTimeout (n : Fin 32)
  /-- SPARE_SWITCH. The lane switches to or from the spare slice (R214). -/
  | spareSwitch (n : Fin 32) (toSpare : Bool)
  /-- SPARE_COMPARE_TIMEOUT. The spare comparison has not succeeded within 10 ms (R215). -/
  | spareCompareTimeout (n : Fin 32)
  /-- ETH_FRAME_RECEIVE. A MAC receives a frame (R217). -/
  | ethFrameReceive (mac : Fin 8) (frame : List Byte) (obs : EthObs)
  /-- JITTER_DEADLINE. The oldest held packet reaches JITTER_US (R226). -/
  | jitterDeadline (flow : Fin 1024)
  /-- PATH_SILENT_TIMEOUT. A path has accepted no packet for SILENT_MS (R229). -/
  | pathSilentTimeout (flow : Fin 1024) (pathB : Bool)
  /-- DEPACKETISE. The depacketiser copies the oldest descriptor’s payload (R227). -/
  | depacketise (ch : Fin 96)
  /-- FLOW_COUNTS_READ. A read of _ARRIVED_A (R230). -/
  | flowCountsRead (flow : Fin 1024)
  /-- SRC_REG_ENABLE. A direct write of EN = 1 to SRC_s_CTRL (R238). -/
  | srcRegEnable (ch : Fin 96) (v : Word)
  /-- SRC_REG_DISABLE. A direct write of EN = 0 to SRC_s_CTRL (R238). -/
  | srcRegDisable (ch : Fin 96) (v : Word)
  /-- RTCP_MAP_COMMIT. The K write of the SRC_s_MAP_COMMIT pair (R241). -/
  | rtcpMapCommit (ch : Fin 96) (k : Word)
  /-- RTCP_MAP_EXPIRE. A mapping lapses (R242). -/
  | rtcpMapExpire (ch : Fin 96)
  /-- DECODE_PICTURE_START. Idle engines start the ready picture with the earliest arrival time (R249). -/
  | decodePictureStart (o : PictureStart)
  /-- ENTROPY_PARSE_DONE. The entropy engine finishes parsing a picture (R247). -/
  | entropyParseDone (ch : Fin 96) (o : ParseObs)
  /-- DECODE_PICTURE_COMPLETE. The writes of a picture are acknowledged (R256). -/
  | decodePictureComplete (ch : Fin 96) (o : DecodeObs)
  /-- DECODE_WORK_EXHAUSTED. A session’s cycle credit runs out during a picture (R54). -/
  | decodeWorkExhausted (ch : Fin 96) (pix : Bool)
  /-- VDC_SLOT_COUNTS_READ. A read of _SLOT_COUNTS (R260). -/
  | vdcSlotCountsRead (ch : Fin 96)
  /-- LAYER_TOUCH. A write of TOUCH = 1; `hm` are the bytes host software has stored in its own memory before it (R275). -/
  | layerTouch (h : Fin 24) (l : Fin 16) (hm : Cells)
  /-- HEAD_REG_ENABLE. A direct write of EN = 1 to HEAD_h_CTRL (R309). -/
  | headRegEnable (h : Fin 24)
  /-- HEAD_REG_DISABLE. A direct write of EN = 0 to HEAD_h_CTRL (R310). -/
  | headRegDisable (h : Fin 24)
  /-- PIXEL_PLL_LOCK. A head’s pixel PLL reaches LOCKED (R301). -/
  | pixelPllLock (h : Fin 24)
  /-- PIXEL_PLL_UNLOCK. A head’s PLL leaves LOCKED (R314). -/
  | pixelPllUnlock (h : Fin 24)
  /-- PLL_LOCK_TIMEOUT. The PLL fails to lock within 10 ms (R312). -/
  | pllLockTimeout (h : Fin 24)
  /-- PREFETCH_START. T_N + HEAD_PHASE − 40 µs (R45). -/
  | prefetchStart (h : Fin 24)
  /-- ACTIVE_SCAN_START. T_N + HEAD_PHASE; `err` is what the pixel clock is off its nominal count, in pixel periods (R302). -/
  | activeScanStart (h : Fin 24) (err : Int)
  /-- SCAN_LINE. The head composes and outputs one active line (R307). -/
  | scanLine (h : Fin 24) (o : ScanObs)
  /-- FETCH_BURST. A layer’s fetch unit issues a burst (R44). -/
  | fetchBurst (h : Fin 24) (l : Fin 16) (o : BurstObs)
  /-- ACTIVE_SCAN_CUT. Active scan is cut 16 µs before the next tick (R303). -/
  | activeScanCut (h : Fin 24)
  /-- FRAME_COMPLETE. The last active pixel of a head frame (R102). -/
  | frameComplete (h : Fin 24)
  /-- HEAD_STUCK_NO_FRAME. A RUNNING head completes no frame for two tick periods (R97). -/
  | headStuckNoFrame (h : Fin 24)
  /-- WRITEBACK_COMPLETE. The DMC acknowledges a writeback frame’s last write (R294). -/
  | writebackComplete (h : Fin 24)
  /-- HEAD_LAST_N_READ. A read of HEAD_h_LAST_N_LO (R308). -/
  | headLastNRead (h : Fin 24)
  /-- HEAD_FIRST_N_READ. A read of HEAD_h_FIRST_N_LO (R312). -/
  | headFirstNRead (h : Fin 24)
  /-- ENC_ROW_START. A pipeline begins the next row of the ready picture with the earliest deadline (R329). -/
  | encRowStart (p : Fin 2)
  /-- ENC_ROW_CODED. A row finishes coding (R336). -/
  | encRowCoded (p : Fin 2) (o : RowObs)
  /-- ENC_REC_CONS_WRITE. A write of VEN_S_n_REC_CONS (R344). -/
  | encRecConsWrite (n : Fin 16) (v : Word)
  /-- ENC_NEXT_N_READ. A read of _NEXT_N_LO (R325). -/
  | encNextNRead (n : Fin 16)
  /-- DMC_TRAIN. A write of DMC_CTRL (R353). -/
  | dmcTrain (v : Word)
  /-- DMC_TRAIN_DONE. A channel finishes an attempt of training; `fail` is the failing step, 0 for none, `density` and
  `rfm` what its devices report (R354). -/
  | dmcTrainDone (c : Fin 8) (fail : Fin 9) (density : Fin 8) (rfm : Bool)
  /-- DMC_TRACK_RUN. A due tracking run of a channel (R355). -/
  | dmcTrackRun (c : Fin 8) (good : Bool)
  /-- REFRESH_ISSUE. The DMC issues a REFab (R358). -/
  | refreshIssue (c : Fin 8) (idle : Bool)
  /-- REFRESH_CATCHUP_ENTER. The refresh debt exceeds the limit (R358). -/
  | refreshCatchupEnter (c : Fin 8)
  /-- REFAB_COMPLETE. A REFab completes (R358). -/
  | refabComplete (c : Fin 8)
  /-- ROW_DISTURB_DETECT. A row’s activation count reaches RD_THRESH: `acts` are its activations since it was last
  counted (R362). -/
  | rowDisturbDetect (c : Fin 8) (rank : Fin 2) (bank : Fin 16) (row : Fin 262144) (o : RowActs)
  /-- ROW_DISTURB_THROTTLE_END. The halving of a port’s refill rate ends (R362). -/
  | rowDisturbThrottleEnd (port : Fin 24)
  /-- RD_WINDOW_RESET. A refresh window starts (R362). -/
  | rdWindowReset (c : Fin 8)
  /-- SELF_REFRESH_IDLE_ENTRY. No request for SR_IDLE_US (R364). -/
  | selfRefreshIdleEntry (c : Fin 8)
  /-- SELF_REFRESH_EXIT. A request during or after self-refresh entry (R364). -/
  | selfRefreshExit (c : Fin 8) (beforeE4 : Bool) (mr4 : Byte) (good : Bool)
  /-- BUS_ACCESS. A bus master’s access (R411, R415). -/
  | busAccess (a : BusReq)
  /-- GRANARY_SCRUB. The scrubber reads the next Granary word (R369). -/
  | granaryScrub (ecc : Ecc)
  /-- CHK_CONTEXT_WRITE. A write to CHK_x_CFG, _RUN_LO or _RUN_HI (R377). -/
  | chkContextWrite (ctx : Fin 64) (reg : Fin 3) (v : Word)
  /-- CPX_JOURNAL_WRITE. A write to CPX_JOURNAL (R385). -/
  | cpxJournalWrite (hi : Bool) (v : Word)
  /-- TOUCH_SCAN_END. A touch scan ends (R389). -/
  | touchScanEnd (o : TouchObs)
  /-- KEY_SCAN_PROCESS. Demal processes a completed scan (R394). -/
  | keyScanProcess
  /-- GUARD_REG_WRITE. A write to a guard’s CTRL, BASE or CFG (R420). -/
  | guardRegWrite (off : Nat) (v : Word)
  /-- GUARD_SYNC_READ. A read of GRD_g_SYNC (R423). -/
  | guardSyncRead (g : Fin 28)
  /-- DEBUG_ACCESS. A memory access of the debug port (R425). -/
  | debugAccess (a : BusReq)
  /-- DEBUG_AUTH. The debug authentication register receives a public key and a signature (R432). -/
  | debugAuth (sig : List Byte)
  /-- LCS_REQUEST. The K write of the LCS_REQ pair (R429). -/
  | lcsRequest (k : Word)
  /-- LCS_REQUEST_DONE. The hardware finishes a life-cycle request; `fuseOk` says that every blown fuse word read back
  whole (R429). -/
  | lcsRequestDone (fuseOk : Bool)
  /-- POWER_REQUEST. The K write of the PWR_REQ pair (R440). -/
  | powerRequest (k : Word)
  /-- KEEP_WAKE. A wake cause ends KEEP (R443). -/
  | keepWake (cause : Fin 4) (gpio : Word)
  /-- POWER_DOWN. The power controller drives HEADOK low, waits 1 ms and turns off the rails (R444). -/
  | powerDown
  /-- SUPPLY_MONITOR_SAMPLE. A supply monitor sample (R446). -/
  | supplyMonitorSample (rail : Fin 8) (mv : Nat)
  /-- PMBUS_STATUS_POLL. STATUS_WORD of a regulator (R446). -/
  | pmbusStatusPoll (rail : Fin 8) (status : BitVec 16)
  /-- THERMAL_SAMPLE. The sensor readings in m°C (R447, R448). -/
  | thermalSample (mc : List Int)
  /-- THERMAL_STAGE_FALL. The hottest reading has stayed low for 100 ms (R448). -/
  | thermalStageFall
  /-- THERMAL_CRITICAL. The hottest reading has stayed at or above 127 °C for 10 ms (R448). -/
  | thermalCritical
  /-- AVS_SAMPLE. The slack monitors are read, in ps (R450). -/
  | avsSample (slacks : List Int)
  /-- AVS_RAISE_ACK. The regulator acknowledges a VDD_CORE raise (R452). -/
  | avsRaiseAck
  /-- TRIM_CMD. A write to TRM_CMD (R460). -/
  | trimCmd (v : Word)
  /-- CALIBRATION_COMPLETE. A calibration item finishes (R459). -/
  | calibrationComplete (item : Fin 73) (o : CalObs)
  /-- TRM_TIME_READ. A read of an item’s _TIME_LO (R459). -/
  | trmTimeRead (item : Fin 73)
  /-- LANE_RX_SPAN_READ. A read of _RX_SPAN_START (R206). -/
  | laneRxSpanRead (n : Fin 32)
  /-- LANE_FAR_SPAN_READ. A read of _FAR_SPAN_START (R207). -/
  | laneFarSpanRead (n : Fin 32)
  /-- ETH_LINK_CHANGE. The PCS of an Ethernet-mode lane changes state (R184). -/
  | ethLinkChange (n : Fin 32) (locked : Bool) (localFault : Bool) (remoteFault : Bool)
  /-- DEBUG_CORE_CONTROL. The debug port halts, steps or runs a Hearth core (R426). -/
  | debugCoreControl (core : Fin 4) (op : CoreOp)
deriving DecidableEq, Repr

end Sys2Proof
end

