-- ==== Sys2Proof/Decode.lean ====
section
/-!
DEFINITION. Decode.lean: the command that a word of bits spells. spec/opcode_table.json gives no row any bits (the
block takes no instruction words: its commands are register accesses, link blocks, packets and instants), so no word
spells a command.
-/

namespace Sys2Proof

/-- The command that an nbits-long word spells by the table's bits: none, for no row has any. DESIGN CHOICE: log entry 6. -/
def decodeTableWord (_nbits _w : Nat) : Option Instr := none

end Sys2Proof
end

