-- ==== Sys2Proof/Machine/RegNames.lean ====
section
/-!
DEFINITION. Machine/RegNames.lean: the BAR0 offset of every register under the name the register tables of spec/
give it; an array takes its indices as arguments.
-/

namespace Sys2Proof.Machine.R

/-- SYS_ID (R4). -/
def SYS_ID : Nat := 0
/-- SYS_UNITS0 (R16). -/
def SYS_UNITS0 : Nat := 4
/-- SYS_UNITS1 (R16). -/
def SYS_UNITS1 : Nat := 8
/-- SYS_UNITS2 (R16). -/
def SYS_UNITS2 : Nat := 0xC
/-- SYS_UNITS3 (R16). -/
def SYS_UNITS3 : Nat := 0x10
/-- SYS_DEMAL (R19). -/
def SYS_DEMAL : Nat := 0x20
/-- SYS_DEMAL_BEAT (R19). -/
def SYS_DEMAL_BEAT : Nat := 0x24
/-- LCS_STATE (R427). -/
def LCS_STATE : Nat := 0x10000
/-- LCS_BOOT (R435). -/
def LCS_BOOT : Nat := 0x10004
/-- LCS_KEYS (R436). -/
def LCS_KEYS : Nat := 0x10008
/-- LCS_UID (R430). -/
def LCS_UID (i : Nat) : Nat := 0x10010 + i * 4
/-- LCS_NONCE (R429). -/
def LCS_NONCE (i : Nat) : Nat := 0x10020 + i * 4
/-- LCS_REQ (R429). -/
def LCS_REQ : Nat := 0x10040
/-- LCS_RESULT (R429). -/
def LCS_RESULT : Nat := 0x10048
/-- LCS_KEY (R436). -/
def LCS_KEY (i j : Nat) : Nat := 0x10100 + i * 0x40 + j * 4
/-- LCS_REQ_BUF (R430). -/
def LCS_REQ_BUF (i : Nat) : Nat := 0x11000 + i * 4
/-- PWR_STATUS (R439). -/
def PWR_STATUS : Nat := 0x20000
/-- PWR_REQ (R440). -/
def PWR_REQ : Nat := 0x20008
/-- PWR_KEEP_COUNT (R443). -/
def PWR_KEEP_COUNT : Nat := 0x20010
/-- PWR_WAKE_GPIO (R443). -/
def PWR_WAKE_GPIO : Nat := 0x20014
/-- PWR_WAKE_POL (R443). -/
def PWR_WAKE_POL : Nat := 0x20018
/-- PWR_WAKE_AT_LO (R443). -/
def PWR_WAKE_AT_LO : Nat := 0x20020
/-- PWR_WAKE_AT_HI (R443). -/
def PWR_WAKE_AT_HI : Nat := 0x20024
/-- PWR_WAKE_AT_NS (R443). -/
def PWR_WAKE_AT_NS : Nat := 0x20028
/-- PWR_STAGE (R448). -/
def PWR_STAGE : Nat := 0x20030
/-- PWR_THR (R449). -/
def PWR_THR : Nat := 0x20034
/-- PWR_TEMP (R447). -/
def PWR_TEMP : Nat := 0x20038
/-- PWR_SENSOR_BAD (R447). -/
def PWR_SENSOR_BAD : Nat := 0x2003C
/-- PWR_AVS_LIMITS (R450). -/
def PWR_AVS_LIMITS : Nat := 0x20040
/-- PWR_AVS_MARGIN (R450). -/
def PWR_AVS_MARGIN : Nat := 0x20044
/-- PWR_AVS_VOUT (R450). -/
def PWR_AVS_VOUT : Nat := 0x20048
/-- PWR_LIMITS (R451). -/
def PWR_LIMITS : Nat := 0x2004C
/-- PWR_SENSOR (R447). -/
def PWR_SENSOR (i : Nat) : Nat := 0x20100 + i * 4
/-- PWR_RAIL (R446). -/
def PWR_RAIL (i : Nat) : Nat := 0x20200 + i * 4
/-- TRM_CTRL (R458). -/
def TRM_CTRL : Nat := 0x30000
/-- TRM_INTERVAL (R458). -/
def TRM_INTERVAL : Nat := 0x30004
/-- TRM_CMD (R460). -/
def TRM_CMD : Nat := 0x30008
/-- TRM_STATUS (R460). -/
def TRM_STATUS : Nat := 0x3000C
/-- TRM_REFV (R456). -/
def TRM_REFV : Nat := 0x30010
/-- TRM_COUNT (R459). -/
def TRM_COUNT (i : Nat) : Nat := 0x30100 + i * 0x10
/-- TRM_TIME_LO (R459). -/
def TRM_TIME_LO (i : Nat) : Nat := 0x30104 + i * 0x10
/-- TRM_TIME_HI (R459). -/
def TRM_TIME_HI (i : Nat) : Nat := 0x30108 + i * 0x10
/-- TRM_INFO (R454). -/
def TRM_INFO (i : Nat) : Nat := 0x3010C + i * 0x10
/-- TIM_CTRL (R111). -/
def TIM_CTRL : Nat := 0x40000
/-- TIM_STATUS (R118). -/
def TIM_STATUS : Nat := 0x40004
/-- TIM_NOW_SEC_LO (R106). -/
def TIM_NOW_SEC_LO : Nat := 0x40010
/-- TIM_NOW_SEC_HI (R106). -/
def TIM_NOW_SEC_HI : Nat := 0x40014
/-- TIM_NOW_NS (R106). -/
def TIM_NOW_NS : Nat := 0x40018
/-- TIM_NOW_FRAC (R106). -/
def TIM_NOW_FRAC : Nat := 0x4001C
/-- TIM_SET_SEC_LO (R117). -/
def TIM_SET_SEC_LO : Nat := 0x40020
/-- TIM_SET_SEC_HI (R117). -/
def TIM_SET_SEC_HI : Nat := 0x40024
/-- TIM_SET_NS (R117). -/
def TIM_SET_NS : Nat := 0x40028
/-- TIM_SET_FRAC (R117). -/
def TIM_SET_FRAC : Nat := 0x4002C
/-- TIM_SET_CMD (R117). -/
def TIM_SET_CMD : Nat := 0x40030
/-- TIM_INC_NOM_LO (R104). -/
def TIM_INC_NOM_LO : Nat := 0x40034
/-- TIM_INC_NOM_HI (R104). -/
def TIM_INC_NOM_HI : Nat := 0x40038
/-- TIM_FREQ (R105). -/
def TIM_FREQ : Nat := 0x4003C
/-- TIM_SRV_OFS_LO (R111). -/
def TIM_SRV_OFS_LO : Nat := 0x40040
/-- TIM_SRV_OFS_HI (R111). -/
def TIM_SRV_OFS_HI : Nat := 0x40044
/-- TIM_SRV_DELAY (R111). -/
def TIM_SRV_DELAY : Nat := 0x40048
/-- TIM_SRV_CMD (R111). -/
def TIM_SRV_CMD : Nat := 0x4004C
/-- TIM_KP (R112). -/
def TIM_KP : Nat := 0x40050
/-- TIM_KI (R112). -/
def TIM_KI : Nat := 0x40054
/-- TIM_FMAX (R105). -/
def TIM_FMAX : Nat := 0x40058
/-- TIM_SLEW (R112). -/
def TIM_SLEW : Nat := 0x4005C
/-- TIM_STEP_LIMIT (R111). -/
def TIM_STEP_LIMIT : Nat := 0x40060
/-- TIM_DELAY_MAX (R111). -/
def TIM_DELAY_MAX : Nat := 0x40064
/-- TIM_HOLD_TIMEOUT (R118). -/
def TIM_HOLD_TIMEOUT : Nat := 0x40068
/-- TIM_HO_RATE (R119). -/
def TIM_HO_RATE : Nat := 0x4006C
/-- TIM_INTEGRAL (R112). -/
def TIM_INTEGRAL : Nat := 0x40070
/-- TIM_LAST_OFS (R112). -/
def TIM_LAST_OFS : Nat := 0x40074
/-- TIM_U_LO (R119). -/
def TIM_U_LO : Nat := 0x40078
/-- TIM_U_HI (R119). -/
def TIM_U_HI : Nat := 0x4007C
/-- TIM_PEND_OFS_LO (R114). -/
def TIM_PEND_OFS_LO : Nat := 0x40080
/-- TIM_PEND_OFS_HI (R114). -/
def TIM_PEND_OFS_HI : Nat := 0x40084
/-- TIM_PEND_ID (R114). -/
def TIM_PEND_ID : Nat := 0x40088
/-- TIM_REFUSED_COUNT (R114). -/
def TIM_REFUSED_COUNT : Nat := 0x4008C
/-- TIM_STEP_ACCEPT (R116). -/
def TIM_STEP_ACCEPT : Nat := 0x40090
/-- TIM_DISCARD_COUNT (R111). -/
def TIM_DISCARD_COUNT : Nat := 0x40098
/-- TIM_TS_RX_ADJ (R108). -/
def TIM_TS_RX_ADJ (i : Nat) : Nat := 0x400C0 + i * 8
/-- TIM_TS_TX_ADJ (R108). -/
def TIM_TS_TX_ADJ (i : Nat) : Nat := 0x400C4 + i * 8
/-- TIM_CAP_CTRL (R121). -/
def TIM_CAP_CTRL (i : Nat) : Nat := 0x40100 + i * 0x20
/-- TIM_CAP_STATUS (R122). -/
def TIM_CAP_STATUS (i : Nat) : Nat := 0x40104 + i * 0x20
/-- TIM_CAP_SEC_LO (R122). -/
def TIM_CAP_SEC_LO (i : Nat) : Nat := 0x40108 + i * 0x20
/-- TIM_CAP_SEC_HI (R122). -/
def TIM_CAP_SEC_HI (i : Nat) : Nat := 0x4010C + i * 0x20
/-- TIM_CAP_NS (R122). -/
def TIM_CAP_NS (i : Nat) : Nat := 0x40110 + i * 0x20
/-- TIM_CAP_FRAC (R122). -/
def TIM_CAP_FRAC (i : Nat) : Nat := 0x40114 + i * 0x20
/-- TIM_TRIG_CTRL (R123). -/
def TIM_TRIG_CTRL (i : Nat) : Nat := 0x40400 + i * 0x40
/-- TIM_TRIG_START_SEC_LO (R123). -/
def TIM_TRIG_START_SEC_LO (i : Nat) : Nat := 0x40404 + i * 0x40
/-- TIM_TRIG_START_SEC_HI (R123). -/
def TIM_TRIG_START_SEC_HI (i : Nat) : Nat := 0x40408 + i * 0x40
/-- TIM_TRIG_START_NS (R123). -/
def TIM_TRIG_START_NS (i : Nat) : Nat := 0x4040C + i * 0x40
/-- TIM_TRIG_START_FRAC (R123). -/
def TIM_TRIG_START_FRAC (i : Nat) : Nat := 0x40410 + i * 0x40
/-- TIM_TRIG_PERIOD_NS (R123). -/
def TIM_TRIG_PERIOD_NS (i : Nat) : Nat := 0x40414 + i * 0x40
/-- TIM_TRIG_PERIOD_FRAC (R123). -/
def TIM_TRIG_PERIOD_FRAC (i : Nat) : Nat := 0x40418 + i * 0x40
/-- TIM_TRIG_WIDTH_NS (R123). -/
def TIM_TRIG_WIDTH_NS (i : Nat) : Nat := 0x4041C + i * 0x40
/-- TIM_TRIG_COUNT (R123). -/
def TIM_TRIG_COUNT (i : Nat) : Nat := 0x40420 + i * 0x40
/-- TIM_TRIG_FIRED (R123). -/
def TIM_TRIG_FIRED (i : Nat) : Nat := 0x40424 + i * 0x40
/-- TCK_CTRL (R27). -/
def TCK_CTRL : Nat := 0x50000
/-- TCK_STATUS (R27). -/
def TCK_STATUS : Nat := 0x50004
/-- TCK_PERIOD_NUM (R24). -/
def TCK_PERIOD_NUM : Nat := 0x50008
/-- TCK_PERIOD_DEN (R24). -/
def TCK_PERIOD_DEN : Nat := 0x5000C
/-- TCK_PHASE_NS (R24). -/
def TCK_PHASE_NS : Nat := 0x50010
/-- TCK_PHASE_FRAC (R24). -/
def TCK_PHASE_FRAC : Nat := 0x50014
/-- TCK_TIMEBASE_ID (R26). -/
def TCK_TIMEBASE_ID : Nat := 0x50018
/-- TCK_GUARD (R50). -/
def TCK_GUARD : Nat := 0x5001C
/-- TCK_N_LO (R35). -/
def TCK_N_LO : Nat := 0x50020
/-- TCK_N_HI (R35). -/
def TCK_N_HI : Nat := 0x50024
/-- TCK_SKIPPED (R32). -/
def TCK_SKIPPED : Nat := 0x50028
/-- TCK_REBASE (R33). -/
def TCK_REBASE : Nat := 0x5002C
/-- TCK_SEAL_MAX (R36). -/
def TCK_SEAL_MAX : Nat := 0x50030
/-- TCK_POOL_CAP (R49). -/
def TCK_POOL_CAP (i : Nat) : Nat := 0x50040 + i * 0x10
/-- TCK_POOL_LIMIT (R49). -/
def TCK_POOL_LIMIT (i : Nat) : Nat := 0x50044 + i * 0x10
/-- TCK_POOL_COMMITTED (R51). -/
def TCK_POOL_COMMITTED (i : Nat) : Nat := 0x50048 + i * 0x10
/-- TCK_POOL_SESSIONS (R51). -/
def TCK_POOL_SESSIONS (i : Nat) : Nat := 0x5004C + i * 0x10
/-- TCK_LEDGER_FAULT (R59). -/
def TCK_LEDGER_FAULT : Nat := 0x50080
/-- TCK_LEDGER_FIRST (R59). -/
def TCK_LEDGER_FIRST : Nat := 0x50084
/-- TCK_HEADPHASE (R46). -/
def TCK_HEADPHASE (i : Nat) : Nat := 0x50100 + i * 4
/-- TCK_LATE (R40). -/
def TCK_LATE (i : Nat) : Nat := 0x50400 + i * 4
/-- TCK_OVERTAKEN (R44). -/
def TCK_OVERTAKEN (i : Nat) : Nat := 0x50A00 + i * 4
/-- WIN_STATUS (R87). -/
def WIN_STATUS : Nat := 0x60000
/-- WIN_HUSK_REJECT (R101). -/
def WIN_HUSK_REJECT : Nat := 0x60004
/-- WIN_HUSK_FAULT (R75). -/
def WIN_HUSK_FAULT : Nat := 0x60008
/-- WIN_HUSK_FAULT_COUNT (R75). -/
def WIN_HUSK_FAULT_COUNT : Nat := 0x6000C
/-- WIN_SUMMARY (R77). -/
def WIN_SUMMARY : Nat := 0x60010
/-- WIN_MISMATCH_COUNT (R91). -/
def WIN_MISMATCH_COUNT : Nat := 0x60014
/-- WIN_COLOUR_A (R85). -/
def WIN_COLOUR_A : Nat := 0x60020
/-- WIN_COLOUR_C (R85). -/
def WIN_COLOUR_C : Nat := 0x60024
/-- WIN_HATCH_S (R85). -/
def WIN_HATCH_S : Nat := 0x60028
/-- WIN_HATCH_F (R85). -/
def WIN_HATCH_F : Nat := 0x6002C
/-- WIN_HATCH_U (R85). -/
def WIN_HATCH_U : Nat := 0x60030
/-- WIN_HB_FG (R85). -/
def WIN_HB_FG : Nat := 0x60034
/-- WIN_HB_BG (R85). -/
def WIN_HB_BG : Nat := 0x60038
/-- WIN_TEXT_FG (R85). -/
def WIN_TEXT_FG : Nat := 0x6003C
/-- WIN_TEXT_BG (R85). -/
def WIN_TEXT_BG : Nat := 0x60040
/-- WIN_TAI_UTC (R88). -/
def WIN_TAI_UTC : Nat := 0x60050
/-- WIN_LOCAL_OFS (R88). -/
def WIN_LOCAL_OFS : Nat := 0x60054
/-- WIN_WITNESS (R97). -/
def WIN_WITNESS : Nat := 0x60058
/-- WIN_INTENT_HEAD (R89). -/
def WIN_INTENT_HEAD (i : Nat) : Nat := 0x60400 + i * 8
/-- WIN_DP_HEAD (R89). -/
def WIN_DP_HEAD (i : Nat) : Nat := 0x60500 + i * 4
/-- WIN_INTENT_SRC_A (R89). -/
def WIN_INTENT_SRC_A (i : Nat) : Nat := 0x60600 + i * 0x10
/-- WIN_INTENT_SRC_DECL (R89). -/
def WIN_INTENT_SRC_DECL (i : Nat) : Nat := 0x60608 + i * 0x10
/-- WIN_INTENT_LAYER (R89). -/
def WIN_INTENT_LAYER (i j : Nat) : Nat := 0x61000 + i * 0x80 + j * 8
/-- WIN_L_LIVEMAX (R79). -/
def WIN_L_LIVEMAX (i j : Nat) : Nat := 0x62000 + i * 0x200 + j * 0x20
/-- WIN_L_STALEMIN (R79). -/
def WIN_L_STALEMIN (i j : Nat) : Nat := 0x62008 + i * 0x200 + j * 0x20
/-- WIN_L_MARK (R85). -/
def WIN_L_MARK (i j : Nat) : Nat := 0x62010 + i * 0x200 + j * 0x20
/-- WIN_L_CLASS (R77). -/
def WIN_L_CLASS (i j : Nat) : Nat := 0x62014 + i * 0x200 + j * 0x20
/-- WIN_L_AGE (R76). -/
def WIN_L_AGE (i j : Nat) : Nat := 0x62018 + i * 0x200 + j * 0x20
/-- WIN_L_DP (R89). -/
def WIN_L_DP (i j : Nat) : Nat := 0x6201C + i * 0x200 + j * 0x20
/-- WIN_S_TT_POS (R70). -/
def WIN_S_TT_POS (i : Nat) : Nat := 0x65000 + i * 0x20
/-- WIN_S_TT_SIZE (R70). -/
def WIN_S_TT_SIZE (i : Nat) : Nat := 0x65004 + i * 0x20
/-- WIN_S_FREEZE (R79). -/
def WIN_S_FREEZE (i : Nat) : Nat := 0x65008 + i * 0x20
/-- WIN_S_TIME (R66). -/
def WIN_S_TIME (i : Nat) : Nat := 0x6500C + i * 0x20
/-- WIN_S_SIG (R70). -/
def WIN_S_SIG (i : Nat) : Nat := 0x65010 + i * 0x20
/-- WIN_S_RUN (R71). -/
def WIN_S_RUN (i : Nat) : Nat := 0x65014 + i * 0x20
/-- WIN_S_DP_STATE (R89). -/
def WIN_S_DP_STATE (i : Nat) : Nat := 0x65018 + i * 0x20
/-- WIN_S_DP_DECL (R89). -/
def WIN_S_DP_DECL (i : Nat) : Nat := 0x6501C + i * 0x20
/-- WIN_LT_STATUS (R99). -/
def WIN_LT_STATUS (i : Nat) : Nat := 0x66000 + i * 0x100
/-- WIN_LT_RESTARTS (R98). -/
def WIN_LT_RESTARTS (i : Nat) : Nat := 0x66004 + i * 0x100
/-- WIN_LT_LAST_N (R102). -/
def WIN_LT_LAST_N (i : Nat) : Nat := 0x66008 + i * 0x100
/-- WIN_LT_HIST_CRC (R102). -/
def WIN_LT_HIST_CRC (i j : Nat) : Nat := 0x66010 + i * 0x100 + j * 8
/-- WIN_LT_HIST_INFO (R102). -/
def WIN_LT_HIST_INFO (i j : Nat) : Nat := 0x66014 + i * 0x100 + j * 8
/-- WIN_LT_LAYER_CRC (R102). -/
def WIN_LT_LAYER_CRC (i j : Nat) : Nat := 0x66090 + i * 0x100 + j * 4
/-- SHF_STATUS (R131). -/
def SHF_STATUS : Nat := 0x70000
/-- SHF_LAST (R140). -/
def SHF_LAST : Nat := 0x70004
/-- SHF_LAST_DETAIL (R141). -/
def SHF_LAST_DETAIL : Nat := 0x70008
/-- SHF_GEN (R138). -/
def SHF_GEN : Nat := 0x7000C
/-- SHF_APPLIED_COUNT (R136). -/
def SHF_APPLIED_COUNT : Nat := 0x70010
/-- SHF_REJECT_COUNT (R140). -/
def SHF_REJECT_COUNT : Nat := 0x70014
/-- SHF_DIRECT_HEAD (R144). -/
def SHF_DIRECT_HEAD : Nat := 0x70020
/-- SHF_DIRECT_SRC (R144). -/
def SHF_DIRECT_SRC (i : Nat) : Nat := 0x70024 + i * 4
/-- SHF_DIRECT_DEV (R144). -/
def SHF_DIRECT_DEV : Nat := 0x70030
/-- SHF_DIRECT_CLR_HEAD (R144). -/
def SHF_DIRECT_CLR_HEAD : Nat := 0x70040
/-- SHF_DIRECT_CLR_SRC (R144). -/
def SHF_DIRECT_CLR_SRC (i : Nat) : Nat := 0x70044 + i * 4
/-- SHF_DIRECT_CLR_DEV (R144). -/
def SHF_DIRECT_CLR_DEV : Nat := 0x70050
/-- SHF_SLOT_CTRL (R131). -/
def SHF_SLOT_CTRL (i : Nat) : Nat := 0x70100 + i * 0x20
/-- SHF_SLOT_STATE (R131). -/
def SHF_SLOT_STATE (i : Nat) : Nat := 0x70104 + i * 0x20
/-- SHF_SLOT_COUNT (R132). -/
def SHF_SLOT_COUNT (i : Nat) : Nat := 0x70108 + i * 0x20
/-- SHF_SLOT_CRC (R132). -/
def SHF_SLOT_CRC (i : Nat) : Nat := 0x7010C + i * 0x20
/-- SHF_SLOT_TARGET_LO (R132). -/
def SHF_SLOT_TARGET_LO (i : Nat) : Nat := 0x70110 + i * 0x20
/-- SHF_SLOT_TARGET_HI (R132). -/
def SHF_SLOT_TARGET_HI (i : Nat) : Nat := 0x70114 + i * 0x20
/-- SHF_SLOT_APPLIED_LO (R136). -/
def SHF_SLOT_APPLIED_LO (i : Nat) : Nat := 0x70118 + i * 0x20
/-- SHF_SLOT_APPLIED_HI (R136). -/
def SHF_SLOT_APPLIED_HI (i : Nat) : Nat := 0x7011C + i * 0x20
/-- RNG_STATUS (R157). -/
def RNG_STATUS : Nat := 0x80000
/-- RNG_SQ_BASE_LO (R151). -/
def RNG_SQ_BASE_LO (i : Nat) : Nat := 0x81000 + i * 0x40
/-- RNG_SQ_BASE_HI (R151). -/
def RNG_SQ_BASE_HI (i : Nat) : Nat := 0x81004 + i * 0x40
/-- RNG_SQ_CFG (R152). -/
def RNG_SQ_CFG (i : Nat) : Nat := 0x81008 + i * 0x40
/-- RNG_SQ_STATUS (R152). -/
def RNG_SQ_STATUS (i : Nat) : Nat := 0x8100C + i * 0x40
/-- RNG_SQ_INDEX (R154). -/
def RNG_SQ_INDEX (i : Nat) : Nat := 0x81010 + i * 0x40
/-- RNG_SQ_ISSUED (R58). -/
def RNG_SQ_ISSUED (i : Nat) : Nat := 0x81018 + i * 0x40
/-- RNG_SQ_COMPLETED (R58). -/
def RNG_SQ_COMPLETED (i : Nat) : Nat := 0x8101C + i * 0x40
/-- RNG_SQ_INFLIGHT (R58). -/
def RNG_SQ_INFLIGHT (i : Nat) : Nat := 0x81020 + i * 0x40
/-- RNG_CQ_BASE_LO (R151). -/
def RNG_CQ_BASE_LO (i : Nat) : Nat := 0x82000 + i * 0x40
/-- RNG_CQ_BASE_HI (R151). -/
def RNG_CQ_BASE_HI (i : Nat) : Nat := 0x82004 + i * 0x40
/-- RNG_CQ_CFG (R152). -/
def RNG_CQ_CFG (i : Nat) : Nat := 0x82008 + i * 0x40
/-- RNG_CQ_STATUS (R152). -/
def RNG_CQ_STATUS (i : Nat) : Nat := 0x8200C + i * 0x40
/-- RNG_CQ_INDEX (R154). -/
def RNG_CQ_INDEX (i : Nat) : Nat := 0x82010 + i * 0x40
/-- RNG_EQ_BASE_LO (R151). -/
def RNG_EQ_BASE_LO (i : Nat) : Nat := 0x82800 + i * 0x40
/-- RNG_EQ_BASE_HI (R151). -/
def RNG_EQ_BASE_HI (i : Nat) : Nat := 0x82804 + i * 0x40
/-- RNG_EQ_CFG (R152). -/
def RNG_EQ_CFG (i : Nat) : Nat := 0x82808 + i * 0x40
/-- RNG_EQ_STATUS (R152). -/
def RNG_EQ_STATUS (i : Nat) : Nat := 0x8280C + i * 0x40
/-- RNG_EQ_INDEX (R154). -/
def RNG_EQ_INDEX (i : Nat) : Nat := 0x82810 + i * 0x40
/-- RNG_EQ_LOST (R172). -/
def RNG_EQ_LOST (i : Nat) : Nat := 0x82814 + i * 0x40
/-- EVT_CODE (R173). -/
def EVT_CODE (i : Nat) : Nat := 0x90000 + i * 4
/-- EVT_COUNT (R175). -/
def EVT_COUNT (i : Nat) : Nat := 0x90400 + i * 4
/-- EVT_PIN_STATUS (R174). -/
def EVT_PIN_STATUS (i : Nat) : Nat := 0x90800 + i * 0x10
/-- EVT_PIN_ACK (R174). -/
def EVT_PIN_ACK (i : Nat) : Nat := 0x90804 + i * 0x10
/-- EVT_PIN_COUNT (R174). -/
def EVT_PIN_COUNT (i : Nat) : Nat := 0x90808 + i * 0x10
/-- GRD_CTRL (R415). -/
def GRD_CTRL (i : Nat) : Nat := 0xA0000 + i * 0x400
/-- GRD_STATUS (R420). -/
def GRD_STATUS (i : Nat) : Nat := 0xA0004 + i * 0x400
/-- GRD_SYNC (R423). -/
def GRD_SYNC (i : Nat) : Nat := 0xA0008 + i * 0x400
/-- GRD_DENIED_READS (R419). -/
def GRD_DENIED_READS (i : Nat) : Nat := 0xA0010 + i * 0x400
/-- GRD_DENIED_WRITES (R419). -/
def GRD_DENIED_WRITES (i : Nat) : Nat := 0xA0014 + i * 0x400
/-- GRD_LAST_LO (R419). -/
def GRD_LAST_LO (i : Nat) : Nat := 0xA0018 + i * 0x400
/-- GRD_LAST_HI (R419). -/
def GRD_LAST_HI (i : Nat) : Nat := 0xA001C + i * 0x400
/-- GRD_LAST_INFO (R419). -/
def GRD_LAST_INFO (i : Nat) : Nat := 0xA0020 + i * 0x400
/-- GRD_R_BASE_LO (R414). -/
def GRD_R_BASE_LO (i j : Nat) : Nat := 0xA0100 + i * 0x400 + j * 0x10
/-- GRD_R_BASE_HI (R414). -/
def GRD_R_BASE_HI (i j : Nat) : Nat := 0xA0104 + i * 0x400 + j * 0x10
/-- GRD_R_CFG (R414). -/
def GRD_R_CFG (i j : Nat) : Nat := 0xA0108 + i * 0x400 + j * 0x10
/-- CHK_STATUS (R375). -/
def CHK_STATUS : Nat := 0xB0000
/-- CHK_E_KIB (R375). -/
def CHK_E_KIB (i : Nat) : Nat := 0xB0010 + i * 4
/-- CHK_CFG (R377). -/
def CHK_CFG (i : Nat) : Nat := 0xB0100 + i * 0x20
/-- CHK_RUN_LO (R377). -/
def CHK_RUN_LO (i : Nat) : Nat := 0xB0104 + i * 0x20
/-- CHK_RUN_HI (R377). -/
def CHK_RUN_HI (i : Nat) : Nat := 0xB0108 + i * 0x20
/-- CHK_JOBS (R374). -/
def CHK_JOBS (i : Nat) : Nat := 0xB010C + i * 0x20
/-- CPX_STATUS (R385). -/
def CPX_STATUS : Nat := 0xC0000
/-- CPX_JOURNAL_LO (R385). -/
def CPX_JOURNAL_LO : Nat := 0xC0008
/-- CPX_JOURNAL_HI (R385). -/
def CPX_JOURNAL_HI : Nat := 0xC000C
/-- CPX_STATE (R384). -/
def CPX_STATE (i : Nat) : Nat := 0xC0100 + i * 0x20
/-- CPX_P (R381). -/
def CPX_P (i : Nat) : Nat := 0xC0104 + i * 0x20
/-- CPX_RESET_AFTER (R382). -/
def CPX_RESET_AFTER (i : Nat) : Nat := 0xC0108 + i * 0x20
/-- CPX_SINCE_FULL (R381). -/
def CPX_SINCE_FULL (i : Nat) : Nat := 0xC010C + i * 0x20
/-- CPX_JOBS (R385). -/
def CPX_JOBS (i : Nat) : Nat := 0xC0110 + i * 0x20
/-- CPX_FAILS (R385). -/
def CPX_FAILS (i : Nat) : Nat := 0xC0114 + i * 0x20
/-- CPX_IN_KIB (R385). -/
def CPX_IN_KIB (i : Nat) : Nat := 0xC0118 + i * 0x20
/-- CPX_OUT_KIB (R385). -/
def CPX_OUT_KIB (i : Nat) : Nat := 0xC011C + i * 0x20
/-- TCH_CTRL (R389). -/
def TCH_CTRL : Nat := 0xD0000
/-- TCH_STATUS (R391). -/
def TCH_STATUS : Nat := 0xD0004
/-- TCH_SCANS (R389). -/
def TCH_SCANS : Nat := 0xD0008
/-- TCH_NOISE (R393). -/
def TCH_NOISE : Nat := 0xD000C
/-- TCH_OVERRUNS (R391). -/
def TCH_OVERRUNS : Nat := 0xD0010
/-- TCH_QUIET (R390). -/
def TCH_QUIET (i : Nat) : Nat := 0xD0020 + i * 4
/-- TCH_REF_TRIM (R392). -/
def TCH_REF_TRIM (i j : Nat) : Nat := 0xD0100 + i * 0x20 + j * 4
/-- TCH_REF (R392). -/
def TCH_REF (i : Nat) : Nat := 0xD0110 + i * 0x20
/-- TCH_GAIN_ERR (R392). -/
def TCH_GAIN_ERR (i : Nat) : Nat := 0xD0114 + i * 0x20
/-- TCH_SLICE_STATUS (R392). -/
def TCH_SLICE_STATUS (i : Nat) : Nat := 0xD0118 + i * 0x20
/-- TCH_K_RAW (R392). -/
def TCH_K_RAW (i : Nat) : Nat := 0xD0400 + i * 0x10
/-- TCH_K_BASE (R395). -/
def TCH_K_BASE (i : Nat) : Nat := 0xD0404 + i * 0x10
/-- TCH_K_STATE (R394). -/
def TCH_K_STATE (i : Nat) : Nat := 0xD0408 + i * 0x10
/-- TCH_K_HELD (R396). -/
def TCH_K_HELD (i : Nat) : Nat := 0xD040C + i * 0x10
/-- LANE_CTRL (R183). -/
def LANE_CTRL (i : Nat) : Nat := 0x100000 + i * 0x400
/-- LANE_STATUS (R201). -/
def LANE_STATUS (i : Nat) : Nat := 0x100004 + i * 0x400
/-- LANE_BLIND (R202). -/
def LANE_BLIND (i : Nat) : Nat := 0x100008 + i * 0x400
/-- LANE_TX (R196). -/
def LANE_TX (i j : Nat) : Nat := 0x100010 + i * 0x400 + j * 4
/-- LANE_TX_SEQ (R187). -/
def LANE_TX_SEQ (i : Nat) : Nat := 0x100020 + i * 0x400
/-- LANE_TX_RESCRAMBLE (R190). -/
def LANE_TX_RESCRAMBLE (i : Nat) : Nat := 0x100024 + i * 0x400
/-- LANE_TX_DROPPED (R190). -/
def LANE_TX_DROPPED (i : Nat) : Nat := 0x100028 + i * 0x400
/-- LANE_TX_SKIPPED (R196). -/
def LANE_TX_SKIPPED (i : Nat) : Nat := 0x10002C + i * 0x400
/-- LANE_RX_SPAN_START (R206). -/
def LANE_RX_SPAN_START (i : Nat) : Nat := 0x100040 + i * 0x400
/-- LANE_RX_SEQ_LAST (R206). -/
def LANE_RX_SEQ_LAST (i : Nat) : Nat := 0x100044 + i * 0x400
/-- LANE_RX_RECEIVED (R206). -/
def LANE_RX_RECEIVED (i : Nat) : Nat := 0x100048 + i * 0x400
/-- LANE_RX_LOST (R206). -/
def LANE_RX_LOST (i : Nat) : Nat := 0x10004C + i * 0x400
/-- LANE_RX_BAD_HEADER (R205). -/
def LANE_RX_BAD_HEADER (i : Nat) : Nat := 0x100050 + i * 0x400
/-- LANE_RX_BLOCK_CRC (R193). -/
def LANE_RX_BLOCK_CRC (i : Nat) : Nat := 0x100054 + i * 0x400
/-- LANE_RX_LINE_CRC (R208). -/
def LANE_RX_LINE_CRC (i : Nat) : Nat := 0x100058 + i * 0x400
/-- LANE_RX_STUFF_ERR (R191). -/
def LANE_RX_STUFF_ERR (i : Nat) : Nat := 0x10005C + i * 0x400
/-- LANE_RX_LOST_ENTRIES (R201). -/
def LANE_RX_LOST_ENTRIES (i : Nat) : Nat := 0x100060 + i * 0x400
/-- LANE_RX_RESTARTS (R205). -/
def LANE_RX_RESTARTS (i : Nat) : Nat := 0x100064 + i * 0x400
/-- LANE_FAR_STATUS (R207). -/
def LANE_FAR_STATUS (i : Nat) : Nat := 0x100080 + i * 0x400
/-- LANE_FAR_SPAN_START (R207). -/
def LANE_FAR_SPAN_START (i : Nat) : Nat := 0x100084 + i * 0x400
/-- LANE_FAR_SEQ_LAST (R207). -/
def LANE_FAR_SEQ_LAST (i : Nat) : Nat := 0x100088 + i * 0x400
/-- LANE_FAR_RECEIVED (R207). -/
def LANE_FAR_RECEIVED (i : Nat) : Nat := 0x10008C + i * 0x400
/-- LANE_FAR_LOST (R207). -/
def LANE_FAR_LOST (i : Nat) : Nat := 0x100090 + i * 0x400
/-- LANE_FAR_AGE (R207). -/
def LANE_FAR_AGE (i : Nat) : Nat := 0x100094 + i * 0x400
/-- QUAD_STATUS (R491). -/
def QUAD_STATUS (i : Nat) : Nat := 0x108000 + i * 0x1000
/-- QUAD_SPARE (R214). -/
def QUAD_SPARE (i : Nat) : Nat := 0x108004 + i * 0x1000
/-- QUAD_SWITCHES (R214). -/
def QUAD_SWITCHES (i : Nat) : Nat := 0x108008 + i * 0x1000
/-- ETH_CTRL (R217). -/
def ETH_CTRL (i : Nat) : Nat := 0x140000 + i * 0x1000
/-- ETH_STATUS (R184). -/
def ETH_STATUS (i : Nat) : Nat := 0x140004 + i * 0x1000
/-- ETH_ADDR_LO (R217). -/
def ETH_ADDR_LO (i : Nat) : Nat := 0x140008 + i * 0x1000
/-- ETH_ADDR_HI (R217). -/
def ETH_ADDR_HI (i : Nat) : Nat := 0x14000C + i * 0x1000
/-- ETH_RX_FRAMES (R217). -/
def ETH_RX_FRAMES (i : Nat) : Nat := 0x140010 + i * 0x1000
/-- ETH_RX_FCS_ERR (R217). -/
def ETH_RX_FCS_ERR (i : Nat) : Nat := 0x140014 + i * 0x1000
/-- ETH_RX_SIZE_ERR (R217). -/
def ETH_RX_SIZE_ERR (i : Nat) : Nat := 0x140018 + i * 0x1000
/-- ETH_RX_PAUSE (R217). -/
def ETH_RX_PAUSE (i : Nat) : Nat := 0x14001C + i * 0x1000
/-- ETH_RX_FILTERED (R217). -/
def ETH_RX_FILTERED (i : Nat) : Nat := 0x140020 + i * 0x1000
/-- ETH_TX_FRAMES (R217). -/
def ETH_TX_FRAMES (i : Nat) : Nat := 0x140024 + i * 0x1000
/-- ETH_FEC_CORRECTED (R217). -/
def ETH_FEC_CORRECTED (i : Nat) : Nat := 0x140028 + i * 0x1000
/-- ETH_FEC_UNCORRECTED (R217). -/
def ETH_FEC_UNCORRECTED (i : Nat) : Nat := 0x14002C + i * 0x1000
/-- VST_STEER (R234). -/
def VST_STEER : Nat := 0x160000
/-- VST_UNMATCHED (R218). -/
def VST_UNMATCHED : Nat := 0x160004
/-- VST_UNBOUND (R223). -/
def VST_UNBOUND : Nat := 0x160008
/-- VST_RX_DROP (R235). -/
def VST_RX_DROP (i : Nat) : Nat := 0x16000C + i * 4
/-- VST_RX_POSTED (R234). -/
def VST_RX_POSTED : Nat := 0x160014
/-- VST_CELLAR_BASE_LO (R233). -/
def VST_CELLAR_BASE_LO : Nat := 0x160020
/-- VST_CELLAR_BASE_HI (R233). -/
def VST_CELLAR_BASE_HI : Nat := 0x160024
/-- VST_FLOW_STATE (R220). -/
def VST_FLOW_STATE (i : Nat) : Nat := 0x161000 + i * 0x40
/-- VST_FLOW_KEY_A_CRC (R219). -/
def VST_FLOW_KEY_A_CRC (i : Nat) : Nat := 0x161004 + i * 0x40
/-- VST_FLOW_KEY_B_CRC (R219). -/
def VST_FLOW_KEY_B_CRC (i : Nat) : Nat := 0x161008 + i * 0x40
/-- VST_FLOW_SSRC (R224). -/
def VST_FLOW_SSRC (i : Nat) : Nat := 0x16100C + i * 0x40
/-- VST_FLOW_ARRIVED_A (R230). -/
def VST_FLOW_ARRIVED_A (i : Nat) : Nat := 0x161010 + i * 0x40
/-- VST_FLOW_ARRIVED_B (R230). -/
def VST_FLOW_ARRIVED_B (i : Nat) : Nat := 0x161014 + i * 0x40
/-- VST_FLOW_USED (R230). -/
def VST_FLOW_USED (i : Nat) : Nat := 0x161018 + i * 0x40
/-- VST_FLOW_DUP (R230). -/
def VST_FLOW_DUP (i : Nat) : Nat := 0x16101C + i * 0x40
/-- VST_FLOW_LATE (R230). -/
def VST_FLOW_LATE (i : Nat) : Nat := 0x161020 + i * 0x40
/-- VST_FLOW_MALFORMED (R230). -/
def VST_FLOW_MALFORMED (i : Nat) : Nat := 0x161024 + i * 0x40
/-- VST_FLOW_HELD (R230). -/
def VST_FLOW_HELD (i : Nat) : Nat := 0x161028 + i * 0x40
/-- VST_FLOW_LOST (R226). -/
def VST_FLOW_LOST (i : Nat) : Nat := 0x16102C + i * 0x40
/-- VST_FLOW_RESTARTS (R228). -/
def VST_FLOW_RESTARTS (i : Nat) : Nat := 0x161030 + i * 0x40
/-- SRC_CTRL (R238). -/
def SRC_CTRL (i : Nat) : Nat := 0x180000 + i * 0x100
/-- SRC_STATE (R176). -/
def SRC_STATE (i : Nat) : Nat := 0x180004 + i * 0x100
/-- SRC_SOURCE_ID (R238). -/
def SRC_SOURCE_ID (i : Nat) : Nat := 0x180008 + i * 0x100
/-- SRC_INPUT (R221). -/
def SRC_INPUT (i : Nat) : Nat := 0x18000C + i * 0x100
/-- SRC_DECL (R238). -/
def SRC_DECL (i j : Nat) : Nat := 0x180010 + i * 0x100 + j * 4
/-- SRC_POOL_BASE_LO (R238). -/
def SRC_POOL_BASE_LO (i : Nat) : Nat := 0x180030 + i * 0x100
/-- SRC_POOL_BASE_HI (R238). -/
def SRC_POOL_BASE_HI (i : Nat) : Nat := 0x180034 + i * 0x100
/-- SRC_SLOT_STRIDE (R238). -/
def SRC_SLOT_STRIDE (i : Nat) : Nat := 0x180038 + i * 0x100
/-- SRC_JITTER (R226). -/
def SRC_JITTER (i : Nat) : Nat := 0x180040 + i * 0x100
/-- SRC_SILENT (R229). -/
def SRC_SILENT (i : Nat) : Nat := 0x180044 + i * 0x100
/-- SRC_RTCP_CFG (R241). -/
def SRC_RTCP_CFG (i : Nat) : Nat := 0x180048 + i * 0x100
/-- SRC_MAP_RTP (R241). -/
def SRC_MAP_RTP (i : Nat) : Nat := 0x180050 + i * 0x100
/-- SRC_MAP_SEC_LO (R241). -/
def SRC_MAP_SEC_LO (i : Nat) : Nat := 0x180054 + i * 0x100
/-- SRC_MAP_SEC_HI (R241). -/
def SRC_MAP_SEC_HI (i : Nat) : Nat := 0x180058 + i * 0x100
/-- SRC_MAP_NS (R241). -/
def SRC_MAP_NS (i : Nat) : Nat := 0x18005C + i * 0x100
/-- SRC_MAP_FRAC (R241). -/
def SRC_MAP_FRAC (i : Nat) : Nat := 0x180060 + i * 0x100
/-- SRC_MAP_COMMIT (R241). -/
def SRC_MAP_COMMIT (i : Nat) : Nat := 0x180068 + i * 0x100
/-- SRC_MAP_STATUS (R242). -/
def SRC_MAP_STATUS (i : Nat) : Nat := 0x180070 + i * 0x100
/-- SRC_FRAMES (R237). -/
def SRC_FRAMES (i : Nat) : Nat := 0x180080 + i * 0x100
/-- SRC_OVER_DECL (R54). -/
def SRC_OVER_DECL (i : Nat) : Nat := 0x180084 + i * 0x100
/-- SRC_LOSS_REPORTS (R226). -/
def SRC_LOSS_REPORTS (i : Nat) : Nat := 0x180088 + i * 0x100
/-- SRC_REJECTED (R239). -/
def SRC_REJECTED (i : Nat) : Nat := 0x18008C + i * 0x100
/-- VDC_STATUS (R247). -/
def VDC_STATUS : Nat := 0x200000
/-- VDC_COEF_PAGES (R248). -/
def VDC_COEF_PAGES : Nat := 0x200004
/-- VDC_COEF_STALLS (R248). -/
def VDC_COEF_STALLS : Nat := 0x200008
/-- VDC_PICTURES (R256). -/
def VDC_PICTURES : Nat := 0x20000C
/-- VDC_ENT_CYCLES (R247). -/
def VDC_ENT_CYCLES (i : Nat) : Nat := 0x200010 + i * 4
/-- VDC_PIX_CYCLES (R247). -/
def VDC_PIX_CYCLES (i : Nat) : Nat := 0x200030 + i * 4
/-- VDC_S_STATE (R254). -/
def VDC_S_STATE (i : Nat) : Nat := 0x201000 + i * 0x80
/-- VDC_S_FORMAT (R259). -/
def VDC_S_FORMAT (i : Nat) : Nat := 0x201004 + i * 0x80
/-- VDC_S_GEOM (R258). -/
def VDC_S_GEOM (i : Nat) : Nat := 0x201008 + i * 0x80
/-- VDC_S_NEXT_SEQ (R253). -/
def VDC_S_NEXT_SEQ (i : Nat) : Nat := 0x20100C + i * 0x80
/-- VDC_S_COST_ENT (R251). -/
def VDC_S_COST_ENT (i : Nat) : Nat := 0x201010 + i * 0x80
/-- VDC_S_COST_PIX (R251). -/
def VDC_S_COST_PIX (i : Nat) : Nat := 0x201014 + i * 0x80
/-- VDC_S_CREDIT_FRAME (R54). -/
def VDC_S_CREDIT_FRAME (i : Nat) : Nat := 0x201018 + i * 0x80
/-- VDC_S_CREDIT_ENT (R54). -/
def VDC_S_CREDIT_ENT (i : Nat) : Nat := 0x20101C + i * 0x80
/-- VDC_S_CREDIT_PIX (R54). -/
def VDC_S_CREDIT_PIX (i : Nat) : Nat := 0x201020 + i * 0x80
/-- VDC_S_SLOTS_A (R260). -/
def VDC_S_SLOTS_A (i : Nat) : Nat := 0x201024 + i * 0x80
/-- VDC_S_SLOTS_B (R260). -/
def VDC_S_SLOTS_B (i : Nat) : Nat := 0x201028 + i * 0x80
/-- VDC_S_SLOT_COUNTS (R260). -/
def VDC_S_SLOT_COUNTS (i : Nat) : Nat := 0x20102C + i * 0x80
/-- VDC_S_READERS (R260). -/
def VDC_S_READERS (i : Nat) : Nat := 0x201030 + i * 0x80
/-- VDC_S_DECODED (R256). -/
def VDC_S_DECODED (i : Nat) : Nat := 0x201040 + i * 0x80
/-- VDC_S_SKIPPED_START (R254). -/
def VDC_S_SKIPPED_START (i : Nat) : Nat := 0x201044 + i * 0x80
/-- VDC_S_SKIPPED_SLOT (R262). -/
def VDC_S_SKIPPED_SLOT (i : Nat) : Nat := 0x201048 + i * 0x80
/-- VDC_S_SKIPPED_ERROR (R265). -/
def VDC_S_SKIPPED_ERROR (i : Nat) : Nat := 0x20104C + i * 0x80
/-- VDC_S_UNSUPPORTED (R245). -/
def VDC_S_UNSUPPORTED (i : Nat) : Nat := 0x201050 + i * 0x80
/-- VDC_S_ERRORS (R263). -/
def VDC_S_ERRORS (i : Nat) : Nat := 0x201054 + i * 0x80
/-- VDC_S_CONCEALED_UNITS (R265). -/
def VDC_S_CONCEALED_UNITS (i : Nat) : Nat := 0x201058 + i * 0x80
/-- VDC_S_SUBST (R266). -/
def VDC_S_SUBST (i : Nat) : Nat := 0x20105C + i * 0x80
/-- VDC_S_TAINTED (R267). -/
def VDC_S_TAINTED (i : Nat) : Nat := 0x201060 + i * 0x80
/-- VDC_S_LAST_ERROR (R263). -/
def VDC_S_LAST_ERROR (i : Nat) : Nat := 0x201064 + i * 0x80
/-- VDC_S_LAST_ERROR_SEQ (R263). -/
def VDC_S_LAST_ERROR_SEQ (i : Nat) : Nat := 0x201068 + i * 0x80
/-- VEN_STATUS (R329). -/
def VEN_STATUS : Nat := 0x240000
/-- VEN_PIPE_CYCLES (R330). -/
def VEN_PIPE_CYCLES (i : Nat) : Nat := 0x240010 + i * 4
/-- VEN_STATE (R176). -/
def VEN_STATE (i : Nat) : Nat := 0x241000 + i * 0x100
/-- VEN_SRC (R321). -/
def VEN_SRC (i : Nat) : Nat := 0x241004 + i * 0x100
/-- VEN_SIZE (R321). -/
def VEN_SIZE (i : Nat) : Nat := 0x241008 + i * 0x100
/-- VEN_CODEC (R321). -/
def VEN_CODEC (i : Nat) : Nat := 0x24100C + i * 0x100
/-- VEN_MODE (R321). -/
def VEN_MODE (i : Nat) : Nat := 0x241010 + i * 0x100
/-- VEN_BIT_RATE (R321). -/
def VEN_BIT_RATE (i : Nat) : Nat := 0x241014 + i * 0x100
/-- VEN_CPB_KBIT (R321). -/
def VEN_CPB_KBIT (i : Nat) : Nat := 0x241018 + i * 0x100
/-- VEN_QP (R337). -/
def VEN_QP (i : Nat) : Nat := 0x24101C + i * 0x100
/-- VEN_REFRESH (R321). -/
def VEN_REFRESH (i : Nat) : Nat := 0x241020 + i * 0x100
/-- VEN_OUT_CFG (R321). -/
def VEN_OUT_CFG (i : Nat) : Nat := 0x241024 + i * 0x100
/-- VEN_OUT_BASE_LO (R321). -/
def VEN_OUT_BASE_LO (i : Nat) : Nat := 0x241028 + i * 0x100
/-- VEN_OUT_BASE_HI (R321). -/
def VEN_OUT_BASE_HI (i : Nat) : Nat := 0x24102C + i * 0x100
/-- VEN_WORK_BASE (R321). -/
def VEN_WORK_BASE (i : Nat) : Nat := 0x241030 + i * 0x100
/-- VEN_REC_CONS (R344). -/
def VEN_REC_CONS (i : Nat) : Nat := 0x241034 + i * 0x100
/-- VEN_REC_INDEX (R344). -/
def VEN_REC_INDEX (i : Nat) : Nat := 0x241038 + i * 0x100
/-- VEN_DATA_FREE (R346). -/
def VEN_DATA_FREE (i : Nat) : Nat := 0x24103C + i * 0x100
/-- VEN_CPB (R334). -/
def VEN_CPB (i : Nat) : Nat := 0x241040 + i * 0x100
/-- VEN_COST (R323). -/
def VEN_COST (i : Nat) : Nat := 0x241044 + i * 0x100
/-- VEN_NEXT_N_LO (R325). -/
def VEN_NEXT_N_LO (i : Nat) : Nat := 0x241048 + i * 0x100
/-- VEN_NEXT_N_HI (R325). -/
def VEN_NEXT_N_HI (i : Nat) : Nat := 0x24104C + i * 0x100
/-- VEN_PICTURES (R326). -/
def VEN_PICTURES (i : Nat) : Nat := 0x241050 + i * 0x100
/-- VEN_REPEATS (R326). -/
def VEN_REPEATS (i : Nat) : Nat := 0x241054 + i * 0x100
/-- VEN_FLOOR_PICTURES (R336). -/
def VEN_FLOOR_PICTURES (i : Nat) : Nat := 0x241058 + i * 0x100
/-- VEN_FLOOR_ROWS (R336). -/
def VEN_FLOOR_ROWS (i : Nat) : Nat := 0x24105C + i * 0x100
/-- VEN_OVER_CLAMP (R337). -/
def VEN_OVER_CLAMP (i : Nat) : Nat := 0x241060 + i * 0x100
/-- VEN_SKIPPED_LATE (R331). -/
def VEN_SKIPPED_LATE (i : Nat) : Nat := 0x241064 + i * 0x100
/-- VEN_INPUT_MISMATCH (R326). -/
def VEN_INPUT_MISMATCH (i : Nat) : Nat := 0x241068 + i * 0x100
/-- VEN_OUT_FULL (R346). -/
def VEN_OUT_FULL (i : Nat) : Nat := 0x24106C + i * 0x100
/-- VEN_SWEEPS (R341). -/
def VEN_SWEEPS (i : Nat) : Nat := 0x241070 + i * 0x100
/-- VEN_LAST_PERIOD (R342). -/
def VEN_LAST_PERIOD (i : Nat) : Nat := 0x241074 + i * 0x100
/-- CMP_STATUS (R273). -/
def CMP_STATUS : Nat := 0x280000
/-- CMP_HCOEF (R285). -/
def CMP_HCOEF (i j : Nat) : Nat := 0x280100 + i * 0x10 + j * 4
/-- CMP_VCOEF (R285). -/
def CMP_VCOEF (i j : Nat) : Nat := 0x280200 + i * 0x10 + j * 4
/-- HEAD_CMP_CTRL (R290). -/
def HEAD_CMP_CTRL (i : Nat) : Nat := 0x301000 + i * 0x4000
/-- HEAD_CMP_BG (R289). -/
def HEAD_CMP_BG (i : Nat) : Nat := 0x301004 + i * 0x4000
/-- HEAD_CMP_ORDER_0 (R290). -/
def HEAD_CMP_ORDER_0 (i : Nat) : Nat := 0x301008 + i * 0x4000
/-- HEAD_CMP_ORDER_1 (R290). -/
def HEAD_CMP_ORDER_1 (i : Nat) : Nat := 0x30100C + i * 0x4000
/-- HEAD_WB_BASE (R293). -/
def HEAD_WB_BASE (i : Nat) : Nat := 0x301010 + i * 0x4000
/-- HEAD_WB_CFG (R293). -/
def HEAD_WB_CFG (i : Nat) : Nat := 0x301014 + i * 0x4000
/-- HEAD_WB_STATUS (R294). -/
def HEAD_WB_STATUS (i : Nat) : Nat := 0x301018 + i * 0x4000
/-- HEAD_WB_FAILS (R295). -/
def HEAD_WB_FAILS (i : Nat) : Nat := 0x30101C + i * 0x4000
/-- HEAD_FETCH (R282). -/
def HEAD_FETCH (i : Nat) : Nat := 0x301020 + i * 0x4000
/-- HEAD_L_SRC (R272). -/
def HEAD_L_SRC (i j : Nat) : Nat := 0x302000 + i * 0x4000 + j * 0x100
/-- HEAD_L_CTRL (R288). -/
def HEAD_L_CTRL (i j : Nat) : Nat := 0x302008 + i * 0x4000 + j * 0x100
/-- HEAD_L_MIN_LAT (R37). -/
def HEAD_L_MIN_LAT (i j : Nat) : Nat := 0x30200C + i * 0x4000 + j * 0x100
/-- HEAD_L_CROP_POS (R274). -/
def HEAD_L_CROP_POS (i j : Nat) : Nat := 0x302010 + i * 0x4000 + j * 0x100
/-- HEAD_L_CROP_SIZE (R280). -/
def HEAD_L_CROP_SIZE (i j : Nat) : Nat := 0x302014 + i * 0x4000 + j * 0x100
/-- HEAD_L_DST_POS (R280). -/
def HEAD_L_DST_POS (i j : Nat) : Nat := 0x302018 + i * 0x4000 + j * 0x100
/-- HEAD_L_DST_SIZE (R280). -/
def HEAD_L_DST_SIZE (i j : Nat) : Nat := 0x30201C + i * 0x4000 + j * 0x100
/-- HEAD_L_LB (R281). -/
def HEAD_L_LB (i j : Nat) : Nat := 0x302020 + i * 0x4000 + j * 0x100
/-- HEAD_L_BG (R289). -/
def HEAD_L_BG (i j : Nat) : Nat := 0x302024 + i * 0x4000 + j * 0x100
/-- HEAD_L_ADDR (R275). -/
def HEAD_L_ADDR (i j : Nat) : Nat := 0x302028 + i * 0x4000 + j * 0x100
/-- HEAD_L_BUF_FMT (R276). -/
def HEAD_L_BUF_FMT (i j : Nat) : Nat := 0x30202C + i * 0x4000 + j * 0x100
/-- HEAD_L_BUF_SIZE (R275). -/
def HEAD_L_BUF_SIZE (i j : Nat) : Nat := 0x302030 + i * 0x4000 + j * 0x100
/-- HEAD_L_TOUCH (R275). -/
def HEAD_L_TOUCH (i j : Nat) : Nat := 0x302034 + i * 0x4000 + j * 0x100
/-- HEAD_L_ADDR_HI (R275). -/
def HEAD_L_ADDR_HI (i j : Nat) : Nat := 0x302038 + i * 0x4000 + j * 0x100
/-- HEAD_L_CSC_0 (R287). -/
def HEAD_L_CSC_0 (i j : Nat) : Nat := 0x302040 + i * 0x4000 + j * 0x100
/-- HEAD_L_CSC_1 (R287). -/
def HEAD_L_CSC_1 (i j : Nat) : Nat := 0x302044 + i * 0x4000 + j * 0x100
/-- HEAD_L_CSC_2 (R287). -/
def HEAD_L_CSC_2 (i j : Nat) : Nat := 0x302048 + i * 0x4000 + j * 0x100
/-- HEAD_L_CSC_3 (R287). -/
def HEAD_L_CSC_3 (i j : Nat) : Nat := 0x30204C + i * 0x4000 + j * 0x100
/-- HEAD_L_CSC_4 (R287). -/
def HEAD_L_CSC_4 (i j : Nat) : Nat := 0x302050 + i * 0x4000 + j * 0x100
/-- HEAD_L_CSC_IOFS_0 (R287). -/
def HEAD_L_CSC_IOFS_0 (i j : Nat) : Nat := 0x302054 + i * 0x4000 + j * 0x100
/-- HEAD_L_CSC_IOFS_1 (R287). -/
def HEAD_L_CSC_IOFS_1 (i j : Nat) : Nat := 0x302058 + i * 0x4000 + j * 0x100
/-- HEAD_L_CSC_POFS_0 (R287). -/
def HEAD_L_CSC_POFS_0 (i j : Nat) : Nat := 0x30205C + i * 0x4000 + j * 0x100
/-- HEAD_L_CSC_POFS_1 (R287). -/
def HEAD_L_CSC_POFS_1 (i j : Nat) : Nat := 0x302060 + i * 0x4000 + j * 0x100
/-- HEAD_L_STATUS (R286). -/
def HEAD_L_STATUS (i j : Nat) : Nat := 0x302068 + i * 0x4000 + j * 0x100
/-- HEAD_L_NEED (R281). -/
def HEAD_L_NEED (i j : Nat) : Nat := 0x30206C + i * 0x4000 + j * 0x100
/-- HEAD_CTRL (R309). -/
def HEAD_CTRL (i : Nat) : Nat := 0x300000 + i * 0x4000
/-- HEAD_STATUS (R176). -/
def HEAD_STATUS (i : Nat) : Nat := 0x300004 + i * 0x4000
/-- HEAD_EVT_EN (R308). -/
def HEAD_EVT_EN (i : Nat) : Nat := 0x300008 + i * 0x4000
/-- HEAD_LINE_MATCH (R308). -/
def HEAD_LINE_MATCH (i : Nat) : Nat := 0x30000C + i * 0x4000
/-- HEAD_H (R300). -/
def HEAD_H (i : Nat) : Nat := 0x300010 + i * 0x4000
/-- HEAD_V (R300). -/
def HEAD_V (i : Nat) : Nat := 0x300014 + i * 0x4000
/-- HEAD_MODE (R305). -/
def HEAD_MODE (i : Nat) : Nat := 0x300018 + i * 0x4000
/-- HEAD_WM (R490). -/
def HEAD_WM (i : Nat) : Nat := 0x30001C + i * 0x4000
/-- HEAD_PIXCLK (R299). -/
def HEAD_PIXCLK (i : Nat) : Nat := 0x300020 + i * 0x4000
/-- HEAD_ADJ (R302). -/
def HEAD_ADJ (i : Nat) : Nat := 0x300024 + i * 0x4000
/-- HEAD_POS (R302). -/
def HEAD_POS (i : Nat) : Nat := 0x300028 + i * 0x4000
/-- HEAD_LEAD (R306). -/
def HEAD_LEAD (i : Nat) : Nat := 0x30002C + i * 0x4000
/-- HEAD_LAST_N_LO (R308). -/
def HEAD_LAST_N_LO (i : Nat) : Nat := 0x300030 + i * 0x4000
/-- HEAD_LAST_N_HI (R308). -/
def HEAD_LAST_N_HI (i : Nat) : Nat := 0x300034 + i * 0x4000
/-- HEAD_LAST_FLAGS (R303). -/
def HEAD_LAST_FLAGS (i : Nat) : Nat := 0x300038 + i * 0x4000
/-- HEAD_FIRST_N_LO (R312). -/
def HEAD_FIRST_N_LO (i : Nat) : Nat := 0x300040 + i * 0x4000
/-- HEAD_FIRST_N_HI (R312). -/
def HEAD_FIRST_N_HI (i : Nat) : Nat := 0x300044 + i * 0x4000
/-- HEAD_RETIMES (R311). -/
def HEAD_RETIMES (i : Nat) : Nat := 0x300048 + i * 0x4000
/-- HEAD_UNLOCKS (R314). -/
def HEAD_UNLOCKS (i : Nat) : Nat := 0x30004C + i * 0x4000
/-- HEAD_UNDERRUN_FRAMES (R307). -/
def HEAD_UNDERRUN_FRAMES (i : Nat) : Nat := 0x300050 + i * 0x4000
/-- HEAD_UNDERRUN_LINES (R307). -/
def HEAD_UNDERRUN_LINES (i : Nat) : Nat := 0x300054 + i * 0x4000
/-- HEAD_TORN_FRAMES (R57). -/
def HEAD_TORN_FRAMES (i : Nat) : Nat := 0x300058 + i * 0x4000
/-- HEAD_TIMING_TORN_FRAMES (R316). -/
def HEAD_TIMING_TORN_FRAMES (i : Nat) : Nat := 0x30005C + i * 0x4000
/-- HEAD_URGENT_US (R306). -/
def HEAD_URGENT_US (i : Nat) : Nat := 0x300060 + i * 0x4000
/-- HEAD_LAST_UNDERRUN (R307). -/
def HEAD_LAST_UNDERRUN (i : Nat) : Nat := 0x300064 + i * 0x4000
/-- HEAD_FRAMES (R308). -/
def HEAD_FRAMES (i : Nat) : Nat := 0x300068 + i * 0x4000
/-- DMC_CH_STATUS (R354). -/
def DMC_CH_STATUS (i : Nat) : Nat := 0x400000 + i * 0x10000
/-- DMC_CH_MR4 (R359). -/
def DMC_CH_MR4 (i : Nat) : Nat := 0x400004 + i * 0x10000
/-- DMC_CH_DEBT (R358). -/
def DMC_CH_DEBT (i : Nat) : Nat := 0x400008 + i * 0x10000
/-- DMC_CH_CATCHUPS (R358). -/
def DMC_CH_CATCHUPS (i : Nat) : Nat := 0x40000C + i * 0x10000
/-- DMC_CH_CATCHUP_MAX (R358). -/
def DMC_CH_CATCHUP_MAX (i : Nat) : Nat := 0x400010 + i * 0x10000
/-- DMC_CH_TRACKS (R355). -/
def DMC_CH_TRACKS (i : Nat) : Nat := 0x400014 + i * 0x10000
/-- DMC_CH_TRACK_FAILS (R355). -/
def DMC_CH_TRACK_FAILS (i : Nat) : Nat := 0x400018 + i * 0x10000
/-- DMC_CH_RD_EVENTS (R362). -/
def DMC_CH_RD_EVENTS (i : Nat) : Nat := 0x40001C + i * 0x10000
/-- DMC_CH_RD_LAST (R362). -/
def DMC_CH_RD_LAST (i : Nat) : Nat := 0x400020 + i * 0x10000
/-- DMC_CH_SR_ENTRIES (R364). -/
def DMC_CH_SR_ENTRIES (i : Nat) : Nat := 0x400024 + i * 0x10000
/-- DMC_CH_SR_ABORTS (R364). -/
def DMC_CH_SR_ABORTS (i : Nat) : Nat := 0x400028 + i * 0x10000
/-- DMC_CH_ECC_CORRECTED (R366). -/
def DMC_CH_ECC_CORRECTED (i : Nat) : Nat := 0x40002C + i * 0x10000
/-- DMC_CH_ECC_UNCORRECTED (R366). -/
def DMC_CH_ECC_UNCORRECTED (i : Nat) : Nat := 0x400030 + i * 0x10000
/-- DMC_CFG (R353). -/
def DMC_CFG : Nat := 0x408000
/-- DMC_CTRL (R353). -/
def DMC_CTRL : Nat := 0x408004
/-- DMC_STATUS (R354). -/
def DMC_STATUS : Nat := 0x408008
/-- DMC_CAPACITY (R350). -/
def DMC_CAPACITY : Nat := 0x40800C
/-- DMC_CEILING (R357). -/
def DMC_CEILING : Nat := 0x408010
/-- DMC_TRACK (R355). -/
def DMC_TRACK : Nat := 0x408014
/-- DMC_RD (R362). -/
def DMC_RD : Nat := 0x408018
/-- DMC_SR (R364). -/
def DMC_SR : Nat := 0x40801C
/-- DMC_RETAIN (R365). -/
def DMC_RETAIN : Nat := 0x408020
/-- DMC_PORT_REG (R357). -/
def DMC_PORT_REG (i : Nat) : Nat := 0x408100 + i * 8
/-- DMC_PORT_STATUS (R357). -/
def DMC_PORT_STATUS (i : Nat) : Nat := 0x408104 + i * 8
/-- DMC_PORT_BYTES (R356). -/
def DMC_PORT_BYTES (i : Nat) : Nat := 0x408200 + i * 4
/-- GRN_STATUS (R368). -/
def GRN_STATUS : Nat := 0x500000
/-- GRN_SCRUB (R369). -/
def GRN_SCRUB : Nat := 0x500004
/-- GRN_SCRUB_PASSES (R369). -/
def GRN_SCRUB_PASSES : Nat := 0x500008
/-- GRN_CORRECTED (R367). -/
def GRN_CORRECTED : Nat := 0x50000C
/-- GRN_UNCORRECTED (R367). -/
def GRN_UNCORRECTED : Nat := 0x500010
/-- GRN_LAST_CE (R367). -/
def GRN_LAST_CE : Nat := 0x500014
/-- GRN_LAST_UE (R367). -/
def GRN_LAST_UE : Nat := 0x500018

end Sys2Proof.Machine.R
end

