-- ==== Sys2Proof/Machine/Bits.lean ====
section
/-!
DEFINITION. Machine/Bits.lean: bit fields, signed values, little-endian bytes and the CRC-32C of the manual
(initial value 0xFFFF_FFFF, final inversion, R94 and TCK_TIMEBASE_ID).
-/

namespace Sys2Proof.Machine

/-- Bits [hi:lo] of a value. -/
def bits (w hi lo : Nat) : Nat := w / 2 ^ lo % 2 ^ (hi + 1 - lo)

/-- Bit [i] of a value. -/
def bit (w i : Nat) : Bool := w.testBit i

/-- A value with bits [hi:lo] replaced. -/
def setBits (w hi lo v : Nat) : Nat :=
  w - bits w hi lo * 2 ^ lo + v % 2 ^ (hi + 1 - lo) * 2 ^ lo

/-- 1 for true, 0 for false. -/
def ofBool (b : Bool) : Nat := if b then 1 else 0

/-- The signed value of an n-bit pattern in two's complement. -/
def sint (n v : Nat) : Int :=
  if v % 2 ^ n < 2 ^ (n - 1) then ((v % 2 ^ n : Nat) : Int) else ((v % 2 ^ n : Nat) : Int) - ((2 ^ n : Nat) : Int)

/-- The n-bit two's complement pattern of a signed value. -/
def uint (n : Nat) (i : Int) : Nat := (i % ((2 ^ n : Nat) : Int)).toNat

/-- A signed value held within two bounds. -/
def clampInt (lo hi v : Int) : Int := if v < lo then lo else if hi < v then hi else v

/-- A value held within two bounds. -/
def clampNat (lo hi v : Nat) : Nat := if v < lo then lo else if hi < v then hi else v

/-- A quotient rounded up. -/
def ceilDiv (a b : Nat) : Nat := (a + b - 1) / b

/-- The low n bytes of a value, least significant first. -/
def leBytes : Nat → Nat → List Byte
  | 0, _ => []
  | n + 1, v => BitVec.ofNat 8 v :: leBytes n (v / 256)

/-- The value of bytes given least significant first. -/
def ofLe : List Byte → Nat
  | [] => 0
  | b :: bs => b.toNat + 256 * ofLe bs

/-- The low n bytes of a value, most significant first. -/
def beBytes (n v : Nat) : List Byte := (leBytes n v).reverse

/-- The value of bytes given most significant first. -/
def ofBe (l : List Byte) : Nat := ofLe l.reverse

/-- The bytes of 32-bit words, each little-endian. -/
def wordBytes (ws : List Nat) : List Byte := ws.flatMap (leBytes 4)

/-- The 32-bit little-endian words of a byte list. -/
def bytesToWords : Nat → List Byte → List Nat
  | 0, _ => []
  | n + 1, bs => ofLe (bs.take 4) :: bytesToWords n (bs.drop 4)

/-- One bit of a reflected CRC with the reflected polynomial `poly`. -/
def crcBit (poly c : Nat) : Nat := if c % 2 = 1 then (c / 2) ^^^ poly else c / 2

/-- One byte of a reflected CRC. -/
def crcByte (poly c : Nat) (b : Nat) : Nat :=
  let x := c ^^^ b
  crcBit poly (crcBit poly (crcBit poly (crcBit poly (crcBit poly (crcBit poly (crcBit poly (crcBit poly x)))))))

/-- The register of a reflected CRC after a run of bytes. -/
def crcRun (poly : Nat) : Nat → List Byte → Nat
  | c, [] => c
  | c, b :: bs => crcRun poly (crcByte poly c b.toNat) bs

/-- The reflected form of the CRC-32C polynomial 0x1EDC_6F41. -/
def crc32cPoly : Nat := 0x82F63B78

/-- CRC-32C of a byte list: initial value 0xFFFF_FFFF and final inversion. -/
def crc32c (bs : List Byte) : Nat := crcRun crc32cPoly 0xFFFFFFFF bs ^^^ 0xFFFFFFFF

/-- CRC-32C register update by one 32-bit little-endian word, without initial value or inversion. -/
def crc32cWord (c w : Nat) : Nat := crcRun crc32cPoly c (leBytes 4 w)

/-- One byte of an unreflected CRC of width n. -/
def crcMsbByte (n poly c b : Nat) : Nat :=
  (List.range 8).foldl (fun c _ => if c / 2 ^ (n - 1) % 2 = 1 then (c * 2 % 2 ^ n) ^^^ poly else c * 2 % 2 ^ n)
    (c ^^^ (b * 2 ^ (n - 8)))

/-- An unreflected CRC of width n over a run of bytes. -/
def crcMsbRun (n poly : Nat) : Nat → List Byte → Nat
  | c, [] => c
  | c, b :: bs => crcMsbRun n poly (crcMsbByte n poly c b.toNat) bs

end Sys2Proof.Machine
end

