-- ==== Sys2Proof/Machine/RegTable.lean ====
section
/-!
DEFINITION. Machine/RegTable.lean: the register map of BAR0, one row a register or array of registers, transcribed
from the register tables of every chapter of spec/ (R10 and the tables that close the chapters). A row gives the
offset, the array dimensions (count, stride), the fused unit that owns the instance (R2), the bits of each access
kind (RW, ST, HK, W1C, W1S), and the reset value. Bits of no listed kind are read only or reserved. The K word of
an HK pair stands as a row of its own. Values a register computes (SYS_ID, HEAD_h_PIXCLK ...) are not in the table:
Machine/RegFile.lean computes them.
-/

namespace Sys2Proof.Machine

/-- The kind of fused unit that owns a register instance (R2, R16); `none` for a register present on every part. -/
inductive RegUnit where
  | none | head | src | lane | quad | dmc | ent | pix | enc
deriving DecidableEq, Repr

/-- One row of the register map. `dims` lists (count, stride) of at most two array indices, `unitDiv` divides the
first index into the index of the owning unit. -/
structure RegRow where
  base : Nat
  dims : List (Nat × Nat)
  unit : RegUnit
  unitDiv : Nat
  rw : Nat
  st : Nat
  hk : Nat
  w1c : Nat
  w1s : Nat
  kWord : Bool
  reset : Nat
deriving DecidableEq, Repr

/-- Rows of the SYS block. -/
def rowsSys : List RegRow := [
  ⟨0, [], .none, 1, 0, 0, 0, 0, 0, false, 0x4B001010⟩,
  ⟨4, [], .none, 1, 0, 0, 0, 0, 0, false, 0⟩,
  ⟨8, [], .none, 1, 0, 0, 0, 0, 0, false, 0⟩,
  ⟨0xC, [], .none, 1, 0, 0, 0, 0, 0, false, 0⟩,
  ⟨0x10, [], .none, 1, 0, 0, 0, 0, 0, false, 0⟩,
  ⟨0x20, [], .none, 1, 0, 0, 0, 0, 0, false, 0⟩,
  ⟨0x24, [], .none, 1, 0, 0, 0, 0, 0, false, 0⟩
]

/-- Rows of the LCS block. -/
def rowsLcs : List RegRow := [
  ⟨0x10000, [], .none, 1, 0, 0, 0, 0, 0, false, 0⟩,
  ⟨0x10004, [], .none, 1, 0, 0, 0, 0, 0, false, 0xF03⟩,
  ⟨0x10008, [], .none, 1, 0, 0, 0, 0, 0, false, 0⟩,
  ⟨0x10010, [(4, 4)], .none, 1, 0, 0, 0, 0, 0, false, 0⟩,
  ⟨0x10020, [(8, 4)], .none, 1, 0, 0, 0, 0, 0, false, 0⟩,
  ⟨0x10040, [], .none, 1, 0, 0, 0x307, 0, 0, false, 0⟩,
  ⟨0x10044, [], .none, 1, 0, 0, 0xFFFFFFFF, 0, 0, true, 0xFFFFFFFF⟩,
  ⟨0x10048, [], .none, 1, 0, 0, 0, 0, 0, false, 0⟩,
  ⟨0x10100, [(5, 0x40), (0xC, 4)], .none, 1, 0, 0, 0, 0, 0, false, 0⟩,
  ⟨0x11000, [(0x80, 4)], .none, 1, 0xFFFFFFFF, 0, 0, 0, 0, false, 0⟩
]

/-- Rows of the PWR block. -/
def rowsPwr : List RegRow := [
  ⟨0x20000, [], .none, 1, 0, 0, 0, 0x20000, 0, false, 0⟩,
  ⟨0x20008, [], .none, 1, 0, 0, 3, 0, 0, false, 0⟩,
  ⟨0x2000C, [], .none, 1, 0, 0, 0xFFFFFFFF, 0, 0, true, 0xFFFFFFFF⟩,
  ⟨0x20010, [], .none, 1, 0, 0, 0, 0, 0, false, 0⟩,
  ⟨0x20014, [], .none, 1, 0xFFFFFFFF, 0, 0, 0, 0, false, 0⟩,
  ⟨0x20018, [], .none, 1, 0xFFFFFFFF, 0, 0, 0, 0, false, 0⟩,
  ⟨0x20020, [], .none, 1, 0xFFFFFFFF, 0, 0, 0, 0, false, 0⟩,
  ⟨0x20024, [], .none, 1, 0xFFFFFFFF, 0, 0, 0, 0, false, 0⟩,
  ⟨0x20028, [], .none, 1, 0xBFFFFFFF, 0, 0, 0, 0, false, 0⟩,
  ⟨0x20030, [], .none, 1, 0, 0, 0, 0, 0, false, 0⟩,
  ⟨0x20034, [], .none, 1, 0xFFFFFFFF, 0, 0, 0, 0, false, 0x4797570⟩,
  ⟨0x20038, [], .none, 1, 0, 0, 0, 0, 0, false, 0⟩,
  ⟨0x2003C, [], .none, 1, 0, 0, 0, 0, 0, false, 0⟩,
  ⟨0x20040, [], .none, 1, 0x3FF03FF, 0, 0, 0, 0, false, 0x352028A⟩,
  ⟨0x20044, [], .none, 1, 0xFF, 0, 0, 0, 0, false, 0x28⟩,
  ⟨0x20048, [], .none, 1, 0, 0, 0, 0, 0, false, 0⟩,
  ⟨0x2004C, [], .none, 1, 0, 0, 0, 0, 0, false, 0⟩,
  ⟨0x20100, [(0x10, 4)], .none, 1, 0, 0, 0, 0, 0, false, 0⟩,
  ⟨0x20200, [(8, 4)], .none, 1, 0, 0, 0, 0xC0000000, 0, false, 0⟩
]

/-- Rows of the TRM block. -/
def rowsTrm : List RegRow := [
  ⟨0x30000, [], .none, 1, 1, 0, 0, 0, 0, false, 1⟩,
  ⟨0x30004, [], .none, 1, 0x1FFFF, 0, 0, 0, 0, false, 0x258⟩,
  ⟨0x30008, [], .none, 1, 0, 0, 0, 0, 0, false, 0⟩,
  ⟨0x3000C, [], .none, 1, 0, 0, 0, 0x80, 0, false, 0⟩,
  ⟨0x30010, [], .none, 1, 0, 0, 0, 0, 0, false, 0⟩,
  ⟨0x30100, [(0x49, 0x10)], .none, 1, 0, 0, 0, 0, 0, false, 0⟩,
  ⟨0x30104, [(0x49, 0x10)], .none, 1, 0, 0, 0, 0, 0, false, 0⟩,
  ⟨0x30108, [(0x49, 0x10)], .none, 1, 0, 0, 0, 0, 0, false, 0⟩,
  ⟨0x3010C, [(0x49, 0x10)], .none, 1, 0, 0, 0, 0, 0, false, 0⟩
]

/-- Rows of the TIM block, part 0. -/
def rowsTim_0 : List RegRow := [
  ⟨0x40000, [], .none, 1, 1, 0, 0, 0, 0, false, 0⟩,
  ⟨0x40004, [], .none, 1, 0, 0, 0, 0xF0, 0, false, 0⟩,
  ⟨0x40010, [], .none, 1, 0, 0, 0, 0, 0, false, 0⟩,
  ⟨0x40014, [], .none, 1, 0, 0, 0, 0, 0, false, 0⟩,
  ⟨0x40018, [], .none, 1, 0, 0, 0, 0, 0, false, 0⟩,
  ⟨0x4001C, [], .none, 1, 0, 0, 0, 0, 0, false, 0⟩,
  ⟨0x40020, [], .none, 1, 0xFFFFFFFF, 0, 0, 0, 0, false, 0⟩,
  ⟨0x40024, [], .none, 1, 0xFFFFFFFF, 0, 0, 0, 0, false, 0⟩,
  ⟨0x40028, [], .none, 1, 0x3FFFFFFF, 0, 0, 0, 0, false, 0⟩,
  ⟨0x4002C, [], .none, 1, 0xFFFFFFFF, 0, 0, 0, 0, false, 0⟩,
  ⟨0x40030, [], .none, 1, 0, 0, 0, 0, 0, false, 0⟩,
  ⟨0x40034, [], .none, 1, 0xFFFFFFFF, 0, 0, 0, 0, false, 0x9999999A⟩,
  ⟨0x40038, [], .none, 1, 0xF, 0, 0, 0, 0, false, 1⟩,
  ⟨0x4003C, [], .none, 1, 0xFFFFFFFF, 0, 0, 0, 0, false, 0⟩,
  ⟨0x40040, [], .none, 1, 0xFFFFFFFF, 0, 0, 0, 0, false, 0⟩,
  ⟨0x40044, [], .none, 1, 0xFFFFFFFF, 0, 0, 0, 0, false, 0⟩,
  ⟨0x40048, [], .none, 1, 0xFFFFFFFF, 0, 0, 0, 0, false, 0⟩,
  ⟨0x4004C, [], .none, 1, 0, 0, 0, 0, 0, false, 0⟩,
  ⟨0x40050, [], .none, 1, 0xFFFF, 0, 0, 0, 0, false, 0xB3⟩,
  ⟨0x40054, [], .none, 1, 0xFFFF, 0, 0, 0, 0, false, 0x4D⟩,
  ⟨0x40058, [], .none, 1, 0xFFFFFFFF, 0, 0, 0, 0, false, 0x7A12000⟩,
  ⟨0x4005C, [], .none, 1, 0xFFFFFFFF, 0, 0, 0, 0, false, 0x271000⟩,
  ⟨0x40060, [], .none, 1, 0x3FFFFFFF, 0, 0, 0, 0, false, 0x186A0⟩,
  ⟨0x40064, [], .none, 1, 0xFFFFFFFF, 0, 0, 0, 0, false, 0xF4240⟩,
  ⟨0x40068, [], .none, 1, 0xFFFF, 0, 0, 0, 0, false, 0xFA0⟩,
  ⟨0x4006C, [], .none, 1, 0x1FFFF, 0, 0, 0, 0, false, 0x3E8⟩,
  ⟨0x40070, [], .none, 1, 0, 0, 0, 0, 0, false, 0⟩,
  ⟨0x40074, [], .none, 1, 0, 0, 0, 0, 0, false, 0⟩,
  ⟨0x40078, [], .none, 1, 0, 0, 0, 0, 0, false, 0⟩,
  ⟨0x4007C, [], .none, 1, 0, 0, 0, 0, 0, false, 0⟩
]

/-- Rows of the TIM block, part 1. -/
def rowsTim_1 : List RegRow := [
  ⟨0x40080, [], .none, 1, 0, 0, 0, 0, 0, false, 0⟩,
  ⟨0x40084, [], .none, 1, 0, 0, 0, 0, 0, false, 0⟩,
  ⟨0x40088, [], .none, 1, 0, 0, 0, 0, 0, false, 0⟩,
  ⟨0x4008C, [], .none, 1, 0, 0, 0, 0, 0, false, 0⟩,
  ⟨0x40090, [], .none, 1, 0, 0, 0xFFFF, 0, 0, false, 0⟩,
  ⟨0x40094, [], .none, 1, 0, 0, 0xFFFFFFFF, 0, 0, true, 0xFFFFFFFF⟩,
  ⟨0x40098, [], .none, 1, 0, 0, 0, 0, 0, false, 0⟩,
  ⟨0x400C0, [(8, 8)], .none, 1, 0xFFFFFFFF, 0, 0, 0, 0, false, 0⟩,
  ⟨0x400C4, [(8, 8)], .none, 1, 0xFFFFFFFF, 0, 0, 0, 0, false, 0⟩,
  ⟨0x40100, [(0x11, 0x20)], .none, 1, 7, 0, 0, 0, 0, false, 0⟩,
  ⟨0x40104, [(0x11, 0x20)], .none, 1, 0, 0, 0, 0, 0, false, 0⟩,
  ⟨0x40108, [(0x11, 0x20)], .none, 1, 0, 0, 0, 0, 0, false, 0⟩,
  ⟨0x4010C, [(0x11, 0x20)], .none, 1, 0, 0, 0, 0, 0, false, 0⟩,
  ⟨0x40110, [(0x11, 0x20)], .none, 1, 0, 0, 0, 0, 0, false, 0⟩,
  ⟨0x40114, [(0x11, 0x20)], .none, 1, 0, 0, 0, 0, 0, false, 0⟩,
  ⟨0x40400, [(0xC, 0x40)], .none, 1, 7, 0, 0, 0xE0, 0, false, 0⟩,
  ⟨0x40404, [(0xC, 0x40)], .none, 1, 0xFFFFFFFF, 0, 0, 0, 0, false, 0⟩,
  ⟨0x40408, [(0xC, 0x40)], .none, 1, 0xFFFFFFFF, 0, 0, 0, 0, false, 0⟩,
  ⟨0x4040C, [(0xC, 0x40)], .none, 1, 0x3FFFFFFF, 0, 0, 0, 0, false, 0⟩,
  ⟨0x40410, [(0xC, 0x40)], .none, 1, 0xFFFFFFFF, 0, 0, 0, 0, false, 0⟩,
  ⟨0x40414, [(0xC, 0x40)], .none, 1, 0xFFFFFFFF, 0, 0, 0, 0, false, 0⟩,
  ⟨0x40418, [(0xC, 0x40)], .none, 1, 0xFFFFFFFF, 0, 0, 0, 0, false, 0⟩,
  ⟨0x4041C, [(0xC, 0x40)], .none, 1, 0xFFFFFFFF, 0, 0, 0, 0, false, 0⟩,
  ⟨0x40420, [(0xC, 0x40)], .none, 1, 0xFFFFFFFF, 0, 0, 0, 0, false, 0⟩,
  ⟨0x40424, [(0xC, 0x40)], .none, 1, 0, 0, 0, 0, 0, false, 0⟩
]

/-- Rows of the TIM block. -/
def rowsTim : List RegRow := rowsTim_0 ++ rowsTim_1

/-- Rows of the TCK block. -/
def rowsTck : List RegRow := [
  ⟨0x50000, [], .none, 1, 1, 0, 0, 0, 0, false, 0⟩,
  ⟨0x50004, [], .none, 1, 0, 0, 0, 0x70, 0, false, 0⟩,
  ⟨0x50008, [], .none, 1, 0xFFFFFFFF, 0, 0, 0, 0, false, 0x2FAF080⟩,
  ⟨0x5000C, [], .none, 1, 0xFFFF, 0, 0, 0, 0, false, 3⟩,
  ⟨0x50010, [], .none, 1, 0x3FFFFFFF, 0, 0, 0, 0, false, 0⟩,
  ⟨0x50014, [], .none, 1, 0xFFFFFFFF, 0, 0, 0, 0, false, 0⟩,
  ⟨0x50018, [], .none, 1, 0, 0, 0, 0, 0, false, 0⟩,
  ⟨0x5001C, [], .none, 1, 0x3FF, 0, 0, 0, 0, false, 0x32⟩,
  ⟨0x50020, [], .none, 1, 0, 0, 0, 0, 0, false, 0⟩,
  ⟨0x50024, [], .none, 1, 0, 0, 0, 0, 0, false, 0⟩,
  ⟨0x50028, [], .none, 1, 0, 0, 0, 0, 0, false, 0⟩,
  ⟨0x5002C, [], .none, 1, 0, 0, 0, 0, 0, false, 0⟩,
  ⟨0x50030, [], .none, 1, 0, 0, 0, 0, 0, false, 0⟩,
  ⟨0x50040, [(4, 0x10)], .none, 1, 0, 0, 0, 0, 0, false, 0⟩,
  ⟨0x50044, [(4, 0x10)], .none, 1, 0, 0, 0, 0, 0, false, 0⟩,
  ⟨0x50048, [(4, 0x10)], .none, 1, 0, 0, 0, 0, 0, false, 0⟩,
  ⟨0x5004C, [(4, 0x10)], .none, 1, 0, 0, 0, 0, 0, false, 0⟩,
  ⟨0x50080, [], .none, 1, 0, 0, 0, 0, 0, false, 0⟩,
  ⟨0x50084, [], .none, 1, 0, 0, 0, 0, 0, false, 0⟩,
  ⟨0x50100, [(0x18, 4)], .head, 1, 0, 0x3FFFFFF, 0, 0, 0, false, 0x30D40⟩,
  ⟨0x50400, [(0x180, 4)], .head, 16, 0, 0, 0, 0, 0, false, 0⟩,
  ⟨0x50A00, [(0x180, 4)], .head, 16, 0, 0, 0, 0, 0, false, 0⟩
]

/-- Rows of the WIN block, part 0. -/
def rowsWin_0 : List RegRow := [
  ⟨0x60000, [], .none, 1, 0, 0, 0, 3, 0, false, 0⟩,
  ⟨0x60004, [], .none, 1, 0, 0, 0, 0, 0, false, 0⟩,
  ⟨0x60008, [], .none, 1, 0, 0, 0, 0, 0, false, 0⟩,
  ⟨0x6000C, [], .none, 1, 0, 0, 0, 0, 0, false, 0⟩,
  ⟨0x60010, [], .none, 1, 0, 0, 0, 0, 0, false, 0⟩,
  ⟨0x60014, [], .none, 1, 0, 0, 0, 0, 0, false, 0⟩,
  ⟨0x60020, [], .none, 1, 0, 0x3FFFFFFF, 0, 0, 0, false, 0x3FFA0000⟩,
  ⟨0x60024, [], .none, 1, 0, 0x3FFFFFFF, 0, 0, 0, false, 0x3FF003FF⟩,
  ⟨0x60028, [], .none, 1, 0, 0x3FFFFFFF, 0, 0, 0, false, 0x20080200⟩,
  ⟨0x6002C, [], .none, 1, 0, 0x3FFFFFFF, 0, 0, 0, false, 0x3FF00000⟩,
  ⟨0x60030, [], .none, 1, 0, 0x3FFFFFFF, 0, 0, 0, false, 0xFFFFF⟩,
  ⟨0x60034, [], .none, 1, 0, 0x3FFFFFFF, 0, 0, 0, false, 0x3FFFFFFF⟩,
  ⟨0x60038, [], .none, 1, 0, 0x3FFFFFFF, 0, 0, 0, false, 0⟩,
  ⟨0x6003C, [], .none, 1, 0, 0x3FFFFFFF, 0, 0, 0, false, 0x3FFFFFFF⟩,
  ⟨0x60040, [], .none, 1, 0, 0x3FFFFFFF, 0, 0, 0, false, 0⟩,
  ⟨0x60050, [], .none, 1, 0xFFFF, 0, 0, 0, 0, false, 0x25⟩,
  ⟨0x60054, [], .none, 1, 0xFFFFFFFF, 0, 0, 0, 0, false, 0⟩,
  ⟨0x60058, [], .none, 1, 0, 0xF, 0, 0, 0, false, 2⟩,
  ⟨0x60400, [(0x18, 8)], .head, 1, 0, 0, 0xC0000000, 0, 0, false, 0⟩,
  ⟨0x60404, [(0x18, 8)], .head, 1, 0, 0, 0xFFFFFFFF, 0, 0, true, 0xFFFFFFFF⟩,
  ⟨0x60500, [(0x18, 4)], .head, 1, 0, 0, 0, 0, 0, false, 0⟩,
  ⟨0x60600, [(0x60, 0x10)], .src, 1, 0, 0, 0xF0000000, 0, 0, false, 0⟩,
  ⟨0x60604, [(0x60, 0x10)], .src, 1, 0, 0, 0xFFFFFFFF, 0, 0, true, 0xFFFFFFFF⟩,
  ⟨0x60608, [(0x60, 0x10)], .src, 1, 0, 0, 0xFFFFFFFF, 0, 0, false, 0⟩,
  ⟨0x6060C, [(0x60, 0x10)], .src, 1, 0, 0, 0xFFFFFFFF, 0, 0, true, 0xFFFFFFFF⟩,
  ⟨0x61000, [(0x18, 0x80), (0x10, 8)], .head, 1, 0, 0, 0xF000FFFF, 0, 0, false, 0⟩,
  ⟨0x61004, [(0x18, 0x80), (0x10, 8)], .head, 1, 0, 0, 0xFFFFFFFF, 0, 0, true, 0xFFFFFFFF⟩,
  ⟨0x62000, [(0x18, 0x200), (0x10, 0x20)], .head, 1, 0, 0, 0xFFFFFF, 0, 0, false, 0x186A0⟩,
  ⟨0x62004, [(0x18, 0x200), (0x10, 0x20)], .head, 1, 0, 0, 0xFFFFFFFF, 0, 0, true, 0xFFFE795F⟩,
  ⟨0x62008, [(0x18, 0x200), (0x10, 0x20)], .head, 1, 0, 0, 0xFFFFFF, 0, 0, false, 0x7A120⟩
]

/-- Rows of the WIN block, part 1. -/
def rowsWin_1 : List RegRow := [
  ⟨0x6200C, [(0x18, 0x200), (0x10, 0x20)], .head, 1, 0, 0, 0xFFFFFFFF, 0, 0, true, 0xFFF85EDF⟩,
  ⟨0x62010, [(0x18, 0x200), (0x10, 0x20)], .head, 1, 0, 0x37FFB, 0, 0, 0, false, 0x10841⟩,
  ⟨0x62014, [(0x18, 0x200), (0x10, 0x20)], .head, 1, 0, 0, 0, 0, 0, false, 0⟩,
  ⟨0x62018, [(0x18, 0x200), (0x10, 0x20)], .head, 1, 0, 0, 0, 0, 0, false, 0xFFFFFFFF⟩,
  ⟨0x6201C, [(0x18, 0x200), (0x10, 0x20)], .head, 1, 0, 0, 0, 0, 0, false, 0⟩,
  ⟨0x65000, [(0x60, 0x20)], .src, 1, 0, 0xFFF0FFF, 0, 0, 0, false, 0⟩,
  ⟨0x65004, [(0x60, 0x20)], .src, 1, 0, 0x807F01FF, 0, 0, 0, false, 0⟩,
  ⟨0x65008, [(0x60, 0x20)], .src, 1, 0, 0xFF, 0, 0, 0, false, 0x1E⟩,
  ⟨0x6500C, [(0x60, 0x20)], .src, 1, 0, 0xFFFF03, 0, 0, 0, false, 0x7D000⟩,
  ⟨0x65010, [(0x60, 0x20)], .src, 1, 0, 0, 0, 0, 0, false, 0⟩,
  ⟨0x65014, [(0x60, 0x20)], .src, 1, 0, 0, 0, 0, 0, false, 0⟩,
  ⟨0x65018, [(0x60, 0x20)], .src, 1, 0, 0, 0, 0, 0, false, 0⟩,
  ⟨0x6501C, [(0x60, 0x20)], .src, 1, 0, 0, 0, 0, 0, false, 0⟩,
  ⟨0x66000, [(0x18, 0x100)], .head, 1, 0, 0, 0, 0xC, 0, false, 0⟩,
  ⟨0x66004, [(0x18, 0x100)], .head, 1, 0, 0, 0, 0, 0, false, 0⟩,
  ⟨0x66008, [(0x18, 0x100)], .head, 1, 0, 0, 0, 0, 0, false, 0⟩,
  ⟨0x66010, [(0x18, 0x100), (0x10, 8)], .head, 1, 0, 0, 0, 0, 0, false, 0⟩,
  ⟨0x66014, [(0x18, 0x100), (0x10, 8)], .head, 1, 0, 0, 0, 0, 0, false, 0⟩,
  ⟨0x66090, [(0x18, 0x100), (0x10, 4)], .head, 1, 0, 0, 0, 0, 0, false, 0⟩
]

/-- Rows of the WIN block. -/
def rowsWin : List RegRow := rowsWin_0 ++ rowsWin_1

/-- Rows of the SHF block. -/
def rowsShf : List RegRow := [
  ⟨0x70000, [], .none, 1, 0, 0, 0, 0, 0, false, 0⟩,
  ⟨0x70004, [], .none, 1, 0, 0, 0, 0, 0, false, 0⟩,
  ⟨0x70008, [], .none, 1, 0, 0, 0, 0, 0, false, 0⟩,
  ⟨0x7000C, [], .none, 1, 0, 0, 0, 0, 0, false, 0⟩,
  ⟨0x70010, [], .none, 1, 0, 0, 0, 0, 0, false, 0⟩,
  ⟨0x70014, [], .none, 1, 0, 0, 0, 0, 0, false, 0⟩,
  ⟨0x70020, [], .none, 1, 0, 0, 0, 0, 0xFFFFFF, false, 0⟩,
  ⟨0x70024, [(3, 4)], .none, 1, 0, 0, 0, 0, 0xFFFFFFFF, false, 0⟩,
  ⟨0x70030, [], .none, 1, 0, 0, 0, 0, 1, false, 0⟩,
  ⟨0x70040, [], .none, 1, 0, 0xFFFFFF, 0, 0, 0, false, 0⟩,
  ⟨0x70044, [(3, 4)], .none, 1, 0, 0xFFFFFFFF, 0, 0, 0, false, 0⟩,
  ⟨0x70050, [], .none, 1, 0, 1, 0, 0, 0, false, 0⟩,
  ⟨0x70100, [(8, 0x20)], .none, 1, 0, 0, 0, 0, 0, false, 0⟩,
  ⟨0x70104, [(8, 0x20)], .none, 1, 0, 0, 0, 0, 0, false, 0⟩,
  ⟨0x70108, [(8, 0x20)], .none, 1, 0, 0, 0, 0, 0, false, 0⟩,
  ⟨0x7010C, [(8, 0x20)], .none, 1, 0, 0, 0, 0, 0, false, 0⟩,
  ⟨0x70110, [(8, 0x20)], .none, 1, 0, 0, 0, 0, 0, false, 0⟩,
  ⟨0x70114, [(8, 0x20)], .none, 1, 0, 0, 0, 0, 0, false, 0⟩,
  ⟨0x70118, [(8, 0x20)], .none, 1, 0, 0, 0, 0, 0, false, 0⟩,
  ⟨0x7011C, [(8, 0x20)], .none, 1, 0, 0, 0, 0, 0, false, 0⟩
]

/-- Rows of the RNG block. -/
def rowsRng : List RegRow := [
  ⟨0x80000, [], .none, 1, 0, 0, 0, 0, 0, false, 0⟩,
  ⟨0x81000, [(0x40, 0x40)], .none, 1, 0xFFFFF000, 0, 0, 0, 0, false, 0⟩,
  ⟨0x81004, [(0x40, 0x40)], .none, 1, 0xFFFFFFFF, 0, 0, 0, 0, false, 0⟩,
  ⟨0x81008, [(0x40, 0x40)], .none, 1, 0x1F1FC00B, 0, 0, 0, 0, false, 0⟩,
  ⟨0x8100C, [(0x40, 0x40)], .none, 1, 0, 0, 0, 0x3C, 0, false, 0⟩,
  ⟨0x81010, [(0x40, 0x40)], .none, 1, 0, 0, 0, 0, 0, false, 0⟩,
  ⟨0x81018, [(0x40, 0x40)], .none, 1, 0, 0, 0, 0, 0, false, 0⟩,
  ⟨0x8101C, [(0x40, 0x40)], .none, 1, 0, 0, 0, 0, 0, false, 0⟩,
  ⟨0x81020, [(0x40, 0x40)], .none, 1, 0, 0, 0, 0, 0, false, 0⟩,
  ⟨0x82000, [(0x20, 0x40)], .none, 1, 0xFFFFF000, 0, 0, 0, 0, false, 0⟩,
  ⟨0x82004, [(0x20, 0x40)], .none, 1, 0xFFFFFFFF, 0, 0, 0, 0, false, 0⟩,
  ⟨0x82008, [(0x20, 0x40)], .none, 1, 0x1F003F07, 0, 0, 0, 0, false, 0⟩,
  ⟨0x8200C, [(0x20, 0x40)], .none, 1, 0, 0, 0, 0x3C, 0, false, 0⟩,
  ⟨0x82010, [(0x20, 0x40)], .none, 1, 0, 0, 0, 0, 0, false, 0⟩,
  ⟨0x82800, [(4, 0x40)], .none, 1, 0xFFFFF000, 0, 0, 0, 0, false, 0⟩,
  ⟨0x82804, [(4, 0x40)], .none, 1, 0xFFFFFFFF, 0, 0, 0, 0, false, 0⟩,
  ⟨0x82808, [(4, 0x40)], .none, 1, 0x1F003F07, 0, 0, 0, 0, false, 0⟩,
  ⟨0x8280C, [(4, 0x40)], .none, 1, 0, 0, 0, 0x3C, 0, false, 0⟩,
  ⟨0x82810, [(4, 0x40)], .none, 1, 0, 0, 0, 0, 0, false, 0⟩,
  ⟨0x82814, [(4, 0x40)], .none, 1, 0, 0, 0, 0, 0, false, 0⟩
]

/-- Rows of the EVT block. -/
def rowsEvt : List RegRow := [
  ⟨0x90000, [(0xC0, 4)], .none, 1, 0xE003303F, 0, 0, 0, 0, false, 0x80000000⟩,
  ⟨0x90400, [(0xC0, 4)], .none, 1, 0, 0, 0, 0, 0, false, 0⟩,
  ⟨0x90800, [(4, 0x10)], .none, 1, 0, 0, 0, 0, 0, false, 0⟩,
  ⟨0x90804, [(4, 0x10)], .none, 1, 0, 0, 0, 0, 0, false, 0⟩,
  ⟨0x90808, [(4, 0x10)], .none, 1, 0, 0, 0, 0, 0, false, 0⟩
]

/-- Rows of the GRD block. -/
def rowsGrd : List RegRow := [
  ⟨0xA0000, [(0x1C, 0x400)], .none, 1, 7, 0, 0, 0, 8, false, 7⟩,
  ⟨0xA0004, [(0x1C, 0x400)], .none, 1, 0, 0, 0, 3, 0, false, 0⟩,
  ⟨0xA0008, [(0x1C, 0x400)], .none, 1, 0, 0, 0, 0, 0, false, 0⟩,
  ⟨0xA0010, [(0x1C, 0x400)], .none, 1, 0, 0, 0, 0, 0, false, 0⟩,
  ⟨0xA0014, [(0x1C, 0x400)], .none, 1, 0, 0, 0, 0, 0, false, 0⟩,
  ⟨0xA0018, [(0x1C, 0x400)], .none, 1, 0, 0, 0, 0, 0, false, 0⟩,
  ⟨0xA001C, [(0x1C, 0x400)], .none, 1, 0, 0, 0, 0, 0, false, 0⟩,
  ⟨0xA0020, [(0x1C, 0x400)], .none, 1, 0, 0, 0, 0, 0, false, 0⟩,
  ⟨0xA0100, [(0x1C, 0x400), (0x10, 0x10)], .none, 1, 0xFFFFF000, 0, 0, 0, 0, false, 0⟩,
  ⟨0xA0104, [(0x1C, 0x400), (0x10, 0x10)], .none, 1, 0xFFFFFFFF, 0, 0, 0, 0, false, 0⟩,
  ⟨0xA0108, [(0x1C, 0x400), (0x10, 0x10)], .none, 1, 0x80FFFF0F, 0, 0, 0, 0, false, 0⟩
]

/-- Rows of the CHK block. -/
def rowsChk : List RegRow := [
  ⟨0xB0000, [], .none, 1, 0, 0, 0, 0, 0, false, 0⟩,
  ⟨0xB0010, [(4, 4)], .none, 1, 0, 0, 0, 0, 0, false, 0⟩,
  ⟨0xB0100, [(0x40, 0x20)], .none, 1, 3, 0, 0, 8, 0, false, 0⟩,
  ⟨0xB0104, [(0x40, 0x20)], .none, 1, 0xFFFFFFFF, 0, 0, 0, 0, false, 0⟩,
  ⟨0xB0108, [(0x40, 0x20)], .none, 1, 0xFFFFFFFF, 0, 0, 0, 0, false, 0⟩,
  ⟨0xB010C, [(0x40, 0x20)], .none, 1, 0, 0, 0, 0, 0, false, 0⟩
]

/-- Rows of the CPX block. -/
def rowsCpx : List RegRow := [
  ⟨0xC0000, [], .none, 1, 0, 0, 0, 8, 0, false, 0⟩,
  ⟨0xC0008, [], .none, 1, 0xFFFFF000, 0, 0, 0, 0, false, 0⟩,
  ⟨0xC000C, [], .none, 1, 0xF, 0, 0, 0, 0, false, 0⟩,
  ⟨0xC0100, [(4, 0x20)], .none, 1, 0, 0, 0, 0, 0, false, 0⟩,
  ⟨0xC0104, [(4, 0x20)], .none, 1, 0, 0, 0, 0, 0, false, 0⟩,
  ⟨0xC0108, [(4, 0x20)], .none, 1, 0, 0, 0, 0, 0, false, 0⟩,
  ⟨0xC010C, [(4, 0x20)], .none, 1, 0, 0, 0, 0, 0, false, 0⟩,
  ⟨0xC0110, [(4, 0x20)], .none, 1, 0, 0, 0, 0, 0, false, 0⟩,
  ⟨0xC0114, [(4, 0x20)], .none, 1, 0, 0, 0, 0, 0, false, 0⟩,
  ⟨0xC0118, [(4, 0x20)], .none, 1, 0, 0, 0, 0, 0, false, 0⟩,
  ⟨0xC011C, [(4, 0x20)], .none, 1, 0, 0, 0, 0, 0, false, 0⟩
]

/-- Rows of the TCH block. -/
def rowsTch : List RegRow := [
  ⟨0xD0000, [], .none, 1, 0x77, 0, 0, 0, 0, false, 0⟩,
  ⟨0xD0004, [], .none, 1, 0, 0, 0, 0x40000, 0, false, 0⟩,
  ⟨0xD0008, [], .none, 1, 0, 0, 0, 0, 0, false, 0⟩,
  ⟨0xD000C, [], .none, 1, 0, 0, 0, 0, 0, false, 0⟩,
  ⟨0xD0010, [], .none, 1, 0, 0, 0, 0, 0, false, 0⟩,
  ⟨0xD0020, [(4, 4)], .none, 1, 0, 0, 0, 0, 0, false, 0⟩,
  ⟨0xD0100, [(9, 0x20), (4, 4)], .none, 1, 0, 0, 0, 0, 0, false, 0⟩,
  ⟨0xD0110, [(9, 0x20)], .none, 1, 0, 0, 0, 0, 0, false, 0⟩,
  ⟨0xD0114, [(9, 0x20)], .none, 1, 0, 0, 0, 0, 0, false, 0⟩,
  ⟨0xD0118, [(9, 0x20)], .none, 1, 0, 0, 0, 0, 0, false, 0⟩,
  ⟨0xD0400, [(0x40, 0x10)], .none, 1, 0, 0, 0, 0, 0, false, 0⟩,
  ⟨0xD0404, [(0x40, 0x10)], .none, 1, 0, 0, 0, 0, 0, false, 0⟩,
  ⟨0xD0408, [(0x40, 0x10)], .none, 1, 0, 0, 0, 0, 0, false, 0⟩,
  ⟨0xD040C, [(0x40, 0x10)], .none, 1, 0, 0, 0, 0, 0, false, 0⟩
]

/-- Rows of the LNK block. -/
def rowsLnk : List RegRow := [
  ⟨0x100000, [(0x20, 0x400)], .lane, 1, 0x773F, 0, 0, 0, 0, false, 0⟩,
  ⟨0x100004, [(0x20, 0x400)], .lane, 1, 0, 0, 0, 0xC0, 0, false, 0⟩,
  ⟨0x100008, [(0x20, 0x400)], .lane, 1, 0xFFFF, 0, 0, 0, 0, false, 0x3E8⟩,
  ⟨0x100010, [(0x20, 0x400), (4, 4)], .lane, 1, 0, 0x900001FF, 0, 0, 0, false, 0⟩,
  ⟨0x100020, [(0x20, 0x400)], .lane, 1, 0, 0, 0, 0, 0, false, 0⟩,
  ⟨0x100024, [(0x20, 0x400)], .lane, 1, 0, 0, 0, 0, 0, false, 0⟩,
  ⟨0x100028, [(0x20, 0x400)], .lane, 1, 0, 0, 0, 0, 0, false, 0⟩,
  ⟨0x10002C, [(0x20, 0x400)], .lane, 1, 0, 0, 0, 0, 0, false, 0⟩,
  ⟨0x100040, [(0x20, 0x400)], .lane, 1, 0, 0, 0, 0, 0, false, 0⟩,
  ⟨0x100044, [(0x20, 0x400)], .lane, 1, 0, 0, 0, 0, 0, false, 0⟩,
  ⟨0x100048, [(0x20, 0x400)], .lane, 1, 0, 0, 0, 0, 0, false, 0⟩,
  ⟨0x10004C, [(0x20, 0x400)], .lane, 1, 0, 0, 0, 0, 0, false, 0⟩,
  ⟨0x100050, [(0x20, 0x400)], .lane, 1, 0, 0, 0, 0, 0, false, 0⟩,
  ⟨0x100054, [(0x20, 0x400)], .lane, 1, 0, 0, 0, 0, 0, false, 0⟩,
  ⟨0x100058, [(0x20, 0x400)], .lane, 1, 0, 0, 0, 0, 0, false, 0⟩,
  ⟨0x10005C, [(0x20, 0x400)], .lane, 1, 0, 0, 0, 0, 0, false, 0⟩,
  ⟨0x100060, [(0x20, 0x400)], .lane, 1, 0, 0, 0, 0, 0, false, 0⟩,
  ⟨0x100064, [(0x20, 0x400)], .lane, 1, 0, 0, 0, 0, 0, false, 0⟩,
  ⟨0x100080, [(0x20, 0x400)], .lane, 1, 0, 0, 0, 0, 0, false, 0⟩,
  ⟨0x100084, [(0x20, 0x400)], .lane, 1, 0, 0, 0, 0, 0, false, 0⟩,
  ⟨0x100088, [(0x20, 0x400)], .lane, 1, 0, 0, 0, 0, 0, false, 0⟩,
  ⟨0x10008C, [(0x20, 0x400)], .lane, 1, 0, 0, 0, 0, 0, false, 0⟩,
  ⟨0x100090, [(0x20, 0x400)], .lane, 1, 0, 0, 0, 0, 0, false, 0⟩,
  ⟨0x100094, [(0x20, 0x400)], .lane, 1, 0, 0, 0, 0, 0, false, 0xFFFF⟩,
  ⟨0x108000, [(4, 0x1000)], .quad, 1, 0, 0, 0, 0, 0, false, 0⟩,
  ⟨0x108004, [(4, 0x1000)], .quad, 1, 0, 0, 0, 0, 0, false, 0⟩,
  ⟨0x108008, [(4, 0x1000)], .quad, 1, 0, 0, 0, 0, 0, false, 0⟩
]

/-- Rows of the ETH block. -/
def rowsEth : List RegRow := [
  ⟨0x140000, [(8, 0x1000)], .none, 1, 3, 0, 0, 0, 0, false, 1⟩,
  ⟨0x140004, [(8, 0x1000)], .none, 1, 0, 0, 0, 0, 0, false, 0⟩,
  ⟨0x140008, [(8, 0x1000)], .none, 1, 0xFFFFFFFF, 0, 0, 0, 0, false, 0⟩,
  ⟨0x14000C, [(8, 0x1000)], .none, 1, 0xFFFF, 0, 0, 0, 0, false, 0⟩,
  ⟨0x140010, [(8, 0x1000)], .none, 1, 0, 0, 0, 0, 0, false, 0⟩,
  ⟨0x140014, [(8, 0x1000)], .none, 1, 0, 0, 0, 0, 0, false, 0⟩,
  ⟨0x140018, [(8, 0x1000)], .none, 1, 0, 0, 0, 0, 0, false, 0⟩,
  ⟨0x14001C, [(8, 0x1000)], .none, 1, 0, 0, 0, 0, 0, false, 0⟩,
  ⟨0x140020, [(8, 0x1000)], .none, 1, 0, 0, 0, 0, 0, false, 0⟩,
  ⟨0x140024, [(8, 0x1000)], .none, 1, 0, 0, 0, 0, 0, false, 0⟩,
  ⟨0x140028, [(8, 0x1000)], .none, 1, 0, 0, 0, 0, 0, false, 0⟩,
  ⟨0x14002C, [(8, 0x1000)], .none, 1, 0, 0, 0, 0, 0, false, 0⟩
]

/-- Rows of the VST block. -/
def rowsVst : List RegRow := [
  ⟨0x160000, [], .none, 1, 7, 0, 0, 0, 0, false, 7⟩,
  ⟨0x160004, [], .none, 1, 0, 0, 0, 0, 0, false, 0⟩,
  ⟨0x160008, [], .none, 1, 0, 0, 0, 0, 0, false, 0⟩,
  ⟨0x16000C, [(2, 4)], .none, 1, 0, 0, 0, 0, 0, false, 0⟩,
  ⟨0x160014, [], .none, 1, 0, 0, 0, 0, 0, false, 0⟩,
  ⟨0x160020, [], .none, 1, 0xFFF00000, 0, 0, 0, 0, false, 0⟩,
  ⟨0x160024, [], .none, 1, 0xF, 0, 0, 0, 0, false, 0⟩,
  ⟨0x161000, [(0x400, 0x40)], .none, 1, 0, 0, 0, 0, 0, false, 0⟩,
  ⟨0x161004, [(0x400, 0x40)], .none, 1, 0, 0, 0, 0, 0, false, 0⟩,
  ⟨0x161008, [(0x400, 0x40)], .none, 1, 0, 0, 0, 0, 0, false, 0⟩,
  ⟨0x16100C, [(0x400, 0x40)], .none, 1, 0, 0, 0, 0, 0, false, 0⟩,
  ⟨0x161010, [(0x400, 0x40)], .none, 1, 0, 0, 0, 0, 0, false, 0⟩,
  ⟨0x161014, [(0x400, 0x40)], .none, 1, 0, 0, 0, 0, 0, false, 0⟩,
  ⟨0x161018, [(0x400, 0x40)], .none, 1, 0, 0, 0, 0, 0, false, 0⟩,
  ⟨0x16101C, [(0x400, 0x40)], .none, 1, 0, 0, 0, 0, 0, false, 0⟩,
  ⟨0x161020, [(0x400, 0x40)], .none, 1, 0, 0, 0, 0, 0, false, 0⟩,
  ⟨0x161024, [(0x400, 0x40)], .none, 1, 0, 0, 0, 0, 0, false, 0⟩,
  ⟨0x161028, [(0x400, 0x40)], .none, 1, 0, 0, 0, 0, 0, false, 0⟩,
  ⟨0x16102C, [(0x400, 0x40)], .none, 1, 0, 0, 0, 0, 0, false, 0⟩,
  ⟨0x161030, [(0x400, 0x40)], .none, 1, 0, 0, 0, 0, 0, false, 0⟩
]

/-- Rows of the SRC block. -/
def rowsSrc : List RegRow := [
  ⟨0x180000, [(0x60, 0x100)], .src, 1, 0x31, 0, 0, 0, 0, false, 0⟩,
  ⟨0x180004, [(0x60, 0x100)], .src, 1, 0, 0, 0, 0xC0, 0, false, 0⟩,
  ⟨0x180008, [(0x60, 0x100)], .src, 1, 0x3FFFF, 0, 0, 0, 0, false, 0⟩,
  ⟨0x18000C, [(0x60, 0x100)], .src, 1, 0, 0, 0, 0, 0, false, 0⟩,
  ⟨0x180010, [(0x60, 0x100), (8, 4)], .src, 1, 0xFFFFFFFF, 0, 0, 0, 0, false, 0⟩,
  ⟨0x180030, [(0x60, 0x100)], .src, 1, 0xFFFFFFFF, 0, 0, 0, 0, false, 0⟩,
  ⟨0x180034, [(0x60, 0x100)], .src, 1, 0xFFFFFFFF, 0, 0, 0, 0, false, 0⟩,
  ⟨0x180038, [(0x60, 0x100)], .src, 1, 0xFFFFFFFF, 0, 0, 0, 0, false, 0⟩,
  ⟨0x180040, [(0x60, 0x100)], .src, 1, 0, 0xFFFFFF, 0, 0, 0, false, 0x2710⟩,
  ⟨0x180044, [(0x60, 0x100)], .src, 1, 0, 0xFFFF, 0, 0, 0, false, 0x1F4⟩,
  ⟨0x180048, [(0x60, 0x100)], .src, 1, 0, 0x1FFFF, 0, 0, 0, false, 0xF⟩,
  ⟨0x180050, [(0x60, 0x100)], .src, 1, 0xFFFFFFFF, 0, 0, 0, 0, false, 0⟩,
  ⟨0x180054, [(0x60, 0x100)], .src, 1, 0xFFFFFFFF, 0, 0, 0, 0, false, 0⟩,
  ⟨0x180058, [(0x60, 0x100)], .src, 1, 0xFFFF, 0, 0, 0, 0, false, 0⟩,
  ⟨0x18005C, [(0x60, 0x100)], .src, 1, 0x3FFFFFFF, 0, 0, 0, 0, false, 0⟩,
  ⟨0x180060, [(0x60, 0x100)], .src, 1, 0xFFFFFFFF, 0, 0, 0, 0, false, 0⟩,
  ⟨0x180068, [(0x60, 0x100)], .src, 1, 0, 0, 0xFFFF, 0, 0, false, 0⟩,
  ⟨0x18006C, [(0x60, 0x100)], .src, 1, 0, 0, 0xFFFFFFFF, 0, 0, true, 0xFFFFFFFF⟩,
  ⟨0x180070, [(0x60, 0x100)], .src, 1, 0, 0, 0, 0, 0, false, 0⟩,
  ⟨0x180080, [(0x60, 0x100)], .src, 1, 0, 0, 0, 0, 0, false, 0⟩,
  ⟨0x180084, [(0x60, 0x100)], .src, 1, 0, 0, 0, 0, 0, false, 0⟩,
  ⟨0x180088, [(0x60, 0x100)], .src, 1, 0, 0, 0, 0, 0, false, 0⟩,
  ⟨0x18008C, [(0x60, 0x100)], .src, 1, 0, 0, 0, 0, 0, false, 0⟩
]

/-- Rows of the VDC block. -/
def rowsVdc : List RegRow := [
  ⟨0x200000, [], .none, 1, 0, 0, 0, 0, 0, false, 0⟩,
  ⟨0x200004, [], .none, 1, 0, 0, 0, 0, 0, false, 0⟩,
  ⟨0x200008, [], .none, 1, 0, 0, 0, 0, 0, false, 0⟩,
  ⟨0x20000C, [], .none, 1, 0, 0, 0, 0, 0, false, 0⟩,
  ⟨0x200010, [(4, 4)], .ent, 1, 0, 0, 0, 0, 0, false, 0⟩,
  ⟨0x200030, [(8, 4)], .pix, 1, 0, 0, 0, 0, 0, false, 0⟩,
  ⟨0x201000, [(0x60, 0x80)], .src, 1, 0, 0, 0, 0, 0, false, 0⟩,
  ⟨0x201004, [(0x60, 0x80)], .src, 1, 0, 0, 0, 0, 0, false, 0⟩,
  ⟨0x201008, [(0x60, 0x80)], .src, 1, 0, 0, 0, 0, 0, false, 0⟩,
  ⟨0x20100C, [(0x60, 0x80)], .src, 1, 0, 0, 0, 0, 0, false, 0⟩,
  ⟨0x201010, [(0x60, 0x80)], .src, 1, 0, 0, 0, 0, 0, false, 0⟩,
  ⟨0x201014, [(0x60, 0x80)], .src, 1, 0, 0, 0, 0, 0, false, 0⟩,
  ⟨0x201018, [(0x60, 0x80)], .src, 1, 0, 0, 0, 0, 0, false, 0⟩,
  ⟨0x20101C, [(0x60, 0x80)], .src, 1, 0, 0, 0, 0, 0, false, 0⟩,
  ⟨0x201020, [(0x60, 0x80)], .src, 1, 0, 0, 0, 0, 0, false, 0⟩,
  ⟨0x201024, [(0x60, 0x80)], .src, 1, 0, 0, 0, 0, 0, false, 0⟩,
  ⟨0x201028, [(0x60, 0x80)], .src, 1, 0, 0, 0, 0, 0, false, 0⟩,
  ⟨0x20102C, [(0x60, 0x80)], .src, 1, 0, 0, 0, 0, 0, false, 0⟩,
  ⟨0x201030, [(0x60, 0x80)], .src, 1, 0, 0, 0, 0, 0, false, 0⟩,
  ⟨0x201040, [(0x60, 0x80)], .src, 1, 0, 0, 0, 0, 0, false, 0⟩,
  ⟨0x201044, [(0x60, 0x80)], .src, 1, 0, 0, 0, 0, 0, false, 0⟩,
  ⟨0x201048, [(0x60, 0x80)], .src, 1, 0, 0, 0, 0, 0, false, 0⟩,
  ⟨0x20104C, [(0x60, 0x80)], .src, 1, 0, 0, 0, 0, 0, false, 0⟩,
  ⟨0x201050, [(0x60, 0x80)], .src, 1, 0, 0, 0, 0, 0, false, 0⟩,
  ⟨0x201054, [(0x60, 0x80)], .src, 1, 0, 0, 0, 0, 0, false, 0⟩,
  ⟨0x201058, [(0x60, 0x80)], .src, 1, 0, 0, 0, 0, 0, false, 0⟩,
  ⟨0x20105C, [(0x60, 0x80)], .src, 1, 0, 0, 0, 0, 0, false, 0⟩,
  ⟨0x201060, [(0x60, 0x80)], .src, 1, 0, 0, 0, 0, 0, false, 0⟩,
  ⟨0x201064, [(0x60, 0x80)], .src, 1, 0, 0, 0, 0, 0, false, 0⟩,
  ⟨0x201068, [(0x60, 0x80)], .src, 1, 0, 0, 0, 0, 0, false, 0⟩
]

/-- Rows of the VEN block, part 0. -/
def rowsVen_0 : List RegRow := [
  ⟨0x240000, [], .none, 1, 0, 0, 0, 0, 0, false, 0⟩,
  ⟨0x240010, [(2, 4)], .enc, 1, 0, 0, 0, 0, 0, false, 0⟩,
  ⟨0x241000, [(0x10, 0x100)], .none, 1, 0, 0, 0, 0xE0, 0, false, 0⟩,
  ⟨0x241004, [(0x10, 0x100)], .none, 1, 0, 0, 0, 0, 0, false, 0⟩,
  ⟨0x241008, [(0x10, 0x100)], .none, 1, 0, 0, 0, 0, 0, false, 0⟩,
  ⟨0x24100C, [(0x10, 0x100)], .none, 1, 0, 0, 0, 0, 0, false, 0⟩,
  ⟨0x241010, [(0x10, 0x100)], .none, 1, 0, 0, 0, 0, 0, false, 0⟩,
  ⟨0x241014, [(0x10, 0x100)], .none, 1, 0, 0, 0, 0, 0, false, 0⟩,
  ⟨0x241018, [(0x10, 0x100)], .none, 1, 0, 0, 0, 0, 0, false, 0⟩,
  ⟨0x24101C, [(0x10, 0x100)], .none, 1, 0, 0xFFFF, 0, 0, 0, false, 0x3300⟩,
  ⟨0x241020, [(0x10, 0x100)], .none, 1, 0, 0, 0, 0, 0, false, 0⟩,
  ⟨0x241024, [(0x10, 0x100)], .none, 1, 0, 0, 0, 0, 0, false, 0⟩,
  ⟨0x241028, [(0x10, 0x100)], .none, 1, 0, 0, 0, 0, 0, false, 0⟩,
  ⟨0x24102C, [(0x10, 0x100)], .none, 1, 0, 0, 0, 0, 0, false, 0⟩,
  ⟨0x241030, [(0x10, 0x100)], .none, 1, 0, 0, 0, 0, 0, false, 0⟩,
  ⟨0x241034, [(0x10, 0x100)], .none, 1, 0, 0, 0, 0, 0, false, 0⟩,
  ⟨0x241038, [(0x10, 0x100)], .none, 1, 0, 0, 0, 0, 0, false, 0⟩,
  ⟨0x24103C, [(0x10, 0x100)], .none, 1, 0, 0, 0, 0, 0, false, 0⟩,
  ⟨0x241040, [(0x10, 0x100)], .none, 1, 0, 0, 0, 0, 0, false, 0⟩,
  ⟨0x241044, [(0x10, 0x100)], .none, 1, 0, 0, 0, 0, 0, false, 0⟩,
  ⟨0x241048, [(0x10, 0x100)], .none, 1, 0, 0, 0, 0, 0, false, 0⟩,
  ⟨0x24104C, [(0x10, 0x100)], .none, 1, 0, 0, 0, 0, 0, false, 0⟩,
  ⟨0x241050, [(0x10, 0x100)], .none, 1, 0, 0, 0, 0, 0, false, 0⟩,
  ⟨0x241054, [(0x10, 0x100)], .none, 1, 0, 0, 0, 0, 0, false, 0⟩,
  ⟨0x241058, [(0x10, 0x100)], .none, 1, 0, 0, 0, 0, 0, false, 0⟩,
  ⟨0x24105C, [(0x10, 0x100)], .none, 1, 0, 0, 0, 0, 0, false, 0⟩,
  ⟨0x241060, [(0x10, 0x100)], .none, 1, 0, 0, 0, 0, 0, false, 0⟩,
  ⟨0x241064, [(0x10, 0x100)], .none, 1, 0, 0, 0, 0, 0, false, 0⟩,
  ⟨0x241068, [(0x10, 0x100)], .none, 1, 0, 0, 0, 0, 0, false, 0⟩,
  ⟨0x24106C, [(0x10, 0x100)], .none, 1, 0, 0, 0, 0, 0, false, 0⟩
]

/-- Rows of the VEN block, part 1. -/
def rowsVen_1 : List RegRow := [
  ⟨0x241070, [(0x10, 0x100)], .none, 1, 0, 0, 0, 0, 0, false, 0⟩,
  ⟨0x241074, [(0x10, 0x100)], .none, 1, 0, 0, 0, 0, 0, false, 0⟩
]

/-- Rows of the VEN block. -/
def rowsVen : List RegRow := rowsVen_0 ++ rowsVen_1

/-- Rows of the CMP block. -/
def rowsCmp : List RegRow := [
  ⟨0x280000, [], .none, 1, 0, 0, 0, 0, 0, false, 0⟩,
  ⟨0x280100, [(0x10, 0x10), (4, 4)], .none, 1, 0, 0, 0, 0, 0, false, 0⟩,
  ⟨0x280200, [(0x10, 0x10), (3, 4)], .none, 1, 0, 0, 0, 0, 0, false, 0⟩
]

/-- Rows of the HEAD block, part 0. -/
def rowsHead_0 : List RegRow := [
  ⟨0x301000, [(0x18, 0x4000)], .head, 1, 0, 0x3F, 0, 0, 0, false, 0⟩,
  ⟨0x301004, [(0x18, 0x4000)], .head, 1, 0, 0x3FFFFFFF, 0, 0, 0, false, 0⟩,
  ⟨0x301008, [(0x18, 0x4000)], .head, 1, 0, 0xFFFFFFFF, 0, 0, 0, false, 0x76543210⟩,
  ⟨0x30100C, [(0x18, 0x4000)], .head, 1, 0, 0xFFFFFFFF, 0, 0, 0, false, 0xFEDCBA98⟩,
  ⟨0x301010, [(0x18, 0x4000)], .head, 1, 0, 0xFFFFFF, 0, 0, 0, false, 0⟩,
  ⟨0x301014, [(0x18, 0x4000)], .head, 1, 0, 0xFFFFF0F, 0, 0, 0, false, 2⟩,
  ⟨0x301018, [(0x18, 0x4000)], .head, 1, 0, 0, 0, 0, 0, false, 0⟩,
  ⟨0x30101C, [(0x18, 0x4000)], .head, 1, 0, 0, 0, 0, 0, false, 0⟩,
  ⟨0x301020, [(0x18, 0x4000)], .head, 1, 0, 0, 0, 0, 0, false, 0⟩,
  ⟨0x302000, [(0x18, 0x4000), (0x10, 0x100)], .head, 1, 0, 0, 0x7000FFFF, 0, 0, false, 0⟩,
  ⟨0x302004, [(0x18, 0x4000), (0x10, 0x100)], .head, 1, 0, 0, 0xFFFFFFFF, 0, 0, true, 0xFFFFFFFF⟩,
  ⟨0x302008, [(0x18, 0x4000), (0x10, 0x100)], .head, 1, 0, 0x3FF073B, 0, 0, 0, false, 0x3FF0000⟩,
  ⟨0x30200C, [(0x18, 0x4000), (0x10, 0x100)], .head, 1, 0, 0xFFFFFF, 0, 0, 0, false, 0x9C40⟩,
  ⟨0x302010, [(0x18, 0x4000), (0x10, 0x100)], .head, 1, 0, 0x1FFF1FFF, 0, 0, 0, false, 0⟩,
  ⟨0x302014, [(0x18, 0x4000), (0x10, 0x100)], .head, 1, 0, 0x3FFF3FFF, 0, 0, 0, false, 0⟩,
  ⟨0x302018, [(0x18, 0x4000), (0x10, 0x100)], .head, 1, 0, 0x3FFF3FFF, 0, 0, 0, false, 0⟩,
  ⟨0x30201C, [(0x18, 0x4000), (0x10, 0x100)], .head, 1, 0, 0x3FFF3FFF, 0, 0, 0, false, 0⟩,
  ⟨0x302020, [(0x18, 0x4000), (0x10, 0x100)], .head, 1, 0, 0x7F, 0, 0, 0, false, 0⟩,
  ⟨0x302024, [(0x18, 0x4000), (0x10, 0x100)], .head, 1, 0, 0x3FFFFFFF, 0, 0, 0, false, 0⟩,
  ⟨0x302028, [(0x18, 0x4000), (0x10, 0x100)], .head, 1, 0, 0xFFFFFF01, 0, 0, 0, false, 0⟩,
  ⟨0x30202C, [(0x18, 0x4000), (0x10, 0x100)], .head, 1, 0, 0xFFFFFFFF, 0, 0, 0, false, 0⟩,
  ⟨0x302030, [(0x18, 0x4000), (0x10, 0x100)], .head, 1, 0, 0x1FFF1FFF, 0, 0, 0, false, 0⟩,
  ⟨0x302034, [(0x18, 0x4000), (0x10, 0x100)], .head, 1, 0, 0, 0, 0, 0, false, 0⟩,
  ⟨0x302038, [(0x18, 0x4000), (0x10, 0x100)], .head, 1, 0, 0xFFFFFFFF, 0, 0, 0, false, 0⟩,
  ⟨0x302040, [(0x18, 0x4000), (0x10, 0x100)], .head, 1, 0, 0xFFFFFFFF, 0, 0, 0, false, 0⟩,
  ⟨0x302044, [(0x18, 0x4000), (0x10, 0x100)], .head, 1, 0, 0xFFFFFFFF, 0, 0, 0, false, 0⟩,
  ⟨0x302048, [(0x18, 0x4000), (0x10, 0x100)], .head, 1, 0, 0xFFFFFFFF, 0, 0, 0, false, 0⟩,
  ⟨0x30204C, [(0x18, 0x4000), (0x10, 0x100)], .head, 1, 0, 0xFFFFFFFF, 0, 0, 0, false, 0⟩,
  ⟨0x302050, [(0x18, 0x4000), (0x10, 0x100)], .head, 1, 0, 0xFFFF, 0, 0, 0, false, 0⟩,
  ⟨0x302054, [(0x18, 0x4000), (0x10, 0x100)], .head, 1, 0, 0xFFF0FFF, 0, 0, 0, false, 0⟩
]

/-- Rows of the HEAD block, part 1. -/
def rowsHead_1 : List RegRow := [
  ⟨0x302058, [(0x18, 0x4000), (0x10, 0x100)], .head, 1, 0, 0xFFF, 0, 0, 0, false, 0⟩,
  ⟨0x30205C, [(0x18, 0x4000), (0x10, 0x100)], .head, 1, 0, 0x1FFF1FFF, 0, 0, 0, false, 0⟩,
  ⟨0x302060, [(0x18, 0x4000), (0x10, 0x100)], .head, 1, 0, 0x1FFF, 0, 0, 0, false, 0⟩,
  ⟨0x302068, [(0x18, 0x4000), (0x10, 0x100)], .head, 1, 0, 0, 0, 0, 0, false, 0⟩,
  ⟨0x30206C, [(0x18, 0x4000), (0x10, 0x100)], .head, 1, 0, 0, 0, 0, 0, false, 0⟩,
  ⟨0x300000, [(0x18, 0x4000)], .head, 1, 1, 0, 0, 0, 0, false, 0⟩,
  ⟨0x300004, [(0x18, 0x4000)], .head, 1, 0, 0, 0, 0xE00, 0, false, 0⟩,
  ⟨0x300008, [(0x18, 0x4000)], .head, 1, 7, 0, 0, 0, 0, false, 0⟩,
  ⟨0x30000C, [(0x18, 0x4000)], .head, 1, 0x1FFF, 0, 0, 0, 0, false, 0⟩,
  ⟨0x300010, [(0x18, 0x4000)], .head, 1, 0, 0x3FFF1FFF, 0, 0, 0, false, 0x8980780⟩,
  ⟨0x300014, [(0x18, 0x4000)], .head, 1, 0, 0x1FFF1FFF, 0, 0, 0, false, 0x4650438⟩,
  ⟨0x300018, [(0x18, 0x4000)], .head, 1, 0, 1, 0, 0, 0, false, 0⟩,
  ⟨0x30001C, [(0x18, 0x4000)], .head, 1, 0, 0xFF, 0, 0, 0, false, 0x42⟩,
  ⟨0x300020, [(0x18, 0x4000)], .head, 1, 0, 0, 0, 0, 0, false, 0⟩,
  ⟨0x300024, [(0x18, 0x4000)], .head, 1, 0, 0, 0, 0, 0, false, 0⟩,
  ⟨0x300028, [(0x18, 0x4000)], .head, 1, 0, 0, 0, 0, 0, false, 0⟩,
  ⟨0x30002C, [(0x18, 0x4000)], .head, 1, 0, 0, 0, 0, 0, false, 0xF000F⟩,
  ⟨0x300030, [(0x18, 0x4000)], .head, 1, 0, 0, 0, 0, 0, false, 0⟩,
  ⟨0x300034, [(0x18, 0x4000)], .head, 1, 0, 0, 0, 0, 0, false, 0⟩,
  ⟨0x300038, [(0x18, 0x4000)], .head, 1, 0, 0, 0, 0, 0, false, 0⟩,
  ⟨0x300040, [(0x18, 0x4000)], .head, 1, 0, 0, 0, 0, 0, false, 0⟩,
  ⟨0x300044, [(0x18, 0x4000)], .head, 1, 0, 0, 0, 0, 0, false, 0⟩,
  ⟨0x300048, [(0x18, 0x4000)], .head, 1, 0, 0, 0, 0, 0, false, 0⟩,
  ⟨0x30004C, [(0x18, 0x4000)], .head, 1, 0, 0, 0, 0, 0, false, 0⟩,
  ⟨0x300050, [(0x18, 0x4000)], .head, 1, 0, 0, 0, 0, 0, false, 0⟩,
  ⟨0x300054, [(0x18, 0x4000)], .head, 1, 0, 0, 0, 0, 0, false, 0⟩,
  ⟨0x300058, [(0x18, 0x4000)], .head, 1, 0, 0, 0, 0, 0, false, 0⟩,
  ⟨0x30005C, [(0x18, 0x4000)], .head, 1, 0, 0, 0, 0, 0, false, 0⟩,
  ⟨0x300060, [(0x18, 0x4000)], .head, 1, 0, 0, 0, 0, 0, false, 0⟩,
  ⟨0x300064, [(0x18, 0x4000)], .head, 1, 0, 0, 0, 0, 0, false, 0⟩
]

/-- Rows of the HEAD block, part 2. -/
def rowsHead_2 : List RegRow := [
  ⟨0x300068, [(0x18, 0x4000)], .head, 1, 0, 0, 0, 0, 0, false, 0⟩
]

/-- Rows of the HEAD block. -/
def rowsHead : List RegRow := rowsHead_0 ++ rowsHead_1 ++ rowsHead_2

/-- Rows of the DMC block. -/
def rowsDmc : List RegRow := [
  ⟨0x400000, [(8, 0x10000)], .dmc, 1, 0, 0, 0, 0, 0, false, 0⟩,
  ⟨0x400004, [(8, 0x10000)], .dmc, 1, 0, 0, 0, 0, 0, false, 0⟩,
  ⟨0x400008, [(8, 0x10000)], .dmc, 1, 0, 0, 0, 0, 0, false, 0⟩,
  ⟨0x40000C, [(8, 0x10000)], .dmc, 1, 0, 0, 0, 0, 0, false, 0⟩,
  ⟨0x400010, [(8, 0x10000)], .dmc, 1, 0, 0, 0, 0, 0, false, 0⟩,
  ⟨0x400014, [(8, 0x10000)], .dmc, 1, 0, 0, 0, 0, 0, false, 0⟩,
  ⟨0x400018, [(8, 0x10000)], .dmc, 1, 0, 0, 0, 0, 0, false, 0⟩,
  ⟨0x40001C, [(8, 0x10000)], .dmc, 1, 0, 0, 0, 0, 0, false, 0⟩,
  ⟨0x400020, [(8, 0x10000)], .dmc, 1, 0, 0, 0, 0, 0, false, 0⟩,
  ⟨0x400024, [(8, 0x10000)], .dmc, 1, 0, 0, 0, 0, 0, false, 0⟩,
  ⟨0x400028, [(8, 0x10000)], .dmc, 1, 0, 0, 0, 0, 0, false, 0⟩,
  ⟨0x40002C, [(8, 0x10000)], .dmc, 1, 0, 0, 0, 0, 0, false, 0⟩,
  ⟨0x400030, [(8, 0x10000)], .dmc, 1, 0, 0, 0, 0, 0, false, 0⟩,
  ⟨0x408000, [], .none, 1, 0x1E07, 0, 0, 0, 0, false, 0⟩,
  ⟨0x408004, [], .none, 1, 0, 0, 0, 0, 0, false, 0⟩,
  ⟨0x408008, [], .none, 1, 0, 0, 0, 2, 0, false, 0⟩,
  ⟨0x40800C, [], .none, 1, 0, 0, 0, 0, 0, false, 0⟩,
  ⟨0x408010, [], .none, 1, 0, 0, 0, 0, 0, false, 0⟩,
  ⟨0x408014, [], .none, 1, 0xFFFF, 0, 0, 0, 0, false, 0x64⟩,
  ⟨0x408018, [], .none, 1, 0xFFFF, 0, 0, 0, 0, false, 0x800⟩,
  ⟨0x40801C, [], .none, 1, 0xFFFF, 0, 0, 0, 0, false, 0x3E8⟩,
  ⟨0x408020, [], .none, 1, 0xFFFF, 0, 0, 0, 0, false, 0xFFFF⟩,
  ⟨0x408100, [(0x18, 8)], .none, 1, 0, 0x80FFFFFF, 0, 0, 0, false, 0x80100000⟩,
  ⟨0x408104, [(0x18, 8)], .none, 1, 0, 0, 0, 0, 0, false, 0⟩,
  ⟨0x408200, [(0x18, 4)], .none, 1, 0, 0, 0, 0, 0, false, 0⟩
]

/-- Rows of the GRN block. -/
def rowsGrn : List RegRow := [
  ⟨0x500000, [], .none, 1, 0, 0, 0, 0, 0, false, 0⟩,
  ⟨0x500004, [], .none, 1, 0x1FFFF, 0, 0, 0, 0, false, 0x258⟩,
  ⟨0x500008, [], .none, 1, 0, 0, 0, 0, 0, false, 0⟩,
  ⟨0x50000C, [], .none, 1, 0, 0, 0, 0, 0, false, 0⟩,
  ⟨0x500010, [], .none, 1, 0, 0, 0, 0, 0, false, 0⟩,
  ⟨0x500014, [], .none, 1, 0, 0, 0, 0, 0, false, 0⟩,
  ⟨0x500018, [], .none, 1, 0, 0, 0, 0, 0, false, 0⟩
]

/-- The rows of the window that holds a BAR0 offset (R10); none outside every window. -/
def rowsAt (off : Nat) : List RegRow :=
  if 0 ≤ off ∧ off ≤ 0xFFFF then rowsSys
  else if 0x10000 ≤ off ∧ off ≤ 0x1FFFF then rowsLcs
  else if 0x20000 ≤ off ∧ off ≤ 0x2FFFF then rowsPwr
  else if 0x30000 ≤ off ∧ off ≤ 0x3FFFF then rowsTrm
  else if 0x40000 ≤ off ∧ off ≤ 0x4FFFF then rowsTim
  else if 0x50000 ≤ off ∧ off ≤ 0x5FFFF then rowsTck
  else if 0x60000 ≤ off ∧ off ≤ 0x6FFFF then rowsWin
  else if 0x70000 ≤ off ∧ off ≤ 0x7FFFF then rowsShf
  else if 0x80000 ≤ off ∧ off ≤ 0x8FFFF then rowsRng
  else if 0x90000 ≤ off ∧ off ≤ 0x9FFFF then rowsEvt
  else if 0xA0000 ≤ off ∧ off ≤ 0xA6FFF then rowsGrd
  else if 0xB0000 ≤ off ∧ off ≤ 0xBFFFF then rowsChk
  else if 0xC0000 ≤ off ∧ off ≤ 0xCFFFF then rowsCpx
  else if 0xD0000 ≤ off ∧ off ≤ 0xDFFFF then rowsTch
  else if 0x100000 ≤ off ∧ off ≤ 0x10BFFF then rowsLnk
  else if 0x140000 ≤ off ∧ off ≤ 0x147FFF then rowsEth
  else if 0x160000 ≤ off ∧ off ≤ 0x17FFFF then rowsVst
  else if 0x180000 ≤ off ∧ off ≤ 0x185FFF then rowsSrc
  else if 0x200000 ≤ off ∧ off ≤ 0x23FFFF then rowsVdc
  else if 0x240000 ≤ off ∧ off ≤ 0x27FFFF then rowsVen
  else if 0x280000 ≤ off ∧ off ≤ 0x2BFFFF then rowsCmp
  else if 0x300000 ≤ off ∧ off ≤ 0x35FFFF then rowsHead
  else if 0x400000 ≤ off ∧ off ≤ 0x47FFFF then rowsDmc
  else if 0x500000 ≤ off ∧ off ≤ 0x50FFFF then rowsGrn
  else []

/-- Does a row hold the offset; with the index of its first dimension. -/
def RegRow.hit (r : RegRow) (off : Nat) : Option Nat :=
  if off < r.base then Option.none
  else
    let d := off - r.base
    match r.dims with
    | [] => if d = 0 then some 0 else Option.none
    | [(c, st)] => if d % st = 0 ∧ d / st < c then some (d / st) else Option.none
    | (c, st) :: (c2, st2) :: _ =>
      if d / st < c ∧ d % st % st2 = 0 ∧ d % st / st2 < c2 then some (d / st) else Option.none

/-- The first row of a list that holds the offset, with its first index. -/
def findRow : List RegRow → Nat → Option (RegRow × Nat)
  | [], _ => Option.none
  | r :: rs, off =>
    match r.hit off with
    | some i => some (r, i)
    | Option.none => findRow rs off

/-- The row of a BAR0 offset; none where no chapter defines a register there (R10). -/
def regRow? (off : Nat) : Option (RegRow × Nat) := findRow (rowsAt off) off

/-! Reset values other than 0, by block. -/

/-- Registers of the SYS block whose reset value is not 0: (base, dims, reset). -/
def resetsSys : List (Nat × List (Nat × Nat) × Nat) := [
  (0, [], 0x4B001010)
]

/-- Registers of the LCS block whose reset value is not 0: (base, dims, reset). -/
def resetsLcs : List (Nat × List (Nat × Nat) × Nat) := [
  (0x10004, [], 0xF03),
  (0x10044, [], 0xFFFFFFFF)
]

/-- Registers of the PWR block whose reset value is not 0: (base, dims, reset). -/
def resetsPwr : List (Nat × List (Nat × Nat) × Nat) := [
  (0x2000C, [], 0xFFFFFFFF),
  (0x20034, [], 0x4797570),
  (0x20040, [], 0x352028A),
  (0x20044, [], 0x28)
]

/-- Registers of the TRM block whose reset value is not 0: (base, dims, reset). -/
def resetsTrm : List (Nat × List (Nat × Nat) × Nat) := [
  (0x30000, [], 1),
  (0x30004, [], 0x258)
]

/-- Registers of the TIM block whose reset value is not 0: (base, dims, reset). -/
def resetsTim : List (Nat × List (Nat × Nat) × Nat) := [
  (0x40034, [], 0x9999999A),
  (0x40038, [], 1),
  (0x40050, [], 0xB3),
  (0x40054, [], 0x4D),
  (0x40058, [], 0x7A12000),
  (0x4005C, [], 0x271000),
  (0x40060, [], 0x186A0),
  (0x40064, [], 0xF4240),
  (0x40068, [], 0xFA0),
  (0x4006C, [], 0x3E8),
  (0x40094, [], 0xFFFFFFFF)
]

/-- Registers of the TCK block whose reset value is not 0: (base, dims, reset). -/
def resetsTck : List (Nat × List (Nat × Nat) × Nat) := [
  (0x50008, [], 0x2FAF080),
  (0x5000C, [], 3),
  (0x5001C, [], 0x32),
  (0x50100, [(0x18, 4)], 0x30D40)
]

/-- Registers of the WIN block whose reset value is not 0: (base, dims, reset). -/
def resetsWin : List (Nat × List (Nat × Nat) × Nat) := [
  (0x60020, [], 0x3FFA0000),
  (0x60024, [], 0x3FF003FF),
  (0x60028, [], 0x20080200),
  (0x6002C, [], 0x3FF00000),
  (0x60030, [], 0xFFFFF),
  (0x60034, [], 0x3FFFFFFF),
  (0x6003C, [], 0x3FFFFFFF),
  (0x60050, [], 0x25),
  (0x60058, [], 2),
  (0x60404, [(0x18, 8)], 0xFFFFFFFF),
  (0x60604, [(0x60, 0x10)], 0xFFFFFFFF),
  (0x6060C, [(0x60, 0x10)], 0xFFFFFFFF),
  (0x61004, [(0x18, 0x80), (0x10, 8)], 0xFFFFFFFF),
  (0x62000, [(0x18, 0x200), (0x10, 0x20)], 0x186A0),
  (0x62004, [(0x18, 0x200), (0x10, 0x20)], 0xFFFE795F),
  (0x62008, [(0x18, 0x200), (0x10, 0x20)], 0x7A120),
  (0x6200C, [(0x18, 0x200), (0x10, 0x20)], 0xFFF85EDF),
  (0x62010, [(0x18, 0x200), (0x10, 0x20)], 0x10841),
  (0x62018, [(0x18, 0x200), (0x10, 0x20)], 0xFFFFFFFF),
  (0x65008, [(0x60, 0x20)], 0x1E),
  (0x6500C, [(0x60, 0x20)], 0x7D000)
]

/-- Registers of the EVT block whose reset value is not 0: (base, dims, reset). -/
def resetsEvt : List (Nat × List (Nat × Nat) × Nat) := [
  (0x90000, [(0xC0, 4)], 0x80000000)
]

/-- Registers of the GRD block whose reset value is not 0: (base, dims, reset). -/
def resetsGrd : List (Nat × List (Nat × Nat) × Nat) := [
  (0xA0000, [(0x1C, 0x400)], 7)
]

/-- Registers of the LNK block whose reset value is not 0: (base, dims, reset). -/
def resetsLnk : List (Nat × List (Nat × Nat) × Nat) := [
  (0x100008, [(0x20, 0x400)], 0x3E8),
  (0x100094, [(0x20, 0x400)], 0xFFFF)
]

/-- Registers of the ETH block whose reset value is not 0: (base, dims, reset). -/
def resetsEth : List (Nat × List (Nat × Nat) × Nat) := [
  (0x140000, [(8, 0x1000)], 1)
]

/-- Registers of the VST block whose reset value is not 0: (base, dims, reset). -/
def resetsVst : List (Nat × List (Nat × Nat) × Nat) := [
  (0x160000, [], 7)
]

/-- Registers of the SRC block whose reset value is not 0: (base, dims, reset). -/
def resetsSrc : List (Nat × List (Nat × Nat) × Nat) := [
  (0x180040, [(0x60, 0x100)], 0x2710),
  (0x180044, [(0x60, 0x100)], 0x1F4),
  (0x180048, [(0x60, 0x100)], 0xF),
  (0x18006C, [(0x60, 0x100)], 0xFFFFFFFF)
]

/-- Registers of the VEN block whose reset value is not 0: (base, dims, reset). -/
def resetsVen : List (Nat × List (Nat × Nat) × Nat) := [
  (0x24101C, [(0x10, 0x100)], 0x3300)
]

/-- Registers of the HEAD block whose reset value is not 0: (base, dims, reset). -/
def resetsHead : List (Nat × List (Nat × Nat) × Nat) := [
  (0x301008, [(0x18, 0x4000)], 0x76543210),
  (0x30100C, [(0x18, 0x4000)], 0xFEDCBA98),
  (0x301014, [(0x18, 0x4000)], 2),
  (0x302004, [(0x18, 0x4000), (0x10, 0x100)], 0xFFFFFFFF),
  (0x302008, [(0x18, 0x4000), (0x10, 0x100)], 0x3FF0000),
  (0x30200C, [(0x18, 0x4000), (0x10, 0x100)], 0x9C40),
  (0x300010, [(0x18, 0x4000)], 0x8980780),
  (0x300014, [(0x18, 0x4000)], 0x4650438),
  (0x30001C, [(0x18, 0x4000)], 0x42),
  (0x30002C, [(0x18, 0x4000)], 0xF000F)
]

/-- Registers of the DMC block whose reset value is not 0: (base, dims, reset). -/
def resetsDmc : List (Nat × List (Nat × Nat) × Nat) := [
  (0x408014, [], 0x64),
  (0x408018, [], 0x800),
  (0x40801C, [], 0x3E8),
  (0x408020, [], 0xFFFF),
  (0x408100, [(0x18, 8)], 0x80100000)
]

/-- Registers of the GRN block whose reset value is not 0: (base, dims, reset). -/
def resetsGrn : List (Nat × List (Nat × Nat) × Nat) := [
  (0x500004, [], 0x258)
]

/-- Is an offset one of the instances of an array of registers. -/
def inArray (base : Nat) (dims : List (Nat × Nat)) (off : Nat) : Bool :=
  match dims with
  | [] => off == base
  | [(c, st)] => base ≤ off && (off - base) % st == 0 && (off - base) / st < c
  | (c, st) :: (c2, st2) :: _ =>
    base ≤ off && (off - base) / st < c && (off - base) % st % st2 == 0 && (off - base) % st / st2 < c2

/-- The reset value of an offset in a list of reset values; 0 where none is listed. -/
def findReset : List (Nat × List (Nat × Nat) × Nat) → Nat → Nat
  | [], _ => 0
  | (b, d, v) :: rs, off => if inArray b d off then v else findReset rs off

/-- The reset value of the register at a BAR0 offset, as the register tables give it; 0 where no register stands. -/
def regResetNat (off : Nat) : Nat :=
  if 0 ≤ off ∧ off ≤ 0xFFFF then findReset resetsSys off
  else if 0x10000 ≤ off ∧ off ≤ 0x1FFFF then findReset resetsLcs off
  else if 0x20000 ≤ off ∧ off ≤ 0x2FFFF then findReset resetsPwr off
  else if 0x30000 ≤ off ∧ off ≤ 0x3FFFF then findReset resetsTrm off
  else if 0x40000 ≤ off ∧ off ≤ 0x4FFFF then findReset resetsTim off
  else if 0x50000 ≤ off ∧ off ≤ 0x5FFFF then findReset resetsTck off
  else if 0x60000 ≤ off ∧ off ≤ 0x6FFFF then findReset resetsWin off
  else if 0x90000 ≤ off ∧ off ≤ 0x9FFFF then findReset resetsEvt off
  else if 0xA0000 ≤ off ∧ off ≤ 0xAFFFF then findReset resetsGrd off
  else if 0x100000 ≤ off ∧ off ≤ 0x10FFFF then findReset resetsLnk off
  else if 0x140000 ≤ off ∧ off ≤ 0x14FFFF then findReset resetsEth off
  else if 0x160000 ≤ off ∧ off ≤ 0x17FFFF then findReset resetsVst off
  else if 0x180000 ≤ off ∧ off ≤ 0x18FFFF then findReset resetsSrc off
  else if 0x240000 ≤ off ∧ off ≤ 0x27FFFF then findReset resetsVen off
  else if 0x300000 ≤ off ∧ off ≤ 0x35FFFF then findReset resetsHead off
  else if 0x400000 ≤ off ∧ off ≤ 0x47FFFF then findReset resetsDmc off
  else if 0x500000 ≤ off ∧ off ≤ 0x50FFFF then findReset resetsGrn off
  else 0

/-- The reset value as a register word. DESIGN CHOICE: log entry 1. -/
def regReset (off : Nat) : Word := BitVec.ofNat 32 (regResetNat off)

end Sys2Proof.Machine
end

