-- ==== Sys2Proof/Machine/SMap.lean ====
section
/-!
DEFINITION. Machine/SMap.lean: sparse data by key: a list of (key, value) pairs in one canonical form, keys strictly
rising and no entry equal to what an unlisted key reads as. Registers, memories and per-unit state are held so.
-/

namespace Sys2Proof.Machine

/-- Sparse data by key. -/
abbrev SMap (α : Type) := List (Nat × α)

/-- Read a key; an unlisted key reads as `d key`. -/
def smGet {α : Type} (d : Nat → α) : SMap α → Nat → α
  | [], k => d k
  | (k0, v) :: m, k => if k = k0 then v else smGet d m k

/-- Take a key out. -/
def smDrop {α : Type} : SMap α → Nat → SMap α
  | [], _ => []
  | (k0, v0) :: m, k => if k = k0 then smDrop m k else (k0, v0) :: smDrop m k

/-- Put an entry before the first greater key. -/
def smPut {α : Type} : SMap α → Nat → α → SMap α
  | [], k, v => [(k, v)]
  | (k0, v0) :: m, k, v => if k < k0 then (k, v) :: (k0, v0) :: m else (k0, v0) :: smPut m k v

/-- Write a key, keeping the canonical form. -/
def smSet {α : Type} [DecidableEq α] (d : Nat → α) (m : SMap α) (k : Nat) (v : α) : SMap α :=
  if v = d k then smDrop m k else smPut (smDrop m k) k v

/-- The canonical form: keys strictly rising, no entry equal to the value of an unlisted key. -/
def SMap.wf {α : Type} [DecidableEq α] (d : Nat → α) (m : SMap α) : Bool :=
  decide (m.Pairwise (fun p q => p.1 < q.1)) && m.all (fun p => decide (p.2 ≠ d p.1))

/-- Write the keys of a range, the values given by a list. -/
def smSetRange {α : Type} [DecidableEq α] (d : Nat → α) (m : SMap α) (k : Nat) : List α → SMap α
  | [] => m
  | v :: vs => smSetRange d (smSet d m k v) (k + 1) vs

/-- Read n keys from a key on. -/
def smGetRange {α : Type} (d : Nat → α) (m : SMap α) (k : Nat) : Nat → List α
  | 0 => []
  | n + 1 => smGet d m k :: smGetRange d m (k + 1) n

end Sys2Proof.Machine
end

