-- ==== Sys2Proof/Machine/State.lean ====
section
/-!
DEFINITION. Machine/State.lean: the state of the block as plain data, and its value after reset. Registers live in
one sparse map keyed by BAR0 offset (an unlisted register holds the reset value of its table); state the manual gives
the machine behind its registers stands in one structure per chapter. Times of the local clock are counts of
2⁻³² ns since the PTP epoch (R22, R103).
-/

namespace Sys2Proof.Machine

/-- Faults. There is none: no rule of the manual stops the block, so no meaning raises a fault and the type has no
constructor (which is safe: nothing is hidden behind it). DESIGN CHOICE: log entry 3. -/
inductive Fault
deriving DecidableEq, Repr

/-- Reasons for which a command has no meaning. -/
inductive Refusal where
  /-- Raised by the dispatcher alone, for a row of the table whose meaning is not written. Safe: the model stops. -/
  | notModelled (mnemonic : String)
deriving DecidableEq, Repr

/-- Where the supply of the device stands (R439, R445, R444): rails off, rails rising in rail-table order, on, or in
KEEP with only the always-on domain powered. -/
inductive Supply where
  | off | rising | on | keep
deriving DecidableEq, Repr

/-- The step a command in flight has come to: started, waiting for something its rule names, or finished with its
status and results; `tick` is the tick of effect (N and TCK_REBASE) where the rule fixes it before the completion
is written (R169). -/
inductive CmdPhase where
  | started
  | waiting
  | due (status r0 r1 r2 : Nat) (tick : Option (Nat × Nat))
deriving DecidableEq, Repr

/-- A ring command from its fetch to its completion (R157): tag, submission ring, fetch index, the sixteen words of
its descriptor, and data its rule keeps while it runs. -/
structure Cmd where
  tag : Nat
  sq : Nat
  index : Nat
  words : List Word
  phase : CmdPhase := .started
  afterDrain : Bool := false
  aux : List Nat := []
  /-- The local time of the fetch (R68). -/
  fetched : Nat := 0
deriving DecidableEq, Repr

/-- Ring engine (chapter 6): commands in flight, oldest first; records written by each CQ (key 64 + c) and EQ
(key 96 + e) since it entered RUNNING; the SQ last served at each PRIO; the last seal begun when a unit reached OFF, N and
TCK_REBASE by 128 × kind + index (R169). -/
structure RingSt where
  cmds : List Cmd := []
  posted : SMap Nat := []
  lastServed : SMap Nat := []
  offAt : SMap (Nat × Nat) := []
deriving DecidableEq, Repr

/-- A capture input (R121): queued stamps with polarity, oldest first; time of the last stamped edge on the counter
that steps do not move. -/
structure CapSt where
  fifo : List (Nat × Bool) := []
  lastEdge : Option Nat := none
deriving DecidableEq, Repr

/-- A trigger (R123): index of its next instant, and the local time at which a pulse in progress ends. -/
structure TrigSt where
  next : Nat := 0
  pulseEnd : Option Nat := none
deriving DecidableEq, Repr

/-- Time unit (chapter 4) beside its registers: last accepted |θ| rounded up to ns (R112), and the elapsed count at
the last accepted sample and at the entry to HOLDOVER (R118, R119). -/
structure TimeSt where
  lastOfs : Nat := 0
  acceptAt : Nat := 0
  holdAt : Nat := 0
  caps : SMap CapSt := []
  trigs : SMap TrigSt := []
deriving DecidableEq, Repr

/-- One admitted session's cost in a pool (R51, R58): pool, unit kind (0 source, 2 encode), unit, cycles per tick. -/
structure PoolEntry where
  pool : Nat
  kind : Nat
  unit : Nat
  cost : Nat
deriving DecidableEq, Repr

/-- Tick unit (chapter 2) beside its registers. -/
structure TickSt where
  /-- The next tick number to seal; none while the tick is stopped (R27). -/
  next : Option Nat := none
  /-- N_0 of R27, while the first seal has not been made (R488). -/
  first : Option Nat := none
  /-- Has any tick been sealed since reset (R169: before the first seal the tick of effect is 0). -/
  everSealed : Bool := false
  /-- The last seal begun: N, TCK_REBASE at it (R162), T_N and U of step 1 (R35). -/
  lastN : Nat := 0
  lastRebase : Nat := 0
  lastT : Nat := 0
  lastU : Nat := 0
  /-- Per-session entries of the pools (R58). -/
  entries : List PoolEntry := []
  /-- Engine limits of the four pools (R49). -/
  engineLimit : List Nat := [0, 0, 0, 0]
  /-- The throttle stage the capacities were last computed for; none before the first seal after RUN (R49). -/
  capStage : Option Nat := none
  /-- Faulted ledger instances: (kind, instance) (R59). -/
  faults : List (Nat × Nat) := []
  /-- Consecutive ticks across which BEAT has not advanced (R19). -/
  beatMissed : Nat := 0
  /-- Events raised in this tick under a rule that allows one per tick: (code, key). -/
  once : List (Nat × Nat) := []
  /-- Events that carry a total of the tick, by 256 × code + unit: the first of the tick, and the total so far. -/
  totals : SMap (Nat × Nat) := []
deriving DecidableEq, Repr

/-- An access a guard has checked that has not completed (R423, R424): guard, its GEN at the check, and the counter
update at which it completes. -/
structure Flight where
  guard : Nat
  gen : Nat
  until_ : Nat
deriving DecidableEq, Repr

/-- A pending V value of an HK pair (R74): V word offset, value written, counter update at which it times out. -/
structure HuskPend where
  off : Nat
  v : Word
  until_ : Nat
deriving DecidableEq, Repr

/-- What a write to Cellar or host memory has replaced while a head fetched a frame (R275). -/
structure OldBytes where
  space : Nat
  addr : Nat
  at_ : Nat
  bytes : List Byte
deriving DecidableEq, Repr

/-- A DMC port's token bucket (R357): level in units of 2⁻³² byte · ns per µs, brought up to `at_` of the elapsed
time; bytes transferred; the elapsed time at which a halved refill rate ends (R362). -/
structure PortSt where
  tokens : Int := 0
  at_ : Nat := 0
  bytes : Nat := 0
  throttledUntil : Option Nat := none
deriving DecidableEq, Repr

/-- A DRAM channel beside its registers: failed attempts of the training in progress (R354), refresh debt in 2⁻³² ns
as of an elapsed time (R358), a REFab issued and not completed, the start of a catch-up, the last tracking run and
failures in a row (R355), the start of the refresh window, the activation counts of its rows by rank, bank and row, the
rows refreshed last beside a disturbing row and the RFMpb commands issued (R362), neighbour refreshes held back by a
catch-up (R363), whether a seal has found a tracking run due that has not run (R355), the last request to the channel and
the start of self-refresh (R364). -/
structure DmcSt where
  attempts : Nat := 0
  debt : Nat := 0
  debtAt : Nat := 0
  refab : Bool := false
  catchAt : Nat := 0
  trackAt : Nat := 0
  failRow : Nat := 0
  windowAt : Nat := 0
  neighbours : List (Nat × Nat × Nat) := []
  rowCounts : SMap Nat := []
  nearRows : List (Nat × Nat × Nat) := []
  rfmpbs : Nat := 0
  trackOwed : Bool := false
  reqAt : Nat := 0
  srAt : Nat := 0
deriving DecidableEq, Repr

/-- Cellar and Granary beside their registers (chapter 13): ports, channels, whether the present training keeps the
retained segments of an exit from KEEP, with the mask its devices were given at the entry (R365), the uncorrectable
Granary words (R367), the scrubber's next word and the elapsed time its pass began (R369), and the link errors that reads
of Cellar meet, by address (R366). -/
structure CellSt where
  ports : SMap PortSt := []
  chans : SMap DmcSt := []
  keepRetained : Bool := false
  keepMask : Nat := 0
  badWords : List Nat := []
  scrubAt : Nat := 0
  scrubFrom : Nat := 0
  linkErrs : LinkErrs := []
deriving DecidableEq, Repr

/-- A key slot in fuses (R436): hash words, programmed, revoked, destroyed. -/
structure KeySlot where
  hash : List Word := []
  programmed : Bool := false
  revoked : Bool := false
  destroyed : Bool := false
deriving DecidableEq, Repr

/-- Life cycle (chapter 16) beside its registers: the state fuse words by state code, the state taken at the last
release of PORST_n, customer key slots, the V word of the request in processing, vendor authentication, halted
Hearth cores, the entry offset of Demal, and the last answer to the debug port (error, data). -/
structure LcsSt where
  stateFuses : SMap Word := [(1, 0xFFFFFFFF)]
  state : Nat := 1
  slots : SMap KeySlot := []
  request : Option Nat := none
  vendorAuth : Bool := false
  halted : List Nat := []
  demalEntry : Nat := 0
deriving DecidableEq, Repr

/-- An entry of the rail table (R445). -/
structure RailEntry where
  order : Nat
  delayMs : Nat
  vout : Nat
  code : Nat
  avs : Bool
  offInKeep : Bool
deriving DecidableEq, Repr

/-- A calibration in progress (R454 to R460): item; phase: 0 started, 1 lane carried by the spare, 2 adapted and
waiting for the switch back, 3 waiting for the next tick; the items that follow in its group's run; the tag of its
TRIM_RUN command; the elapsed time of its start, blocks in a row that both slices read alike, and the tick last sealed when
there were sixteen (R214, R215); the item's settings from before, once it has new ones (R457). -/
structure Cal where
  item : Nat
  phase : Nat := 0
  next : List Nat := []
  tag : Option Nat := none
  since : Nat := 0
  same : Nat := 0
  matchAt : Option Nat := none
  before : Option Nat := none
deriving DecidableEq, Repr

/-- Power controller (chapter 17) beside its registers. -/
structure PowerSt where
  /-- The used entries of a valid rail table; none without a valid table (R445). -/
  rails : Option (List RailEntry) := none
  /-- Rail codes that have reached power-good in the present sequence. -/
  good : List Nat := []
  /-- The sequence in progress is an exit from KEEP (R443). -/
  fromKeep : Bool := false
  /-- Requested change between RUN and QUIET, taken at step 3 of the next seal (R440). -/
  change : Option Nat := none
  /-- A power-down is under way, and turns off the rails at this elapsed time (R444). -/
  downAt : Option Nat := none
  /-- Per rail code: the elapsed time since which its monitor has been outside ±5 % (R446). -/
  outSince : SMap (Option Nat) := []
  /-- Elapsed times since which the hottest reading has been below the fall level, at or above critical (R448). -/
  lowSince : Option Nat := none
  critSince : Option Nat := none
  /-- Calibrations in progress. -/
  cals : List Cal := []
  /-- The settings in force of each item, by the draw that names them; 0 those of the factory (R454, R457). -/
  trims : SMap Nat := []
  /-- Temperature sensors calibrated since PORST_n (R447). -/
  calibrated : List Nat := []
  /-- VDDIO_G in mV as its level detector reports, for a device without a valid rail table (R445). -/
  gLevel : Nat := 3300
  /-- Consecutive samples with slack to spare (R450), the last least slack, a raise not yet acknowledged (R452). -/
  slackRun : Nat := 0
  slack : Int := 0
  raising : Bool := false
deriving DecidableEq, Repr

/-- A slot of a frame store (R64, R258, R260): who holds it, and its frame: sequence number, capture time, arrival and
decode-complete time on the local clock, the capture time of the first frame of its signature run (R71, R88), lines
arrived (R43), whether it is or will be output (R256), whether it was rejected (R54) or withdrawn (R75), and the picture's
layout (format, cropping offsets, output size, pitch, chroma offset, colour word). -/
structure Slot where
  decoding : Bool := false
  ref : Bool := false
  /-- It waits for its output, and the pictures decoded since it began to (R255). -/
  wait : Bool := false
  waited : Nat := 0
  kept : Bool := false
  enc : Nat := 0
  readers : Nat := 0
  seq : Nat := 0
  cap : Int := 0
  arrival : Nat := 0
  done : Option Nat := none
  first : Int := 0
  linesIn : Nat := 0
  shown : Bool := false
  withdrawn : Bool := false
  fmt : Nat := 0
  top : Nat := 0
  left : Nat := 0
  height : Nat := 0
  width : Nat := 0
  pitch : Nat := 0
  chroma : Nat := 0
  colour : Nat := 0
  /-- Taints with their origins (R267): CONCEALED and SUBST_REF. -/
  conceal : Option Nat := none
  subst : Option Nat := none
  poc : Int := 0
  /-- Coded size (R258). -/
  codedW : Nat := 0
  codedH : Nat := 0
  /-- TIME_ORIGIN, TIME_DISAGREE and taints for the record (R64). -/
  origin : Nat := 0
  disagree : Bool := false
  taints : Nat := 0
deriving DecidableEq, Repr

/-- The last frame of a source that took part in R71: capture time, signature when valid, SIG_RUN, RUN_SPAN, and the
capture time of the first frame of its signature run (R88). -/
structure PrevFrame where
  cap : Int
  sig : Option Nat
  run : Nat
  span : Nat
  first : Int
deriving DecidableEq, Repr

/-- A packet in the Vestibule (R225): sequence number, receive timestamp, the elapsed time of its reception, RTP
timestamp, marker, descriptor, payload. -/
structure Pkt where
  seq : Nat
  rx : Nat
  at_ : Nat
  rtp : Nat
  marker : Bool
  desc : Nat
  payload : List Byte
deriving DecidableEq, Repr

/-- What the Vestibule hands to the depacketiser: a payload, or a loss report with its count (R226). -/
inductive BsItem where
  | data (p : Pkt)
  | loss (count : Nat)
deriving DecidableEq, Repr

/-- An access unit in a bitstream buffer (R233): arrival time, RTP timestamp, bytes it occupies and where they start in the
bitstream ring, and the loss reports in it, each with the bytes ahead of it and its count (R226). -/
structure Au where
  arrival : Nat
  rtp : Nat
  bytes : Nat
  losses : List (Nat × Nat)
  start : Nat := 0
deriving DecidableEq, Repr

/-- A picture in decode (R247): slot, engines, whether its slice data is parsed, the access unit's bytes; coefficient pages
held, and whether its entropy engine waits for one (R248); cycles charged in ENT; whether it starts a coded video sequence;
the slots in its final reference lists, a substitute used (grey or not), the reference pictures it keeps, whether it is one,
the limits of the DPB (R255, R266, R267); the size of a unit, units in a row and in all, 4:0:0 (R259), an H.264 stream marked
profile_idc 66 (R263); the units to conceal and the first units of the slices at which parsing can resume (R264). -/
structure Pic where
  slot : Nat
  ent : Nat
  pix : Nat
  parsed : Bool := false
  au : Au
  pages : Nat := 0
  stalled : Bool := false
  cost : Nat := 0
  irap : Bool := false
  refs : List Nat := []
  subst : Option Bool := none
  keep : List Int := []
  isRef : Bool := true
  reorder : Nat := 0
  latency : Option Nat := none
  dpb : Nat := 1
  unit : Nat := 16
  across : Nat := 1
  total : Nat := 1
  mono : Bool := false
  baseline : Bool := false
  conceal : List Nat := []
  resume : List Nat := []
deriving DecidableEq, Repr

/-- A recovery point (R268): SEQ of the picture with the message, its picture order count where it is known, and the
frame_num of the picture that gives it. -/
structure Recovery where
  seq : Nat
  poc : Option Int
  frame : Nat
deriving DecidableEq, Repr

/-- An RTCP mapping of a channel (R242): RTP reference, PTP time in 2⁻³² ns, local times of its commit and of the end of
its HOLD_S seconds. -/
structure Mapping where
  rtp : Nat
  time : Nat
  since : Nat
  ends : Nat
deriving DecidableEq, Repr

/-- A frame of a capture stream as it arrives over a lane (R208, R212): its FRAME, the slot it fills (none once it is
complete or when it was rejected), whether TILE blocks bring it, the next row (luma rows, then chroma rows) and pixel,
the CRC register of the row, content lost, width and height, its capture stamp, and whether a row has arrived; the lane and
capture stream that bring it (R161), and the source ID of a TILE frame's record (R212). -/
structure NativeRx where
  frame : Nat
  lane : Nat := 0
  stream : Nat := 0
  source : Nat := 0
  slot : Option Nat := none
  tile : Bool := false
  row : Nat := 0
  pix : Nat := 0
  crc : Nat := 0xFFFFFFFF
  lost : Bool := false
  width : Nat := 0
  height : Nat := 0
  stamp : Option Nat := none
  arrived : Bool := false
deriving DecidableEq, Repr

/-- A source channel beside its registers (chapters 8 and 9): slots; frame credit in units of 1/(10¹² · TICK_DEN) frame
and cycle credits (R54); the last recorded frame; the OVER_DECLARED taint; the mappings committed, newest first, and
whether the newest has lapsed; packets released to the depacketiser, the counts of loss reports ahead of the next payload,
the access unit in assembly and those complete; picture in decode; past the start state, and whether the next access unit
is the one decoding starts at; whether the ready picture has been reported as waiting for a slot (R262), RASL pictures are
discarded (R254); recovery points of the coded video sequence (R268), and slot and SEQ of the picture decoded last in it
(R265); the NATIVE frame that arrives; whether the picture output last was tainted (R269). -/
structure Chan where
  slots : SMap Slot := []
  credit : Nat := 0
  entCredit : Nat := 0
  pixCredit : Nat := 0
  prev : Option PrevFrame := none
  overTaint : Bool := false
  mappings : List Mapping := []
  mapLapsed : Bool := false
  released : List BsItem := []
  asm : Option Au := none
  asmLoss : List Nat := []
  /-- A fragmentation unit without its start bit is discarded (R232); next byte of the bitstream ring (R233). -/
  skipFu : Bool := false
  ringAt : Nat := 0
  aus : List Au := []
  pic : Option Pic := none
  started : Bool := false
  atStart : Bool := false
  starved : Bool := false
  skipRasl : Bool := false
  recoveries : List Recovery := []
  lastPic : Option (Nat × Nat) := none
  native : Option NativeRx := none
  lastTainted : Bool := false
deriving DecidableEq, Repr

/-- A flow of the Vestibule beside its registers (R219 to R230): keys as words 3 to 14, bound channel, latched SSRC,
NEXT, window, history below NEXT (sequence number, received), the last sequence numbers far outside the window,
counts, and the elapsed time at which each path last accepted a packet; the channel a flow without one was last bound to,
which its ledger covers (R60); receive timestamp and path of the packet handled last (R225). -/
structure Flow where
  keyA : Option (List Nat) := none
  keyB : Option (List Nat) := none
  chan : Option Nat := none
  lastChan : Option Nat := none
  ssrc : Option Nat := none
  next : Option Nat := none
  held : List Pkt := []
  hist : List (Nat × Bool) := []
  far : List Nat := []
  arrivedA : Nat := 0
  arrivedB : Nat := 0
  used : Nat := 0
  dup : Nat := 0
  late : Nat := 0
  malformed : Nat := 0
  acceptA : Nat := 0
  acceptB : Nat := 0
  lastRx : Nat := 0
  lastB : Bool := false
deriving DecidableEq, Repr

/-- A frame a layer has sealed: KIND and INDEX of its source, slot or buffer, sequence number and capture time. -/
structure Sealed where
  kind : Nat
  unit : Nat
  slot : Nat
  seq : Nat
  cap : Int
deriving DecidableEq, Repr

/-- A picture in memory: address space, base of the first plane and of the chroma plane, pitch, FORMAT, size, offset of
pixel (0, 0), colour word. -/
structure PicSrc where
  space : Nat
  base : Nat
  chroma : Nat
  pitch : Nat
  fmt : Nat
  width : Nat
  height : Nat
  left : Nat := 0
  top : Nat := 0
  colour : Nat := 0
  kind : Nat := 0
  /-- Addresses of a host buffer under which rows below a row were fetched (R146). -/
  swaps : List (Nat × Nat × Nat) := []
deriving DecidableEq, Repr

/-- A layer beside its registers (R39 to R44, R275): the frame sealed at the last seal, whether step 9 of that seal has
released it (R296), and the picture of the one before; the capture time of the sound frame sealed before (R75); the times
of the TOUCH writes since it was enabled, the newest first; the age in ns, RUN_SPAN and the capture time of the run's
first frame behind its text box (R88); the output line from which it is overtaken in the frame in scan; the last output
line for which its fetch unit has issued bursts; picture rows whose read failed (R275); direct address writes that wait
for the next burst, and the addresses (ADDR, ADDR_HI) under which picture rows below a row were fetched, oldest first
(R146). -/
structure Layer where
  cur : Option Sealed := none
  released : Bool := false
  old : Option PicSrc := none
  lastCap : Option Int := none
  touches : List Nat := []
  age : Nat := 0
  runSpan : Nat := 0
  runStart : Int := 0
  overtaken : Option Nat := none
  fetched : Option Nat := none
  lost : List Nat := []
  addr : List (Nat × Nat) := []
  swaps : List (Nat × Nat × Nat) := []
deriving DecidableEq, Repr

/-- What the frame in scan was composed from when the clock stepped: the registers, the latched values and the layers
as the seal of that frame left them (R56, R311). -/
structure ScanView where
  regs : SMap Word
  latched : SMap Word
  layers : SMap Layer
deriving DecidableEq, Repr

/-- A complete frame of a writeback buffer: N, capture time and decode-complete time (R72, R294), and the picture in the
buffer. -/
structure WbFrame where
  n : Nat
  cap : Int
  done : Nat
deriving DecidableEq, Repr

/-- A writeback buffer of a head (R294): being written, readers, retained, held by jobs, its complete frame, the
layout of the picture in it, and the lines written to it and acknowledged by the DMC (R328). -/
structure WbBuf where
  writing : Bool := false
  readers : Nat := 0
  kept : Bool := false
  held : Nat := 0
  frame : Option WbFrame := none
  fmt : Nat := 0
  width : Nat := 0
  height : Nat := 0
  colour : Nat := 0
  withdrawn : Bool := false
  lines : Nat := 0
  acked : Nat := 0
deriving DecidableEq, Repr

/-- A head frame in scan or between its seal and its scan (R302 to R307): N and T_N; whether its prefetch and its active
scan have begun, with the elapsed time at which the prefetch began; the line at which the present raster began and the
elapsed time of its start (R302, R316); the elapsed time at which the last line's last active pixel ends; next line;
whole-frame CRC and layer CRC registers; TORN, TIMING_TORN, CUT; ended early by the PLL (R314); the line from which a
direct timing write draws every layer UNCERTAIN; an underrun seen; the writeback buffer it fills, and whether that
failed; the least lead; what it is composed from once the clock has stepped (R311). -/
structure Scan where
  n : Nat
  t : Nat
  prefetch : Bool := false
  active : Bool := false
  fetchAt : Nat := 0
  baseLine : Nat := 0
  baseAt : Nat := 0
  lastPix : Nat := 0
  line : Nat := 0
  crc : Nat := 0xFFFFFFFF
  layerCrcs : List Nat := List.replicate 16 0xFFFFFFFF
  torn : Bool := false
  timingTorn : Bool := false
  cut : Bool := false
  ended : Bool := false
  uncertainFrom : Option Nat := none
  underran : Bool := false
  minLead : Nat := 15
  wb : Option Nat := none
  wbFailed : Bool := false
  view : Option ScanView := none
deriving DecidableEq, Repr

/-- A head beside its registers (chapters 3, 10 and 11): the frame in scan; its PLL running, with the elapsed time of its
last start or retarget and whether the 10 ms of R312 have been reported; the local time of LOCKED; N_f once fixed; a
re-time by a clock step that waits for the frame's end; a direct timing change still without lock, and one whose frame has
not begun (R316); witness: frames completed since RUNNING, the identical run, the last QLIVE frame's whole-frame CRC, the
elapsed time of the last frame or entry to RUNNING; the restart step of R98 (0 none, 1 declared, 2 draining); a disable
under way with whether its seal has passed (R310); writeback buffers and the configuration they run under, with one
latched that waits (R296); the writeback frames whose last write is not yet acknowledged, oldest first (R294); the start
of the present URGENT span and its time not yet counted in whole µs; the HEAD_PHASE of the last step 3 in ns (R46), what a
DIRECT write has moved it by there (R317), the elapsed time at which the last active scan ended (R302, R303), and that at
which its last re-time began (R198). -/
structure Head where
  scan : Option Scan := none
  pllOn : Bool := false
  pllAt : Nat := 0
  lockLate : Bool := false
  lockedAt : Option Nat := none
  nf : Option Nat := none
  stepPending : Bool := false
  directPll : Bool := false
  directNext : Bool := false
  frames : Nat := 0
  run : Nat := 0
  lastCrc : Option Nat := none
  frameAt : Nat := 0
  restart : Nat := 0
  disabling : Bool := false
  sealedOff : Bool := false
  wbs : SMap WbBuf := []
  wbBase : Nat := 0
  wbStride : Nat := 0
  wbBufs : Nat := 0
  wbOn : Bool := false
  wbNext : Option (Nat × Nat × Nat) := none
  wbPending : List (Nat × WbFrame) := []
  urgentAt : Nat := 0
  urgentRest : Nat := 0
  phase : Nat := 200000
  phaseMove : Int := 0
  endAt : Option Nat := none
  retimeAt : Nat := 0
deriving DecidableEq, Repr

/-- A VIDEO block that waits on a lane: head, N, line, and its payload without the block CRC (R194). -/
structure VidBlk where
  head : Nat
  n : Nat
  line : Nat
  body : List Byte
deriving DecidableEq, Repr

/-- A head frame on a lane (R196, R197): VIDEO blocks sent, a block omitted, withheld or DROPPED, the last line entered
into the transmit buffer, and the TRAILER's words once it is due. -/
structure FrameTx where
  head : Nat
  n : Nat
  sent : Nat := 0
  damaged : Bool := false
  lastLine : Nat := 0
  words : Option (List Nat) := none
deriving DecidableEq, Repr

/-- A TILE frame in sending (R211): transmit entry, layer, frame, the record block when not yet sent, next row (luma
rows, then chroma rows) and sample, CRC register of the row. -/
structure TileTx where
  entry : Nat
  layer : Nat
  frame : Sealed
  record : Option (List Byte)
  row : Nat := 0
  sample : Nat := 0
  crc : Nat := 0xFFFFFFFF
deriving DecidableEq, Repr

/-- A received span (R206): SPAN_START, RX_SEQ_LAST, RX_RECEIVED, RX_LOST. -/
structure Span where
  start : Nat
  last : Nat
  received : Nat
  lost : Nat
deriving DecidableEq, Repr

/-- A lane beside its registers (chapter 7). Transmit: elapsed time of the next block boundary (none before the PLL's
lock); blind period; the stuffing state on the line; the line bits of the last block; queues; last RETIME of a head; last
STATUS; a TICK message due; TILE frames in sending and those last sent. Receive: stuffing state; line bits not yet taken
(R204); messages of unknown types counted (R199); valid headers in a row; validity of the last 64 block positions, newest
first; a block whose judgement waits for the next header; span; the far end's report (status word, then R206's four
values), its elapsed time, and GENLOCK as the device treats it. DESIGN CHOICE: log entry 76. -/
structure LaneSt where
  nextAt : Option Nat := none
  blind : Bool := false
  blindEnd : Nat := 0
  txBit : Bool := false
  txRun : Nat := 0
  line : List Bool := []
  video : List VidBlk := []
  frames : List FrameTx := []
  retimes : SMap Nat := []
  statusAt : Option Nat := none
  tickDue : Bool := false
  tiles : List TileTx := []
  tileLast : SMap (Option Sealed) := []
  rxBit : Bool := false
  rxRun : Nat := 0
  hunt : List Bool := []
  unknown : Nat := 0
  valid : Nat := 0
  window : List Bool := []
  held : Option (Nat × Nat × List Byte) := none
  span : Option Span := none
  far : Span := { start := 0, last := 0, received := 0, lost := 0 }
  farAt : Option Nat := none
  genlock : Bool := false
deriving DecidableEq, Repr

/-- Sheaves (chapter 5) beside the slots' registers: slots submitted, in submission order; per slot the command's tag, the
counter update at which its present sheaf was last found good (none before), and the checked shadow values, as offset
and value; completions held until heads have re-timed (tag, tick, TCK_REBASE, heads). -/
structure ShfSt where
  order : List Nat := []
  tags : SMap Nat := []
  checkedAt : SMap (Option Nat) := []
  vals : SMap (List (Nat × Nat)) := []
  deferred : List (Nat × Nat × Nat × List Nat) := []
deriving DecidableEq, Repr

/-- Settings of a key (R408). DEDUCED: log entry 5. -/
structure KeyCfg where
  en : Bool := false
  hold : Bool := false
  guard : Bool := false
  veto : Bool := false
  groupEn : Bool := false
  group : Nat := 0
  touchTh : Nat := 8
  gloveTh : Nat := 8
  hyst : Nat := 0
  antiTh : Nat := 8
  maxOn : Nat := 60
  winHi : Nat := 0
  winLo : Nat := 0
  on : Nat := 1
  off : Nat := 1
deriving DecidableEq, Repr

/-- A key as Demal holds it (R394 to R403): settings, and whether they are new since the last scan processed; phase: 0
off, 1 SUSPECT, 2 RELEASED, 3 TOUCHED, 4 FAULT, 6 inside its window at the start, 7 to start; scans in a row inside the
window, at or above T, below T − H, each debounce run with the fire time of its first scan; scans of drift; elapsed time of
the first scan of an anti-touch run, and of the touch; minutes of a touch already reported; held back by water guard. -/
structure KeySt where
  cfg : KeyCfg := {}
  fresh : Bool := false
  phase : Nat := 0
  inside : Nat := 0
  onRun : Nat := 0
  onAt : Nat := 0
  offRun : Nat := 0
  offAt : Nat := 0
  drift : Nat := 0
  antiAt : Option Nat := none
  touchAt : Nat := 0
  minutes : Nat := 0
  vetoed : Bool := false
deriving DecidableEq, Repr

/-- Settings of the key panel, its drive-noise mode and the scans in a row that would enter or leave it (R404, R405).
DEDUCED: log entry 5. -/
structure PanelSt where
  glove : Bool := false
  water : Bool := false
  noiseAuto : Bool := false
  noiseExit : Nat := 0
  noiseEnter : Nat := 0
  noisePct : Nat := 100
  driftScans : Nat := 1
  noise : Bool := false
  enterRun : Nat := 0
  exitRun : Nat := 0
deriving DecidableEq, Repr

/-- A touch scan (R389, R401): the local and the elapsed time at its start, HOP, FREQ, and the slice the spare covers. -/
structure TouchScan where
  time : Nat
  at_ : Nat
  hop : Bool
  freq : Nat
  cover : Option Nat
deriving DecidableEq, Repr

/-- Touch unit and keys (chapter 15) beside the registers: the scan in progress, the completed one Demal has still to
process, the slice covered and whether its last covered scan has started (R455), good scans in a row of slices in FAULT,
panel, keys, and KEY_CONFIG commands: waiting for an idle gap, and in effect. -/
structure TouchSt where
  scan : Option TouchScan := none
  done : Option TouchScan := none
  cover : Option Nat := none
  coverEnds : Bool := false
  good : SMap Nat := []
  panel : PanelSt := {}
  keys : SMap KeySt := []
  waiting : List Nat := []
  taken : List Nat := []
deriving DecidableEq, Repr

/-- A picture of an encode session from its input seal to its completion (R325 to R346): N and T_N of that seal,
TCK_REBASE, deadline; the frame it holds; capture time and taints of its input; REPEAT, FOLLOW, INPUT_CUT; IDR, sweep
start, wave position, whether its set is due; the QP limits it started with; the next row, whether it is in coding and whether
it is coded in floor mode; floor mode for every later row; bits left; floor rows, a row of set w in floor mode, a unit coded
as skip in floor mode; sum of the rows' QPs; OVER_CLAMP, OUT_SHORT, SWEEP_END; the bits and rows of the slice in coding, the
cycles spent; slices not yet written, bytes written, first row of the next record; the content time and taints its records
carry, once one is written (R345). -/
structure EncPic where
  n : Nat
  t : Nat
  rebase : Nat
  deadline : Nat
  held : Option Sealed := none
  cap : Int := 0
  taints : Nat := 0
  repeat_ : Bool := false
  follow : Bool := false
  cut : Bool := false
  idr : Bool := false
  start : Bool := false
  wave : Nat := 0
  due : Bool := false
  qpMin : Nat := 0
  qpMax : Nat := 51
  row : Nat := 0
  coding : Bool := false
  rowFloor : Bool := false
  floorAll : Bool := false
  left : Nat := 0
  floorRows : Nat := 0
  setFloor : Bool := false
  skipped : Bool := false
  qpSum : Nat := 0
  overMark : Bool := false
  outShort : Bool := false
  sweepEnd : Bool := false
  sliceBits : Nat := 0
  sliceRows : List Config.RowCoded := []
  cycles : Nat := 0
  bytes : List Byte := []
  written : Nat := 0
  firstRow : Nat := 0
  sent : Option (Int × Nat) := none
deriving DecidableEq, Repr

/-- A FOLLOW session's input between its seal and the moment row 0 is ready (R325, R328, R331): N, T_N, TCK_REBASE,
deadline, and the frame held once active scan of N has begun, with its capture time and taints. -/
structure EncFollow where
  n : Nat
  t : Nat
  rebase : Nat
  deadline : Nat
  held : Option Sealed := none
  cap : Int := 0
  taints : Nat := 0
deriving DecidableEq, Repr

/-- An encode session beside its registers (chapter 12): the picture in coding, the FOLLOW input before it; word 7 of the
last writeback frame taken, capture time of the last channel frame taken; CPB fullness just after the last removal in
1/(10⁶ · TICK_DEN) bit, and the input seal of that picture, that of the last buffering period; what the encoder's own
model keeps of the pictures before; content time and taints of the reference picture; sweep: wave position, pictures in
it; output: bytes written and freed since the start, records written, unread records with the offsets at which their data
starts. -/
structure EncSt where
  pic : Option EncPic := none
  next : Option EncFollow := none
  lastWord : Option Nat := none
  lastCap : Option Int := none
  cpb : Nat := 0
  removed : Option Nat := none
  period : Nat := 0
  model : Nat := 0
  content : Option Int := none
  taints : Nat := 0
  wave : Nat := 0
  inSweep : Nat := 0
  made : Nat := 0
  freed : Nat := 0
  posted : Nat := 0
  recs : List Nat := []
  /-- SLICE_ROWS of ENC_START, and the pictures coded. -/
  sliceRows : Nat := 0
  count : Nat := 0
deriving DecidableEq, Repr

/-- The answer a bus master gets to an access (R416 to R418): an error, and the data of a read. -/
structure BusResp where
  error : Bool := false
  data : List Byte := []
deriving DecidableEq, Repr

/-- The machine's state. -/
structure State where
  /-- Commands that wait, first in, first out. -/
  pending : List Instr := []
  /-- The fused configuration (R15, R16). -/
  part : Part := .krv3296
  /-- Supply state and the level of PORST_n (true: held low). -/
  supply : Supply := .on
  porst : Bool := false
  /-- PCIe link up (R473). -/
  linkUp : Bool := false
  /-- BAR0 registers by offset, and the values of ST registers latched at step 3 of the last seal (R35). -/
  regs : SMap Word := []
  latched : SMap Word := []
  /-- Whole values of the register pairs of which a read of the lower half latches the upper, by lower offset. -/
  wide : SMap Nat := []
  /-- Local clock in 2⁻³² ns since the PTP epoch (R103); time elapsed in the same unit, which steps do not change;
  updates of the 625 MHz counter since reset. -/
  clock : Nat := 0
  elapsed : Nat := 0
  updates : Nat := 0
  /-- Granary by BAR4 offset (R11), Cellar by Cellar byte address, host memory by PCIe address as the device sees
  it, the MSI-X table and pending-bit array by BAR2 offset (R149). -/
  granary : SMap Byte := []
  cellar : SMap Byte := []
  /-- The losses of Cellar's content, newest first: a number that no other loss has, and the bytes each left: segment
  length and a bit for each segment that kept its content (R353, R365, R472). -/
  losses : List (Nat × Nat × Nat) := []
  host : SMap Byte := []
  /-- What writes have replaced in Cellar and host memory since a head began to fetch (R275). -/
  overwritten : List OldBytes := []
  bar2 : SMap Byte := []
  /-- Draws made so far of the free values (the model's own counter, not the manual's). -/
  draws : Nat := 0
  /-- Pending HK values, and WIN pairs accepted that wait for step 3 of the next seal, by V word offset (R74). -/
  husks : List HuskPend := []
  accepted : SMap (Option Nat) := []
  /-- Husk faults that await their repair, and mismatching intent entries: (kind, index) (R75, R91). -/
  faults : List (Nat × Nat) := []
  mismatches : List (Nat × Nat) := []
  /-- Damage to stored Husks that no register shows: kinds 3 and 5 by kind × 65,536 + index; 0 is sound (R75). -/
  damage : SMap Nat := []
  chans : SMap Chan := []
  flows : SMap Flow := []
  /-- Busy cycles of decode engines in the present tick: entropy engine e, pixel engine 4 + e (R54, chapter 9). -/
  engineCycles : SMap Nat := []
  /-- The last frame each MAC has sent, with its FCS (R236). -/
  macTx : SMap (List Byte) := []
  layers : SMap Layer := []
  heads : SMap Head := []
  lanes : SMap LaneSt := []
  shf : ShfSt := {}
  rng : RingSt := {}
  tim : TimeSt := {}
  tck : TickSt := {}
  flights : List Flight := []
  cell : CellSt := {}
  lcs : LcsSt := {}
  pwr : PowerSt := {}
  tch : TouchSt := {}
  encs : SMap EncSt := []
  /-- Bytes a CHK engine has processed (keys 0 to 3), and a CPX context's committed jobs have read (16 + x) and written
  (32 + x), since reset. -/
  jobBytes : SMap Nat := []
  /-- The jobs and snapshots in progress on a CHK engine by tag, the next to be served first, and the elapsed time at which
  its last turn ended (R375). -/
  chkTurns : SMap (List Nat) := []
  chkAt : SMap Nat := []
  /-- The answer to the last access of a bus master, and to the debug port's last (R416 to R418, R425). -/
  response : BusResp := {}
  debugResponse : BusResp := {}
deriving DecidableEq, Repr

/-- The machine right after reset: every register at the reset value of its table, nothing stored, nothing waiting;
a KRV-3296 with every rail good, out of reset. DESIGN CHOICE: log entry 1. DEDUCED: log entry 5. -/
def State.reset : State := {}

end Sys2Proof.Machine
end

