-- ==== Sys2Proof/Machine/Ops.lean ====
section
/-!
DEFINITION. Machine/Ops.lean: the named operations every command is built from: registers, the local clock, the
memories, the guards' check of an access (R411 to R419), the raising and routing of events (R170 to R174), the unit
states (R176) and the commands in flight (R157).
-/

namespace Sys2Proof.Machine

/-! ## Registers -/

/-- A register as it stands in the register map. -/
def rd (s : State) (off : Nat) : Nat := (smGet regReset s.regs off).toNat

/-- The hardware's own write to a register: all 32 bits, no access rule. -/
def wr (s : State) (off v : Nat) : State :=
  { s with regs := smSet regReset s.regs off (BitVec.ofNat 32 v) }

/-- A register as latched at step 3 of the last seal (R35). -/
def lrd (s : State) (off : Nat) : Nat := (smGet regReset s.latched off).toNat

/-- Change the latched value of a register (DIRECT-mode effects inside a frame, R146). -/
def lwr (s : State) (off v : Nat) : State :=
  { s with latched := smSet regReset s.latched off (BitVec.ofNat 32 v) }

/-- A field of a register. -/
def fld (s : State) (off hi lo : Nat) : Nat := bits (rd s off) hi lo

/-- A field of a latched register. -/
def lfld (s : State) (off hi lo : Nat) : Nat := bits (lrd s off) hi lo

/-- Replace a field of a register. -/
def setFld (s : State) (off hi lo v : Nat) : State := wr s off (setBits (rd s off) hi lo v)

/-- One bit of a register. -/
def flag (s : State) (off i : Nat) : Bool := bit (rd s off) i

/-- Set or clear one bit of a register. -/
def setFlag (s : State) (off i : Nat) (b : Bool) : State := setFld s off i i (ofBool b)

/-- Add to a counter register; every counter wraps. -/
def addReg (s : State) (off n : Nat) : State := wr s off (rd s off + n)

/-- Add to a field of a register; the field wraps. -/
def addFld (s : State) (off hi lo n : Nat) : State := setFld s off hi lo (fld s off hi lo + n)

/-- A register pair read as one 64-bit value. -/
def rd64 (s : State) (lo hi : Nat) : Nat := rd s lo + 2 ^ 32 * rd s hi

/-- Write a register pair. -/
def wr64 (s : State) (lo hi v : Nat) : State := wr (wr s lo v) hi (v / 2 ^ 32)

/-- The whole value behind a pair whose upper half is latched by a read of the lower. -/
def wideGet (s : State) (lo : Nat) : Nat := smGet (fun _ => 0) s.wide lo

/-- Such a pair takes a value: its lower register shows it at once. DEDUCED: log entry 34. -/
def wideSet (lo v : Nat) (s : State) : State :=
  wr { s with wide := smSet (fun _ => 0) s.wide lo v } lo v

/-- A read of the lower half latches the upper. DEDUCED: log entry 34. -/
def wideLatch (lo hi : Nat) (s : State) : State := wr (wr s lo (wideGet s lo)) hi (wideGet s lo / 2 ^ 32)

/-- Is the fused unit that owns an instance present (R2, R16). DEDUCED: log entry 14. -/
def unitPresent (p : Part) : RegUnit → Nat → Bool
  | .none, _ => true
  | .head, i => i < Config.heads p
  | .src, i => i < Config.sources p
  | .lane, i => i < Config.lanes p
  | .quad, i => i < Config.quads p
  | .dmc, i => i < Config.dmcChannels p
  | .ent, i => i < Config.entropyEngines p
  | .pix, i => i < Config.pixelEngines p
  | .enc, i => i < Config.encPipes p

/-! ## The local clock -/

/-- One nanosecond of the local clock (R103). -/
def nsUnit : Nat := 2 ^ 32

/-- One second of the local clock. -/
def secUnit : Nat := 1000000000 * 2 ^ 32

/-- A time from seconds, nanoseconds and fraction. -/
def mkTime (sec ns frac : Nat) : Nat := sec * secUnit + ns * nsUnit + frac

/-- Seconds, nanoseconds and fraction of a time (R103). -/
def timeSec (t : Nat) : Nat := t / secUnit
def timeNs (t : Nat) : Nat := t % secUnit / nsUnit
def timeFrac (t : Nat) : Nat := t % nsUnit

/-- Whole nanoseconds since the epoch, the form of a time argument of an event (R170). -/
def timeArg (t : Nat) : Nat := t / nsUnit

/-- INC_NOM (R104). -/
def incNom (s : State) : Nat := rd s R.TIM_INC_NOM_LO + 2 ^ 32 * fld s R.TIM_INC_NOM_HI 3 0

/-- The increment of the local clock a counter update (R104). -/
def inc (s : State) : Nat :=
  ((incNom s : Int) + sint 32 (rd s R.TIM_FREQ) * (incNom s : Int) / 256000000000).toNat

/-- `n` updates of the 625 MHz counter pass. DESIGN CHOICE: log entry 2. -/
def passUpdates (n : Nat) (s : State) : State :=
  { s with clock := s.clock + n * inc s, elapsed := s.elapsed + n * inc s, updates := s.updates + n }

/-- Time passes until the local clock has reached `t` (a clock that stands still reaches nothing).
DESIGN CHOICE: log entry 4. -/
def waitClock (t : Nat) (s : State) : State :=
  if t ≤ s.clock ∨ inc s = 0 then s else passUpdates (ceilDiv (t - s.clock) (inc s)) s

/-- Time passes until the elapsed time, which steps do not change, has reached `t`. DESIGN CHOICE: log entry 4. -/
def waitElapsed (t : Nat) (s : State) : State :=
  if t ≤ s.elapsed ∨ inc s = 0 then s else passUpdates (ceilDiv (t - s.elapsed) (inc s)) s

/-- Time passes until the counter has made `u` updates. DESIGN CHOICE: log entry 4. -/
def waitUpdates (u : Nat) (s : State) : State := passUpdates (u - s.updates) s

/-- Counter updates in a span of microseconds (625 updates each). -/
def usUpdates (us : Nat) : Nat := us * 625

/-! ## Memories -/

/-- What an unlisted byte of Granary or host memory reads as. DESIGN CHOICE: log entry 10. -/
def zeroByte (_ : Nat) : Byte := 0

/-- What an unlisted byte of Cellar reads as: a free value of the last loss that did not keep the byte's segment.
DESIGN CHOICE: log entry 10. DEDUCED: log entry 11. -/
def cellarByte : List (Nat × Nat × Nat) → Nat → Byte
  | [], _ => 0
  | (n, len, mask) :: ls, a => if bit mask (a / len) then cellarByte ls a else Config.freeByte (n * 2 ^ 64 + a)

/-- What an unlisted byte of the MSI-X table and pending-bit array reads as: every vector masked.
DESIGN CHOICE: log entry 10. -/
def bar2Byte (a : Nat) : Byte := if 0x8000 ≤ a ∧ a < 0x8400 ∧ (a - 0x8000) % 16 = 12 then 1 else 0

/-- Granary bytes by BAR4 offset. DESIGN CHOICE: log entry 10. -/
def gRead (s : State) (a n : Nat) : List Byte := smGetRange zeroByte s.granary a n
/-- Store Granary bytes; a 64-bit word written whole has valid check bits again (R367). -/
def gWrite (s : State) (a : Nat) (bs : List Byte) : State :=
  { s with granary := smSetRange zeroByte s.granary a bs,
           cell := { s.cell with badWords :=
             s.cell.badWords.filter (fun w => decide (w < a ∨ a + bs.length < w + 8)) } }

/-- A 32-bit little-endian Granary word. -/
def gRead32 (s : State) (a : Nat) : Nat := ofLe (gRead s a 4)
def gWrite32 (s : State) (a v : Nat) : State := gWrite s a (leBytes 4 v)

/-- BAR2 bytes of the MSI-X table and pending-bit array. -/
def b2Read (s : State) (a n : Nat) : List Byte := smGetRange bar2Byte s.bar2 a n
def b2Write (s : State) (a : Nat) (bs : List Byte) : State :=
  { s with bar2 := smSetRange bar2Byte s.bar2 a bs }


/-- The address spaces of the guards (R413). -/
abbrev spCellar : Nat := 0
abbrev spGranary : Nat := 1
abbrev spRegs : Nat := 2
abbrev spHost : Nat := 3

/-- The Cellar capacity in bytes once trained (R350). -/
def cellarBytes (s : State) : Nat := fld s R.DMC_CAPACITY 16 0 * 2 ^ 20

/-- Does Cellar or host memory answer an access: Cellar when READY and below its capacity (R352), host memory while
the link is up (R473). -/
def memAnswers (s : State) (sp a n : Nat) : Bool :=
  if sp = spCellar then flag s R.DMC_STATUS 0 && decide (a + n ≤ cellarBytes s)
  else if sp = spHost then s.linkUp
  else false

/-- The channel of a Cellar address (R351). -/
def chanOf (s : State) (a : Nat) : Nat :=
  ((bits a 10 8) ^^^ (bits a 15 13) ^^^ (bits a 20 18)) % Config.dmcChannels s.part

/-- Bytes of Cellar or host memory. DESIGN CHOICE: log entry 10. -/
def memBytes (s : State) (sp a n : Nat) : List Byte :=
  if sp = spCellar then smGetRange (cellarByte s.losses) s.cellar a n else smGetRange zeroByte s.host a n

/-- Does a head prefetch or scan a frame while a layer shows a host buffer. -/
def bufferInScan (s : State) : Bool :=
  s.heads.any (fun p => p.2.scan.any (fun sc => sc.prefetch || sc.active))
    && s.layers.any (fun p => p.2.cur.any (fun f => decide (f.kind = 1)))

/-- While a head fetches a frame, what a write replaces is kept: a fetch that overlaps the write may have met it (R275). -/
def keepOld (sp a n : Nat) (s : State) : State :=
  { s with overwritten := if bufferInScan s then
      s.overwritten ++ [{ space := sp, addr := a, at_ := s.elapsed, bytes := memBytes s sp a n }] else [] }

/-- Store bytes in Cellar or host memory. -/
def memStore (s : State) (sp a : Nat) (bs : List Byte) : State :=
  let s := keepOld sp a bs.length s
  if sp = spCellar then { s with cellar := smSetRange (cellarByte s.losses) s.cellar a bs }
  else { s with host := smSetRange zeroByte s.host a bs }

/-- Store the bytes host software has changed in its own memory. -/
def hostStore : Cells → State → State
  | [], s => s
  | (a, b) :: cs, s => hostStore cs (memStore s spHost a [b])

/-! ## Guards: the check of an access (R413 to R415) -/

/-- What an access asks of a guard: a read, a write, an instruction fetch, or an atomic read-modify-write. -/
inductive Acc where
  | read | write | fetch | atomic
deriving DecidableEq, Repr

/-- An enabled region of a guard (R414). -/
structure GRegion where
  num : Nat
  base : Nat
  span : Nat
  panes : Nat
  space : Nat
  lock : Bool
  x : Bool
  w : Bool
  r : Bool
deriving DecidableEq, Repr

/-- One part of an access after the split, the region selected (16 the default attributes) and whether the guard
permits it (R415). -/
structure GPart where
  addr : Nat
  len : Nat
  region : Nat
  lock : Bool
  ok : Bool
deriving DecidableEq, Repr

/-- Region r of guard g, when enabled. -/
def guardRegion (s : State) (g r : Nat) : Option GRegion :=
  let c := rd s (R.GRD_R_CFG g r)
  if bit c 31 then
    let span := 2 ^ (12 + bits c 13 8)
    let b := rd64 s (R.GRD_R_BASE_LO g r) (R.GRD_R_BASE_HI g r)
    some { num := r, base := b / span * span, span := span, panes := bits c 23 16, space := bits c 15 14,
           lock := bit c 3, x := bit c 2, w := bit c 1, r := bit c 0 }
  else none

/-- The enabled regions of a guard, lowest number first. -/
def guardRegions (s : State) (g : Nat) : List GRegion := (List.range 16).filterMap (guardRegion s g)

/-- Does a region cover an address of its space: the address lies in an enabled pane (R414). -/
def GRegion.covers (q : GRegion) (a : Nat) : Bool :=
  decide (q.base ≤ a ∧ a < q.base + q.span) && bit q.panes ((a - q.base) / (q.span / 8))

/-- The addresses at which a region's enabled panes begin and end. -/
def GRegion.bounds (q : GRegion) : List Nat :=
  (List.range 8).flatMap (fun k =>
    if bit q.panes k then [q.base + k * (q.span / 8), q.base + (k + 1) * (q.span / 8)] else [])

/-- Does the first region win over the second: LOCK first, then the smaller span, then the lower number (R415). -/
def GRegion.beats (p q : GRegion) : Bool :=
  if p.lock ≠ q.lock then p.lock
  else if p.span ≠ q.span then decide (p.span < q.span)
  else decide (p.num < q.num)

/-- The region a guard selects for an address, none for the default attributes (R415 step 2). -/
def guardSelect (rs : List GRegion) (sp a : Nat) : Option GRegion :=
  (rs.filter (fun q => q.space = sp ∧ q.covers a)).foldl
    (fun best q => match best with
      | none => some q
      | some p => if q.beats p then some q else some p) none

/-- Do attributes permit an access (R415 step 3). -/
def Acc.permitted (k : Acc) (x w r : Bool) : Bool :=
  match k with
  | .read => r
  | .write => w
  | .fetch => x
  | .atomic => r && w

/-- Insert a cut into a rising list of cuts. -/
def insertCut (a : Nat) : List Nat → List Nat
  | [] => [a]
  | b :: bs => if a < b then a :: b :: bs else if a = b then b :: bs else b :: insertCut a bs

/-- The addresses at which an access is split, in rising order (R415 step 1). -/
def guardCuts (rs : List GRegion) (sp a n : Nat) : List Nat :=
  ((rs.filter (fun q => q.space = sp)).flatMap GRegion.bounds).foldl
    (fun cs b => if a < b ∧ b < a + n then insertCut b cs else cs) []

/-- Pair each start with its length, ending at `stop`. -/
def cutParts (stop : Nat) : Nat → List Nat → List (Nat × Nat)
  | a, [] => [(a, stop - a)]
  | a, c :: cs => (a, c - a) :: cutParts stop c cs

/-- A guard's check of an access: its parts, each with the region selected and the verdict (R415). -/
def guardParts (s : State) (g sp a n : Nat) (k : Acc) : List GPart :=
  let rs := guardRegions s g
  (cutParts (a + n) a (guardCuts rs sp a n)).map (fun (b, l) =>
    match guardSelect rs sp b with
    | some q => { addr := b, len := l, region := q.num, lock := q.lock, ok := k.permitted q.x q.w q.r }
    | none =>
      let c := rd s (R.GRD_CTRL g)
      { addr := b, len := l, region := 16, lock := false, ok := k.permitted (bit c 2) (bit c 1) (bit c 0) })

/-- Note one denied part in its guard's counters and _LAST registers (R419). -/
def guardNote (s : State) (g sp : Nat) (write : Bool) (p : GPart) : State :=
  let s := addReg s (if write then R.GRD_DENIED_WRITES g else R.GRD_DENIED_READS g) 1
  if flag s (R.GRD_STATUS g) 0 then s
  else
    let s := wr64 s (R.GRD_LAST_LO g) (R.GRD_LAST_HI g) p.addr
    let s := wr s (R.GRD_LAST_INFO g) (ofBool write * 256 + sp * 64 + p.region)
    setFlag s (R.GRD_STATUS g) 0 true

/-! ## Events (R170 to R174) -/

/-- An event to raise: code, UNIT, SUB and arguments (R175). -/
structure Ev where
  code : Nat
  unit : Nat := 0
  sub : Nat := 0
  a0 : Nat := 0
  a1 : Nat := 0
  a2 : Nat := 0
  a3 : Nat := 0
deriving DecidableEq, Repr

/-- The first BAR0 offset of a ring's registers: SQ r, 64 + c, 96 + e. -/
def ringBase (u : Nat) : Nat :=
  if u < 64 then 0x81000 + u * 0x40 else if u < 96 then 0x82000 + (u - 64) * 0x40 else 0x82800 + (u - 96) * 0x40

/-- Offsets of a ring's registers. -/
def ringCfg (u : Nat) : Nat := ringBase u + 8
def ringStatus (u : Nat) : Nat := ringBase u + 0xC
def ringIndex (u : Nat) : Nat := ringBase u + 0x10

/-- State code of a ring (R176): 0 OFF, 1 STARTING, 2 RUNNING, 3 DRAINING. -/
def ringState (s : State) (u : Nat) : Nat := fld s (ringStatus u) 1 0

/-- Entries of a ring (R151). -/
def ringSize (s : State) (u : Nat) : Nat := 2 ^ fld s (ringCfg u) 28 24

/-- The address space of a ring's entries: Cellar with LOC = 1, else host memory (R151). -/
def ringSpace (s : State) (u : Nat) : Nat := if flag s (ringCfg u) 1 then spCellar else spHost

/-- The address of an entry of a ring (R151, R153). -/
def ringAddr (s : State) (u index entryBytes : Nat) : Nat :=
  rd64 s (ringBase u) (ringBase u + 4) + index % ringSize s u * entryBytes

/-- Records of a CQ or EQ the host has not consumed: producer minus consumer index. -/
def ringUsed (s : State) (u : Nat) : Nat :=
  (fld s (ringIndex u) 15 0 + 65536 - fld s (ringIndex u) 31 16) % 65536

/-- Free entries of a CQ or EQ beside the one that is always kept (R165, R172). -/
def ringFree (s : State) (u : Nat) : Nat := ringSize s u - 1 - ringUsed s u

/-- Records written since the ring entered RUNNING. -/
def ringPosted (s : State) (u : Nat) : Nat := smGet (fun _ => 0) s.rng.posted u

/-- PHASE of the next record: 1 on the first pass, then alternating (R163). -/
def ringPhase (s : State) (u : Nat) : Nat := 1 - ringPosted s u / ringSize s u % 2

/-- Signal an MSI-X vector: a masked vector becomes pending, an unmasked one writes its message to host memory.
PRESUMED: log entry 18. DESIGN CHOICE: log entry 81. -/
def msixSignal (v : Nat) (s : State) : State :=
  let e := 0x8000 + 16 * v
  if bit (ofLe (b2Read s (e + 12) 4)) 0 then
    let a := 0x9000 + v / 8
    b2Write s a [BitVec.ofNat 8 ((ofLe (b2Read s a 1)) ||| 2 ^ (v % 8))]
  else if s.linkUp then memStore s spHost (ofLe (b2Read s e 8)) (b2Read s (e + 8) 4)
  else s

/-- Route an event to an interrupt pin (R174). -/
def pinRoute (p code : Nat) (s : State) : State :=
  let s := addReg s (R.EVT_PIN_COUNT p) 1
  if flag s (R.EVT_PIN_STATUS p) 16 then s else wr s (R.EVT_PIN_STATUS p) (2 ^ 16 + code * 256)

/-- A record has been written to a CQ or EQ: advance its producer index and signal its vector where the host had
consumed everything (R163, R173). -/
def ringAdvance (u : Nat) (s : State) : State :=
  let wasEmpty := ringUsed s u = 0
  let s := addFld s (ringIndex u) 15 0 1
  let s := { s with rng := { s.rng with posted := smSet (fun _ => 0) s.rng.posted u (ringPosted s u + 1) } }
  if wasEmpty ∧ flag s (ringCfg u) 2 then msixSignal (fld s (ringCfg u) 13 8) s else s

/-- The eight words of an event record (R170, R171). -/
def eventWords (s : State) (phase seq : Nat) (ev : Ev) : List Nat :=
  [phase * 2 ^ 31 + ev.sub % 128 * 2 ^ 24 + ev.unit % 65536 * 256 + ev.code % 256,
   s.tck.lastN, s.tck.lastN / 2 ^ 32 % 65536 * 65536 + rd s R.TCK_REBASE % 65536, seq,
   ev.a0, ev.a1, ev.a2, ev.a3]

/-- Record that an event allowed once a tick has been raised. -/
def markOnce (code key : Nat) (s : State) : State := { s with tck := { s.tck with once := (code, key) :: s.tck.once } }

/-- Raise an event at most once per key in a tick; every occurrence counts (R175). -/
def onceWith (again : Ev → State → State) (key : Nat) (ev : Ev) (s : State) : State :=
  if s.tck.once.contains (ev.code, key) then addReg s (R.EVT_COUNT ev.code) 1
  else again ev (markOnce ev.code key s)

/-- The guard's handling of the denied parts of an access: counters, _LAST, and one event a guard and tick
(R416, R417, R419). -/
def guardDenials (again : Ev → State → State) (g sp : Nat) (write : Bool) (ps : List GPart) (s : State) : State :=
  (ps.filter (fun p => !p.ok)).foldl (fun s p =>
    let s := guardNote s g sp write p
    let arg := if write then p.addr / 4096 else p.addr
    onceWith again g { code := if write then 0xA1 else 0xA0, unit := g, sub := p.region,
                       a0 := arg, a1 := arg / 2 ^ 32 } s) s

/-- A DMC port's token bucket. -/
def portAt (s : State) (p : Nat) : PortSt := smGet (fun _ => {}) s.cell.ports p
def setPort (p : Nat) (x : PortSt) (s : State) : State :=
  { s with cell := { s.cell with ports := smSet (fun _ => {}) s.cell.ports p x } }

/-- One byte in the unit of a bucket: RATE × 16 × 10⁶ bytes/s is RATE × 16 of these in 2⁻³² ns. -/
def tokenUnit : Int := 1000 * 2 ^ 32

/-- RATE, BURST and MODE of a port as latched (R357); a BURST of 0 counts as 1. -/
def portRate (s : State) (p : Nat) : Nat := lfld s (R.DMC_PORT_REG p) 15 0
def portBurst (s : State) (p : Nat) : Nat := max 1 (lfld s (R.DMC_PORT_REG p) 23 16)
def portMode (s : State) (p : Nat) : Bool := bit (lrd s (R.DMC_PORT_REG p)) 31

/-- A bucket brought up to the present: continuous refill, at half rate until a throttle ends, up to BURST × 4,096
bytes (R357, R362, R363). -/
def portFilled (s : State) (p : Nat) : PortSt :=
  let x := portAt s p
  let full := portRate s p * 16
  let cut := match x.throttledUntil with
    | some u => min u s.elapsed
    | none => x.at_
  let gain := full / 2 * (cut - x.at_) + full * (s.elapsed - max cut x.at_)
  let overMark := match x.throttledUntil with
    | some u => decide (u ≤ s.elapsed)
    | none => true
  { x with tokens := min (x.tokens + (gain : Nat)) (portBurst s p * 4096 * tokenUnit),
           at_ := s.elapsed, throttledUntil := if overMark then none else x.throttledUntil }

/-- A request of b bytes passes a DMC port: URGENT requests draw tokens down to −BURST × 4,096, GUARANTEED ones draw
b tokens, BORROW ones none (R357). A request that has to wait for tokens draws what the refill has still to bring, so
that the requests behind it wait as long; the wait itself is time the model does not count.
DESIGN CHOICE: log entry 77. -/
def portCharge (p b : Nat) (urgent : Bool) (s : State) : State :=
  let x := portFilled s p
  let need : Int := b * tokenUnit
  let floor : Int := -(portBurst s p * 4096 * tokenUnit)
  let t := if urgent then max (x.tokens - need) (min x.tokens floor)
    else if x.tokens < need ∧ (portMode s p ∨ portRate s p = 0) then x.tokens
    else x.tokens - need
  setPort p { x with tokens := t, bytes := x.bytes + b } s

/-! ## Requests to Cellar (R351, R352, R364, R366) -/

/-- A DRAM channel's state beside its registers, and the present channels. -/
def dramAt (s : State) (c : Nat) : DmcSt := smGet (fun _ => {}) s.cell.chans c
def setDram (c : Nat) (x : DmcSt) (s : State) : State :=
  { s with cell := { s.cell with chans := smSet (fun _ => {}) s.cell.chans c x } }
def channels (s : State) : List Nat := List.range (Config.dmcChannels s.part)

/-- STATE of a channel: 0 UNTRAINED, 1 TRAINING, 2 READY, 3 SELF_REFRESH, 4 FAILED. -/
def chanState (s : State) (c : Nat) : Nat := fld s (R.DMC_CH_STATUS c) 2 0
def setChanState (c v : Nat) (s : State) : State := setFld s (R.DMC_CH_STATUS c) 2 0 v

/-- The channel address of a Cellar address, and the rank that holds it: the highest bit of it where a channel has two
ranks (R351). -/
def chanAddress (s : State) (a : Nat) : Nat :=
  a / (256 * Config.dmcChannels s.part) * 256 + a % 256
def addressRank (s : State) (a : Nat) : Nat :=
  if flag s R.DMC_CFG 9 then chanAddress s a / (cellarBytes s / Config.dmcChannels s.part / 2) else 0

/-- The channels a span of Cellar reaches: of 2 KiB aligned to their size every channel holds a part (R351). -/
def spanChannels (s : State) (a n : Nat) : List Nat :=
  if 4096 ≤ n then channels s
  else if n = 0 then []
  else ((List.range ((a + n - 1) / 256 + 1 - a / 256)).map (fun k => chanOf s (a / 256 * 256 + 256 * k))).eraseDups

/-- TRACK_MS in the unit of the clock (R355). -/
def trackSpan (s : State) : Nat := fld s R.DMC_TRACK 15 0 * 1000000 * nsUnit

/-- A request reaches a channel: one in self-refresh leaves it first, with no debt and, after more than TRACK_MS, with its
tracking run, which the model takes as good, and the mode register as it was read last. DESIGN CHOICE: log entry 85. -/
def chanRequest (c : Nat) (s : State) : State :=
  let x := dramAt s c
  if chanState s c = 3 then
    let long := decide (x.srAt + trackSpan s < s.elapsed)
    let s := if long then addReg s (R.DMC_CH_TRACKS c) 1 else s
    setDram c { x with debt := 0, debtAt := s.elapsed, reqAt := s.elapsed, failRow := if long then 0 else x.failRow,
                       trackAt := if long then s.elapsed else x.trackAt } (setChanState c 2 s)
  else setDram c { x with reqAt := s.elapsed } s

/-- A request to n bytes of Cellar reaches its channels (R351, R364). -/
def cellarRequest (a n : Nat) (s : State) : State := (spanChannels s a n).foldl (fun s c => chanRequest c s) s

/-- The permitted bytes of an access. -/
def permittedBytes (ps : List GPart) : Nat := ((ps.filter (fun p => p.ok)).map GPart.len).foldl (· + ·) 0

/-- The permitted parts of an access enter a DMC port and reach their channels, where the access is to Cellar; a denied
part enters no port (R356, R411). -/
def portEnter (port sp : Nat) (urgent : Bool) (ps : List GPart) (s : State) : State :=
  if sp = spCellar then
    (ps.filter (fun p => p.ok)).foldl (fun s p => cellarRequest p.addr p.len s) (portCharge port (permittedBytes ps) urgent s)
  else s

/-- Write the permitted parts of a posted write to Cellar or host memory; the second component is the address of the first
permitted part that its target refused. -/
def storeParts (sp a : Nat) (bs : List Byte) : List GPart → State → State × Option Nat
  | [], s => (s, none)
  | p :: ps, s =>
    if p.ok then
      if memAnswers s sp p.addr p.len then
        storeParts sp a bs ps (memStore s sp p.addr ((bs.drop (p.addr - a)).take p.len))
      else ((storeParts sp a bs ps s).1, some p.addr)
    else storeParts sp a bs ps s

/-- A bus master's posted write to Cellar or host memory (R415, R417). -/
def dmaWriteWith (again : Ev → State → State) (g port sp a : Nat) (bs : List Byte) (s : State) : State × Option Nat :=
  let ps := guardParts s g sp a bs.length .write
  let s := guardDenials again g sp true ps s
  storeParts sp a bs ps (portEnter port sp false ps s)

/-- Put a CQ or EQ whose write has failed through DRAINING to OFF and raise its events (R168, R152). -/
def ringFaultWith (again : Ev → State → State) (u addr : Nat) (s : State) : State :=
  let s := setFlag s (ringStatus u) 5 true
  let s := setFld s (ringStatus u) 1 0 0
  let s := again { code := 3, unit := u, sub := 1, a0 := addr, a1 := addr / 2 ^ 32 } s
  let s := again { code := 9, unit := u, sub := 3 * 16 + 2 * 4 + 3 } s
  again { code := 9, unit := u, sub := 3 * 16 + 3 * 4 + 0 } s

/-! ## Uncorrectable words of the Granary (R367) -/

/-- Code of the region of a Granary address. -/
def granaryRegion (a : Nat) : Nat :=
  if a < 0x01200000 then 0 else if a < 0x01300000 then 1 else if a < 0x01700000 then 2 else if a < 0x01900000 then 3
  else if a < 0x019C0000 then 4 else if a < 0x01A40000 then 5 else if a < 0x01AC0000 then 6 else if a < 0x01B40000 then 7
  else if a < 0x01C40000 then 8 else if a < 0x01C80000 then 9 else 10

/-- The uncorrectable words among n Granary bytes, and whether there is one. -/
def granaryBadWords (s : State) (a n : Nat) : List Nat :=
  s.cell.badWords.filter (fun w => decide (w < a + n ∧ a < w + 8))
def granaryBad (s : State) (a n : Nat) : Bool :=
  s.cell.badWords.any (fun w => decide (w < a + n ∧ a < w + 8))

/-- The words among n bytes have been written whole or reloaded: they are sound again. -/
def granaryHeal (a n : Nat) (s : State) : State :=
  { s with cell := { s.cell with badWords := s.cell.badWords.filter (fun w => decide (w + 8 ≤ a ∨ a + n ≤ w)) } }

/-- An uncorrectable word counts, is recorded with its region, and is reported. -/
def granaryErrorWith (again : Ev → State → State) (w : Nat) (s : State) : State :=
  again { code := 0x9D, sub := 0, a0 := w } (wr (addReg s R.GRN_UNCORRECTED 1) R.GRN_LAST_UE (granaryRegion w * 2 ^ 28 + w))

/-- The part of the ring caches that stages for ring u; where it lies is not stated. DESIGN CHOICE: log entry 65. -/
def ringCache (u : Nat) : Nat := 0x019C0000 + 0x1000 * u

/-- A ring's cache is used: its uncorrectable words count, and are written anew. -/
def ringCacheMet (again : Ev → State → State) (u : Nat) (s : State) : State :=
  (granaryBadWords s (ringCache u) 0x1000).foldl (fun s w => granaryErrorWith again w s) (granaryHeal (ringCache u) 0x1000 s)

/-- Write an event record into an EQ that has room, and whether the write succeeded; one staged in a word that is
uncorrectable counts as a failed write (R170, R172, R367). DESIGN CHOICE: log entry 81. -/
def eqWriteWith (again : Ev → State → State) (e : Nat) (ev : Ev) (s : State) : State × Bool :=
  let u := 96 + e
  let a := ringAddr s u (fld s (ringIndex u) 15 0) 32
  let rec32 := wordBytes (eventWords s (ringPhase s u) (ringPosted s u) ev)
  let staged := granaryBad s (ringCache u) 0x1000
  let (s', bad) := dmaWriteWith again 5 18 (ringSpace s u) a rec32 (ringCacheMet again u s)
  if bad.isNone && !staged then (ringAdvance u s', true) else (ringFaultWith again u a s', false)

/-- Post an event to an EQ, or count it lost (R172). -/
def eqPostWith (again : Ev → State → State) (e : Nat) (ev : Ev) (s : State) : State :=
  if ringState s (96 + e) ≠ 2 ∨ rd s (R.RNG_EQ_LOST e) ≠ 0 ∨ ringFree s (96 + e) = 0 then
    addReg s (R.RNG_EQ_LOST e) 1
  else (eqWriteWith again e ev s).1

/-- The signals EVT_CODE_c routes an event to beside its EQ: its MSI-X vector and its pin (R173, R174). -/
def eventSignals (code : Nat) (s : State) : State :=
  let c := rd s (R.EVT_CODE code)
  let s := if bit c 30 then msixSignal (bits c 5 0) s else s
  if bit c 29 then pinRoute (bits c 17 16) code s else s

/-- Raise an event: count it and route it to its EQ, MSI-X vector and pin (R172 to R175). An event whose own posting
raises further events (a failed ring write, a guard's denial) is followed to the depth `fuel`. -/
def raiseFuel : Nat → Ev → State → State
  | 0, ev, s => addReg s (R.EVT_COUNT ev.code) 1
  | fuel + 1, ev, s =>
    let s := addReg s (R.EVT_COUNT ev.code) 1
    let c := rd s (R.EVT_CODE ev.code)
    eventSignals ev.code (if bit c 31 then eqPostWith (raiseFuel fuel) (bits c 13 12) ev s else s)

/-- Raise an event. Sixteen levels suffice: every level turns off one of the four event rings, makes the cache of
one sound, or uses up a once-per-tick allowance of the ring engine's guard. -/
def raise (ev : Ev) (s : State) : State := raiseFuel 16 ev s

/-- Raise an event at most once per key in a tick. DEDUCED: log entry 83. -/
def raiseOnce (key : Nat) (ev : Ev) (s : State) : State := onceWith raise key ev s

/-- The total of an event in the present tick: the first of what it counts, and how many. -/
def totalAt (s : State) (code unit : Nat) : Nat × Nat := smGet (fun _ => (0, 0)) s.tck.totals (256 * code + unit)

/-- An event that carries a total of the tick: EV_PACKET_LOSS its first and its count, the others their count alone
(R226, R227, R235). -/
def totalEvent (code unit first n : Nat) : Ev :=
  if code = 0x62 then { code := code, unit := unit, a0 := first, a1 := n } else { code := code, unit := unit, a0 := n }

/-- Something that an event counts over the tick happens n times: the event is raised at the tick's end; without a tick to
come, at once. DEDUCED: log entry 83. -/
def raiseTotal (code unit first n : Nat) (s : State) : State :=
  if s.tck.next.isNone then raiseOnce unit (totalEvent code unit first n) s
  else
    let t := totalAt s code unit
    let new := if t.2 = 0 then (first, n) else (t.1, t.2 + n)
    let s := if t.2 = 0 then s else addReg s (R.EVT_COUNT code) 1
    { s with tck := { s.tck with totals := smSet (fun _ => (0, 0)) s.tck.totals (256 * code + unit) new } }

/-- The tick ends: the events that carry its totals are raised. DEDUCED: log entry 83. -/
def raiseTotals (s : State) : State :=
  s.tck.totals.foldl (fun s q => raise (totalEvent (q.1 / 256) (q.1 % 256) q.2.1 q.2.2) s)
    { s with tck := { s.tck with totals := [] } }

/-- A corrected Granary word (R367); a is an address in it. -/
def granaryCorrected (a : Nat) (s : State) : State :=
  let w := a / 8 * 8
  let s := wr (addReg s R.GRN_CORRECTED 1) R.GRN_LAST_CE w
  raiseOnce 0 { code := 0x9C, sub := 0, a0 := w } s

/-- An uncorrectable Granary word (R367); a is an address in it. -/
def granaryUncorrectable (a : Nat) (s : State) : State :=
  let w := a / 8 * 8
  let bad := if s.cell.badWords.contains w then s.cell.badWords else s.cell.badWords ++ [w]
  granaryErrorWith raise w { s with cell := { s.cell with badWords := bad } }

/-- A fixed-function block's read meets the uncorrectable words among n bytes; each counts and is reported (R367). -/
def granaryMet (a n : Nat) (s : State) : State :=
  (granaryBadWords s a n).foldl (fun s w => granaryErrorWith raise w s) s

/-- A read burst of Cellar meets what the ECC of its link shows (R366). -/
def cellarEcc (a : Nat) (e : Ecc) (s : State) : State :=
  let c := chanOf s a
  match e with
  | .clean => s
  | .corrected =>
    raiseOnce (1 + c) { code := 0x9C, sub := 1, a0 := a, a1 := a / 2 ^ 32 } (addReg s (R.DMC_CH_ECC_CORRECTED c) 1)
  | .uncorrected =>
    raise { code := 0x9D, sub := 1, a0 := a, a1 := a / 2 ^ 32 } (addReg s (R.DMC_CH_ECC_UNCORRECTED c) 1)

/-- A bus master's posted write through its guard and DMC port. -/
def dmaWrite (g port sp a : Nat) (bs : List Byte) (s : State) : State × Option Nat := dmaWriteWith raise g port sp a bs s

/-- The link errors that a command's reads meet, by Cellar address. DESIGN CHOICE: log entry 12. -/
def noteLink (es : LinkErrs) (s : State) : State := { s with cell := { s.cell with linkErrs := es } }

/-- Carry out a command whose reads meet link errors. -/
def linked (es : LinkErrs) (f : State → State) (s : State) : State := noteLink [] (f (noteLink es s))

/-- A read of n Cellar bytes meets the link errors that lie in them; the address of the first uncorrected one (R366). -/
def linkRead (a n : Nat) (s : State) : State × Option Nat :=
  let hit := s.cell.linkErrs.filter (fun e => decide (a ≤ e.1 ∧ e.1 < a + n))
  let rest := s.cell.linkErrs.filter (fun e => !decide (a ≤ e.1 ∧ e.1 < a + n))
  (hit.foldl (fun s e => cellarEcc e.1 e.2 s) (noteLink rest s),
   (hit.find? (fun e => decide (e.2 = .uncorrected))).map (fun e => e.1))

/-- What a read gives its master: the bytes, zero where a part failed, and the address of the first part that failed
(R352, R366, R416). -/
structure MemRead where
  data : List Byte
  bad : Option Nat
deriving DecidableEq, Repr

/-- The parts of a read that the guard has passed or denied, in address order. -/
def readParts (sp : Nat) : List GPart → State → State × MemRead
  | [], s => (s, { data := [], bad := none })
  | p :: ps, s =>
    let zero := List.replicate p.len (0 : Byte)
    let (s, d, bad) : State × List Byte × Option Nat :=
      if !p.ok || !memAnswers s sp p.addr p.len then (s, zero, some p.addr)
      else if sp = spCellar then
        let (s, e) := linkRead p.addr p.len s
        if e.isSome then (s, zero, e) else (s, memBytes s sp p.addr p.len, none)
      else (s, memBytes s sp p.addr p.len, none)
    let (s, r) := readParts sp ps s
    (s, { data := d ++ r.data, bad := bad.or r.bad })

/-- A bus master's read of Cellar or host memory through its guard and DMC port (R352, R366, R411, R415, R416). -/
def dmaReadAs (urgent : Bool) (g port sp a n : Nat) (s : State) : State × MemRead :=
  let ps := guardParts s g sp a n .read
  let s := guardDenials raise g sp false ps s
  readParts sp ps (portEnter port sp urgent ps s)
def dmaRead (g port sp a n : Nat) (s : State) : State × MemRead := dmaReadAs false g port sp a n s

/-- A posted write whose master is told of a part that its guard denied or its target refused: the address of the first
(R385). -/
def dmaWriteTold (g port sp a : Nat) (bs : List Byte) (s : State) : State × Option Nat :=
  let ps := guardParts s g sp a bs.length .write
  ((dmaWrite g port sp a bs s).1, (ps.find? (fun p => !p.ok || !memAnswers s sp p.addr p.len)).map GPart.addr)

/-! ## Units and their states (R176) -/

/-- The register that holds the state code of a unit in bits [1:0]: kind 0 source channel, 1 head, 2 encode session,
3 ring. -/
def unitReg (kind u : Nat) : Nat :=
  if kind = 0 then R.SRC_STATE u else if kind = 1 then R.HEAD_STATUS u else if kind = 2 then R.VEN_STATE u
  else ringStatus u

/-- State code of a unit: 0 OFF, 1 STARTING, 2 RUNNING, 3 DRAINING. -/
def unitState (s : State) (kind u : Nat) : Nat := fld s (unitReg kind u) 1 0

/-- The state the sheaf checker meets has changed: SHF_GEN counts, and every PENDING sheaf returns to CHECKING
(R138). -/
def genStep (s : State) : State :=
  (List.range 8).foldl (fun s k =>
    if fld s (R.SHF_SLOT_STATE k) 1 0 = 3 then setFld s (R.SHF_SLOT_STATE k) 1 0 2 else s) (addReg s R.SHF_GEN 1)

/-- The current tick of effect: the last seal begun and TCK_REBASE at it; N is 0 before the first seal (R162, R169). -/
def tickNow (s : State) : Nat × Nat := (s.tck.lastN, s.tck.lastRebase % 65536)

/-- The tick of effect of a disable that finds its unit OFF (R169). -/
def offTick (s : State) (kind u : Nat) : Nat × Nat := smGet (fun _ => (0, 0)) s.rng.offAt (128 * kind + u)

/-- A unit that reaches OFF keeps the last seal begun (R169). -/
def noteOff (kind u : Nat) (s : State) : State :=
  { s with rng := { s.rng with offAt := smSet (fun _ => (0, 0)) s.rng.offAt (128 * kind + u) (tickNow s) } }

/-- Move a unit to a state, do what the new state begins with, and raise EV_UNIT_STATE (R176); a transition of a source
channel, head or encode session counts in SHF_GEN (R138). -/
def setUnitThen (kind u new : Nat) (queued : Bool) (f : State → State) (s : State) : State :=
  let old := unitState s kind u
  let s := if kind < 3 then genStep s else s
  let s := setFld s (unitReg kind u) 1 0 new
  let s := if new = 0 then noteOff kind u s else s
  raise { code := 9, unit := u, sub := kind * 16 + old * 4 + new, a0 := ofBool queued } (f s)
def setUnit (kind u new : Nat) (queued : Bool) (s : State) : State := setUnitThen kind u new queued (fun s => s) s

/-! ## Commands in flight (R157, R158) -/

/-- A word of a command's descriptor. -/
def Cmd.w (c : Cmd) (i : Nat) : Nat := (c.words.getD i 0).toNat

/-- OPCODE of a command (R156). -/
def Cmd.opcode (c : Cmd) : Nat := bits (c.w 0) 31 24

/-- The unit a command names: (kind, index), where it names one (R158). Kinds 0 to 2 as R176, 4 a sheaf slot, 5 a
flow, 6 a CHK context, 7 a CPX context, 8 a MAC, 9 a receive queue, 10 a key, 11 a calibration item. -/
def Cmd.unit (c : Cmd) : Option (Nat × Nat) :=
  match c.opcode with
  | 0x10 | 0x11 | 0x12 | 0x13 => some (0, bits (c.w 2) 15 0)
  | 0x14 => some (1, bits (c.w 2) 15 0)
  | 0x18 | 0x19 => some (5, bits (c.w 2) 9 0)
  | 0x20 => some (4, bits (c.w 2) 2 0)
  | 0x28 | 0x29 => some (2, bits (c.w 2) 15 0)
  | 0x30 => some (6, bits (c.w 2) 15 0)
  | 0x31 => some (7, bits (c.w 2) 15 0)
  | 0x32 => some (1, bits (c.w 2) 15 0)
  | 0x38 => some (8, bits (c.w 2) 2 0)
  | 0x39 => some (9, bits (c.w 3) 0 0)
  | 0x40 => some (10, bits (c.w 2) 15 0)
  | 0x58 => some (11, bits (c.w 2) 15 0)
  | _ => none

/-- The command that holds a tag. -/
def findCmd (s : State) (tag : Nat) : Option Cmd := s.rng.cmds.find? (fun c => c.tag = tag)

/-- Replace the command that holds a tag. -/
def updCmd (tag : Nat) (f : Cmd → Cmd) (s : State) : State :=
  { s with rng := { s.rng with cmds := s.rng.cmds.map (fun c => if c.tag = tag then f c else c) } }

/-- Drop the command that holds a tag. -/
def dropCmd (tag : Nat) (s : State) : State :=
  { s with rng := { s.rng with cmds := s.rng.cmds.filter (fun c => c.tag ≠ tag) } }

/-- Finish a command whose tick of effect is that at which its completion is written (R169). -/
def finish (tag status r0 r1 r2 : Nat) (s : State) : State :=
  updCmd tag (fun c => { c with phase := .due status r0 r1 r2 none }) s

/-- Finish a command whose tick of effect is now. -/
def finishNow (tag status r0 r1 r2 : Nat) (s : State) : State :=
  updCmd tag (fun c => { c with phase := .due status r0 r1 r2 (some (tickNow s)) }) s

/-- A command waits for what its rule names. -/
def waitCmd (tag : Nat) (aux : List Nat) (s : State) : State :=
  updCmd tag (fun c => { c with phase := .waiting, aux := aux }) s

/-- May a started command execute now: no command started before it that names the same unit has still to execute
(R158). -/
def mayExecute : List Cmd → Cmd → Bool
  | [], _ => false
  | d :: ds, c =>
    if d.tag = c.tag then decide (d.phase = .started)
    else !(decide (d.phase = .started) && d.unit.isSome && decide (d.unit = c.unit)) && mayExecute ds c

/-- Run a meaning on the started command that holds a tag and carries an opcode; where no such command may execute,
nothing happens. DESIGN CHOICE: log entry 3. -/
def onCmd (tag opcode : Nat) (s : State) (f : Cmd → State → State) : State :=
  match findCmd s tag with
  | some c => if c.opcode = opcode ∧ mayExecute s.rng.cmds c then f c s else s
  | none => s

/-- Is a waiting command the oldest of its opcode that waits with the same unit: those take effect in the order in which
they were started (R158). -/
def firstWaiting : List Cmd → Cmd → Bool
  | [], _ => false
  | d :: ds, c =>
    if d.tag = c.tag then decide (d.phase = .waiting)
    else !(decide (d.phase = .waiting) && decide (d.opcode = c.opcode) && d.unit.isSome && decide (d.unit = c.unit))
      && firstWaiting ds c

/-- Run a meaning on the waiting command that holds a tag and carries an opcode, when no older one waits for its unit.
DESIGN CHOICE: log entry 3. -/
def onWaiting (tag opcode : Nat) (s : State) (f : Cmd → State → State) : State :=
  match findCmd s tag with
  | some c => if c.opcode = opcode ∧ firstWaiting s.rng.cmds c then f c s else s
  | none => s

/-- A command ends with ADDR_FAULT: the address of the access that failed, and the guard (R164, R416). -/
def finishFault (c : Cmd) (a g : Nat) (s : State) : State := finish c.tag 7 a (a / 2 ^ 32) g s

/-! ## Status codes of completions (R164) -/

abbrev stSuccess : Nat := 0
abbrev stRejected : Nat := 1
abbrev stBadDescriptor : Nat := 2
abbrev stAbsentUnit : Nat := 3
abbrev stTickStopped : Nat := 4
abbrev stBudget : Nat := 5
abbrev stUnitState : Nat := 6
abbrev stAddrFault : Nat := 7
abbrev stNoResource : Nat := 8
abbrev stAborted : Nat := 9
abbrev stNoFirmware : Nat := 10
abbrev stJobFailed : Nat := 11

/-! ## What a command meets -/

/-- The device is powered and out of reset (R439, R475). -/
def powered (s : State) : Bool := decide (s.supply = .on) && !s.porst

/-- Every block runs: powered, out of reset, and not in the life-cycle state VOID (R437). -/
def running (s : State) : Bool := powered s && decide (s.lcs.state ≠ 4)

/-- The always-on domain runs: powered, in KEEP or not, and out of reset (R442). DESIGN CHOICE: log entry 2. -/
def aonRunning (s : State) : Bool := decide (s.supply ≠ .off) && !s.porst

/-- A command to a block that runs only while the device is powered: without power nothing happens.
DESIGN CHOICE: log entry 3. -/
def live (s : State) (f : State → State) : Host.Outcome State Fault Refusal :=
  .next (if running s then f s else s)

/-- A command to a block of the always-on domain. DESIGN CHOICE: log entry 3. -/
def liveAon (s : State) (f : State → State) : Host.Outcome State Fault Refusal :=
  .next (if aonRunning s then f s else s)

end Sys2Proof.Machine
end

