-- ==== Sys2Proof/Machine/Husk.lean ====
section
/-!
DEFINITION. Machine/Husk.lean: HK pairs (R73, R74): a critical value is written as its word V and then its one's
complement K, and takes effect only when both agree. What a pair does when it takes effect stands in the module of
its block; Machine/HuskEffect.lean brings the pairs together.
-/

namespace Sys2Proof.Machine

/-- Counter updates after which a pending V is discarded: 81.92 µs (R74). -/
def huskLife : Nat := 51200

/-- The bits of an HK value that a register defines, at its V word; 0 where no HK pair of a present unit stands.
DEDUCED: log entry 35. -/
def huskMask (s : State) (off : Nat) : Nat :=
  match regRow? off with
  | some (r, i) => if r.kWord || !unitPresent s.part r.unit (i / r.unitDiv) then 0 else r.hk
  | none => 0

/-- The one's complement of a 32-bit word (R73). -/
def complement (v : Nat) : Nat := v % 2 ^ 32 ^^^ 0xFFFFFFFF

/-- Is a pair of words sound (R73). -/
def huskSound (v k : Nat) : Bool := decide (k % 2 ^ 32 = complement v)

/-- A register pair takes a value: V and its complement K (R74). -/
def huskStore (off v : Nat) (s : State) : State := wr (wr s off v) (off + 4) (complement v)

/-- The pending value of a pair. -/
def huskPending (s : State) (off : Nat) : Option HuskPend := s.husks.find? (fun p => p.off = off)

/-- Drop the pending value of a pair. -/
def huskDrop (off : Nat) (s : State) : State := { s with husks := s.husks.filter (fun p => p.off ≠ off) }

/-- Reject a pair: sticky bit, cause and offset in WIN_HUSK_REJECT, EV_HUSK_REJECT (R101); causes 0 MISMATCH,
1 ORPHAN, 2 REPLACED, 3 TIMEOUT. DEDUCED: log entry 35. -/
def huskReject (cause off : Nat) (s : State) : State :=
  let s := setFlag s R.WIN_STATUS 0 true
  let s := wr s R.WIN_HUSK_REJECT (cause * 2 ^ 30 + off % 2 ^ 24)
  raise { code := 0x22, sub := cause, a0 := off } s

/-- A pending value that has waited 51,200 counter updates is discarded (R74). -/
def huskExpire (off : Nat) (s : State) : State :=
  match huskPending s off with
  | some p => if p.until_ ≤ s.updates then huskReject 3 off (huskDrop off s) else s
  | none => s

/-- A write to the V word of a pair (R74). DEDUCED: log entry 35. -/
def huskV (off v : Nat) (s : State) : State :=
  if huskMask s off = 0 then s
  else
    let s := huskExpire off s
    let s := if (huskPending s off).isSome then huskReject 2 off (huskDrop off s) else s
    { s with husks := s.husks ++ [{ off := off, v := BitVec.ofNat 32 v, until_ := s.updates + huskLife }] }

/-- A write to the K word of a pair; `effect` is what the pair does with a sound value (R74). DEDUCED: log entry 35. -/
def huskK (off k : Nat) (effect : Nat → State → State) (s : State) : State :=
  if huskMask s off = 0 then s
  else
    let s := huskExpire off s
    match huskPending s off with
    | none => huskReject 1 off s
    | some p =>
      let s := huskDrop off s
      if huskSound p.v.toNat k then effect (p.v.toNat &&& huskMask s off) s else huskReject 0 off s

/-- A sound WIN pair is accepted; the last one accepted before step 3 of the next seal takes effect there (R74). -/
def winAccept (off v : Nat) (s : State) : State :=
  { s with accepted := smSet (fun _ => none) s.accepted off (some v) }

/-- A write to an HK pair at an offset reaches the device: in VOID the life-cycle block alone answers (R437). -/
def livePair (off : Nat) (s : State) (f : State → State) : Host.Outcome State Fault Refusal :=
  .next (if powered s && (decide (s.lcs.state ≠ 4) || decide (off = R.LCS_REQ)) then f s else s)

/-- HUSK_V_WRITE. -/
def execHuskVWrite (off : Nat) (v : Word) (s : State) : Host.Outcome State Fault Refusal :=
  livePair off s (huskV off v.toNat)

/-- HUSK_PENDING_TIMEOUT: a pending value reaches the end of its 51,200 counter updates (R74). -/
def execHuskPendingTimeout (off : Nat) (s : State) : Host.Outcome State Fault Refusal :=
  livePair off s (fun s =>
    match huskPending s off with
    | some p => huskExpire off (waitUpdates p.until_ s)
    | none => s)

end Sys2Proof.Machine
end

