-- ==== Sys2Proof/Machine/Lcs.lean ====
section
/-!
DEFINITION. Machine/Lcs.lean: life-cycle states and requests, vendor authentication, and the boot of Demal
(R425 to R437).
-/

namespace Sys2Proof.Machine

/-! ## States and keys -/

/-- State codes (R427). -/
abbrev lcTest : Nat := 0
abbrev lcDevelop : Nat := 1
abbrev lcSealed : Nat := 2
abbrev lcReturn : Nat := 3
abbrev lcVoid : Nat := 4

/-- A customer key slot. -/
def keySlotAt (s : State) (k : Nat) : KeySlot := smGet (fun _ => {}) s.lcs.slots k
def setKeySlot (k : Nat) (x : KeySlot) (s : State) : State :=
  { s with lcs := { s.lcs with slots := smSet (fun _ => {}) s.lcs.slots k x } }

/-- Can a customer slot match a key: programmed, neither revoked nor destroyed (R432, R436). -/
def slotLive (s : State) (k : Nat) : Bool :=
  (keySlotAt s k).programmed && !(keySlotAt s k).revoked && !(keySlotAt s k).destroyed

/-- The hash in a slot: customer slots 0 to 3, slot 4 the vendor's (R436). -/
def slotHash (s : State) (k : Nat) : List Byte :=
  if k = 4 then wordBytes ((List.range 12).map (fun i => (Config.vendorHash i).toNat))
  else wordBytes ((keySlotAt s k).hash.map BitVec.toNat)

/-- Does a public key match a slot: its SHA-384 equals the slot's hash (R430, R436). -/
def slotMatches (s : State) (k : Nat) (pub : List Byte) : Bool :=
  (decide (k = 4) || slotLive s k) && decide (Config.sha384 pub = slotHash s k)

/-- The first slot of a list that a public key matches. -/
def keyMatch (s : State) (slots : List Nat) (pub : List Byte) : Option Nat :=
  slots.find? (fun k => slotMatches s k pub)

/-- Is the debug port open (R427, R432). -/
def debugOpen (s : State) : Bool :=
  decide (s.lcs.state = lcTest ∨ s.lcs.state = lcDevelop) || (decide (s.lcs.state = lcReturn) && s.lcs.vendorAuth)

/-- Bits of a word that read 1. -/
def onesOf (w : Word) : Nat := (List.range 32).countP (fun i => bit w.toNat i)

/-- The state the fuses encode: the highest state word of which at least 24 bits read 1 (R431). DEDUCED: log entry 22. -/
def fusedState (s : State) : Nat :=
  (List.range 5).foldl (fun m k => if 24 ≤ onesOf (smGet (fun _ => 0) s.lcs.stateFuses k) then k else m) 0

/-- LCS_NONCE is drawn afresh (R429). DESIGN CHOICE: log entry 9. -/
def renewNonce (s : State) : State :=
  (List.range 8).foldl (fun s i =>
    { wr s (R.LCS_NONCE i) (Config.freeWord s.draws).toNat with draws := s.draws + 1 }) s

/-- LCS_UID and LCS_NONCE as bytes. -/
def uidBytes : List Byte := wordBytes ((List.range 4).map (fun i => (Config.uidWord i).toNat))
def nonceBytes (s : State) : List Byte := wordBytes ((List.range 8).map (fun i => rd s (R.LCS_NONCE i)))

/-- The first act of every release of PORST_n in RETURN and in VOID: customer slots are destroyed (R432, R437). -/
def destroySlots (s : State) : State :=
  (List.range 4).foldl (fun s k =>
    setKeySlot k { hash := List.replicate 12 0xFFFFFFFF, programmed := true, revoked := true, destroyed := true } s) s

/-- Regions 14 and 15 of guards 4 and 27, which lock the Hearth memory in SEALED (R434). -/
def sealedRegions (s : State) : State :=
  if s.lcs.state = lcSealed then
    [4, 27].foldl (fun s g =>
      let s := wr (wr (wr s (R.GRD_R_BASE_LO g 14) 0x01C00000) (R.GRD_R_BASE_HI g 14) 0) (R.GRD_R_CFG g 14) 0x80FE4A08
      wr (wr (wr s (R.GRD_R_BASE_LO g 15) 0x02000000) (R.GRD_R_BASE_HI g 15) 0) (R.GRD_R_CFG g 15) 0x80FF4A08) s
  else s

/-! ## Requests (R428 to R431) -/

/-- The request buffer's bytes. -/
def reqBytes (s : State) : List Byte := wordBytes ((List.range 128).map (fun i => rd s (R.LCS_REQ_BUF i)))
def reqPart (s : State) (a n : Nat) : List Byte := ((reqBytes s).drop a).take n

/-- OP and ARG of a request. -/
def reqOp (v : Nat) : Nat := bits v 9 8
def reqArg (v : Nat) : Nat := bits v 2 0

/-- Is a request in the table of R428. DEDUCED: log entry 29. -/
def reqAllowed (s : State) (v : Nat) : Bool :=
  let st := s.lcs.state
  let a := reqArg v
  if reqOp v = 0 then
    decide ((a = lcDevelop ∧ st = lcTest) ∨ (a = lcSealed ∧ st = lcDevelop) ∨ (a = lcReturn ∧ st = lcSealed) ∨
      (a = lcVoid ∧ st < lcVoid))
  else if reqOp v = 1 then decide (a < 4 ∧ st = lcDevelop) && !(keySlotAt s a).programmed
  else if reqOp v = 2 then decide (a < 4 ∧ (st = lcDevelop ∨ st = lcSealed))
  else false

/-- Does the buffer's fixed part hold what R430 requires. DEDUCED: log entry 29. -/
def reqFormat (s : State) (v : Nat) : Bool :=
  let zeros (a n : Nat) : Bool := (reqPart s a n).all (fun b => decide (b = 0))
  decide (ofLe (reqPart s 0 4) = 0x5251434C) && decide (ofLe (reqPart s 4 4) = v)
    && decide (reqPart s 8 16 = uidBytes) && decide (reqPart s 24 32 = nonceBytes s)
    && zeros 56 8 && (decide (reqOp v = 1) || zeros 64 48) && zeros 112 16

/-- Does the signature at an offset verify under a key that matches one of the slots (R430). -/
def reqSigned (s : State) (a : Nat) (slots : List Nat) : Bool :=
  let pub := reqPart s a 96
  (keyMatch s slots pub).isSome && Config.ecdsaVerify pub (reqPart s 0 112) (reqPart s (a + 96) 96)

/-- The customer slots. DEDUCED: log entry 29. -/
def customerSlots : List Nat := [0, 1, 2, 3]

/-- Do the signatures R428 requires verify. DEDUCED: log entry 29. -/
def reqSignatures (s : State) (v : Nat) : Bool :=
  let st := s.lcs.state
  let a := reqArg v
  if reqOp v = 0 then
    if a = lcReturn then reqSigned s 128 customerSlots && reqSigned s 320 [4]
    else if a = lcVoid ∧ st = lcSealed then reqSigned s 128 customerSlots
    else if a = lcVoid ∧ st = lcReturn then reqSigned s 128 [4]
    else true
  else if reqOp v = 2 ∧ st = lcSealed then reqSigned s 128 (customerSlots.filter (fun k => decide (k ≠ a)))
  else true

/-- Does a REVOKE_KEY in SEALED leave no other slot unrevoked (R428). DEDUCED: log entry 29. -/
def reqLastKey (s : State) (v : Nat) : Bool :=
  decide (reqOp v = 2 ∧ s.lcs.state = lcSealed)
    && !(customerSlots.any (fun k => decide (k ≠ reqArg v) && slotLive s k))

/-- Does a TRANSITION to SEALED find no customer key (R428). DEDUCED: log entry 29. -/
def reqNoKey (s : State) (v : Nat) : Bool :=
  decide (reqOp v = 0 ∧ reqArg v = lcSealed) && !(customerSlots.any (slotLive s))

/-- The result of a request before any fuse is blown. The order of the checks is DEDUCED: the table, the format, the
further conditions, which name results of their own, then the signatures. DEDUCED: log entry 29. -/
def reqResult (s : State) (v : Nat) : Nat :=
  if !reqAllowed s v then 1
  else if !reqFormat s v then 2
  else if reqLastKey s v then 5
  else if reqNoKey s v then 4
  else if !reqSignatures s v then 3
  else 0

/-- The fuses a request blows. A word that fails to blow whole reads back free. -/
def reqBlow (v : Nat) (fuseOk : Bool) (s : State) : State :=
  let a := reqArg v
  let w := if fuseOk then 0xFFFFFFFF else Config.freeWord s.draws
  let s := if fuseOk then s else { s with draws := s.draws + 1 }
  if reqOp v = 0 then { s with lcs := { s.lcs with stateFuses := smSet (fun _ => 0) s.lcs.stateFuses a w } }
  else if reqOp v = 1 then
    setKeySlot a { keySlotAt s a with
      hash := (List.range 12).map (fun i => BitVec.ofNat 32 (rd s (R.LCS_REQ_BUF (16 + i))))
      programmed := true } s
  else setKeySlot a { keySlotAt s a with revoked := true } s

/-- An accepted TRANSITION is pending until the next release of PORST_n (R431). -/
def reqPending (v : Nat) (s : State) : State :=
  if reqOp v = 0 then
    raise { code := 0xA4, sub := reqArg v }
      (setFlag (setFld s R.LCS_STATE 22 20 (reqArg v)) R.LCS_STATE 16 true)
  else s

/-- LCS_RESULT and EV_LCS_REQUEST (R429). -/
def reqReport (v result : Nat) (s : State) : State :=
  let s := setFld (setFld s R.LCS_RESULT 17 8 (bits v 9 0)) R.LCS_RESULT 7 0 result
  raise { code := 0xA3, sub := reqArg v, a0 := result } s

/-- The LCS_REQ pair takes effect: the request goes into processing, or is dropped with result BUSY (R429).
DEDUCED: log entry 29. -/
def lcsEffect (v : Nat) (s : State) : State :=
  if s.lcs.request.isSome then reqReport v 7 s
  else
    { setFlag (huskStore R.LCS_REQ v s) R.LCS_RESULT 18 true with lcs := { s.lcs with request := some v } }

/-- The life-cycle block answers in every state, VOID among them (R437). -/
def liveLcs (s : State) (f : State → State) : Host.Outcome State Fault Refusal :=
  .next (if powered s then f s else s)

/-- LCS_REQUEST: the K write of the LCS_REQ pair. -/
def execLcsRequest (k : Word) (s : State) : Host.Outcome State Fault Refusal :=
  liveLcs s (huskK R.LCS_REQ k.toNat lcsEffect)

/-- The request in processing is carried out (R428 to R431). -/
def lcsDone (v : Nat) (fuseOk : Bool) (s : State) : State :=
  let r := reqResult s v
  let s := setFlag (setFlag s R.LCS_RESULT 18 false) R.LCS_RESULT 31 true
  let s := { s with lcs := { s.lcs with request := none } }
  let s := if r = 0 then reqBlow v fuseOk s else s
  let r := if r = 0 ∧ !fuseOk then 6 else r
  let s := reqReport v r s
  renewNonce (if r = 0 then reqPending v s else s)

/-- LCS_REQUEST_DONE. DESIGN CHOICE: log entry 13. -/
def execLcsRequestDone (fuseOk : Bool) (s : State) : Host.Outcome State Fault Refusal :=
  liveLcs s (fun s =>
    match s.lcs.request with
    | some v => lcsDone v fuseOk s
    | none => s)

/-- A write to the request buffer, ignored while a request is in processing (R429). -/
def reqBufWrite (off v : Nat) (s : State) : State := if s.lcs.request.isSome then s else wr s off v

/-! ## The debug port (R425, R426, R432) -/

/-- DEBUG_AUTH: in RETURN, a vendor-key signature over LCS_UID ‖ LCS_NONCE opens the debug port (R432). -/
def execDebugAuth (sig : List Byte) (s : State) : Host.Outcome State Fault Refusal :=
  liveLcs s (fun s =>
    let pub := sig.take 96
    if s.lcs.state = lcReturn && slotMatches s 4 pub
        && Config.ecdsaVerify pub (uidBytes ++ nonceBytes s) ((sig.drop 96).take 96) then
      { s with lcs := { s.lcs with vendorAuth := true } }
    else s)

/-- DEBUG_CORE_CONTROL: an open debug port halts, steps or runs a Hearth core; no guard rule changes (R426, R427).
What a core executes is outside the manual (R17). -/
def execDebugCoreControl (core : Fin 4) (op : CoreOp) (s : State) : Host.Outcome State Fault Refusal :=
  live s (fun s =>
    if !debugOpen s then s
    else
      let others := s.lcs.halted.filter (fun c => decide (c ≠ core.val))
      match op with
      | .halt | .step => { s with lcs := { s.lcs with halted := others ++ [core.val] } }
      | .run => { s with lcs := { s.lcs with halted := others } })

/-! ## Demal boot (R19 to R21, R435) -/

/-- State of Demal: 0 NOT_LOADED, 1 VERIFYING, 2 RUNNING, 3 REJECTED, 4 HALTED. DESIGN CHOICE: log entry 80. -/
def demalState (s : State) : Nat := fld s R.SYS_DEMAL 3 0

/-- Every key is OFF: STATE, VETOED, BASE and HELD of each key read 0 (R407). -/
def keysOff (s : State) : State :=
  let s := (List.range 64).foldl (fun s k =>
    wr (wr (wr s (R.TCH_K_STATE k) (rd s (R.TCH_K_STATE k) &&& 0xFFF8)) (R.TCH_K_BASE k) 0) (R.TCH_K_HELD k) 0) s
  { s with tch := { s.tch with keys := s.tch.keys.map (fun p => (p.1, { cfg := p.2.cfg })), waiting := [], taken := [] } }

/-- Demal leaves RUNNING: the keys are OFF (R407), and the commands it serves that have not finished complete with
NO_FIRMWARE (R181). DEDUCED: log entries 28, 30. -/
def demalLeaves (new : Nat) (s : State) : State :=
  let tags := (s.rng.cmds.filter (fun c => decide ((c.opcode = 0x40 ∨ c.opcode = 0x58) ∧ c.phase = .waiting))).map Cmd.tag
  let s := tags.foldl (fun s t => finish t stNoFirmware new 0 0 s) (keysOff s)
  { s with pwr := { s.pwr with cals := s.pwr.cals.map (fun c => { c with tag := none }) } }

/-- SYS_DEMAL.STATE changes, with its event (R21). DEDUCED: log entry 30. -/
def setDemal (new : Nat) (s : State) : State :=
  let s := if demalState s = 2 ∧ new ≠ 2 then demalLeaves new s else s
  raise { code := 5, sub := new } (setFld s R.SYS_DEMAL 3 0 new)

/-- Body length of an image. -/
def imageLen (img : List Byte) : Nat := ofLe ((img.drop 8).take 4)

/-- Are an image's magic and length valid (R435). -/
def imageValid (img : List Byte) : Bool :=
  let n := imageLen img
  decide (ofLe (img.take 4) = 0x4C4D4544 ∧ n % 4096 = 0 ∧ 4096 ≤ n ∧ n ≤ 7864320 ∧ 0x100 + n ≤ img.length)

/-- The slot an image's key matches, and whether its signature verifies, among a list of slots (R435). -/
def imageKey (s : State) (slots : List Nat) (img : List Byte) : Option Nat := keyMatch s slots ((img.drop 0x10).take 96)
def imageSigned (img : List Byte) : Bool :=
  Config.ecdsaVerify ((img.drop 0x10).take 96) (img.take 0x70 ++ (img.drop 0x100).take (imageLen img))
    ((img.drop 0x70).take 96)

/-- The slots whose keys a state accepts for Demal images (R427). -/
def bootSlots (s : State) : List Nat :=
  if s.lcs.state = lcSealed then customerSlots else if s.lcs.state = lcReturn then [4] else [0, 1, 2, 3, 4]

/-- Does a copy run (R435). DEDUCED: log entry 30. -/
def imageRuns (s : State) (img : List Byte) : Bool :=
  imageValid img &&
    (decide (s.lcs.state = lcTest ∨ s.lcs.state = lcDevelop)
      || (decide (s.lcs.state ≠ lcVoid) && (imageKey s (bootSlots s) img).isSome && imageSigned img))

/-- A copy that runs is loaded at the start of the Hearth memory and started (R435). DEDUCED: log entry 30. -/
def demalLoad (copy : Nat) (img : List Byte) (s : State) : State :=
  let k := imageKey s (bootSlots s) img
  let s := gWrite s 0x01C80000 ((img.drop 0x100).take (imageLen img))
  let s := setFld s R.SYS_DEMAL 31 16 (bits (ofLe ((img.drop 4).take 4)) 31 16)
  let s := wr s R.LCS_BOOT (k.getD 15 * 256 + ofBool (k.isSome && imageSigned img) * 16 + copy)
  setDemal 2 { s with lcs := { s.lcs with demalEntry := ofLe ((img.drop 12).take 4) } }

/-- DEMAL_BOOT_DONE: the first copy that passes runs; where both fail, STATE becomes REJECTED (R435, R20). -/
def execDemalBootDone (copyA copyB : List Byte) (s : State) : Host.Outcome State Fault Refusal :=
  live s (fun s =>
    if demalState s ≠ 1 ∨ !flag s R.GRN_STATUS 0 then s
    else if imageRuns s copyA then demalLoad 0 copyA s
    else if imageRuns s copyB then demalLoad 1 copyB s
    else setDemal 3 s)

/-- Demal stalls: HALTED, with EV_DEMAL_STALL before EV_DEMAL_STATE (R19, R21). DEDUCED: log entry 30. -/
def demalHalt (s : State) : State :=
  setDemal 4 (raise { code := 4, a0 := rd s R.SYS_DEMAL_BEAT } s)

/-- DEMAL_STALL: BEAT has not advanced across 8 consecutive ticks while RUNNING (R19). -/
def execDemalStall (s : State) : Host.Outcome State Fault Refusal :=
  live s (fun s => if demalState s = 2 ∧ 8 ≤ s.tck.beatMissed then demalHalt s else s)

end Sys2Proof.Machine
end

