-- ==== Sys2Proof/Machine/Cellar.lean ====
section
/-!
DEFINITION. Machine/Cellar.lean: the DRAM controller and the Granary (chapter 13): training, tracking, refresh, row
disturbance, self-refresh, and the Granary's initialisation and scrubbing. The regulators of the ports stand in
Machine/Ops.lean.
-/

namespace Sys2Proof.Machine

/-- DATA_RATE in MT/s, ranks and density in Gbit as DMC_CFG describes them (R349). -/
def dataRate (s : State) : Nat := [8533, 7500, 6400, 5500, 4266].getD (fld s R.DMC_CFG 2 0) 8533
def ranksOf (s : State) : Nat := fld s R.DMC_CFG 9 9 + 1
def densityGbit (s : State) : Nat := [8, 12, 16, 24, 32].getD (fld s R.DMC_CFG 12 10) 8

/-- Does DMC_CFG describe devices the DMC supports: two ranks of at most 32 Gbit in total, so at most 8 GiB a channel
(R349). -/
def geometryOk (s : State) : Bool := decide (ranksOf s = 1 ∨ densityGbit s ≤ 16)

/-- The Cellar capacity in MiB: channels × 2 × ranks × density (R349, R350). -/
def capacityMiB (s : State) : Nat := Config.dmcChannels s.part * 2 * ranksOf s * densityGbit s * 128

/-- The planning ceiling in MB/s (R357). -/
def planCeiling (s : State) : Nat := 3 * (Config.dmcChannels s.part * dataRate s * 4) / 4

/-- Segments of Cellar, and their length in bytes (R351, R365). -/
def segments (s : State) : Nat := 8 * ranksOf s
def segmentBytes (s : State) : Nat := cellarBytes s / segments s

/-- Cellar loses its content but for the segments of `len` bytes that `mask` names: every other byte reads as a free
value. DEDUCED: log entry 11. -/
def cellarLose (len mask : Nat) (s : State) : State :=
  { s with
    cellar := s.cellar.filter (fun p => bit mask (p.1 / len))
    losses := (s.draws, len, mask) :: s.losses
    draws := s.draws + 1 }

/-! ## Training (R353, R354) -/

/-- A write to DMC_CFG, accepted while every present channel is UNTRAINED or FAILED. DEDUCED: log entry 64. -/
def dmcCfgWrite (v : Nat) (s : State) : State :=
  if (channels s).all (fun c => decide (chanState s c = 0 ∨ chanState s c = 4)) then
    let d := if bits v 12 10 < 5 then bits v 12 10 else 0
    let r := if bits v 2 0 < 5 then bits v 2 0 else 0
    wr s R.DMC_CFG (d * 2 ^ 10 + bits v 9 9 * 2 ^ 9 + r)
  else s

/-- A channel that is not trained starts training; a self-refreshing channel counts as READY. -/
def trainStart (c : Nat) (s : State) : State :=
  if chanState s c = 0 ∨ chanState s c = 4 then
    setDram c {} (setChanState c 1 s)
  else s

/-- DMC_TRAIN: a write of DMC_CTRL. -/
def dmcCtrlWrite (v : Nat) (s : State) : State :=
  let s := setFlag s R.DMC_STATUS 2 (bit v 1)
  if bit v 0 then (channels s).foldl (fun s c => trainStart c s) (setFlag s R.DMC_STATUS 1 false) else s

def execDmcTrain (v : Word) (s : State) : Host.Outcome State Fault Refusal := live s (dmcCtrlWrite v.toNat)

/-- Every present channel is READY: Cellar is. Its bytes are what the devices' reset left, or, on an exit from KEEP,
what the retained segments held (R354, R365). -/
def dmcReady (s : State) : State :=
  let s := setFld (setFlag s R.DMC_STATUS 0 true) R.DMC_CAPACITY 16 0 (capacityMiB s)
  let s := cellarLose (segmentBytes s) (if s.cell.keepRetained then s.cell.keepMask else 0) s
  let s := { s with cell := { s.cell with keepRetained := false } }
  (channels s).foldl (fun s c => raise { code := 0x98, unit := c, sub := 0 } s) s

/-- An attempt of training ends: three failures fail the channel; a density other than DMC_CFG's fails step 1, and so do
devices the DMC does not support (R349). A channel in self-refresh is trained. DEDUCED: log entry 64. -/
def trainDone (c fail density : Nat) (rfm : Bool) (s : State) : State :=
  let f := if density ≠ fld s R.DMC_CFG 12 10 ∨ !geometryOk s then 1 else fail
  if f ≠ 0 then
    let n := (dramAt s c).attempts + 1
    let s := setDram c { dramAt s c with attempts := n } s
    if n < 3 then s
    else
      raise { code := 0x98, unit := c, sub := 1 } (setFld (setChanState c 4 s) (R.DMC_CH_STATUS c) 15 12 f)
  else
    let s := setFlag (setChanState c 2 s) (R.DMC_CH_STATUS c) 8 rfm
    let s := setDram c { debtAt := s.elapsed, trackAt := s.elapsed, windowAt := s.elapsed, reqAt := s.elapsed } s
    if (channels s).all (fun c => decide (chanState s c = 2 ∨ chanState s c = 3)) then dmcReady s else s

/-- DMC_TRAIN_DONE. -/
def execDmcTrainDone (c : Fin 8) (fail : Fin 9) (density : Fin 8) (rfm : Bool) (s : State) :
    Host.Outcome State Fault Refusal :=
  live s (fun s => if chanState s c.val = 1 then trainDone c.val fail.val density.val rfm s else s)

/-! ## Refresh (R358 to R361) -/

/-- Is a channel at 2×, in catch-up, outside the served temperature range. -/
def chanDoubled (s : State) (c : Nat) : Bool := flag s (R.DMC_CH_STATUS c) 9
def chanCatchup (s : State) (c : Nat) : Bool := flag s (R.DMC_CH_STATUS c) 10
def chanHot (s : State) (c : Nat) : Bool := flag s (R.DMC_CH_STATUS c) 11

/-- The refresh interval, 3,906.25 ns or half of it, and the limit on the debt (R358, R361), in 2⁻³² ns. -/
def refInterval (s : State) (c : Nat) : Nat := if chanDoubled s c then 15625 * 2 ^ 29 else 15625 * 2 ^ 30
def refLimit (s : State) (c : Nat) : Nat :=
  if chanHot s c then 0 else if chanDoubled s c then 4 * refInterval s c else 8 * refInterval s c

/-- Does a debt exceed the limit: with the limit of 0, once a whole refresh is owed. -/
def refOver (s : State) (c d : Nat) : Bool :=
  if chanHot s c then decide (refInterval s c ≤ d) else decide (refLimit s c < d)

/-- The refresh debt at present. Outside catch-up the DMC issues a refresh whenever the debt comes to the limit, so
that only a change of rate leaves a debt above it; a REFab in progress is one such refresh, whose interval is still to
fall. -/
def refDebt (s : State) (c : Nat) : Nat :=
  let x := dramAt s c
  let d := x.debt + (s.elapsed - x.debtAt)
  if chanState s c ≠ 2 then 0
  else if chanCatchup s c || refOver s c x.debt then d
  else
    let m := max (refLimit s c) (refInterval s c - 1) + (if x.refab then refInterval s c else 0)
    d - ceilDiv (d - m) (refInterval s c) * refInterval s c

/-- Fix the debt at present. -/
def setDebt (c d : Nat) (s : State) : State := setDram c { dramAt s c with debt := d, debtAt := s.elapsed } s

/-- A channel whose debt a change of rate has left above the limit enters catch-up; a tracking run that is due waits for
the tick after its end (R355, R358). DEDUCED: log entry 64. -/
def catchupEnter (c : Nat) (s : State) : State :=
  if chanState s c = 2 && !chanCatchup s c && refOver s c (dramAt s c).debt then
    let d := refDebt s c
    let s := setDram c { dramAt s c with debt := d, debtAt := s.elapsed, catchAt := s.elapsed, trackOwed := false } s
    let s := addReg (setFlag s (R.DMC_CH_STATUS c) 10 true) (R.DMC_CH_CATCHUPS c) 1
    raise { code := 0x9A, unit := c, sub := 1, a0 := d / nsUnit } s
  else s

/-- REFRESH_CATCHUP_ENTER. -/
def execRefreshCatchupEnter (c : Fin 8) (s : State) : Host.Outcome State Fault Refusal := live s (catchupEnter c.val)

/-- REFRESH_ISSUE: in catch-up, or with no request waiting, at once; else when the debt reaches the limit (R358). -/
def execRefreshIssue (c : Fin 8) (idle : Bool) (s : State) : Host.Outcome State Fault Refusal :=
  live s (fun s =>
    let c := c.val
    if chanState s c = 2 && !(dramAt s c).refab then
      let s := if idle || chanCatchup s c then s else waitElapsed (s.elapsed + (refLimit s c - refDebt s c)) s
      setDram c { dramAt s c with debt := refDebt s c, debtAt := s.elapsed, refab := true } s
    else s)

/-- The refresh of the rows beside a disturbing row: r − 2, r − 1, r + 1 and r + 2 of its bank, and an RFMpb where the
devices require refresh management (R362). -/
def neighbourRefresh (rfm : Bool) (x : DmcSt) (q : Nat × Nat × Nat) : DmcSt :=
  let rows := ([q.2.2 - 2, q.2.2 - 1, q.2.2 + 1, q.2.2 + 2].filter (fun r => decide (r ≠ q.2.2 ∧ r < 262144))).eraseDups
  { x with nearRows := rows.map (fun r => (q.1, q.2.1, r)), rfmpbs := x.rfmpbs + ofBool rfm }

/-- The end of a catch-up (R358); neighbour refreshes held back follow, in class 3 (R363). -/
def catchupLeave (c d : Nat) (s : State) : State :=
  let x := dramAt s c
  let took := (s.elapsed - x.catchAt) / nsUnit
  let x := x.neighbours.foldl (neighbourRefresh (flag s (R.DMC_CH_STATUS c) 8)) x
  let s := wr (setFlag s (R.DMC_CH_STATUS c) 10 false) (R.DMC_CH_CATCHUP_MAX c) (max took (rd s (R.DMC_CH_CATCHUP_MAX c)))
  raise { code := 0x9A, unit := c, sub := 0, a0 := d / nsUnit } (setDram c { x with neighbours := [] } s)

/-- REFAB_COMPLETE: the debt falls by the interval; a catch-up ends at the first comparison within the limit. -/
def execRefabComplete (c : Fin 8) (s : State) : Host.Outcome State Fault Refusal :=
  live s (fun s =>
    let c := c.val
    if chanState s c = 2 && (dramAt s c).refab then
      let d := refDebt s c - refInterval s c
      let s := setDram c { dramAt s c with debt := d, debtAt := s.elapsed, refab := false } s
      if chanCatchup s c && !refOver s c d then catchupLeave c d s else s
    else s)

/-- The interval a mode register 4 value reports (JESD209-5, PRESUMED): shorter than 1× from code 10 on, shorter than
0.5× or the high-temperature flag from code 12 on. PRESUMED: log entry 26. -/
def mr4Short (v : Nat) : Bool := decide (10 ≤ bits v 4 0)
def mr4Hot (v : Nat) : Bool := decide (12 ≤ bits v 4 0)

/-- Mode register 4 is read (R359, R361): the rate changes at once, and a debt above the new limit starts a
catch-up. PRESUMED: log entry 26. DEDUCED: log entry 64. -/
def mr4Read (c v : Nat) (s : State) : State :=
  let was := chanDoubled s c
  let hotWas := chanHot s c
  if was = mr4Short v ∧ hotWas = mr4Hot v then s
  else
    let s := setDebt c (refDebt s c) s
    let s := setFlag (setFlag s (R.DMC_CH_STATUS c) 9 (mr4Short v)) (R.DMC_CH_STATUS c) 11 (mr4Hot v)
    let s := if was != mr4Short v || (mr4Hot v && !hotWas) then
        raise { code := 0x99, unit := c, sub := ofBool (mr4Short v), a0 := v } s else s
    catchupEnter c s

/-- A seal reads mode register 4 of every READY channel: the values the seal meets, and of a channel without one the value
of the last seal (R359). -/
def mr4Seal (obs : List (Fin 8 × Byte)) (s : State) : State :=
  (channels s).foldl (fun s c =>
    if chanState s c ≠ 2 then s
    else
      let v := match obs.find? (fun p => decide (p.1.val = c)) with
        | some p => p.2.toNat
        | none => rd s (R.DMC_CH_MR4 c)
      mr4Read c v (wr s (R.DMC_CH_MR4 c) v)) s

/-! ## Tracking (R355) -/

/-- A tracking run: its result lies inside or outside the range that training measured. -/
def trackRun (c : Nat) (good : Bool) (s : State) : State :=
  let s := addReg s (R.DMC_CH_TRACKS c) 1
  let x : DmcSt := { dramAt s c with trackAt := s.elapsed, trackOwed := false }
  if good then setDram c { x with failRow := 0 } s
  else
    let s := addReg (setDram c { x with failRow := x.failRow + 1 } s) (R.DMC_CH_TRACK_FAILS c) 1
    let s := if 1 ≤ x.failRow then setFlag s R.DMC_STATUS 1 true else s
    raise { code := 0x98, unit := c, sub := 1 } s

/-- A seal finds which channels are due a tracking run: READY, outside catch-up, TRACK_MS after the last (R355). -/
def trackSeal (s : State) : State :=
  (channels s).foldl (fun s c =>
    let x := dramAt s c
    if chanState s c = 2 && !chanCatchup s c && decide (x.trackAt + trackSpan s ≤ s.elapsed) then
      setDram c { x with trackOwed := true } s else s) s

/-- Is a tracking run of a channel due since a seal (R355). -/
def trackDue (s : State) (c : Nat) : Bool :=
  decide (chanState s c = 2) && !chanCatchup s c && (dramAt s c).trackOwed

/-- DMC_TRACK_RUN: of the channels that a seal has found due, one a tick, in index order. The mark (0x100, 0) records that
this tick had its run. DEDUCED: log entry 64. -/
def execDmcTrackRun (c : Fin 8) (good : Bool) (s : State) : Host.Outcome State Fault Refusal :=
  live s (fun s =>
    if trackDue s c.val && !(List.range c.val).any (trackDue s) && !s.tck.once.contains (0x100, 0) then
      trackRun c.val good (markOnce 0x100 0 s)
    else s)

/-! ## Row disturbance (R362, R363) -/

/-- One millisecond in the unit of the clock. -/
def msUnit : Nat := 1000000 * nsUnit

/-- A port's refill rate is halved for 1 ms, or the 1 ms restarts. DEDUCED: log entry 64. -/
def portThrottle (p : Nat) (s : State) : State :=
  setPort p { portFilled s p with throttledUntil := some (s.elapsed + msUnit) } s

/-- A row's activation count has reached RD_THRESH: its entry is reset, and the rows beside it are refreshed, after a
catch-up in progress (R362, R363). -/
def rowDisturb (c rank bank row port : Nat) (s : State) : State :=
  let s := wr (addReg s (R.DMC_CH_RD_EVENTS c) 1) (R.DMC_CH_RD_LAST c) (rank * 2 ^ 31 + bank * 2 ^ 27 + row)
  let s := raiseOnce c { code := 0x9B, unit := c, a0 := bank, a1 := port } s
  let x := dramAt s c
  let s := setDram c (if chanCatchup s c then { x with neighbours := x.neighbours ++ [(rank, bank, row)] }
    else neighbourRefresh (flag s (R.DMC_CH_STATUS c) 8) x (rank, bank, row)) s
  if 6 ≤ port then portThrottle port s else s

/-- A row's key in the activation counts of its channel. -/
def rowKey (rank bank row : Nat) : Nat := (rank * 16 + bank) * 262144 + row

/-- A row is activated: its count in the present window rises, and acts at RD_THRESH (R362). -/
def rowActivate (c rank bank row port acts : Nat) (s : State) : State :=
  let x := dramAt s c
  let n := smGet (fun _ => 0) x.rowCounts (rowKey rank bank row) + acts
  let count (n : Nat) (s : State) : State :=
    setDram c { x with rowCounts := smSet (fun _ => 0) x.rowCounts (rowKey rank bank row) n } s
  if fld s R.DMC_RD 15 0 ≤ n then rowDisturb c rank bank row port (count 0 s) else count n s

/-- ROW_DISTURB_DETECT: the activations that a row of a present rank has had since its count was last seen, the last of
them for a port's request. DEDUCED: log entry 64. -/
def execRowDisturbDetect (c : Fin 8) (rank : Fin 2) (bank : Fin 16) (row : Fin 262144) (o : RowActs) (s : State) :
    Host.Outcome State Fault Refusal :=
  live s (fun s =>
    if chanState s c.val = 2 ∧ rank.val < ranksOf s then rowActivate c.val rank.val bank.val row.val o.port.val o.acts s else s)

/-- ROW_DISTURB_THROTTLE_END: the 1 ms ends; the port refills at its full rate again. -/
def execRowDisturbThrottleEnd (port : Fin 24) (s : State) : Host.Outcome State Fault Refusal :=
  live s (fun s =>
    match (portAt s port.val).throttledUntil with
    | some u => let s := waitElapsed u s
                setPort port.val { portFilled s port.val with throttledUntil := none } s
    | none => s)

/-- RD_WINDOW_RESET: a refresh window of 32 ms, 16 ms at 2×, ends and the next starts with every count at 0. -/
def execRdWindowReset (c : Fin 8) (s : State) : Host.Outcome State Fault Refusal :=
  live s (fun s =>
    if chanState s c.val = 2 then
      let len := if chanDoubled s c.val then 16 * msUnit else 32 * msUnit
      let s := waitElapsed ((dramAt s c.val).windowAt + len) s
      setDram c.val { dramAt s c.val with windowAt := s.elapsed, rowCounts := [] } s
    else s)

/-! ## Self-refresh (R364) -/

/-- SELF_REFRESH_IDLE_ENTRY: the time comes at which no request has reached the channel for SR_IDLE_US. -/
def execSelfRefreshIdleEntry (c : Fin 8) (s : State) : Host.Outcome State Fault Refusal :=
  live s (fun s =>
    let c := c.val
    if chanState s c = 2 && !chanCatchup s c && flag s R.DMC_STATUS 2 then
      let s := waitElapsed ((dramAt s c).reqAt + fld s R.DMC_SR 15 0 * 1000 * nsUnit) s
      let s := setDram c { dramAt s c with debt := refDebt s c, debtAt := s.elapsed, srAt := s.elapsed, trackOwed := false } s
      addReg (setChanState c 3 s) (R.DMC_CH_SR_ENTRIES c) 1
    else s)

/-- A request reaches the channel: before E4 the entry is abandoned, with the debt left by as many refreshes as had
been made; at or after E4 self-refresh ends with no debt, a tracking run where one is due, and mode register 4 read
before the first refresh decision. DEDUCED: log entry 64. -/
def selfRefreshExit (c : Nat) (beforeE4 : Bool) (mr4 : Nat) (good : Bool) (s : State) : State :=
  let x := dramAt s c
  let s := setDram c { x with reqAt := s.elapsed } (setChanState c 2 s)
  if beforeE4 then
    let d := Config.freeNat s.draws % (x.debt + 1)
    addReg (setDebt c d { s with draws := s.draws + 1 }) (R.DMC_CH_SR_ABORTS c) 1
  else
    let s := setDebt c 0 s
    let s := if x.srAt + trackSpan s < s.elapsed then trackRun c good s else s
    mr4Read c mr4 s

/-- SELF_REFRESH_EXIT. -/
def execSelfRefreshExit (c : Fin 8) (beforeE4 : Bool) (mr4 : Byte) (good : Bool) (s : State) :
    Host.Outcome State Fault Refusal :=
  live s (fun s => if chanState s c.val = 3 then selfRefreshExit c.val beforeE4 mr4.toNat good s else s)

/-! ## The Granary (R367 to R369) -/

/-- GRANARY_INIT_DONE: every word has been written as zero with valid check bits, which the reset itself has done in the
model, before any requester can reach it; the boot of Demal starts (R21, R368, R435). DEDUCED: log entries 30, 65. -/
def execGranaryInitDone (s : State) : Host.Outcome State Fault Refusal :=
  live s (fun s =>
    if flag s R.GRN_STATUS 0 then s
    else
      let s := setFlag { s with cell := { s.cell with scrubAt := 0, scrubFrom := s.elapsed } } R.GRN_STATUS 0 true
      if demalState s = 0 then setDemal 1 s else s)

/-- Words of the Granary. -/
def granaryWords : Nat := 4718592

/-- SCRUB_S in the unit of the clock. -/
def scrubSpan (s : State) : Nat := fld s R.GRN_SCRUB 16 0 * secUnit

/-- GRANARY_SCRUB: the scrubber reads the next word, at its moment in a pass of SCRUB_S seconds (R369). -/
def execGranaryScrub (ecc : Ecc) (s : State) : Host.Outcome State Fault Refusal :=
  live s (fun s =>
    if !flag s R.GRN_STATUS 0 then s
    else
      let w := s.cell.scrubAt
      let a := w * 8
      let s := waitElapsed (s.cell.scrubFrom + scrubSpan s * w / granaryWords) s
      let s := if granaryBad s a 8 then granaryUncorrectable a s
        else match ecc with
          | .clean => s
          | .corrected => granaryCorrected a s
          | .uncorrected => granaryUncorrectable a s
      if w + 1 = granaryWords then
        addReg { s with cell := { s.cell with scrubAt := 0, scrubFrom := s.cell.scrubFrom + scrubSpan s } } R.GRN_SCRUB_PASSES 1
      else { s with cell := { s.cell with scrubAt := w + 1 } })

end Sys2Proof.Machine
end

