-- ==== Sys2Proof/Machine/Calib.lean ====
section
/-!
DEFINITION. Machine/Calib.lean: the record of calibrations and the run of items (R454 to R460). The rotation of a
lane over the spare slice stands in Machine/Lanes.lean.
-/

namespace Sys2Proof.Machine

/-- Kind of a TRM item (R454); none where no item exists. -/
def calKind (i : Nat) : Option Nat :=
  if i < 32 then some 0 else if i < 36 then some 1 else if i = 36 then some 2
  else if 40 ≤ i ∧ i < 48 then some 3 else if 48 ≤ i ∧ i < 56 then some 4
  else if 64 ≤ i ∧ i < 73 then some 5 else none

/-- Is an item present: items of absent lanes and quads are absent (R454). -/
def calPresent (p : Part) (i : Nat) : Bool :=
  match calKind i with
  | some 0 => unitPresent p .lane i
  | some 1 => unitPresent p .quad (i - 32)
  | some _ => true
  | none => false

/-- Group of an item, one calibration of which runs at a time: quad q, 4 the sensors, 5 the touch slices (R457). -/
def calGroup (i : Nat) : Nat := if i < 32 then i / 8 else if i < 36 then i - 32 else if i < 56 then 4 else 5

/-- The calibration in progress in a group. -/
def calIn (s : State) (g : Nat) : Option Cal := s.pwr.cals.find? (fun c => calGroup c.item = g)

/-- The calibration of an item in progress. -/
def calOf (s : State) (i : Nat) : Option Cal := s.pwr.cals.find? (fun c => c.item = i)

/-- STATE of a lane (R183): 0 is OFF. -/
def laneOff (s : State) (n : Nat) : Bool := decide (fld s (R.LANE_STATUS n) 2 0 = 0)

/-- QUAD_q_SPARE shows the lane whose rotation is under way (R214). -/
def spareShow (s : State) : State :=
  (List.range (Config.quads s.part)).foldl (fun s q =>
    match s.pwr.cals.find? (fun c => decide (c.item < 32 ∧ c.item / 8 = q) && !laneOff s c.item) with
    | some c => setFlag (setFld s (R.QUAD_SPARE q) 2 0 (c.item % 8)) (R.QUAD_SPARE q) 3 true
    | none => setFlag s (R.QUAD_SPARE q) 3 false) s

/-- Replace the calibrations in progress; TRM_STATUS.BUSY shows whether there are any. -/
def setCals (cs : List Cal) (s : State) : State :=
  spareShow (setFlag { s with pwr := { s.pwr with cals := cs } } R.TRM_STATUS 15 (!cs.isEmpty))

/-- Replace the calibration of an item. -/
def updCal (i : Nat) (f : Cal → Cal) (s : State) : State :=
  setCals (s.pwr.cals.map (fun c => if c.item = i then f c else c)) s

/-- A failed item: cause and count recorded, EV_TRIM_FAIL but under KEEP or SYSRST_n (R457). -/
def calNoteFail (i cause : Nat) (quiet : Bool) (s : State) : State :=
  let s := setFld (addFld s (R.TRM_INFO i) 31 16 1) (R.TRM_INFO i) 11 8 cause
  let s := setFld s R.TRM_STATUS 3 0 cause
  if quiet then s else raise { code := 0xB5, unit := i, sub := (calKind i).getD 0 } s

/-- A successful item: COUNT, TIME and EV_TRIM_DONE (R459); `t` is the time at which the correction took effect. -/
def calNoteDone (i t : Nat) (s : State) : State :=
  let s := wideSet (R.TRM_TIME_LO i) (timeArg t % 2 ^ 64) (addReg s (R.TRM_COUNT i) 1)
  let s := if 40 ≤ i ∧ i < 48 then
      { s with pwr := { s.pwr with calibrated := (i - 40) :: s.pwr.calibrated.filter (fun k => decide (k ≠ i - 40)) } }
    else s
  raise { code := 0xB4, unit := i, sub := (calKind i).getD 0, a0 := rd s (R.TRM_COUNT i) } s

/-- A TRIM_RUN command counts the outcome of an item; it completes with its last item (R460). Its `aux` holds the
item it names, the items calibrated and the items failed. DEDUCED: log entry 28. -/
def calTell (tag : Option Nat) (i : Nat) (cause : Option Nat) (s : State) : State :=
  match tag with
  | none => s
  | some t =>
    match findCmd s t with
    | none => s
    | some c =>
      let item := c.aux.getD 0 0
      let ok := c.aux.getD 1 0 + ofBool cause.isNone
      let bad := c.aux.getD 2 0 + ofBool cause.isSome
      let s := updCmd t (fun c => { c with aux := [item, ok, bad] }) s
      if item = 0x7F then
        if s.pwr.cals.any (fun k => decide (k.tag = some t)) then s else finish t stSuccess ok bad 0 s
      else if i ≠ item then s
      else match cause with
        | none => finish t stSuccess (rd s (R.TRM_COUNT i)) 0 0 s
        | some e => finish t stJobFailed e 0 0 s

/-- The item of a run has ended: the next of its group starts, or the run is over. DEDUCED: log entry 28. -/
def calAdvance (i : Nat) (s : State) : State :=
  match calOf s i with
  | none => s
  | some c =>
    match c.next with
    | [] => setCals (s.pwr.cals.filter (fun k => decide (k.item ≠ i))) s
    | j :: rest =>
      setFld (updCal i (fun c => { item := j, next := rest, tag := c.tag, since := s.elapsed }) s) R.TRM_STATUS 14 8 j

/-- An item in progress succeeds. DEDUCED: log entry 28. -/
def calSucceed (i t : Nat) (s : State) : State :=
  match calOf s i with
  | none => s
  | some c => calTell c.tag i none (calAdvance i (calNoteDone i t s))

/-- The settings of an item, and new ones in their place, those from before kept until its calibration ends (R457). -/
def trimOf (s : State) (i : Nat) : Nat := smGet (fun _ => 0) s.pwr.trims i
def setTrim (i v : Nat) (s : State) : State :=
  { s with pwr := { s.pwr with trims := smSet (fun _ => 0) s.pwr.trims i v } }
def trimTake (i : Nat) (s : State) : State :=
  let old := trimOf s i
  updCal i (fun c => { c with before := some old }) (setTrim i (s.draws + 1) { s with draws := s.draws + 1 })

/-- A calibration that fails leaves its item the settings from before (R215, R457). -/
def trimRestore (i : Nat) (s : State) : State :=
  match (calOf s i).bind Cal.before with
  | some v => setTrim i v s
  | none => s

/-- An item in progress fails. -/
def calFail (i cause : Nat) (quiet : Bool) (s : State) : State :=
  match calOf s i with
  | none => s
  | some c => calTell c.tag i (some cause) (calAdvance i (calNoteFail i cause quiet (trimRestore i s)))

/-- Items of a run of the sensor group: the ADC first (R456). -/
def calItems (i : Nat) : List Nat := if 40 ≤ i ∧ i < 56 then [36, i] else [i]

/-- A group's run starts; a group that is busy fails the first item with cause BUSY (R457). -/
def calStartRun (tag : Option Nat) (items : List Nat) (s : State) : State :=
  match items with
  | [] => s
  | i :: rest =>
    if (calIn s (calGroup i)).isSome then
      items.foldl (fun s k => calTell tag k (some 6) (calNoteFail k 6 false s)) s
    else setFld (setCals (s.pwr.cals ++ [{ item := i, next := rest, tag := tag, since := s.elapsed }]) s) R.TRM_STATUS 14 8 i

/-- When an item's last success is TRM_INTERVAL old, in ns. -/
def calDueAt (s : State) (i : Nat) : Nat := wideGet s (R.TRM_TIME_LO i) + rd s R.TRM_INTERVAL * 1000000000

/-- Is an item's last success no younger than TRM_INTERVAL, or has it none (R460). -/
def calDue (s : State) (i : Nat) : Bool := decide (rd s (R.TRM_COUNT i) = 0) || decide (calDueAt s i ≤ timeArg s.clock)

/-- Is an item's last success older than TRM_INTERVAL, or has it none (R458). -/
def calOlder (s : State) (i : Nat) : Bool := decide (rd s (R.TRM_COUNT i) = 0) || decide (calDueAt s i < timeArg s.clock)

/-- The present items of a group in the order of R454. -/
def groupItems (p : Part) (g : Nat) : List Nat :=
  (List.range 73).filter (fun i => (calKind i).isSome && decide (calGroup i = g) && calPresent p i)

/-- The items of a group that a TRIM_RUN over every item takes; the ADC comes first where any sensor is taken (R456, R460).
DEDUCED: log entry 28. -/
def trimItems (s : State) (onlyDue : Bool) (g : Nat) : List Nat :=
  let due := (groupItems s.part g).filter (fun i => !onlyDue || calDue s i)
  if g = 4 ∧ due ≠ [] ∧ !due.contains 36 then 36 :: due else due

/-- TRIM_RUN over every present item (R460). DEDUCED: log entry 28. -/
def trimAll (tag : Nat) (onlyDue : Bool) (s : State) : State :=
  let runs := (List.range 6).map (trimItems s onlyDue)
  let s := runs.foldl (fun s r => calStartRun (some tag) r s) (waitCmd tag [0x7F, 0, 0] s)
  match findCmd s tag with
  | some c =>
    if c.phase = .waiting && !s.pwr.cals.any (fun k => decide (k.tag = some tag)) then
      finish tag stSuccess (c.aux.getD 1 0) (c.aux.getD 2 0) 0 s
    else s
  | none => s

/-- TRIM_RUN, served by Demal (R181, R460). An item that ONLY_DUE skips completes with SUCCESS and its COUNT.
DEDUCED: log entry 28. -/
def trimRun (c : Cmd) (s : State) : State :=
  let i := bits (c.w 2) 6 0
  let due := bit (c.w 3) 0
  if demalState s ≠ 2 then finish c.tag stNoFirmware (demalState s) 0 0 s
  else if i = 0x7F then trimAll c.tag due s
  else if due && !calDue s i then finish c.tag stSuccess (rd s (R.TRM_COUNT i)) 0 0 s
  else calStartRun (some c.tag) (calItems i) (waitCmd c.tag [i, 0, 0] s)

def execTrimRun (tag : Fin 4096) (s : State) : Host.Outcome State Fault Refusal :=
  live s (fun s => onCmd tag.val 0x58 s trimRun)

/-- TRIM_CMD: a write to TRM_CMD starts one item while Demal is not RUNNING (R460). -/
def trmCmdWrite (v : Nat) (s : State) : State :=
  let i := bits v 6 0
  if demalState s = 2 then setFlag s R.TRM_STATUS 7 true
  else if bit v 31 && calPresent s.part i then calStartRun none (calItems i) s
  else s

def execTrimCmd (v : Word) (s : State) : Host.Outcome State Fault Refusal := live s (trmCmdWrite v.toNat)

/-- The oldest-calibrated due item of a list. DEDUCED: log entry 28. -/
def calOldest (s : State) (items : List Nat) : Option Nat :=
  let age (i : Nat) : Nat := if rd s (R.TRM_COUNT i) = 0 then 0 else wideGet s (R.TRM_TIME_LO i) + 1
  (items.filter (calOlder s)).foldl (fun b i =>
    match b with
    | none => some i
    | some j => if age i < age j then some i else some j) none

/-- The schedule of trigger 11, while AUTO is 1 and Demal is RUNNING (R458). -/
def calSchedule (s : State) : State :=
  if flag s R.TRM_CTRL 0 && decide (demalState s = 2) then
    let s := (List.range (Config.quads s.part)).foldl (fun s q =>
      if (calIn s q).isSome then s
      else match calOldest s ((groupItems s.part q).filter (fun i => decide (32 ≤ i) || !laneOff s i)) with
        | some i => calStartRun none [i] s
        | none => s) s
    let s := if calOlder s 36 && (calIn s 4).isNone then calStartRun none (groupItems s.part 4) s else s
    if (calIn s 5).isSome then s
    else match calOldest s (groupItems s.part 5) with
      | some i => calStartRun none [i] s
      | none => s
  else s

/-- REFV lies outside 1.2500 V ±0.6 %: item 36 and every sensor item of the run fail (R456). -/
def calRefvFail (uv : Nat) (s : State) : State :=
  match calOf s 36 with
  | none => s
  | some c =>
    let s := raise { code := 0xB6, a0 := uv } s
    (36 :: c.next).foldl (fun s i => calFail i 3 false s) s

/-- The measurement of an item ends. Sensor corrections take effect at the next tick to fire, or at once while the
tick does not run; a lane's at the switch back, at once for an OFF lane (R454). -/
def calMeasured (i : Nat) (o : CalObs) (s : State) : State :=
  let s := if i = 36 then wr s R.TRM_REFV o.refUv else s
  if i = 36 ∧ (o.refUv < 1242500 ∨ 1257500 < o.refUv) then calRefvFail o.refUv s
  else if !o.inRange then calFail i 4 false s
  else
    let s := trimTake i s
    if 36 ≤ i ∧ i < 56 ∧ flag s R.TCK_CTRL 0 then updCal i (fun c => { c with phase := 3 }) s
    else if i < 32 ∧ !laneOff s i then updCal i (fun c => { c with phase := 2, same := 0, matchAt := none }) s
    else calSucceed i s.clock s

/-- May the last step of an item end now: a lane that carries blocks is measured while the spare carries it; while touch
scans run, a touch slice is measured in the gaps between scans while the spare covers it, and the spare while it covers
none (R455). DEDUCED: log entry 28. -/
def calReady (s : State) (c : Cal) : Bool :=
  if c.item < 32 ∧ !laneOff s c.item then decide (c.phase = 1)
  else if 64 ≤ c.item ∧ flag s R.TCH_CTRL 0 then
    decide (c.phase = 0) && s.tch.scan.isNone && decide (s.tch.cover = if c.item = 72 then none else some (c.item - 64))
  else decide (c.phase = 0)

/-- CALIBRATION_COMPLETE. -/
def execCalibrationComplete (item : Fin 73) (o : CalObs) (s : State) : Host.Outcome State Fault Refusal :=
  live s (fun s =>
    match calOf s item.val with
    | none => s
    | some c => if calReady s c then calMeasured item.val o s else s)

/-- Corrections that waited for the tick take effect with it (R454). -/
def calTick (t : Nat) (s : State) : State :=
  (s.pwr.cals.filter (fun c => c.phase = 3)).foldl (fun s c => calSucceed c.item t s) s

/-- Every calibration in progress is aborted and its settings restored (R442, R457). -/
def calAbortAll (s : State) : State :=
  setCals [] (s.pwr.cals.foldl (fun s c => calNoteFail c.item 5 true (trimRestore c.item s)) s)

/-- A calibration in progress is aborted, because its unit is disabled (R457). -/
def calAbort (i : Nat) (s : State) : State := calFail i 5 false s

/-- TRM_TIME_READ: a read of an item's _TIME_LO latches _TIME_HI. -/
def execTrmTimeRead (item : Fin 73) (s : State) : Host.Outcome State Fault Refusal :=
  liveAon s (wideLatch (R.TRM_TIME_LO item.val) (R.TRM_TIME_HI item.val))

end Sys2Proof.Machine
end

