-- ==== Sys2Proof/Machine/Net.lean ====
section
/-!
DEFINITION. Machine/Net.lean: the frames the Vestibule reads: Ethernet, IPv4, IPv6, UDP and RTP headers, as the standards
that spec/08_ingest.md names lay them out (R184, R217 to R224), and the one-step rewriting of R109.
-/

namespace Sys2Proof.Machine

/-- Big-endian value of n bytes at an offset. -/
def beAt (bs : List Byte) (o n : Nat) : Nat := ofBe ((bs.drop o).take n)

/-- The frame check sequence of IEEE 802.3: CRC-32, least significant byte first. PRESUMED: log entry 60. -/
def ethFcs (bs : List Byte) : List Byte := leBytes 4 (crcRun 0xEDB88320 0xFFFFFFFF bs ^^^ 0xFFFFFFFF)

/-- Is the FCS of a frame good. -/
def fcsGood (f : List Byte) : Bool := decide (f.drop (f.length - 4) = ethFcs (f.take (f.length - 4)))

/-- An Ethernet frame without FCS: VLAN ID, Ethertype, payload. One 802.1Q tag is parsed (R184); a frame with more
keeps the tag's Ethertype. -/
structure EthFrame where
  vlan : Option Nat
  ethType : Nat
  offset : Nat
  body : List Byte
deriving DecidableEq, Repr

def parseEth (f : List Byte) : EthFrame :=
  let t := beAt f 12 2
  let inner := beAt f 16 2
  if t = 0x8100 ∧ inner ≠ 0x8100 ∧ inner ≠ 0x88A8 then
    { vlan := some (beAt f 14 2 % 4096), ethType := inner, offset := 18, body := f.drop 18 }
  else { vlan := none, ethType := t, offset := 14, body := f.drop 14 }

/-- A UDP datagram: IP version, addresses as four big-endian words, ports, payload; the offset of the UDP header in
the frame; whether the IPv4 header checksum and the UDP length and checksum are right. -/
structure UdpPkt where
  v6 : Bool
  src : List Nat
  dst : List Nat
  sport : Nat
  dport : Nat
  offset : Nat
  payload : List Byte
  ipOk : Bool
  udpOk : Bool
deriving DecidableEq, Repr

/-- One's complement sum of 16-bit big-endian words. -/
def sum16 : List Byte → Nat
  | [] => 0
  | [a] => a.toNat * 256
  | a :: b :: bs => a.toNat * 256 + b.toNat + sum16 bs

/-- The sum folded into 16 bits. -/
def fold16 (n : Nat) : Nat :=
  let a := n % 65536 + n / 65536
  let b := a % 65536 + a / 65536
  b % 65536 + b / 65536

/-- Four words of an address, an IPv4 address in the first. -/
def addrWords (v6 : Bool) (bs : List Byte) (o : Nat) : List Nat :=
  if v6 then [beAt bs o 4, beAt bs (o + 4) 4, beAt bs (o + 8) 4, beAt bs (o + 12) 4] else [beAt bs o 4, 0, 0, 0]

/-- The checksum sum over pseudo-header and datagram; 0xFFFF when right. -/
def udpSum (addrs : List Byte) (u : List Byte) : Nat := fold16 (sum16 addrs + 17 + u.length + sum16 u)

/-- A UDP datagram from its IP header's parts. -/
def udpFrom (v6 ipOk : Bool) (hdr : List Byte) (addrAt addrLen offset : Nat) (u : List Byte) : Option UdpPkt :=
  if u.length < 8 then none
  else
    let len := beAt u 4 2
    let sum := beAt u 6 2
    let good := decide (8 ≤ len ∧ len ≤ u.length) &&
      (if sum = 0 then !v6 else decide (udpSum ((hdr.drop addrAt).take (2 * addrLen)) (u.take len) = 0xFFFF))
    some { v6 := v6, src := addrWords v6 hdr addrAt, dst := addrWords v6 hdr (addrAt + addrLen), sport := beAt u 0 2,
           dport := beAt u 2 2, offset := offset, payload := (u.take len).drop 8, ipOk := ipOk, udpOk := good }

/-- The upper-layer header of an IPv6 packet behind hop-by-hop, routing and destination options: its protocol and
offset; a Fragment header stops the search. PRESUMED: log entry 60. -/
def ipv6Upper (p : List Byte) : Nat → Nat → Nat → Nat × Nat
  | 0, proto, o => (proto, o)
  | n + 1, proto, o =>
    if proto = 0 ∨ proto = 43 ∨ proto = 60 then ipv6Upper p n (beAt p o 1) (o + 8 + 8 * beAt p (o + 1) 1)
    else (proto, o)

/-- The UDP datagram of a frame, when it is IPv4 or IPv6 UDP and not fragmented (R218). PRESUMED: log entry 60. -/
def parseUdp (e : EthFrame) : Option UdpPkt :=
  let p := e.body
  if e.ethType = 0x0800 ∧ beAt p 0 1 / 16 = 4 then
    let ihl := beAt p 0 1 % 16 * 4
    let total := beAt p 2 2
    if ihl < 20 ∨ beAt p 9 1 ≠ 17 ∨ beAt p 6 2 % 0x4000 ≠ 0 then none
    else udpFrom false (decide (fold16 (sum16 (p.take ihl)) = 0xFFFF)) (p.take ihl) 12 4 (e.offset + ihl)
      ((p.take total).drop ihl)
  else if e.ethType = 0x86DD ∧ beAt p 0 1 / 16 = 6 then
    let (proto, o) := ipv6Upper p 8 (beAt p 6 1) 40
    if proto ≠ 17 then none
    else udpFrom true true (p.take 40) 8 16 (e.offset + o) ((p.take (40 + beAt p 4 2)).drop o)
  else none

/-- An RTP packet: marker, payload type, sequence number, timestamp, SSRC, payload without padding. -/
structure RtpPkt where
  marker : Bool
  pt : Nat
  seq : Nat
  ts : Nat
  ssrc : Nat
  payload : List Byte
deriving DecidableEq, Repr

/-- An RTP packet, none when R224 calls it malformed for its version, length or padding. -/
def parseRtp (b : List Byte) : Option RtpPkt :=
  let b0 := beAt b 0 1
  let base := 12 + 4 * (b0 % 16)
  let hdr := if bit b0 4 then base + 4 + 4 * beAt b (base + 2) 2 else base
  if b0 / 64 ≠ 2 ∨ b.length < 12 ∨ b.length < hdr + 1 then none
  else
    let body := b.drop hdr
    let pad := if bit b0 5 then beAt body (body.length - 1) 1 else 0
    if body.length < pad then none
    else some { marker := bit (beAt b 1 1) 7, pt := beAt b 1 1 % 128, seq := beAt b 2 2, ts := beAt b 4 4,
                ssrc := beAt b 8 4, payload := body.take (body.length - pad) }

/-- Payload types of the supported formats (R232): packet type of H.264 (codec 0) and H.265. -/
def nalType (codec : Nat) (p : List Byte) : Nat := if codec = 0 then beAt p 0 1 % 32 else beAt p 0 1 / 2 % 64

/-- Is the packet type of a payload supported (R232). -/
def payloadSupported (codec : Nat) (p : List Byte) : Bool :=
  let t := nalType codec p
  decide (p ≠ []) && (if codec = 0 then decide ((1 ≤ t ∧ t ≤ 24) ∨ t = 28) else decide (t ≤ 49))

/-- Is a payload a fragmentation unit, and does it carry the start bit (R232). -/
def isFragment (codec : Nat) (p : List Byte) : Bool := decide (nalType codec p = if codec = 0 then 28 else 49)
def fragmentStarts (codec : Nat) (p : List Byte) : Bool := bit (beAt p (if codec = 0 then 1 else 2) 1) 7

/-- Replace bytes of a frame from an offset on. -/
def patch (f : List Byte) (o : Nat) (bs : List Byte) : List Byte := f.take o ++ bs ++ f.drop (o + bs.length)

/-- Add a count of 2⁻¹⁶ ns to the correctionField of the PTP header at an offset (R109). -/
def addCorrection (f : List Byte) (o : Nat) (d : Int) : List Byte :=
  patch f (o + 8) (beBytes 8 (uint 64 (sint 64 (beAt f (o + 8) 8) + d)))

/-- The checksum of the frame's UDP datagram, computed afresh (R109). -/
def fixUdpSum (f : List Byte) : List Byte :=
  let e := parseEth f
  match parseUdp e with
  | none => f
  | some u =>
    let g := patch f (u.offset + 6) [0, 0]
    let len := beAt g (u.offset + 4) 2
    let dgram := (g.drop u.offset).take len
    let addrs := if u.v6 then (e.body.drop 8).take 32 else (e.body.drop 12).take 8
    let c := udpSum addrs dgram ^^^ 0xFFFF
    patch g (u.offset + 6) (beBytes 2 (if c = 0 then 0xFFFF else c))

/-- The outgoing one-step message (R109): transmit time `tx` and, for a Pdelay_Resp, receive time `rx`, in 2⁻³² ns
since the epoch; what is added to correctionField is rounded down to 2⁻¹⁶ ns. DESIGN CHOICE: log entry 88. -/
def oneStep (f : List Byte) (o sec ns frac : Nat) (tx rx : Nat) : List Byte :=
  let kind := beAt f o 1 % 16
  let g := if kind = 0 then
      addCorrection (patch f (o + 34) (beBytes 6 sec ++ beBytes 4 ns)) o ((frac / 2 ^ 16 : Nat) : Int)
    else if kind = 3 then addCorrection f o (((tx : Int) - (rx : Int)) / 65536)
    else f
  fixUdpSum g

end Sys2Proof.Machine
end

