-- ==== Sys2Proof/Machine/Power.lean ====
section
/-!
DEFINITION. Machine/Power.lean: power states, rails, temperature and core voltage (R439 to R453). The resets stand
in Machine/Reset.lean.
-/

namespace Sys2Proof.Machine

/-- Power state codes (R439). -/
def powerState (s : State) : Nat := fld s R.PWR_STATUS 1 0

/-- A change between RUN and QUIET takes effect (R440). -/
def setPower (new : Nat) (s : State) : State :=
  let old := powerState s
  raise { code := 0xB0, sub := old * 4 + new } (setFld s R.PWR_STATUS 1 0 new)

/-- HEADOK goes low on every head (R444, R446). -/
def headokLow (s : State) : State :=
  (List.range 24).foldl (fun s h => setFlag s (R.WIN_LT_STATUS h) 0 false) s

/-- A power-down begins: HEADOK low at once, the rails off 1 ms later (R444). -/
def powerDownBegin (s : State) : State :=
  if s.pwr.downAt.isSome then s
  else headokLow { s with pwr := { s.pwr with downAt := some (s.elapsed + msUnit) } }

/-- Is everything off that KEEP asks for (R442). -/
def keepReady (s : State) : Bool :=
  !flag s R.TCK_CTRL 0
    && (List.range 96).all (fun c => decide (unitState s 0 c = 0))
    && (List.range 24).all (fun h => decide (unitState s 1 h = 0))
    && (List.range 16).all (fun n => decide (unitState s 2 n = 0))
    && (List.range 100).all (fun r => decide (ringState s r = 0))
    && !s.rng.cmds.any (fun c => [0x30, 0x31, 0x32, 0x58].contains c.opcode)

/-- Steps K1 to K5 (R442): calibrations aborted, cores halted, HEADOK and interrupts inactive, Cellar in self-refresh
with retention, power removed but from the always-on domain; the PCIe link goes down. DEDUCED: log entry 23. -/
def keepEnter (s : State) : State :=
  let s := headokLow (calAbortAll s)
  let s := (List.range 4).foldl (fun s p => wr s (R.EVT_PIN_STATUS p) 0) s
  let s := (channels s).foldl (fun s c => if chanState s c = 2 then setChanState c 3 s else s) s
  let s := setFld s R.PWR_STATUS 1 0 2
  { s with supply := .keep, linkUp := false, cell := { s.cell with keepMask := rd s R.DMC_RETAIN } }

/-- POWER_DOWN: the 1 ms after HEADOK went low ends and the rails are turned off (R444). -/
def execPowerDown (s : State) : Host.Outcome State Fault Refusal :=
  .next (match s.pwr.downAt with
    | some t =>
      if powered s then
        let s := setFld (waitElapsed t s) R.PWR_STATUS 1 0 3
        { s with supply := .off, linkUp := false, pwr := { s.pwr with downAt := none, good := [] } }
      else s
    | none => s)

/-! ## Rails (R445, R446) -/

/-- Entry r of a rail table. -/
def railEntry (t : List Byte) (r : Nat) : RailEntry :=
  let e (k : Nat) : Nat := (t.getD (4 + 8 * r + k) 0).toNat
  { order := e 2, delayMs := e 3, vout := e 4 + 256 * e 5, code := e 6, avs := bit (e 7) 0, offInKeep := bit (e 7) 1 }

/-- The used entries of a rail table; none where magic or CRC is wrong, or two used entries share a rail code.
DEDUCED: log entry 24. -/
def railTable (t : List Byte) : Option (List RailEntry) :=
  let es := ((List.range 8).map (railEntry t)).filter (fun e => decide (e.order ≠ 0))
  if ofLe (t.take 4) = 0x4C494152 ∧ 72 ≤ t.length ∧ ofLe ((t.drop 68).take 4) = crc32c (t.take 68)
      ∧ (es.map (·.code)).Nodup then some es else none

/-- The entry of a rail code. -/
def railOf (s : State) (code : Nat) : Option RailEntry := (s.pwr.rails.getD []).find? (fun e => e.code = code)

/-- Nominal value of a rail in mV: VDD_CORE its last AVS command, VDDIO_G its table entry's VOUT or, without a valid
table, what the level detector reports (R445, R446); the others as the supply table of spec/18_pins_and_board.md. -/
def railNominal (s : State) (code : Nat) : Nat :=
  match code with
  | 0 => fld s R.PWR_AVS_VOUT 9 0
  | 1 => 800 | 2 => 500 | 3 => 1050 | 4 => 900 | 5 => 1200
  | 6 => match railOf s 6 with
    | some e => e.vout
    | none => s.pwr.gLevel
  | _ => 3300

/-- EV_RAIL_FAULT, at most once per rail per tick; bit 15 marks a detection by the monitor (R446). -/
def railEvent (code : Nat) (monitor : Bool) (s : State) : State :=
  let w := fld s (R.PWR_RAIL code) 15 0
  raiseOnce code { code := 0xB3, unit := code, a0 := if monitor then w ||| 0x8000 else w } s

/-- WARN or FAULT of a rail; FAULT drives HEADOK low and powers the device down (R446). -/
def railWarn (code : Nat) (monitor : Bool) (s : State) : State :=
  railEvent code monitor (setFlag s (R.PWR_RAIL code) 30 true)
def railFault (code : Nat) (monitor : Bool) (s : State) : State :=
  powerDownBegin (railEvent code monitor (setFlag s (R.PWR_RAIL code) 31 true))

/-- Is a reading further from nominal than a percentage. -/
def outside (mv nom pct : Nat) : Bool := decide (nom * pct < 100 * (max mv nom - min mv nom))

/-- A supply monitor is sampled (R446, R447). A rail without a nominal value (VDD_CORE before its first command) is
not judged. -/
def monitorSample (r mv : Nat) (s : State) : State :=
  let nom := railNominal s r
  let s := wr s (R.PWR_SENSOR (8 + r)) mv
  if nom = 0 then s
  else
    let bad := decide (3 * nom < 2 * mv)
    let s := setFlag s R.PWR_SENSOR_BAD (8 + r) bad
    let s := if bad then raiseOnce (8 + r) { code := 0xB7, unit := 8 + r, a0 := mv } s else s
    let s := if outside mv nom 3 then railWarn r true s else s
    let since := smGet (fun _ => none) s.pwr.outSince r
    let setSince (x : Option Nat) (s : State) : State :=
      { s with pwr := { s.pwr with outSince := smSet (fun _ => none) s.pwr.outSince r x } }
    if outside mv nom 5 then
      match since with
      | none => setSince (some s.elapsed) s
      | some t => if t + msUnit ≤ s.elapsed then railFault r true s else s
    else setSince none s

/-- SUPPLY_MONITOR_SAMPLE. -/
def execSupplyMonitorSample (rail : Fin 8) (mv : Nat) (s : State) : Host.Outcome State Fault Refusal :=
  live s (monitorSample rail.val (mv % 2 ^ 32))

/-- PMBUS_STATUS_POLL: STATUS_WORD of a rail-table regulator (R446). The places of its bits are PMBus's (PRESUMED):
5 VOUT, 4 IOUT, 3 INPUT and 2 TEMPERATURE faults; 15, 14 and 13 the summaries that warnings of VOUT, IOUT and INPUT
set. PRESUMED: log entry 25. -/
def execPmbusStatusPoll (rail : Fin 8) (status : BitVec 16) (s : State) : Host.Outcome State Fault Refusal :=
  live s (fun s =>
    let r := rail.val
    if (railOf s r).isNone then s
    else
      let w := status.toNat
      let s := setFld s (R.PWR_RAIL r) 15 0 w
      let s := if bits w 15 13 ≠ 0 then railWarn r false s else s
      if bits w 5 2 ≠ 0 then railFault r false s else s)

/-! ## Temperature and throttling (R447 to R449) -/

/-- The applied throttle stage. -/
def appliedStage (s : State) : Nat := fld s R.PWR_STAGE 2 0
def thermalStage (s : State) : Nat := fld s R.PWR_STAGE 6 4
def avsStage (s : State) : Nat := fld s R.PWR_STAGE 10 8

/-- AVS_MARGIN in ps. -/
def avsMargin (s : State) : Int := fld s R.PWR_AVS_MARGIN 7 0

/-- The applied stage follows the highest of its sources: a rise at once; a fall only with slack of AVS_MARGIN + 60 ps
and no raise of VDD_CORE outstanding (R448, R452). DEDUCED: log entry 27. -/
def applyStage (s : State) : State :=
  let bad := decide (fld s R.PWR_SENSOR_BAD 7 0 ≠ 0)
  let s := setFlag s R.PWR_STAGE 7 bad
  let want := max (max (thermalStage s) (avsStage s)) (if bad then 2 else 0)
  let now := appliedStage s
  if now < want ∨ (want < now ∧ avsMargin s + 60 ≤ s.pwr.slack ∧ !s.pwr.raising) then
    raise { code := 0xB1, sub := want, a0 := rd s R.PWR_TEMP } (setFld s R.PWR_STAGE 2 0 want)
  else s

/-- Threshold k of the thermal loop in m°C, k = 1 to 3. -/
def thermalThr (s : State) (k : Nat) : Int := (fld s R.PWR_THR (8 * k - 1) (8 * k - 8) : Int) * 1000

/-- The level below which the thermal stage falls. -/
def thermalFall (s : State) : Int := thermalThr s (thermalStage s) - (fld s R.PWR_THR 31 24 : Int) * 1000

/-- The entry stage of a temperature. -/
def thermalEntry (s : State) (t : Int) : Nat :=
  if thermalThr s 3 ≤ t then 3 else if thermalThr s 2 ≤ t then 2 else if thermalThr s 1 ≤ t then 1 else 0

/-- One temperature reading: an uncalibrated sensor reports 3 °C more; a reading outside −55 to 150 °C marks the sensor
bad; a sensor under calibration keeps its last reading (R447, R456). -/
def tempReading (i : Nat) (raw : Int) (s : State) : State :=
  if (calOf s (40 + i)).isSome then s
  else if raw < -55000 ∨ 150000 < raw then
    raiseOnce i { code := 0xB7, unit := i, a0 := uint 32 raw } (setFlag s R.PWR_SENSOR_BAD i true)
  else
    let t := if s.pwr.calibrated.contains i then raw else raw + 3000
    setFlag (wr s (R.PWR_SENSOR i) (uint 32 t)) R.PWR_SENSOR_BAD i false

/-- The hottest valid reading; the last one where no sensor is valid. -/
def hottest (s : State) : Int :=
  let ts := ((List.range 8).filter (fun i => !flag s R.PWR_SENSOR_BAD i)).map (fun i => sint 32 (rd s (R.PWR_SENSOR i)))
  match ts with
  | [] => sint 32 (rd s R.PWR_TEMP)
  | t :: rest => rest.foldl max t

/-- Keep the start of an uninterrupted condition. -/
def sinceWhen (cond : Bool) (since : Option Nat) (now : Nat) : Option Nat :=
  if cond then some (since.getD now) else none

/-- THERMAL_SAMPLE: the readings of the eight sensors (R447, R448). DEDUCED: log entry 27. -/
def thermalSample (mc : List Int) (s : State) : State :=
  let s := (mc.take 8).zipIdx.foldl (fun s p => tempReading p.2 p.1 s) s
  let t := hottest s
  let s := wr s R.PWR_TEMP (uint 32 t)
  let e := thermalEntry s t
  let s := if thermalStage s < e then
      setFld { s with pwr := { s.pwr with lowSince := none } } R.PWR_STAGE 6 4 e else s
  let s := { s with pwr := { s.pwr with
    lowSince := sinceWhen (decide (thermalStage s ≠ 0 ∧ t < thermalFall s)) s.pwr.lowSince s.elapsed
    critSince := sinceWhen (decide (127000 ≤ t)) s.pwr.critSince s.elapsed } }
  applyStage s

def execThermalSample (mc : List Int) (s : State) : Host.Outcome State Fault Refusal := live s (thermalSample mc)

/-- THERMAL_STAGE_FALL: 100 ms below the fall level; the thermal stage falls by one (R448). -/
def execThermalStageFall (s : State) : Host.Outcome State Fault Refusal :=
  live s (fun s =>
    match s.pwr.lowSince with
    | none => s
    | some t =>
      if thermalStage s = 0 then s
      else
        let s := waitElapsed (t + 100 * msUnit) s
        let s := setFld s R.PWR_STAGE 6 4 (thermalStage s - 1)
        let again := decide (thermalStage s ≠ 0 ∧ hottest s < thermalFall s)
        applyStage { s with pwr := { s.pwr with lowSince := sinceWhen again none s.elapsed } })

/-- THERMAL_CRITICAL: 10 ms at or above 127 °C; the device powers down (R448, R444). -/
def execThermalCritical (s : State) : Host.Outcome State Fault Refusal :=
  live s (fun s =>
    match s.pwr.critSince with
    | none => s
    | some t => powerDownBegin (applyStage (setFld (waitElapsed (t + 10 * msUnit) s) R.PWR_STAGE 6 4 4)))

/-- A write to PWR_THR: each threshold at most its maximum and above the one before it (R449). -/
def pwrThrWrite (v : Nat) (s : State) : State :=
  let t1 := min (bits v 7 0) 115
  let b2 := min (bits v 15 8) 120
  let t2 := if b2 ≤ t1 then t1 + 1 else b2
  let b3 := min (bits v 23 16) 123
  let t3 := if b3 ≤ t2 then t2 + 1 else b3
  wr s R.PWR_THR (clampNat 2 10 (bits v 31 24) * 2 ^ 24 + t3 * 2 ^ 16 + t2 * 2 ^ 8 + t1)

/-! ## Core voltage (R450 to R452) -/

/-- VMIN, VMAX and the last command in mV. -/
def vMin (s : State) : Nat := fld s R.PWR_AVS_LIMITS 9 0
def vMax (s : State) : Nat := fld s R.PWR_AVS_LIMITS 25 16
def vOut (s : State) : Nat := fld s R.PWR_AVS_VOUT 9 0

/-- The loop wants more voltage: 5 mV up, or above VMAX one AVS stage up with EV_LOOP_LIMIT (R450, R451). -/
def avsRaise (s : State) : State :=
  let want := vOut s + 5
  if vMax s < want then
    let s := setFld s R.PWR_STAGE 10 8 (min 3 (avsStage s + 1))
    raise { code := 0xB2, unit := 0, a0 := want, a1 := vMax s } (addReg (applyStage s) R.PWR_LIMITS 1)
  else { wr s R.PWR_AVS_VOUT (max want (vMin s)) with pwr := { s.pwr with raising := true } }

/-- The loop can do with less: one AVS stage down, or 5 mV down to no less than VMIN (R450, R451). -/
def avsLower (s : State) : State :=
  if 0 < avsStage s then applyStage (setFld s R.PWR_STAGE 10 8 (avsStage s - 1))
  else if vMin s + 5 ≤ vOut s then wr s R.PWR_AVS_VOUT (min (vOut s - 5) (vMax s))
  else s

/-- Does a fall of the applied stage wait for slack (R452). -/
def fallWaits (s : State) : Bool :=
  decide (max (max (thermalStage s) (avsStage s)) (if fld s R.PWR_SENSOR_BAD 7 0 ≠ 0 then 2 else 0) < appliedStage s)

/-- AVS_SAMPLE: the least slack of the ring-oscillator monitors (R450); while a fall of the applied stage waits for slack,
the loop raises the voltage for it (R452). Without a rail marked AVS the loop commands nothing (R445).
DEDUCED: log entry 27. -/
def avsSample (slacks : List Int) (s : State) : State :=
  match slacks with
  | [] => s
  | x :: xs =>
    let sl := xs.foldl min x
    let low := decide (avsMargin s + 20 < sl)
    let n := if low then s.pwr.slackRun + 1 else 0
    let s := applyStage { s with pwr := { s.pwr with slack := sl, slackRun := if 20 ≤ n then 0 else n } }
    if !(s.pwr.rails.getD []).any (·.avs) then s
    else if sl < avsMargin s ∨ (fallWaits s ∧ sl < avsMargin s + 60) then avsRaise s
    else if 20 ≤ n then avsLower s
    else s

def execAvsSample (slacks : List Int) (s : State) : Host.Outcome State Fault Refusal := live s (avsSample slacks)

/-- AVS_RAISE_ACK: the regulator acknowledges a raise (R452). DEDUCED: log entry 27. -/
def execAvsRaiseAck (s : State) : Host.Outcome State Fault Refusal :=
  live s (fun s => applyStage { s with pwr := { s.pwr with raising := false } })

/-- A write to the AVS limits: 650 to 850 mV, VMAX not below VMIN. DEDUCED: log entry 27. -/
def avsLimitsWrite (v : Nat) (s : State) : State :=
  let lo := clampNat 650 850 (bits v 9 0)
  wr s R.PWR_AVS_LIMITS (max lo (clampNat 650 850 (bits v 25 16)) * 2 ^ 16 + lo)

/-- A write to a PWR register. -/
def pwrRegWrite (off v : Nat) (s : State) : State :=
  if off = R.PWR_THR then pwrThrWrite v s
  else if off = R.PWR_AVS_LIMITS then avsLimitsWrite v s
  else if off = R.PWR_AVS_MARGIN then wr s off (clampNat 25 255 (bits v 7 0))
  else s

end Sys2Proof.Machine
end

