-- ==== Sys2Proof/Machine/Operands.lean ====
section
/-!
DEFINITION. Machine/Operands.lean: the forms a command's operands take: ring descriptors (R156, R159 to R161 and the
bodies of the other chapters), with the check that gives BAD_DESCRIPTOR and the check for absent units (R3).
-/

namespace Sys2Proof.Machine

/-- The bits that may be 1 in words 2 to 15 of a descriptor, per opcode; words past the list must be 0. None: no
such opcode (R159). -/
def bodyMasks : Nat → Option (List Nat)
  | 0x01 => some []
  | 0x10 => some [0x3FFFF, 0x3FFFF, 0xFFFFFFFF, 0xFFFFFFFF, 0x3FFFFFFF, 0xFFFFFFFF, 0xFFFFFFFF, 0x1F, 0xFFFF, 0,
                  0xFFFFFFFF, 0xFFFFFFFF, 0xFFFFFFFF]
  | 0x11 => some [0xFFFF]
  | 0x12 => some [0xFFFF, 0xC01FFFFF]
  | 0x13 => some [0xFFFF, 3, 0xFFFFFFFF, 0xFFFFFFFF, 0xFFFF, 0xFFFFFFFF, 0xFFFFFFFF, 0xFFFF, 0x3FFFFFFF,
                  0xFFFFFFFF, 0xFFFFFFFF]
  | 0x14 => some [0x1F, 1]
  | 0x18 => some [0x103FF, 0xFE070FFF, 0xFFFFFFFF, 0xFFFFFFFF, 0xFFFFFFFF, 0xFFFFFFFF, 0xFFFFFFFF, 0xFFFFFFFF,
                  0xFFFFFFFF, 0xFFFFFFFF, 0xFFFFFFFF, 0xFFFFFFFF, 0x7F]
  | 0x19 => some [0x303FF]
  | 0x38 => some [7, 0, 0xFFFFFFFF, 0xFFFFFFFF, 0x3FFF, 0xB, 0x3FFF, 0xFFFFFFFF, 0xFFFFFFFF, 0xFFFFFFFF]
  | 0x39 => some [0, 1, 0xFFFFFFFF, 0xFFFFFFFF, 0xFFFF, 1]
  | 0x20 => some [0x107, 0x1FFF, 0xFFFFFFFF, 0xFFFFFFFF, 0xFFFFFFFF]
  | 0x28 => some [0x1000F, 0xB000FFFF, 0xFFFFFFFF, 0x0FFFFFFF, 0x001F0F1F, 0xFFFFFFFF, 0xFFFFFFFF, 0x00FFFFFF,
                  0x00FFFFFF, 0x011F001F, 0xFFFFFFFF, 0xFFFFFFFF, 0x00FFFFFF]
  | 0x29 => some [0xF]
  | 0x30 => some [0x3F, 0x3010F, 0xFFFFFFFF, 0xFFFFFFFF, 0xFFFFFFFF, 0xFFFFFFFF, 0xFFFFFFFF, 0xFFFFFFFF, 0xFFFFFFFF,
                  0xFFFFFFFF]
  | 0x31 => some [3, 0x30107, 0xFFFFFFFF, 0xFFFFFFFF, 0xFFFFFFFF, 0xFFFFFFFF, 0xFFFFFFFF, 0xFFFFFFFF, 0x1FFFF]
  | 0x32 => some [0x1F, 3, 0xFFFFFFFF, 0xFFFFFFFF, 0xFFFFFFFF]
  | 0x40 => some [0x3003F, 0xF80FFFFF, 0xFFFFFFFF, 0xFFFFFFFF, 0xFFFFFFFF, 0xFFFF]
  | 0x58 => some [0x7F, 1]
  | 0x48 => some [3]
  | 0x50 => some [7, 0xFFFF]
  | _ => none

/-- The first word of a body, from word i on, with a bit set outside its mask. -/
def badMask : List Nat → List Nat → Nat → Option Nat
  | [], _, _ => none
  | w :: ws, ms, i =>
    if w &&& (ms.headD 0 ^^^ 0xFFFFFFFF) ≠ 0 then some i else badMask ws (ms.drop 1) (i + 1)

/-- The first of a list of checks that fails, by the word that holds the field. -/
def firstBad : List (Nat × Bool) → Option Nat
  | [] => none
  | (i, ok) :: cs => if ok then firstBad cs else some i

/-- Largest instance of a ledger kind (R58). -/
def ledgerInstanceOk (kind i : Nat) : Bool :=
  if kind = 0 then decide (i < 96) else if kind = 1 then decide (i < 4)
  else if kind = 2 then decide (i < 64 ∨ i = 0xFFFF) else if kind = 3 then decide (i < 1024)
  else decide (i < 32)

/-! ## Declarations of source channels (R237, R246, R278, R493) -/

/-- A picture side rounded up to a multiple of 16 (R251). -/
def round16 (n : Nat) : Nat := ceilDiv n 16 * 16

/-- A byte count rounded up to a multiple of 256, and of 4,096. -/
def round256 (n : Nat) : Nat := ceilDiv n 256 * 256
def round4096 (n : Nat) : Nat := ceilDiv n 4096 * 4096

/-- Bytes per sample or pixel of a format (R277), and whether it is planar. -/
def fmtPlanar (f : Nat) : Bool := decide (f = 0x10 ∨ f = 0x11)
def fmtBytes (f : Nat) : Nat := if f = 0x10 then 1 else if f = 0x11 then 2 else 4

/-- Pitch of the luma plane of a decoded slot (R257). -/
def decodePitch (w depth : Nat) : Nat := round256 (round16 w * (if depth = 8 then 1 else 2))

/-- Least SLOT_STRIDE of a COMPRESSED channel (R257). -/
def decodeStride (w h depth : Nat) : Nat :=
  round4096 (0x1000 + 3 * decodePitch w depth * round16 h / 2 + round16 w * round16 h / 4)

/-- Pitch and luma rows of a NATIVE or HOST slot, and its least SLOT_STRIDE (R277). -/
def slotPitch (w f : Nat) : Nat := round256 (w * fmtBytes f)
def evenRows (h : Nat) : Nat := ceilDiv h 2 * 2
def slotStride (w h f : Nat) : Nat :=
  if fmtPlanar f then round4096 (0x1000 + 3 * slotPitch w f * evenRows h / 2)
  else round4096 (0x1000 + slotPitch w f * h)

/-- CHROMA and DEPTH that a FORMAT goes with (R278). -/
def fmtSampling (f : Nat) : Option (Nat × Nat) :=
  match f with
  | 0x10 => some (0, 8)
  | 0x11 => some (0, 10)
  | 0x20 | 0x21 | 0x42 => some (2, 10)
  | 0x22 => some (1, 10)
  | 0x40 | 0x41 => some (2, 8)
  | _ => none

/-- FORMATs accepted for NATIVE (1) and HOST (2) channels (R276). -/
def fmtAccepted (kind f : Nat) : Bool :=
  if kind = 1 then [0x11, 0x20, 0x21, 0x22].contains f
  else [0x10, 0x11, 0x20, 0x21, 0x22, 0x40, 0x41, 0x42].contains f

/-- Profiles the decoder accepts (R244): H.264 66, 77, 100; H.265 1, 2. -/
def profileOk (codec profile : Nat) : Bool :=
  if codec = 0 then [66, 77, 100].contains profile else [1, 2].contains profile

/-- The word of an SRC_OPEN, or of the registers that stand for its words, that makes a declaration of a kind bad
(R237, R246, R278, R493). -/
def badDeclaration (kind : Nat) (w : Nat → Nat) : Option Nat :=
  let mw := bits (w 4) 15 0
  let mh := bits (w 4) 31 16
  let rate := w 5
  let codec := bits (w 6) 7 0
  let profile := bits (w 6) 15 8
  let level := bits (w 6) 23 16
  let depth := bits (w 6) 27 24
  let chroma := bits (w 6) 29 28
  let fmt := bits (w 10) 15 0
  let size := decide (16 ≤ mw ∧ mw ≤ 4096 ∧ 16 ≤ mh ∧ mh ≤ 4096 ∧ mw * mh ≤ 8912896)
  let rateOk := decide (1000 ≤ rate ∧ rate ≤ 120000)
  let lat := decide (w 8 ≤ 10000000)
  let pool := decide (4 ≤ bits (w 9) 4 0 ∧ bits (w 9) 4 0 ≤ 16)
  let base := decide (w 12 % 4096 = 0)
  if kind = 0 then
    let known := decide (codec < 2)
    let limit := if codec = 1 then 534773760 else 251658240
    firstBad [(4, size), (5, !known || (rateOk && decide (mw * mh * rate ≤ limit * 1000))),
      (6, known && profileOk codec profile && decide (level ≤ (if codec = 0 then 51 else 153)) && decide (chroma = 0)
        && (decide (depth = 8) || (decide (depth = 10) && decide (codec = 1 ∧ profile = 2)))),
      (7, !known || decide (w 7 ≠ 0 ∧ w 7 ≤ (if codec = 0 then 300000 else 160000))),
      (8, lat), (9, pool), (10, decide (fmt = 0)), (12, base),
      (14, decide (w 14 % 4096 = 0 ∧ decodeStride mw mh depth ≤ w 14))]
  else
    firstBad [(4, size), (5, rateOk),
      (6, decide (codec = 2 ∧ profile = 0 ∧ level = 0 ∧ fmtSampling fmt = some (chroma, depth))),
      (7, decide (w 7 = 0)), (8, lat), (9, pool), (10, fmtAccepted kind fmt), (12, base),
      (14, decide (w 14 % 4096 = 0 ∧ slotStride mw mh fmt ≤ w 14))]

/-- Does an item of the calibration table exist (R454), or stand for every item (R460). -/
def trimItem (i : Nat) : Bool := decide (i < 37 ∨ (40 ≤ i ∧ i < 56) ∨ (64 ≤ i ∧ i < 73) ∨ i = 0x7F)

/-- The words of a KEY_CONFIG body that its OP leaves reserved (R408). -/
def keyBody (c : Cmd) : Option Nat :=
  if bits (c.w 2) 17 16 = 0 then none
  else if bits (c.w 2) 17 16 = 1 then
    firstBad [(2, decide (bits (c.w 2) 5 0 = 0)), (3, decide (c.w 3 &&& 0x1FFFFF00 = 0)), (5, decide (c.w 5 < 2 ^ 16)),
              (6, decide (c.w 6 < 2 ^ 8)), (7, decide (c.w 7 = 0))]
  else some 2

/-- Ranges and codes of the fields of a body, word by word (R159, R161). -/
def badRange (c : Cmd) : Option Nat :=
  match c.opcode with
  | 0x10 =>
    if 96 ≤ bits (c.w 2) 15 0 ∨ bits (c.w 2) 17 16 = 3 then some 2
    else badDeclaration (bits (c.w 2) 17 16) c.w
  | 0x11 | 0x13 => firstBad [(2, decide (bits (c.w 2) 15 0 < 96))]
  | 0x12 =>
    let inp := bits (c.w 3) 31 30
    let ix := bits (c.w 3) 15 0
    firstBad [(2, decide (bits (c.w 2) 15 0 < 96)),
      (3, decide (inp < 3 ∧ (inp = 0 → ix < 1024) ∧ (inp = 1 → ix < 32) ∧ (inp = 2 → ix < 64)))]
  | 0x14 => firstBad [(2, decide (bits (c.w 2) 4 0 < 24))]
  | 0x18 =>
    if bit (c.w 3) 31 then none
    else firstBad [(5, decide (c.w 5 = 0)), (6, decide (c.w 6 = 0)), (7, decide (c.w 7 = 0)), (9, decide (c.w 9 = 0)),
                   (10, decide (c.w 10 = 0)), (11, decide (c.w 11 = 0))]
  | 0x28 => firstBad [(6, decide (1 ≤ bits (c.w 6) 4 0 ∧ bits (c.w 6) 4 0 ≤ 16)), (9, decide (bits (c.w 9) 23 16 ≤ 16)),
      (11, decide (4 ≤ bits (c.w 11) 20 16 ∧ bits (c.w 11) 20 16 ≤ 16 ∧ 16 ≤ bits (c.w 11) 4 0 ∧ bits (c.w 11) 4 0 ≤ 28))]
  | 0x31 => firstBad [(3, decide (bits (c.w 3) 2 0 < 5))]
  | 0x32 => firstBad [(2, decide (bits (c.w 2) 4 0 < 24))]
  | 0x40 => keyBody c
  | 0x58 => firstBad [(2, trimItem (bits (c.w 2) 6 0))]
  | 0x38 => firstBad [(6, decide (14 ≤ bits (c.w 6) 13 0 ∧ bits (c.w 6) 13 0 ≤ 9212)),
                      (7, decide (bits (c.w 7) 1 0 < 3))]
  | 0x39 => firstBad [(6, decide (9244 ≤ bits (c.w 6) 15 0))]
  | 0x48 => firstBad [(2, decide (bits (c.w 2) 1 0 < 3))]
  | 0x50 => firstBad [(2, decide (bits (c.w 2) 2 0 < 5)), (3, ledgerInstanceOk (bits (c.w 2) 2 0) (bits (c.w 3) 15 0))]
  | _ => none

/-- The word that makes a descriptor BAD_DESCRIPTOR; none when it is well formed (R156, R159).
DEDUCED: log entries 14, 53, 73. -/
def badDescriptor (c : Cmd) : Option Nat :=
  if c.w 0 &&& 0x00FFFEFF ≠ 0 then some 0
  else match bodyMasks c.opcode with
    | none => some 0
    | some ms =>
      match badMask ((List.range 14).map (fun i => c.w (i + 2))) ms 2, badRange c with
      | some i, some j => some (min i j)
      | some i, none => some i
      | none, r => r

/-- The absent unit a descriptor names (R3). DEDUCED: log entry 14. -/
def absentUnit (p : Part) (c : Cmd) : Option Nat :=
  let u := bits (c.w 2) 15 0
  let absentIf (present : Bool) (i : Nat) : Option Nat := if present then none else some i
  match c.opcode with
  | 0x10 | 0x11 | 0x13 => absentIf (unitPresent p .src u) u
  | 0x12 =>
    if !unitPresent p .src u then some u
    else if bits (c.w 3) 31 30 = 1 then absentIf (unitPresent p .lane (bits (c.w 3) 20 16)) (bits (c.w 3) 20 16)
    else none
  | 0x14 => absentIf (unitPresent p .head (bits (c.w 2) 4 0)) (bits (c.w 2) 4 0)
  | 0x28 =>
    let i := bits (c.w 3) 15 0
    if !unitPresent p .enc (bits (c.w 2) 16 16) then some 1
    else if bits (c.w 3) 29 28 = 0 ∧ i < 96 then absentIf (unitPresent p .src i) i
    else if bits (c.w 3) 29 28 = 2 ∧ i < 24 then absentIf (unitPresent p .head i) i
    else none
  | 0x32 => absentIf (unitPresent p .head (bits (c.w 2) 4 0)) (bits (c.w 2) 4 0)
  | 0x58 =>
    let i := bits (c.w 2) 6 0
    if i < 32 then absentIf (unitPresent p .lane i) i
    else if i < 36 then absentIf (unitPresent p .quad (i - 32)) i
    else none
  | 0x50 =>
    let i := bits (c.w 3) 15 0
    if bits (c.w 2) 2 0 = 0 then absentIf (unitPresent p .src i) i
    else if bits (c.w 2) 2 0 = 1 ∧ 2 ≤ i then absentIf (unitPresent p .enc (i - 2)) i
    else if bits (c.w 2) 2 0 = 4 then absentIf (unitPresent p .lane i) i
    else none
  | _ => none

end Sys2Proof.Machine
end

