-- ==== Sys2Proof/Machine/Rings.lean ====
section
/-!
DEFINITION. Machine/Rings.lean: rings, doorbells, descriptor fetch, completions and the interrupt pins (chapter 6).
-/

namespace Sys2Proof.Machine

/-- The unit number of a ring: SQ r, 64 + c, 96 + e. -/
def ringNum : RingId → Nat
  | .sq r => r.val
  | .cq c => 64 + c.val
  | .eq e => 96 + e.val

/-- The writable bits of a ring's CFG beside EN (RNG register table). -/
def ringCfgMask (u : Nat) : Nat := if u < 64 then 0x1F1FC00A else 0x1F003F06

/-- Is the configuration of a ring valid (R151, R152). -/
def ringValid (s : State) (u : Nat) : Bool :=
  let c := rd s (ringCfg u)
  let k := bits c 28 24
  let base := rd64 s (ringBase u) (ringBase u + 4)
  let entry := if u < 64 then 64 else 32
  decide (4 ≤ k ∧ k ≤ 16) && decide (base % max (2 ^ k * entry) 4096 = 0)
    && (!bit c 1 || decide (rd s (ringBase u + 4) < 16))
    && (decide (64 ≤ u) || decide (ringState s (64 + bits c 20 16) = 2))

/-- The posting of EV_EVENTS_LOST into the kept entry of an EQ once entries are free; the count it carries is reset when
the record is written (R172, R173). DEDUCED: log entry 52. -/
def eqPostLost (e : Nat) (s : State) : State :=
  let n := rd s (R.RNG_EQ_LOST e)
  if ringState s (96 + e) = 2 ∧ n ≠ 0 ∧ ringFree s (96 + e) ≠ 0 then
    let (s, ok) := eqWriteWith raise e { code := 0, unit := e, a0 := n } (addReg s (R.EVT_COUNT 0) 1)
    eventSignals 0 (if ok then wr s (R.RNG_EQ_LOST e) (rd s (R.RNG_EQ_LOST e) - n) else s)
  else s

/-- An OFF ring is started: with a valid configuration it runs with every index 0, else it returns to OFF with FAULT
(R152). DEDUCED: log entry 52. -/
def ringStart (u : Nat) (s : State) : State :=
  let s := setUnit 3 u 1 false s
  if ringValid s u then
    let s := wr s (ringIndex u) 0
    let s := { s with rng := { s.rng with posted := smSet (fun _ => 0) s.rng.posted u 0 } }
    setUnitThen 3 u 2 false (fun s => if 96 ≤ u then eqPostLost (u - 96) s else s) s
  else
    let s := setFlag s (ringStatus u) 5 true
    let s := setUnit 3 u 0 false s
    raise { code := 3, unit := u, sub := 2, a0 := rd s (ringBase u), a1 := rd s (ringBase u + 4) } s

/-- A RUNNING ring drains; a CQ or EQ is OFF at once (R152). -/
def ringDrain (u : Nat) (s : State) : State :=
  let s := setUnit 3 u 3 false s
  if 64 ≤ u then setUnit 3 u 0 false s else s

/-- Store the EN bit of a CFG write to a ring that is not OFF; fields that would change are ignored with
CFG_IGNORED (R152). -/
def ringCfgKeep (u v : Nat) (s : State) : State :=
  if v &&& ringCfgMask u = rd s (ringCfg u) &&& ringCfgMask u then s else setFlag s (ringStatus u) 4 true

/-- Does an SQ that is not OFF name a completion ring (R152). -/
def cqNamed (s : State) (c : Nat) : Bool :=
  (List.range 64).any (fun r => decide (ringState s r ≠ 0) && decide (fld s (ringCfg r) 20 16 = c))

/-- A write to a ring's CFG register (R152, R179). -/
def ringCfgWrite (u v : Nat) (s : State) : State :=
  let st := ringState s u
  if st = 0 then
    let s := wr s (ringCfg u) (v &&& (ringCfgMask u + 1))
    if bit v 0 then ringStart u s else s
  else
    let s := ringCfgKeep u v s
    if bit v 0 then
      if st = 3 then
        raise { code := 2, unit := u, sub := 3, a0 := ringCfg u } (setFlag s (ringStatus u) 3 true)
      else s
    else if st = 3 then setFlag s (ringCfg u) 0 false
    else if 64 ≤ u ∧ u < 96 ∧ cqNamed s (u - 64) then setFlag s (ringStatus u) 4 true
    else ringDrain u (setFlag s (ringCfg u) 0 false)

/-- A write to a ring's BASE register: stored while OFF, else ignored with CFG_IGNORED where it would change the
value in force (R152). -/
def ringBaseWrite (u off v : Nat) (s : State) : State :=
  let v := if off = ringBase u then v / 4096 * 4096 else v
  if ringState s u = 0 then wr s off v
  else if v = rd s off then s else setFlag s (ringStatus u) 4 true

/-- RING_ENABLE and RING_DISABLE: a CFG write with EN = 1, with EN = 0. -/
def execRingEnable (ring : RingId) (cfg : Word) (s : State) : Host.Outcome State Fault Refusal :=
  live s (ringCfgWrite (ringNum ring) (setBits cfg.toNat 0 0 1))
def execRingDisable (ring : RingId) (cfg : Word) (s : State) : Host.Outcome State Fault Refusal :=
  live s (ringCfgWrite (ringNum ring) (setBits cfg.toNat 0 0 0))

/-! ## Doorbells (R153, R154) -/

/-- A doorbell word is sound when its upper half is the complement of its lower half (R153). -/
def doorbellSound (w : Nat) : Bool := decide (bits w 31 16 = bits w 15 0 ^^^ 0xFFFF)

/-- Is a sound value accepted (R154): for an SQ within the free entries, for a CQ or EQ between the last accepted
consumer value and the producer index. -/
def doorbellInRange (s : State) (u p : Nat) : Bool :=
  let old := fld s (ringIndex u) 31 16
  let dev := fld s (ringIndex u) 15 0
  let lim := ringSize s u - 1
  let d (a b : Nat) : Nat := (a + 65536 - b) % 65536
  decide (ringState s u = 2) &&
    (if u < 64 then decide (d p dev ≤ lim ∧ d p old + d old dev ≤ lim) else decide (d p old ≤ d dev old))

/-- A doorbell write (R153, R154); an EQ then posts a waiting EV_EVENTS_LOST (R172). DEDUCED: log entry 52. -/
def doorbell (u w : Nat) (narrow : Bool) (s : State) : State :=
  let p := bits w 15 0
  if narrow || !doorbellSound w then
    raiseOnce u { code := 1, unit := u, sub := 0, a0 := w } (setFlag s (ringStatus u) 2 true)
  else if !doorbellInRange s u p then
    raise { code := 1, unit := u, sub := 1, a0 := w } (setFlag s (ringStatus u) 2 true)
  else
    let s := setFld s (ringIndex u) 31 16 p
    if 96 ≤ u then eqPostLost (u - 96) s else s

/-- SQ_DOORBELL, CQ_DOORBELL and EQ_DOORBELL. -/
def execSqDoorbell (r : Fin 64) (w : Word) (narrow : Bool) (hm : Cells) (s : State) :
    Host.Outcome State Fault Refusal :=
  live s (fun s => doorbell r.val w.toNat narrow (hostStore hm s))
def execCqDoorbell (c : Fin 32) (w : Word) (narrow : Bool) (s : State) : Host.Outcome State Fault Refusal :=
  live s (doorbell (64 + c.val) w.toNat narrow)
def execEqDoorbell (e : Fin 4) (w : Word) (narrow : Bool) (s : State) : Host.Outcome State Fault Refusal :=
  live s (doorbell (96 + e.val) w.toNat narrow)

/-! ## Descriptor fetch (R157) -/

/-- Is an SQ ready: RUNNING, with a descriptor behind its doorbell, and not held by a BARRIER of its own (R167). -/
def sqReady (s : State) (r : Nat) : Bool :=
  decide (ringState s r = 2) && decide (fld s (ringIndex r) 15 0 ≠ fld s (ringIndex r) 31 16)
    && !s.rng.cmds.any (fun c => decide (c.sq = r) && decide (c.opcode = 0x48))

/-- PRIO of an SQ. -/
def sqPrio (s : State) (r : Nat) : Nat := fld s (ringCfg r) 15 14

/-- The SQ served next: the highest PRIO first, rings of equal PRIO in round robin (R157). -/
def sqNext (s : State) : Option Nat :=
  [3, 2, 1, 0].findSome? (fun p =>
    let last := smGet (fun _ => 63) s.rng.lastServed p
    ((List.range 64).map (fun k => (last + 1 + k) % 64)).find? (fun r => sqReady s r && decide (sqPrio s r = p)))

/-- An SQ whose descriptor fetch failed: FAULT and DRAINING (R168). DEDUCED: log entry 52. -/
def sqFault (r addr : Nat) (s : State) : State :=
  let s := setUnit 3 r 3 false (setFlag s (ringStatus r) 5 true)
  raise { code := 3, unit := r, sub := 0, a0 := addr, a1 := addr / 2 ^ 32 } s

/-- A fetched descriptor becomes a command in flight under its tag; a malformed one, or one that names an absent
unit, is finished at once (R156, R159, R3). DEDUCED: log entry 52. -/
def cmdStart (tag r : Nat) (bs : List Byte) (s : State) : State :=
  let c : Cmd := { tag := tag, sq := r, index := fld s (ringIndex r) 15 0,
                   words := (bytesToWords 16 bs).map (BitVec.ofNat 32), fetched := s.clock }
  let s := addFld s (ringIndex r) 15 0 1
  let s := addReg s (R.RNG_SQ_ISSUED r) 1
  let s := addFld (addFld s (R.RNG_SQ_INFLIGHT r) 12 0 1) R.RNG_STATUS 12 0 1
  let s := { s with rng := { s.rng with cmds := s.rng.cmds ++ [c], lastServed := smSet (fun _ => 63) s.rng.lastServed (sqPrio s r) r } }
  match badDescriptor c with
  | some i => finish tag stBadDescriptor i 0 0 s
  | none =>
    match absentUnit s.part c with
    | some u => finish tag stAbsentUnit u 0 0 s
    | none => s

/-- The next descriptor is fetched, when an SQ is ready; with no tag free fetching waits (R157). One whose word in the ring's
cache proves uncorrectable is fetched again (R367). -/
def descriptorFetch (tag : Nat) (ecc : Ecc) (s : State) : State :=
  match sqNext s with
  | none => s
  | some r =>
    if 4096 ≤ s.rng.cmds.length then raiseOnce 0 { code := 7 } s
    else if (findCmd s tag).isSome then s
    else
      let a := ringAddr s r (fld s (ringIndex r) 15 0) 64
      let (s, q) := dmaRead 5 18 (ringSpace s r) a 64 (noteLink [(a, ecc)] (ringCacheMet raise r s))
      let s := noteLink [] s
      if q.bad.isSome ∨ ecc = .uncorrected then sqFault r (q.bad.getD a) s else cmdStart tag r q.data s

/-- DESCRIPTOR_FETCH; `tag` is the free tag the engine takes, `hm` the bytes host software has stored before the
fetch, `ecc` how the read went: over Cellar's link (R366), or, uncorrected, an error of the PCIe link. -/
def execDescriptorFetch (tag : Fin 4096) (hm : Cells) (ecc : Ecc) (s : State) :
    Host.Outcome State Fault Refusal :=
  live s (fun s => descriptorFetch tag.val ecc (hostStore hm s))

/-! ## Completions (R162 to R169) -/

/-- A command leaves flight: its tag is free and counts as completed. -/
def releaseTag (c : Cmd) (s : State) : State :=
  let s := addReg (dropCmd c.tag s) (R.RNG_SQ_COMPLETED c.sq) 1
  let s := setFld s (R.RNG_SQ_INFLIGHT c.sq) 12 0 (fld s (R.RNG_SQ_INFLIGHT c.sq) 12 0 - 1)
  setFld s R.RNG_STATUS 12 0 (fld s R.RNG_STATUS 12 0 - 1)

/-- The eight words of a completion record (R162). -/
def completionWords (phase : Nat) (c : Cmd) (status n rebase r0 r1 r2 : Nat) : List Nat :=
  [phase * 2 ^ 31 + ofBool c.afterDrain * 2 ^ 30 + c.sq % 64 * 2 ^ 24 + status % 256 * 2 ^ 16 + c.tag % 4096, c.w 1,
   c.opcode * 2 ^ 16 + c.index % 65536, n, n / 2 ^ 32 % 65536 * 65536 + rebase % 65536, r0, r1, r2]

/-- Write a completion record into the CQ of a command, or let it wait or fail (R165, R168, R367). DEDUCED: log entry 52. -/
def completionPost (c : Cmd) (status r0 r1 r2 : Nat) (tick : Nat × Nat) (linkOk : Bool) (s : State) : State :=
  let q := fld s (ringCfg c.sq) 20 16
  let u := 64 + q
  if ringState s u ≠ 2 then
    raiseOnce (1000 + c.sq) { code := 3, unit := c.sq, sub := 1 } (releaseTag c s)
  else if ringFree s u = 0 then raiseOnce q { code := 6, unit := q } s
  else
    let a := ringAddr s u (fld s (ringIndex u) 15 0) 32
    let staged := granaryBad s (ringCache u) 0x1000
    let (s, bad) := dmaWrite 5 18 (ringSpace s u) a
      (wordBytes (completionWords (ringPhase s u) c status tick.1 tick.2 r0 r1 r2)) (ringCacheMet raise u s)
    if bad.isNone && !staged && (linkOk || decide (ringSpace s u = spCellar)) then releaseTag c (ringAdvance u s)
    else
      let s := ringDrain u (setFlag (releaseTag c s) (ringStatus u) 5 true)
      raise { code := 3, unit := u, sub := 1, a0 := a, a1 := a / 2 ^ 32 } s

/-- Are the commands fetched before a command on its SQ gone: an ORDERED SQ's records are written in descriptor order
(R166). -/
def firstOfSq (s : State) (c : Cmd) : Bool :=
  match s.rng.cmds.find? (fun d => d.sq = c.sq) with
  | some d => decide (d.tag = c.tag)
  | none => false

/-- Is a BARRIER's condition met (R167): no earlier command of its SQ, or of any SQ, is in flight. -/
def barrierMet (s : State) (c : Cmd) : Bool :=
  if bits (c.w 2) 1 0 = 0 then firstOfSq s c
  else match s.rng.cmds with
    | d :: _ => decide (d.tag = c.tag)
    | [] => false

/-- The completion of a command falls due: written as a record, or, for a SILENT command that succeeded, only
counted (R157). -/
def completionDue (c : Cmd) (status r0 r1 r2 : Nat) (tick : Option (Nat × Nat)) (linkOk : Bool) (s : State) : State :=
  if flag s (ringCfg c.sq) 3 && !firstOfSq s c then s
  else if bit (c.w 0) 8 && decide (status = stSuccess) then releaseTag c s
  else completionPost c status r0 r1 r2 (tick.getD (tickNow s)) linkOk s

/-- COMPLETION_WRITE: the completion of a finished command is written; a BARRIER whose condition is met finishes, a
GUARD barrier once the guards' older accesses have completed. -/
def execCompletionWrite (tag : Fin 4096) (linkOk : Bool) (s : State) : Host.Outcome State Fault Refusal :=
  live s (fun s =>
    match findCmd s tag.val with
    | none => s
    | some c =>
      match c.phase with
      | .due st r0 r1 r2 tick => completionDue c st r0 r1 r2 tick linkOk s
      | .waiting =>
        if c.opcode = 0x48 ∧ barrierMet s c then
          completionDue c stSuccess 0 0 0 none linkOk (waitUpdates (c.aux.headD 0) s)
        else s
      | .started => s)

/-! ## Commands of this chapter -/

/-- NOP completes with SUCCESS (R159). -/
def execNop (tag : Fin 4096) (s : State) : Host.Outcome State Fault Refusal :=
  live s (fun s => onCmd tag.val 0x01 s (fun c s => finish c.tag stSuccess 0 0 0 s))

/-- The counter update by which every access checked under an older GEN than the guards' present ones has
completed (R423). -/
def flightsEnd (s : State) : Nat :=
  s.flights.foldl (fun m f => if f.gen = fld s (R.GRD_STATUS f.guard) 31 16 then m else max m f.until_) 0

/-- BARRIER starts waiting for the commands before it, and with SCOPE GUARD for the guards' accesses (R167). -/
def execBarrier (tag : Fin 4096) (s : State) : Host.Outcome State Fault Refusal :=
  live s (fun s => onCmd tag.val 0x48 s (fun c s =>
    waitCmd c.tag [if bits (c.w 2) 1 0 = 2 then flightsEnd s else 0] s))

/-- EVT_PIN_ACK: the pin is released (R174). -/
def execEvtPinAck (pin : Fin 4) (s : State) : Host.Outcome State Fault Refusal :=
  live s (fun s => wr s (R.EVT_PIN_STATUS pin.val) 0)

/-! ## Enables and disables of units (R176 to R180) -/

/-- What a waiting command waits for: its unit to run, a drain to end, its unit to be off. -/
abbrev auxEnabling : Nat := 100
abbrev auxQueued : Nat := 101
abbrev auxDisabling : Nat := 102

/-- The commands of a unit that wait with a given purpose. -/
def unitWaiters (s : State) (kind u purpose : Nat) : List Cmd :=
  s.rng.cmds.filter (fun c =>
    decide (c.unit = some (kind, u)) && decide (c.phase = .waiting) && decide (c.aux.head? = some purpose))

/-- Does a unit hold a waiting enable (R180). -/
def enableQueued (s : State) (kind u : Nat) : Bool := !(unitWaiters s kind u auxQueued).isEmpty

/-- Finish every waiter of a unit with a purpose. -/
def finishWaiters (kind u purpose status : Nat) (s : State) : State :=
  (unitWaiters s kind u purpose).foldl (fun s c => finishNow c.tag status 0 0 0 s) s

/-- An enable command (R31, R176, R178, R180): behind a drain it waits, one waiting enable a unit; a unit that is not
OFF refuses it; a stopped tick refuses it; else `start` runs. DEDUCED: log entry 42. -/
def enableCmd (kind u : Nat) (c : Cmd) (start : Cmd → State → State) (s : State) : State :=
  let st := unitState s kind u
  if st = 3 then
    if enableQueued s kind u then finish c.tag stUnitState st 0 0 s else waitCmd c.tag [auxQueued] s
  else if st ≠ 0 then finish c.tag stUnitState st 0 0 s
  else if !flag s R.TCK_CTRL 0 then finish c.tag stTickStopped 0 0 0 s
  else start c s

/-- A disable command (R176, R180): of an OFF unit it completes at once with RESULT0 = 1; of a draining unit it
withdraws a waiting enable; else the unit drains and the command waits for OFF. DEDUCED: log entry 42. -/
def disableCmd (kind u : Nat) (c : Cmd) (drain : State → State) (s : State) : State :=
  let st := unitState s kind u
  if st = 0 then updCmd c.tag (fun c => { c with phase := .due stSuccess 1 0 0 (some (offTick s kind u)) }) s
  else if st = 3 then waitCmd c.tag [auxDisabling] (finishWaiters kind u auxQueued stAborted s)
  else waitCmd c.tag [auxDisabling] (drain s)

/-- A unit enters DRAINING; an enable that had not completed finishes. -/
def unitDrain (kind u : Nat) (s : State) : State :=
  setUnit kind u 3 (enableQueued s kind u) (finishWaiters kind u auxEnabling stSuccess s)

/-- A STARTING unit enters RUNNING; its enable completes at this seal (R169, R176). -/
def unitRuns (kind u : Nat) (s : State) : State :=
  finishWaiters kind u auxEnabling stSuccess (setUnit kind u 2 (enableQueued s kind u) s)

/-- A DRAINING unit reaches OFF; its disables complete (R169, R176). -/
def unitOff (kind u : Nat) (s : State) : State :=
  finishWaiters kind u auxDisabling stSuccess (setUnit kind u 0 (enableQueued s kind u) s)

/-- The unit has reached OFF: the enable that waited behind its drain executes as if it had just started, marked AFTER_DRAIN
(R178). -/
def runQueued (kind u : Nat) (start : Cmd → State → State) (s : State) : State :=
  (unitWaiters s kind u auxQueued).foldl (fun s c =>
    enableCmd kind u c start (updCmd c.tag (fun c => { c with phase := .started, afterDrain := true, aux := [] }) s)) s

end Sys2Proof.Machine
end

