-- ==== Sys2Proof/Machine/Tick.lean ====
section
/-!
DEFINITION. Machine/Tick.lean: tick instants, starting and stopping the tick, the budget pools and admission (R22 to
R33, R48 to R55). The seal itself stands in Machine/Seal.lean.
-/

namespace Sys2Proof.Machine

/-! ## Tick instants (R22 to R24) -/

/-- TICK_NUM, TICK_DEN, and TICK_PHASE in 2⁻³² ns. -/
def tickNum (s : State) : Nat := rd s R.TCK_PERIOD_NUM
def tickDen (s : State) : Nat := fld s R.TCK_PERIOD_DEN 15 0
def tickPhase (s : State) : Nat := fld s R.TCK_PHASE_NS 29 0 * nsUnit + rd s R.TCK_PHASE_FRAC

/-- T_N (R22). -/
def tickInstant (s : State) (n : Nat) : Nat := tickPhase s + n * tickNum s * 2 ^ 32 / tickDen s

/-- The smallest N with T_N at or after a time. -/
def tickFrom (s : State) (t : Nat) : Nat :=
  if t ≤ tickPhase s then 0 else ceilDiv ((t - tickPhase s) * tickDen s) (tickNum s * 2 ^ 32)

/-- tick_of(t) + 1: the smallest N with T_N after a time (R23). -/
def tickAfter (s : State) (t : Nat) : Nat := tickFrom s (t + 1)

/-- Does the timebase keep R24. -/
def timebaseValid (s : State) : Bool :=
  let a := tickNum s
  let d := tickDen s
  decide (1 ≤ d ∧ 25000000 * d ≤ 3 * a ∧ 3 * a ≤ 125125000 * d ∧ tickPhase s * d < a * 2 ^ 32)

/-- TCK_TIMEBASE_ID: CRC-32C over the four values. -/
def timebaseId (s : State) : Nat :=
  crc32c (wordBytes [tickNum s, tickDen s, fld s R.TCK_PHASE_NS 29 0, rd s R.TCK_PHASE_FRAC])

/-- Is RUN set. -/
def tickRun (s : State) : Bool := flag s R.TCK_CTRL 0

/-! ## Pools (R48 to R55) -/

/-- The state the sheaf checker meets has changed: SHF_GEN counts (R138). -/
def bumpGen (s : State) : State := genStep s

/-- Engines present of a pool: ENT, PIX, ENC0, ENC1. -/
def poolEngines (p : Part) (pool : Nat) : Nat :=
  if pool = 0 then Config.entropyEngines p else if pool = 1 then Config.pixelEngines p
  else if pool - 2 < Config.encPipes p then 1 else 0

/-- Engine clock in MHz at a throttle stage (R448). -/
def stageMhz (stage : Nat) : Nat := [800, 760, 640].getD stage 400

/-- Cycles per tick of one engine at a stage (R49). -/
def cyclesPerTick (s : State) (stage : Nat) : Nat := stageMhz stage * tickNum s / (1000 * tickDen s)

/-- GUARD_PM. -/
def guardPm (s : State) : Nat := fld s R.TCK_GUARD 9 0

/-- The limit that a capacity gives (R49). -/
def guardLimit (s : State) (cap : Nat) : Nat := cap * (1000 - guardPm s) / 1000

/-- Limits and engine limits follow the capacities and GUARD_PM (R49). -/
def poolLimits (s : State) : State :=
  let one := match s.tck.capStage with
    | some st => cyclesPerTick s st
    | none => 0
  let s := (List.range 4).foldl (fun s p => wr s (R.TCK_POOL_LIMIT p) (guardLimit s (rd s (R.TCK_POOL_CAP p)))) s
  let lims := (List.range 4).map (fun p => if poolEngines s.part p = 0 then 0 else guardLimit s one)
  { s with tck := { s.tck with engineLimit := lims } }

/-- BUDGET_SHORT reads 1 while committed cost exceeds capacity in any pool (R55). -/
def budgetShort (s : State) : State :=
  setFlag s R.TCK_STATUS 7
    ((List.range 4).any (fun p => decide (rd s (R.TCK_POOL_CAP p) < rd s (R.TCK_POOL_COMMITTED p))) && s.tck.capStage.isSome)

/-- Capacities are computed for a throttle stage (R49); a pool that no longer holds its commitments is reported
(R55). -/
def poolCapacity (stage : Nat) (s : State) : State :=
  let old := (List.range 4).map (fun p => rd s (R.TCK_POOL_CAP p))
  let s := (List.range 4).foldl (fun s p =>
    wr s (R.TCK_POOL_CAP p) (poolEngines s.part p * cyclesPerTick s stage)) s
  let s := poolLimits { s with tck := { s.tck with capStage := some stage } }
  let s := if (List.range 4).map (fun p => rd s (R.TCK_POOL_CAP p)) = old then s else bumpGen s
  (List.range 4).foldl (fun s p =>
    let c := rd s (R.TCK_POOL_COMMITTED p)
    if rd s (R.TCK_POOL_CAP p) < c then raise { code := 0x15, unit := p, a0 := c, a1 := rd s (R.TCK_POOL_CAP p) } s
    else s) (budgetShort s)

/-- At the first seal after RUN is set or after a stage change the capacities are computed (R49). DEDUCED: log entry 32. -/
def poolStep (s : State) : State :=
  if s.tck.capStage = some (appliedStage s) then s else poolCapacity (appliedStage s) s

/-- The shortfall of a cost in a pool: 0 where it is admitted (R51). -/
def poolShortfall (s : State) (pool cost freed : Nat) : Nat :=
  max (rd s (R.TCK_POOL_COMMITTED pool) - freed + cost - rd s (R.TCK_POOL_LIMIT pool))
    (cost - s.tck.engineLimit.getD pool 0)

/-- The lowest-numbered pool that refuses a session, with its shortfall (R51). -/
def admitFails (s : State) (costs : List (Nat × Nat)) : Option (Nat × Nat) :=
  costs.findSome? (fun (p, c) => if poolShortfall s p c 0 = 0 then none else some (p, poolShortfall s p c 0))

/-- A session's costs are charged at once (R51). DEDUCED: log entry 32. -/
def poolAdmit (kind unit : Nat) (costs : List (Nat × Nat)) (s : State) : State :=
  bumpGen (costs.foldl (fun s (p, c) =>
    let s := addReg s (R.TCK_POOL_COMMITTED p) c
    let s := addFld s (R.TCK_POOL_SESSIONS p) 7 0 1
    { s with tck := { s.tck with entries := s.tck.entries ++ [{ pool := p, kind := kind, unit := unit, cost := c }] } }) s)

/-- An empty BUDGET ledger: no session of the pool is left (R61). -/
def poolEmptied (p : Nat) (s : State) : State :=
  if s.tck.entries.any (fun e => decide (e.pool = p)) then s
  else setFld (wr s (R.TCK_POOL_COMMITTED p) 0) (R.TCK_POOL_SESSIONS p) 7 0 0

/-- A session's costs return to their pools (R53). -/
def uncommit (kind unit : Nat) (s : State) : State :=
  let mine := s.tck.entries.filter (fun e => decide (e.kind = kind ∧ e.unit = unit))
  if mine.isEmpty then s
  else
    let s := mine.foldl (fun s e =>
      let s := wr s (R.TCK_POOL_COMMITTED e.pool) (rd s (R.TCK_POOL_COMMITTED e.pool) - e.cost)
      setFld s (R.TCK_POOL_SESSIONS e.pool) 7 0 (fld s (R.TCK_POOL_SESSIONS e.pool) 7 0 - 1)) s
    let rest := s.tck.entries.filter (fun e => !decide (e.kind = kind ∧ e.unit = unit))
    let s := { s with tck := { s.tck with entries := rest } }
    budgetShort (bumpGen s)

/-! ## Starting and stopping (R27 to R31) -/

/-- EV_TICK_CFG_IGNORED with its sticky bit: 0 TB_INVALID, 1 CFG_IGNORED, 2 STOP_IGNORED. -/
def tickIgnored (why : Nat) (s : State) : State := raise { code := 0x10, sub := why } (setFlag s R.TCK_STATUS (4 + why) true)

/-- RUN is set (R27, R28). -/
def tickStart (s : State) : State :=
  if tickRun s then s
  else if !timebaseValid s then tickIgnored 0 s
  else
    let n := tickFrom s (s.clock + 100000 * nsUnit)
    { setFlag s R.TCK_CTRL 0 true with tck := { s.tck with next := some n, first := some n, capStage := none } }

/-- Is every head, source channel and encode session OFF (R30). -/
def unitsOff (s : State) : Bool :=
  (List.range 24).all (fun h => decide (unitState s 1 h = 0))
    && (List.range 96).all (fun c => decide (unitState s 0 c = 0))
    && (List.range 16).all (fun n => decide (unitState s 2 n = 0))

/-- RUN is cleared (R30, R49). -/
def tickStop (s : State) : State :=
  if !tickRun s then s
  else if !unitsOff s then tickIgnored 2 s
  else
    let s := raiseTotals s
    let caps := (List.range 4).any (fun p => decide (rd s (R.TCK_POOL_CAP p) ≠ 0))
    let s := setFlag (setFlag s R.TCK_CTRL 0 false) R.TCK_STATUS 0 false
    let s := (List.range 4).foldl (fun s p => wr (wr s (R.TCK_POOL_CAP p) 0) (R.TCK_POOL_LIMIT p) 0) s
    let s := { s with tck := { s.tck with next := none, first := none, capStage := none, engineLimit := [0, 0, 0, 0] } }
    budgetShort (if caps then bumpGen s else s)

/-- TICK_RUN_START and TICK_RUN_STOP. -/
def execTickRunStart (s : State) : Host.Outcome State Fault Refusal := live s tickStart
def execTickRunStop (s : State) : Host.Outcome State Fault Refusal := live s tickStop

/-- A write to one of the timebase registers: NUM, DEN, PHASE_NS, PHASE_FRAC (R29). -/
def timebaseWrite (reg v : Nat) (s : State) : State :=
  if tickRun s then tickIgnored 1 s
  else if reg = 0 then wr s R.TCK_PERIOD_NUM v
  else if reg = 1 then wr s R.TCK_PERIOD_DEN (bits v 15 0)
  else if reg = 2 then wr s R.TCK_PHASE_NS (bits v 29 0)
  else wr s R.TCK_PHASE_FRAC v

/-- TICK_TIMEBASE_WRITE. -/
def execTickTimebaseWrite (reg : Fin 4) (v : Word) (s : State) : Host.Outcome State Fault Refusal :=
  live s (timebaseWrite reg.val v.toNat)

/-- A write to TCK_GUARD (R49, R50). -/
def guardPmWrite (v : Nat) (s : State) : State :=
  let s := wr s R.TCK_GUARD (clampNat 50 500 (bits v 9 0))
  if tickRun s then poolLimits s else s

/-- GUARD_PM_WRITE. -/
def execGuardPmWrite (v : Word) (s : State) : Host.Outcome State Fault Refusal := live s (guardPmWrite v.toNat)

/-- TCK_N_READ: a read of TCK_N_LO latches TCK_N_HI. -/
def execTckNRead (s : State) : Host.Outcome State Fault Refusal := live s (wideLatch R.TCK_N_LO R.TCK_N_HI)

/-! ## Steps of the local clock (R32, R33, R488) -/

/-- The tick after a step of the clock from `old` to its present value. DEDUCED: log entry 31. -/
def tickStepped (old : Nat) (s : State) : State :=
  let d : Int := (s.clock : Int) - (old : Int)
  let ns := uint 64 (Int.tdiv d (nsUnit : Int))
  let after := tickAfter s s.clock
  if 0 ≤ d then
    let (s, k) := match s.tck.next with
      | none => (s, 0)
      | some n =>
        let m := max n after
        ({ addReg s R.TCK_SKIPPED (m - n) with tck := { s.tck with next := some m } }, m - n)
    raise { code := 0x11, sub := 0, a0 := ns, a1 := ns / 2 ^ 32, a2 := k } s
  else
    let s := addFld s R.TCK_REBASE 15 0 1
    let next := match s.tck.next, s.tck.first with
      | none, _ => none
      | some _, some f => some f
      | some _, none => some after
    raise { code := 0x11, sub := 1, a0 := ns, a1 := ns / 2 ^ 32 } { s with tck := { s.tck with next := next } }

end Sys2Proof.Machine
end

