-- ==== Sys2Proof/Machine/Store.lean ====
section
/-!
DEFINITION. Machine/Store.lean: the frame stores of source channels and the provenance records of their frames: slot
states (R260), capture times (R65 to R69), tell-tale signatures (R70), run fields (R71), records (R64), slot headers
(R258, R277), frame and cycle credits (R54) and over-declared rejections.
-/

namespace Sys2Proof.Machine

/-! ## Channels and slots -/

/-- A source channel's state beside its registers. -/
def chanAt (s : State) (c : Nat) : Chan := smGet (fun _ => {}) s.chans c
def setChan (c : Nat) (x : Chan) (s : State) : State := { s with chans := smSet (fun _ => {}) s.chans c x }

/-- A slot of a channel. -/
def slotAt (s : State) (c k : Nat) : Slot := smGet (fun _ => {}) (chanAt s c).slots k
def setSlot (c k : Nat) (x : Slot) (s : State) : State :=
  let ch := chanAt s c
  setChan c { ch with slots := smSet (fun _ => {}) ch.slots k x } s

/-- Kind of a channel's current or last open (R221): 0 COMPRESSED, 1 NATIVE, 2 HOST. -/
def srcKind (s : State) (c : Nat) : Nat := fld s (R.SRC_STATE c) 5 4

/-- Fields of a channel's declaration (R160). -/
def declW (s : State) (c : Nat) : Nat := fld s (R.SRC_DECL c 0) 15 0
def declH (s : State) (c : Nat) : Nat := fld s (R.SRC_DECL c 0) 31 16
def declRate (s : State) (c : Nat) : Nat := rd s (R.SRC_DECL c 1)
def declCodec (s : State) (c : Nat) : Nat := fld s (R.SRC_DECL c 2) 7 0
def declDepth (s : State) (c : Nat) : Nat := fld s (R.SRC_DECL c 2) 27 24
def declLat (s : State) (c : Nat) : Nat := rd s (R.SRC_DECL c 4)
def poolSize (s : State) (c : Nat) : Nat := fld s (R.SRC_DECL c 5) 4 0

/-- The format of a channel's frames: decoded frames by DEPTH (R259, R282), others as declared. -/
def srcFormat (s : State) (c : Nat) : Nat :=
  if srcKind s c = 0 then (if declDepth s c = 8 then 0x10 else 0x11) else fld s (R.SRC_DECL c 6) 15 0

/-- The Cellar address of a slot (R160). -/
def slotBase (s : State) (c k : Nat) : Nat :=
  rd64 s (R.SRC_POOL_BASE_LO c) (R.SRC_POOL_BASE_HI c) + k * rd s (R.SRC_SLOT_STRIDE c)

/-- State code of a slot: the first condition that holds (R260). -/
def Slot.state (x : Slot) : Nat :=
  if x.readers ≠ 0 then 2 else if x.decoding then 1 else if x.enc ≠ 0 then 4 else if x.ref || x.wait || x.kept then 3 else 0
def slotState (s : State) (c k : Nat) : Nat := (slotAt s c k).state

/-- Slots of a channel in a state. -/
def slotsIn (s : State) (c st : Nat) : Nat :=
  ((List.range (poolSize s c)).filter (fun k => decide (slotState s c k = st))).length

/-- The lowest-numbered FREE slot. -/
def freeSlot (s : State) (c : Nat) : Option Nat :=
  (List.range (poolSize s c)).find? (fun k => decide (slotState s c k = 0))

/-- Change a slot; one that nothing holds any more is FREE and keeps nothing of its frame. -/
def updSlot (c k : Nat) (f : Slot → Slot) (s : State) : State :=
  let x := f (slotAt s c k)
  setSlot c k (if x.state = 0 then {} else x) s

/-- A frame leaves its slot at once. -/
def dropSlot (c k : Nat) (s : State) : State := setSlot c k {} s

/-! ## Provenance records (R64) -/

/-- BAR4 offset of the record of a slot, and of a writeback buffer (R64, R293). -/
def recAddr (c k : Nat) : Nat := 0x01A40000 + (16 * c + k) * 64
def wbRecAddr (h k : Nat) : Nat := 0x01A58000 + (8 * h + k) * 64

/-- A word and its one's complement. -/
def withComplement (v : Nat) : List Nat := [v % 2 ^ 32, v % 2 ^ 32 ^^^ 0xFFFFFFFF]

/-- Seconds, nanoseconds and fraction of a capture time, which may precede the epoch. -/
def capSec (t : Int) : Nat := uint 48 (t / (secUnit : Int))
def capNs (t : Int) : Nat := (t % (secUnit : Int)).toNat / nsUnit
def capFrac (t : Int) : Nat := (t % (nsUnit : Int)).toNat

/-- The ten words of ID, SEQ and capture time, each Husk-protected (R64). -/
def recIdWords (channel id seq : Nat) (cap : Int) : List Nat :=
  let ns := capNs cap
  withComplement (channel % 128 * 2 ^ 18 + id % 2 ^ 18) ++ withComplement seq ++ withComplement (capSec cap)
    ++ withComplement (capSec cap / 2 ^ 32 * 2 ^ 16 + ns / 2 ^ 14)
    ++ withComplement (ns % 2 ^ 14 * 2 ^ 18 + capFrac cap / 2 ^ 14)

/-- Units of 16 ns, rounded down. -/
def unit16 (t : Int) : Int := t / ((16 * nsUnit : Nat) : Int)

/-- ARRIVAL and DECODE of a record. DEDUCED: log entry 54. -/
def recArrival (arrival : Nat) (cap : Int) : Nat :=
  uint 32 (clampInt (-2147483648) 2147483647 (unit16 ((arrival : Int) - cap)))
def recDecode (done arrival : Nat) : Nat := min ((done - arrival) / (16 * nsUnit)) 0xFFFFFFFF

/-- Write 32-bit words from a Granary address on: a fixed-function block's own access (R412). -/
def gWords (a : Nat) (ws : List Nat) (s : State) : State := gWrite s a (wordBytes ws)

/-- A word of a record. -/
def recWord (s : State) (a i : Nat) : Nat := gRead32 s (a + 4 * i)

/-- FLAGS fields of a record. -/
def recFlags (s : State) (a : Nat) : Nat := recWord s a 12
def recTaints (s : State) (a : Nat) : Nat := bits (recFlags s a) 5 0
def recSigValid (s : State) (a : Nat) : Bool := bit (recFlags s a) 11
def recRepeat (s : State) (a : Nat) : Bool := bit (recFlags s a) 10
def recSigRun (s : State) (a : Nat) : Nat := bits (recWord s a 14) 7 0
def recSpan (s : State) (a : Nat) : Nat := recWord s a 15

/-- Are the Husk words of a record sound, and free of uncorrectable errors (R75, R367). -/
def recSound (s : State) (a : Nat) : Bool :=
  !granaryBad s a 64 && (List.range 5).all (fun i =>
    decide (recWord s a (2 * i + 1) = recWord s a (2 * i) ^^^ 0xFFFFFFFF))

/-- The first pair of a record that is unsound. -/
def recBadPair (s : State) (a : Nat) : Nat × Nat :=
  match (List.range 5).find? (fun i => decide (recWord s a (2 * i + 1) ≠ recWord s a (2 * i) ^^^ 0xFFFFFFFF)) with
  | some i => (recWord s a (2 * i), recWord s a (2 * i + 1))
  | none => (recWord s a 0, recWord s a 1)

/-! ## Capture time (R65 to R69) -/

/-- A time known modulo 2⁴⁸ s, placed nearest to the arrival time; of two equally near the earlier (R69). -/
def extendTime (arrival t : Nat) : Nat :=
  let p := 2 ^ 48 * secUnit
  let r := t % p
  let b := arrival / p
  let cs := ([b - 1, b, b + 1].filter (fun u => decide (u < 65536))).map (fun u => u * p + r)
  let dist (x : Nat) : Nat := if x ≤ arrival then arrival - x else x - arrival
  cs.foldl (fun best x => if dist x < dist best ∨ (dist x = dist best ∧ x < best) then x else best) (b % 65536 * p + r)

/-- The inferred time: arrival minus the declared latency (R68). -/
def inferTime (arrival lat : Nat) : Int := (arrival : Int) - ((lat * 1000 * nsUnit : Nat) : Int)

/-- A capture time with its origin: TIME_ORIGIN, INFERRED_TIME, TIME_DISAGREE. -/
structure CapTime where
  t : Int
  origin : Nat := 0
  inferred : Bool := false
  disagree : Bool := false
deriving DecidableEq, Repr

/-- The chosen origin, when it lies within 2³¹ s of the arrival time, else the inferred time (R69). DEDUCED: log entry 54. -/
def capFrom (arrival lat : Nat) (chosen : Option (Nat × Nat)) : CapTime :=
  match chosen with
  | some (t, o) =>
    let d := if t ≤ arrival then arrival - t else t - arrival
    if 2 ^ 31 * secUnit < d then { t := inferTime arrival lat, inferred := true } else { t := (t : Int), origin := o }
  | none => { t := inferTime arrival lat, inferred := true }

/-- Capture time of a NATIVE (origin 2) or HOST (origin 3) frame, its stamp given modulo 2⁴⁸ s when valid. -/
def capStamp (arrival lat origin : Nat) (stamp : Option Nat) : CapTime :=
  capFrom arrival lat (stamp.map (fun t => (extendTime arrival t, origin)))

/-- Capture time of a COMPRESSED frame from its SEI and RTCP times (R65, R66). -/
def capCompressed (s : State) (c arrival : Nat) (sei rtcp : Option Nat) : CapTime :=
  let sei := sei.map (extendTime arrival)
  let rtcp := rtcp.map (extendTime arrival)
  let sel := lfld s (R.WIN_S_TIME c) 1 0
  let tol := lfld s (R.WIN_S_TIME c) 23 8 * 1000 * nsUnit
  let dis := match sei, rtcp with
    | some a, some b => decide (tol < (if a ≤ b then b - a else a - b))
    | _, _ => false
  let byRtcp := rtcp.map (fun t => (t, 0))
  let bySei := sei.map (fun t => (t, 1))
  let chosen := if sel = 3 then none else if sel = 1 then bySei else if sel = 2 then byRtcp
    else match sei, rtcp with
      | some a, some b => if a ≤ b then some (a, 1) else some (b, 0)
      | some _, none => bySei
      | none, _ => byRtcp
  { capFrom arrival (declLat s c) chosen with disagree := dis }

/-- EV_TIME_DISAGREE (R66). -/
def timeDisagree (c arrival : Nat) (sei rtcp : Option Nat) (s : State) : State :=
  let a := timeArg (extendTime arrival (sei.getD 0))
  let b := timeArg (extendTime arrival (rtcp.getD 0))
  raiseOnce c { code := 0x20, unit := c, a0 := a, a1 := a / 2 ^ 32, a2 := b, a3 := b / 2 ^ 32 } s

/-! ## Tell-tale signatures (R70) -/

/-- One sample of a tell-tale window: luma of a planar format, Y or G of a word format. -/
def lumaSample (fmt : Nat) (bs : List Byte) : Nat :=
  match fmt with
  | 0x10 => ofLe (bs.take 1)
  | 0x11 => bits (ofLe (bs.take 2)) 9 0
  | 0x20 | 0x42 => bits (ofLe (bs.take 4)) 19 10
  | 0x21 | 0x22 => bits (ofLe (bs.take 4)) 29 20
  | _ => ofLe ((bs.drop 1).take 1)

/-- The window's samples of a slot's picture, in raster order, two bytes each (R70). DEDUCED: log entry 54. -/
def windowBytes (s : State) (base : Nat) (x : Slot) (wx wy w h : Nat) : List Byte :=
  let b := fmtBytes x.fmt
  (List.range h).flatMap (fun j =>
    let row := base + 0x1000 + (x.top + wy + j) * x.pitch
    (List.range w).flatMap (fun i => leBytes 2 (lumaSample x.fmt (memBytes s spCellar (row + (x.left + wx + i) * b) b))))

/-- The signature of a frame: none when the window is disabled or does not fit; `true` beside it when it does not
fit (R70). -/
def signature (s : State) (c k : Nat) : Option Nat × Bool :=
  let x := slotAt s c k
  let size := lrd s (R.WIN_S_TT_SIZE c)
  let pos := lrd s (R.WIN_S_TT_POS c)
  let w := bits size 8 0
  let h := bits size 22 16
  let wx := bits pos 11 0
  let wy := bits pos 27 16
  if !bit size 31 then (none, false)
  else if 1 ≤ w ∧ w ≤ 256 ∧ 1 ≤ h ∧ h ≤ 64 ∧ wx + w ≤ x.width ∧ wy + h ≤ x.height then
    (some (crc32c (windowBytes s (slotBase s c k) x wx wy w h)), false)
  else (none, true)

/-! ## Run fields (R71) -/

/-- SIG_RUN, RUN_SPAN and STAMP_REPEAT of a frame against the previous one of its source. DEDUCED: log entry 54. -/
def runFields (prev : Option PrevFrame) (cap : Int) (sig : Option Nat) : Nat × Nat × Bool :=
  match prev with
  | none => (1, 0, false)
  | some p =>
    let run := if sig.isSome ∧ p.sig = sig then min (p.run + 1) 255 else 1
    let diff := (cap - p.cap) / ((1000 * nsUnit : Nat) : Int)
    let span := if run = 1 then 0 else min (p.span + diff.toNat) 0xFFFFFFFF
    (run, span, decide (cap ≤ p.cap))

/-- The capture time of the first frame of the signature run that a frame with SIG_RUN `run` ends (R71, R88). -/
def runOrigin (prev : Option PrevFrame) (cap : Int) (run : Nat) : Int :=
  match prev with
  | some p => if run = 1 then cap else p.first
  | none => cap

/-! ## A frame's life in its slot -/

/-- The six header words beside FORMAT and SEQ, and the header of a slot (R258). DEDUCED: log entry 54. -/
def headerWords (x : Slot) (codedW codedH : Nat) : List Nat :=
  [x.fmt, codedH * 2 ^ 16 + codedW, x.top * 2 ^ 16 + x.left, x.height * 2 ^ 16 + x.width, x.pitch, x.chroma, x.colour,
   x.seq, uint 32 x.poc] ++ List.replicate 55 0

/-- A frame takes a slot: header words 0 to 9 and ARRIVAL of its record are written, and SRC_s_FRAMES counts
(R64). -/
def takeSlot (c k : Nat) (x : Slot) (idWords : List Nat) (s : State) : State :=
  let s := setSlot c k x s
  let s := gWords (recAddr c k) (idWords ++ [recArrival x.arrival x.cap, 0, 0, 0, k * 2 ^ 8, 0]) s
  addReg s (R.SRC_FRAMES c) 1

/-- A frame completes: its signature and run fields are computed and its record is completed (R64, R70, R71). -/
def completeRecord (c k : Nat) (s : State) : State :=
  let x := slotAt s c k
  let (sig, misfit) := signature s c k
  let s := if misfit then raiseOnce c { code := 0x21, unit := c, a0 := x.height * 2 ^ 16 + x.width } s else s
  let (run, span, rep) := runFields (chanAt s c).prev x.cap sig
  let flags := srcKind s c * 2 ^ 13 + ofBool x.disagree * 2 ^ 12 + ofBool sig.isSome * 2 ^ 11 + ofBool rep * 2 ^ 10
    + x.origin * 2 ^ 8 + x.taints
  let dec := match x.done with
    | some d => recDecode d x.arrival
    | none => 0
  let s := gWords (recAddr c k + 0x2C) [dec, flags, sig.getD 0, k * 2 ^ 8 + run, span] s
  let first := runOrigin (chanAt s c).prev x.cap run
  let s := setSlot c k { x with first := first } s
  let s := setChan c { chanAt s c with prev := some { cap := x.cap, sig := sig, run := run, span := span, first := first } } s
  let s := wr s (R.WIN_S_SIG c) (sig.getD 0)
  wr s (R.WIN_S_RUN c) (ofBool sig.isSome * 2 ^ 10 + ofBool rep * 2 ^ 9 + run)

/-! ## Credits and rejections (R54) -/

/-- One frame in units of frame credit: 1/(10¹² · TICK_DEN) frame. -/
def frameUnit (s : State) : Nat := 10 ^ 12 * tickDen s

/-- The credits earned at a seal: declared rate times the period, up to 2 frames; admitted cost, up to 4 ticks' cost
(R54). DEDUCED: log entries 32, 53. -/
def earnCredits (c : Nat) (s : State) : State :=
  let x := chanAt s c
  let ce := rd s (R.VDC_S_COST_ENT c)
  let cp := rd s (R.VDC_S_COST_PIX c)
  setChan c { x with credit := min (x.credit + declRate s c * tickNum s) (2 * frameUnit s)
                     entCredit := min (x.entCredit + ce) (4 * ce)
                     pixCredit := min (x.pixCredit + cp) (4 * cp) } s

/-- The credits a session starts with (R252). DEDUCED: log entry 53. -/
def startCredits (c : Nat) (s : State) : State :=
  setChan c { chanAt s c with credit := 2 * frameUnit s
                              entCredit := 4 * rd s (R.VDC_S_COST_ENT c)
                              pixCredit := 4 * rd s (R.VDC_S_COST_PIX c) } s

/-- Is one frame credit left. -/
def creditLeft (s : State) (c : Nat) : Bool := decide (frameUnit s ≤ (chanAt s c).credit)

/-- Spend one frame credit, or give one back. -/
def spendFrame (c : Nat) (s : State) : State :=
  let x := chanAt s c
  setChan c { x with credit := x.credit - frameUnit s } s
def refundFrame (c : Nat) (s : State) : State :=
  let x := chanAt s c
  setChan c { x with credit := min (x.credit + frameUnit s) (2 * frameUnit s) } s

/-- An OVER_DECLARED rejection: counted and raised once a channel and tick (R54, R240). Checks: 0 size, 1 format,
2 rate, 3 work. -/
def overDeclared (c check pool : Nat) (s : State) : State :=
  raiseOnce c { code := 0x14, unit := c, sub := check, a0 := pool } (addReg s (R.SRC_OVER_DECL c) 1)

/-- A rejection of R239 or R240. -/
def srcRejected (c : Nat) (s : State) : State := addReg s (R.SRC_REJECTED c) 1

/-- The device is in QUIET (R440, R441). -/
def quiet (s : State) : Bool := decide (powerState s = 1)

end Sys2Proof.Machine
end

