-- ==== Sys2Proof/Machine/Vestibule.lean ====
section
/-!
DEFINITION. Machine/Vestibule.lean: MAC receive, classification, the flow table, RTP sequence handling,
depacketisation, and the receive and transmit paths (R217 to R236).
-/

namespace Sys2Proof.Machine

/-! ## Flows -/

/-- A flow's state beside its registers. -/
def flowAt (s : State) (f : Nat) : Flow := smGet (fun _ => {}) s.flows f
def setFlow (f : Nat) (x : Flow) (s : State) : State := { s with flows := smSet (fun _ => {}) s.flows f x }

/-- Vestibule descriptors of a channel in use, by number (R227). -/
def descBusy (s : State) (c : Nat) : List Nat :=
  let held := s.flows.flatMap (fun (_, x) => if x.chan = some c then x.held.map Pkt.desc else [])
  let out := (chanAt s c).released.filterMap (fun i => match i with
    | .data p => some p.desc
    | .loss _ => none)
  held ++ out

/-- The lowest free descriptor of a channel. DEDUCED: log entry 61. -/
def descFree (s : State) (c : Nat) : Option Nat :=
  let busy := descBusy s c
  (List.range 256).find? (fun d => !busy.contains d)

/-- Counts, NEXT, history and latched SSRC of a flow return to 0 or empty (R230). -/
def flowReset (f : Nat) (s : State) : State :=
  let x := flowAt s f
  let s := setFlow f { keyA := x.keyA, keyB := x.keyB, chan := x.chan, lastChan := x.lastChan, acceptA := s.elapsed,
                       acceptB := s.elapsed } s
  let s := wr (wr (wr s (R.VST_FLOW_SSRC f) 0) (R.VST_FLOW_LOST f) 0) (R.VST_FLOW_RESTARTS f) 0
  setFld s (R.VST_FLOW_STATE f) 28 27 0

/-- Bind a flow to a channel, and end a binding. -/
def flowBind (f c : Nat) (s : State) : State :=
  let s := flowReset f (setFlow f { flowAt s f with chan := some c, lastChan := some c } s)
  setFld (setFlag s (R.VST_FLOW_STATE f) 29 true) (R.VST_FLOW_STATE f) 6 0 c
def flowUnbind (f : Nat) (s : State) : State :=
  let s := setFlow f { flowAt s f with chan := none } s
  setFld (setFlag s (R.VST_FLOW_STATE f) 29 false) (R.VST_FLOW_STATE f) 6 0 0

/-- The flow bound to a channel. -/
def flowOf (s : State) (c : Nat) : Option Nat :=
  (s.flows.find? (fun (_, x) => decide (x.chan = some c))).map (fun p => p.1)

/-- Hand an item to a channel's depacketiser. -/
def release (c : Nat) (i : BsItem) (s : State) : State :=
  let x := chanAt s c
  setChan c { x with released := x.released ++ [i] } s

/-- Put a packet among the held ones, in sequence order from NEXT. -/
def insertHeld (next : Nat) (p : Pkt) : List Pkt → List Pkt
  | [] => [p]
  | q :: qs =>
    if (p.seq + 65536 - next) % 65536 < (q.seq + 65536 - next) % 65536 then p :: q :: qs
    else q :: insertHeld next p qs

/-- Note sequence numbers passed in the history of 1,024 below NEXT. DEDUCED: log entry 61. -/
def noteHist (x : Flow) (first n : Nat) (got : Bool) : Flow :=
  let k := min n 1024
  let new := (List.range k).map (fun i => ((first + n - k + i) % 65536, got))
  let h := x.hist ++ new
  { x with hist := h.drop (h.length - 1024), next := some ((first + n) % 65536) }

/-- A malformed packet (R224). -/
def countMalformed (f : Nat) (s : State) : State :=
  let x := flowAt s f
  let s := setFlow f { x with malformed := x.malformed + 1 } s
  raiseOnce f { code := 0x60, unit := f, a0 := x.malformed + 1 } s

/-- The Granary bytes of a channel's packet descriptor (R11, R367). -/
def descAddr (c d : Nat) : Nat := 0x01900000 + 0x2000 * c + 32 * d

/-- A packet that is held no longer goes to the depacketiser and counts as used; one whose descriptor holds an uncorrectable
word counts as malformed, and its place as lost (R226, R367). DEDUCED: log entry 65. -/
def releasePacket (f c : Nat) (p : Pkt) (s : State) : State :=
  let a := descAddr c p.desc
  if granaryBad s a 32 then release c (.loss 1) (countMalformed f (granaryHeal a 32 (granaryMet a 32 s)))
  else release c (.data p) (setFlow f { flowAt s f with used := (flowAt s f).used + 1 } s)

/-- Release the contiguous held packets from NEXT (R225); the held list is in sequence order. -/
def releaseRun (f c : Nat) : List Pkt → State → State
  | [], s => s
  | p :: ps, s =>
    let x := flowAt s f
    if x.next = some p.seq then
      releaseRun f c ps (releasePacket f c p (setFlow f (noteHist { x with held := ps } p.seq 1 true) s))
    else s

/-- Release every held packet in sequence order (R222, R228). -/
def releaseAll (f c : Nat) (s : State) : State :=
  let x := flowAt s f
  x.held.foldl (fun s p => releasePacket f c p s) (setFlow f { x with held := [] } s)

/-- Declare the n sequence numbers from NEXT lost: one loss report, LOST, EV_PACKET_LOSS with the first and the number of
the tick (R226). DEDUCED: log entries 61, 83. -/
def declareLost (f c n : Nat) (s : State) : State :=
  let x := flowAt s f
  let first := x.next.getD 0
  let s := setFlow f (noteHist x first n false) s
  let s := addReg (release c (.loss n) s) (R.VST_FLOW_LOST f) n
  raiseTotal 0x62 c first n s

/-- The window advances to a new NEXT: empty positions below it are lost, held packets below it released (R225). -/
def advanceTo (f c target : Nat) : Nat → State → State
  | 0, s => s
  | fuel + 1, s =>
    let x := flowAt s f
    let next := x.next.getD 0
    let left := (target + 65536 - next) % 65536
    if left = 0 ∨ 32768 ≤ left then s
    else
      let gap := match x.held with
        | [] => left
        | p :: _ => min left ((p.seq + 65536 - next) % 65536)
      let s := if gap = 0 then s else declareLost f c gap s
      advanceTo f c target fuel (releaseRun f c (flowAt s f).held s)

/-- A late packet (R225, R231). DEDUCED: log entry 61. -/
def countLate (f c n : Nat) (event : Bool) (s : State) : State :=
  if n = 0 then s
  else
    let x := flowAt s f
    let s := setFlow f { x with late := x.late + n } s
    if event then raiseOnce c { code := 0x61, unit := c, a0 := x.late + n } s else s

/-- The guard and port of the Vestibule and of entropy bitstream rings (R356, R411). -/
def vstWrite (a : Nat) (bs : List Byte) (s : State) : State := (dmaWrite 24 15 spCellar a bs s).1

/-- A channel's part of the Vestibule's Cellar region (R233). -/
def vstBase (s : State) (c : Nat) : Nat :=
  rd64 s R.VST_CELLAR_BASE_LO R.VST_CELLAR_BASE_HI + c * 0x800000

/-- A packet is held: it takes a descriptor and its payload buffer, and contiguous packets are released (R225,
R227). -/
def holdPacket (f c : Nat) (p : RtpPkt) (rx desc : Nat) (s : State) : State :=
  let x := flowAt s f
  let q : Pkt := { seq := p.seq, rx := rx, at_ := s.elapsed, rtp := p.ts, marker := p.marker, desc := desc,
                   payload := p.payload }
  let next := x.next.getD p.seq
  let s := setFlow f { x with next := some next, held := insertHeld next q x.held } s
  let s := vstWrite (vstBase s c + desc * 9216) p.payload s
  releaseRun f c (flowAt s f).held s

/-- A packet without a free descriptor is discarded and counts as late; EV_REORDER_FULL carries how many in the tick
(R227). DEDUCED: log entry 83. -/
def reorderFull (f c : Nat) (s : State) : State := raiseTotal 0x66 c 0 1 (countLate f c 1 false s)

/-- A packet that is neither duplicate nor late: held when a descriptor is free (R227). -/
def acceptPacket (f c : Nat) (p : RtpPkt) (rx : Nat) (before : State → State) (s : State) : State :=
  match descFree s c with
  | none => reorderFull f c s
  | some d => holdPacket f c p rx d (before s)

/-- The last sequence numbers of consecutive packets far outside the window (R225). -/
def farNext (far : List Nat) (q : Nat) : List Nat :=
  match far with
  | [] => [q]
  | a :: rest => if q = (a + 1) % 65536 then q :: a :: rest else [q]

/-- A restart (R228). DEDUCED: log entry 61. -/
def flowRestart (f c : Nat) (p : RtpPkt) (rx : Nat) (s : State) : State :=
  let s := release c (.loss 0) (releaseAll f c s)
  let s := setFlow f { flowAt s f with next := some p.seq, hist := [], far := [] } s
  acceptPacket f c p rx id (addReg s (R.VST_FLOW_RESTARTS f) 1)

/-- A packet of a running flow by its place d in the window (R225). DEDUCED: log entry 61. -/
def sequencePacket (f c : Nat) (p : RtpPkt) (rx : Nat) (s : State) : State :=
  let x := flowAt s f
  let next := x.next.getD p.seq
  let d := (p.seq + 65536 - next) % 65536
  let near := setFlow f { x with far := [] } s
  if d < 256 then
    if x.held.any (fun q => decide (q.seq = p.seq)) then setFlow f { x with far := [], dup := x.dup + 1 } s
    else acceptPacket f c p rx id near
  else if d < 32768 then
    acceptPacket f c p rx (fun s => advanceTo f c ((p.seq + 65536 - 255) % 65536) 600 s) near
  else if 64512 ≤ d then
    if x.hist.any (fun h => decide (h.1 = p.seq) && h.2) then setFlow f { x with far := [], dup := x.dup + 1 } s
    else countLate f c 1 true near
  else
    let far := farNext x.far p.seq
    if 4 ≤ far.length then flowRestart f c p rx s
    else countLate f c 1 true (setFlow f { x with far := far } s)

/-- Does key A or B of a flow match the SSRC field (M_SSRC). -/
def keyMatchesSsrc (key : List Nat) : Bool := bit (key.getD 0 0) 28

/-- The packet of R224's checks, none when malformed. -/
def checkedRtp (s : State) (c f : Nat) (key : List Nat) (u : UdpPkt) : Option RtpPkt :=
  match parseRtp u.payload with
  | none => none
  | some p =>
    let other := match (flowAt s f).ssrc with
      | some x => !keyMatchesSsrc key && decide (x ≠ p.ssrc)
      | none => false
    if !u.ipOk || !u.udpOk || other || !payloadSupported (declCodec s c) p.payload then none else some p

/-- A path accepts a packet: its SILENT bit clears (R229). DEDUCED: log entry 61. -/
def pathAccepts (f : Nat) (pathB : Bool) (s : State) : State :=
  let x := flowAt s f
  let s := setFlow f (if pathB then { x with acceptB := s.elapsed } else { x with acceptA := s.elapsed }) s
  setFlag s (R.VST_FLOW_STATE f) (if pathB then 27 else 28) false

/-- The flow's first packet since its counts were reset latches the SSRC, where it holds one (R224). DEDUCED: log entry
61. -/
def latchSsrc (f : Nat) (u : UdpPkt) (s : State) : State :=
  let x := flowAt s f
  if x.ssrc.isSome ∨ u.payload.length < 12 then s
  else wr (setFlow f { x with ssrc := some (beAt u.payload 8 4) } s) (R.VST_FLOW_SSRC f) (beAt u.payload 8 4)

/-- The receive timestamp under which a flow's packet is handled: packets are handled in the order of their commands, which
is that of their timestamps, path A first between equal ones (R225). DESIGN CHOICE: log entry 89. -/
def flowStamp (x : Flow) (pathB : Bool) (rx : Nat) : Nat := max rx (x.lastRx + ofBool (x.lastB && !pathB))

/-- A packet of a bound flow whose channel is not OFF (R224, R225, R231, R441). DEDUCED: log entry 61. -/
def flowPacket (f c : Nat) (pathB : Bool) (key : List Nat) (u : UdpPkt) (stamp : Nat) (s : State) : State :=
  let x := flowAt s f
  let rx := flowStamp x pathB stamp
  let x := { x with lastRx := rx, lastB := pathB }
  let s := setFlow f (if pathB then { x with arrivedB := x.arrivedB + 1 } else { x with arrivedA := x.arrivedA + 1 }) s
  let s := latchSsrc f u s
  match checkedRtp s c f key u with
  | none => countMalformed f s
  | some p =>
    let s := pathAccepts f pathB s
    if unitState s 0 c = 3 then countLate f c 1 true s
    else if quiet s then countLate f c 1 false s
    else sequencePacket f c p rx s

/-! ## Classification (R218, R219) -/

/-- Does a frame match a key (words 3 to 14 of its FLOW_ADD). -/
def keyMatches (key : List Nat) (mac : Nat) (vlan : Option Nat) (u : UdpPkt) : Bool :=
  let k (i : Nat) : Nat := key.getD (i - 3) 0
  let m (i : Nat) : Bool := bit (k 3) i
  let p := u.payload
  decide (bits (k 3) 18 16 = mac) && (m 31 == u.v6) && decide ([k 8, k 9, k 10, k 11] = u.dst)
    && decide (bits (k 12) 15 0 = u.dport)
    && (!m 30 || decide ([k 4, k 5, k 6, k 7] = u.src)) && (!m 29 || decide (bits (k 12) 31 16 = u.sport))
    && (!m 28 || (decide (12 ≤ p.length) && decide (beAt p 8 4 = k 13)))
    && (!m 27 || decide (vlan = some (bits (k 3) 11 0)))
    && (!m 26 || (decide (2 ≤ p.length) && decide (beAt p 1 1 % 128 = bits (k 14) 6 0)))

/-- The flow and path a frame belongs to: the lowest flow index, key A before key B (R219). -/
def matchFlow (s : State) (mac : Nat) (vlan : Option Nat) (u : UdpPkt) : Option (Nat × Bool × List Nat) :=
  s.flows.findSome? (fun (f, x) =>
    match x.keyA, x.keyB with
    | some a, some b =>
      if keyMatches a mac vlan u then some (f, false, a) else if keyMatches b mac vlan u then some (f, true, b) else none
    | some a, none => if keyMatches a mac vlan u then some (f, false, a) else none
    | none, some b => if keyMatches b mac vlan u then some (f, true, b) else none
    | none, none => none)

/-- The bound flow an RTCP packet belongs to (R218). -/
def matchRtcp (s : State) (u : UdpPkt) : Option Nat :=
  let p := u.payload
  let pt := beAt p 1 1
  let fits (x : Flow) (key : List Nat) : Bool :=
    let k (i : Nat) : Nat := key.getD (i - 3) 0
    let port := bits (k 12) 15 0
    (bit (k 3) 31 == u.v6) && decide ([k 8, k 9, k 10, k 11] = u.dst)
      && decide (x.ssrc.getD (k 13) = beAt p 4 4) && (x.ssrc.isSome || keyMatchesSsrc key)
      && (decide (u.dport = port + 1) || (decide (u.dport = port) && bit (k 3) 25 && decide (200 ≤ pt ∧ pt ≤ 204)))
  if p.length < 8 then none
  else s.flows.findSome? (fun (f, x) =>
    if x.chan.isSome && ((x.keyA.map (fits x)).getD false || (x.keyB.map (fits x)).getD false) then some f else none)

/-- The class of a frame (R218). -/
inductive FrameClass where
  | ptpEvent | ptpGeneral
  | flow (f : Nat) (pathB : Bool) (key : List Nat) (u : UdpPkt)
  | rtcp (f : Nat)
  | other
deriving DecidableEq, Repr

/-- The first class of R218 whose condition a frame meets. -/
def classify (s : State) (mac : Nat) (e : EthFrame) : FrameClass :=
  let u := parseUdp e
  let port := u.map UdpPkt.dport
  if (e.ethType = 0x88F7 ∧ beAt e.body 0 1 % 16 < 8) ∨ port = some 319 then .ptpEvent
  else if e.ethType = 0x88F7 ∨ port = some 320 then .ptpGeneral
  else match u with
    | none => .other
    | some u =>
      match matchFlow s mac e.vlan u with
      | some (f, b, k) => .flow f b k u
      | none =>
        match matchRtcp s u with
        | some f => .rtcp f
        | none => .other

/-! ## The receive path (R234, R235) -/

/-- The posted buffer a queue fills next. -/
def postedBuffer (s : State) (q : Nat) : Option Cmd :=
  s.rng.cmds.find? (fun c => decide (c.opcode = 0x39) && decide (c.phase = .waiting) && decide (bits (c.w 3) 0 0 = q))

/-- VST_RX_POSTED counts the buffers posted and not yet filled. -/
def rxPosted (q : Nat) (up : Bool) (s : State) : State :=
  let n := if q = 0 then fld s R.VST_RX_POSTED 15 0 else fld s R.VST_RX_POSTED 31 16
  let v := if up then n + 1 else n - 1
  if q = 0 then setFld s R.VST_RX_POSTED 15 0 v else setFld s R.VST_RX_POSTED 31 16 v

/-- Deliver a frame, without FCS, to a queue: into its next posted buffer, or dropped, with the tick's drops of both queues
in EV_RX_RING_FULL (R234, R235). DEDUCED: log entry 83. -/
def rxDeliver (q cls mac : Nat) (flow : Option Nat) (f : List Byte) (rx : Nat) (s : State) : State :=
  match postedBuffer s q with
  | none =>
    raiseTotal 0x65 0 0 1 (addReg s (R.VST_RX_DROP q) 1)
  | some c =>
    let ns := timeArg rx
    let words := [cls * 2 ^ 20 + mac * 2 ^ 16 + f.length,
      (match flow with
        | some i => 2 ^ 31 + i
        | none => 0), ns % 2 ^ 32, ns / 2 ^ 32, timeFrac rx, 0, 0, 0]
    let sp := if bit (c.w 7) 0 then spCellar else spHost
    let a := c.w 4 + 2 ^ 32 * c.w 5
    let s := rxPosted q false s
    match dmaWrite 5 18 sp a (wordBytes words ++ f) s with
    | (s, none) => finish c.tag stSuccess f.length cls 0 s
    | (s, some bad) => finishFault c bad 5 s

/-- The queue of a class: VST_STEER for PTP and RTCP while Demal runs, else queue 0 (R234). -/
def steer (s : State) (cls : Nat) : Nat :=
  if cls = 3 ∨ demalState s ≠ 2 then 0 else fld s R.VST_STEER cls cls

/-! ## MAC receive (R217) -/

/-- Is the MAC's lane UP (R184). -/
def macUp (s : State) (m : Nat) : Bool := flag s (R.ETH_STATUS m) 0

/-- The destination filter (R217). -/
def macAccepts (s : State) (m : Nat) (f : List Byte) : Bool :=
  let dst := beAt f 0 6
  let own := fld s (R.ETH_ADDR_HI m) 15 0 * 2 ^ 32 + rd s (R.ETH_ADDR_LO m)
  decide (dst = own ∨ dst = 0xFFFFFFFFFFFF) || (flag s (R.ETH_CTRL m) 0 && bit (beAt f 0 1) 0) || flag s (R.ETH_CTRL m) 1

/-- Is a frame a PAUSE frame of IEEE 802.3. PRESUMED: log entry 60. -/
def isPause (f : List Byte) : Bool := decide (beAt f 12 2 = 0x8808 ∧ beAt f 14 2 = 1)

/-- The largest error of a timestamp in a lane mode, in 2⁻³² ns (R108). -/
def stampLimit (mode : Nat) : Int := if mode = 2 then 10307921510 else if mode = 3 then 17179869184 else 13743895347

/-- The mode of the lane a MAC serves. -/
def macMode (s : State) (m : Nat) : Nat := fld s (R.LANE_CTRL (fld s (R.ETH_STATUS m) 7 3)) 3 1

/-- A board delay of ps, in 2⁻³² ns, rounded down, added to a timestamp (R108). DESIGN CHOICE: log entry 88. -/
def boardDelay (s : State) (off : Nat) : Int := sint 32 (rd s off) * (nsUnit : Int) / 1000

/-- A timestamp of a MAC: the present, an error within R108's limit, and the board delay; before the epoch it is 0. DESIGN
CHOICE: log entry 88. -/
def macStamp (s : State) (m : Nat) (err : Int) (off : Nat) : Nat :=
  ((s.clock : Int) + clampInt (-stampLimit (macMode s m)) (stampLimit (macMode s m)) err + boardDelay s off).toNat

/-- Codewords the RS-FEC of a lane corrected, and could not (R184, R216). -/
def fecCount (m : Nat) (o : EthObs) (s : State) : State :=
  let s := addReg s (R.ETH_FEC_CORRECTED m) o.fecCorrected
  if o.fecUncorrected = 0 then s
  else
    let s := addReg s (R.ETH_FEC_UNCORRECTED m) o.fecUncorrected
    raiseOnce m { code := 0x53, unit := m, a0 := rd s (R.ETH_FEC_UNCORRECTED m) } s

/-- A frame the MAC passes to the classifier (R218, R223, R234). PRESUMED: log entry 60. -/
def frameIn (m : Nat) (f : List Byte) (rx : Nat) (s : State) : State :=
  match classify s m (parseEth f) with
  | .ptpEvent => rxDeliver (steer s 0) 0 m none f rx s
  | .ptpGeneral => rxDeliver (steer s 1) 1 m none f rx s
  | .rtcp i => rxDeliver (steer s 2) 2 m (some i) f rx s
  | .other => rxDeliver 0 3 m none f rx (addReg s R.VST_UNMATCHED 1)
  | .flow i b k u =>
    match (flowAt s i).chan with
    | some c => if unitState s 0 c = 0 then addReg s R.VST_UNBOUND 1 else flowPacket i c b k u rx s
    | none => addReg s R.VST_UNBOUND 1

/-- A frame arrives at a MAC (R217). -/
def ethReceive (m : Nat) (f : List Byte) (o : EthObs) (s : State) : State :=
  let s := if macMode s m = 3 then fecCount m o s else s
  if !fcsGood f then addReg s (R.ETH_RX_FCS_ERR m) 1
  else if f.length < 64 ∨ 9216 < f.length then addReg s (R.ETH_RX_SIZE_ERR m) 1
  else if isPause f then addReg s (R.ETH_RX_PAUSE m) 1
  else if !macAccepts s m f then addReg s (R.ETH_RX_FILTERED m) 1
  else
    let s := addReg s (R.ETH_RX_FRAMES m) 1
    frameIn m (f.take (f.length - 4)) (macStamp s m o.err (R.TIM_TS_RX_ADJ m)) s

/-- ETH_FRAME_RECEIVE: `frame` with its FCS. -/
def execEthFrameReceive (mac : Fin 8) (frame : List Byte) (obs : EthObs) (s : State) :
    Host.Outcome State Fault Refusal :=
  live s (fun s => if macUp s mac.val then ethReceive mac.val frame obs s else s)

/-! ## FLOW_ADD and FLOW_DEL (R219, R220) -/

/-- Words 3 to 14 of a FLOW_ADD. -/
def flowKey (c : Cmd) : List Nat := (List.range 12).map (fun i => c.w (i + 3))

/-- A refusal with a reason. -/
def reject (c : Cmd) (reason detail : Nat) (s : State) : State := finish c.tag stRejected (reason * 2 ^ 16) detail 0 s

/-- FLOW_ADD (R220). -/
def flowAdd (c : Cmd) (s : State) : State :=
  let f := bits (c.w 2) 9 0
  let pathB := bit (c.w 2) 16
  let x := flowAt s f
  let key := flowKey c
  if (if pathB then x.keyB else x.keyA).isSome then reject c 2 0 s
  else if s.flows.any (fun (_, y) => decide (y.keyA = some key ∨ y.keyB = some key)) then reject c 1 0 s
  else
    let mac := bits (c.w 3) 18 16
    let crc := crc32c (wordBytes key)
    let s := setFlow f (if pathB then { x with keyB := some key } else { x with keyA := some key }) s
    let r := R.VST_FLOW_STATE f
    let s := if pathB then wr (setFld (setFlag s r 30 true) r 21 19 mac) (R.VST_FLOW_KEY_B_CRC f) crc
      else wr (setFld (setFlag s r 31 true) r 18 16 mac) (R.VST_FLOW_KEY_A_CRC f) crc
    finish c.tag stSuccess 0 0 0 s

/-- Remove a key of a flow. -/
def dropKey (f : Nat) (pathB : Bool) (s : State) : State :=
  let x := flowAt s f
  let r := R.VST_FLOW_STATE f
  let s := setFlow f (if pathB then { x with keyB := none } else { x with keyA := none }) s
  if pathB then wr (setFld (setFlag (setFlag s r 30 false) r 27 false) r 21 19 0) (R.VST_FLOW_KEY_B_CRC f) 0
  else wr (setFld (setFlag (setFlag s r 31 false) r 28 false) r 18 16 0) (R.VST_FLOW_KEY_A_CRC f) 0

/-- A channel's binding ends: its SRC_s_INPUT reads 0. -/
def inputClear (c : Nat) (s : State) : State := wr s (R.SRC_INPUT c) 0

/-- FLOW_DEL (R220): a flow that loses its last key while bound to an OFF channel loses its binding; one without a key keeps
it. -/
def flowDel (c : Cmd) (s : State) : State :=
  let f := bits (c.w 2) 9 0
  let x := flowAt s f
  let none_ := (x.keyA.isNone || bit (c.w 2) 16) && (x.keyB.isNone || bit (c.w 2) 17)
  let bound := match x.chan with
    | some ch => decide (unitState s 0 ch ≠ 0)
    | none => false
  if none_ && bound then reject c 3 0 s
  else
    let s := if bit (c.w 2) 16 then dropKey f false s else s
    let s := if bit (c.w 2) 17 then dropKey f true s else s
    let s := match x.chan with
      | some ch => if none_ && (x.keyA.isSome || x.keyB.isSome) then inputClear ch (flowUnbind f s) else s
      | none => s
    finish c.tag stSuccess 0 0 0 s

/-- FLOW_ADD and FLOW_DEL commands in flight execute. -/
def execFlowAdd (tag : Fin 4096) (s : State) : Host.Outcome State Fault Refusal :=
  live s (fun s => onCmd tag.val 0x18 s flowAdd)
def execFlowDel (tag : Fin 4096) (s : State) : Host.Outcome State Fault Refusal :=
  live s (fun s => onCmd tag.val 0x19 s flowDel)

/-! ## Timers of a flow -/

/-- JITTER_US of a channel, in the unit of the elapsed time. -/
def jitter (s : State) (c : Nat) : Nat := lfld s (R.SRC_JITTER c) 23 0 * 1000 * nsUnit

/-- When the held packet with the earliest receive timestamp has been held for JITTER_US (R226). -/
def jitterDue (s : State) (f c : Nat) : Option Nat :=
  match (flowAt s f).held with
  | [] => none
  | p :: ps => some ((ps.foldl (fun m q => if q.rx < m.rx then q else m) p).at_ + jitter s c)

/-- While NEXT is empty and the deadline has passed, NEXT is declared lost (R226). -/
def jitterRun (f c : Nat) : Nat → State → State
  | 0, s => s
  | fuel + 1, s =>
    match jitterDue s f c, (flowAt s f).held with
    | some t, p :: _ =>
      if t ≤ s.elapsed then
        let gap := (p.seq + 65536 - (flowAt s f).next.getD 0) % 65536
        let s := if gap = 0 then s else declareLost f c gap s
        jitterRun f c fuel (releaseRun f c (flowAt s f).held s)
      else s
    | _, _ => s

/-- JITTER_DEADLINE (R226). -/
def execJitterDeadline (flow : Fin 1024) (s : State) : Host.Outcome State Fault Refusal :=
  live s (fun s =>
    match (flowAt s flow.val).chan with
    | some c =>
      match jitterDue s flow.val c with
      | some t => jitterRun flow.val c 256 (waitElapsed t s)
      | none => s
    | none => s)

/-- PATH_SILENT_TIMEOUT (R229). -/
def execPathSilentTimeout (flow : Fin 1024) (pathB : Bool) (s : State) : Host.Outcome State Fault Refusal :=
  live s (fun s =>
    let f := flow.val
    let x := flowAt s f
    let r := R.VST_FLOW_STATE f
    let b := if pathB then 27 else 28
    match x.chan with
    | some c =>
      let mine := if pathB then x.acceptB else x.acceptA
      let other := if pathB then x.acceptA else x.acceptB
      if x.keyA.isSome && x.keyB.isSome && !flag s r b && decide (mine < other) then
        let s := waitElapsed (mine + lfld s (R.SRC_SILENT c) 15 0 * 1000000 * nsUnit) s
        raise { code := 0x63, unit := c, sub := ofBool pathB } (setFlag s r b true)
      else s
    | none => s)

/-- FLOW_COUNTS_READ: a read of _ARRIVED_A latches the counts of a flow (R230). -/
def execFlowCountsRead (flow : Fin 1024) (s : State) : Host.Outcome State Fault Refusal :=
  live s (fun s =>
    let f := flow.val
    let x := flowAt s f
    let s := wr (wr s (R.VST_FLOW_ARRIVED_A f) x.arrivedA) (R.VST_FLOW_ARRIVED_B f) x.arrivedB
    let s := wr (wr s (R.VST_FLOW_USED f) x.used) (R.VST_FLOW_DUP f) x.dup
    let s := wr (wr s (R.VST_FLOW_LATE f) x.late) (R.VST_FLOW_MALFORMED f) x.malformed
    wr s (R.VST_FLOW_HELD f) x.held.length)

/-! ## Depacketisation (R227, R232, R233) -/

/-- Bytes of a channel's bitstream ring. -/
def ringBytes : Nat := 6029312

/-- Bytes of a channel's bitstream ring in use. -/
def ringInUse (s : State) (c : Nat) : Nat :=
  let x := chanAt s c
  x.aus.foldl (fun n a => n + a.bytes) 0 + (x.asm.map Au.bytes).getD 0 + (x.pic.map (fun p => p.au.bytes)).getD 0

/-- Copy bytes into the bitstream ring, which wraps (R233). -/
def ringCopy (c : Nat) (bs : List Byte) (s : State) : State :=
  let x := chanAt s c
  let base := vstBase s c + 0x240000
  let n := min bs.length (ringBytes - x.ringAt)
  let s := vstWrite (base + x.ringAt) (bs.take n) s
  let s := if n < bs.length then vstWrite base (bs.drop n) s else s
  setChan c { chanAt s c with ringAt := (x.ringAt + bs.length) % ringBytes } s

/-- The access unit in assembly is complete. DEDUCED: log entry 62. -/
def auEnd (x : Chan) : Chan :=
  match x.asm with
  | some a => { x with asm := none, aus := x.aus ++ [a] }
  | none => x

/-- A released packet, whose n bytes start at an offset of the bitstream ring, joins the access unit of its timestamp; loss
reports behind a complete access unit stand ahead of its first byte (R226, R233). DEDUCED: log entry 62. -/
def auAdd (x : Chan) (p : Pkt) (start n : Nat) : Chan :=
  let x := match x.asm with
    | some a => if a.rtp = p.rtp then x else auEnd x
    | none => x
  let a : Au := match x.asm with
    | some a => { a with arrival := min a.arrival p.rx, bytes := a.bytes + n }
    | none => { arrival := p.rx, rtp := p.rtp, bytes := n, losses := x.asmLoss.map (fun k => (0, k)), start := start }
  let x := { x with asm := some a, asmLoss := [] }
  if p.marker then auEnd x else x

/-- A loss report, with its count, is written into the bitstream: into the access unit in assembly, which ends only before the
next packet, or else ahead of the next one (R226, R233). DEDUCED: log entry 62. -/
def lossReport (c n : Nat) (s : State) : State :=
  let x := chanAt s c
  let y := match x.asm with
    | some a => { x with asm := some { a with losses := a.losses ++ [(a.bytes, n)] } }
    | none => { x with asmLoss := x.asmLoss ++ [n] }
  addReg (setChan c { y with skipFu := true } s) (R.SRC_LOSS_REPORTS c) 1

/-- A payload is copied into the bitstream buffer, and its descriptor is free (R227, R232). DEDUCED: log entry 62. -/
def depacketiseData (c : Nat) (p : Pkt) (s : State) : State :=
  let x := chanAt s c
  let codec := declCodec s c
  let drop := x.skipFu && isFragment codec p.payload && !fragmentStarts codec p.payload
  let bs := if drop then [] else p.payload
  let s := ringCopy c bs (setChan c { x with skipFu := drop } s)
  setChan c (auAdd (chanAt s c) p x.ringAt bs.length) s

/-- The oldest items of a channel: the loss reports that come first, then one payload while the ring has room.
DEDUCED: log entry 62. -/
def depacketise (c : Nat) : List BsItem → State → State
  | [], s => s
  | .loss n :: is, s => depacketise c is (lossReport c n (setChan c { chanAt s c with released := is } s))
  | .data p :: is, s =>
    if ringInUse s c + p.payload.length ≤ ringBytes then
      depacketiseData c p (setChan c { chanAt s c with released := is } s)
    else s

/-- DEPACKETISE; a DRAINING channel's bitstream takes nothing further (R231). -/
def execDepacketise (ch : Fin 96) (s : State) : Host.Outcome State Fault Refusal :=
  live s (fun s =>
    let st := unitState s 0 ch.val
    if st = 1 ∨ st = 2 then depacketise ch.val (chanAt s ch.val).released s else s)

/-! ## NET_RX_POST and NET_TX (R234, R236) -/

/-- NET_RX_POST (R234). -/
def netRxPost (c : Cmd) (s : State) : State :=
  let q := bits (c.w 3) 0 0
  if q = 1 ∧ demalState s = 2 ∧ !flag s (ringCfg c.sq) 1 then finish c.tag stUnitState 2 0 0 s
  else rxPosted q true (waitCmd c.tag [] s)

/-- NET_RX_POST in flight executes. -/
def execNetRxPost (tag : Fin 4096) (s : State) : Host.Outcome State Fault Refusal :=
  live s (fun s => onCmd tag.val 0x39 s netRxPost)

/-- NET_TX in flight executes: without its MAC's lane UP it fails, else its frame goes to the MAC (R236). -/
def execNetTx (tag : Fin 4096) (s : State) : Host.Outcome State Fault Refusal :=
  live s (fun s => onCmd tag.val 0x38 s (fun c s =>
    if macUp s (bits (c.w 2) 2 0) then waitCmd c.tag [] s else finish c.tag stJobFailed 1 0 0 s))

/-- A frame padded to 60 B, with its FCS. PRESUMED: log entry 60. -/
def wireFrame (f : List Byte) : List Byte :=
  let g := f ++ List.replicate (60 - f.length) 0
  g ++ ethFcs g

/-- The frame leaves the MAC (R109, R236). -/
def netTxSent (c : Cmd) (err : Int) (s : State) : State :=
  let m := bits (c.w 2) 2 0
  let sp := if bit (c.w 7) 3 then spCellar else spHost
  let a := c.w 4 + 2 ^ 32 * c.w 5
  let ts := bits (c.w 7) 1 0
  if !macUp s m then finish c.tag stJobFailed 1 0 0 s
  else match dmaRead 5 18 sp a (bits (c.w 6) 13 0) s with
    | (s, { bad := some b, .. }) => finishFault c b 5 s
    | (s, { data := f, bad := none }) =>
      let tx := macStamp s m err (R.TIM_TS_TX_ADJ m)
      let rx := (c.w 9 + 2 ^ 32 * c.w 10) * nsUnit + c.w 11
      let f := if ts = 2 then oneStep f (bits (c.w 8) 13 0) (timeSec tx % 2 ^ 48) (timeNs tx) (timeFrac tx) tx rx else f
      let s := { s with macTx := smSet (fun _ => []) s.macTx m (wireFrame f) }
      let s := addReg s (R.ETH_TX_FRAMES m) 1
      let ns := timeArg tx
      if ts = 0 then finish c.tag stSuccess 0 0 0 s
      else finish c.tag stSuccess (ns % 2 ^ 32) (ns / 2 ^ 32) (timeFrac tx) s

/-- NET_TX_SENT; `err` is the error of the transmit timestamp in 2⁻³² ns (R108), `links` what the frame's read meets
(R366). -/
def execNetTxSent (tag : Fin 4096) (o : SendObs) (s : State) : Host.Outcome State Fault Refusal :=
  live s (linked o.links (fun s => onWaiting tag.val 0x38 s (fun c s => netTxSent c o.err s)))

/-! ## Draining a channel (R231) and its end -/

/-- A channel enters DRAINING: the held packets of its flow count as late. -/
def vstDrain (c : Nat) (s : State) : State :=
  match flowOf s c with
  | some f =>
    let n := (flowAt s f).held.length
    countLate f c n true (setFlow f { flowAt s f with held := [] } s)
  | none => s

/-- A loss report goes ahead of the first packet of each flow on the return from QUIET (R441). -/
def vstWake (s : State) : State :=
  s.flows.foldl (fun s (_, x) => match x.chan with
    | some c => if unitState s 0 c = 2 then release c (.loss 0) s else s
    | none => s) s

end Sys2Proof.Machine
end

