-- ==== Sys2Proof/Machine/Sources.lean ====
section
/-!
DEFINITION. Machine/Sources.lean: source channels: opening, closing and mapping them (R160, R176 to R180, R221, R222,
R237, R238), frames posted by the host (R239), and the RTCP mapping (R241, R242).
-/

namespace Sys2Proof.Machine

/-! ## Cost of a declaration (R251) -/

/-- Cost in ENT: ceil((MAX_KBPS × 1000 × b + MAX_RATE × 40) × P / 10⁹). -/
def entCost (s : State) (codec rate kbps : Nat) : Nat :=
  if codec = 1 then ceilDiv ((kbps * 2000 + rate * 120) * tickNum s) (3 * tickDen s * 10 ^ 9)
  else ceilDiv ((kbps * 1000 + rate * 40) * tickNum s) (tickDen s * 10 ^ 9)

/-- Cost in PIX: ceil((W16 × H16 × m + 20,000) × (MAX_RATE / 1000) × P / 10⁹). -/
def pixCost (s : State) (w h depth rate : Nat) : Nat :=
  let a := round16 w * round16 h
  if depth = 8 then ceilDiv ((a + 20000) * rate * tickNum s) (10 ^ 12 * tickDen s)
  else ceilDiv ((a * 5 + 80000) * rate * tickNum s) (4 * 10 ^ 12 * tickDen s)

/-- What a declaration charges, pool by pool; NATIVE and HOST channels use no pool. -/
def declCosts (s : State) (kind : Nat) (w : Nat → Nat) : List (Nat × Nat) :=
  if kind ≠ 0 then []
  else [(0, entCost s (bits (w 6) 7 0) (w 5) (w 7)),
        (1, pixCost s (bits (w 4) 15 0) (bits (w 4) 31 16) (bits (w 6) 27 24) (w 5))]

/-! ## Opening -/

/-- Does the bound input of a channel fit a kind (R221): a flow for COMPRESSED, a lane for NATIVE, an SQ for HOST. -/
def inputFits (s : State) (c kind : Nat) : Bool :=
  !flag s (R.SRC_INPUT c) 29 || decide (fld s (R.SRC_INPUT c) 31 30 = kind)

/-- A channel enters STARTING under a declaration: words 3 to 14 of SRC_OPEN (R160, R176). DEDUCED: log entry 53. -/
def srcStart (c kind : Nat) (w : Nat → Nat) (s : State) : State :=
  let costs := declCosts s kind w
  let s := if costs = [] then s else poolAdmit 0 c costs s
  let s := setFld s (R.SRC_CTRL c) 5 4 kind
  let s := setFlag (setFld s (R.SRC_STATE c) 5 4 kind) (R.SRC_STATE c) 2 true
  let s := wr s (R.SRC_SOURCE_ID c) (w 3)
  let s := (List.range 8).foldl (fun s i => wr s (R.SRC_DECL c i) (w (4 + i))) s
  let s := wr (wr (wr s (R.SRC_POOL_BASE_LO c) (w 12)) (R.SRC_POOL_BASE_HI c) (w 13)) (R.SRC_SLOT_STRIDE c) (w 14)
  let s := wr s (R.WIN_S_DP_DECL c) (crc32c (wordBytes ((List.range 8).map (fun i => w (4 + i)))))
  let s := wr (wr s (R.VDC_S_COST_ENT c) ((costs.map (fun p => p.2)).getD 0 0)) (R.VDC_S_COST_PIX c)
    ((costs.map (fun p => p.2)).getD 1 0)
  let s := (List.range 9).foldl (fun s i => wr s (R.VDC_S_DECODED c + 4 * i) 0) s
  let s := wr (wr (wr (wr s (R.VDC_S_STATE c) 0) (R.VDC_S_FORMAT c) 0) (R.VDC_S_GEOM c) 0) (R.VDC_S_NEXT_SEQ c) 0
  let x := chanAt s c
  let s := setChan c { mappings := x.mappings, mapLapsed := x.mapLapsed } s
  setUnit 0 c 1 false s

/-- SRC_OPEN of an OFF channel (R51, R160, R221). DEDUCED: log entry 53. -/
def srcOpen (c : Cmd) (s : State) : State :=
  let ch := bits (c.w 2) 15 0
  let kind := bits (c.w 2) 17 16
  if !inputFits s ch kind then reject c 2 0 s
  else match admitFails s (declCosts s kind c.w) with
    | some (p, short) => finish c.tag stBudget p short 0 s
    | none => waitCmd c.tag [auxEnabling] (srcStart ch kind c.w s)

/-- SRC_OPEN in flight executes. -/
def execSrcOpen (tag : Fin 4096) (s : State) : Host.Outcome State Fault Refusal :=
  live s (fun s => onCmd tag.val 0x10 s (fun c s => enableCmd 0 (bits (c.w 2) 15 0) c srcOpen s))

/-- The words of SRC_OPEN as a channel's registers hold them (R238). -/
def srcRegWord (s : State) (c i : Nat) : Nat :=
  if i = 3 then rd s (R.SRC_SOURCE_ID c)
  else if i = 12 then rd s (R.SRC_POOL_BASE_LO c)
  else if i = 13 then rd s (R.SRC_POOL_BASE_HI c)
  else if i = 14 then rd s (R.SRC_SLOT_STRIDE c)
  else rd s (R.SRC_DECL c (i - 4))

/-- EV_ENABLE_IGNORED with its sticky bit (R179). -/
def enableIgnored (kind u reg stickyBit off : Nat) (s : State) : State :=
  raise { code := 2, unit := u, sub := kind, a0 := off } (setFlag s reg stickyBit true)

/-- A direct write of EN = 1 to SRC_s_CTRL (R179, R238). DEDUCED: log entry 53. -/
def srcRegEnable (c v : Nat) (s : State) : State :=
  let st := unitState s 0 c
  let kind := bits v 5 4
  if st = 3 then enableIgnored 0 c (R.SRC_STATE c) 7 (R.SRC_CTRL c) s
  else if st ≠ 0 then s
  else
    let s := setFld s (R.SRC_CTRL c) 5 4 kind
    let w := srcRegWord s c
    if !tickRun s || decide (kind = 3) || !inputFits s c kind || (badDeclaration kind w).isSome
      || (admitFails s (declCosts s kind w)).isSome then setFlag s (R.SRC_STATE c) 6 true
    else srcStart c kind w s

/-- SRC_REG_ENABLE; an absent channel ignores it (R2). -/
def execSrcRegEnable (ch : Fin 96) (v : Word) (s : State) : Host.Outcome State Fault Refusal :=
  live s (fun s => if unitPresent s.part .src ch.val then srcRegEnable ch.val v.toNat s else s)

/-! ## Draining -/

/-- The picture in decode of a channel, changed. -/
def updPic (c : Nat) (f : Pic → Pic) (s : State) : State :=
  setChan c { chanAt s c with pic := (chanAt s c).pic.map f } s

/-- Coefficient pages in use (R248). -/
def pagesInUse (s : State) : Nat := fld s R.VDC_COEF_PAGES 8 0

/-- A picture's entropy engine takes a page, or stalls: its picture holds 64, or none is free (R248). -/
def pageGive (c : Nat) (p : Pic) (s : State) : State :=
  let n := pagesInUse s + 1
  let s := setFld s R.VDC_COEF_PAGES 8 0 n
  let s := setFld s R.VDC_COEF_PAGES 24 16 (max (fld s R.VDC_COEF_PAGES 24 16) n)
  updPic c (fun q => { q with pages := p.pages + 1, stalled := false }) s
def pageTake (c : Nat) (s : State) : State :=
  match (chanAt s c).pic with
  | some p =>
    if p.stalled then s
    else if 64 ≤ p.pages ∨ 256 ≤ pagesInUse s then
      updPic c (fun q => { q with stalled := true }) (addReg s R.VDC_COEF_STALLS 1)
    else pageGive c p s
  | none => s

/-- Pages have been returned: stalled entropy engines take theirs, the lowest-numbered first (R248). DESIGN CHOICE: log entry
64. -/
def pagesServe (s : State) : State :=
  (List.range 4).foldl (fun s e =>
    match (List.range 96).find? (fun c => (chanAt s c).pic.any (fun p => p.stalled && decide (p.ent = e))) with
    | some c =>
      match (chanAt s c).pic with
      | some p => if p.pages < 64 ∧ pagesInUse s < 256 then pageGive c p s else s
      | none => s
    | none => s) s

/-- A picture's pixel engine returns n pages (R248). -/
def pagesReturn (c n : Nat) (s : State) : State :=
  match (chanAt s c).pic with
  | some p =>
    let n := min n p.pages
    pagesServe (updPic c (fun q => { q with pages := q.pages - n }) (setFld s R.VDC_COEF_PAGES 8 0 (pagesInUse s - n)))
  | none => s

/-- The picture in decode stops: its engines are idle, its coefficient pages return, its slot is FREE (R270). -/
def stopPicture (c : Nat) (s : State) : State :=
  match (chanAt s c).pic with
  | none => s
  | some p =>
    let s := if p.parsed then s else setFlag s R.VDC_STATUS p.ent false
    let s := setFlag s R.VDC_STATUS (4 + p.pix) false
    let s := pagesReturn c p.pages (updPic c (fun q => { q with stalled := false }) s)
    dropSlot c p.slot (setChan c { chanAt s c with pic := none } s)

/-- The FRAME_POST commands of a channel whose copies are under way end with ABORTED, their slots FREE (R239). -/
def abortCopies (c : Nat) (s : State) : State :=
  (s.rng.cmds.filter (fun d => decide (d.opcode = 0x13 ∧ bits (d.w 2) 15 0 = c ∧ d.phase = .waiting))).foldl
    (fun s d => finish d.tag stAborted 0 0 0 (dropSlot c (d.aux.headD 0) s)) s

/-- The NATIVE frame that is arriving ends without completing; a layer that shows its lines keeps the slot. -/
def stopNative (c : Nat) (s : State) : State :=
  match (chanAt s c).native with
  | none => s
  | some x =>
    let s := setChan c { chanAt s c with native := none } s
    match x.slot with
    | some k => updSlot c k (fun x => { x with decoding := false }) s
    | none => s

/-- A channel enters DRAINING (R176, R231, R239, R270). -/
def srcDrain (c : Nat) (s : State) : State :=
  vstDrain c (stopNative c (abortCopies c (stopPicture c (unitDrain 0 c s))))

/-- SRC_CLOSE in flight executes. -/
def execSrcClose (tag : Fin 4096) (s : State) : Host.Outcome State Fault Refusal :=
  live s (fun s => onCmd tag.val 0x11 s (fun c s => disableCmd 0 (bits (c.w 2) 15 0) c (srcDrain (bits (c.w 2) 15 0)) s))

/-- A direct write of EN = 0 to SRC_s_CTRL (R180, R238). -/
def srcRegDisable (c v : Nat) (s : State) : State :=
  let st := unitState s 0 c
  if st = 0 then setFld s (R.SRC_CTRL c) 5 4 (bits v 5 4)
  else if st = 3 then finishWaiters 0 c auxQueued stAborted s
  else srcDrain c s

/-- SRC_REG_DISABLE. -/
def execSrcRegDisable (ch : Fin 96) (v : Word) (s : State) : Host.Outcome State Fault Refusal :=
  live s (fun s => if unitPresent s.part .src ch.val then srcRegDisable ch.val v.toNat s else s)

/-! ## SRC_MAP (R161, R221, R222) -/

/-- Does another channel hold the named input. -/
def inputTaken (s : State) (c w : Nat) : Bool :=
  (List.range 96).any (fun d =>
    let r := rd s (R.SRC_INPUT d)
    decide (d ≠ c) && bit r 29 && decide (bits r 31 30 = bits w 31 30 ∧ bits r 15 0 = bits w 15 0)
      && (!decide (bits w 31 30 = 1) || decide (bits r 20 16 = bits w 20 16)))

/-- The bound flow of a channel is given up: held packets are released, and on a RUNNING channel a loss report goes
ahead of the new flow's first packet (R222). -/
def flowGiveUp (c : Nat) (s : State) : State :=
  match flowOf s c with
  | none => s
  | some f =>
    let s := if unitState s 0 c = 2 then release c (.loss 0) (releaseAll f c s) else s
    flowUnbind f s

/-- SRC_MAP. -/
def srcMap (c : Cmd) (s : State) : State :=
  let ch := bits (c.w 2) 15 0
  let w := c.w 3
  let st := unitState s 0 ch
  if st = 1 ∨ st = 3 then finish c.tag stUnitState st 0 0 s
  else if inputTaken s ch w then reject c 1 0 s
  else if flag s (R.SRC_STATE ch) 2 && !decide (srcKind s ch = bits w 31 30) then reject c 2 0 s
  else
    let word := setBits w 29 29 1
    let s := if rd s (R.SRC_INPUT ch) = word then s
      else
        let s := wr (flowGiveUp ch s) (R.SRC_INPUT ch) word
        if bits w 31 30 = 0 then flowBind (bits w 15 0) ch s else s
    finish c.tag stSuccess 0 0 0 s

/-- SRC_MAP in flight executes. -/
def execSrcMap (tag : Fin 4096) (s : State) : Host.Outcome State Fault Refusal :=
  live s (fun s => onCmd tag.val 0x12 s srcMap)

/-! ## FRAME_POST (R239) -/

/-- Is the posted frame short (R278). -/
def frameShort (s : State) (ch pitch len : Nat) : Bool :=
  let f := srcFormat s ch
  let rows := if fmtPlanar f then evenRows (declH s ch) * 3 / 2 else declH s ch
  decide (pitch < declW s ch * fmtBytes f ∨ len < pitch * rows)

/-- The slot of a NATIVE or HOST frame that begins (R277). -/
def plainSlot (s : State) (ch seq arrival w h : Nat) (ct : CapTime) : Slot :=
  let f := srcFormat s ch
  let p := slotPitch (declW s ch) f
  { decoding := true, seq := seq, cap := ct.t, arrival := arrival, shown := true, fmt := f, height := h, width := w,
    pitch := p, chroma := if fmtPlanar f then 0x1000 + p * evenRows (declH s ch) else 0, colour := 0x00020202, codedW := w, codedH := h,
    origin := ct.origin, disagree := ct.disagree, taints := ofBool ct.inferred * 16 }

/-- The posted frame takes a slot, and its copy begins. -/
def framePostTake (c : Cmd) (ch k : Nat) (s : State) : State :=
  let stamp := if bit (c.w 3) 0 && decide (bits (c.w 10) 29 0 < 1000000000) then
      some (mkTime (c.w 8 + 2 ^ 32 * bits (c.w 9) 15 0) (bits (c.w 10) 29 0) (c.w 11))
    else none
  let ct := capStamp c.fetched (declLat s ch) 3 stamp
  let x := plainSlot s ch (c.w 12) c.fetched (declW s ch) (declH s ch) ct
  let s := takeSlot ch k x (recIdWords ch (fld s (R.SRC_SOURCE_ID ch) 17 0) x.seq x.cap) (spendFrame ch s)
  waitCmd c.tag [k] s

/-- FRAME_POST: the conditions of R239 and R441 in order. -/
def framePost (c : Cmd) (s : State) : State :=
  let ch := bits (c.w 2) 15 0
  let inp := rd s (R.SRC_INPUT ch)
  if unitState s 0 ch ≠ 2 then finish c.tag stUnitState (unitState s 0 ch) 0 0 s
  else if srcKind s ch ≠ 2 then reject c 5 0 (srcRejected ch s)
  else if !bit inp 29 || !decide (bits inp 31 30 = 2 ∧ bits inp 15 0 = c.sq) then reject c 1 0 (srcRejected ch s)
  else if quiet s then reject c 4 0 s
  else if frameShort s ch (bits (c.w 6) 15 0 * 16) (c.w 7) then reject c 2 0 (srcRejected ch s)
  else if !creditLeft s ch then reject c 3 0 (overDeclared ch 2 0 (srcRejected ch s))
  else match freeSlot s ch with
    | none => finish c.tag stNoResource 1 0 0 s
    | some k => framePostTake c ch k s

/-- FRAME_POST in flight executes. -/
def execFramePost (tag : Fin 4096) (s : State) : Host.Outcome State Fault Refusal :=
  live s (fun s => onCmd tag.val 0x13 s framePost)

/-- Copy rows of a plane through the ring engine's guard (R356, R411), up to the first access that fails, whose address is
given (R164, R352, R366). -/
def copyRows (sp src spitch dst dpitch n : Nat) : Nat → State → State × Option Nat
  | 0, s => (s, none)
  | rows + 1, s =>
    match dmaRead 5 18 sp src n s with
    | (s, { bad := some b, .. }) => (s, some b)
    | (s, { data := bs, bad := none }) =>
      match dmaWrite 5 18 spCellar dst bs s with
      | (s, some b) => (s, some b)
      | (s, none) => copyRows sp (src + spitch) spitch (dst + dpitch) dpitch n rows s

/-- The copy of a posted frame into its slot: header, then the planes (R239, R277). -/
def copyFrame (c : Cmd) (ch k : Nat) (s : State) : State × Option Nat :=
  let x := slotAt s ch k
  let dst := slotBase s ch k
  let sp := if bit (c.w 3) 1 then spCellar else spHost
  let src := c.w 4 + 2 ^ 32 * c.w 5
  let pitch := bits (c.w 6) 15 0 * 16
  let b := fmtBytes x.fmt
  let (s, bad) := dmaWrite 5 18 spCellar dst (wordBytes (headerWords x x.width x.height)) s
  if bad.isSome then (s, bad)
  else if fmtPlanar x.fmt then
    let rows := evenRows x.height
    match copyRows sp src pitch (dst + 0x1000) x.pitch (x.width * b) x.height s with
    | (s, some b) => (s, some b)
    | (s, none) => copyRows sp (src + pitch * rows) pitch (dst + x.chroma) x.pitch
        (min pitch (evenRows x.width * b)) (rows / 2) s
  else copyRows sp src pitch (dst + 0x1000) x.pitch (x.width * b) x.height s

/-- FRAME_POST_COPY_DONE: the frame is in its slot and complete, or an access of the copy failed (R164, R239). -/
def framePostCopied (c : Cmd) (s : State) : State :=
  let ch := bits (c.w 2) 15 0
  let k := c.aux.headD 0
  match copyFrame c ch k s with
  | (s, some bad) =>
    let s := wr (refundFrame ch (dropSlot ch k s)) (R.SRC_FRAMES ch) (rd s (R.SRC_FRAMES ch) + 2 ^ 32 - 1)
    finishFault c bad 5 s
  | (s, none) =>
    let s := updSlot ch k (fun x => { x with done := some s.clock, decoding := false, kept := true }) s
    finish c.tag stSuccess 0 0 0 (completeRecord ch k s)

/-- FRAME_POST_COPY_DONE; the copies of a channel complete in the order in which they were started (R158); `links` are what
its reads meet (R366). DESIGN CHOICE: log entry 13. -/
def execFramePostCopyDone (w : WorkEnd) (s : State) : Host.Outcome State Fault Refusal :=
  live s (linked w.links (fun s => onWaiting w.tag.val 0x13 s framePostCopied))

/-! ## RTCP mappings (R241, R242) -/

/-- The MAP_COMMIT pair takes effect: the staged mapping is valid for HOLD_S seconds; validity that begins after a lapse is
reported (R242). -/
def mapCommit (c v : Nat) (s : State) : State :=
  let x := chanAt s c
  let hold := lfld s (R.SRC_RTCP_CFG c) 15 0 * secUnit
  let time := mkTime (rd64 s (R.SRC_MAP_SEC_LO c) (R.SRC_MAP_SEC_HI c)) (rd s (R.SRC_MAP_NS c)) (rd s (R.SRC_MAP_FRAC c))
  let m : Mapping := { rtp := rd s (R.SRC_MAP_RTP c), time := time, since := s.clock, ends := s.clock + hold }
  let s := huskStore (R.SRC_MAP_COMMIT c) v s
  let s := wr s (R.SRC_MAP_STATUS c) (2 ^ 31 + bits v 15 0)
  let s := setChan c { x with mappings := m :: x.mappings, mapLapsed := false } s
  if x.mapLapsed then raise { code := 0x64, unit := c, sub := 1 } s else s

/-- RTCP_MAP_COMMIT: the K write of the SRC_s_MAP_COMMIT pair (R74). -/
def execRtcpMapCommit (ch : Fin 96) (k : Word) (s : State) : Host.Outcome State Fault Refusal :=
  live s (huskK (R.SRC_MAP_COMMIT ch.val) k.toNat (mapCommit ch.val))

/-- RTCP_MAP_EXPIRE: HOLD_S after its commit on the local clock a mapping lapses (R242). -/
def execRtcpMapExpire (ch : Fin 96) (s : State) : Host.Outcome State Fault Refusal :=
  live s (fun s =>
    let c := ch.val
    let x := chanAt s c
    match x.mappings.head? with
    | some m =>
      if x.mapLapsed then s
      else
        let s := waitClock m.ends s
        let s := setChan c { chanAt s c with mapLapsed := true } s
        raise { code := 0x64, unit := c, sub := 0 } (setFlag s (R.SRC_MAP_STATUS c) 31 false)
    | none => s)

/-- The mapping valid at an arrival time: the newest in whose period it lies (R242). DEDUCED: log entry 54. -/
def mappingFor (s : State) (c arrival : Nat) : Option Mapping :=
  (chanAt s c).mappings.find? (fun m => decide (m.since ≤ arrival ∧ arrival < m.ends))

/-- The RTCP capture time of an access unit (R242): C = MAP + floor(D × 10⁹ × 2³² / 90,000), modulo 2⁴⁸ s. -/
def rtcpTime (s : State) (c arrival rtp : Nat) : Option Nat :=
  (mappingFor s c arrival).map (fun m =>
    let d := sint 32 (rtp + 2 ^ 32 - m.rtp)
    (((m.time : Int) + d * (10 ^ 9 * 2 ^ 32 : Nat) / 90000) % ((2 ^ 48 * secUnit : Nat) : Int)).toNat)

/-! ## Slot counts (R260) -/

/-- Sum of the reader counts of a channel's SEALED slots. -/
def readerSum (s : State) (c : Nat) : Nat :=
  (List.range (poolSize s c)).foldl (fun n k => n + (slotAt s c k).readers) 0

/-- VDC_SLOT_COUNTS_READ: a read of _SLOT_COUNTS latches _READERS. -/
def execVdcSlotCountsRead (ch : Fin 96) (s : State) : Host.Outcome State Fault Refusal :=
  live s (fun s =>
    if unitPresent s.part .src ch.val then wr s (R.VDC_S_READERS ch.val) (readerSum s ch.val) else s)

end Sys2Proof.Machine
end

