-- ==== Sys2Proof/Machine/Ledger.lean ====
section
/-!
DEFINITION. Machine/Ledger.lean: the conservation ledgers (R58 to R61) and LEDGER_READ (R164). Step 5 of the seal runs
them (Machine/Seal.lean).
-/

namespace Sys2Proof.Machine

/-- A lane's state beside its registers. -/
def laneAt (s : State) (n : Nat) : LaneSt := smGet (fun _ => {}) s.lanes n
def setLane (n : Nat) (x : LaneSt) (s : State) : State := { s with lanes := smSet (fun _ => {}) s.lanes n x }

/-- A layer's state beside its registers, under 16h + l. -/
def layerAt (s : State) (i : Nat) : Layer := smGet (fun _ => {}) s.layers i
def setLayer (i : Nat) (x : Layer) (s : State) : State := { s with layers := smSet (fun _ => {}) s.layers i x }

/-- One condition of a balance: left side, right side, and whether it holds (R58, R59). -/
structure Side where
  left : Nat
  right : Nat
  ok : Bool
deriving DecidableEq, Repr

/-- A condition that asks for equality. -/
def Side.eq (l r : Nat) : Side := { left := l, right := r, ok := decide (l = r) }

/-- A difference modulo 2³². -/
def sub32 (a b : Nat) : Nat := (a + 2 ^ 32 - b % 2 ^ 32) % 2 ^ 32

/-- The layers that have sealed a frame of a channel. -/
def layersOf (s : State) (c : Nat) : Nat :=
  (s.layers.filter (fun p => match p.2.cur with
    | some f => decide (f.kind = 0 ∧ f.unit = c)
    | none => false)).length

/-- SLOT (R58): the five state counts, and the readers. -/
def slotSides (s : State) (c : Nat) : List Side :=
  [Side.eq (((List.range 5).map (slotsIn s c)).foldl (· + ·) 0) (poolSize s c), Side.eq (readerSum s c) (layersOf s c)]

/-- BUDGET: costs and sessions of a pool. -/
def budgetSides (s : State) (p : Nat) : List Side :=
  let es := s.tck.entries.filter (fun e => decide (e.pool = p))
  [Side.eq (rd s (R.TCK_POOL_COMMITTED p)) ((es.map PoolEntry.cost).foldl (· + ·) 0),
   Side.eq (fld s (R.TCK_POOL_SESSIONS p) 7 0) es.length]

/-- RING: tags of a ring, or of the whole device. -/
def ringSides (s : State) (r : Nat) : List Side :=
  if r = 0xFFFF then
    [Side.eq (((List.range 64).map (fun r => fld s (R.RNG_SQ_INFLIGHT r) 12 0)).foldl (· + ·) 0) s.rng.cmds.length]
  else [Side.eq (sub32 (rd s (R.RNG_SQ_ISSUED r)) (rd s (R.RNG_SQ_COMPLETED r))) (fld s (R.RNG_SQ_INFLIGHT r) 12 0)]

/-- PACKET: the packets of a flow. -/
def packetSides (s : State) (f : Nat) : List Side :=
  let x := flowAt s f
  [Side.eq (x.arrivedA + x.arrivedB) (x.used + x.dup + x.late + x.malformed + x.held.length)]

/-- The sides of a span's balance (R206, R207). -/
def Span.side (p : Span) : Side := Side.eq (sub32 (p.last + 1) p.start) ((p.received + p.lost) % 2 ^ 32)

/-- BLOCK: the receive span, the far end's span, and the blocks it can have received at most (R206, R207).
DEDUCED: log entry 33. -/
def blockSides (s : State) (n : Nat) : List Side :=
  let x := laneAt s n
  let zero : Side := Side.eq 0 0
  let sent := rd s (R.LANE_TX_SEQ n)
  let far := if flag s (R.LANE_STATUS n) 8 then
      [x.far.side,
       { left := sub32 (x.far.last + 1) x.far.start, right := sub32 sent x.far.start,
         ok := x.nextAt.isSome && decide (sub32 x.far.last x.far.start ≤ sub32 (sent + 2 ^ 32 - 1) x.far.start) }]
    else [zero, zero]
  (match x.span with
    | some p => p.side
    | none => zero) :: far

/-- The conditions of a ledger instance, in the order of R59. DEDUCED: log entry 33. -/
def ledgerSides (s : State) (kind i : Nat) : List Side :=
  if kind = 0 then slotSides s i else if kind = 1 then budgetSides s i else if kind = 2 then ringSides s i
  else if kind = 3 then packetSides s i else blockSides s i

/-- Is a ledger instance faulted. -/
def ledgerFaulted (s : State) (kind i : Nat) : Bool := s.tck.faults.contains (kind, i)

/-- An instance that is not faulted is: with the two sides of a balance (R59). -/
def ledgerFail (kind i : Nat) (d : Side) (s : State) : State :=
  if ledgerFaulted s kind i then s
  else
    let s := setFlag { s with tck := { s.tck with faults := s.tck.faults ++ [(kind, i)] } } R.TCK_LEDGER_FAULT kind true
    let s := if flag s R.TCK_LEDGER_FIRST 31 then s
      else wr s R.TCK_LEDGER_FIRST (2 ^ 31 + kind * 2 ^ 16 + i)
    raise { code := 0x16, unit := i, sub := kind, a0 := d.left, a1 := d.right } s

/-- Step 5 of the seal for one instance; `snap` is the state at T_N (R58, R59). -/
def ledgerCheck (snap : State) (kind i : Nat) (s : State) : State :=
  match (ledgerSides snap kind i).find? (fun d => !d.ok) with
  | none => s
  | some d => ledgerFail kind i d s

/-- Every instance of every ledger; flows without any state are empty and balance. DEDUCED: log entry 33. -/
def ledgerInstances (s : State) : List (Nat × Nat) :=
  (List.range 96).map (fun i => (0, i)) ++ (List.range 4).map (fun i => (1, i))
    ++ (List.range 64).map (fun i => (2, i)) ++ [(2, 0xFFFF)] ++ s.flows.map (fun p => (3, p.1))
    ++ (List.range 32).map (fun i => (4, i))

/-- Step 5 of the seal (R58). -/
def ledgerSeal (snap s : State) : State :=
  (ledgerInstances snap).foldl (fun s k => ledgerCheck snap k.1 k.2 s) s

/-- Is a channel a HOST channel fed through SQ r, or through any. -/
def hostFed (s : State) (c : Nat) (r : Option Nat) : Bool :=
  decide (srcKind s c = 2) && (match r with
    | none => true
    | some r => flag s (R.SRC_INPUT c) 29 && decide (fld s (R.SRC_INPUT c) 31 30 = 2 ∧ fld s (R.SRC_INPUT c) 15 0 = r))

/-- Have all units that an instance covers reached OFF (R60, R61); a flow covers the channel it is bound to, or, unbound,
the one it was last bound to. DESIGN CHOICE: log entry 86. -/
def ledgerUnitsOff (s : State) (kind i : Nat) : Bool :=
  let hostsOff (r : Option Nat) : Bool :=
    (List.range 96).all (fun c => !hostFed s c r || decide (unitState s 0 c = 0))
  if kind = 0 then decide (unitState s 0 i = 0)
  else if kind = 1 then !s.tck.entries.any (fun e => decide (e.pool = i))
  else if kind = 2 then
    if i = 0xFFFF then hostsOff none && (List.range 64).all (fun r => decide (ringState s r = 0))
    else hostsOff (some i) && decide (ringState s i = 0)
  else if kind = 3 then match (flowAt s i).chan.or (flowAt s i).lastChan with
    | some c => decide (unitState s 0 c = 0)
    | none => true
  else laneOff s i

/-- No tag is allocated and no ring has a command in flight: the empty balance of the device-wide RING instance (R61). -/
def ringsEmpty (s : State) : State :=
  let s := (List.range 64).foldl (fun s r =>
    if fld s (R.RNG_SQ_INFLIGHT r) 12 0 = 0 then s
    else setFld (wr (wr s (R.RNG_SQ_ISSUED r) 0) (R.RNG_SQ_COMPLETED r) 0) (R.RNG_SQ_INFLIGHT r) 12 0 0) s
  setFld { s with rng := { s.rng with cmds := [] } } R.RNG_STATUS 12 0 0

/-- An instance returns to its empty balance (R61). -/
def ledgerEmpty (kind i : Nat) (s : State) : State :=
  if kind = 0 then setChan i { chanAt s i with slots := [] } s
  else if kind = 1 then poolEmptied i s
  else if kind = 2 then
    if i = 0xFFFF then ringsEmpty s
    else setFld (wr (wr s (R.RNG_SQ_ISSUED i) 0) (R.RNG_SQ_COMPLETED i) 0) (R.RNG_SQ_INFLIGHT i) 12 0 0
  else if kind = 3 then flowReset i s
  else setLane i { laneAt s i with span := none } s

/-- The fault of an instance ends. -/
def ledgerClear (kind i : Nat) (s : State) : State :=
  let faults := s.tck.faults.filter (fun f => decide (f ≠ (kind, i)))
  let s := ledgerEmpty kind i { s with tck := { s.tck with faults := faults } }
  let s := setFlag s R.TCK_LEDGER_FAULT kind (faults.any (fun f => decide (f.1 = kind)))
  if faults = [] then wr s R.TCK_LEDGER_FIRST 0 else s

/-- Every faulted instance whose units have reached OFF is repaired when a unit or lane reaches OFF (R61); one whose units
were all OFF when it was found waits for the next. DESIGN CHOICE: log entry 86. -/
def ledgerRepair (s : State) : State :=
  s.tck.faults.foldl (fun s f => if ledgerUnitsOff s f.1 f.2 then ledgerClear f.1 f.2 s else s) s

/-- LEDGER_READ (R164): the two sides of the first failing condition, or of the first. DEDUCED: log entry 33. -/
def ledgerRead (c : Cmd) (s : State) : State :=
  let kind := bits (c.w 2) 2 0
  let i := bits (c.w 3) 15 0
  let ds := ledgerSides s kind i
  let d := ((ds.find? (fun d => !d.ok)).or ds.head?).getD (Side.eq 0 0)
  finish c.tag stSuccess d.left d.right (ofBool (ledgerFaulted s kind i)) s

/-- LEDGER_READ in flight executes. -/
def execLedgerRead (tag : Fin 4096) (s : State) : Host.Outcome State Fault Refusal :=
  live s (fun s => onCmd tag.val 0x50 s ledgerRead)

end Sys2Proof.Machine
end

