-- ==== Sys2Proof/Machine/NgzLine.lean ====
section
/-!
DEFINITION. Machine/NgzLine.lean: the NGZ block on the line: header, scrambler, bit stuffing and fill (R185 to R193).
Line bits stand in a list in the order of the line.
-/

namespace Sys2Proof.Machine

/-- The bits of a byte, bit 7 first. -/
def byteBits (b : Byte) : List Bool := (List.range 8).map (fun i => b.toNat.testBit (7 - i))

/-- The bits of a byte run in line order (R187). -/
def lineBits (bs : List Byte) : List Bool := bs.flatMap byteBits

/-- The value of bits given most significant first. -/
def bitsValue (l : List Bool) : Nat := l.foldl (fun n b => 2 * n + ofBool b) 0

/-- n bytes from line bits, missing bits 0. -/
def bitBytes : Nat → List Bool → List Byte
  | 0, _ => []
  | n + 1, l => BitVec.ofNat 8 (bitsValue ((l.take 8) ++ List.replicate (8 - (l.take 8).length) false)) :: bitBytes n (l.drop 8)

/-- The n low bits of a value, most significant first. -/
def msbBits (n v : Nat) : List Bool := (List.range n).map (fun i => v.testBit (n - 1 - i))

/-- HCRC: CRC-16/CCITT-FALSE over header bits [63:16] (R186). -/
def headerCrc (v : Nat) : Nat := crcMsbRun 16 0x1021 0xFFFF (beBytes 6 (v / 2 ^ 16))

/-- The header of a block (R186). -/
def blockHeader (typ k bseq : Nat) : Nat :=
  let v := 0xD4 * 2 ^ 56 + typ % 8 * 2 ^ 53 + k % 8 * 2 ^ 50 + bseq % 2 ^ 32 * 2 ^ 16
  v + headerCrc v

/-- Is a received header valid (R192). -/
def headerValid (h : Nat) : Bool :=
  decide (bits h 63 56 = 0xD4 ∧ bits h 55 53 ≠ 7 ∧ bits h 15 0 = headerCrc h)

/-- TYPE, K and BSEQ of a header. -/
def headerType (h : Nat) : Nat := bits h 55 53
def headerK (h : Nat) : Nat := bits h 52 50
def headerSeq (h : Nat) : Nat := bits h 47 16

/-- The seed of the scrambler (R188). -/
def scrambleSeed (bseq k : Nat) : Nat :=
  let s := (bseq % 2 ^ 31) ^^^ (k * 2 ^ 28) ^^^ (bseq / 2 ^ 31 % 2 * 2 ^ 27)
  if s = 0 then 0x7FFFFFFF else s

/-- The additive scrambler over payload bits; scrambling and descrambling are the same (R188). -/
def scramble : Nat → List Bool → List Bool
  | _, [] => []
  | s, b :: bs =>
    let o := s.testBit 30 ^^ s.testBit 27
    (b ^^ o) :: scramble ((s * 2 + ofBool o) % 2 ^ 31) bs

/-- The stuffing state on a line: the last bit and the repeats that end there. -/
abbrev LineEnd := Bool × Nat

/-- Send bits: after six consecutive repeats one bit of the opposite value goes in (R189). The result comes in reverse
order behind `acc`. -/
def stuff : LineEnd → List Bool → List Bool → List Bool × LineEnd
  | e, [], acc => (acc, e)
  | (l, n), b :: bs, acc =>
    if b = l then
      if n = 5 then stuff (!b, 0) bs ((!b) :: b :: acc) else stuff (b, n + 1) bs (b :: acc)
    else stuff (b, 0) bs (b :: acc)

/-- n fill bits: the complement of the bit before, then alternating (R185). -/
def fillBits : Nat → Bool → List Bool
  | 0, _ => []
  | n + 1, l => (!l) :: fillBits n (!l)

/-- Line bits of a block. -/
abbrev blockBits : Nat := 8384

/-- One attempt at a block: its 8,384 line bits and the line's end, when it fits (R190). -/
def attempt (e : LineEnd) (header : Nat) (payload : List Bool) : Option (List Bool × LineEnd) :=
  let (acc, (l, n)) := stuff e (msbBits 64 header ++ payload) []
  if acc.length ≤ blockBits then
    let fill := fillBits (blockBits - acc.length) l
    some (acc.reverse ++ fill, match fill.getLast? with
      | some b => (b, 0)
      | none => (l, n))
  else none

/-- The attempts at a block from K on: the K that fits and the line (R190). -/
def attempts (e : LineEnd) (typ bseq : Nat) (payload : List Bool) : Nat → Nat → Option (Nat × List Bool × LineEnd)
  | 0, _ => none
  | n + 1, k =>
    match attempt e (blockHeader typ k bseq) (scramble (scrambleSeed bseq k) payload) with
    | some (bits, e') => some (k, bits, e')
    | none => attempts e typ bseq payload n (k + 1)

/-- The DROPPED block, whose payload is fill; it always fits (R190). -/
def droppedBlock (e : LineEnd) (bseq : Nat) : List Bool × LineEnd :=
  let (acc, (l, n)) := stuff e (msbBits 64 (blockHeader 6 0 bseq)) []
  let fill := fillBits (blockBits - acc.length) l
  (acc.reverse ++ fill, match fill.getLast? with
    | some b => (b, 0)
    | none => (l, n))

/-- A payload of 1,020 bytes with its block CRC behind it (R193). -/
def withBlockCrc (bs : List Byte) : List Byte :=
  let p := bs ++ List.replicate (1020 - bs.length) 0
  p ++ leBytes 4 (crc32c p)

/-- Remove the stuffed bits: every bit that follows six consecutive repeats; one equal to the run is a stuff error
(R191). The kept bits come in reverse order behind `acc`. -/
def destuff : LineEnd → List Bool → List Bool → Nat → List Bool × LineEnd × Nat
  | e, [], acc, errs => (acc, e, errs)
  | (l, n), b :: bs, acc, errs =>
    if 6 ≤ n then
      if b = l then destuff (b, 6) bs acc (errs + 1) else destuff (b, 0) bs acc errs
    else destuff (b, if b = l then n + 1 else 0) bs (b :: acc) errs

/-- A block as the receiver takes it from the line: header, payload bytes as scrambled, line end, stuff errors
(R191). -/
def takeBlock (e : LineEnd) (line : List Bool) : Nat × List Byte × LineEnd × Nat :=
  let (acc, e', errs) := destuff e line [] 0
  let kept := acc.reverse
  (bitsValue (kept.take 64), bitBytes 1024 (kept.drop 64), e', errs)

/-- The payload of a received block (R188): DROPPED blocks are not scrambled. -/
def descramble (header : Nat) (payload : List Byte) : List Byte :=
  if headerType header = 6 then payload
  else bitBytes 1024 (scramble (scrambleSeed (headerSeq header) (headerK header)) (lineBits payload))

/-- Does a payload's block CRC hold (R193). -/
def blockCrcGood (p : List Byte) : Bool := decide (ofLe ((p.drop 1020).take 4) = crc32c (p.take 1020))

/-- A 32-bit word of a payload. -/
def payWord (p : List Byte) (i : Nat) : Nat := ofLe ((p.drop (4 * i)).take 4)

/-- n-bit fields packed as a little-endian bit string. -/
def packFields (n : Nat) (vs : List Nat) : List Byte :=
  leBytes (ceilDiv (n * vs.length) 8) (vs.foldr (fun v acc => v % 2 ^ n + acc * 2 ^ n) 0)

/-- The count fields of n bits packed in bytes. -/
def unpackFields (n count : Nat) (bs : List Byte) : List Nat :=
  let v := ofLe bs
  (List.range count).map (fun j => v / 2 ^ (n * j) % 2 ^ n)

/-- A VIDEO pixel in packed form, of a 32-bit pixel word (R94, R194), and back. -/
def packPixel (fmt w : Nat) : Nat := if fmt = 2 then w / 2 ^ 10 % 2 ^ 20 else w % 2 ^ 30
def unpackPixel (fmt v : Nat) : Nat := if fmt = 2 then v * 2 ^ 10 else v

/-- Bits a packed pixel takes, and pixels a full block holds (R194). -/
def pixelBits (fmt : Nat) : Nat := if fmt = 2 then 20 else 30
def pixelsPerBlock (fmt : Nat) : Nat := if fmt = 2 then 400 else 267

/-- CRC-32C of a line's pixels in word form (R195). -/
def lineCrc (ws : List Nat) : Nat := crc32c (wordBytes ws)

/-- The VIDEO payloads of a line, without block CRCs (R194). -/
def videoBodies (stream frame line fmt crc : Nat) : Nat → Nat → List Nat → List (List Byte)
  | 0, _, _ => []
  | fuel + 1, pix, ws =>
    let p := pixelsPerBlock fmt
    let now := ws.take p
    let rest := ws.drop p
    let last := rest.isEmpty
    (wordBytes [stream * 2 ^ 27 + frame % 2 ^ 27, line * 2 ^ 16 + pix * 8 + ofBool last * 4 + fmt, now.length * 2 ^ 16,
        if last then crc else 0] ++ packFields (pixelBits fmt) (now.map (packPixel fmt)))
      :: (if last then [] else videoBodies stream frame line fmt crc fuel (pix + p) rest)

end Sys2Proof.Machine
end

