-- ==== Sys2Proof/Machine/TimeUnit.lean ====
section
/-!
DEFINITION. Machine/TimeUnit.lean: network time (chapter 4): reads of the local clock, the servo and its states,
the holdover bound, the capture inputs, and the triggers' schedules. A step of the clock stands in
Machine/ClockStep.lean, for it also moves the tick and the heads.
-/

namespace Sys2Proof.Machine

/-! ## States and the holdover bound -/

/-- State of the time unit: 0 FREE, 1 LOCKED, 2 HOLDOVER (R118). -/
def timeState (s : State) : Nat := fld s R.TIM_STATUS 1 0

/-- The holdover uncertainty bound U in ns (R119); 0 in FREE, the value R76 uses there. -/
def uBound (s : State) : Nat :=
  if timeState s = 0 then 0
  else if timeState s = 1 then min s.tim.lastOfs (2 ^ 48 - 1)
  else
    min (s.tim.lastOfs + fld s R.TIM_HO_RATE 16 0 * (s.elapsed - s.tim.holdAt) / (1000000000 * nsUnit)) (2 ^ 48 - 1)

/-- Move the time unit to a state: both status registers show it and EV_TIME_STATE is raised (R118). -/
def setTimeState (new : Nat) (s : State) : State :=
  let old := timeState s
  if old = new then s
  else
    let s := setFld (setFld s R.TIM_STATUS 1 0 new) R.TCK_STATUS 3 2 new
    raise { code := 0x36, sub := old * 4 + new, a0 := uBound s, a1 := uBound s / 2 ^ 32 } s

/-- FREQ and FMAX as signed values (R105). -/
def freqOf (s : State) : Int := sint 32 (rd s R.TIM_FREQ)
def fmaxOf (s : State) : Int := rd s R.TIM_FMAX

/-- HOLDOVER is entered: FREQ moves to the integral, subject to SLEW and within FMAX, and the bound begins to grow
(R105, R118, R119). -/
def enterHoldover (s : State) : State :=
  let slew : Int := rd s R.TIM_SLEW
  let f := clampInt (freqOf s - slew) (freqOf s + slew) (sint 32 (rd s R.TIM_INTEGRAL))
  let s := wr s R.TIM_FREQ (uint 32 (clampInt (-fmaxOf s) (fmaxOf s) f))
  setTimeState 2 { s with tim := { s.tim with holdAt := s.elapsed } }

/-! ## The servo (R111 to R115) -/

/-- θ of the servo input, in units of 2⁻¹⁶ ns. -/
def servoTheta (s : State) : Int := sint 64 (rd64 s R.TIM_SRV_OFS_LO R.TIM_SRV_OFS_HI)

/-- A refused sample (R114). -/
def servoRefuse (θ : Int) (s : State) : State :=
  let s := wr64 s R.TIM_PEND_OFS_LO R.TIM_PEND_OFS_HI (uint 64 θ)
  let s := addFld s R.TIM_PEND_ID 15 0 1
  let s := setFlag (setFlag s R.TIM_STATUS 3 true) R.TIM_STATUS 4 true
  let s := addReg s R.TIM_REFUSED_COUNT 1
  let s := raise { code := 0x31, a0 := uint 64 θ, a1 := uint 64 θ / 2 ^ 32, a2 := rd s R.TIM_PEND_ID } s
  if timeState s = 1 then enterHoldover s else s

/-- An accepted sample withdraws a pending refusal (R115). -/
def servoWithdraw (s : State) : State :=
  if flag s R.TIM_STATUS 3 then
    raise { code := 0x32, a0 := rd s R.TIM_PEND_ID } (setFlag s R.TIM_STATUS 3 false)
  else s

/-- The new integral and frequency of an accepted sample (R112): e is −θ in whole ns, truncated toward zero. -/
def servoLaw (s : State) (θ : Int) : Int × Int :=
  let e := Int.tdiv (-θ) 65536
  let fm := fmaxOf s
  let slew : Int := rd s R.TIM_SLEW
  let i := clampInt (-fm) fm (sint 32 (rd s R.TIM_INTEGRAL) + (fld s R.TIM_KI 15 0 : Int) * e)
  let f := clampInt (-fm) fm (i + (fld s R.TIM_KP 15 0 : Int) * e)
  (i, clampInt (freqOf s - slew) (freqOf s + slew) f)

/-- An accepted sample (R112, R115, R118). -/
def servoAccept (θ : Int) (s : State) : State :=
  let (i, f) := servoLaw s θ
  let s := wr (wr s R.TIM_INTEGRAL (uint 32 i)) R.TIM_FREQ (uint 32 f)
  let s := wr s R.TIM_LAST_OFS (uint 32 (clampInt (-2147483648) 2147483647 (Int.tdiv θ 65536)))
  let s := { s with tim := { s.tim with lastOfs := ceilDiv θ.natAbs 65536, acceptAt := s.elapsed } }
  setTimeState 1 (servoWithdraw s)

/-- A sample whose path delay is too long (R111 step 2). -/
def servoDiscard (θ : Int) (s : State) : State :=
  let s := setFlag (addReg s R.TIM_DISCARD_COUNT 1) R.TIM_STATUS 5 true
  raise { code := 0x30, a0 := rd s R.TIM_SRV_DELAY, a1 := uint 64 θ, a2 := uint 64 θ / 2 ^ 32 } s

/-- The servo handles one sample (R111). -/
def servoSample (s : State) : State :=
  let θ := servoTheta s
  if !flag s R.TIM_CTRL 0 then s
  else if rd s R.TIM_DELAY_MAX < rd s R.TIM_SRV_DELAY then servoDiscard θ s
  else if fld s R.TIM_STEP_LIMIT 29 0 * 65536 < θ.natAbs then servoRefuse θ s
  else servoAccept θ s

/-- SERVO_SAMPLE: a write to TIM_SRV_CMD; GO = 1 submits one sample (R111). -/
def execServoSample (v : Word) (s : State) : Host.Outcome State Fault Refusal :=
  live s (fun s => if bit v.toNat 31 then servoSample s else s)

/-- Clearing SERVO_EN keeps FREQ, sets I to 0, clears a pending refusal and returns to FREE (R113, R118). -/
def servoOff (s : State) : State :=
  let s := wr (setFlag s R.TIM_CTRL 0 false) R.TIM_INTEGRAL 0
  setTimeState 0 (setFlag s R.TIM_STATUS 3 false)

/-- SERVO_DISABLE: a write of SERVO_EN = 0. -/
def execServoDisable (s : State) : Host.Outcome State Fault Refusal := live s servoOff

/-- A write to TIM_FREQ (0) or INC_NOM (1 low word, 2 high word): only while SERVO_EN is 0; FREQ is held within
±FMAX (R105, R113). -/
def freqWrite (reg v : Nat) (s : State) : State :=
  if flag s R.TIM_CTRL 0 then s
  else if reg = 0 then wr s R.TIM_FREQ (uint 32 (clampInt (-fmaxOf s) (fmaxOf s) (sint 32 v)))
  else if reg = 1 then wr s R.TIM_INC_NOM_LO v
  else wr s R.TIM_INC_NOM_HI (bits v 3 0)

/-- FREQ_WRITE. -/
def execFreqWrite (reg : Fin 3) (v : Word) (s : State) : Host.Outcome State Fault Refusal :=
  live s (freqWrite reg.val v.toNat)

/-- HOLD_TIMEOUT in the unit of the clock. -/
def holdTimeout (s : State) : Nat := fld s R.TIM_HOLD_TIMEOUT 15 0 * 1000000 * nsUnit

/-- HOLDOVER_TIMEOUT: while LOCKED, HOLD_TIMEOUT passes since the last accepted sample (R118). -/
def execHoldoverTimeout (s : State) : Host.Outcome State Fault Refusal :=
  liveAon s (fun s =>
    if timeState s = 1 then enterHoldover (waitElapsed (s.tim.acceptAt + holdTimeout s) s) else s)

/-! ## Reads that latch -/

/-- TIM_NOW_READ: a read of TIM_NOW_SEC_LO latches the whole local time (R106). -/
def execTimNowRead (s : State) : Host.Outcome State Fault Refusal :=
  live s (fun s =>
    let t := s.clock
    wr (wr (wr64 s R.TIM_NOW_SEC_LO R.TIM_NOW_SEC_HI (timeSec t)) R.TIM_NOW_NS (timeNs t)) R.TIM_NOW_FRAC (timeFrac t))

/-- TIM_U_READ: a read of TIM_U_LO returns U and latches its upper part (R119). -/
def execTimURead (s : State) : Host.Outcome State Fault Refusal :=
  live s (fun s => wr64 s R.TIM_U_LO R.TIM_U_HI (uBound s))

/-! ## Capture inputs (R121, R122) -/

/-- A capture input's state. -/
def capAt (s : State) (c : Nat) : CapSt := smGet (fun _ => {}) s.tim.caps c
def setCap (c : Nat) (x : CapSt) (s : State) : State :=
  setFld { s with tim := { s.tim with caps := smSet (fun _ => {}) s.tim.caps c x } } (R.TIM_CAP_STATUS c) 2 0 x.fifo.length

/-- The largest error of a stamp, ±3.2 ns (R121). -/
def stampError : Int := 13743895347

/-- Is an edge selected by the input's CTRL (R121). -/
def edgeSelected (s : State) (c : Nat) (rising : Bool) : Bool :=
  flag s (R.TIM_CAP_CTRL c) 0 && flag s (R.TIM_CAP_CTRL c) (if rising then 1 else 2)

/-- A selected edge: stamped into the FIFO; lost when it follows the last stamped edge by less than 16 ns (R121) or
when the FIFO is full, which raises EV_CAPTURE_LOST (R122). -/
def captureEdge (c : Nat) (rising : Bool) (err : Int) (s : State) : State :=
  let x := capAt s c
  let close := match x.lastEdge with
    | some t => decide (s.elapsed < t + 16 * nsUnit)
    | none => false
  if close then addFld s (R.TIM_CAP_STATUS c) 31 16 1
  else if 4 ≤ x.fifo.length then
    let s := addFld s (R.TIM_CAP_STATUS c) 31 16 1
    raiseOnce c { code := 0x37, unit := c, a0 := fld s (R.TIM_CAP_STATUS c) 31 16 } s
  else
    let stamp := ((s.clock : Int) + clampInt (-stampError) stampError err).toNat
    setCap c { fifo := x.fifo ++ [(stamp, rising)], lastEdge := some s.elapsed } s

/-- CAPTURE_EDGE; `err` is the error of the stamp, within ±3.2 ns, in 2⁻³² ns. -/
def execCaptureEdge (input : Fin 17) (rising : Bool) (err : Int) (s : State) : Host.Outcome State Fault Refusal :=
  liveAon s (fun s => if edgeSelected s input.val rising then captureEdge input.val rising err s else s)

/-- Show a stamp in an input's registers. -/
def showStamp (c t : Nat) (rising : Bool) (s : State) : State :=
  let s := wr64 s (R.TIM_CAP_SEC_LO c) (R.TIM_CAP_SEC_HI c) (timeSec t)
  setFlag (wr (wr s (R.TIM_CAP_NS c) (timeNs t)) (R.TIM_CAP_FRAC c) (timeFrac t)) (R.TIM_CAP_STATUS c) 3 rising

/-- CAPTURE_FIFO_READ: the oldest stamp moves into the registers; an empty FIFO sets them to 0, and POL of _STATUS keeps
its value (R122). DESIGN CHOICE: log entry 88. -/
def execCaptureFifoRead (input : Fin 17) (s : State) : Host.Outcome State Fault Refusal :=
  live s (fun s =>
    let c := input.val
    let x := capAt s c
    match x.fifo with
    | [] => showStamp c 0 (flag s (R.TIM_CAP_STATUS c) 3) s
    | (t, pol) :: rest => showStamp c t pol (setCap c { x with fifo := rest } s))

/-! ## Triggers (R123 to R126) -/

/-- A trigger's state. -/
def trigAt (s : State) (t : Nat) : TrigSt := smGet (fun _ => {}) s.tim.trigs t
def setTrig (t : Nat) (x : TrigSt) (s : State) : State :=
  { s with tim := { s.tim with trigs := smSet (fun _ => {}) s.tim.trigs t x } }

/-- START and PERIOD of a trigger in 2⁻³² ns. -/
def trigStart (s : State) (t : Nat) : Nat :=
  mkTime (rd64 s (R.TIM_TRIG_START_SEC_LO t) (R.TIM_TRIG_START_SEC_HI t)) (fld s (R.TIM_TRIG_START_NS t) 29 0)
    (rd s (R.TIM_TRIG_START_FRAC t))
def trigPeriod (s : State) (t : Nat) : Nat :=
  rd s (R.TIM_TRIG_PERIOD_NS t) * nsUnit + rd s (R.TIM_TRIG_PERIOD_FRAC t)
def trigWidth (s : State) (t : Nat) : Nat := rd s (R.TIM_TRIG_WIDTH_NS t) * nsUnit

/-- Is a trigger one-shot, and is it armed. -/
def trigOneShot (s : State) (t : Nat) : Bool := !flag s (R.TIM_TRIG_CTRL t) 2
def trigArmed (s : State) (t : Nat) : Bool := flag s (R.TIM_TRIG_CTRL t) 4

/-- I_k of a trigger (R123). -/
def trigInstant (s : State) (t k : Nat) : Nat := trigStart s t + k * trigPeriod s t

/-- Index of the earliest instant later than a time. -/
def trigNextAfter (s : State) (t now : Nat) : Nat :=
  if now < trigStart s t then 0 else (now - trigStart s t) / trigPeriod s t + 1

/-- Does the series of a trigger hold an instant of index k: one-shot uses I_0 only; COUNT instants, 0 unbounded. -/
def trigHas (s : State) (t k : Nat) : Bool :=
  if trigOneShot s t then decide (k = 0)
  else decide (rd s (R.TIM_TRIG_COUNT t) = 0 ∨ k < rd s (R.TIM_TRIG_COUNT t))

/-- The wall tick's period in 2⁻³² ns, rounded down. -/
def tickPeriod (s : State) : Nat := rd s R.TCK_PERIOD_NUM * nsUnit / fld s R.TCK_PERIOD_DEN 15 0

/-- The limits on a schedule (R123); trigger 9 is held to the tick's period, rounded down (R126). DESIGN CHOICE: log
entry 88. -/
def trigValid (s : State) (t : Nat) : Bool :=
  let p := if t = 9 then tickPeriod s else trigPeriod s t
  let w := trigWidth s t
  decide (8 * nsUnit ≤ w ∧ w + 8 * nsUnit ≤ p ∧ (t = 9 ∨ (100 * nsUnit ≤ p ∧ p ≤ 4294967295 * nsUnit)))

/-- W1C bits of a trigger's CTRL in a written value. -/
def trigClear (t v : Nat) (s : State) : State :=
  let r := R.TIM_TRIG_CTRL t
  let s := if bit v 7 then setFlag s r 7 false else s
  let s := if bit v 6 then setFlag s r 6 false else s
  if bit v 5 then setFlag s r 5 false else s

/-- Disarm a trigger. -/
def trigDisarm (t : Nat) (s : State) : State := setFlag s (R.TIM_TRIG_CTRL t) 4 false

/-- Arm a trigger from its current registers (R123, R124). -/
def trigArm (t : Nat) (s : State) : State :=
  let r := R.TIM_TRIG_CTRL t
  if !trigValid s t then raise { code := 0x38, unit := t } (setFlag s r 7 true)
  else if t = 9 then setFlag s r 4 true
  else
    let k := trigNextAfter s t s.clock
    if trigHas s t k then setTrig t { trigAt s t with next := k } (setFlag s r 4 true)
    else if trigOneShot s t then setFlag s r 5 true
    else s

/-- A write to TIM_TRIG_t_CTRL (R124): the sticky bits clear; MODE and POL are stored while the trigger is not
armed, else left with WRITE_IGNORED; ARM = 1 arms a trigger that is not armed, ARM = 0 disarms at once and cuts a
pulse short. -/
def trigCtrlWrite (t v : Nat) (s : State) : State :=
  let r := R.TIM_TRIG_CTRL t
  let s := trigClear t v s
  let s := if trigArmed s t && bit v 0 then
      (if fld s r 2 1 = bits v 2 1 then s else setFlag s r 6 true)
    else setFld s r 2 1 (bits v 2 1)
  let was := trigArmed s t
  let s := setFlag s r 0 (bit v 0)
  if bit v 0 then (if was then s else trigArm t s)
  else setTrig t { trigAt s t with pulseEnd := none } (trigDisarm t s)

/-- TRIGGER_ARM and TRIGGER_DISARM: a write to TIM_TRIG_t_CTRL with ARM = 1, with ARM = 0. -/
def execTriggerArm (t : Fin 12) (v : Word) (s : State) : Host.Outcome State Fault Refusal :=
  live s (trigCtrlWrite t.val (setBits v.toNat 0 0 1))
def execTriggerDisarm (t : Fin 12) (v : Word) (s : State) : Host.Outcome State Fault Refusal :=
  live s (trigCtrlWrite t.val (setBits v.toNat 0 0 0))

/-- A trigger fires: its output goes active for WIDTH_NS and FIRED counts (R123). -/
def trigFires (t : Nat) (s : State) : State :=
  setTrig t { trigAt s t with pulseEnd := some (s.clock + trigWidth s t) } (addReg s (R.TIM_TRIG_FIRED t) 1)

/-- The next instant of an armed trigger is reached and fired; the series ends after its last instant. -/
def trigReach (t : Nat) (s : State) : State :=
  let k := (trigAt s t).next
  let s := trigFires t (waitClock (trigInstant s t k) s)
  if trigHas s t (k + 1) then setTrig t { trigAt s t with next := k + 1 } s else trigDisarm t s

/-- TRIGGER_PULSE_END: a pulse has lasted WIDTH_NS (R123). -/
def execTriggerPulseEnd (t : Fin 12) (s : State) : Host.Outcome State Fault Refusal :=
  liveAon s (fun s =>
    match (trigAt s t.val).pulseEnd with
    | some e => let s := waitClock e s
                setTrig t.val { trigAt s t.val with pulseEnd := none } s
    | none => s)

/-- The level of a trigger's output pin: active (by POL) during a pulse (R123, R476). DEDUCED: log entry 79. -/
def trigLevel (s : State) (t : Nat) : Bool :=
  (trigAt s t).pulseEnd.isSome != flag s (R.TIM_TRIG_CTRL t) 1

/-- An armed trigger after a step of the local clock (R125): the next instant is the earliest later than the stepped
time; instants a forward step passed over are counted and reported; a one-shot passed over is missed. -/
def trigStepped (t : Nat) (s : State) : State :=
  if !trigArmed s t || t == 9 then s
  else
    let x := trigAt s t
    let k := trigNextAfter s t s.clock
    let passed := k - x.next
    let r := R.TIM_TRIG_CTRL t
    let left := if trigOneShot s t then 1 - x.next
      else if rd s (R.TIM_TRIG_COUNT t) = 0 then passed else rd s (R.TIM_TRIG_COUNT t) - x.next
    let missed := min passed left
    let s := if 0 < missed then
        raise { code := 0x39, unit := t, a0 := missed } (addFld s r 31 8 missed)
      else s
    if trigHas s t k then setTrig t { x with next := k } s
    else if trigOneShot s t then trigDisarm t (setFlag s r 5 true)
    else trigDisarm t s

/-- Every armed trigger recomputes its next instant after a step (R125). -/
def triggersStepped (s : State) : State := (List.range 12).foldl (fun s t => trigStepped t s) s

/-- A write to one of the schedule registers of a trigger (R124, R126): stored while not armed; trigger 9 has only
its width. -/
def trigRegWrite (t off v : Nat) (s : State) : State :=
  if trigArmed s t then setFlag s (R.TIM_TRIG_CTRL t) 6 true
  else if t = 9 ∧ off ≠ R.TIM_TRIG_WIDTH_NS 9 then s
  else if off = R.TIM_TRIG_START_NS t then wr s off (bits v 29 0)
  else if off = R.TIM_TRIG_FIRED t then s
  else wr s off v

/-- A write to the time unit's plain registers: the stored value is held within the bounds of its register (R105 and
the TIM register table). -/
def timRegWrite (off v : Nat) (s : State) : State :=
  if off = R.TIM_FMAX then
    let s := wr s off (min v 256000000)
    wr s R.TIM_FREQ (uint 32 (clampInt (-fmaxOf s) (fmaxOf s) (freqOf s)))
  else if off = R.TIM_STEP_LIMIT then wr s off (clampNat 1000 1000000000 (bits v 29 0))
  else if off = R.TIM_HOLD_TIMEOUT then wr s off (clampNat 100 60000 (bits v 15 0))
  else if off = R.TIM_HO_RATE then wr s off (clampNat 1 100000 (bits v 16 0))
  else s

end Sys2Proof.Machine
end

