-- ==== Sys2Proof/Machine/Lanes.lean ====
section
/-!
DEFINITION. Machine/Lanes.lean: W-lanes: quads and PLLs (R182, R183, R491), lane states (R201 to R207), the blocks a
lane sends (R190, R194 to R200, R202, R211), the blocks it receives (R193, R200, R205, R206), frames of capture
streams and tiles (R208, R212, R240), and the rotation over the spare slice (R214, R215).
-/

namespace Sys2Proof.Machine

/-- A head's state beside its registers. -/
def headAt (s : State) (h : Nat) : Head := smGet (fun _ => {}) s.heads h
def setHead (h : Nat) (x : Head) (s : State) : State := { s with heads := smSet (fun _ => {}) s.heads h x }

/-! ## Quads and modes -/

/-- MODE and RATE of a lane, and its state code (R182, R201). -/
def laneMode (s : State) (n : Nat) : Nat := fld s (R.LANE_CTRL n) 3 1
def laneRate (s : State) (n : Nat) : Nat := fld s (R.LANE_CTRL n) 5 4
def laneState (s : State) (n : Nat) : Nat := fld s (R.LANE_STATUS n) 2 0

/-- Is a lane an NGZ lane that is not OFF. -/
def laneNgz (s : State) (n : Nat) : Bool := decide (laneState s n ≠ 0 ∧ laneMode s n = 0)

/-- Line rate of an NGZ rate in bit/s (R182). -/
def ngzRate (r : Nat) : Nat := [6250000000, 12500000000, 25000000000].getD r 28125000000

/-- Block time of an NGZ rate in 2⁻³² ns. -/
def blockTime (r : Nat) : Nat := 8384 * 1000000000 * nsUnit / ngzRate r

/-- The PLL frequency code of a mode (R182, QUAD_q_STATUS). -/
def pllCode (mode rate : Nat) : Nat := if mode = 0 then (if rate = 3 then 2 else 1) else if mode = 1 then 4 else 3

/-- FREQ of PLL A (false) or B (true) of a quad. -/
def pllFreq (s : State) (q : Nat) (b : Bool) : Nat := if b then fld s (R.QUAD_STATUS q) 15 12 else fld s (R.QUAD_STATUS q) 11 8
def setPllFreq (q : Nat) (b : Bool) (v : Nat) (s : State) : State :=
  if b then setFld s (R.QUAD_STATUS q) 15 12 v else setFld s (R.QUAD_STATUS q) 11 8 v

/-- LOCK of a PLL. -/
def pllLocked (s : State) (q : Nat) (b : Bool) : Bool := flag s (R.QUAD_STATUS q) (ofBool b)

/-- The PLL of its quad that serves, or would be assigned to serve, a frequency (R182, R491). -/
def pllFor (s : State) (q code : Nat) : Option Bool :=
  if pllFreq s q false = code then some false
  else if pllFreq s q true = code then some true
  else if pllFreq s q false = 0 then some false
  else if pllFreq s q true = 0 then some true
  else none

/-- The lanes of a quad that are not OFF and use a frequency. -/
def pllUsers (s : State) (q code : Nat) : List Nat :=
  ((List.range 8).map (fun i => 8 * q + i)).filter (fun n =>
    !laneOff s n && decide (pllCode (laneMode s n) (laneRate s n) = code))

/-- A PLL whose last lane has reached OFF stops (R491). -/
def pllRelease (q : Nat) (b : Bool) (s : State) : State :=
  if pllFreq s q b ≠ 0 ∧ pllUsers s q (pllFreq s q b) = [] then
    setFlag (setPllFreq q b 0 s) (R.QUAD_STATUS q) (ofBool b) false
  else s

/-! ## States of the receive side (R184, R201) -/

/-- The lane slice carries the lane again (R214, R215). -/
def spareReturn (n : Nat) (event : Bool) (s : State) : State :=
  if flag s (R.LANE_STATUS n) 5 then
    let s := setFlag (setFlag s (R.LANE_STATUS n) 5 false) (R.QUAD_SPARE (n / 8)) 4 false
    let s := addReg s (R.QUAD_SWITCHES (n / 8)) 1
    if event then raise { code := 0x4D, unit := n, sub := 1 } s else s
  else s

/-- An Ethernet lane enters or leaves UP (R184). DEDUCED: log entry 59. -/
def ethLink (n : Nat) (up : Bool) (s : State) : State :=
  if laneMode s n = 0 then s
  else
    let m := fld s (R.LANE_CTRL n) 10 8
    raise { code := 0x52, unit := m, sub := ofBool up } (setFlag s (R.ETH_STATUS m) 0 up)

/-- A lane moves to a state: EV_LANE_STATE, and what entering LOST or UP brings (R201, R215). -/
def setLaneState (n new : Nat) (s : State) : State :=
  let old := laneState s n
  if old = new then s
  else
    let s := raise { code := 0x48, unit := n, sub := old * 8 + new } (setFld s (R.LANE_STATUS n) 2 0 new)
    let s := if old = 3 then ethLink n false s else if new = 3 then ethLink n true s else s
    if new = 4 then
      let s := addReg s (R.LANE_RX_LOST_ENTRIES n) 1
      if (calOf s n).isSome then calFail n 1 false (spareReturn n true s) else s
    else s

/-- The fields of CTRL that hold only while the lane is OFF. -/
def laneCtrlMask : Nat := 0x773E

/-- A write of CTRL to a lane that is not OFF: a change beside EN is ignored (R183). DEDUCED: log entry 59. -/
def laneCtrlKeep (n v : Nat) (s : State) : State :=
  if v &&& laneCtrlMask = rd s (R.LANE_CTRL n) &&& laneCtrlMask then s else setFlag s (R.LANE_STATUS n) 7 true

/-- Does another lane that is not OFF use a MAC (R183). -/
def macTaken (s : State) (n m : Nat) : Bool :=
  (List.range 32).any (fun k =>
    decide (k ≠ n) && !laneOff s k && decide (1 ≤ laneMode s k) && decide (fld s (R.LANE_CTRL k) 10 8 = m))

/-- A lane starts (R183, R187, R201, R202, R491). DEDUCED: log entry 55. -/
def laneStart (n : Nat) (b : Bool) (s : State) : State :=
  let q := n / 8
  let code := pllCode (laneMode s n) (laneRate s n)
  let s := setFlag (setPllFreq q b code s) (R.LANE_CTRL n) 0 true
  let locked := pllLocked s q b
  let s := setLane n { nextAt := if locked then some s.elapsed else none, blind := true,
                       blindEnd := s.elapsed + fld s (R.LANE_BLIND n) 15 0 * 1000 * nsUnit,
                       retimes := [] } s
  let s := setFlag (wr s (R.LANE_TX_SEQ n) 0) (R.LANE_STATUS n) 8 false
  let s := if laneMode s n = 0 then s else wr s (R.ETH_STATUS (fld s (R.LANE_CTRL n) 10 8)) (2 ^ 8 + n * 8)
  setLaneState n 1 s

/-- LANE_ENABLE: a write of CTRL with EN = 1 (R183). DEDUCED: log entry 59. -/
def laneEnable (n v : Nat) (s : State) : State :=
  if !laneOff s n then laneCtrlKeep n v s
  else
    let s := wr s (R.LANE_CTRL n) (v &&& laneCtrlMask)
    let mode := laneMode s n
    if 3 < mode ∨ (1 ≤ mode ∧ macTaken s n (fld s (R.LANE_CTRL n) 10 8)) then setFlag s (R.LANE_STATUS n) 6 true
    else match pllFor s (n / 8) (pllCode mode (laneRate s n)) with
      | some b => laneStart n b s
      | none => setFlag s (R.LANE_STATUS n) 6 true

/-- A lane is OFF at once (R183). -/
def laneStop (n : Nat) (s : State) : State :=
  let s := if (calOf s n).isSome then calAbort n s else s
  let s := spareReturn n false s
  let s := setFlag (setFlag (setLaneState n 0 s) (R.LANE_CTRL n) 0 false) (R.LANE_STATUS n) 4 false
  let s := setFlag (setLane n {} s) (R.LANE_STATUS n) 8 false
  let s := if laneMode s n = 0 then s else wr s (R.ETH_STATUS (fld s (R.LANE_CTRL n) 10 8)) 0
  ledgerRepair (pllRelease (n / 8) true (pllRelease (n / 8) false s))

/-- LANE_DISABLE: a write of CTRL with EN = 0 (R183). DEDUCED: log entry 59. -/
def laneDisable (n v : Nat) (s : State) : State :=
  if laneOff s n then wr s (R.LANE_CTRL n) (v &&& laneCtrlMask) else laneStop n (laneCtrlKeep n v s)

/-- LANE_ENABLE and LANE_DISABLE; an absent lane ignores them (R2). -/
def execLaneEnable (n : Fin 32) (ctrl : Word) (s : State) : Host.Outcome State Fault Refusal :=
  live s (fun s => if unitPresent s.part .lane n.val then laneEnable n.val ctrl.toNat s else s)
def execLaneDisable (n : Fin 32) (ctrl : Word) (s : State) : Host.Outcome State Fault Refusal :=
  live s (fun s => if unitPresent s.part .lane n.val then laneDisable n.val ctrl.toNat s else s)

/-- QUAD_PLL_LOCK: the lanes of the PLL send their first block at the next block boundary (R491). -/
def execQuadPllLock (q : Fin 4) (pllB : Bool) (s : State) : Host.Outcome State Fault Refusal :=
  live s (fun s =>
    if pllFreq s q.val pllB = 0 ∨ pllLocked s q.val pllB then s
    else
      let s := setFlag s (R.QUAD_STATUS q.val) (ofBool pllB) true
      (pllUsers s q.val (pllFreq s q.val pllB)).foldl (fun s n =>
        setLane n { laneAt s n with nextAt := some s.elapsed } s) s)

/-- CDR_LOCK (R201). -/
def execCdrLock (n : Fin 32) (s : State) : Host.Outcome State Fault Refusal :=
  live s (fun s =>
    if laneOff s n.val then s
    else
      let s := setFlag s (R.LANE_STATUS n.val) 4 true
      if laneState s n.val = 1 then setLaneState n.val 2 (setLane n.val { laneAt s n.val with valid := 0, hunt := [] } s) else s)

/-- CDR_LOSS (R201). -/
def execCdrLoss (n : Fin 32) (s : State) : Host.Outcome State Fault Refusal :=
  live s (fun s =>
    if laneOff s n.val then s
    else
      let s := setFlag s (R.LANE_STATUS n.val) 4 false
      let st := laneState s n.val
      if st = 3 then setLaneState n.val 4 s else if st = 2 then setLaneState n.val 1 s else s)

/-- The lane leaves LOST at the next block boundary (R201). DEDUCED: log entry 56. -/
def laneLeaveLost (n : Nat) (s : State) : State :=
  if laneState s n ≠ 4 then s
  else if flag s (R.LANE_STATUS n) 4 then setLaneState n 2 (setLane n { laneAt s n with valid := 0 } s)
  else setLaneState n 1 s

/-- ETH_LINK_CHANGE: an Ethernet lane is UP exactly while its PCS is locked without a fault (R184). DEDUCED: log entry 59. -/
def execEthLinkChange (n : Fin 32) (locked localFault remoteFault : Bool) (s : State) :
    Host.Outcome State Fault Refusal :=
  live s (fun s =>
    if laneOff s n.val || decide (laneMode s n.val = 0) then s
    else
      let good := locked && !localFault && !remoteFault
      let m := fld s (R.LANE_CTRL n.val) 10 8
      let s := setFlag (setFlag s (R.ETH_STATUS m) 1 localFault) (R.ETH_STATUS m) 2 remoteFault
      let s := laneLeaveLost n.val s
      let st := laneState s n.val
      if st = 2 && good then setLaneState n.val 3 s
      else if st = 3 && !good then setLaneState n.val 4 s
      else s)

/-- BLIND_PERIOD_END: BLIND_US after EN = 1 every block type may be sent (R202). -/
def execBlindPeriodEnd (n : Fin 32) (s : State) : Host.Outcome State Fault Refusal :=
  live s (fun s =>
    if laneOff s n.val || !(laneAt s n.val).blind then s
    else
      let s := waitElapsed (laneAt s n.val).blindEnd s
      setLane n.val { laneAt s n.val with blind := false } s)

/-! ## The transmit queue of a lane (R196, R202) -/

/-- The heads of a lane's valid HEAD entries (R213). -/
def laneHeads (s : State) (n : Nat) : List Nat :=
  ((List.range 4).map (fun k => lrd s (R.LANE_TX n k))).filterMap (fun e =>
    if bit e 31 && !bit e 28 then some (bits e 8 0) else none)

/-- The NGZ lanes, not OFF, that carry a head. -/
def lanesOf (s : State) (h : Nat) : List Nat :=
  (List.range 32).filter (fun n => laneNgz s n && (laneHeads s n).contains h)

/-- Change the account of a head frame on a lane, opening it where it does not exist. -/
def updFrame (h n : Nat) (f : FrameTx → FrameTx) : List FrameTx → List FrameTx
  | [] => [f { head := h, n := n }]
  | x :: xs => if x.head = h ∧ x.n = n then f x :: xs else x :: updFrame h n f xs

/-- The line of a head that entered the transmit buffer last. -/
def lastEntered (x : LaneSt) (h : Nat) : Option (Nat × Nat) :=
  ((x.frames.filter (fun f => decide (f.head = h))).getLast?).map (fun f => (f.n, f.lastLine))

/-- A line enters a lane's transmit buffer: blocks of the line two before it that are unsent are omitted; in the blind
period its own blocks are withheld (R196, R202). DEDUCED: log entry 55. -/
def pushLine (lane h n line : Nat) (bodies : List (List Byte)) (s : State) : State :=
  let x := laneAt s lane
  let prev := lastEntered x h
  let stale (b : VidBlk) : Bool := decide (b.head = h) && decide (prev ≠ some (b.n, b.line))
  let gone := x.video.filter stale
  let frames := gone.foldl (fun fs b => updFrame h b.n (fun f => { f with damaged := true }) fs) x.frames
  let frames := frames.filter (fun f => decide (f.head ≠ h ∨ f.n = n) || f.words.isSome)
  let frames := updFrame h n (fun f => { f with lastLine := line, damaged := f.damaged || x.blind }) frames
  let new := if x.blind then [] else bodies.map (fun b => { head := h, n := n, line := line, body := b : VidBlk })
  let s := addReg s (R.LANE_TX_SKIPPED lane) gone.length
  setLane lane { x with video := x.video.filter (fun b => !stale b) ++ new, frames := frames } s

/-- A TRAILER falls due on a lane; in the blind period it is not sent (R196, R202). -/
def pushTrailer (lane h n : Nat) (words : List Nat) (s : State) : State :=
  let x := laneAt s lane
  let frames := if x.blind then x.frames.filter (fun f => !decide (f.head = h ∧ f.n = n))
    else updFrame h n (fun f => { f with words := some words }) x.frames
  setLane lane { x with frames := frames } s

/-! ## What a lane sends -/

/-- A block to send: TYPE, payload bytes, and for VIDEO the head frame it belongs to. -/
structure TxBlk where
  typ : Nat
  payload : List Byte
  video : Option (Nat × Nat) := none
deriving DecidableEq, Repr

/-- The STATUS message of the device (R199, R200). -/
def statusMsg (s : State) (n : Nat) : List Nat :=
  let p := ((laneAt s n).span).getD { start := 0, last := 0, received := 0, lost := 0 }
  [1, ofBool (decide (timeState s = 1)) * 2 ^ 29 + 3 * 2 ^ 24, p.start, p.last, p.received, p.lost,
   rd s (R.LANE_RX_LINE_CRC n), 0]

/-- The TICK message (R199). -/
def tickMsg (s : State) : List Nat :=
  [2, s.tck.lastN, s.tck.lastN / 2 ^ 32, tickNum s, tickDen s, fld s R.TCK_PHASE_NS 29 0, rd s R.TCK_PHASE_FRAC,
   rd s R.TCK_REBASE % 65536]

/-- STATUS goes out 990 µs after the last one, so that it is sent at least once a millisecond (R200).
DEDUCED: log entry 55. -/
def statusPeriod : Nat := 990000 * nsUnit

/-- Is a STATUS message due. DEDUCED: log entry 55. -/
def statusDue (s : State) (n : Nat) : Bool :=
  match (laneAt s n).statusAt with
  | none => true
  | some t => decide (t + statusPeriod ≤ s.elapsed)

/-- The due messages of a CTRL block. -/
def dueMsgs (s : State) (n : Nat) : List (List Nat) :=
  (if statusDue s n then [statusMsg s n] else []) ++ (if (laneAt s n).tickDue then [tickMsg s] else [])

/-- The first head frame whose TRAILER is due and whose VIDEO blocks are all gone. -/
def dueTrailer (x : LaneSt) : Option FrameTx :=
  x.frames.find? (fun f => f.words.isSome && !x.video.any (fun b => decide (b.head = f.head ∧ b.n = f.n)))

/-- The TRAILER's words with DAMAGED and the count of VIDEO blocks (R197). -/
def trailerWords (f : FrameTx) : List Nat :=
  let ws := f.words.getD []
  (ws.take 3) ++ [setBits (ws.getD 3 0) 2 2 (ofBool f.damaged)] ++ ((ws.drop 4).take 22) ++ [f.sent]

/-- Is a head re-timing (R311). -/
def retiming (s : State) (h : Nat) : Bool := flag s (R.HEAD_STATUS h) 4

/-- The head whose raster, phase and PLL a head follows: head 2k of a pair (R305). DEDUCED: log entry 45. -/
def paired (s : State) (h : Nat) : Bool := bit (lrd s (R.HEAD_MODE (h / 2 * 2))) 0 && unitPresent s.part .head (h / 2 * 2 + 1)
def leader (s : State) (h : Nat) : Nat := if paired s h then h / 2 * 2 else h

/-- The latched raster of a head (R299): active width and height, total width and height. -/
def hActive (s : State) (h : Nat) : Nat := lfld s (R.HEAD_H (leader s h)) 12 0
def hTotal (s : State) (h : Nat) : Nat := lfld s (R.HEAD_H (leader s h)) 29 16
def vActive (s : State) (h : Nat) : Nat := lfld s (R.HEAD_V (leader s h)) 12 0
def vTotal (s : State) (h : Nat) : Nat := lfld s (R.HEAD_V (leader s h)) 28 16

/-- OUT_FMT of a head as latched; 3 is stored as 0. -/
def outFmt (s : State) (h : Nat) : Nat := lfld s (R.HEAD_CMP_CTRL h) 2 1

/-- The last instant at which a RETIME block of a head has fallen due: every 100 µs from the start of its re-time (R198). -/
def retimeInstant (s : State) (h : Nat) : Nat :=
  let t := (headAt s h).retimeAt
  t + (s.elapsed - t) / (100000 * nsUnit) * (100000 * nsUnit)

/-- The head of a lane whose RETIME block is due: it has not been sent since its instant, which lies behind the blind period
(R198, R202). -/
def dueRetime (s : State) (n : Nat) : Option Nat :=
  (laneHeads s n).find? (fun h => retiming s h
    && decide (smGet (fun _ => 0) (laneAt s n).retimes h ≤ retimeInstant s h ∧ (laneAt s n).blindEnd ≤ retimeInstant s h))

/-- The VIDEO blocks that wait for heads that re-time are omitted (R196, R198). DEDUCED: log entry 55. -/
def retimeOmit (n : Nat) (s : State) : State :=
  let x := laneAt s n
  let gone := x.video.filter (fun b => retiming s b.head)
  if gone = [] then s
  else
    let frames := gone.foldl (fun fs b => updFrame b.head b.n (fun f => { f with damaged := true }) fs) x.frames
    setLane n { x with video := x.video.filter (fun b => !retiming s b.head), frames := frames }
      (addReg s (R.LANE_TX_SKIPPED n) gone.length)

/-- The words of a RETIME block (R198). -/
def retimeWords (s : State) (h : Nat) : List Nat :=
  let nf := ((headAt s (leader s h)).nf).getD 0
  [h * 2 ^ 27, vActive s h * 2 ^ 16 + hActive s h, vTotal s h * 2 ^ 16 + hTotal s h,
   outFmt s h + ofBool (paired s h) * 16, nf, nf / 2 ^ 32]

/-- Luma rows and chroma rows of a tile's slot, uncropped, with the samples of a row. DEDUCED: log entry 57. -/
def tileRows (x : Slot) : Nat := x.codedH + ceilDiv x.codedH 2
def tileWidth (x : Slot) (row : Nat) : Nat := if row < x.codedH then x.codedW else ceilDiv x.codedW 2 * 2

/-- The samples of a tile row from one on: each 10 bits, 8-bit samples widened as R283 widens them; what a guard denies,
memory does not answer or the link delivers with an error reads as 0 (R366, R416). DEDUCED: log entry 57. -/
def tileSamples (c k row from_ count : Nat) (s : State) : State × List Nat :=
  let x := slotAt s c k
  let b := fmtBytes x.fmt
  let off := if row < x.codedH then 0x1000 + row * x.pitch else x.chroma + (row - x.codedH) * x.pitch
  let (s, r) := dmaRead 24 17 spCellar (slotBase s c k + off + from_ * b) (count * b) s
  let bs := r.data
  (s, (List.range count).map (fun i =>
    let v := ofLe ((bs.drop (i * b)).take b)
    if b = 1 then v * 4 + v / 64 else v % 1024))

/-- The next TILE block of a frame in sending, and the tile behind it; none at its end (R211). DEDUCED: log entry 57. -/
def tileNext (t : TileTx) (s : State) : State × List Byte × Option TileTx :=
  let x := slotAt s t.frame.unit t.frame.slot
  let w0 := t.entry * 2 ^ 27 + t.frame.seq % 2 ^ 27
  match t.record with
  | some r => (s, wordBytes [w0, 3, 0, 0] ++ r, some { t with record := none })
  | none =>
    let width := tileWidth x t.row
    let count := min 800 (width - t.sample)
    let (s, vs) := tileSamples t.frame.unit t.frame.slot t.row t.sample count s
    let crc := crcRun crc32cPoly t.crc (vs.flatMap (leBytes 2))
    let last := decide (width ≤ t.sample + count)
    let plane := if t.row < x.codedH then 0 else 1
    let row := if t.row < x.codedH then t.row else t.row - x.codedH
    let body := wordBytes [w0, row * 2 ^ 16 + t.sample * 8 + ofBool last * 4 + plane, count * 2 ^ 16,
      if last then crc ^^^ 0xFFFFFFFF else 0] ++ packFields 10 vs
    let next := if !last then some { t with sample := t.sample + count, crc := crc }
      else if t.row + 1 < tileRows x then some { t with row := t.row + 1, sample := 0, crc := 0xFFFFFFFF }
      else none
    (s, body, next)

/-- The block a lane sends next, by the precedence of R196, taken from its queues. DEDUCED: log entry 55. -/
def nextBlock (n : Nat) (s : State) : State × TxBlk :=
  let x := laneAt s n
  let msgs := dueMsgs s n
  if msgs ≠ [] then
    let statusAt := if statusDue s n then some s.elapsed else x.statusAt
    (setLane n { x with statusAt := statusAt, tickDue := false } s,
     { typ := 3, payload := withBlockCrc (wordBytes (msgs.length * 2 ^ 24 :: msgs.flatMap id)) })
  else match dueTrailer x with
  | some f =>
    (setLane n { x with frames := x.frames.filter (fun g => decide (g ≠ f)) } s,
     { typ := 2, payload := withBlockCrc (wordBytes (trailerWords f)) })
  | none =>
    match if x.blind then none else dueRetime s n with
    | some h =>
      (setLane n { x with retimes := smSet (fun _ => 0) x.retimes h (s.elapsed + 1) } s,
       { typ := 5, payload := withBlockCrc (wordBytes (retimeWords s h)) })
    | none =>
      match x.video with
      | b :: bs =>
        (setLane n { x with video := bs } s,
         { typ := 1, payload := withBlockCrc b.body, video := some (b.head, b.n) })
      | [] =>
        match x.tiles with
        | t :: ts =>
          let (s, body, next) := tileNext t s
          (setLane n { laneAt s n with tiles := next.toList ++ ts } s, { typ := 4, payload := withBlockCrc body })
        | [] => (s, { typ := 0, payload := List.replicate 1024 0 })

/-- The bits of a block as they leave the lane: inverted where LANE_n_CTRL.TX_INV says so. DEDUCED: log entry 55. -/
def lineOut (s : State) (n : Nat) (l : List Bool) : List Bool := if flag s (R.LANE_CTRL n) 12 then l.map not else l

/-- What a lane does with the outcome of the attempts at a block: the line bits of the attempt that fits, or, where none
fits, a DROPPED block (R190). -/
def sendOutcome (n : Nat) (b : TxBlk) (s : State) : Option (Nat × List Bool × LineEnd) → State
  | some (k, l, (tb, tr)) =>
    let x := laneAt s n
    let frames := match b.video with
      | some (h, f) => updFrame h f (fun g => { g with sent := g.sent + 1 }) x.frames
      | none => x.frames
    setLane n { x with line := lineOut s n l, txBit := tb, txRun := tr, frames := frames }
      (addReg (addReg s (R.LANE_TX_SEQ n) 1) (R.LANE_TX_RESCRAMBLE n) k)
  | none =>
    let x := laneAt s n
    let seq := rd s (R.LANE_TX_SEQ n)
    let (l, (tb, tr)) := droppedBlock (x.txBit, x.txRun) seq
    let frames := match b.video with
      | some (h, f) => updFrame h f (fun g => { g with damaged := true }) x.frames
      | none => x.frames
    let s := addReg (addReg (addReg s (R.LANE_TX_SEQ n) 1) (R.LANE_TX_RESCRAMBLE n) 7) (R.LANE_TX_DROPPED n) 1
    let s := setLane n { x with line := lineOut s n l, txBit := tb, txRun := tr, frames := frames } s
    raiseOnce n { code := 0x49, unit := n, a0 := seq } s

/-- A block goes out on the line, or a DROPPED block in its place (R190). DEDUCED: log entry 55. -/
def sendBlock (n : Nat) (b : TxBlk) (s : State) : State :=
  let x := laneAt s n
  sendOutcome n b s (attempts (x.txBit, x.txRun) b.typ (rd s (R.LANE_TX_SEQ n)) (lineBits b.payload) 8 0)

/-- BLOCK_TRANSMIT: the lane reaches its next block boundary and sends the block of highest precedence (R196). -/
def blockTransmit (n : Nat) (s : State) : State :=
  match (laneAt s n).nextAt with
  | none => s
  | some t =>
    let s := waitElapsed t s
    let s := setLane n { laneAt s n with nextAt := some (t + blockTime (laneRate s n)) } s
    let (s, b) := nextBlock n (retimeOmit n s)
    sendBlock n b s

/-- BLOCK_TRANSMIT; `links` are what a TILE block's reads of Cellar meet (R366). -/
def execBlockTransmit (o : LaneSend) (s : State) : Host.Outcome State Fault Refusal :=
  live s (linked o.links (fun s => if laneNgz s o.lane.val then blockTransmit o.lane.val s else s))

/-- At a seal a TILE entry whose layer has sealed another frame begins to send it, and one whose layer has released its
frame stops (R211). DEDUCED: log entry 57. -/
def tileSeal (n k : Nat) (s : State) : State :=
  let e := lrd s (R.LANE_TX n k)
  let l := bits e 8 0
  let x := laneAt s n
  let keep := x.tiles.filter (fun t => decide (t.entry ≠ k))
  let cls := fld s (R.WIN_L_CLASS (l / 16) (l % 16)) 2 0
  if !(bit e 31 && bit e 28) then setLane n { x with tiles := keep } s
  else match (layerAt s l).cur with
    | none => setLane n { x with tiles := keep } s
    | some f =>
      if smGet (fun _ => none) x.tileLast k = some f ∨ cls = 0 ∨ cls = 6 then
        setLane n { x with tiles := x.tiles.filter (fun t => decide (t.entry ≠ k ∨ t.frame = f)) } s
      else
        let send := decide (f.kind = 0) && fmtPlanar (slotAt s f.unit f.slot).fmt && !x.blind
        let t : TileTx := { entry := k, layer := l, frame := f, record := some (gRead s (recAddr f.unit f.slot) 64) }
        setLane n { x with tiles := if send then keep ++ [t] else keep,
                           tileLast := smSet (fun _ => none) x.tileLast k (some f) } s

/-- The seal's part in the lanes: TICK messages fall due, TILE entries follow their layers (R200, R211). -/
def lanesSeal (s : State) : State :=
  (List.range 32).foldl (fun s n =>
    if laneNgz s n then
      let s := setLane n { laneAt s n with tickDue := true } s
      (List.range 4).foldl (fun s k => tileSeal n k s) s
    else s) s

/-! ## Frames of capture streams (R208, R212, R240) -/

/-- The running NATIVE channel that a lane and capture stream are mapped to: their next frame enters it (R161). -/
def nativeChan (s : State) (n stream : Nat) : Option Nat :=
  (List.range 96).find? (fun c =>
    let i := rd s (R.SRC_INPUT c)
    bit i 29 && decide (bits i 31 30 = 1 ∧ bits i 20 16 = n ∧ bits i 15 0 = stream) && decide (unitState s 0 c = 2)
      && decide (srcKind s c = 1))

/-- Is a frame the one of a lane and capture stream with a FRAME. -/
def NativeRx.isFrom (r : NativeRx) (n stream frame : Nat) : Bool :=
  decide (r.lane = n ∧ r.stream = stream ∧ r.frame = frame)

/-- The channel that a frame of a lane and capture stream has entered; a new input of the channel waits for the next frame
(R161). -/
def nativeHolder (s : State) (n stream frame : Nat) : Option Nat :=
  (List.range 96).find? (fun c => (chanAt s c).native.any (fun r => r.isFrom n stream frame)
    && decide (unitState s 0 c = 2 ∧ srcKind s c = 1))

/-- A lane's write to Cellar (R356, R411). -/
def laneWrite (a : Nat) (bs : List Byte) (s : State) : State := (dmaWrite 24 16 spCellar a bs s).1

/-- Rows of a slot's planes, luma first; pixels or samples of a row; address of a row. -/
def nativeRows (x : Slot) : Nat := if fmtPlanar x.fmt then x.height + ceilDiv x.height 2 else x.height
def nativeWidth (x : Slot) (row : Nat) : Nat := if row < x.height then x.width else ceilDiv x.width 2 * 2
def nativeAddr (s : State) (c k : Nat) (x : Slot) (row : Nat) : Nat :=
  slotBase s c k + (if row < x.height then 0x1000 + row * x.pitch else x.chroma + (row - x.height) * x.pitch)

/-- Mid-grey in a format (R208). -/
def greyUnit (f : Nat) : Nat := if f = 0x11 then 512 else if f = 0x22 then 0x20080000 else 0x20080200

/-- Write pixels or samples of a row, clipped to its width. -/
def putUnits (c k row from_ : Nat) (vs : List Nat) (s : State) : State :=
  let x := slotAt s c k
  let b := fmtBytes x.fmt
  let vs := vs.take (nativeWidth x row - from_)
  if vs = [] then s else laneWrite (nativeAddr s c k x row + from_ * b) (vs.flatMap (leBytes b)) s

/-- Fill part of a row with mid-grey. -/
def putGrey (c k row from_ upto : Nat) (s : State) : State :=
  putUnits c k row from_ (List.replicate (upto - from_) (greyUnit (slotAt s c k).fmt)) s

/-- The first row of a frame reaches its slot: its arrival time, and with it its capture time (R65, R68, R69).
DEDUCED: log entry 58. -/
def nativeArrive (c k : Nat) (r : NativeRx) (s : State) : State :=
  let x := slotAt s c k
  let x := { x with arrival := s.clock }
  if r.tile then
    let x := { x with cap := (extendTime s.clock (r.stamp.getD 0) : Int) }
    gWords (recAddr c k + 0x28) [recArrival x.arrival x.cap] (setSlot c k x s)
  else
    let ct := capStamp s.clock (declLat s c) 2 r.stamp
    let x := { x with cap := ct.t, origin := ct.origin, disagree := ct.disagree, taints := ofBool ct.inferred * 16 }
    gWords (recAddr c k) (recIdWords c (fld s (R.SRC_SOURCE_ID c) 17 0) x.seq x.cap ++ [recArrival x.arrival x.cap])
      (setSlot c k x s)

/-- A frame is complete (R208). -/
def nativeComplete (c k : Nat) (r : NativeRx) (s : State) : State :=
  let s := if r.arrived then s else nativeArrive c k r s
  let s := updSlot c k (fun x => { x with done := some s.clock, decoding := false, kept := true, linesIn := x.height,
                                          taints := x.taints ||| ofBool r.lost * 4 }) s
  let s := setChan c { chanAt s c with native := some { r with slot := none } } s
  completeRecord c k s

/-- A row is whole in its slot. DEDUCED: log entry 58. -/
def nativeRowDone (c k : Nat) (r : NativeRx) (s : State) : State × NativeRx :=
  let s := if r.arrived then s else nativeArrive c k r s
  let s := updSlot c k (fun x => { x with linesIn := if r.row < x.height then r.row + 1 else x.linesIn }) s
  (s, { r with row := r.row + 1, pix := 0, crc := 0xFFFFFFFF, arrived := true })

/-- Content that is missing before a row and pixel is written as mid-grey (R208). DEDUCED: log entry 58. -/
def nativeSkip (c k : Nat) (toRow toPix : Nat) : Nat → NativeRx → State → State × NativeRx
  | 0, r, s => (s, r)
  | fuel + 1, r, s =>
    if r.row < toRow then
      let w := nativeWidth (slotAt s c k) r.row
      let s := putGrey c k r.row r.pix w s
      let (s, r) := nativeRowDone c k { r with lost := true } s
      nativeSkip c k toRow toPix fuel r s
    else if r.row = toRow ∧ r.pix < toPix then
      (putGrey c k r.row r.pix toPix s, { r with pix := toPix, lost := true })
    else (s, r)

/-- The frame of a stream that is arriving ends because the next begins (R208, R212). DEDUCED: log entry 58. -/
def nativeEnd (c : Nat) (s : State) : State :=
  match (chanAt s c).native with
  | some r =>
    match r.slot with
    | none => s
    | some k =>
      if r.tile then
        let s := raiseOnce r.lane { code := 0x51, unit := r.lane, a0 := r.source, a1 := 1 } s
        dropSlot c k (setChan c { chanAt s c with native := none } s)
      else
        let rows := nativeRows (slotAt s c k)
        let (s, r) := nativeSkip c k rows 0 (rows + 1) r s
        nativeComplete c k r s
  | none => s

/-- What R240 finds against a frame: 0 size, 1 format, 2 rate. DEDUCED: log entry 58. -/
def nativeCheck (s : State) (c w h fmt : Nat) : Option Nat :=
  if declW s c < w ∨ declH s c < h then some 0
  else if srcFormat s c ≠ fmt then some 1
  else if !creditLeft s c then some 2
  else none

/-- A frame of a stream begins: rejected, without a slot, or in the lowest FREE slot (R208, R240). DEDUCED: log entry 58. -/
def nativeBegin (c : Nat) (r : NativeRx) (fmt seq : Nat) (s : State) : State :=
  if quiet s then setChan c { chanAt s c with native := some r } s
  else match nativeCheck s c r.width r.height fmt with
  | some k =>
    let s := overDeclared c k 0 (srcRejected c s)
    setChan c { chanAt s c with native := some r } s
  | none =>
    match freeSlot s c with
    | none => setChan c { chanAt s c with native := some r } s
    | some k =>
      let ct := capStamp s.clock (declLat s c) 2 r.stamp
      let x := plainSlot s c seq s.clock r.width r.height ct
      let s := takeSlot c k x (recIdWords c (fld s (R.SRC_SOURCE_ID c) 17 0) seq x.cap) (spendFrame c s)
      let s := laneWrite (slotBase s c k) (wordBytes (headerWords x r.width r.height)) s
      setChan c { chanAt s c with native := some { r with slot := some k } } s

/-- FRAME_START (R199, R208). DEDUCED: log entry 58. -/
def frameStart (n : Nat) (m : Nat → Nat) (s : State) : State :=
  let stream := bits (m 1) 31 27
  match nativeChan s n stream with
  | none => s
  | some c =>
    let frame := bits (m 1) 26 0
    if (nativeHolder s n stream frame).isSome then s
    else
      let ns := bits (m 4) 29 0
      let stamp := if ns < 1000000000 then some (mkTime (m 2 + 2 ^ 32 * bits (m 3) 15 0) ns 0) else none
      let r : NativeRx := { frame := frame, lane := n, stream := stream, width := bits (m 5) 15 0, height := bits (m 5) 31 16,
                            stamp := stamp }
      nativeBegin c r (0x20 + bits (m 6) 1 0) (m 7) (nativeEnd c s)

/-- Pixels or samples of a row arrive (R208, R212). -/
def nativeUnits (n c k stream row pix : Nat) (last : Bool) (crc : Nat) (vs : List Nat) (bytes : Nat) (r : NativeRx)
    (s : State) : State :=
  let x := slotAt s c k
  let rows := nativeRows x
  if row < r.row ∨ rows ≤ row ∨ (row = r.row ∧ pix < r.pix) then s
  else
    let (s, r) := nativeSkip c k row pix (rows + 1) r s
    let s := putUnits c k row pix vs s
    let r := { r with pix := pix + vs.length, crc := crcRun crc32cPoly r.crc (vs.flatMap (leBytes bytes)) }
    if last then
      let w := nativeWidth x row
      let bad := decide (r.crc ^^^ 0xFFFFFFFF ≠ crc)
      let s := if bad then
          let s := putGrey c k row 0 w (addReg s (R.LANE_RX_LINE_CRC n) 1)
          raiseOnce n { code := 0x4B, unit := n, a0 := stream * 2 ^ 27 + r.frame, a1 := row } s
        else putGrey c k row r.pix w s
      let (s, r) := nativeRowDone c k { r with lost := r.lost || bad || decide (r.pix < w) } s
      if r.row = rows then nativeComplete c k r s
      else setChan c { chanAt s c with native := some r } s
    else setChan c { chanAt s c with native := some r } s

/-- A VIDEO block (R194, R208). A frame that no FRAME_START preceded has the declared size, and a sequence number the
manual does not state. DEDUCED: log entry 58. -/
def videoBlock (n : Nat) (p : List Byte) (s : State) : State :=
  let stream := bits (payWord p 0) 31 27
  let frame := bits (payWord p 0) 26 0
  let w1 := payWord p 1
  let fmt := bits w1 1 0
  let holder := nativeHolder s n stream frame
  match holder.or (nativeChan s n stream) with
  | none => s
  | some c =>
    let s := if holder.isSome then s
      else
        let s := nativeEnd c s
        nativeBegin c { frame := frame, lane := n, stream := stream, width := declW s c, height := declH s c } (0x20 + fmt)
          (Config.freeWord s.draws).toNat { s with draws := s.draws + 1 }
    match (chanAt s c).native with
    | some r =>
      match r.slot with
      | some k =>
        if r.tile ∨ srcFormat s c ≠ 0x20 + fmt then s
        else
          let count := min (bits (payWord p 2) 31 16) (pixelsPerBlock fmt)
          let vs := (unpackFields (pixelBits fmt) count ((p.drop 16).take 1004)).map (unpackPixel fmt)
          nativeUnits n c k stream (bits w1 31 16) (bits w1 15 3) (bit w1 2) (payWord p 3) vs 4 r s
      | none => s
    | none => s

/-- The record block of a TILE frame: the frame begins (R212). DEDUCED: log entry 57. -/
def tileRecord (n c stream frame : Nat) (p : List Byte) (s : State) : State :=
  let w (i : Nat) : Nat := payWord p (4 + i)
  let s := nativeEnd c s
  let sec := w 4 + 2 ^ 32 * bits (w 6) 31 16
  let ns := bits (w 6) 15 0 * 2 ^ 14 + bits (w 8) 31 18
  let t := sec * secUnit + ns * nsUnit + bits (w 8) 17 0 * 2 ^ 14
  let r : NativeRx := { frame := frame, lane := n, stream := stream, source := bits (w 0) 17 0, tile := true, width := declW s c,
                        height := declH s c, stamp := some t }
  let s := nativeBegin c r 0x11 (w 2) s
  match ((chanAt s c).native).bind NativeRx.slot with
  | none => s
  | some k =>
    let s := updSlot c k (fun x => { x with cap := (extendTime s.clock t : Int), origin := 2, disagree := false,
                                            taints := bits (w 12) 5 0 }) s
    let id := setBits (w 0) 31 18 c
    let idc := setBits (w 1) 31 18 (c ^^^ 0x3FFF)
    gWords (recAddr c k) ([id, idc] ++ (List.range 8).map (fun i => w (i + 2))) s

/-- A TILE block (R211, R212). DEDUCED: log entry 57. -/
def tileBlock (n : Nat) (p : List Byte) (s : State) : State :=
  let stream := bits (payWord p 0) 31 27
  let frame := bits (payWord p 0) 26 0
  let w1 := payWord p 1
  match if bits w1 1 0 = 3 then nativeChan s n stream else nativeHolder s n stream frame with
  | none => s
  | some c =>
    if bits w1 1 0 = 3 then tileRecord n c stream frame p s
    else match (chanAt s c).native with
    | some r =>
      match r.slot with
      | some k =>
        if !r.tile ∨ bits w1 1 0 = 2 then s
        else
          let row := bits w1 31 16 + (if bits w1 1 0 = 1 then (slotAt s c k).height else 0)
          let vs := unpackFields 10 (min (bits (payWord p 2) 31 16) 800) ((p.drop 16).take 1004)
          nativeUnits n c k stream row (bits w1 15 3) (bit w1 2) (payWord p 3) vs 2 r s
      | none => s
    | none => s

/-! ## Messages (R199, R200) -/

/-- GENLOCK of the far end changes (R200). -/
def setGenlock (n : Nat) (g : Bool) (s : State) : State :=
  if (laneAt s n).genlock = g then s
  else raise { code := 0x4F, unit := n, sub := ofBool g } (setLane n { laneAt s n with genlock := g } s)

/-- A STATUS message (R200, R207). -/
def statusIn (n : Nat) (m : Nat → Nat) (s : State) : State :=
  let old := rd s (R.LANE_FAR_STATUS n)
  let s := wr (wr s (R.LANE_FAR_STATUS n) (m 1)) (R.LANE_FAR_SPAN_START n) (m 2)
  let s := setFlag s (R.LANE_STATUS n) 8 true
  let s := setLane n { laneAt s n with far := { start := m 2, last := m 3, received := m 4, lost := m 5 },
                                       farAt := some s.elapsed } s
  let s := if bits old 30 24 = bits (m 1) 30 24 then s else raiseOnce n { code := 0x4E, unit := n, a0 := m 1 } s
  setGenlock n (bit (m 1) 31) s

/-- One message of a delivered CTRL block; TICK, which only a device sends, is skipped, and a message of an unknown type is
counted and skipped (R199). -/
def messageIn (n : Nat) (p : List Byte) (s : State) (i : Nat) : State :=
  let m (j : Nat) : Nat := payWord p (1 + 8 * i + j)
  match bits (m 0) 7 0 with
  | 1 => statusIn n m s
  | 3 => frameStart n m s
  | 4 => raise { code := 0x50, unit := n, a0 := m 1, a1 := m 2, a2 := m 3, a3 := m 4 } s
  | 2 => s
  | _ => setLane n { laneAt s n with unknown := (laneAt s n).unknown + 1 } s

/-- A delivered CTRL block. -/
def ctrlBlock (n : Nat) (p : List Byte) (s : State) : State :=
  (List.range (min 31 (bits (payWord p 0) 31 24))).foldl (messageIn n p) s

/-- GENLOCK_TIMEOUT: no STATUS has been delivered for 2 ms (R200). DEDUCED: log entry 56. -/
def execGenlockTimeout (n : Fin 32) (s : State) : Host.Outcome State Fault Refusal :=
  live s (fun s =>
    match (laneAt s n.val).farAt with
    | some t => if (laneAt s n.val).genlock then setGenlock n.val false (waitElapsed (t + 2000000 * nsUnit) s) else s
    | none => s)

/-! ## The receiver (R204 to R206) -/

/-- The content of a delivered block (R192, R193). -/
def blockContent (n typ : Nat) (p : List Byte) (s : State) : State :=
  if typ = 0 ∨ typ = 6 then s
  else if !blockCrcGood p then addReg s (R.LANE_RX_BLOCK_CRC n) 1
  else match typ with
    | 1 => videoBlock n p s
    | 3 => ctrlBlock n p s
    | 4 => tileBlock n p s
    | _ => s

/-- A block is delivered: it opens the span or continues it, and its content takes effect (R205, R206). -/
def deliver (n header : Nat) (payload : List Byte) (s : State) : State :=
  let seq := headerSeq header
  let typ := headerType header
  let x := laneAt s n
  let one : Span := match x.span with
    | none => { start := seq, last := seq, received := 0, lost := 0 }
    | some p => { p with last := seq, lost := (p.lost + (sub32 seq p.last - 1)) % 2 ^ 32 }
  let gap := match x.span with
    | none => 0
    | some p => sub32 seq p.last - 1
  let s := match x.span with
    | none => wr s (R.LANE_RX_SPAN_START n) seq
    | some p => if gap = 0 then s
      else raiseOnce n { code := 0x4A, unit := n, a0 := (p.last + 1) % 2 ^ 32, a1 := gap } s
  let span := if typ = 6 then { one with lost := (one.lost + 1) % 2 ^ 32 }
    else { one with received := (one.received + 1) % 2 ^ 32 }
  let s := setLane n { laneAt s n with span := some span, window := (true :: (laneAt s n).window).take 64 } s
  blockContent n typ (descramble header payload) s

/-- An invalid header: counted; four among the last 64 block positions end UP (R201, R205). DEDUCED: log entry 56. -/
def badHeader (n : Nat) (s : State) : State :=
  let s := addReg s (R.LANE_RX_BAD_HEADER n) 1
  let w := (false :: (laneAt s n).window).take 64
  let s := setLane n { laneAt s n with window := w } s
  let s := raiseOnce n { code := 0x4C, unit := n, a0 := rd s (R.LANE_RX_BAD_HEADER n) } s
  if 4 ≤ (w.filter (fun v => !v)).length then setLaneState n 4 s else s

/-- Is a block ahead of the last delivered one, or the first of a span (R205). -/
def blockAhead (s : State) (n header : Nat) : Bool :=
  match (laneAt s n).span with
  | none => true
  | some p => decide (1 ≤ sub32 (headerSeq header) p.last ∧ sub32 (headerSeq header) p.last < 2 ^ 31)

/-- A block position in UP whose predecessor needs no judgement (R205). DEDUCED: log entry 56. -/
def receiveUp (n header : Nat) (payload : List Byte) (s : State) : State :=
  if !headerValid header then badHeader n s
  else if blockAhead s n header then deliver n header payload s
  else setLane n { laneAt s n with held := some (header, 0, payload) } s

/-- A block position in UP, judging first a block that waited for its next header (R205). DEDUCED: log entry 56. -/
def receiveJudge (n header : Nat) (payload : List Byte) (s : State) : State :=
  match (laneAt s n).held with
  | none => receiveUp n header payload s
  | some (h0, _, p0) =>
    let s := setLane n { laneAt s n with held := none } s
    if headerValid header && decide (headerSeq header = (headerSeq h0 + 1) % 2 ^ 32) then
      let s := addReg (setLane n { laneAt s n with span := none } s) (R.LANE_RX_RESTARTS n) 1
      deliver n header payload (deliver n h0 p0 s)
    else
      let s := badHeader n s
      if laneState s n = 3 then receiveUp n header payload s else s

/-- Both slices of a rotation have read a block: sixteen alike in a row let the lane switch (R214). -/
def spareCompare (n : Nat) (alike : Bool) (s : State) : State :=
  match calOf s n with
  | none => s
  | some c =>
    if (c.phase = 0 ∨ c.phase = 2) ∧ c.matchAt.isNone then
      let k := if alike then c.same + 1 else 0
      updCal n (fun c => { c with same := k, matchAt := if 16 ≤ k then some s.tck.lastN else none }) s
    else s

/-- A block position in UP. -/
def receiveBlock (n : Nat) (other : List Bool) (s : State) : State :=
  let x := laneAt s n
  let (header, payload, (rb, rr), errs) := takeBlock (x.rxBit, x.rxRun) (x.hunt.take blockBits)
  let alike := !other.isEmpty && (let o := takeBlock (x.rxBit, x.rxRun) other; decide (o.1 = header ∧ o.2.1 = payload))
  let s := addReg (setLane n { x with rxBit := rb, rxRun := rr, hunt := x.hunt.drop blockBits } s) (R.LANE_RX_STUFF_ERR n) errs
  receiveJudge n header payload (spareCompare n alike s)

/-- The hunt in ALIGNING: a position with a valid header is a candidate, and sixteen in a row give UP; at a position without
one the hunt goes on at the following bit (R201, R204). DEDUCED: log entry 56. -/
def receiveAlign (n : Nat) (s : State) : State :=
  let x := laneAt s n
  let e : LineEnd := (x.rxBit, x.rxRun)
  if headerValid (takeBlock e (x.hunt.take 96)).1 then
    let (_, _, (rb, rr), errs) := takeBlock e (x.hunt.take blockBits)
    let s := addReg (setLane n { x with rxBit := rb, rxRun := rr, hunt := x.hunt.drop blockBits, valid := x.valid + 1 } s)
      (R.LANE_RX_STUFF_ERR n) errs
    if 16 ≤ x.valid + 1 then setLaneState n 3 (setLane n { laneAt s n with valid := 0, window := [], held := none } s) else s
  else
    let (rb, rr) := (destuff e (x.hunt.take 1) [] 0).2.1
    setLane n { x with rxBit := rb, rxRun := rr, hunt := x.hunt.drop 1, valid := 0 } s

/-- Block positions are taken while line bits for one more have arrived. -/
def receiveBits (n : Nat) (other : List Bool) : Nat → State → State
  | 0, s => s
  | fuel + 1, s =>
    if (laneAt s n).hunt.length < blockBits then s
    else if laneState s n = 2 then receiveBits n other fuel (receiveAlign n s)
    else if laneState s n = 3 then receiveBits n other fuel (receiveBlock n other s)
    else s

/-- BLOCK_RECEIVE: line bits up to a block position arrive. DEDUCED: log entry 56. -/
def blockReceive (n : Nat) (b : RxBlock) (s : State) : State :=
  let s := laneLeaveLost n s
  let st := laneState s n
  if laneMode s n ≠ 0 ∨ (st ≠ 2 ∧ st ≠ 3) then s
  else
    let x := laneAt s n
    let loop := flag s (R.LANE_CTRL n) 14
    let inv := flag s (R.LANE_CTRL n) 13
    let pol (l : List Bool) : List Bool := if inv then l.map not else l
    let new := pol (if loop then x.line else b.line)
    receiveBits n (pol (if loop then [] else b.other)) (x.hunt.length + new.length) (setLane n { x with hunt := x.hunt ++ new } s)

/-- BLOCK_RECEIVE. -/
def execBlockReceive (n : Fin 32) (blk : RxBlock) (s : State) : Host.Outcome State Fault Refusal :=
  live s (fun s => if laneOff s n.val then s else blockReceive n.val blk s)

/-- LANE_RX_SPAN_READ: a read of _RX_SPAN_START latches the other three (R206). -/
def execLaneRxSpanRead (n : Fin 32) (s : State) : Host.Outcome State Fault Refusal :=
  live s (fun s =>
    match (laneAt s n.val).span with
    | none => s
    | some p => wr (wr (wr s (R.LANE_RX_SEQ_LAST n.val) p.last) (R.LANE_RX_RECEIVED n.val) p.received)
        (R.LANE_RX_LOST n.val) p.lost)

/-- LANE_FAR_SPAN_READ: a read of _FAR_SPAN_START latches the other three (R207). -/
def execLaneFarSpanRead (n : Fin 32) (s : State) : Host.Outcome State Fault Refusal :=
  live s (fun s =>
    let p := (laneAt s n.val).far
    wr (wr (wr s (R.LANE_FAR_SEQ_LAST n.val) p.last) (R.LANE_FAR_RECEIVED n.val) p.received)
      (R.LANE_FAR_LOST n.val) p.lost)

/-! ## The spare slice (R214, R215) -/

/-- May a lane switch: both slices have read sixteen blocks alike, and a tick has fired since, or the tick does not run. What
an Ethernet lane compares is no command of its own: its switch stands for it (R214). DESIGN CHOICE: log entry 13. -/
def spareReady (s : State) (n : Nat) (c : Cal) : Bool :=
  decide (laneMode s n ≠ 0) || c.matchAt.any (fun k => s.tck.next.isNone || decide (k ≠ s.tck.lastN))

/-- A lane switches to the spare slice, or back: the correction takes effect (R214, R454). -/
def spareSwitch (n : Nat) (toSpare : Bool) (s : State) : State :=
  match calOf s n with
  | none => s
  | some c =>
    if laneOff s n ∨ flag s (R.LANE_STATUS n) 5 = toSpare ∨ spareReady s n c = false then s
    else if toSpare then
      if c.phase = 0 then
        let s := setFlag (setFlag s (R.LANE_STATUS n) 5 true) (R.QUAD_SPARE (n / 8)) 4 true
        let s := updCal n (fun c => { c with phase := 1 }) (addReg s (R.QUAD_SWITCHES (n / 8)) 1)
        raise { code := 0x4D, unit := n, sub := 0 } s
      else s
    else if c.phase = 2 then calSucceed n s.clock (spareReturn n true s)
    else s

/-- SPARE_SWITCH. -/
def execSpareSwitch (n : Fin 32) (toSpare : Bool) (s : State) : Host.Outcome State Fault Refusal :=
  live s (spareSwitch n.val toSpare)

/-- SPARE_COMPARE_TIMEOUT: the comparison has not succeeded within 10 ms, and no switch takes place (R215). -/
def execSpareCompareTimeout (n : Fin 32) (s : State) : Host.Outcome State Fault Refusal :=
  live s (fun s =>
    match calOf s n.val with
    | some c =>
      if c.phase = 0 ∧ !laneOff s n.val ∧ c.matchAt.isNone then
        calFail n.val 2 false (waitElapsed (c.since + 10000000 * nsUnit) s)
      else s
    | none => s)

end Sys2Proof.Machine
end

