-- ==== Sys2Proof/Machine/Compose.lean ====
section
/-!
DEFINITION. Machine/Compose.lean: the pixel path of the compositor (R272 to R292) and the freshness marks (R83 to R89,
R489): every output pixel as a fixed integer function of the latched settings, the sealed frames and N (R56).
-/

namespace Sys2Proof.Machine

/-! ## Layers: geometry (R280, R281, R286) -/

/-- The latched source map word of a layer (R272). -/
def layerWord (s : State) (h l : Nat) : Nat := lrd s (R.HEAD_L_SRC h l)
def layerEnabled (s : State) (h l : Nat) : Bool := bit (layerWord s h l) 30
def layerKind (s : State) (h l : Nat) : Nat := bits (layerWord s h l) 29 28
def layerIndex (s : State) (h l : Nat) : Nat := bits (layerWord s h l) 15 0

/-- A layer's rectangle and scaling: crop, destination, decimation exponents, decimated crop, need and allotment in
units, nearest-line selection and column decimation. -/
structure Geo where
  cx : Nat
  cy : Nat
  cw : Nat
  ch : Nat
  dx : Int
  dy : Int
  dw : Nat
  dh : Nat
  kh : Nat
  kv : Nat
  cw1 : Nat
  ch1 : Nat
  need : Nat
  used : Nat
  nearest : Bool
  m : Nat
deriving DecidableEq, Repr

/-- The least k below a bound for which a size fits in 8 · 2^k times another (R280). -/
def decimExp (c d : Nat) : Nat := ((List.range 14).find? (fun k => decide (c ≤ 8 * 2 ^ k * d))).getD 14

/-- Need in units of 8 KiB of a decimated crop (R281). -/
def lineNeed (cw1 ch1 dh : Nat) : Nat := ceilDiv ((if ch1 ≤ dh then 6 else ceilDiv ch1 dh + 5) * cw1 * 4) 8192

/-- The allotments of layers 0 to l − 1 of a head, by a reader of registers. -/
def lbBefore (s : State) (h l : Nat) : Nat := ((List.range l).map (fun k => lfld s (R.HEAD_L_LB h k) 6 0)).foldl (· + ·) 0

/-- The part of a layer's allotment below unit 96 (R281, R297). -/
def lbAllot (s : State) (h l : Nat) : Nat :=
  let a := lbBefore s h l
  min (a + lfld s (R.HEAD_L_LB h l) 6 0) 96 - min a 96

/-- The geometry of a layer from the latched registers. -/
def geo (s : State) (h l : Nat) : Geo :=
  let cs := lrd s (R.HEAD_L_CROP_SIZE h l)
  let ds := lrd s (R.HEAD_L_DST_SIZE h l)
  let cw := max 1 (bits cs 13 0)
  let ch := max 1 (bits cs 29 16)
  let dw := max 1 (bits ds 13 0)
  let dh := max 1 (bits ds 29 16)
  let kh := decimExp cw dw
  let kv := decimExp ch dh
  let cw1 := ceilDiv cw (2 ^ kh)
  let ch1 := ceilDiv ch (2 ^ kv)
  let need := lineNeed cw1 ch1 dh
  let allot := lbAllot s h l
  let near := decide (allot < need)
  let m := if near then ((List.range 14).find? (fun m => decide (2 * ceilDiv cw1 (2 ^ m) * 4 ≤ allot * 8192))).getD 14 else 0
  { cx := lfld s (R.HEAD_L_CROP_POS h l) 12 0, cy := lfld s (R.HEAD_L_CROP_POS h l) 28 16, cw := cw, ch := ch,
    dx := sint 14 (lfld s (R.HEAD_L_DST_POS h l) 13 0), dy := sint 14 (lfld s (R.HEAD_L_DST_POS h l) 29 16),
    dw := dw, dh := dh, kh := kh, kv := kv, cw1 := cw1, ch1 := ch1, need := need, used := allot, nearest := near, m := m }

/-- Does the scaler decimate the layer (R280, R286). -/
def Geo.decimated (g : Geo) : Bool := decide (g.kh ≠ 0 ∨ g.kv ≠ 0) || g.nearest

/-- Does a destination rectangle hold a pixel of the raster. -/
def Geo.holds (g : Geo) (x y : Int) : Bool :=
  decide (g.dx ≤ x ∧ x < g.dx + g.dw ∧ g.dy ≤ y ∧ y < g.dy + g.dh)

/-- Is a layer opaque (R291). -/
def layerOpaque (s : State) (h l : Nat) : Bool :=
  layerEnabled s h l && decide (lfld s (R.HEAD_L_CTRL h l) 25 16 = 1023 ∧ lfld s (R.HEAD_L_CTRL h l) 1 0 = 0)

/-! ## Blend order (R290) -/

/-- The entries of the order table. -/
def orderTable (w0 w1 : Nat) : List Nat := (List.range 16).map (fun i => (if i < 8 then w0 else w1) / 16 ^ (i % 8) % 16)

/-- Is the table a permutation of 0 to 15. -/
def isPermutation (t : List Nat) : Bool := (List.range 16).all (fun l => t.contains l)

/-- The layers of a head from the bottom of the blend order to the top. -/
def blendOrder (s : State) (h : Nat) : List Nat :=
  let t := orderTable (lrd s (R.HEAD_CMP_ORDER_0 h)) (lrd s (R.HEAD_CMP_ORDER_1 h))
  if lfld s (R.HEAD_CMP_CTRL h) 0 0 = 1 && isPermutation t then t else List.range 16

/-- The layers above a layer in an order. -/
def above (order : List Nat) (l : Nat) : List Nat := (order.dropWhile (fun k => decide (k ≠ l))).drop 1

/-- Is a pixel in the visible region of a layer (R82); `gs` are the geometries by layer. -/
def visibleAt (s : State) (h : Nat) (order : List Nat) (l : Nat) (x y : Int) : Bool :=
  (geo s h l).holds x y && !(above order l).any (fun k => layerOpaque s h k && (geo s h k).holds x y)

/-! ## Source pictures (R274 to R277, R283) -/

/-- Address space and byte address of a host buffer, from ADDR and ADDR_HI (R275). -/
def bufferSpace (lo : Nat) : Nat := if bit lo 0 then spHost else spCellar
def bufferAddr (lo hi : Nat) : Nat := lo / 256 * 256 + 2 ^ 32 * hi

/-- Space, first plane and chroma plane that a picture's row y is read from. -/
def PicSrc.place (p : PicSrc) (y : Nat) : Nat × Nat × Nat :=
  match p.swaps.find? (fun q => decide (y < q.1)) with
  | some (_, lo, hi) => (bufferSpace lo, bufferAddr lo hi, bufferAddr lo hi + p.pitch * evenRows p.height)
  | none => (p.space, p.base, p.chroma)

/-- Row pitch of a writeback buffer (R293). -/
def wbPitch (w : Nat) : Nat := round256 (w * 4)

/-- A writeback buffer of a head, and the Cellar address of its pixels. -/
def wbAt (s : State) (h k : Nat) : WbBuf := smGet (fun _ => {}) (headAt s h).wbs k
def setWb (h k : Nat) (x : WbBuf) (s : State) : State :=
  let y := headAt s h
  setHead h { y with wbs := smSet (fun _ => {}) y.wbs k x } s
def wbAddr (s : State) (h k : Nat) : Nat := (headAt s h).wbBase + k * (headAt s h).wbStride

/-- The formats of host buffers (R276). -/
def bufferFormat (f : Nat) : Bool := [0x10, 0x11, 0x20, 0x21, 0x22, 0x40, 0x41, 0x42].contains f

/-- The picture of a frame in a channel's slot, and in a writeback buffer. -/
def slotPic (s : State) (c k : Nat) : PicSrc :=
  let x := slotAt s c k
  let b := slotBase s c k
  { space := spCellar, base := b + 0x1000, chroma := b + x.chroma, pitch := x.pitch, fmt := x.fmt, width := x.width,
    height := x.height, left := x.left, top := x.top, colour := x.colour, kind := srcKind s c }
def wbPic (s : State) (h k : Nat) : PicSrc :=
  let x := wbAt s h k
  { space := spCellar, base := wbAddr s h k + 0x1000, chroma := 0, pitch := wbPitch x.width, fmt := x.fmt,
    width := x.width, height := x.height, colour := x.colour, kind := 4 }

/-- The picture of a frame a layer has sealed. -/
def picOf (s : State) (h l : Nat) (f : Sealed) : Option PicSrc :=
  if f.kind = 0 then some (slotPic s f.unit f.slot)
  else if f.kind = 1 then
    let a := lrd s (R.HEAD_L_ADDR h l)
    let base := bufferAddr a (lrd s (R.HEAD_L_ADDR_HI h l))
    let fm := lfld s (R.HEAD_L_BUF_FMT h l) 15 0
    let pitch := lfld s (R.HEAD_L_BUF_FMT h l) 31 16 * 16
    let height := lfld s (R.HEAD_L_BUF_SIZE h l) 28 16
    if bufferFormat fm then
      some { space := bufferSpace a, base := base, chroma := base + pitch * evenRows height,
             pitch := pitch, fmt := fm, width := lfld s (R.HEAD_L_BUF_SIZE h l) 12 0, height := height, kind := 3,
             swaps := (layerAt s (16 * h + l)).swaps }
    else none
  else some (wbPic s f.unit f.slot)

/-- What a fetch found in place of the present bytes of a host buffer, by space and address (R275). -/
abbrev Mix := List (Nat × Nat × Byte)

/-- Did a write that overlaps the fetch of the frame in scan replace a byte: what it replaced. -/
def OldBytes.at (w : OldBytes) (sc : Scan) (sp a : Nat) : Option Byte :=
  if w.space = sp ∧ sc.fetchAt ≤ w.at_ ∧ w.addr ≤ a then w.bytes[a - w.addr]? else none

/-- The part of a mix that the rule allows: a byte that a write overlapping the fetch has replaced, as it stood before a
write or after the last (R275). -/
def mixFound (s : State) (sc : Scan) (mix : Mix) : Mix :=
  mix.filter (fun m =>
    let olds := s.overwritten.filterMap (fun w => w.at sc m.1 m.2.1)
    olds.contains m.2.2 || (!olds.isEmpty && decide (memBytes s m.1 m.2.1 1 = [m.2.2])))

/-- Bytes of a picture. While software writes into a host buffer that is shown, what the fetch unit found in place of
its bytes is given by `mix` (R275). -/
def picBytes (s : State) (mix : Mix) (p : PicSrc) (sp a n : Nat) : List Byte :=
  if p.kind = 3 then
    (List.range n).map (fun i => match mix.find? (fun c => decide (c.1 = sp ∧ c.2.1 = a + i)) with
      | some c => c.2.2
      | none => (memBytes s sp (a + i) 1).headD 0)
  else memBytes s sp a n

/-- Four components: three of colour, and alpha. -/
abbrev Quad := Nat × Nat × Nat × Nat

/-- An 8-bit value widened to 10 bits (R283). -/
def widen (c : Nat) : Nat := c * 4 + c / 64

/-- The 10-bit components of a picture's pixel (R276, R283). -/
def picPixel (s : State) (mix : Mix) (p : PicSrc) (x y : Nat) : Quad :=
  let px := p.left + x
  let py := p.top + y
  let (sp, base, chroma) := p.place y
  let rd (a n : Nat) : Nat := ofLe (picBytes s mix p sp a n)
  let w := rd (base + py * p.pitch + px * 4) 4
  match p.fmt with
  | 0x10 =>
    let c := chroma + py / 2 * p.pitch + px / 2 * 2
    (widen (rd (base + py * p.pitch + px) 1), widen (rd c 1), widen (rd (c + 1) 1), 1023)
  | 0x11 =>
    let c := chroma + py / 2 * p.pitch + px / 2 * 4
    (rd (base + py * p.pitch + px * 2) 2 % 1024, rd c 2 % 1024, rd (c + 2) 2 % 1024, 1023)
  | 0x22 | 0x32 =>
    let e := base + py * p.pitch + px / 2 * 8
    (bits w 29 20, bits (rd e 4) 19 10, bits (rd (e + 4) 4) 19 10, 1023)
  | 0x40 => (widen (bits w 23 16), widen (bits w 15 8), widen (bits w 7 0), widen (bits w 31 24))
  | 0x41 => (widen (bits w 23 16), widen (bits w 15 8), widen (bits w 7 0), 1023)
  | 0x42 => (bits w 29 20, bits w 19 10, bits w 9 0, 341 * bits w 31 30)
  | _ => (bits w 29 20, bits w 19 10, bits w 9 0, 1023)

/-- Is a format YCbCr (R276). -/
def fmtYcc (f : Nat) : Bool := [0x10, 0x11, 0x21, 0x22, 0x31, 0x32].contains f

/-! ## The scaler (R284, R285) -/

/-- Horizontal coefficients of sets I and D, phases 0 to 4. -/
def hTable : Bool → Nat → List Int
  | false, 0 => [0, 0, 0, 256, 0, 0, 0, 0]
  | false, 1 => [-3, 9, -24, 248, 33, -11, 4, 0]
  | false, 2 => [-4, 14, -39, 229, 72, -23, 8, -1]
  | false, 3 => [-4, 16, -45, 198, 116, -35, 12, -2]
  | false, _ => [-3, 15, -42, 158, 158, -42, 15, -3]
  | true, 0 => [-8, 0, 73, 126, 73, 0, -8, 0]
  | true, 1 => [-7, -4, 61, 126, 83, 6, -9, 0]
  | true, 2 => [-5, -8, 50, 123, 94, 13, -10, -1]
  | true, 3 => [-4, -10, 40, 118, 103, 21, -11, -1]
  | true, _ => [-2, -11, 30, 111, 111, 30, -11, -2]

/-- Vertical coefficients. -/
def vTable : Bool → Nat → List Int
  | false, 0 => [0, 0, 256, 0, 0, 0]
  | false, 1 => [5, -22, 249, 31, -8, 1]
  | false, 2 => [8, -34, 228, 69, -17, 2]
  | false, 3 => [8, -38, 197, 112, -27, 4]
  | false, _ => [6, -35, 157, 157, -35, 6]
  | true, 0 => [-14, 58, 168, 58, -14, 0]
  | true, 1 => [-13, 40, 166, 77, -14, 0]
  | true, 2 => [-11, 24, 159, 97, -12, -1]
  | true, 3 => [-8, 10, 148, 116, -7, -3]
  | true, _ => [-5, 0, 133, 133, 0, -5]

/-- Coefficients at any phase: phases 5 to 7 mirror 3 to 1. -/
def hCoef (d : Bool) (p : Nat) : List Int := if p ≤ 4 then hTable d p else (hTable d (8 - p)).reverse
def vCoef (d : Bool) (p : Nat) : List Int := if p ≤ 4 then vTable d p else (vTable d (8 - p)).reverse

/-- Position and phase in eighths of an output index: q = floor((8(2x + 1)c − 7d) / 2d). -/
def scalePos (x c d : Nat) : Int := ((8 * (2 * x + 1) * c : Nat) - (7 * d : Nat) : Int) / ((2 * d : Nat) : Int)

/-- An index held between 0 and a last one. -/
def clampIndex (i : Int) (last : Nat) : Nat := min i.toNat last

/-- Sum of products. -/
def dot (cs : List Int) (vs : List Nat) : Int := (cs.zip vs).foldl (fun n p => n + p.1 * (p.2 : Int)) 0

/-- Apply a function to each of four components. -/
def quadMap (f : (Quad → Nat) → Nat) : Quad := (f (fun q => q.1), f (fun q => q.2.1), f (fun q => q.2.2.1), f (fun q => q.2.2.2))

/-- Columns the horizontal filter works on, and the step between them in crop columns (R280, R286). -/
def Geo.cols (g : Geo) : Nat := ceilDiv g.cw1 (2 ^ g.m)
def Geo.colStep (g : Geo) : Nat := 2 ^ (g.kh + g.m)

/-- The last column and row inside both the decimated crop and the picture (R274, R284). -/
def Geo.lastCol (g : Geo) (p : PicSrc) : Nat := min (g.cols - 1) ((p.width - 1 - g.cx) / g.colStep)
def Geo.lastRow (g : Geo) (p : PicSrc) : Nat := min (g.ch1 - 1) ((p.height - 1 - g.cy) / 2 ^ g.kv)

/-- Does the source position of an output column and row lie inside the picture (R274). DEDUCED: log entry 40. -/
def Geo.inside (g : Geo) (p : PicSrc) (x y : Nat) : Bool :=
  let i := clampIndex (scalePos x g.cols g.dw / 8) (g.cols - 1)
  let j := clampIndex (scalePos y g.ch1 g.dh / 8) (g.ch1 - 1)
  decide (g.cx + g.colStep * i < p.width ∧ g.cy + 2 ^ g.kv * j < p.height)

/-- The decimated rows that output row y needs. -/
def Geo.rows (g : Geo) (p : PicSrc) (y : Nat) : List Nat :=
  let q := scalePos y g.ch1 g.dh
  if g.nearest then [clampIndex ((q + 4) / 8) (g.lastRow p)]
  else (List.range 6).map (fun (k : Nat) => clampIndex (q / 8 - 2 + (k : Int)) (g.lastRow p))

/-- The 12-bit components of the layer at output column x and row y of its destination (R284, R286).
DEDUCED: log entry 40. -/
def scaled (s : State) (mix : Mix) (g : Geo) (p : PicSrc) (x y : Nat) : Quad :=
  let qy := scalePos y g.ch1 g.dh
  let qx := scalePos x g.cols g.dw
  let sv := vCoef (decide (g.dh < g.ch1)) (qy % 8).toNat
  let sh := hCoef (decide (g.dw < g.cols)) (qx % 8).toNat
  let rows := g.rows p y
  let column (n : Nat) : Quad :=
    let samples := rows.map (fun j => picPixel s mix p (g.cx + g.colStep * n) (g.cy + 2 ^ g.kv * j))
    quadMap (fun c =>
      if g.nearest then 4 * (samples.map c).headD 0
      else (clampInt 0 4095 ((dot sv (samples.map c) + 32) / 64)).toNat)
  let taps := (List.range 8).map (fun (k : Nat) => column (clampIndex (qx / 8 - 3 + (k : Int)) (g.lastCol p)))
  quadMap (fun c => (clampInt 0 4095 ((dot sh (taps.map c) + 128) / 256)).toNat)

/-! ## Colour conversion (R287) -/

/-- A conversion: nine coefficients by row, three input offsets, three output offsets. -/
structure Csc where
  m : List Int
  o : List Int
  p : List Int
deriving DecidableEq, Repr

/-- The identity. -/
def cscIdentity : Csc := { m := [4096, 0, 0, 0, 4096, 0, 0, 0, 4096], o := [0, 0, 0], p := [0, 0, 0] }

/-- The fixed matrices: 0 BT.601, 1 BT.709, 2 BT.2020. -/
def cscFixed (matrix : Nat) (full : Bool) : Csc :=
  let make (y0 mY rCr gCb gCr bCb : Int) : Csc :=
    { m := [mY, 0, rCr, mY, gCb, gCr, mY, bCb, 0], o := [y0, 2048, 2048], p := [0, 0, 0] }
  match matrix, full with
  | 0, true => make 0 4096 5743 (-1410) (-2925) 7258
  | 0, false => make 256 4787 6561 (-1611) (-3342) 8293
  | 1, true => make 0 4096 6450 (-767) (-1917) 7601
  | 1, false => make 256 4787 7370 (-877) (-2191) 8684
  | _, true => make 0 4096 6040 (-674) (-2340) 7706
  | _, false => make 256 4787 6901 (-770) (-2674) 8805

/-- Does a picture's header carry the colour word that CSC 0 reads: a decoded picture, or a writeback frame. -/
def PicSrc.hasColour (p : PicSrc) : Bool := decide (p.kind = 0 ∨ p.kind = 4)

/-- The conversion of a layer for a picture (R287). -/
def layerCsc (s : State) (h l : Nat) (p : PicSrc) : Csc :=
  let csc := lfld s (R.HEAD_L_CTRL h l) 10 8
  let range := lfld s (R.HEAD_L_CTRL h l) 5 4
  let auto := if !fmtYcc p.fmt then true else if p.hasColour then bit p.colour 24 else false
  let full := if range = 1 then true else if range = 2 then false else auto
  match csc with
  | 0 =>
    if !fmtYcc p.fmt then cscIdentity
    else
      let mc := if p.hasColour then bits p.colour 7 0 else 1
      cscFixed (if mc = 5 ∨ mc = 6 then 0 else if mc = 9 then 2 else 1) full
  | 1 => cscFixed 0 full
  | 2 => cscFixed 1 full
  | 3 => cscFixed 2 full
  | 7 =>
    let w (off : Nat) (hi : Bool) : Int := sint 16 (if hi then bits (lrd s off) 31 16 else bits (lrd s off) 15 0)
    let io (off : Nat) (hi : Bool) : Int := if hi then bits (lrd s off) 27 16 else bits (lrd s off) 11 0
    let po (off : Nat) (hi : Bool) : Int := sint 13 (if hi then bits (lrd s off) 28 16 else bits (lrd s off) 12 0)
    { m := [w (R.HEAD_L_CSC_0 h l) false, w (R.HEAD_L_CSC_0 h l) true, w (R.HEAD_L_CSC_1 h l) false,
            w (R.HEAD_L_CSC_1 h l) true, w (R.HEAD_L_CSC_2 h l) false, w (R.HEAD_L_CSC_2 h l) true,
            w (R.HEAD_L_CSC_3 h l) false, w (R.HEAD_L_CSC_3 h l) true, w (R.HEAD_L_CSC_4 h l) false],
      o := [io (R.HEAD_L_CSC_IOFS_0 h l) false, io (R.HEAD_L_CSC_IOFS_0 h l) true, io (R.HEAD_L_CSC_IOFS_1 h l) false],
      p := [po (R.HEAD_L_CSC_POFS_0 h l) false, po (R.HEAD_L_CSC_POFS_0 h l) true, po (R.HEAD_L_CSC_POFS_1 h l) false] }
  | _ => cscIdentity

/-- An RGB triple of 12-bit components. -/
abbrev Rgb := Nat × Nat × Nat

/-- Convert three components. -/
def Csc.apply (c : Csc) (q : Quad) : Rgb :=
  let d : List Int := [(q.1 : Int) - c.o.getD 0 0, (q.2.1 : Int) - c.o.getD 1 0, (q.2.2.1 : Int) - c.o.getD 2 0]
  let row (i : Nat) : Nat :=
    let sum := (List.range 3).foldl (fun n j => n + c.m.getD (3 * i + j) 0 * d.getD j 0) 0
    (clampInt 0 4095 ((sum + 2048) / 4096 + c.p.getD i 0)).toNat
  (row 0, row 1, row 2)

/-- A register colour in the internal path (R279). -/
def regColour (w : Nat) : Rgb :=
  let e (v : Nat) : Nat := v * 4 + v / 256
  (e (bits w 29 20), e (bits w 19 10), e (bits w 9 0))

/-! ## Blending (R288, R289) -/

/-- Apply an operation component by component. -/
def rgbZip (f : Nat → Nat → Nat) (a b : Rgb) : Rgb := (f a.1 b.1, f a.2.1 b.2.1, f a.2.2 b.2.2)

/-- Blend a layer's colour with per-pixel alpha ap over a pixel. -/
def blend (mode planeAlpha ap : Nat) (c d : Rgb) : Rgb :=
  let a12 := planeAlpha * 4 + planeAlpha / 256
  let al := (ap * a12 + 2047) / 4095
  if mode = 2 then rgbZip (fun c d => min 4095 ((c * a12 + 2047) / 4095 + (d * (4095 - al) + 2047) / 4095)) c d
  else rgbZip (fun c d => (c * al + d * (4095 - al) + 2047) / 4095) c d

/-! ## What a layer draws on a line -/

/-- How a layer is drawn on a line: its class code there, the picture it fetches (none: its background colour), dimmed
or not, and whether it is overtaken there (R44, R83, R84). -/
structure Draw where
  cls : Nat
  pic : Option PicSrc
  dim : Bool
  overtaken : Bool
deriving DecidableEq, Repr

/-- The class code sealed for a layer, and the class drawn on a line of the frame in scan (R83, R316). -/
def layerClass (s : State) (h l : Nat) : Nat := fld s (R.WIN_L_CLASS h l) 2 0
def drawnClass (s : State) (h l : Nat) (sc : Scan) (y : Nat) : Nat :=
  if layerEnabled s h l && (sc.uncertainFrom).any (fun f => decide (f ≤ y)) then 6 else layerClass s h l

/-- How a layer is drawn on line y of the raster. DEDUCED: log entry 39. -/
def layerDraw (s : State) (h l : Nat) (sc : Scan) (y : Nat) : Draw :=
  let x := layerAt s (16 * h + l)
  let cls := drawnClass s h l sc y
  let g := geo s h l
  let overMark := x.overtaken.any (fun f => decide (f ≤ y)) && decide (cls ≠ 0 ∧ cls ≠ 6)
  let pic := if cls = 0 ∨ cls = 6 ∨ (g.nearest ∧ g.used = 0) then none
    else if overMark then x.old else x.cur.bind (picOf s h l)
  { cls := cls, pic := pic, dim := overMark || decide (cls = 4 ∨ cls = 5), overtaken := overMark }

/-- The colour and per-pixel alpha of a layer at a pixel of its destination, with the alpha mode to blend it by. -/
def layerColour (s : State) (mix : Mix) (h l : Nat) (g : Geo) (d : Draw) (x y : Nat) : Rgb × Nat × Nat :=
  let bg := regColour (lrd s (R.HEAD_L_BG h l))
  let mode := lfld s (R.HEAD_L_CTRL h l) 1 0
  match d.pic with
  | none => (bg, 4095, 1)
  | some p =>
    if g.inside p x y then
      let q := scaled s mix g p x y
      let c := (layerCsc s h l p).apply q
      let c := if d.dim then (c.1 / 4, c.2.1 / 4, c.2.2 / 4) else c
      (c, if mode = 1 ∨ mode = 2 then q.2.2.2 else 4095, mode)
    else (bg, 4095, 1)

/-! ## Marks (R85 to R88, R489) -/

/-- The rows of a character of the fixed font (R489). -/
def fontRows : Nat → List Nat
  | 0 => [0x00, 0x00, 0x3C, 0x66, 0xC3, 0xC3, 0xC3, 0xC3, 0xC3, 0xC3, 0x66, 0x3C, 0x00, 0x00, 0x00, 0x00]
  | 1 => [0x00, 0x00, 0x18, 0x38, 0x78, 0x18, 0x18, 0x18, 0x18, 0x18, 0x18, 0x7E, 0x00, 0x00, 0x00, 0x00]
  | 2 => [0x00, 0x00, 0x7C, 0xC6, 0x06, 0x06, 0x0C, 0x18, 0x30, 0x60, 0xC0, 0xFE, 0x00, 0x00, 0x00, 0x00]
  | 3 => [0x00, 0x00, 0x7C, 0xC6, 0x06, 0x06, 0x3C, 0x06, 0x06, 0x06, 0xC6, 0x7C, 0x00, 0x00, 0x00, 0x00]
  | 4 => [0x00, 0x00, 0x0C, 0x1C, 0x3C, 0x6C, 0xCC, 0xCC, 0xFE, 0x0C, 0x0C, 0x0C, 0x00, 0x00, 0x00, 0x00]
  | 5 => [0x00, 0x00, 0xFE, 0xC0, 0xC0, 0xFC, 0x06, 0x06, 0x06, 0x06, 0xC6, 0x7C, 0x00, 0x00, 0x00, 0x00]
  | 6 => [0x00, 0x00, 0x3C, 0x60, 0xC0, 0xFC, 0xC6, 0xC6, 0xC6, 0xC6, 0xC6, 0x7C, 0x00, 0x00, 0x00, 0x00]
  | 7 => [0x00, 0x00, 0xFE, 0x06, 0x06, 0x0C, 0x0C, 0x18, 0x18, 0x30, 0x30, 0x30, 0x00, 0x00, 0x00, 0x00]
  | 8 => [0x00, 0x00, 0x7C, 0xC6, 0xC6, 0xC6, 0x7C, 0xC6, 0xC6, 0xC6, 0xC6, 0x7C, 0x00, 0x00, 0x00, 0x00]
  | 9 => [0x00, 0x00, 0x7C, 0xC6, 0xC6, 0xC6, 0xC6, 0x7E, 0x06, 0x06, 0x0C, 0x78, 0x00, 0x00, 0x00, 0x00]
  | 10 => [0x00, 0x00, 0x00, 0x00, 0x00, 0x00, 0x00, 0x00, 0x00, 0x00, 0x18, 0x18, 0x00, 0x00, 0x00, 0x00]
  | 11 => [0x00, 0x00, 0x00, 0x00, 0x18, 0x18, 0x00, 0x00, 0x00, 0x00, 0x18, 0x18, 0x00, 0x00, 0x00, 0x00]
  | 12 => [0x00, 0x00, 0x00, 0x00, 0x00, 0x7C, 0xC6, 0xC0, 0x7C, 0x06, 0xC6, 0x7C, 0x00, 0x00, 0x00, 0x00]
  | 13 => [0x00, 0x00, 0x00, 0xC0, 0x60, 0x30, 0x18, 0x0C, 0x18, 0x30, 0x60, 0xC0, 0x00, 0x00, 0x00, 0x00]
  | _ => List.replicate 16 0

/-- Decimal digits of a number, without leading zeros. -/
def digits (n : Nat) : List Nat := ((Nat.toDigits 10 n).map (fun c => c.toNat - 48))

/-- Two decimal digits. -/
def twoDigits (n : Nat) : List Nat := [n / 10 % 10, n % 10]

/-- Line 1 of the text box, as character indices: the age of A µs (R88). -/
def ageText (a : Nat) : List Nat :=
  if a < 1000000000 then digits (a / 1000000) ++ [10, a / 100000 % 10, 14, 12]
  else if a < 100000000000 then digits (a / 1000000) ++ [14, 12]
  else [13, 9, 9, 9, 9, 9, 14, 12]

/-- Line 2 of the text box: a capture time as local time of day (R88). -/
def clockText (s : State) (t : Int) : List Nat :=
  let tai := sint 16 (bits (lrd s R.WIN_TAI_UTC) 15 0)
  let ofs := sint 32 (lrd s R.WIN_LOCAL_OFS)
  let sod := ((t / (secUnit : Int) - tai + ofs) % 86400).toNat
  twoDigits (sod / 3600) ++ [11] ++ twoDigits (sod / 60 % 60) ++ [11] ++ twoDigits (sod % 60) ++ [10, capNs t / 100000000]

/-- Does a line of text put a foreground pixel at a point relative to its start, at a scale. -/
def textPixel (chars : List Nat) (scale : Nat) (x y : Int) : Bool :=
  decide (0 ≤ x ∧ 0 ≤ y ∧ y < 16 * scale) &&
    (match chars[x.toNat / (8 * scale)]? with
      | some c => ((fontRows c).getD (y.toNat / scale) 0).testBit (7 - x.toNat / scale % 8)
      | none => false)

/-- The scale of a layer's text box: the largest up to TEXT_SCALE + 1 at which it fits; 0 for no box (R88). -/
def textScale (s : State) (h l : Nat) (g : Geo) : Nat :=
  (([4, 3, 2, 1].filter (fun k => decide (k ≤ lfld s (R.WIN_L_MARK h l) 17 16 + 1))).find?
    (fun k => decide (88 * k ≤ g.dw ∧ 44 * k ≤ g.dh))).getD 0

/-- The text box's colour at a point of the destination; none outside the box (R88, R489). -/
def textColour (s : State) (h l : Nat) (g : Geo) (cls : Nat) (x y : Int) : Option Nat :=
  let k := textScale s h l g
  let bx : Int := x - ((g.dw - 88 * k) / 2 : Nat)
  let yb : Int := y - ((g.dh - 44 * k) / 2 : Nat)
  if k = 0 ∨ bx < 0 ∨ yb < 0 ∨ ((88 * k : Nat) : Int) ≤ bx ∨ ((44 * k : Nat) : Int) ≤ yb then none
  else
    let v := layerAt s (16 * h + l)
    let span := if cls = 5 then v.runSpan else 0
    let cap : Int := if cls = 5 then v.runStart else (v.cur.map Sealed.cap).getD 0
    let one := textPixel (ageText (v.age / 1000 + span)) k (bx - (4 * k : Nat)) (yb - (4 * k : Nat))
    let two := textPixel (clockText s cap) k (bx - (4 * k : Nat)) (yb - (24 * k : Nat))
    some (if one || two then lrd s R.WIN_TEXT_FG else lrd s R.WIN_TEXT_BG)

/-- Do two colours differ in a component by 64 or more (R87). -/
def hbDistinct (a b : Nat) : Bool :=
  [(29, 20), (19, 10), (9, 0)].any (fun f =>
    let u := bits a f.1 f.2
    let v := bits b f.1 f.2
    decide (u + 64 ≤ v ∨ v + 64 ≤ u))

/-- HB_FG and HB_BG as drawn (R87). -/
def hbColours (s : State) : Nat × Nat :=
  let a := lrd s R.WIN_HB_FG
  let b := lrd s R.WIN_HB_BG
  if hbDistinct a b then (a, b) else (0x3FFFFFFF, 0)

/-- Origin of the heartbeat glyph in the destination (R86). -/
def glyphOrigin (s : State) (h l : Nat) (g : Geo) : Int × Int :=
  let mk := lrd s (R.WIN_L_MARK h l)
  let inset : Int := bits mk 13 8
  let right : Int := (g.dw : Int) - inset - 32
  let bottom : Int := (g.dh : Int) - inset - 32
  (if bits mk 1 0 % 2 = 1 then right else inset, if bits mk 1 0 < 2 then inset else bottom)

/-- Origin of the lit cell at a phase (R86). -/
def litCell (p : Nat) : Nat × Nat :=
  [(4, 4), (12, 4), (20, 4), (20, 12), (20, 20), (12, 20), (4, 20), (4, 12)].getD (p % 8) (4, 4)

/-- The glyph's colour at a point of the destination; none outside it. DEDUCED: log entry 39. -/
def glyphColour (s : State) (h l : Nat) (g : Geo) (n : Nat) (x y : Int) : Option Nat :=
  let o := glyphOrigin s h l g
  let gx := x - o.1
  let gy := y - o.2
  if gx < 0 ∨ gy < 0 ∨ 32 ≤ gx ∨ 32 ≤ gy then none
  else
    let c := litCell n
    let frame := decide (gx < 2 ∨ gy < 2 ∨ 30 ≤ gx ∨ 30 ≤ gy)
    let lit := decide ((c.1 : Int) ≤ gx ∧ gx < c.1 + 8 ∧ (c.2 : Int) ≤ gy ∧ gy < c.2 + 8)
    some (if frame || lit then (hbColours s).1 else (hbColours s).2)

/-- The colour of a layer's topmost mark at a point of its destination; none where it has no mark (R83, R85).
DEDUCED: log entry 39. -/
def markColour (s : State) (h l : Nat) (g : Geo) (d : Draw) (n : Nat) (x y : Int) : Option Nat :=
  let sum := decide ((x + y) % 16 < 4)
  let diff := decide ((x - y) % 16 < 4)
  let hatchS := if sum then some (lrd s R.WIN_HATCH_S) else none
  let edge := min (min x y) (min ((g.dw : Int) - 1 - x) ((g.dh : Int) - 1 - y))
  let band (c : Nat) : Option Nat := if edge < (lfld s (R.WIN_L_MARK h l) 7 3 : Int) then some c else none
  let text := textColour s h l g d.cls x y
  match d.cls with
  | 1 => if d.overtaken then hatchS else glyphColour s h l g n x y
  | 2 => if d.overtaken then hatchS else band (lrd s R.WIN_COLOUR_A)
  | 3 => if d.overtaken then hatchS else band (lrd s R.WIN_COLOUR_C)
  | 4 => text.or hatchS
  | 5 => text.or (if d.overtaken then hatchS else if sum || diff then some (lrd s R.WIN_HATCH_F) else none)
  | 6 => if (x - y) % 16 < 8 then some (lrd s R.WIN_HATCH_U) else none
  | _ => none

/-! ## Output pixels (R292) -/

/-- Rows of the output matrices: Y, Cb, Cr. -/
def outMatrix (space2020 limited : Bool) : List (List Int) :=
  match space2020, limited with
  | false, false => [[871, 2929, 296], [-469, -1579, 2048], [2048, -1860, -188]]
  | false, true => [[745, 2507, 253], [-411, -1381, 1792], [1792, -1628, -164]]
  | true, false => [[1076, 2777, 243], [-572, -1476, 2048], [2048, -1883, -165]]
  | true, true => [[921, 2376, 208], [-500, -1292, 1792], [1792, -1648, -144]]

/-- RGB to YCbCr at 12 bits. -/
def toYcc (space2020 limited : Bool) (c : Rgb) : Nat × Nat × Nat :=
  let m := outMatrix space2020 limited
  let y0 : Int := if limited then 256 else 0
  let v (i : Nat) (ofs : Int) : Nat := (clampInt 0 4095 ((dot (m.getD i []) [c.1, c.2.1, c.2.2] + 2048) / 4096 + ofs)).toNat
  (v 0 y0, v 1 2048, v 2 2048)

/-- Quantise to 10 bits. -/
def quantise (v : Nat) : Nat := min ((v + 2) / 4) 1023

/-- A pixel word of three 10-bit components (R94). -/
def pixelWord (a b c : Nat) : Nat := a * 2 ^ 20 + b * 2 ^ 10 + c

/-- A line of internal pixels as output words (R94, R292). -/
def outputWords (s : State) (h : Nat) (px : List Rgb) : List Nat :=
  let ctl := lrd s (R.HEAD_CMP_CTRL h)
  let ycc := px.map (toYcc (bit ctl 3) (bit ctl 4))
  match outFmt s h with
  | 1 => ycc.map (fun c => pixelWord (quantise c.1) (quantise c.2.1) (quantise c.2.2))
  | 2 => (List.range px.length).map (fun i =>
      let e := ycc.getD (i / 2 * 2) (0, 0, 0)
      let o := ycc.getD (i / 2 * 2 + 1) e
      let y := (ycc.getD i (0, 0, 0)).1
      let c := if i % 2 = 0 then (e.2.1 + o.2.1 + 1) / 2 else (e.2.2 + o.2.2 + 1) / 2
      pixelWord (quantise y) (quantise c) 0)
  | _ => px.map (fun c => pixelWord (quantise c.1) (quantise c.2.1) (quantise c.2.2))

/-- The internal pixel (x, y) of a head frame: background, layers, marks (R279, R289, R85). DEDUCED: log entry 39. -/
def composePixel (s : State) (mix : Mix) (h : Nat) (sc : Scan) (order : List Nat) (x y : Nat) : Rgb :=
  let ls := (order.filter (layerEnabled s h)).filterMap (fun l =>
    let g := geo s h l
    if g.holds x y then some (l, g, layerDraw s h l sc y) else none)
  let base := ls.foldl (fun d q =>
    let (l, g, dr) := q
    let (c, ap, mode) := layerColour s mix h l g dr ((x : Int) - g.dx).toNat ((y : Int) - g.dy).toNat
    blend mode (lfld s (R.HEAD_L_CTRL h l) 25 16) ap c d) (regColour (lrd s (R.HEAD_CMP_BG h)))
  ls.foldl (fun d q =>
    let (l, g, dr) := q
    if visibleAt s h order l x y then
      match markColour s h l g dr sc.n ((x : Int) - g.dx) ((y : Int) - g.dy) with
      | some c => regColour c
      | none => d
    else d) base

/-! ## Data that has not arrived (R275, R307) -/

/-- The guard and DMC port of a head's fetch group (R356, R411). -/
def fetchGuard (h : Nat) : Nat := 16 + h / 4
def fetchPort (h : Nat) : Nat := h / 4

/-- The picture row of a decimated row. -/
def Geo.picRow (g : Geo) (j : Nat) : Nat := g.cy + 2 ^ g.kv * j

/-- The picture columns the fetch unit reads, as first column and end: the crop columns that are multiples of 2^kh and lie
in the picture (R280). -/
def Geo.columnsRead (g : Geo) (p : PicSrc) : List (Nat × Nat) :=
  if g.kh = 0 then [(p.left + g.cx, p.left + min (g.cx + g.cw) p.width)]
  else ((List.range g.cw1).map (fun n => g.cx + 2 ^ g.kh * n)).filterMap (fun x =>
    if x < p.width then some (p.left + x, p.left + x + 1) else none)

/-- The pairs of columns that share chroma samples with a run of columns. -/
def evenColumns (q : Nat × Nat) : Nat × Nat := (q.1 / 2 * 2, ceilDiv q.2 2 * 2)

/-- Space, addresses and lengths of runs of columns in a row of a picture, plane by plane (R276). -/
def PicSrc.spans (p : PicSrc) (row : Nat) (columns : List (Nat × Nat)) : List (Nat × Nat × Nat) :=
  let (sp, base, chroma) := p.place row
  let y := p.top + row
  let b := fmtBytes p.fmt
  let span (row : Nat) (q : Nat × Nat) : Nat × Nat × Nat := (sp, row + q.1 * b, (q.2 - q.1) * b)
  if fmtPlanar p.fmt then
    columns.map (span (base + y * p.pitch)) ++ (columns.map evenColumns).map (span (chroma + y / 2 * p.pitch))
  else if p.fmt = 0x22 ∨ p.fmt = 0x32 then (columns.map evenColumns).map (span (base + y * p.pitch))
  else columns.map (span (base + y * p.pitch))

/-- What the fetch unit reads of a decimated row (R280). -/
def rowSpans (g : Geo) (p : PicSrc) (j : Nat) : List (Nat × Nat × Nat) := p.spans (g.picRow j) (g.columnsRead p)

/-- Does a layer lack an input line for raster line y: its bursts for that line have not been issued, or a read of a
row it needs failed (R275, R307). -/
def layerLacks (s : State) (h l : Nat) (g : Geo) (p : PicSrc) (y : Nat) : Bool :=
  let x := layerAt s (16 * h + l)
  !x.fetched.any (fun f => decide (y ≤ f))
    || (g.rows p ((y : Int) - g.dy).toNat).any (fun j => x.lost.contains (g.picRow j))

/-- Does a destination reach a raster line. -/
def Geo.onLine (g : Geo) (y : Nat) : Bool := decide (g.dy ≤ y ∧ (y : Int) < g.dy + g.dh)

/-- The first pixel pair of line y at which a contributing layer lacks an input line (R307). -/
def lackFrom (s : State) (h : Nat) (sc : Scan) (order : List Nat) (w y : Nat) : Option Nat :=
  let ls := (order.filter (layerEnabled s h)).filterMap (fun l =>
    let g := geo s h l
    match (layerDraw s h l sc y).pic with
    | some p =>
      let ry := ((y : Int) - g.dy).toNat
      if g.onLine y && layerLacks s h l g p y then some (l, g, p, ry) else none
    | none => none)
  if ls.isEmpty then none
  else (List.range w).find? (fun x => ls.any (fun q =>
    let (l, g, p, ry) := q
    visibleAt s h order l x y && g.inside p ((x : Int) - g.dx).toNat ry))

/-- The output words of line y of a head frame: `upto` pixels are scanned, and from pixel `under` on the head shows
its background colour (R303, R307). DEDUCED: log entry 40. -/
def composeLine (s : State) (mix : Mix) (h : Nat) (sc : Scan) (y upto : Nat) (under : Option Nat) : List Nat :=
  let order := blendOrder s h
  let bg := regColour (lrd s (R.HEAD_CMP_BG h))
  let mix := mixFound s sc mix
  (outputWords s h ((List.range (hActive s h)).map (fun x =>
    if under.any (fun u => decide (u / 2 * 2 ≤ x)) then bg else composePixel s mix h sc order x y))).take upto

/-- The columns of a layer's destination inside the raster. -/
def Geo.columns (g : Geo) (w : Nat) : Nat × Nat := (g.dx.toNat, min (g.dx + g.dw).toNat w)

/-- A line's part in the layer CRC registers (R94). -/
def layerCrcLine (s : State) (h y : Nat) (ws : List Nat) (crcs : List Nat) : List Nat :=
  (List.range 16).map (fun l =>
    let c := crcs.getD l 0xFFFFFFFF
    let g := geo s h l
    if layerEnabled s h l && decide (g.dy ≤ y ∧ (y : Int) < g.dy + g.dh) then
      let (a, b) := g.columns ws.length
      crcRun crc32cPoly c (wordBytes ((ws.take b).drop a))
    else c)

end Sys2Proof.Machine
end

