-- ==== Sys2Proof/Machine/EncodeInput.lean ====
section
/-!
DEFINITION. Machine/EncodeInput.lean: the input frames of encode sessions (R325 to R328, R331): which frame a session
holds, and how a FOLLOW session meets the writeback of its head's frame.
-/

namespace Sys2Proof.Machine

/-- An encode session. -/
def encAt (s : State) (n : Nat) : EncSt := smGet (fun _ => {}) s.encs n
def setEnc (n : Nat) (x : EncSt) (s : State) : State := { s with encs := smSet (fun _ => {}) s.encs n x }

/-- The words 3 to 12 of a session's ENC_START as its registers hold them; word 9 in part (R321). -/
def encWord (s : State) (n i : Nat) : Nat :=
  match i with
  | 3 => rd s (R.VEN_SRC n)
  | 4 => rd s (R.VEN_SIZE n)
  | 5 => rd s (R.VEN_CODEC n)
  | 6 => rd s (R.VEN_MODE n)
  | 7 => rd s (R.VEN_BIT_RATE n)
  | 8 => rd s (R.VEN_CPB_KBIT n)
  | 9 => (encAt s n).sliceRows * 2 ^ 16
  | 10 => rd s (R.VEN_REFRESH n)
  | 11 => rd s (R.VEN_OUT_CFG n)
  | 12 => rd s (R.VEN_OUT_BASE_LO n)
  | 13 => rd s (R.VEN_OUT_BASE_HI n)
  | _ => 0

/-- Fields of an ENC_START by a reader of its words (R321). -/
def encW (w : Nat → Nat) : Nat := bits (w 4) 15 0
def encH (w : Nat → Nat) : Nat := bits (w 4) 31 16
def encKind (w : Nat → Nat) : Nat := bits (w 3) 29 28
def encIndex (w : Nat → Nat) : Nat := bits (w 3) 15 0
def encFollows (w : Nat → Nat) : Bool := bit (w 3) 31
def encDiv (w : Nat → Nat) : Nat := bits (w 6) 4 0
def encPhase (w : Nat → Nat) : Nat := bits (w 6) 11 8
def encGradual (w : Nat → Nat) : Bool := bit (w 6) 17
def encPeriod (w : Nat → Nat) : Nat := bits (w 10) 15 0
def encSlip (w : Nat → Nat) : Nat := bits (w 10) 23 16

/-- Size of a CTU, and the rows and columns of CTUs. -/
def encCtu (w : Nat → Nat) : Nat := if bits (w 5) 7 0 = 1 then 64 else 16
def encRows (w : Nat → Nat) : Nat := ceilDiv (encH w) (encCtu w)
def encCols (w : Nat → Nat) : Nat := ceilDiv (encW w) (encCtu w)

/-- The lag of a sweep (R341). -/
def encLag (x : EncSt) : Nat := x.inSweep - x.wave

/-- A session holds a frame: HELD or ENCODE (R260, R294, R325); or gives it back. -/
def encHold (f : Sealed) (s : State) : State :=
  if f.kind = 0 then updSlot f.unit f.slot (fun x => { x with enc := x.enc + 1 }) s
  else setWb f.unit f.slot { wbAt s f.unit f.slot with held := (wbAt s f.unit f.slot).held + 1 } s
def encRelease (f : Sealed) (s : State) : State :=
  if f.kind = 0 then updSlot f.unit f.slot (fun x => { x with enc := x.enc - 1 }) s
  else setWb f.unit f.slot { wbAt s f.unit f.slot with held := (wbAt s f.unit f.slot).held - 1 } s
def encReleaseOpt (f : Option Sealed) (s : State) : State :=
  match f with
  | some f => encRelease f s
  | none => s

/-- Is the picture a session begins next an IDR picture (R340, R341). -/
def encIdr (w : Nat → Nat) (x : EncSt) : Bool :=
  decide (x.count = 0) || (!encGradual w && decide (encPeriod w ≠ 0 ∧ x.count % encPeriod w = 0))

/-- A session begins a picture at its input seal, with a frame or as a REPEAT picture (R325, R326, R341). A REPEAT picture
without a reference picture has a content time the manual does not state, a free value. DEDUCED: log entry 74. -/
def encBegin (n : Nat) (i : EncFollow) (follow cut : Bool) (s : State) : State :=
  let w := encWord s n
  let x := encAt s n
  let idr := encIdr w x
  let sweep := encGradual w && !idr
  let cap : Int := if i.held.isSome then i.cap else Config.freeNat s.draws
  setEnc n { x with
    pic := some { n := i.n, t := i.t, rebase := i.rebase, deadline := i.deadline, held := i.held, cap := cap,
                  taints := i.taints, repeat_ := i.held.isNone, follow := follow && i.held.isSome, cut := cut, idr := idr,
                  start := sweep && decide (x.inSweep = 0), wave := if sweep then x.wave else 0,
                  due := sweep && decide (encLag x = encSlip w), floorAll := i.held.isNone || cut } }
    { s with draws := s.draws + 1 }

/-- Row 0 of a FOLLOW session's frame is ready, or its frame will not come: the picture begins, unless the one before is
still in coding (R326, R331). DEDUCED: log entry 74. -/
def encFollowStart (n : Nat) (cut : Bool) (s : State) : State :=
  let x := encAt s n
  match x.next with
  | none => s
  | some i =>
    let s := setEnc n { x with next := none } s
    if x.pic.isSome then encReleaseOpt i.held (addReg s (R.VEN_SKIPPED_LATE n) 1)
    else encBegin n i true cut s

/-- The sessions that follow frame m of a head. -/
def encFollowers (s : State) (h m : Nat) : List Nat :=
  (List.range 16).filter (fun n =>
    encFollows (encWord s n) && decide (encIndex (encWord s n) = h) && (encAt s n).next.any (fun i => decide (i.n = m)))

/-- The head does not begin active scan of frame m (R326). -/
def encNoScan (h m : Nat) (s : State) : State :=
  (encFollowers s h m).foldl (fun s n => if (encAt s n).next.any (fun i => i.held.isNone) then encFollowStart n false s else s) s

/-- Active scan of frame m begins, in a writeback buffer or in none: a session takes the frame, one of another size is
counted and released at once (R325, R326); without a buffer its picture begins, with INPUT_CUT where the writeback branch
has failed (R328). DEDUCED: log entry 74. -/
def encScanBegin (h m : Nat) (buf : Option Nat) (failed : Bool) (cap : Int) (taints : Nat) (s : State) : State :=
  (encFollowers s h m).foldl (fun s n =>
    let x := encAt s n
    let w := encWord s n
    match x.next, buf with
    | some i, some k =>
      let b := wbAt s h k
      if b.width = encW w ∧ b.height = encH w then
        let f : Sealed := { kind := 2, unit := h, slot := k, seq := m % 2 ^ 32, cap := cap }
        encHold f (setEnc n { x with next := some { i with held := some f, cap := cap, taints := taints } } s)
      else encFollowStart n false (addReg s (R.VEN_INPUT_MISMATCH n) 1)
    | _, _ => encFollowStart n failed s) s

/-- The last line row r of a FOLLOW picture needs (R328). -/
def encNeeds (w : Nat → Nat) (r : Nat) : Nat := min (encCtu w * (r + 1) + 7) (encH w - 1)

/-- The DMC has acknowledged the lines of frame m below `upto` (R328). -/
def encLine (h m upto : Nat) (s : State) : State :=
  (encFollowers s h m).foldl (fun s n =>
    if (encAt s n).next.any (fun i => i.held.isSome) && decide (encNeeds (encWord s n) 0 < upto) then encFollowStart n false s
    else s) s

/-- The writeback branch of frame m fails, or the frame was cut and no further line of it will be written: rows not begun
are coded in floor mode, with INPUT_CUT (R328). DEDUCED: log entry 74. -/
def encWbFailed (h m : Nat) (s : State) : State :=
  let s := (encFollowers s h m).foldl (fun s n =>
    if (encAt s n).next.any (fun i => i.held.isSome) then encFollowStart n true s else s) s
  (List.range 16).foldl (fun s n =>
    let x := encAt s n
    match x.pic with
    | some p =>
      if p.follow && decide (p.n = m) && p.held.any (fun f => decide (f.unit = h)) then
        setEnc n { x with pic := some { p with cut := true, floorAll := true } } s
      else s
    | none => s) s

end Sys2Proof.Machine
end

