-- ==== Sys2Proof/Machine/VideoDecode.lean ====
section
/-!
DEFINITION. Machine/VideoDecode.lean: video decode (chapter 9): the streams it supports, the start of a picture with the
discards, rejections and skips that come before it, the decoded picture buffer and its output, parsing with its stops and
resumptions, completion with concealment, substituted references, recovery points and taints.
-/

namespace Sys2Proof.Machine

/-! ## Engines (R247, R249) -/

/-- The lowest-numbered idle entropy engine, and pixel engine. -/
def idleEnt (s : State) : Option Nat :=
  (List.range (Config.entropyEngines s.part)).find? (fun e => !flag s R.VDC_STATUS e)
def idlePix (s : State) : Option Nat :=
  (List.range (Config.pixelEngines s.part)).find? (fun e => !flag s R.VDC_STATUS (4 + e))

/-- Is a COMPRESSED channel RUNNING with an access unit ready and none in decode (R249). DEDUCED: log entries 62, 63. -/
def pictureReady (s : State) (c : Nat) : Bool :=
  let x := chanAt s c
  decide (unitState s 0 c = 2) && decide (srcKind s c = 0) && x.pic.isNone && !x.aus.isEmpty

/-- Arrival time of the access unit a channel decodes next. -/
def readyAt (s : State) (c : Nat) : Nat := ((chanAt s c).aus.head?.map Au.arrival).getD 0

/-- Is another ready picture that has a FREE slot ahead of a channel's: an earlier arrival time, or an equal one on a
lower channel (R249). -/
def overtaken (s : State) (c : Nat) : Bool :=
  (List.range 96).any (fun d =>
    decide (d ≠ c) && pictureReady s d && (chanAt s d).started && (freeSlot s d).isSome
      && decide (readyAt s d < readyAt s c ∨ (readyAt s d = readyAt s c ∧ d < c)))

/-! ## Accepted streams (R244, R245) -/

/-- The profiles of a standard: indication accepted, 10-bit samples, 4:0:0 (R244). -/
def profileRows (codec : Nat) : List (Nat × Bool × Bool) :=
  if codec = 1 then [(1, false, false), (2, true, false)] else [(66, false, true), (77, false, false), (100, false, true)]

/-- Does a stream name a profile: by its indication, in H.265 by its compatibility flag too (R244). -/
def namesProfile (codec : Nat) (o : PictureStart) (p : Nat) : Bool :=
  decide (o.profile.toNat = p) || (decide (codec = 1 ∧ p = 1) && o.compat1) || (decide (codec = 1 ∧ p = 2) && o.compat2)

/-- The first profile of the table that a stream names and whose bit depth and chroma format it keeps (R244). -/
def streamProfile (codec : Nat) (o : PictureStart) : Option Nat :=
  ((profileRows codec).find? (fun r => namesProfile codec o r.1 && (!o.tenBit || r.2.1)
    && (decide (o.chroma.val = 1) || (decide (o.chroma.val = 0) && r.2.2)))).map (fun r => r.1)

/-- Is a level at most 5.1, and does a stream use no tool of the second table (R244). -/
def levelSupported (codec level : Nat) : Bool := decide (level ≤ if codec = 1 then 153 else 51)
def toolsSupported (codec : Nat) (o : PictureStart) : Bool :=
  if codec = 1 then decide (o.dpbMinus1 ≤ 15) else !o.interlaced && !o.sliceGroups && !o.redundant

/-- Does the decoder support the parameter sets of an access unit (R245). -/
def streamSupported (codec : Nat) (o : PictureStart) : Bool :=
  (streamProfile codec o).isSome && levelSupported codec o.level.toNat && toolsSupported codec o

/-! ## Access units that start no picture -/

/-- The access unit at the head of a channel's bitstream is done with. -/
def auDone (c : Nat) (s : State) : State :=
  let x := chanAt s c
  setChan c { x with aus := x.aus.drop 1, atStart := false, starved := false } s

/-- The next stream sequence number, which an access unit takes (R253). -/
def nextSeq (s : State) (c : Nat) : Nat := rd s (R.VDC_S_NEXT_SEQ c)
def takeSeq (c : Nat) (s : State) : State := addReg s (R.VDC_S_NEXT_SEQ c) 1

/-- Past the start state: decoding starts at the access unit at the head of the bitstream (R254). -/
def startDecode (c : Nat) (s : State) : State :=
  let x := chanAt s c
  if x.started then s else setChan c { x with started := true, atStart := true } s

/-- A discarded access unit that takes no SEQ (R254). -/
def skipStart (c : Nat) (s : State) : State := auDone c (addReg s (R.VDC_S_SKIPPED_START c) 1)

/-- Is a picture one at which decoding can start: an IRAP or IDR picture, or one with a recovery point SEI (R254). -/
def startPicture (o : PictureStart) : Bool := o.vcl && (o.irap.isSome || o.recovery.isSome)

/-- Does a picture begin a coded video sequence: IDR, BLA, or a CRA picture at which decoding starts, which is
NoRaslOutputFlag = 1 (R254). PRESUMED: log entry 90. -/
def beginsSequence (s : State) (o : PictureStart) : Bool :=
  decide (o.irap = some 0 ∨ o.irap = some 1) || (decide (o.irap = some 2) && (chanAt s o.ch.val).atStart)

/-- The RASL pictures after a picture: to be discarded when it is a BLA or CRA picture with NoRaslOutputFlag = 1 (R254).
PRESUMED: log entry 90. -/
def noteIrap (o : PictureStart) (s : State) : State :=
  if o.irap.isNone then s
  else setChan o.ch.val { chanAt s o.ch.val with skipRasl := decide (o.irap ≠ some 0) && beginsSequence s o } s

/-- An access unit that uses an unsupported parameter set (R245). -/
def decodeUnsupported (o : PictureStart) (s : State) : State :=
  let c := o.ch.val
  let s := if (chanAt s c).started then takeSeq c s else s
  let s := auDone c (addReg s (R.VDC_S_UNSUPPORTED c) 1)
  let s := setChan c { chanAt s c with started := false, skipRasl := false } s
  raiseOnce c { code := 0x74, unit := c, a0 := o.profile.toNat * 256 + o.level.toNat } s

/-- One decode error (R263). -/
def decodeError (c seq : Nat) (e : Nat × Nat) (s : State) : State :=
  let s := addReg s (R.VDC_S_ERRORS c) 1
  let s := wr (wr s (R.VDC_S_LAST_ERROR c) (e.1 * 2 ^ 24 + e.2 % 2 ^ 24)) (R.VDC_S_LAST_ERROR_SEQ c) seq
  raiseOnce c { code := 0x70, unit := c, sub := e.1, a0 := seq, a1 := e.2 } s

/-- An access unit of which no slice can be parsed far enough is discarded (R265). -/
def decodeLost (o : PictureStart) (s : State) : State :=
  let c := o.ch.val
  let s := match o.error with
    | some e => decodeError c (nextSeq s c) (e.1.val, e.2.val) s
    | none => s
  auDone c (takeSeq c (addReg s (R.VDC_S_SKIPPED_ERROR c) 1))

/-- A frame rejected as OVER_DECLARED before its decode starts (R54). -/
def decodeReject (c check : Nat) (s : State) : State :=
  let s := auDone c (takeSeq c (overDeclared c check 0 s))
  setChan c { chanAt s c with overTaint := true } s

/-- Is a profile within the declared one: Constrained Baseline, Main and High each hold the ones before; Main 10 holds
Main. DEDUCED: log entry 63. -/
def profileWithin (declared profile : Nat) : Bool := decide (profile ≤ declared)

/-- The check of R54 that a picture's parameter sets fail: 0 size, 1 format; a 4:0:0 picture is within a declaration.
DEDUCED: log entry 63. -/
def paramCheck (s : State) (o : PictureStart) : Option Nat :=
  let c := o.ch.val
  let profile := (streamProfile (declCodec s c) o).getD 0
  if declW s c < o.codedW.val ∨ declH s c < o.codedH.val then some 0
  else if !profileWithin (fld s (R.SRC_DECL c 2) 15 8) profile
    || decide (fld s (R.SRC_DECL c 2) 23 16 < o.level.toNat) || (o.tenBit && decide (declDepth s c = 8)) then some 1
  else none

/-- A ready picture that finds no FREE slot waits (R262). DEDUCED: log entry 63. -/
def decodeStarved (c : Nat) (s : State) : State :=
  let x := chanAt s c
  if x.starved then s
  else raiseOnce c { code := 0x75, unit := c, a0 := nextSeq s c } (setChan c { x with starved := true } s)

/-- At the end of step 9 of a seal, a picture that was ready when the seal began, in the state `snap`, and finds no FREE slot
is skipped (R262). DEDUCED: log entry 63. -/
def decodeSkip (snap : State) (c : Nat) (s : State) : State :=
  if pictureReady snap c && (chanAt snap c).started && pictureReady s c && (freeSlot s c).isNone then
    auDone c (takeSeq c (addReg (decodeStarved c s) (R.VDC_S_SKIPPED_SLOT c) 1))
  else s

/-! ## The decoded picture buffer (R255, R256, R266 to R269) -/

/-- The later of two origins in decode order (R205, R267). -/
def laterOrigin (a b : Nat) : Nat := if (a + 2 ^ 32 - b) % 2 ^ 32 < 2 ^ 31 then a else b

/-- Does a SEQ precede another in decode order (R205, R268). -/
def seqBefore (a b : Nat) : Bool := decide (2 ^ 31 ≤ (a + 2 ^ 32 - b) % 2 ^ 32)

/-- The slots of a channel that hold reference pictures, and those whose picture waits for its output. -/
def refSlots (s : State) (c : Nat) : List Nat :=
  (List.range 16).filter (fun k => (slotAt s c k).ref && !(slotAt s c k).decoding)
def waitSlots (s : State) (c : Nat) : List Nat :=
  (List.range 16).filter (fun k => (slotAt s c k).wait && !(slotAt s c k).decoding)

/-- Pictures in the DPB: references, and pictures that wait for their output. -/
def dpbCount (s : State) (c : Nat) : Nat :=
  ((List.range 16).filter (fun k => ((slotAt s c k).ref || (slotAt s c k).wait) && !(slotAt s c k).decoding)).length

/-- The slot, of several, whose picture order count is nearest to one; of two equally near the lower (R265, R266). -/
def nearestPoc (s : State) (c : Nat) (poc : Int) : List Nat → Option Nat
  | [] => none
  | k :: ks =>
    match nearestPoc s c poc ks with
    | none => some k
    | some j =>
      let a := (slotAt s c k).poc
      let b := (slotAt s c j).poc
      let da := (a - poc).natAbs
      let db := (b - poc).natAbs
      if da < db ∨ (da = db ∧ a ≤ b) then some k else some j

/-- A picture is output: its decode-complete time is set and its record completed; R261 retains it (R256, R269). -/
def pictureOutput (c k : Nat) (s : State) : State :=
  let x := slotAt s c k
  if !x.wait || x.decoding then s
  else
    let s := setSlot c k { x with done := some s.clock, wait := false, kept := true } s
    let s := completeRecord c k s
    let tainted := x.conceal.isSome || x.subst.isSome
    let s := setFld s (R.VDC_S_STATE c) 5 0 (x.taints % 4 + bits x.taints 5 5 * 32)
    let s := wr s (R.VDC_S_GEOM c) (x.height * 2 ^ 16 + x.width)
    let was := (chanAt s c).lastTainted
    let s := setChan c { chanAt s c with lastTainted := tainted } s
    if tainted then addReg s (R.VDC_S_TAINTED c) 1
    else if was then raiseOnce c { code := 0x73, unit := c, a0 := x.seq } s
    else s

/-- The record of a picture that is never output: its run fields are 0 (R256). -/
def neverOutput (c k : Nat) (s : State) : State :=
  let x := slotAt s c k
  gWords (recAddr c k + 0x2C) [0, ofBool x.disagree * 2 ^ 12 + x.origin * 2 ^ 8 + x.taints, 0, k * 2 ^ 8, 0] s

/-- A waiting picture leaves the DPB without being output (R255). -/
def dropWaiting (c k : Nat) (s : State) : State :=
  updSlot c k (fun x => { x with wait := false, shown := false }) (neverOutput c k s)

/-- The waiting picture that is output first: the one of the smallest picture order count (R255). -/
def smallestPoc (s : State) (c : Nat) : List Nat → Option Nat
  | [] => none
  | k :: ks =>
    match smallestPoc s c ks with
    | none => some k
    | some j => if (slotAt s c k).poc ≤ (slotAt s c j).poc then some k else some j

/-- Is a picture to be output now: more wait than the stream reorders, one has waited as long as it may, or the DPB is full
(R255). PRESUMED: log entry 90. -/
def bumpDue (s : State) (c reorder : Nat) (latency : Option Nat) (full : Nat) : Bool :=
  let w := waitSlots s c
  decide (reorder < w.length) || latency.any (fun l => w.any (fun k => decide (l ≤ (slotAt s c k).waited)))
    || decide (full ≤ dpbCount s c)

/-- Output pictures, the smallest picture order count first, while one is due (R255). -/
def bump (c reorder : Nat) (latency : Option Nat) (full : Nat) : Nat → State → State
  | 0, s => s
  | fuel + 1, s =>
    if bumpDue s c reorder latency full then
      match smallestPoc s c (waitSlots s c) with
      | some k => bump c reorder latency full fuel (pictureOutput c k s)
      | none => s
    else s

/-- Output every picture that waits. -/
def bumpAll (c : Nat) (s : State) : State := bump c 0 none 17 16 s

/-- Reference pictures stay as long as their picture order count is in a list; `also` are slots that stay besides. -/
def keepRefs (c : Nat) (keep : List Int) (also : List Nat) (s : State) : State :=
  (refSlots s c).foldl (fun s k =>
    if keep.contains (slotAt s c k).poc || also.contains k then s else updSlot c k (fun x => { x with ref := false }) s) s

/-- A coded video sequence begins: the pictures that wait are output, or dropped where the stream or a CRA picture says so,
and no picture is a reference any more (R255). PRESUMED: log entry 90. -/
def sequenceBegin (o : PictureStart) (s : State) : State :=
  let c := o.ch.val
  let s := if o.dropPrior || decide (o.irap = some 2) then (waitSlots s c).foldl (fun s k => dropWaiting c k s) s
    else bumpAll c s
  let s := keepRefs c [] [] s
  setChan c { chanAt s c with recoveries := [], lastPic := none } s

/-- A reference that a picture names: its slot, or its substitute, with whether it is a substitute; none is grey (R266). -/
def resolveRef (s : State) (c : Nat) (poc : Int) (r : RefName) : Option Nat × Bool :=
  match r.poc.bind (fun p => (refSlots s c).find? (fun k => decide ((slotAt s c k).poc = p))) with
  | some k => (some k, false)
  | none => (nearestPoc s c (r.poc.getD poc) (refSlots s c), true)

/-- Recovery points that a picture of H.264 fixes: it is the first after one to have its frame_num (R268). -/
def fixRecovery (frame : Nat) (poc : Int) (r : Recovery) : Recovery :=
  if r.poc.isNone ∧ r.frame = frame then { r with poc := some poc } else r

/-- The recovery points of a channel when a picture begins that may carry one of its own (R268). -/
def noteRecovery (o : PictureStart) (seq codec : Nat) (s : State) : State :=
  let x := chanAt s o.ch.val
  let old := if codec = 1 then x.recoveries else x.recoveries.map (fixRecovery o.frameNum o.poc)
  let new : List Recovery := match o.recovery with
    | some n => [{ seq := seq, poc := if codec = 1 then some (o.poc + n) else none
                   frame := ((o.frameNum : Int) + n).toNat % max 1 o.maxFrameNum }]
    | none => []
  setChan o.ch.val { x with recoveries := old ++ new } s

/-! ## The start of a picture -/

/-- The UUID of the picture-timing SEI (R67). -/
def timingUuid : List Byte := [0xb7, 0xe3, 0xf0, 0xa2, 0x5c, 0x19, 0x4d, 0x6e, 0x9a, 0x81, 0x3f, 0x2c, 0x7d, 0x0e, 0x4b, 0x95]

/-- The SEI time of a picture: the first message of the UUID, with 48-bit seconds and valid nanoseconds (R67). -/
def seiTime (msgs : List (List Byte)) : Option Nat :=
  match msgs.find? (fun m => m.take 16 = timingUuid) with
  | none => none
  | some m =>
    let p := m.drop 16
    let ns := ofBe ((p.drop 6).take 4)
    if p.length < 10 ∨ 1000000000 ≤ ns then none else some (mkTime (ofBe (p.take 6)) ns 0)

/-- A pixel engine's write to Cellar, and its read: its guard and DMC port (R356, R411). -/
def pixWrite (e a : Nat) (bs : List Byte) (s : State) : State := (dmaWrite (10 + e / 2) (9 + e / 2) spCellar a bs s).1
def pixRead (e a n : Nat) (s : State) : State × MemRead := dmaRead (10 + e / 2) (9 + e / 2) spCellar a n s

/-- Word 6 of a slot header: 2, 2, 2 without a VUI colour description, [31:26] zero (R258). -/
def headerColour (w : Nat) : Nat := if bit w 25 then w % 2 ^ 26 else bits w 24 24 * 2 ^ 24 + 0x020202

/-- The slot of a picture (R257, R258). -/
def pictureSlot (s : State) (o : PictureStart) (seq arrival : Nat) (ct : CapTime) : Slot :=
  let c := o.ch.val
  let p := decodePitch (declW s c) (declDepth s c)
  { decoding := true, seq := seq, cap := ct.t, arrival := arrival, shown := o.output,
    fmt := if o.tenBit then 0x11 else 0x10, top := o.top.val, left := o.left.val, height := o.outH.val,
    width := o.outW.val, pitch := p, chroma := 0x1000 + p * round16 (declH s c), colour := headerColour o.colour.toNat,
    poc := o.poc, codedW := o.codedW.val, codedH := o.codedH.val, origin := ct.origin,
    disagree := ct.disagree, taints := ofBool ct.inferred * 16 }

/-- The reference pictures at the start of a picture: a new coded video sequence, the references and substitutes of its
lists, those an H.265 reference picture set drops, and the output that the DPB's limits call for (R255, R266). The record of
the picture is filled in. PRESUMED: log entry 90. -/
def dpbBegin (o : PictureStart) (p : Pic) (s : State) : State × Pic :=
  let c := o.ch.val
  let codec := declCodec s c
  let new := beginsSequence s o
  let s := if new then sequenceBegin o s else s
  let found := o.refs.map (fun r => (r.listed, resolveRef s c o.poc r))
  let missing := found.filter (fun f => f.2.2)
  let slots := found.filterMap (fun f => f.2.1)
  let keep := if codec = 1 then o.refs.filterMap RefName.poc else o.keep
  let full := o.dpbMinus1 + 1
  let s := if codec = 1 && !new then bump c o.reorder o.latency full 16 (keepRefs c keep slots s) else s
  (s, { p with refs := (found.filter (fun f => f.1)).filterMap (fun f => f.2.1)
               subst := if missing.isEmpty then none else some (missing.any (fun f => f.2.1.isNone))
               keep := keep, isRef := o.isRef || decide (codec = 1), reorder := o.reorder, latency := o.latency, dpb := full })

/-- Columns and rows of units of a picture: coding tree units of 16 · 2^k samples in H.265, macroblocks in H.264. -/
def unitSize (codec : Nat) (o : PictureStart) : Nat := if codec = 1 then 16 * 2 ^ o.unitLog.val else 16

/-- A picture starts on two engines in a slot (R247, R249, R258). -/
def pictureBegin (o : PictureStart) (au : Au) (ent pix k : Nat) (s : State) : State :=
  let c := o.ch.val
  let sei := seiTime o.sei
  let rtcp := rtcpTime s c au.arrival au.rtp
  let ct := capCompressed s c au.arrival sei rtcp
  let seq := nextSeq s c
  let x := pictureSlot s o seq au.arrival ct
  let u := unitSize (declCodec s c) o
  let across := ceilDiv o.codedW.val u
  let (s, p) := dpbBegin o { slot := k, ent := ent, pix := pix, irap := o.irap.isSome, au := au, unit := u, across := across
                             total := across * ceilDiv o.codedH.val u, mono := decide (o.chroma.val = 0)
                             baseline := decide (declCodec s c = 0 ∧ o.profile.toNat = 66) } s
  let s := noteRecovery o seq (declCodec s c) s
  let s := auDone c (takeSeq c (spendFrame c s))
  let s := if ct.disagree then timeDisagree c au.arrival sei rtcp s else s
  let s := takeSlot c k x (recIdWords c (fld s (R.SRC_SOURCE_ID c) 17 0) x.seq x.cap) s
  let s := pixWrite pix (slotBase s c k) (wordBytes (headerWords x o.codedW.val o.codedH.val)) s
  let s := setFlag (setFlag s R.VDC_STATUS ent true) R.VDC_STATUS (4 + pix) true
  let s := wr s (R.VDC_S_FORMAT c) x.fmt
  setChan c { chanAt s c with pic := some p } s

/-- The next picture of a channel past the start state: rejected, waiting for a slot, waiting for engines or its turn, or
started, with the frame-rate test at its start (R54, R249, R262). -/
def pictureNext (o : PictureStart) (au : Au) (s : State) : State :=
  let c := o.ch.val
  match paramCheck s o with
  | some k => decodeReject c k s
  | none =>
    match freeSlot s c with
    | none => decodeStarved c s
    | some k =>
      match idleEnt s, idlePix s with
      | some e, some p =>
        if overtaken s c then s
        else if !creditLeft s c then decodeReject c 2 s
        else pictureBegin o au e p k s
      | _, _ => s

/-- The access unit at the head of a channel's bitstream is looked at (R245, R249, R253, R254, R265). DEDUCED: log entry
63. -/
def decodeNext (o : PictureStart) (au : Au) (s : State) : State :=
  let c := o.ch.val
  let started := (chanAt s c).started
  let unsupported := o.vcl && !o.lost && !streamSupported (declCodec s c) o
  if unsupported then decodeUnsupported o s
  else if !started && !startPicture o then skipStart c s
  else if !o.vcl then auDone c s
  else if started && o.rasl && (chanAt s c).skipRasl then skipStart c s
  else
    let s := noteIrap o (startDecode c s)
    if o.lost then decodeLost o s else pictureNext o au s

/-- DECODE_PICTURE_START; in QUIET the decoder starts no picture (R441). -/
def execDecodePictureStart (o : PictureStart) (s : State) : Host.Outcome State Fault Refusal :=
  live s (fun s =>
    let c := o.ch.val
    if quiet s || !pictureReady s c then s
    else match (chanAt s c).aus with
      | [] => s
      | au :: _ => decodeNext o au s)

/-! ## Work beyond the declaration (R54) -/

/-- Cycle credit is used up during a picture: it is rejected, and its engines stop (R54). -/
def workExhausted (c pool : Nat) (s : State) : State :=
  let s := stopPicture c (overDeclared c 3 pool s)
  let x := chanAt s c
  setChan c (if pool = 0 then { x with overTaint := true, entCredit := 0 }
    else { x with overTaint := true, pixCredit := 0 }) s

/-- Busy cycles of an engine, entropy e or pixel 4 + e, in the present tick; at each seal VDC_ENT_e_CYCLES and
VDC_PIX_e_CYCLES take those of the tick that ends. -/
def engineBusy (e n : Nat) (s : State) : State :=
  { s with engineCycles := smSet (fun _ => 0) s.engineCycles e (smGet (fun _ => 0) s.engineCycles e + n) }
def engineTick (s : State) : State :=
  let s := (List.range 4).foldl (fun s e => wr s (R.VDC_ENT_CYCLES e) (smGet (fun _ => 0) s.engineCycles e)) s
  let s := (List.range 8).foldl (fun s e => wr s (R.VDC_PIX_CYCLES e) (smGet (fun _ => 0) s.engineCycles (4 + e))) s
  { s with engineCycles := [] }

/-- An entropy engine has worked n cycles on a channel's picture: they are spent, or the credit is used up (R54). -/
def spendEnt (c n : Nat) (s : State) : State :=
  match (chanAt s c).pic with
  | some p =>
    if p.parsed then s
    else
      let s := engineBusy p.ent n s
      let x := chanAt s c
      if x.entCredit < n then workExhausted c 0 s
      else setChan c { x with entCredit := x.entCredit - n, pic := some { p with cost := p.cost + n } } s
  | none => s

/-- A pixel engine has worked n cycles on a channel's picture (R54). -/
def spendPix (c n : Nat) (s : State) : State :=
  match (chanAt s c).pic with
  | some p =>
    let s := engineBusy (4 + p.pix) n s
    let x := chanAt s c
    if x.pixCredit < n then workExhausted c 1 s else setChan c { x with pixCredit := x.pixCredit - n } s
  | none => s

/-- At a seal, the pictures in decode have spent the cycles of the tick that ends (R54). -/
def workSeal (work : List (Fin 96 × Nat × Nat)) (s : State) : State :=
  work.foldl (fun s w => spendPix w.1.val w.2.2 (spendEnt w.1.val w.2.1 s)) s

/-- DECODE_WORK_EXHAUSTED: the picture's engine has used up the channel's credit in ENT while the picture is parsed, in PIX
until it completes; the cycles left are spent with it (R54). DESIGN CHOICE: log entry 13. -/
def execDecodeWorkExhausted (ch : Fin 96) (pix : Bool) (s : State) : Host.Outcome State Fault Refusal :=
  live s (fun s =>
    let c := ch.val
    match (chanAt s c).pic with
    | some p =>
      if p.parsed && !pix then s
      else if pix then workExhausted c 1 (engineBusy (4 + p.pix) (chanAt s c).pixCredit s)
      else workExhausted c 0 (engineBusy p.ent (chanAt s c).entCredit s)
    | none => s)

/-! ## Parsing (R247, R248, R263, R264) -/

/-- Where the parsing of a picture stands: bytes of the access unit read, unit it is at, an error it has not yet resumed
from, runs of units covered (first, count), first units of the slices at which it can resume. -/
structure ParseAt where
  pos : Nat := 0
  unit : Nat := 0
  broken : Bool := false
  runs : List (Nat × Nat) := []
  resume : List Nat := []
deriving DecidableEq, Repr

/-- Is a unit covered by a slice parsed so far. -/
def ParseAt.covers (q : ParseAt) (u : Nat) : Bool := q.runs.any (fun r => decide (r.1 ≤ u ∧ u < r.1 + r.2))

/-- Parsing stops with an error of a class at a unit (R263). -/
def parseStop (c seq cls unit : Nat) (q : ParseAt) (s : State) : State × ParseAt :=
  (decodeError c seq (cls, unit) s, { q with unit := unit, broken := true })

/-- The n bytes of an access unit from an offset on are read through the entropy engine's guard and port; does a read fail
(R356, R366, R411). -/
def bitstreamRead (c ent : Nat) (au : Au) (off n : Nat) (s : State) : State × Bool :=
  let base := vstBase s c + 0x240000
  let a := (au.start + off) % ringBytes
  let m := min n (ringBytes - a)
  let (s, r) := dmaRead (6 + ent) 8 spCellar (base + a) m s
  if m < n then
    let (s, r') := dmaRead (6 + ent) 8 spCellar base (n - m) s
    (s, r.bad.isSome || r'.bad.isSome)
  else (s, r.bad.isSome)

/-- Does a loss report stand in the bitstream behind a byte of an access unit and at or ahead of another (R226, R263). -/
def lossIn (au : Au) (lo hi : Nat) : Bool := au.losses.any (fun l => decide (lo < l.1 ∧ l.1 ≤ hi))

/-- One slice is parsed: a loss report ahead of it stops the parsing; an independent slice, or any slice of H.264, resumes it
after an error; the slice itself is parsed to its end or to the first error in it (R263, R264). DEDUCED: log entry 64. -/
def parseSlice (c : Nat) (p : Pic) (seq : Nat) (codec : Nat) (baseline : Bool) (sl : SliceObs) (s : State) (q : ParseAt) :
    State × ParseAt :=
  let st := q.pos + sl.skip
  let en := st + sl.bytes
  let (s, failed) := bitstreamRead c p.ent p.au q.pos (en - q.pos) s
  let gap := lossIn p.au q.pos st || (decide (q.pos = 0) && p.au.losses.any (fun l => decide (l.1 = 0)))
  let (s, q) := if gap && !q.broken then parseStop c seq 1 q.unit q s else (s, q)
  let q := { q with pos := en }
  if q.broken && !(sl.independent || decide (codec = 0)) then (s, q)
  else
    let q := { q with broken := false, resume := q.resume ++ [sl.first] }
    let twice := !baseline && q.covers sl.first
    if twice then parseStop c seq 5 sl.first q s
    else
      let n := min sl.units (p.total - sl.first)
      let q := { q with unit := sl.first + n, runs := q.runs ++ [(sl.first, n)] }
      if failed then parseStop c seq 0 q.unit q s
      else match sl.err with
        | some e => parseStop c seq e.val q.unit q s
        | none => if lossIn p.au st en && decide (q.unit < p.total) then parseStop c seq 1 q.unit q s else (s, q)

/-- The slices of a picture are parsed in order; units that no slice covers at the end of the access unit are an error of
their own, unless parsing has stopped ahead of them (R263). DEDUCED: log entry 64. -/
def parseSlices (c : Nat) (p : Pic) (seq codec : Nat) (baseline : Bool) : List SliceObs → State → ParseAt → State × ParseAt
  | [], s, q =>
    match (List.range p.total).find? (fun u => !q.covers u) with
    | some u =>
      if q.broken then (s, q)
      else if lossIn p.au q.pos p.au.bytes then parseStop c seq 1 u q s else parseStop c seq 4 u q s
    | none => (s, q)
  | sl :: sls, s, q =>
    let (s, q) := parseSlice c p seq codec baseline sl s q
    parseSlices c p seq codec baseline sls s q

/-- Pages are taken by a picture's entropy engine, and returned by the pixel engines of pictures, in order (R248). -/
def pageMoves (c : Nat) (moves : List (Option (Fin 8))) (s : State) : State :=
  moves.foldl (fun s m => match m with
    | none => pageTake c s
    | some e =>
      match (List.range 96).find? (fun d => (chanAt s d).pic.any (fun p => decide (p.pix = e.val))) with
      | some d => pagesReturn d 1 s
      | none => s) s

/-- A picture's slice data is parsed: every unit that no slice covers is to be concealed, and its entropy engine is idle
(R247, R263, R264). -/
def parseDone (c : Nat) (p : Pic) (o : ParseObs) (s : State) : State :=
  let codec := declCodec s c
  let (s, q) := parseSlices c p (slotAt s c p.slot).seq codec p.baseline o.slices s {}
  let s := setFlag s R.VDC_STATUS p.ent false
  updPic c (fun p => { p with parsed := true, conceal := (List.range p.total).filter (fun u => !q.covers u), resume := q.resume }) s

/-- ENTROPY_PARSE_DONE: the engine has taken its pages, unless it stalls for one, and spent its cycles (R54, R248). -/
def execEntropyParseDone (ch : Fin 96) (o : ParseObs) (s : State) : Host.Outcome State Fault Refusal :=
  live s (linked o.links (fun s =>
    let c := ch.val
    match (chanAt s c).pic with
    | some p =>
      if p.parsed then s
      else
        let s := pageMoves c o.pages s
        if (chanAt s c).pic.any (fun p => p.stalled) then s
        else
          let s := spendEnt c o.cycles s
          match (chanAt s c).pic with
          | some p => parseDone c p o s
          | none => s
    | none => s))

/-! ## Taints (R54, R265 to R269) -/

/-- Join two taints of one kind: the latest origin stays (R267). DEDUCED: log entry 63. -/
def joinTaint (a b : Option Nat) : Option Nat :=
  match a, b with
  | some x, some y => some (laterOrigin x y)
  | some x, none => some x
  | none, y => y

/-- The SEQ of the pictures whose recovery points a picture meets: it follows them, at or above the point (R268). -/
def recoveriesMet (x : Chan) (seq : Nat) (poc : Int) : List Nat :=
  (x.recoveries.filter (fun r => decide (r.seq ≠ seq) && r.poc.any (fun p => decide (p ≤ poc)))).map (fun r => r.seq)

/-- An inherited taint, unless its origin precedes a picture whose recovery point is met (R268). -/
def afterRecovery (met : List Nat) (t : Option Nat) : Option Nat :=
  t.filter (fun o => !met.any (fun a => seqBefore o a))

/-- The taints of a kind that a picture inherits from its reference pictures, substitutes among them (R267). -/
def inherited (s : State) (c : Nat) (p : Pic) (sel : Slot → Option Nat) : Option Nat :=
  let x := slotAt s c p.slot
  let met := recoveriesMet (chanAt s c) x.seq x.poc
  p.refs.foldl (fun t k => joinTaint t (afterRecovery met (sel (slotAt s c k)))) none

/-- The taints of a decoded picture: own and inherited, OVER_DECLARED with the channel (R54, R265 to R268).
DEDUCED: log entry 63. -/
def pictureTaints (c : Nat) (p : Pic) (concealed : Nat) (s : State) : State :=
  let x := slotAt s c p.slot
  let own (b : Bool) : Option Nat := if b then some x.seq else none
  let con := joinTaint (inherited s c p Slot.conceal) (own (decide (concealed ≠ 0)))
  let sub := joinTaint (inherited s c p Slot.subst) (own p.subst.isSome)
  let overMark := (chanAt s c).overTaint && !p.irap
  let t := bits x.taints 4 4 * 16 + ofBool overMark * 32 + ofBool sub.isSome * 2 + ofBool con.isSome
  let s := setSlot c p.slot { x with conceal := con, subst := sub, taints := t } s
  setChan c { chanAt s c with overTaint := overMark } s

/-- The counts and events of concealment and substitution (R265, R266). -/
def damageEvents (c seq concealed : Nat) (p : Pic) (s : State) : State :=
  let s := if concealed = 0 then s
    else raiseOnce c { code := 0x71, unit := c, a0 := seq, a1 := concealed }
      (addReg s (R.VDC_S_CONCEALED_UNITS c) concealed)
  match p.subst with
  | some g => raiseOnce c { code := 0x72, unit := c, sub := ofBool g, a0 := seq } (addReg s (R.VDC_S_SUBST c) 1)
  | none => s

/-! ## Reconstruction: concealment and the picture's writes (R257, R259, R264 to R266) -/

/-- An error that the pixel engine meets at a unit, of class 0: that unit and those up to the next resumption point are
concealed (R264, R366, R367). -/
def pixelError (c seq unit : Nat) (p : Pic) (s : State) : State × Pic :=
  let stop := (p.resume.filter (fun r => decide (unit < r))).foldl min p.total
  (decodeError c seq (0, unit) s, { p with conceal := p.conceal ++ (List.range (stop - unit)).map (fun k => unit + k) })

/-- The pixel engine's reads of reference pictures (R366). -/
def pixelReads (c seq : Nat) : List RefRead → Pic → State → State × Pic
  | [], p, s => (s, p)
  | r :: rs, p, s =>
    let (s, m) := pixRead p.pix (slotBase s c r.slot.val + r.off) r.len s
    let (s, p) := if m.bad.isSome then pixelError c seq r.unit p s else (s, p)
    pixelReads c seq rs p s

/-- Uncorrectable words of the Granary that the picture's engines meet: one of the coefficient buffer is an error at the unit
whose records it held; a line of the reference caches is fetched again (R367). -/
def pixelGranary (c seq : Nat) : List (Nat × Nat) → Pic → State → State × Pic
  | [], p, s => (s, p)
  | w :: ws, p, s =>
    let s := granaryUncorrectable w.1 s
    let (s, p) := if granaryRegion w.1 = 1 then pixelError c seq w.2 p s else (granaryHeal w.1 1 s, p)
    pixelGranary c seq ws p s

/-- The source that units of a picture are concealed from: the reference picture of the nearest order count, else the
picture decoded before in its sequence while its slot is held; none is grey (R265). -/
def concealSource (s : State) (c : Nat) (p : Pic) : Option Nat :=
  match nearestPoc s c (slotAt s c p.slot).poc ((refSlots s c).filter (fun k => decide (k ≠ p.slot))) with
  | some k => some k
  | none =>
    match (chanAt s c).lastPic with
    | some (k, seq) => if (slotAt s c k).state ≠ 0 ∧ (slotAt s c k).seq = seq then some k else none
    | none => none

/-- One sample of 2^(d − 1). -/
def greySample (fmt : Nat) : List Byte := if fmt = 0x11 then [0x00, 0x02] else [0x80]

/-- A row as it is stored: its bytes, zero where none are given, the unused bits of 10-bit samples zero (R259). -/
def storedRow (fmt n : Nat) (row : List Byte) : List Byte :=
  let row := row.take n ++ List.replicate (n - row.length) 0
  if fmt = 0x11 then row.zipIdx.map (fun b => if b.2 % 2 = 1 then b.1 &&& 3 else b.1) else row

/-- Co-located samples of a row: n bytes at an offset of the source's slot, or grey (R265). -/
def concealBytes (c : Nat) (p : Pic) (src : Option Nat) (fmt off n : Nat) (s : State) : State × List Byte :=
  match src with
  | some k =>
    let (s, m) := pixRead p.pix (slotBase s c k + off) n s
    (s, m.data)
  | none => (s, (List.replicate (n / (greySample fmt).length) (greySample fmt)).flatten)

/-- The concealed units of a row are copied over it: `off` is the row's offset in a slot, w the bytes a unit takes in it. -/
def concealRow (c : Nat) (p : Pic) (src : Option Nat) (fmt off w : Nat) : List Nat → List Byte → State → State × List Byte
  | [], row, s => (s, row)
  | u :: us, row, s =>
    let x := u % p.across * w
    let n := min w (row.length - x)
    let (s, bs) := concealBytes c p src fmt (off + x) n s
    concealRow c p src fmt off w us (row.take x ++ bs ++ row.drop (x + n)) s

/-- Write n rows of a plane, from row y on: `off` is the plane's offset in the slot, w and h the bytes and rows of a unit in
it (R257, R265). -/
def writeRows (c : Nat) (p : Pic) (src : Option Nat) (off bytes w h : Nat) :
    Nat → Nat → List (List Byte) → State → State
  | 0, _, _, s => s
  | n + 1, y, rows, s =>
    let x := slotAt s c p.slot
    let at_ := off + y * x.pitch
    let us := p.conceal.filter (fun u => decide (u / p.across = y / h))
    let (s, row) := concealRow c p src x.fmt at_ w us (storedRow x.fmt bytes (rows.headD [])) s
    writeRows c p src off bytes w h n (y + 1) (rows.drop 1) (pixWrite p.pix (slotBase s c p.slot + at_) row s)

/-- The motion area: 64 bytes a block of 16 × 16, zero in concealed units (R257, R265). DEDUCED: log entry 64. -/
def motionBytes (p : Pic) (w16 h16 : Nat) (motion : List Byte) : List Byte :=
  let k := p.unit / 16
  let cols := w16 / 16
  (List.range (cols * (h16 / 16))).flatMap (fun b =>
    let u := b / cols / k * p.across + b % cols / k
    if b % cols / k < p.across ∧ p.conceal.contains u then List.replicate 64 0 else storedRow 0x10 64 (motion.drop (64 * b)))

/-- The samples and motion data of a picture (R257, R259, R265). -/
def writePicture (c : Nat) (p : Pic) (o : DecodeObs) (s : State) : State :=
  let x := slotAt s c p.slot
  let b := if x.fmt = 0x11 then 2 else 1
  let src := concealSource s c p
  let w16 := round16 (declW s c)
  let h16 := round16 (declH s c)
  let chroma := if p.mono then
      List.replicate (x.codedH / 2) (List.replicate (x.codedW / 2 * 2) (greySample x.fmt)).flatten
    else o.chroma
  let s := writeRows c p src 0x1000 (x.codedW * b) (p.unit * b) p.unit x.codedH 0 o.luma s
  let q := if p.mono then { p with conceal := [] } else p
  let s := writeRows c q src x.chroma (x.codedW / 2 * 2 * b) (p.unit * b) (p.unit / 2) (x.codedH / 2) 0 chroma s
  pixWrite p.pix (slotBase s c p.slot + 0x1000 + 3 * x.pitch * h16 / 2) (motionBytes p w16 h16 o.motion) s

/-! ## Completion (R247, R255, R256) -/

/-- The DPB takes a decoded picture: it waits for its output when it is to be output, the references it does not keep are
given up, and the pictures that are due are output (R255). PRESUMED: log entry 90. -/
def dpbComplete (c : Nat) (p : Pic) (s : State) : State :=
  let y := slotAt s c p.slot
  let s := if y.shown then
      (waitSlots s c).foldl (fun s k =>
        let z := slotAt s c k
        setSlot c k { z with waited := z.waited + ofBool (decide (y.poc < z.poc)) } s) s
    else neverOutput c p.slot s
  let s := setSlot c p.slot { slotAt s c p.slot with decoding := false, ref := p.isRef, wait := y.shown } s
  let s := if p.isRef then keepRefs c p.keep [p.slot] s else s
  let s := bump c p.reorder p.latency (if declCodec s c = 1 then 17 else p.dpb + 1) 16 s
  let s := updSlot c p.slot (fun x => x) s
  setChan c { chanAt s c with lastPic := some (p.slot, y.seq) } s

/-- A picture completes decode (R247, R256). -/
def pictureComplete (c : Nat) (p : Pic) (o : DecodeObs) (s : State) : State :=
  let seq := (slotAt s c p.slot).seq
  let (s, p) := pixelReads c seq o.reads p s
  let (s, p) := pixelGranary c seq o.granary p s
  let p := { p with conceal := (List.range p.total).filter (fun u => p.conceal.contains u) }
  let s := writePicture c p o s
  let s := damageEvents c seq p.conceal.length p (pictureTaints c p p.conceal.length s)
  let s := pagesReturn c p.pages (setFlag s R.VDC_STATUS (4 + p.pix) false)
  let s := addReg (addReg s (R.VDC_S_DECODED c) 1) R.VDC_PICTURES 1
  dpbComplete c p (setChan c { chanAt s c with pic := none } s)

/-- DECODE_PICTURE_COMPLETE; a picture whose work exceeds its PIX credit is rejected instead (R54). DEDUCED: log entry 63. -/
def execDecodePictureComplete (ch : Fin 96) (o : DecodeObs) (s : State) : Host.Outcome State Fault Refusal :=
  live s (linked o.links (fun s =>
    let c := ch.val
    match (chanAt s c).pic with
    | some p =>
      if !p.parsed then s
      else
        let s := spendPix c o.cycles s
        match (chanAt s c).pic with
        | some p => pictureComplete c p o s
        | none => s
    | none => s))

end Sys2Proof.Machine
end

