-- ==== Sys2Proof/Machine/EncodeStream.lean ====
section
/-!
DEFINITION. Machine/EncodeStream.lean: what an encode session reads and what its stream holds: the conversion of an input
picture (R327), the structure and timing a stream signals (R332, R334), motion bounds (R333, R341), the NAL units ahead of
the slices (R339 to R341, R343), filler data (R336), and the work area (R332).
-/

namespace Sys2Proof.Machine

/-! ## Input conversion (R327) -/

/-- The picture a session encodes. -/
def encPicture (s : State) (f : Sealed) : PicSrc := if f.kind = 0 then slotPic s f.unit f.slot else wbPic s f.unit f.slot

/-- A 12-bit value at DEPTH. -/
def encDepth (w : Nat → Nat) (v : Nat) : Nat :=
  if bits (w 5) 27 24 = 8 then min ((v + 8) / 16) 255 else min ((v + 2) / 4) 1023

/-- Is the chroma of a format sampled once in a 2 × 2 square, or once in a pair of a row. -/
def fmt420 (f : Nat) : Bool := decide (f = 0x10 ∨ f = 0x11)
def fmt422 (f : Nat) : Bool := decide (f = 0x22 ∨ f = 0x32)

/-- The 12-bit Y, Cb and Cr of an input pixel, the nearest one inside the picture; `found` are bytes that reads gave in place
of the memory's (R327, R416). -/
def encYcc (s : State) (w : Nat → Nat) (found : Mix) (p : PicSrc) (x y : Int) : Nat × Nat × Nat :=
  let q := picPixel s found { p with kind := 3 } (min x.toNat (p.width - 1)) (min y.toNat (p.height - 1))
  let c := (4 * q.1, 4 * q.2.1, 4 * q.2.2.1)
  if fmtYcc p.fmt then c else toYcc (bit (w 6) 19) (!bit (w 6) 20) c

/-- A chroma sample of the 4:2:0 picture, from its samples `c` at pixels (R327). -/
def downSample (fmt : Nat) (c : Int → Int → Nat) (x y : Int) : Nat :=
  if fmt420 fmt then c (2 * x) (2 * y)
  else if fmt422 fmt then (c (2 * x) (2 * y) + c (2 * x) (2 * y + 1) + 1) / 2
  else (c (2 * x - 1) (2 * y) + 2 * c (2 * x) (2 * y) + c (2 * x + 1) (2 * y)
    + c (2 * x - 1) (2 * y + 1) + 2 * c (2 * x) (2 * y + 1) + c (2 * x + 1) (2 * y + 1) + 4) / 8

/-- A line of each plane of the converted picture. -/
def encLuma (s : State) (w : Nat → Nat) (found : Mix) (p : PicSrc) (y : Nat) : List Nat :=
  (List.range (encW w)).map (fun (x : Nat) => encDepth w (encYcc s w found p x y).1)
def encCb (s : State) (w : Nat → Nat) (found : Mix) (p : PicSrc) (y : Nat) : List Nat :=
  (List.range (encW w / 2)).map (fun (x : Nat) => encDepth w (downSample p.fmt (fun x y => (encYcc s w found p x y).2.1) x y))
def encCr (s : State) (w : Nat → Nat) (found : Mix) (p : PicSrc) (y : Nat) : List Nat :=
  (List.range (encW w / 2)).map (fun (x : Nat) => encDepth w (downSample p.fmt (fun x y => (encYcc s w found p x y).2.2) x y))

/-- The luma lines of a row, and its chroma lines. -/
def rowLines (w : Nat → Nat) (r : Nat) : List Nat :=
  (List.range (encCtu w)).map (fun i => encCtu w * r + i) |>.filter (fun y => decide (y < encH w))
def rowChroma (w : Nat → Nat) (r : Nat) : List Nat := ((rowLines w r).filter (fun y => decide (y % 2 = 0))).map (fun y => y / 2)

/-! ## Reads (R332, R352, R356, R411) -/

/-- Pipeline of a session, and what it reads through its guard and DMC port (R356, R411). -/
def encPipe (s : State) (n : Nat) : Nat := fld s (R.VEN_STATE n) 2 2
def encRead (n sp a len : Nat) (s : State) : State × MemRead := dmaRead (14 + encPipe s n) (13 + encPipe s n) sp a len s

/-- What the pipeline reads of an input row: the lines of its planes. -/
def rowReads (w : Nat → Nat) (p : PicSrc) (r : Nat) : List (Nat × Nat × Nat) :=
  (rowLines w r).flatMap (fun y =>
    let q := p.spans y [evenColumns (p.left, p.left + p.width)]
    if y % 2 = 0 then q else q.take 1)

/-- The input row is read; with the bytes that failed reads gave in place of the memory's. -/
def encReadRow (n : Nat) (p : PicSrc) (r : Nat) (s : State) : State × Mix :=
  (rowReads (encWord s n) p r).foldl (fun q span =>
    let (s, d) := encRead n span.1 span.2.1 span.2.2 q.1
    (s, if d.bad.isSome then q.2 ++ (List.range span.2.2).map (fun i => (span.1, span.2.1 + i, d.data.getD i 0)) else q.2))
    (s, [])

/-- The size of a reconstructed picture in the work area with its scaled planes and motion data (R332). -/
def encReconBytes (w : Nat → Nat) : Nat :=
  let w1 := encCols w * encCtu w
  let h1 := encRows w * encCtu w
  let p := round256 (w1 * (if bits (w 5) 27 24 = 8 then 1 else 2))
  4096 + 3 * p * h1 / 2 + w1 * h1 / 4 + w1 * h1 / 8
def encWorkBytes (w : Nat → Nat) : Nat := ceilDiv (2 * encReconBytes w) 4096 * 4096

/-- Where the work area lies. -/
def encWorkAddr (s : State) (n : Nat) : Nat := fld s (R.VEN_WORK_BASE n) 23 0 * 4096

/-- The reads of the work area for a row; the offsets of those that failed. -/
def encReadRefs (n : Nat) (refs : List (Nat × Nat)) (s : State) : State × List Nat :=
  (refs.filter (fun q => decide (q.1 + q.2 ≤ encWorkBytes (encWord s n)))).foldl (fun acc q =>
    let (s, d) := encRead n spCellar (encWorkAddr acc.1 n + q.1) q.2 acc.1
    (s, if d.bad.isSome then acc.2 ++ [q.1] else acc.2)) (s, [])

/-- Words of a pipeline's search cache prove uncorrectable: each counts, and its line is fetched again (R367). -/
def encCacheMet (n : Nat) (ws : List Nat) (s : State) : State :=
  let a := 0x01700000 + encPipe s n * 0x100000
  (ws.filter (fun w => decide (a ≤ w ∧ w < a + 0x100000))).foldl (fun s w => granaryHeal w 1 (granaryUncorrectable w s)) s

/-- The reconstructed picture of a completed picture is written to the work area's other half, with values the manual does
not state (R332). DEDUCED: log entry 75. -/
def encWriteWork (n : Nat) (s : State) : State :=
  let w := encWord s n
  let x := encAt s n
  let a := encWorkAddr s n + x.count % 2 * encReconBytes w
  (dmaWrite (14 + encPipe s n) (13 + encPipe s n) spCellar a
    ((List.range (encReconBytes w)).map (Config.encWorkByte x.model)) s).1

/-! ## What the stream signals (R327, R332, R334) -/

/-- time_scale, and num_units_in_tick (R334). -/
def timingGcd (s : State) (w : Nat → Nat) : Nat := Nat.gcd (tickDen s * 10 ^ 6) (tickNum s / 1000 * encDiv w)
def timeScale (s : State) (w : Nat → Nat) : Nat :=
  (if bits (w 5) 7 0 = 1 then 1 else 2) * (tickDen s * 10 ^ 6) / timingGcd s w
def unitsInTick (s : State) (w : Nat → Nat) : Nat := tickNum s / 1000 * encDiv w / timingGcd s w

/-- The colour description: of SPACE and FULL_RANGE, or the channel's own (R327), in the form of word 6 of a slot header.
DEDUCED: log entry 75. -/
def encColour (s : State) (w : Nat → Nat) (f : Option Sealed) : Nat :=
  match f.filter (fun f => decide (f.kind = 0)) with
  | some f => (slotAt s f.unit f.slot).colour
  | none => 2 ^ 25 + ofBool (bit (w 6) 20) * 2 ^ 24 + (if bit (w 6) 19 then 9 * 2 ^ 16 + 14 * 2 ^ 8 + 9 else 2 ^ 16 + 2 ^ 8 + 1)

/-- The structure of a session's stream (R332, R334). -/
def encInfo (s : State) (n : Nat) (f : Option Sealed) : Config.StreamInfo :=
  let w := encWord s n
  let h265 := decide (bits (w 5) 7 0 = 1)
  { h265 := h265, profile := bits (w 5) 15 8, level := bits (w 5) 23 16, depth := bits (w 5) 27 24, width := encW w, height := encH w,
    block := encCtu w, transform := if h265 then 32 else 8, sao := h265, sliceRows := bits (w 9) 23 16,
    bitRate := w 7 * 1000, cpbBits := w 8 * 1000, cbr := !bit (w 6) 16, timeScale := timeScale s w, unitsInTick := unitsInTick s w,
    initialDelay := (w 8 * 1000, w 7), colour := encColour s w f }

/-! ## NAL units (R67, R336, R343) -/

/-- Start code of every NAL unit (R343). -/
def startCode : List Byte := [0, 0, 0, 1]

/-- Emulation prevention of the standards: no start code inside a NAL unit. PRESUMED: log entry 75. -/
def escape : Nat → List Byte → List Byte
  | _, [] => []
  | z, b :: bs =>
    let rest := escape (if b = 0 then (if 2 ≤ z then 1 else z + 1) else 0) bs
    if 2 ≤ z ∧ b.toNat ≤ 3 then 3 :: b :: rest else b :: rest

/-- The picture-timing SEI message of R67 as a NAL unit: user data unregistered, 48-bit seconds, nanoseconds.
PRESUMED: log entry 75. -/
def stampNal (h265 : Bool) (t : Int) : List Byte :=
  (if h265 then [0x4E, 0x01] else [0x06])
    ++ escape 0 ([5, 26] ++ timingUuid ++ beBytes 6 (capSec t) ++ beBytes 4 (capNs t) ++ [0x80])

/-- Filler data of at least k bytes; none for 0. PRESUMED: log entry 75. -/
def fillerData (h265 : Bool) (k : Nat) : List Byte :=
  let header : List Byte := if h265 then [0x4C, 0x01] else [0x0C]
  if k = 0 then [] else startCode ++ header ++ List.replicate (k - 5 - header.length) 0xFF ++ [0x80]

/-- The NAL units of the standards ahead of the slices: delimiter; parameter sets on an IDR picture and a sweep start;
SEI messages (R334, R340, R341, R343). -/
def encNalKinds (w : Nat → Nat) (x : EncSt) (p : EncPic) : List Config.NalKind :=
  let fresh := p.idr || p.start
  [.delimiter p.idr] ++ (if !fresh then [] else if bits (w 5) 7 0 = 1 then [.vps, .sps, .pps] else [.sps, .pps])
    ++ (if fresh then [.bufferingPeriod] else []) ++ [.pictureTiming ((p.n - x.period) / encDiv w)]
    ++ (if p.start then [.recoveryPoint (encPeriod w - 1 + encSlip w) true] else [])

/-- The bytes of an access unit that precede its first slice, for a content time (R339, R343). -/
def encHead (s : State) (n : Nat) (p : EncPic) (content : Int) : List Byte :=
  let info := encInfo s n p.held
  (encNalKinds (encWord s n) (encAt s n) p).flatMap (fun k => startCode ++ Config.encNal info k)
    ++ startCode ++ stampNal info.h265 content

/-! ## Content time (R339) -/

/-- The content time and taints of a picture (R339). -/
def encContent (x : EncSt) (p : EncPic) : Int × Nat :=
  match x.content with
  | some c => if p.repeat_ || (p.skipped && decide (c < p.cap)) then (c, p.taints ||| x.taints) else (p.cap, p.taints)
  | none => (p.cap, p.taints)

/-- The bits of the NAL units ahead of the slices (R336), with the longer of the content times the picture can have.
DEDUCED: log entry 75. -/
def encHeadBits (s : State) (n : Nat) (p : EncPic) : Nat :=
  let x := encAt s n
  8 * max (encHead s n p (encContent x { p with skipped := false }).1).length
    (encHead s n p (encContent x { p with skipped := true }).1).length

/-! ## Rows -/

/-- First CTU column of column set j (R341). -/
def setColumn (w : Nat → Nat) (j : Nat) : Nat := j * encCols w / encPeriod w

/-- The luma columns of a picture to be coded intra, and the end of those below its set (R341). -/
def encIntra (w : Nat → Nat) (p : EncPic) : List (Nat × Nat) :=
  if p.idr then [(0, encW w)]
  else if encGradual w then [(setColumn w p.wave * encCtu w, setColumn w (p.wave + 1) * encCtu w)] else []
def encClean (w : Nat → Nat) (p : EncPic) : Nat := if encGradual w && !p.idr then setColumn w p.wave * encCtu w else 0

/-- A vector within the bounds of the search, ±274.75 and ±146.75 luma samples (R333), and, of a block below the picture's
set, at least 8 luma samples inside the area below it (R341). -/
def boundVector (clean : Nat) (v : Config.BlockVector) : Config.BlockVector :=
  let hi : Int := if v.x + v.side ≤ clean then min 1099 (4 * ((clean : Int) - 8 - v.x - v.side)) else 1099
  { v with mx := clampInt (-1099) hi v.mx, my := clampInt (-587) 587 v.my }

/-- The vectors of a row: none in an intra column (R333, R341). -/
def encVectors (w : Nat → Nat) (p : EncPic) (vs : List Config.BlockVector) : List Config.BlockVector :=
  (vs.filter (fun v => !(encIntra w p).any (fun q => decide (q.1 < v.x + v.side ∧ v.x < q.2)))).map (boundVector (encClean w p))

/-- What a row is coded from (R338). -/
def encRowInput (s : State) (n : Nat) (p : EncPic) (cap : Nat) (found : Mix) (refBad : List Nat) : Config.RowInput :=
  let w := encWord s n
  let lines (f : PicSrc → Nat → List Nat) (ys : List Nat) : List (List Nat) :=
    match p.held with
    | some h => ys.map (f (encPicture s h))
    | none => []
  { info := encInfo s n p.held, qpMin := p.qpMin, qpMax := p.qpMax, n := p.n, idr := p.idr, repeated := p.repeat_,
    intra := encIntra w p, clean := encClean w p, row := p.row, cap := cap, luma := lines (encLuma s w found) (rowLines w p.row),
    cb := lines (encCb s w found) (rowChroma w p.row), cr := lines (encCr s w found) (rowChroma w p.row), refBad := refBad }

end Sys2Proof.Machine
end

