-- ==== Sys2Proof/Machine/Heads.lean ====
section
/-!
DEFINITION. Machine/Heads.lean: heads: raster timing and the pixel PLL (R299 to R305), enabling and disabling (R309,
R310), re-timing (R311 to R314), fetch lead and urgency (R306, R490), the bursts of a fetch unit (R44, R146, R275), the
scan of a frame line by line (R302, R303, R307, R308), writeback (R293 to R296), and the output witness (R94 to R99).
The two heads of a pair act together (R305).
-/

namespace Sys2Proof.Machine

/-! ## Raster timing (R46, R299 to R305) -/

/-- Does a raster keep the limits of R300, with HEAD_PHASE (R46) in ns, for a tick of num / den ns. -/
def rasterOk (num den h v phase : Nat) : Bool :=
  let ha := bits h 12 0
  let ht := bits h 29 16
  let va := bits v 12 0
  let vt := bits v 28 16
  let rate := ht * vt * den * 10 ^ 9
  decide (ha % 2 = 0 ∧ 64 ≤ ha ∧ ha ≤ 4096 ∧ ht % 2 = 0 ∧ ha + 32 ≤ ht ∧ ht ≤ 8192 ∧ 64 ≤ va ∧ va ≤ 4096
    ∧ ha * va ≤ 8847360 ∧ va + 3 ≤ vt ∧ vt ≤ 8191 ∧ 25000000 * num ≤ rate ∧ rate ≤ 600000000 * num
    ∧ 80000 * vt * den ≤ (vt - va) * num
    ∧ 64000 ≤ phase ∧ (phase + 16000) * vt * den + va * num ≤ num * vt)

/-- Does the timing of a head break R300 or R305; `r` reads its registers. DEDUCED: log entry 45. -/
def timingBad (s : State) (r : Nat → Nat) (h : Nat) : Bool :=
  let e := h / 2 * 2
  let phase (k : Nat) : Nat := bits (r (R.TCK_HEADPHASE k)) 25 0
  let one (k : Nat) : Bool := !rasterOk (tickNum s) (tickDen s) (r (R.HEAD_H k)) (r (R.HEAD_V k)) (phase k)
  one h || (bit (r (R.HEAD_MODE e)) 0 &&
    (!unitPresent s.part .head (e + 1) || decide (r (R.HEAD_H e) ≠ r (R.HEAD_H (e + 1)) ∨ r (R.HEAD_V e) ≠ r (R.HEAD_V (e + 1))
      ∨ phase e ≠ phase (e + 1) ∨ unitState s 1 e ≠ unitState s 1 (e + 1))))

/-- The heads that act with a head: both of a pair, else the head alone. DEDUCED: log entry 45. -/
def headGroup (s : State) (h : Nat) : List Nat := if paired s h then [h / 2 * 2, h / 2 * 2 + 1] else [h]

/-- HEAD_PHASE in ns as step 3 applies it: the latched value clamped into the range of R46. DEDUCED: log entry 41. -/
def appliedPhase (s : State) (h : Nat) : Nat :=
  let top := (vTotal s h - vActive s h) * tickNum s / (vTotal s h * tickDen s) - 16000
  clampNat 64000 (max 64000 top) (lfld s (R.TCK_HEADPHASE (leader s h)) 25 0)

/-- HEAD_PHASE in ns, fixed at the last step 3 (R46). -/
def headPhase (s : State) (h : Nat) : Nat := (headAt s h).phase

/-- Step 3 applies HEAD_PHASE; what moves without a re-time is kept out of ADJ (R46, R317). -/
def phaseLatch (h : Nat) (s : State) : State :=
  let x := headAt s h
  let p := appliedPhase s h
  setHead h { x with phase := p, phaseMove := x.phaseMove + (p : Int) - (x.phase : Int) } s

/-- The duration of n pixel periods of a head in 2⁻³² ns (R299). -/
def pixelTime (s : State) (h n : Nat) : Nat := n * tickNum s * nsUnit / (tickDen s * hTotal s h * vTotal s h)

/-- The pixels of a head that begin within a span of time. -/
def pixelsIn (s : State) (h t : Nat) : Nat := t * tickDen s * hTotal s h * vTotal s h / (tickNum s * nsUnit)

/-- floor(F), 0 where the period has no value (R299). DEDUCED: log entry 41. -/
def pixelRate (s : State) (h : Nat) : Nat := hTotal s h * vTotal s h * tickDen s * 10 ^ 9 / tickNum s

/-- LOCKED of a head. -/
def headLocked (s : State) (h : Nat) : Bool := flag s (R.HEAD_STATUS h) 3

/-- Run an operation on each head of a list. -/
def eachHead (hs : List Nat) (f : Nat → State → State) (s : State) : State := hs.foldl (fun s h => f h s) s

/-! ## HEADOK and unit states (R98, R99, R318) -/

/-- WITNESS_N as latched. -/
def witnessN (s : State) : Nat := lfld s R.WIN_WITNESS 3 0

/-- The level that R99 gives HEADOK. DEDUCED: log entries 45, 47. -/
def headokRule (s : State) (h : Nat) : Bool :=
  let x := headAt s h
  decide (unitState s 1 h = 2 ∧ witnessN s ≤ x.frames ∧ x.restart = 0) && s.pwr.downAt.isNone

/-- HEADOK follows R99; a rise after a HEAD_STUCK clears STUCK. DEDUCED: log entry 47. -/
def headokUpdate (h : Nat) (s : State) : State :=
  let ok := headokRule s h
  let s := setFlag s (R.WIN_LT_STATUS h) 0 ok
  if ok && flag s (R.WIN_LT_STATUS h) 1 then raise { code := 0x27, unit := h } (setFlag s (R.WIN_LT_STATUS h) 1 false)
  else s

/-- A head moves to a state: EN reads 1 while STARTING or RUNNING, an enable that waits behind a witness restart finds it
STARTING or RUNNING (R178, R180), the witness starts afresh in RUNNING, and HEADOK follows (R99, R176, R309).
DEDUCED: log entry 42. -/
def setHeadState (h new : Nat) (s : State) : State :=
  let old := unitState s 1 h
  if old = new then s
  else
    let x := headAt s h
    let s := setUnit 1 h new (enableQueued s 1 h || decide (x.restart ≠ 0 ∧ new = 3)) s
    let s := if old = 3 ∧ new ≠ 0 then finishWaiters 1 h auxQueued stUnitState s else s
    let s := setFlag s (R.HEAD_CTRL h) 0 (decide (new = 1 ∨ new = 2))
    let s := if new = 2 then
        setHead h { headAt s h with frames := 0, run := 0, lastCrc := none, frameAt := s.elapsed, restart := 0 } s
      else s
    headokUpdate h s

/-- A re-time or its wait ends without its frame: the sheaf completions that wait for the head are written (R313).
DEDUCED: log entry 42. -/
def deferAbandon (h : Nat) (s : State) : State :=
  let gone := s.shf.deferred.filter (fun d => d.2.2.2.contains h)
  let s := { s with shf := { s.shf with deferred := s.shf.deferred.filter (fun d => !d.2.2.2.contains h) } }
  gone.foldl (fun s d =>
    updCmd d.1 (fun c => { c with phase := .due stSuccess 0 0xFFFFFFFF 0xFFFFFFFF (some (d.2.1, d.2.2.1)) }) s) s

/-- A head that a sheaf re-timed runs again; the last of them writes the sheaf's completion (R313). DEDUCED: log entry 42. -/
def deferDone (h n : Nat) (s : State) : State :=
  let upd := s.shf.deferred.map (fun d => (d.1, d.2.1, d.2.2.1, d.2.2.2.filter (fun k => decide (k ≠ h))))
  let done := upd.filter (fun d => decide (d.2.2.2 = []))
  let s := { s with shf := { s.shf with deferred := upd.filter (fun d => decide (d.2.2.2 ≠ [])) } }
  done.foldl (fun s d =>
    updCmd d.1 (fun c => { c with phase := .due stSuccess 0 (n % 2 ^ 32) (n / 2 ^ 32) (some (d.2.1, d.2.2.1)) }) s) s

/-! ## The pixel PLL (R301, R311, R312) -/

/-- The PLL of a head starts or is retargeted. -/
def pllStart (h : Nat) (s : State) : State :=
  let s := setFlag s (R.HEAD_STATUS h) 3 false
  setHead h { headAt s h with pllOn := true, pllAt := s.elapsed, lockLate := false, lockedAt := none, nf := none } s

/-- A frame whose active scan has not begun is not scanned. -/
def dropUnbegun (h : Nat) (s : State) : State :=
  let x := headAt s h
  match x.scan with
  | some sc => if sc.active then s else encNoScan h sc.n (setHead h { x with scan := none } s)
  | none => s

/-- A re-time of a head begins (R311). DEDUCED: log entry 41. -/
def retimeHead (h : Nat) (s : State) : State :=
  let s := deferAbandon h s
  let s := dropUnbegun h (setHead h { headAt s h with restart := 0, stepPending := false, directPll := false, directNext := false,
                                                      endAt := none, phaseMove := 0, retimeAt := s.elapsed } s)
  let s := pllStart h (setHeadState h 1 s)
  let s := addReg (setFlag s (R.HEAD_STATUS h) 4 true) (R.HEAD_RETIMES h) 1
  raise { code := 0x86, unit := h, sub := 0, a0 := 0 } s

/-- May a head begin a re-time: STARTING, RUNNING, or in the witness restart (R311). -/
def mayRetime (s : State) (h : Nat) : Bool :=
  decide (unitState s 1 h = 1 ∨ unitState s 1 h = 2 ∨ (unitState s 1 h = 3 ∧ (headAt s h).restart = 2))

/-- Begin a re-time of a head and of its pair partner. -/
def retimeBegin (h : Nat) (s : State) : State :=
  eachHead (headGroup s h) (fun k s => if mayRetime s k then retimeHead k s else s) s

/-- A step of the local clock re-times every head: at once, or at the end of the frame in active scan (R311).
DEDUCED: log entry 41. -/
def headsStepped (s : State) : State :=
  (List.range 24).foldl (fun s h =>
    if !mayRetime s h then s
    else if (headAt s h).scan.any Scan.active then setHead h { headAt s h with stepPending := true } s
    else retimeHead h s) s

/-- PIXEL_PLL_LOCK: LOCKED, and N_f, the first tick after that moment, is fixed (R309, R312). -/
def execPixelPllLock (h : Fin 24) (s : State) : Host.Outcome State Fault Refusal :=
  live s (fun s =>
    if !(headAt s h.val).pllOn || headLocked s h.val then s
    else eachHead (headGroup s h.val) (fun k s =>
      let s := setFlag s (R.HEAD_STATUS k) 3 true
      setHead k { headAt s k with lockedAt := some s.clock, directPll := false, nf := some (tickAfter s s.clock) } s) s)

/-- One head's part in the loss of its PLL's lock (R314). DEDUCED: log entry 41. -/
def pllUnlock (h : Nat) (s : State) : State :=
  let s := setFlag s (R.HEAD_STATUS h) 3 false
  let s := setHead h { headAt s h with lockedAt := none, nf := none } s
  if unitState s 1 h ≠ 2 then s
  else
    let s := raise { code := 0x88, unit := h } s
    let s := addReg (setFlag s (R.HEAD_STATUS h) 11 true) (R.HEAD_UNLOCKS h) 1
    let s := retimeHead h s
    let x := headAt s h
    setHead h { x with scan := x.scan.map (fun sc => { sc with ended := true, timingTorn := true }) } s

/-- PIXEL_PLL_UNLOCK: a locked PLL leaves LOCKED; a RUNNING head re-times (R301, R314). -/
def execPixelPllUnlock (h : Fin 24) (s : State) : Host.Outcome State Fault Refusal :=
  live s (fun s => if headLocked s h.val then eachHead (headGroup s h.val) pllUnlock s else s)

/-- PLL_LOCK_TIMEOUT: no lock within 10 ms of the start or retarget; the PLL goes on (R312). DEDUCED: log entry 41. -/
def execPllLockTimeout (h : Fin 24) (s : State) : Host.Outcome State Fault Refusal :=
  live s (fun s =>
    let x := headAt s h.val
    if unitState s 1 h.val ≠ 1 ∨ !x.pllOn ∨ headLocked s h.val ∨ x.lockLate then s
    else
      let s := waitElapsed (x.pllAt + 10000000 * nsUnit) s
      raise { code := 0x88, unit := h.val } (setHead h.val { headAt s h.val with lockLate := true } s))

/-! ## Enabling and disabling (R309, R310) -/

/-- An OFF head starts, with its pair partner (R309). -/
def headStart (h : Nat) (s : State) : State :=
  eachHead (headGroup s h) (fun k s =>
    let s := setHead k { headAt s k with restart := 0, disabling := false, sealedOff := false, endAt := none } s
    pllStart k (setHeadState k 1 s)) s

/-- One head enters DRAINING for good (R310). DEDUCED: log entry 42. -/
def headDrainOne (h : Nat) (s : State) : State :=
  let s := finishWaiters 1 h auxEnabling stSuccess s
  let s := setHead h { headAt s h with restart := 0, disabling := true, sealedOff := false, stepPending := false,
                                       directPll := false, directNext := false } s
  let s := setHeadState h 3 s
  deferAbandon h (dropUnbegun h (setFlag s (R.HEAD_STATUS h) 4 false))

/-- A disable of a head that is not OFF; one that meets the witness restart ends it (R176, R310). DEDUCED: log entry 42. -/
def headDrain (h : Nat) (s : State) : State :=
  eachHead (headGroup s h) (fun k s => if unitState s 1 k = 0 ∨ (headAt s k).disabling then s else headDrainOne k s) s

/-- HEAD_CTL, enabling an OFF head (R309). -/
def headOpen (h : Nat) (c : Cmd) (s : State) : State :=
  if timingBad s (lrd s) h then reject c 1 h s else waitCmd c.tag [auxEnabling] (headStart h s)

/-- HEAD_CTL, enabling: behind a drain, that of a witness restart too, it waits (R98, R178). DEDUCED: log entry 42. -/
def headEnableCmd (h : Nat) (c : Cmd) (s : State) : State := enableCmd 1 h c (headOpen h) s

/-- HEAD_CTL, disabling; in the witness restart it withdraws an enable that waits and ends the restart (R176, R180).
DEDUCED: log entry 42. -/
def headDisableCmd (h : Nat) (c : Cmd) (s : State) : State :=
  if (headAt s h).restart = 2 then
    waitCmd c.tag [auxDisabling] (headDrain h (finishWaiters 1 h auxQueued stAborted s))
  else disableCmd 1 h c (headDrain h) s

/-- HEAD_CTL in flight executes. -/
def execHeadCtl (tag : Fin 4096) (s : State) : Host.Outcome State Fault Refusal :=
  live s (fun s => onCmd tag.val 0x14 s (fun c s =>
    let h := bits (c.w 2) 4 0
    if bit (c.w 3) 0 then headEnableCmd h c s else headDisableCmd h c s))

/-- A direct write of EN = 1 to HEAD_h_CTRL (R179, R309). -/
def headRegEnable (h : Nat) (s : State) : State :=
  let st := unitState s 1 h
  if st = 3 then enableIgnored 1 h (R.HEAD_STATUS h) 9 (R.HEAD_CTRL h) s
  else if st ≠ 0 then s
  else if !tickRun s || timingBad s (lrd s) h then setFlag s (R.HEAD_STATUS h) 10 true
  else headStart h s

/-- A direct write of EN = 0 to HEAD_h_CTRL (R180, R310). -/
def headRegDisable (h : Nat) (s : State) : State :=
  let st := unitState s 1 h
  if st = 0 then s
  else if st = 3 then finishWaiters 1 h auxQueued stAborted (headDrain h s)
  else headDrain h s

/-- HEAD_REG_ENABLE and HEAD_REG_DISABLE; an absent head ignores them (R2). -/
def execHeadRegEnable (h : Fin 24) (s : State) : Host.Outcome State Fault Refusal :=
  live s (fun s => if unitPresent s.part .head h.val then headRegEnable h.val s else s)
def execHeadRegDisable (h : Fin 24) (s : State) : Host.Outcome State Fault Refusal :=
  live s (fun s => if unitPresent s.part .head h.val then headRegDisable h.val s else s)

/-! ## Fetch (R44, R146, R275, R306) -/

/-- Change the frame in scan of a head. -/
def updScan (h : Nat) (f : Scan → Scan) (s : State) : State :=
  let x := headAt s h
  setHead h { x with scan := x.scan.map f } s

/-- What a head's frame in scan is composed from: the registers and layers as they are or, once the clock has stepped and a
seal has passed, as the frame's own seal left them (R56, R311). -/
def scene (s : State) (h : Nat) : State :=
  match (headAt s h).scan.bind Scan.view with
  | some v => { s with regs := v.regs, latched := v.latched, layers := v.layers }
  | none => s

/-- Change a layer, or store a latched value, where the head's frame in scan reads it. -/
def updScene (h i : Nat) (f : Layer → Layer) (s : State) : State :=
  match (headAt s h).scan.bind Scan.view with
  | some v => updScan h (fun sc =>
      { sc with view := some { v with layers := smSet (fun _ => {}) v.layers i (f (smGet (fun _ => {}) v.layers i)) } }) s
  | none => setLayer i (f (layerAt s i)) s
def sceneWrite (h off v : Nat) (s : State) : State :=
  match (headAt s h).scan.bind Scan.view with
  | some w => updScan h (fun sc =>
      { sc with view := some { w with latched := smSet regReset w.latched off (BitVec.ofNat 32 v) } }) s
  | none => lwr s off v

/-- The clock has stepped over a frame in active scan, which a seal meets: it goes on with the registers and layers of its
own seal (R311). -/
def keepScene (h : Nat) (s : State) : State :=
  updScan h (fun sc => { sc with view := sc.view.or (some { regs := s.regs, latched := s.latched, layers := s.layers }) }) s

/-- Is a layer fully covered, as step 8 of the last seal decided (R82). -/
def layerCovered (s : State) (h l : Nat) : Bool := flag s (R.WIN_L_CLASS h l) 3

/-- Does a head fetch a layer in the frame in scan: it is enabled, not fully covered, and drawn from a picture. -/
def layerFetched (s : State) (h l : Nat) (sc : Scan) (y : Nat) : Bool :=
  layerEnabled s h l && !layerCovered s h l && (layerDraw s h l sc y).pic.isSome

/-- Is an output line of a layer complete in its line store, or outside its destination (R306). -/
def lineHeld (s : State) (h l : Nat) (sc : Scan) (y : Nat) : Bool :=
  let g := geo s h l
  match (layerDraw s h l sc y).pic with
  | some p => !g.onLine y || decide (vActive s h ≤ y) || !layerLacks s h l g p y
  | none => true

/-- The lead of a layer, and of a head (R306). DEDUCED: log entry 43. -/
def layerLead (s : State) (h l : Nat) (sc : Scan) : Nat :=
  ((List.range 15).takeWhile (fun k => lineHeld s h l sc (sc.line + k))).length
def headLead (s : State) (h : Nat) (sc : Scan) : Nat :=
  ((List.range 16).filter (fun l => layerFetched s h l sc sc.line)).foldl (fun m l => min m (layerLead s h l sc)) 15

/-- WM_LOW and WM_HIGH as latched. -/
def wmLow (s : State) (h : Nat) : Nat := lfld s (R.HEAD_WM h) 3 0
def wmHigh (s : State) (h : Nat) : Nat := lfld s (R.HEAD_WM h) 7 4

/-- The head shows a lead, and URGENT follows the watermarks (R306). DEDUCED: log entry 43. -/
def showLead (h lead : Nat) (s : State) : State :=
  let s := setFld s (R.HEAD_LEAD h) 3 0 lead
  let urgent := flag s (R.HEAD_STATUS h) 5
  let x := headAt s h
  if !urgent && decide (lead < wmLow s h) then
    setFlag (setHead h { x with urgentAt := s.elapsed } s) (R.HEAD_STATUS h) 5 true
  else if urgent && decide (wmHigh s h ≤ lead) then
    let t := x.urgentRest + (s.elapsed - x.urgentAt)
    let s := setHead h { x with urgentRest := t % (1000 * nsUnit) } s
    setFlag (addReg s (R.HEAD_URGENT_US h) (t / (1000 * nsUnit))) (R.HEAD_STATUS h) 5 false
  else s

/-- The lead of a head is measured anew (R306); in active scan it counts for MIN. DEDUCED: log entry 43. -/
def measureLead (h : Nat) (s : State) : State :=
  match (headAt s h).scan with
  | some sc =>
    let n := headLead (scene s h) h sc
    let s := showLead h n s
    if sc.active then updScan h (fun sc => { sc with minLead := min sc.minLead n }) s else s
  | none => showLead h 15 s

/-- Fetch the spans of a row through the fetch group's guard and, from Cellar, its DMC port (R356, R411); a read that
fails or meets an uncorrected link error loses the row (R275, R366). DEDUCED: log entry 40. -/
def fetchRow (h i row : Nat) (urgent : Bool) : List (Nat × Nat × Nat) → State → State
  | [], s => s
  | (sp, a, n) :: qs, s =>
    let (s, r) := dmaReadAs urgent (fetchGuard h) (fetchPort h) sp a n s
    let s := if r.bad.isNone then s else updScene h i (fun x => { x with lost := row :: x.lost }) s
    fetchRow h i row urgent qs s

/-- A direct write to a layer's address takes effect at this burst: rows fetched before keep the old address, and the
frame is TORN (R146). DEDUCED: log entry 50. -/
def burstAddr (h l row : Nat) (s : State) : State :=
  let i := 16 * h + l
  let q := scene s h
  let x := layerAt q i
  if x.addr = [] then s
  else
    let old := (row, lrd q (R.HEAD_L_ADDR h l), lrd q (R.HEAD_L_ADDR_HI h l))
    let s := x.addr.foldl (fun s q => sceneWrite h q.1 q.2 s) s
    let s := updScene h i (fun x => { x with addr := [], swaps := if x.fetched = none then [] else x.swaps ++ [old] }) s
    updScan h (fun sc => { sc with torn := true }) s

/-- Is a row that line y of a line-progressive layer needs still to reach its slot (R44). -/
def layerOvertaken (s : State) (h l : Nat) (g : Geo) (y : Nat) : Bool :=
  match (layerAt s (16 * h + l)).cur with
  | some f =>
    if f.kind = 0 then
      let x := slotAt s f.unit f.slot
      match picOf s h l f with
      | some p => x.decoding && (g.rows p ((y : Int) - g.dy).toNat).any (fun j => decide (x.linesIn ≤ p.top + g.picRow j))
      | none => false
    else false
  | none => false

/-- The layer is overtaken from an output line on (R44). -/
def layerOvertake (h l y : Nat) (s : State) : State :=
  let i := 16 * h + l
  if (layerAt (scene s h) i).overtaken.isSome then s
  else
    let s := addReg (updScene h i (fun x => { x with overtaken := some y }) s) (R.TCK_OVERTAKEN i) 1
    raise { code := 0x13, unit := i, a0 := y } s

/-- The next raster line a layer's fetch unit works for. -/
def nextFetch (s : State) (h l : Nat) : Nat :=
  match (layerAt s (16 * h + l)).fetched with
  | some f => f + 1
  | none => (geo s h l).dy.toNat

/-- The bursts that bring a layer the rows `new` of a picture. -/
def fetchRows (h l : Nat) (g : Geo) (urgent : Bool) (sc : Scan) (y : Nat) (p : PicSrc) (new : List Nat) (s : State) : State :=
  let s := match new with
    | j :: _ => burstAddr h l (g.picRow j) s
    | [] => s
  let p := ((layerDraw (scene s h) h l sc y).pic).getD p
  new.foldl (fun s j => fetchRow h (16 * h + l) (g.picRow j) urgent (rowSpans g p j) s) s

/-- The bursts that bring a layer what the next line needs. DEDUCED: log entry 43. -/
def fetchLine (h l : Nat) (sc : Scan) (s : State) : State :=
  let q := scene s h
  let g := geo q h l
  let y := nextFetch q h l
  if !g.onLine y ∨ vActive q h ≤ y then s
  else
    let s := if decide (layerClass q h l ≠ 0 ∧ layerClass q h l ≠ 6) && layerOvertaken q h l g y then layerOvertake h l y s else s
    let s := match (layerDraw (scene s h) h l sc y).pic with
      | none => s
      | some p =>
        let ry := ((y : Int) - g.dy).toNat
        let had := if (layerAt q (16 * h + l)).fetched.isSome then g.rows p (ry - 1) else []
        fetchRows h l g (!sc.active || flag s (R.HEAD_STATUS h) 5) sc y p ((g.rows p ry).eraseDups.filter (fun j => !had.contains j)) s
    updScene h (16 * h + l) (fun x => { x with fetched := some y }) s

/-- FETCH_BURST: the bursts of a layer's fetch unit for its next output line, while the head prefetches or scans; `hm`
are the bytes host software has stored in its own memory before them. DEDUCED: log entry 43. -/
def execFetchBurst (h : Fin 24) (l : Fin 16) (o : BurstObs) (s : State) : Host.Outcome State Fault Refusal :=
  live s (fun s =>
    let s := hostStore o.hm s
    let q := scene s h.val
    match (headAt s h.val).scan with
    | some sc =>
      if (sc.prefetch || sc.active) && layerEnabled q h.val l.val && !layerCovered q h.val l.val then
        measureLead h.val (linked o.ecc (fetchLine h.val l.val sc) s)
      else s
    | none => s)

/-! ## Writeback (R293 to R296) -/

/-- Guard and DMC port of a head's writeback (R356, R411). -/
def wbGuard (h : Nat) : Nat := 22 + h / 12
def wbPort (h : Nat) : Nat := 6 + h / 12
def wbWrite (h a : Nat) (bs : List Byte) (s : State) : State := (dmaWrite (wbGuard h) (wbPort h) spCellar a bs s).1

/-- State code of a writeback buffer (R294). DEDUCED: log entry 46. -/
def WbBuf.state (x : WbBuf) : Nat :=
  if x.writing then 1 else if x.readers ≠ 0 then 2 else if x.held ≠ 0 then 4 else if x.kept then 3 else 0

/-- Word 6 of a writeback header (R293). -/
def wbColour (s : State) (h : Nat) : Nat :=
  let ctl := lrd s (R.HEAD_CMP_CTRL h)
  let rgb := decide (outFmt s h = 0)
  2 ^ 25 + ofBool (rgb || !bit ctl 4) * 2 ^ 24
    + (if bit ctl 3 then 9 * 2 ^ 16 + 14 * 2 ^ 8 + 9 else 2 ^ 16 + 2 ^ 8 + 1) - (if rgb then (if bit ctl 3 then 9 else 1) else 0)

/-- A writeback frame fails: counted, and raised once a head and tick (R295). DEDUCED: log entry 46. -/
def wbFail (h n : Nat) (s : State) : State :=
  let s := addReg (updScan h (fun sc => { sc with wbFailed := true }) s) (R.HEAD_WB_FAILS h) 1
  encWbFailed h n (raiseOnce h { code := 0x85, unit := h } s)

/-- At the start of active scan the head takes the lowest FREE buffer and writes its header (R293, R294).
DEDUCED: log entry 46. -/
def wbBegin (h n : Nat) (s : State) : State :=
  let x := headAt s h
  if !x.wbOn then s
  else match (List.range x.wbBufs).find? (fun k => decide ((wbAt s h k).state = 0)) with
    | none => wbFail h n s
    | some k =>
      let w := hActive s h
      let v := vActive s h
      let c := wbColour s h
      let s := setWb h k { writing := true, fmt := 0x30 + outFmt s h, width := w, height := v, colour := c } s
      let s := updScan h (fun sc => { sc with wb := some k }) s
      let words := [0x30 + outFmt s h, v * 2 ^ 16 + w, 0, v * 2 ^ 16 + w, wbPitch w, 0, c, n] ++ List.replicate 56 0
      wbWrite h (wbAddr s h k) (wordBytes words) s

/-- A line goes to the writeback branch, and the DMC has acknowledged `acked` lines (R293, R295, R328).
DEDUCED: log entry 46. -/
def wbLine (h : Nat) (sc : Scan) (ws : List Nat) (overflow : Bool) (acked : Nat) (s : State) : State :=
  match sc.wb with
  | none => s
  | some k =>
    if sc.wbFailed then s
    else if overflow then wbFail h sc.n s
    else
      let s := wbWrite h (wbAddr s h k + 0x1000 + sc.line * wbPitch (wbAt s h k).width) (wordBytes ws) s
      let b := wbAt s h k
      let n := max b.acked (min acked (sc.line + 1))
      encLine h sc.n n (setWb h k { b with lines := sc.line + 1, acked := n } s)

/-- The layers that show content in a frame (R72). -/
def showingLayers (s : State) (h : Nat) : List Nat :=
  (List.range 16).filter (fun l =>
    layerEnabled s h l && !layerCovered s h l && decide (1 ≤ layerClass s h l ∧ layerClass s h l ≤ 5))

/-- BAR4 offset of the record of a sealed frame; host buffers have none (R64, R275, R293). -/
def sealedRec (f : Sealed) : Option Nat :=
  if f.kind = 0 then some (recAddr f.unit f.slot) else if f.kind = 2 then some (wbRecAddr f.unit f.slot) else none

/-- Is a layer decimated (R81). -/
def layerDecimated (s : State) (h l : Nat) : Bool := layerEnabled s h l && (geo s h l).decimated

/-- Capture time and taints of a writeback frame (R72). DEDUCED: log entry 36. -/
def wbProvenance (s : State) (h : Nat) (t : Nat) : Int × Nat :=
  let ls := showingLayers s h
  let fs := ls.filterMap (fun l => (layerAt s (16 * h + l)).cur)
  let cap := match fs with
    | [] => (t : Int)
    | f :: fs => fs.foldl (fun m g => min m g.cap) f.cap
  let taints := fs.foldl (fun m f => m ||| (match sealedRec f with
    | some a => recTaints s a
    | none => 0)) 0
  (cap, taints ||| ofBool (ls.any (layerDecimated s h)) * 8)

/-- The branch ends with the frame: a failed frame's buffer is FREE; else its record is written, and the frame waits for
the acknowledgement of its last write (R72, R294, R295). ARRIVAL and DECODE of the record are values the manual does not
state. DEDUCED: log entry 46. -/
def wbEnd (h : Nat) (sc : Scan) (s : State) : State :=
  match sc.wb with
  | none => s
  | some k =>
    if sc.wbFailed then setWb h k { wbAt s h k with writing := false } s
    else
      let (cap, taints) := wbProvenance s h sc.t
      let free := [(Config.freeWord s.draws).toNat, (Config.freeWord (s.draws + 1)).toNat]
      let words := recIdWords 0x7F (0x3FFFF - h) (sc.n % 2 ^ 32) cap ++ free ++ [3 * 2 ^ 13 + taints, 0, k * 2 ^ 8 + 1, 0]
      let s := gWords (wbRecAddr h k) words { s with draws := s.draws + 2 }
      setHead h { headAt s h with wbPending := (headAt s h).wbPending ++ [(k, { n := sc.n, cap := cap, done := 0 })] } s

/-- Does the head keep a writeback frame that completes: not once writeback is off (R296), nor after the first seal of a
disable (R310). -/
def wbKeeps (x : Head) : Bool := x.wbOn && !(x.disabling && x.sealedOff)

/-- The frame in buffer k is complete and takes the place of the retained one, or its buffer is FREE; sessions that follow
it go on with its lines, or, when it was cut, without the rest (R294, R296, R310, R328). DEDUCED: log entries 46, 74. -/
def wbComplete (h k : Nat) (f : WbFrame) (s : State) : State :=
  let x := headAt s h
  let keep := wbKeeps x
  let wbs := if keep then x.wbs.foldl (fun m q => smSet (fun _ => {}) m q.1 { q.2 with kept := false }) x.wbs else x.wbs
  let b := wbAt s h k
  let b' := { b with writing := false, acked := b.lines, kept := keep, frame := if keep then some { f with done := s.clock } else none }
  let s := setHead h { x with wbs := smSet (fun _ => {}) wbs k b' } s
  let s := encLine h f.n b.lines s
  if b.lines < b.height then encWbFailed h f.n s else s

/-- WRITEBACK_COMPLETE: the last write of the oldest frame that waits is acknowledged (R294). DEDUCED: log entry 46. -/
def execWritebackComplete (h : Fin 24) (s : State) : Host.Outcome State Fault Refusal :=
  live s (fun s =>
    match (headAt s h.val).wbPending with
    | [] => s
    | (k, f) :: rest => wbComplete h.val k f (setHead h.val { headAt s h.val with wbPending := rest } s))

/-! ## Starting a frame (R45, R302) -/

/-- The instant of a head frame's active scan on the local clock (R302). -/
def scanInstant (s : State) (h : Nat) (sc : Scan) : Nat := sc.t + headPhase s h * nsUnit

/-- PREFETCH_START: 40 µs before active scan (R45). -/
def execPrefetchStart (h : Fin 24) (s : State) : Host.Outcome State Fault Refusal :=
  live s (fun s =>
    match (headAt s h.val).scan with
    | some sc =>
      if sc.prefetch || sc.active || decide (unitState s 1 h.val ≠ 2) then s
      else
        let s := waitClock (scanInstant s h.val sc - 40000 * nsUnit) s
        measureLead h.val (updScan h.val (fun sc => { sc with prefetch := true, fetchAt := s.elapsed }) s)
    | none => s)

/-- ADJ: the pixel periods of the blank just ended, less the nominal ones and what HEAD_PHASE has moved without a re-time
(R302, R317). A locked pixel clock is off by at most 1 ppm of a frame. The manual states no value where no frame ended
before. DEDUCED: log entry 41. -/
def adjOf (err : Int) (s : State) (h : Nat) : Int :=
  let x := headAt s h
  let few : Int := ((hTotal s h * vTotal s h / 10 ^ 6 + 1 : Nat) : Int)
  let off := if headLocked s (leader s h) then clampInt (-few) few err else err
  let moved : Int := ((pixelsIn s h (x.phaseMove.toNat * nsUnit) : Nat) : Int)
    - ((pixelsIn s h ((-x.phaseMove).toNat * nsUnit) : Nat) : Int)
  match x.endAt with
  | some e => ((pixelsIn s h (s.elapsed - e) : Nat) : Int) - moved - (((vTotal s h - vActive s h) * hTotal s h : Nat) : Int) + off
  | none => (Config.freeWord s.draws).toInt

/-- Active scan of a head begins (R294, R302, R316). -/
def scanBegin (err : Int) (h : Nat) (s : State) : State :=
  match (headAt s h).scan with
  | some sc =>
    if sc.active ∨ unitState s 1 h ≠ 2 then s
    else
      let x := headAt s h
      let torn := x.directPll || x.directNext
      let adj := adjOf err s h
      let sc := { sc with active := true, baseAt := s.elapsed, fetchAt := if sc.prefetch then sc.fetchAt else s.elapsed,
                          timingTorn := sc.timingTorn || torn, uncertainFrom := if torn then some 0 else sc.uncertainFrom }
      let s := setHead h { x with scan := some sc, directNext := false, phaseMove := 0 } { s with draws := s.draws + 1 }
      let s := wr (wr s (R.HEAD_ADJ h) (uint 32 adj)) (R.HEAD_POS h) (2 ^ 31)
      let s := wbBegin h sc.n s
      let (cap, taints) := wbProvenance s h sc.t
      let scan := (headAt s h).scan
      measureLead h (encScanBegin h sc.n (scan.bind Scan.wb) (scan.any Scan.wbFailed) cap taints s)
  | none => s

/-- ACTIVE_SCAN_START: T_N + HEAD_PHASE. `err` is what the pixel clock is off its nominal count, in pixel periods (R302). -/
def execActiveScanStart (h : Fin 24) (err : Int) (s : State) : Host.Outcome State Fault Refusal :=
  live s (fun s =>
    match (headAt s (leader s h.val)).scan with
    | some sc =>
      if sc.active ∨ unitState s 1 h.val ≠ 2 then s
      else eachHead (headGroup s h.val) (scanBegin err) (waitClock (scanInstant s h.val sc) s)
    | none => s)

/-! ## Lines (R303, R307, R308) -/

/-- The instant 16 µs before the next tick, at which a head's active scan is cut (R303); none while the tick is stopped, and
for a frame over which the clock has stepped (R311). -/
def cutInstant (s : State) (h : Nat) : Option Nat :=
  if (headAt s h).stepPending then none else s.tck.next.map (fun n => tickInstant s n - 16000 * nsUnit)

/-- The elapsed time at which a line of the frame in scan begins, counted in the present raster from the line at which it
began (R303, R316). -/
def lineAt (s : State) (h : Nat) (sc : Scan) (y : Nat) : Nat :=
  sc.baseAt + pixelTime (scene s h) h ((y - sc.baseLine) * hTotal (scene s h) h)

/-- The elapsed time at which active scan ends, after the last active line (R303). -/
def activeEnd (s : State) (h : Nat) (sc : Scan) : Nat := lineAt s h sc (vActive (scene s h) h)

/-- Does the cut come before the end of active scan. -/
def cutsScan (s : State) (h : Nat) (sc : Scan) : Bool :=
  (cutInstant s h).any (fun t => decide ((waitClock t s).elapsed < activeEnd s h sc))

/-- The present raster ends with the line before the next one; the next begins in the raster that is latched now (R316). -/
def rasterAnchor (h : Nat) (s : State) : State :=
  match (headAt s h).scan with
  | some sc => if sc.active then updScan h (fun q => { q with baseLine := sc.line, baseAt := lineAt s h sc sc.line }) s else s
  | none => s

/-- The pixels of a line that are scanned before the cut. -/
def lineUpto (s : State) (h : Nat) : Nat :=
  match cutInstant s h with
  | some t => min (hActive (scene s h) h) (pixelsIn (scene s h) h (t - s.clock))
  | none => hActive (scene s h) h

/-- An underrun (R307). DEDUCED: log entry 44. -/
def underrun (h line pixel : Nat) (s : State) : State :=
  let first := !((headAt s h).scan.any Scan.underran)
  let s := addReg (updScan h (fun sc => { sc with torn := true, underran := true }) s) (R.HEAD_UNDERRUN_LINES h) 1
  let s := if first then wr s (R.HEAD_LAST_UNDERRUN h) (line * 2 ^ 16 + pixel) else s
  raiseOnce h { code := 0x81, unit := h, a0 := line, a1 := pixel } s

/-- The pixel pair of a line from which a head underruns: a contributing layer lacks an input line, or a word of the line
stores is uncorrectable (R307, R367). -/
def underrunFrom (s : State) (h : Nat) (sc : Scan) (y : Nat) (store : Option (Nat × Nat)) : Option Nat :=
  let w := hActive s h
  let lack := lackFrom s h sc (blendOrder s h) w y
  let word := (store.filter (fun q => decide (granaryRegion q.1 = 0 ∧ q.2 < w))).map (fun q => q.2)
  (match lack, word with
    | some a, some b => some (min a b)
    | a, b => a.or b).map (fun x => x / 2 * 2)

/-- A word of a head's line stores proves uncorrectable: it counts, and the next line's data replaces it (R367). -/
def lineStoreMet (store : Option (Nat × Nat)) (s : State) : State :=
  match store with
  | some (a, _) => if granaryRegion a = 0 then granaryHeal a 1 (granaryUncorrectable a s) else s
  | none => s

/-- A head composes and outputs its next line: to Lintel, its lanes and writeback. -/
def scanLine (h : Nat) (sc : Scan) (o : ScanObs) (s : State) : State :=
  let y := sc.line
  let s := setFld s (R.HEAD_POS h) 12 0 y
  let s := if flag s (R.HEAD_EVT_EN h) 1 && decide (fld s (R.HEAD_LINE_MATCH h) 12 0 = y) then
      raise { code := 0x83, unit := h, a0 := y } s
    else s
  let s := lineStoreMet o.store s
  let q := scene s h
  let under := underrunFrom q h sc y o.store
  let ws := composeLine q o.mix h sc y (lineUpto s h) under
  let crcs := layerCrcLine q h y ws sc.layerCrcs
  let s := match under with
    | some x => underrun h y x s
    | none => s
  let s := wbLine h sc ws o.wbOverflow o.acked s
  let s := (lanesOf s h).foldl (fun s n =>
    pushLine n h sc.n y (videoBodies h sc.n y (outFmt q h) (lineCrc ws) 64 0 ws) s) s
  let s := updScan h (fun sc => { sc with line := y + 1, lastPix := lineAt s h sc y + pixelTime q h (hActive q h),
                                          crc := crcRun crc32cPoly sc.crc (wordBytes ws), layerCrcs := crcs }) s
  measureLead h s

/-- SCAN_LINE: the next active line of the frame in scan, at the instant it begins. -/
def execScanLine (h : Fin 24) (o : ScanObs) (s : State) : Host.Outcome State Fault Refusal :=
  live s (fun s =>
    match (headAt s h.val).scan with
    | some sc =>
      let s' := waitElapsed (lineAt s h.val sc sc.line) s
      if !sc.active || sc.cut || sc.ended || decide (vActive (scene s h.val) h.val ≤ sc.line)
        || (cutInstant s' h.val).any (fun t => decide (t ≤ s'.clock)) then s
      else scanLine h.val sc o s'
    | none => s)

/-- A frame in scan is cut: active scan ends now (R303). -/
def cutScan (h : Nat) (s : State) : State := updScan h (fun sc => { sc with cut := true, timingTorn := true, lastPix := s.elapsed }) s

/-- ACTIVE_SCAN_CUT: active scan that has not ended 16 µs before the next tick ends there (R303). DEDUCED: log entry 44. -/
def execActiveScanCut (h : Fin 24) (s : State) : Host.Outcome State Fault Refusal :=
  live s (fun s =>
    match (headAt s h.val).scan, cutInstant s h.val with
    | some sc, some t =>
      if !sc.active || sc.ended || sc.cut || !cutsScan s h.val sc then s
      else eachHead (headGroup s h.val) cutScan (waitClock t s)
    | _, _ => s)

/-! ## The witness and the end of a frame (R94 to R99, R197, R308) -/

/-- Is the frame QLIVE: a layer is drawn LIVE and not fully covered (R96). DEDUCED: log entry 44. -/
def frameQlive (s : State) (h : Nat) (sc : Scan) : Bool :=
  sc.uncertainFrom.isNone && (List.range 16).any (fun l => decide (layerClass s h l = 1) && !layerCovered s h l)

/-- HEAD_STUCK is declared: causes 0 SAME_CRC, 1 NO_FRAME (R98 step 1). DEDUCED: log entry 45. -/
def headStuck (cause h : Nat) (s : State) : State :=
  let s := setHead h { headAt s h with restart := 1 } s
  let s := setFlag (setFlag s (R.WIN_LT_STATUS h) 1 true) (R.WIN_LT_STATUS h) 2 true
  let s := if cause = 1 then setFlag s (R.WIN_LT_STATUS h) 3 true else s
  raise { code := 0x26, unit := h, sub := cause } (headokUpdate h s)

/-- The class code a TRAILER reports for a layer, with its enabled bit (R197, R316): of a layer overtaken in the frame, which
is drawn under STALE there, a fresher class reads STALE, so that the frame is flagged (R44, R57, R63).
DEDUCED: log entry 44. -/
def trailerNibble (s : State) (h : Nat) (sc : Scan) (l : Nat) : Nat :=
  let en := layerEnabled s h l
  let c := layerClass s h l
  let stale := (layerAt s (16 * h + l)).overtaken.isSome && (decide (1 ≤ c) && decide (c ≤ 3))
  ofBool en * 8 + (if en && sc.uncertainFrom.isSome then 6 else if stale then 4 else c)

/-- Eight TRAILER nibbles as a word. -/
def nibbleWord (ns : List Nat) : Nat := (ns.zip (List.range 8)).foldl (fun w p => w + p.1 * 16 ^ p.2) 0

/-- The words of a TRAILER; the lane fills in DAMAGED and the count of blocks (R197). `q` is what the frame is composed
from. -/
def trailerOf (s q : State) (h : Nat) (sc : Scan) (crc : Nat) (layers : List Nat) : List Nat :=
  let ns := (List.range 16).map (trailerNibble q h sc)
  let second := paired q h && decide (h % 2 = 1)
  [h * 2 ^ 27 + sc.n % 2 ^ 27, sc.n % 2 ^ 32, sc.n / 2 ^ 32 % 2 ^ 32,
   rd s R.TCK_REBASE % 65536 * 2 ^ 16 + ofBool (flag s (R.WIN_LT_STATUS h) 0) * 2 ^ 7 + ofBool sc.torn * 2 ^ 6
     + ofBool sc.timingTorn * 2 ^ 5 + ofBool (paired q h) * 2 ^ 4 + ofBool second * 2 ^ 3 + outFmt q h, crc]
    ++ layers ++ [nibbleWord (ns.take 8), nibbleWord (ns.drop 8), tickNum s, tickDen s, vActive q h * 2 ^ 16 + hActive q h, 0]

/-- Lintel's history takes a frame (R102). -/
def lintelShift (h n crc flags : Nat) (s : State) : State :=
  let s := (List.range 15).foldl (fun s i =>
    let k := 14 - i
    wr (wr s (R.WIN_LT_HIST_CRC h (k + 1)) (rd s (R.WIN_LT_HIST_CRC h k))) (R.WIN_LT_HIST_INFO h (k + 1))
      (rd s (R.WIN_LT_HIST_INFO h k))) s
  let s := wr (wr s (R.WIN_LT_HIST_CRC h 0) crc) (R.WIN_LT_HIST_INFO h 0) (n % 2 ^ 24 * 256 + flags)
  wr s (R.WIN_LT_LAST_N h) (n % 2 ^ 32)

/-- The whole-frame CRC and the layer CRCs of a frame (R94). -/
def frameCrc (sc : Scan) : Nat := sc.crc ^^^ 0xFFFFFFFF
def frameLayerCrcs (s : State) (h : Nat) (sc : Scan) : List Nat :=
  (List.range 16).map (fun l => if layerEnabled s h l then sc.layerCrcs.getD l 0xFFFFFFFF ^^^ 0xFFFFFFFF else 0)

/-- A completed frame counts in the identical run (R96). DEDUCED: log entry 47. -/
def witnessFrame (h : Nat) (sc : Scan) (s : State) : State :=
  let x := headAt s h
  let q := frameQlive (scene s h) h sc
  let run := if !q then 0 else if x.lastCrc = some (frameCrc sc) then x.run + 1 else 1
  setHead h { x with frames := x.frames + 1, run := run, lastCrc := if q then some (frameCrc sc) else none,
                     frameAt := s.elapsed } s

/-- The elapsed time at which the active scan of a frame that completes ends: after the last active line's blank, or where
it was cut (R303). -/
def scanEnd (s : State) (h : Nat) (sc : Scan) : Nat :=
  if sc.cut then sc.lastPix
  else match cutInstant s h with
    | some t => min (lineAt s h sc sc.line) (waitClock t s).elapsed
    | none => lineAt s h sc sc.line

/-- A frame whose last active pixel is scanned, but which the cut meets before the end of its last line: it is cut, and the
TRAILER that is due now says so (R303). DEDUCED: log entry 44. -/
def Scan.cutLate (sc : Scan) (s : State) (h : Nat) : Scan :=
  if !sc.ended && !sc.cut && cutsScan s h sc then { sc with cut := true, timingTorn := true } else sc

/-- Lintel's and the head's registers, the TRAILER, the events and writeback at a frame's last active pixel.
DEDUCED: log entry 44. -/
def frameEnd (h : Nat) (s : State) : State :=
  match (headAt s h).scan with
  | none => s
  | some sc =>
    let endAt := scanEnd s h sc
    let sc := sc.cutLate s h
    let q := scene s h
    let crc := frameCrc sc
    let layers := frameLayerCrcs q h sc
    let s := headokUpdate h s
    let ok := flag s (R.WIN_LT_STATUS h) 0
    let flags := ofBool sc.timingTorn * 8 + ofBool sc.torn * 4 + ofBool (!ok) * 2 + ofBool (frameQlive q h sc)
    let s := lintelShift h sc.n crc flags s
    let s := setFld s (R.WIN_LT_STATUS h) 19 16 (min 15 (headAt s h).run)
    let s := (List.range 16).foldl (fun s l => wr s (R.WIN_LT_LAYER_CRC h l) (layers.getD l 0)) s
    let s := wideSet (R.HEAD_LAST_N_LO h) sc.n s
    let s := wr s (R.HEAD_LAST_FLAGS h) (ofBool sc.cut * 4 + ofBool sc.timingTorn * 2 + ofBool sc.torn)
    let s := addReg s (R.HEAD_FRAMES h) 1
    let s := if sc.torn then addReg s (R.HEAD_TORN_FRAMES h) 1 else s
    let s := if sc.underran then addReg s (R.HEAD_UNDERRUN_FRAMES h) 1 else s
    let s := setFld s (R.HEAD_LEAD h) 19 16 sc.minLead
    let s := if sc.timingTorn then raise { code := 0x87, unit := h } (addReg s (R.HEAD_TIMING_TORN_FRAMES h) 1) else s
    let s := (lanesOf s h).foldl (fun s n => pushTrailer n h sc.n (trailerOf s q h sc crc layers) s) s
    let s := wbEnd h sc s
    let s := if flag s (R.HEAD_EVT_EN h) 2 then raise { code := 0x84, unit := h, a0 := crc } s else s
    let s := if flag s (R.HEAD_EVT_EN h) 0 then raise { code := 0x82, unit := h } s else s
    let s := measureLead h (setHead h { headAt s h with scan := none, endAt := if unitState s 1 h = 2 then some endAt else none } s)
    if (headAt s h).stepPending && mayRetime s h then retimeHead h s else s

/-- Has a head's frame in scan come to its end: every line output, cut, or ended by its PLL. -/
def frameOver (s : State) (h : Nat) (sc : Scan) : Bool :=
  sc.active && (sc.cut || sc.ended || decide (vActive (scene s h) h ≤ sc.line))

/-- FRAME_COMPLETE: the last active pixel of a head frame; Lintel tests RUNNING heads for HEAD_STUCK (R97) before HEADOK,
the TRAILER and the events follow (R95, R308). DEDUCED: log entry 47. -/
def execFrameComplete (h : Fin 24) (s : State) : Host.Outcome State Fault Refusal :=
  live s (fun s =>
    match (headAt s h.val).scan with
    | some sc =>
      let hs := headGroup s h.val
      if !frameOver s h.val sc || !hs.all (fun k => (headAt s k).scan.all (frameOver s k)) then s
      else
        let s := waitElapsed sc.lastPix s
        let s := eachHead hs (fun k s => match (headAt s k).scan with
          | some q => witnessFrame k q s
          | none => s) s
        let stuck := hs.any (fun k => decide (unitState s 1 k = 2 ∧ (headAt s k).restart = 0 ∧ witnessN s ≤ (headAt s k).run))
        let s := if stuck then eachHead hs (headStuck 0) s else s
        eachHead hs frameEnd s
    | none => s)

/-- HEAD_STUCK_NO_FRAME: a RUNNING head has completed no frame for two tick periods (R97). DEDUCED: log entry 47. -/
def execHeadStuckNoFrame (h : Fin 24) (s : State) : Host.Outcome State Fault Refusal :=
  live s (fun s =>
    let x := headAt s h.val
    if unitState s 1 h.val ≠ 2 ∨ x.restart ≠ 0 then s
    else
      let s := waitElapsed (x.frameAt + 2 * tickNum s * nsUnit / tickDen s) s
      eachHead (headGroup s h.val) (headStuck 1) s)

/-- HEAD_LAST_N_READ and HEAD_FIRST_N_READ: a read of _LO latches _HI. -/
def execHeadLastNRead (h : Fin 24) (s : State) : Host.Outcome State Fault Refusal :=
  live s (wideLatch (R.HEAD_LAST_N_LO h.val) (R.HEAD_LAST_N_HI h.val))
def execHeadFirstNRead (h : Fin 24) (s : State) : Host.Outcome State Fault Refusal :=
  live s (wideLatch (R.HEAD_FIRST_N_LO h.val) (R.HEAD_FIRST_N_HI h.val))

/-! ## The seal's part (R98, R309 to R312, R317) -/

/-- The timing values a head follows, by a reader of registers: H, V, PAIR and HEAD_PHASE. -/
def timingOf (s : State) (r : Nat → Nat) (h : Nat) : List Nat :=
  let e := h / 2 * 2
  let p := bit (r (R.HEAD_MODE e)) 0 && unitPresent s.part .head (e + 1)
  let k := if p then e else h
  [ofBool p, r (R.HEAD_H k), r (R.HEAD_V k), r (R.TCK_HEADPHASE k)]

/-- The heads whose H, V, PAIR or HEAD_PHASE a sheaf has changed at step 2, between two states (R47, R311). -/
def sheafTimed (before after_ : State) : List Nat :=
  (List.range 24).filter (fun h => decide (timingOf before (rd before) h ≠ timingOf after_ (rd after_) h))

/-- Does a head re-time at step 3: a sheaf of this seal has changed its timing, or, while STARTING, a change of the raster is
latched now (R311, R317). `latched` reads the values of the seal before. DEDUCED: log entry 41. -/
def retimesAt (s : State) (latched : Nat → Nat) (timed : List Nat) (h : Nat) : Bool :=
  mayRetime s h && (timed.contains h
    || (decide (unitState s 1 h = 1) && decide ((timingOf s latched h).take 3 ≠ (timingOf s (lrd s) h).take 3)))

/-- A head enters RUNNING at a seal and scans its frame (R309, R312). -/
def headRuns (h n : Nat) (s : State) : State :=
  let was := retiming s h
  let s := finishWaiters 1 h auxEnabling stSuccess (setHeadState h 2 s)
  let s := wideSet (R.HEAD_FIRST_N_LO h) n s
  if was then
    deferDone h n (raise { code := 0x86, unit := h, sub := 1, a0 := n } (setFlag s (R.HEAD_STATUS h) 4 false))
  else s

/-- The witness restart and the start of RUNNING at the seal of N (R98, R309, R312). -/
def headSealState (n : Nat) (h : Nat) (s : State) : State :=
  let x := headAt s h
  let st := unitState s 1 h
  if st = 2 ∧ x.restart = 1 then
    let s := addReg (setHeadState h 3 (setHead h { x with restart := 2 } s)) (R.WIN_LT_RESTARTS h) 1
    dropUnbegun h s
  else if st = 3 ∧ x.restart = 2 then setHeadState h 2 s
  else if st = 1 ∧ headLocked s h ∧ x.nf.any (fun f => decide (f ≤ n)) then headRuns h n s
  else s

/-- A RUNNING head has a frame to scan after the seal of N (R302), unless the clock has stepped over one still in scan
(R311). -/
def headSealScan (n t : Nat) (h : Nat) (s : State) : State :=
  let x := headAt s h
  if unitState s 1 h = 2 ∧ !x.scan.any Scan.active then setHead h { x with scan := some { n := n, t := t } } s else s

/-! ## Direct timing writes (R316) -/

/-- A direct write to H, V or PAIR that a head in RUNNING, or one that completes its last frame, meets: from the next line on
in the new timing. DEDUCED: log entry 50. -/
def directTiming (h : Nat) (s : State) : State :=
  let x := headAt s h
  let s := setFlag s (R.HEAD_STATUS h) 3 false
  let mark (sc : Scan) : Scan :=
    if sc.active then { sc with timingTorn := true,
                                uncertainFrom := some (match sc.uncertainFrom with
                                  | some f => min f sc.line
                                  | none => sc.line) }
    else sc
  setHead h { x with scan := x.scan.map mark, directPll := true, directNext := x.directNext || !x.scan.any Scan.active,
                     pllAt := s.elapsed, lockedAt := none, nf := none } s

end Sys2Proof.Machine
end

