-- ==== Sys2Proof/Machine/Encode.lean ====
section
/-!
DEFINITION. Machine/Encode.lean: encode sessions (chapter 12): checks and admission of ENC_START (R320 to R324), input
seals (R325, R326), scheduling (R329, R331), floors, budgets and modes of rows (R335 to R337), content time (R339),
refresh (R340 to R342) and the rings of a session's output (R343 to R347). What the encoder's own model makes of a row is a
free function of what R338 lists.
-/

namespace Sys2Proof.Machine

/-! ## Floors (R335) -/

/-- Does a row begin, or end, a slice. -/
def sliceBegins (w : Nat → Nat) (r : Nat) : Bool :=
  let k := bits (w 9) 23 16
  if k = 0 then decide (r = 0) else decide (r % k = 0)
def sliceEnds (w : Nat → Nat) (r : Nat) : Bool := decide (r + 1 = encRows w) || sliceBegins w (r + 1)

/-- Slices of a picture. -/
def encSlices (w : Nat → Nat) : Nat := ((List.range (encRows w)).filter (sliceBegins w)).length

/-- Rows of 16 × 16 blocks in a row of CTUs. -/
def blockRows (w : Nat → Nat) (r : Nat) : Nat := ceilDiv (min (encCtu w) (encH w - encCtu w * r)) 16

/-- The width of column set j in blocks (R341). -/
def setBlocks (w : Nat → Nat) (j : Nat) : Nat :=
  ceilDiv (min (encW w) (setColumn w (j + 1) * encCtu w) - min (encW w) (setColumn w j * encCtu w)) 16

/-- The floor of row r; `due` is the column set that is due (R335). -/
def rowFloor (w : Nat → Nat) (idr : Bool) (due : Option Nat) (r : Nat) : Nat :=
  let f := if bits (w 5) 7 0 = 1 then 8 else 2
  let intra := if idr then ceilDiv (encW w) 16 * blockRows w r
    else match due with
      | some j => setBlocks w j * blockRows w r
      | none => 0
  1024 * ofBool (sliceBegins w r) + encCols w * f + intra * 24

/-- The floor of the rows of a picture from row r on. -/
def floorFrom (w : Nat → Nat) (idr : Bool) (due : Option Nat) (r : Nat) : Nat :=
  (((List.range (encRows w)).filter (fun k => decide (r ≤ k))).map (rowFloor w idr due)).foldl (· + ·) 0

/-- The largest floor of a picture that is not IDR. -/
def largestP (w : Nat → Nat) : Nat :=
  if encGradual w then (List.range (encPeriod w)).foldl (fun m j => max m (floorFrom w false (some j) 0)) 0
  else floorFrom w false none 0

/-! ## Levels (R322) -/

/-- H.265 levels up to 5.1: level_idc, largest picture in luma samples, CPB size and bit rate of the Main tier in 1,000
bits, luma samples per second (ITU-T H.265 Annex A). PRESUMED: log entry 72. -/
def levels265 : List (Nat × Nat × Nat × Nat × Nat) :=
  [(30, 36864, 350, 128, 552960), (60, 122880, 1500, 1500, 3686400), (63, 245760, 3000, 3000, 7372800),
   (90, 552960, 6000, 6000, 16588800), (93, 983040, 10000, 10000, 33177600), (120, 2228224, 12000, 12000, 66846720),
   (123, 2228224, 20000, 20000, 133693440), (150, 8912896, 25000, 25000, 267386880), (153, 8912896, 40000, 40000, 534773760)]

/-- H.264 levels up to 5.1: level_idc, largest picture in macroblocks, CPB size and bit rate with the High-profile factor
1.25 in 1,000 bits, macroblocks per second (ITU-T H.264 Annex A); level_idc 9 is level 1b. PRESUMED: log entry 72. -/
def levels264 : List (Nat × Nat × Nat × Nat × Nat) :=
  [(10, 99, 218, 80, 1485), (9, 99, 437, 160, 1485), (11, 396, 625, 240, 3000), (12, 396, 1250, 480, 6000),
   (13, 396, 2500, 960, 11880), (20, 396, 2500, 2500, 11880), (21, 792, 5000, 5000, 19800), (22, 1620, 5000, 5000, 20250),
   (30, 1620, 12500, 12500, 40500), (31, 3600, 17500, 17500, 108000), (32, 5120, 25000, 25000, 216000),
   (40, 8192, 31250, 25000, 245760), (41, 8192, 78125, 62500, 245760), (42, 8704, 78125, 62500, 522240),
   (50, 22080, 168750, 168750, 589824), (51, 36864, 300000, 300000, 983040)]

/-- Does a level allow a session (R322). The picture size includes the bound of Annex A on each side.
PRESUMED: log entry 72. -/
def levelAdmits (s : State) (w : Nat → Nat) (l : Nat × Nat × Nat × Nat × Nat) : Bool :=
  let (_, ps, cpb, br, sr) := l
  let h265 := decide (bits (w 5) 7 0 = 1)
  let a := if h265 then encW w else ceilDiv (encW w) 16
  let b := if h265 then encH w else ceilDiv (encH w) 16
  decide (a * b ≤ ps ∧ a * a ≤ 8 * ps ∧ b * b ≤ 8 * ps ∧ w 8 ≤ cpb ∧ w 7 ≤ br
    ∧ a * b * tickDen s * 10 ^ 9 ≤ sr * (tickNum s * encDiv w))

/-- The level_idc in use: LEVEL where it admits the session, with LEVEL 0 the lowest that does. PRESUMED: log entry 72. -/
def encLevel (s : State) (w : Nat → Nat) : Option Nat :=
  let ls := (if bits (w 5) 7 0 = 1 then levels265 else levels264).filter (levelAdmits s w)
  let want := bits (w 5) 23 16
  ((if want = 0 then ls else ls.filter (fun l => decide (l.1 = want))).head?).map (fun l => l.1)

/-! ## ENC_START and ENC_STOP (R320 to R324, R347) -/

/-- The bits an interval brings, in 1/(10⁶ · TICK_DEN) bit (R334). -/
def encGain (s : State) (w : Nat → Nat) : Nat := w 7 * encDiv w * tickNum s
def encUnit (s : State) : Nat := 10 ^ 6 * tickDen s

/-- The tests of R335. -/
def cpbOk (s : State) (w : Nat → Nat) : Bool :=
  let idr := floorFrom w true none 0
  let p := largestP w
  decide (max idr p ≤ w 8 * 1000 ∧ p * encUnit s ≤ encGain s w)
    && (encGradual w || decide (encPeriod w = 0) ||
        decide ((idr + (encPeriod w - 1) * p) * encUnit s ≤ encGain s w * encPeriod w))

/-- The reason for which ENC_START is rejected: the first case of R322 that applies. DEDUCED: log entry 73. -/
def encReason (s : State) (w : Nat → Nat) : Option Nat :=
  let k := encKind w
  let i := encIndex w
  let codec := bits (w 5) 7 0
  let profile := bits (w 5) 15 8
  let depth := bits (w 5) 27 24
  let slice := bit (w 6) 18
  let side (n : Nat) : Bool := decide (n % 2 = 0 ∧ 64 ≤ n ∧ n ≤ 4096)
  let qmin := bits (w 9) 7 0
  let qmax := bits (w 9) 15 8
  firstBad [(1, side (encW w) && side (encH w) && decide (encW w * encH w ≤ 8912896)),
    (2, decide ((codec = 0 ∧ profile = 100 ∧ depth = 8) ∨ (codec = 1 ∧ profile = 1 ∧ depth = 8)
      ∨ (codec = 1 ∧ profile = 2 ∧ (depth = 8 ∨ depth = 10)))),
    (3, decide ((k = 0 ∧ i < 96) ∨ (k = 2 ∧ i < 24)) && (!encFollows w || (decide (k = 2) && slice))),
    (4, !slice || Config.sliceEmit s.part),
    (5, decide (tickNum s % 1000 = 0 ∧ encPhase w < encDiv w ∧ timeScale s w < 2 ^ 32)),
    (6, decide (qmin ≤ qmax ∧ qmax ≤ 51)),
    (7, !encGradual w || decide (2 ≤ encPeriod w ∧ encPeriod w ≤ 1024)),
    (8, (encLevel s w).isSome), (9, cpbOk s w),
    (10, decide (2 * (125 * w 8 + 4096) ≤ 2 ^ bits (w 11) 4 0 ∧ w 12 % 4096 = 0))]

/-- Cost of a session (R323), and the cycles a picture of it may take (R330). -/
def encBlocks (w : Nat → Nat) : Nat := ceilDiv (encW w) 16 * ceilDiv (encH w) 16
def encMaxCycles (w : Nat → Nat) : Nat := encBlocks w * 350 + 30000
def encCost (w : Nat → Nat) : Nat := ceilDiv (encMaxCycles w) (encDiv w)

/-- The first input seal at or after a tick (R325). -/
def encNextInput (w : Nat → Nat) (from_ : Nat) : Nat :=
  from_ + (encPhase w + encDiv w - from_ % encDiv w) % encDiv w

/-- NEXT_N of a session follows the tick. -/
def encShowNext (n : Nat) (s : State) : State :=
  match s.tck.next with
  | some m => wideSet (R.VEN_NEXT_N_LO n) (encNextInput (encWord s n) m) s
  | none => s

/-- An admitted session enters STARTING (R324); its counters start at 0. -/
def encEnter (n : Nat) (c : Cmd) (level : Nat) (s : State) : State :=
  let w := c.w
  let pipe := bits (w 2) 16 16
  let s := poolAdmit 2 n [(2 + pipe, encCost w)] s
  let s := setFld s (R.VEN_STATE n) 2 2 pipe
  let s := wr (wr (wr (wr s (R.VEN_SRC n) (w 3)) (R.VEN_SIZE n) (w 4)) (R.VEN_CODEC n) (setBits (w 5) 23 16 level)) (R.VEN_MODE n) (w 6)
  let s := wr (wr (wr s (R.VEN_BIT_RATE n) (w 7)) (R.VEN_CPB_KBIT n) (w 8)) (R.VEN_QP n) (bits (w 9) 15 0)
  let s := wr (wr s (R.VEN_REFRESH n) (w 10)) (R.VEN_OUT_CFG n) (w 11)
  let s := wr (wr (wr s (R.VEN_OUT_BASE_LO n) (w 12)) (R.VEN_OUT_BASE_HI n) (w 13)) (R.VEN_WORK_BASE n) (w 14)
  let s := wr (wr (wr (wr s (R.VEN_REC_INDEX n) 0) (R.VEN_DATA_FREE n) (2 ^ bits (w 11) 4 0)) (R.VEN_CPB n) 0) (R.VEN_COST n) (encCost w)
  let s := (List.range 10).foldl (fun s i => wr s (R.VEN_PICTURES n + 4 * i) 0) s
  let s := encShowNext n (setEnc n { sliceRows := bits (w 9) 23 16 } s)
  setUnit 2 n 1 false s

/-- ENC_START of an OFF session (R51, R322 to R324). DEDUCED: log entry 73. -/
def encStart (c : Cmd) (s : State) : State :=
  let n := bits (c.w 2) 3 0
  match encReason s c.w with
  | some r => reject c r 0 s
  | none =>
    match admitFails s [(2 + bits (c.w 2) 16 16, encCost c.w)] with
    | some (p, short) => finish c.tag stBudget p short 0 s
    | none => waitCmd c.tag [auxEnabling] (encEnter n c ((encLevel s c.w).getD 0) s)

/-- ENC_START in flight executes. -/
def execEncStart (tag : Fin 4096) (s : State) : Host.Outcome State Fault Refusal :=
  live s (fun s => onCmd tag.val 0x28 s (fun c s => enableCmd 2 (bits (c.w 2) 3 0) c encStart s))

/-- A session enters DRAINING: it takes no further input, and completes the picture in coding (R347).
DEDUCED: log entry 73. -/
def encDrain (n : Nat) (s : State) : State :=
  let s := unitDrain 2 n s
  let x := encAt s n
  match x.next with
  | some i => encReleaseOpt i.held (setEnc n { x with next := none } s)
  | none => s

/-- ENC_STOP in flight executes. -/
def execEncStop (tag : Fin 4096) (s : State) : Host.Outcome State Fault Refusal :=
  live s (fun s => onCmd tag.val 0x29 s (fun c s => disableCmd 2 (bits (c.w 2) 3 0) c (encDrain (bits (c.w 2) 3 0)) s))

/-! ## Input seals (R325, R326) -/

/-- The frame a writeback session takes: the head's newest complete frame, unless word 7 of its header is that of the last
frame taken. -/
def encTakeWb (s : State) (x : EncSt) (h : Nat) : Option Sealed :=
  ((List.range 8).filterMap (fun k =>
    let b := wbAt s h k
    match b.frame with
    | some f =>
      if b.kept && !b.writing && !b.withdrawn && decide (x.lastWord ≠ some (f.n % 2 ^ 32)) then
        some ({ kind := 2, unit := h, slot := k, seq := f.n % 2 ^ 32, cap := f.cap } : Sealed)
      else none
    | none => none)).head?

/-- The frame a channel session takes: the complete output frame of the latest capture time, when that is later than the
last one's. -/
def encTakeChan (s : State) (x : EncSt) (c : Nat) : Option Sealed :=
  ((List.range 16).foldl (fun best k =>
    let y := slotAt s c k
    if y.state ≠ 0 && y.shown && !y.withdrawn && y.done.any (fun d => decide (d ≤ s.clock)) then
      match best with
      | none => some ({ kind := 0, unit := c, slot := k, seq := y.seq, cap := y.cap } : Sealed)
      | some b => if b.cap < y.cap then some { kind := 0, unit := c, slot := k, seq := y.seq, cap := y.cap } else best
    else best) none).filter (fun f => x.lastCap.all (fun t => decide (t < f.cap)))

/-- Output size of a frame. -/
def sealedSize (s : State) (f : Sealed) : Nat × Nat :=
  if f.kind = 0 then ((slotAt s f.unit f.slot).width, (slotAt s f.unit f.slot).height)
  else ((wbAt s f.unit f.slot).width, (wbAt s f.unit f.slot).height)

/-- Taints of a frame's record. -/
def sealedTaints (s : State) (f : Sealed) : Nat :=
  match sealedRec f with
  | some a => recTaints s a
  | none => 0

/-- A session without FOLLOW takes its input (R325, R326, R331). DEDUCED: log entry 74. -/
def encTake (n : Nat) (i : EncFollow) (s : State) : State :=
  let x := encAt s n
  let w := encWord s n
  if x.pic.isSome then addReg s (R.VEN_SKIPPED_LATE n) 1
  else
    match (if encKind w = 0 then encTakeChan s x (encIndex w) else encTakeWb s x (encIndex w)) with
    | none => encBegin n i false false s
    | some f =>
      let s := setEnc n { x with lastWord := some f.seq, lastCap := some f.cap } s
      if sealedSize s f = (encW w, encH w) then
        encBegin n { i with held := some f, cap := f.cap, taints := sealedTaints s f } false false (encHold f s)
      else encBegin n i false false (addReg s (R.VEN_INPUT_MISMATCH n) 1)

/-- A STARTING session enters RUNNING at its first input seal, and its ENC_START completes (R324). -/
def encRuns (n m : Nat) (s : State) : State :=
  if unitState s 2 n = 1 then
    let ws := unitWaiters s 2 n auxEnabling
    let s := ws.foldl (fun s c => finishNow c.tag stSuccess (rd s (R.VEN_COST n)) (fld s (R.VEN_CODEC n) 23 16) (m % 2 ^ 32) s) s
    setUnit 2 n 2 (enableQueued s 2 n) s
  else s

/-- An input seal of a session: the seal of m at T_m = t. -/
def encInput (n m t : Nat) (s : State) : State :=
  let w := encWord s n
  let s := encFollowStart n false (encRuns n m s)
  let follow := encFollows w
  let phase := if follow then headPhase s (encIndex w) * nsUnit else 0
  let i : EncFollow := { n := m, t := t, rebase := rd s R.TCK_REBASE % 65536,
                         deadline := tickInstant s (m + encDiv w) + phase }
  if follow then
    let s := setEnc n { encAt s n with next := some i } s
    if (headAt s (encIndex w)).scan.any (fun sc => decide (sc.n = m)) then s else encFollowStart n false s
  else encTake n i s

/-- The part of step 9 of the seal of m at T_m = t. -/
def sealEncode (m t : Nat) (s : State) : State :=
  (List.range 16).foldl (fun s n =>
    let w := encWord s n
    let st := unitState s 2 n
    let s := if (st = 1 ∨ st = 2) ∧ m % encDiv w = encPhase w then encInput n m t s else s
    if st = 0 then s else encShowNext n s) s

/-! ## Output (R343 to R346) -/

/-- Where a session's rings lie. -/
def encSpace (s : State) (n : Nat) : Nat := if flag s (R.VEN_OUT_CFG n) 24 then spCellar else spHost
def encBase (s : State) (n : Nat) : Nat := rd64 s (R.VEN_OUT_BASE_LO n) (R.VEN_OUT_BASE_HI n)
def encRing (s : State) (n : Nat) : Nat := 2 ^ fld s (R.VEN_OUT_CFG n) 4 0
def encRecs (s : State) (n : Nat) : Nat := 2 ^ fld s (R.VEN_OUT_CFG n) 20 16

/-- A session's posted write. -/
def encWrite (n a : Nat) (bs : List Byte) (s : State) : State :=
  if bs = [] then s else (dmaWrite (14 + encPipe s n) (13 + encPipe s n) (encSpace s n) a bs s).1

/-- Free records and free data bytes. DEDUCED: log entry 73. -/
def encFreeRecs (s : State) (n : Nat) : Nat :=
  encRecs s n - 1 - (fld s (R.VEN_REC_INDEX n) 15 0 + 65536 - fld s (R.VEN_REC_INDEX n) 31 16) % 65536
def encFreeData (s : State) (n : Nat) : Nat := encRing s n - ((encAt s n).made - (encAt s n).freed)

/-- DATA_FREE follows the ring. -/
def encShowFree (n : Nat) (s : State) : State := wr s (R.VEN_DATA_FREE n) (encFreeData s n)

/-- Bytes enter the data ring, wrapping at its end. -/
def encData (n : Nat) (bs : List Byte) (s : State) : State :=
  let x := encAt s n
  let at_ := x.made % encRing s n
  let first := encRing s n - at_
  let s := encWrite n (encBase s n) (bs.drop first) (encWrite n (encBase s n + at_) (bs.take first) s)
  setEnc n { encAt s n with made := x.made + bs.length } s

/-- A record enters the record ring; `start` is the offset of its data (R344). -/
def encRecord (n start : Nat) (words : List Nat) (s : State) : State :=
  let x := encAt s n
  let phase := 1 - x.posted / encRecs s n % 2
  let w0 := phase * 2 ^ 31 + words.headD 0
  let a := encBase s n + encRing s n + x.posted % encRecs s n * 32
  let s := encWrite n a (wordBytes (w0 :: words.drop 1)) s
  let s := setEnc n { encAt s n with posted := x.posted + 1, recs := x.recs ++ [start] } s
  encShowFree n (addFld s (R.VEN_REC_INDEX n) 15 0 1)

/-- Mean QP of the rows coded so far; the rounding of a mean that is no whole number is not stated. DEDUCED: log entry 75. -/
def encMeanQp (p : EncPic) (free : Nat) : Nat :=
  p.qpSum / p.row + (if p.qpSum % p.row = 0 then 0 else free % 2)

/-- Data and record of a picture: KIND 0 the access unit, 1 a slice; the first piece carries the bytes that precede the
slices, the last one filler data (R343 to R345). The words 5 to 7 of its first record stand in every record of a picture,
but for the flags that rows set (R345). DEDUCED: log entry 75. -/
def encEmit (n kind : Nat) (last : Bool) (fill : List Byte) (p : EncPic) (s : State) : State × EncPic :=
  let x := encAt s n
  let start := x.made
  let (c, taints) := p.sent.getD (encContent x p)
  let bytes := (if p.sent.isNone then encHead s n p c else []) ++ p.bytes ++ fill
  let s := encData n bytes { s with draws := s.draws + 1 }
  let age := clampInt 0 0xFFFFFFFF (unit16 ((p.t : Int) - c))
  let flags := ofBool p.repeat_ * 2 ^ 25 + ofBool p.idr * 2 ^ 24 + ofBool p.start * 2 ^ 23 + ofBool p.sweepEnd * 2 ^ 22
    + ofBool p.overMark * 2 ^ 21 + ofBool p.cut * 2 ^ 20 + ofBool p.outShort * 2 ^ 19 + p.wave % 256 * 2 ^ 8 + taints % 64
  let s := encRecord n start
    [ofBool last * 2 ^ 30 + kind * 2 ^ 28 + n * 2 ^ 24 + min 255 p.floorRows * 2 ^ 16 + p.firstRow % 65536,
     start % encRing s n, encMeanQp p (Config.freeNat s.draws) * 2 ^ 24 + bytes.length % 2 ^ 24, x.count % 2 ^ 32,
     p.n % 2 ^ 32, p.n / 2 ^ 32 % 65536 * 2 ^ 16 + p.rebase, age.toNat, flags] s
  (s, { p with bytes := [], written := p.written + bytes.length, firstRow := p.row, sent := some (c, taints) })

/-- A write of VEN_S_n_REC_CONS frees records and their data, or sets REC_CONS_BAD (R344). -/
def encRecCons (n v : Nat) (s : State) : State :=
  let old := fld s (R.VEN_REC_INDEX n) 31 16
  let lim := (fld s (R.VEN_REC_INDEX n) 15 0 + 65536 - old) % 65536
  let k := (bits v 15 0 + 65536 - old) % 65536
  if doorbellSound v && decide (k ≤ lim) then
    let x := encAt s n
    let recs := x.recs.drop k
    let s := setEnc n { x with recs := recs, freed := recs.headD x.made } s
    encShowFree n (setFld s (R.VEN_REC_INDEX n) 31 16 (bits v 15 0))
  else setFlag s (R.VEN_STATE n) 7 true

/-- ENC_REC_CONS_WRITE and ENC_NEXT_N_READ. -/
def execEncRecConsWrite (n : Fin 16) (v : Word) (s : State) : Host.Outcome State Fault Refusal :=
  live s (encRecCons n.val v.toNat)
def execEncNextNRead (n : Fin 16) (s : State) : Host.Outcome State Fault Refusal :=
  live s (wideLatch (R.VEN_NEXT_N_LO n.val) (R.VEN_NEXT_N_HI n.val))

/-! ## Rows (R328, R329, R336, R337, R346) -/

/-- The due column set of a picture. -/
def EncPic.dueSet (p : EncPic) : Option Nat := if p.due then some p.wave else none

/-- May the next row of a picture begin: the DMC has acknowledged the lines it needs, or no more of them will come (R328). -/
def rowReady (s : State) (n : Nat) (p : EncPic) : Bool :=
  match p.held with
  | some f =>
    let b := wbAt s f.unit f.slot
    !p.follow || p.cut || !b.writing || decide (encNeeds (encWord s n) p.row < b.acked)
  | none => true

/-- The ready picture of a pipeline with the earliest deadline, by session (R329). -/
def encChoice (s : State) (pipe : Nat) : Option Nat :=
  ((List.range 16).filter (fun n => decide (encPipe s n = pipe ∧ unitState s 2 n ≠ 0)
      && (encAt s n).pic.any (rowReady s n))).foldl (fun best n =>
    match best with
    | none => some n
    | some b =>
      if ((encAt s n).pic.map EncPic.deadline).getD 0 < ((encAt s b).pic.map EncPic.deadline).getD 0 then some n else some b) none

/-- Is a row of the pipeline in coding. -/
def pipeBusy (s : State) (pipe : Nat) : Bool :=
  (List.range 16).any (fun n => decide (encPipe s n = pipe) && (encAt s n).pic.any EncPic.coding)

/-- EV_ENC_OUTPUT_FULL. -/
def outputFull (n : Nat) (s : State) : State := raiseOnce n { code := 0x93, unit := n } s

/-- CPB fullness at a picture's removal (R334), in 1/(10⁶ · TICK_DEN) bit. DEDUCED: log entry 75. -/
def encFullness (s : State) (n : Nat) (p : EncPic) : Nat :=
  let w := encWord s n
  let x := encAt s n
  let size := w 8 * 1000 * encUnit s
  match x.removed with
  | none => size
  | some m => min size (x.cpb + max 1 ((p.n - m) / encDiv w) * encGain s w)

/-- QP_MIN and QP_MAX as latched (R337). -/
def encQpMin (s : State) (n : Nat) : Nat := lfld s (R.VEN_QP n) 7 0
def encQpMax (s : State) (n : Nat) : Nat := lfld s (R.VEN_QP n) 15 8

/-- A picture starts: its QP limits are fixed, and its budget is the fullness at its removal less the bits of the NAL units
ahead of the slices (R336, R337). -/
def encOpen (s : State) (n : Nat) (p : EncPic) : EncPic :=
  { p with coding := true, rowFloor := p.floorAll, qpMin := encQpMin s n, qpMax := encQpMax s n,
           left := encFullness s n p / encUnit s - encHeadBits s n p }

/-- Space before a picture starts (R346): coded as it is, wholly in floor mode, or not at all, with a fault. -/
def encRoom (n : Nat) (p : EncPic) (s : State) : State :=
  let w := encWord s n
  let x := encAt s n
  let recs := decide (encSlices w ≤ encFreeRecs s n)
  let begin_ (p : EncPic) (s : State) : State := setEnc n { x with pic := some (encOpen s n p) } s
  if recs && decide (125 * w 8 + 4096 ≤ encFreeData s n) then begin_ p s
  else if recs && decide (floorFrom w p.idr p.dueSet 0 / 8 + 4096 ≤ encFreeData s n) then
    outputFull n (addReg (begin_ { p with outShort := true, floorAll := true } s) (R.VEN_OUT_FULL n) 1)
  else
    let s := encReleaseOpt p.held (setEnc n { x with pic := none } s)
    encDrain n (outputFull n (setFlag s (R.VEN_STATE n) 6 true))

/-- ENC_ROW_START. -/
def execEncRowStart (p : Fin 2) (s : State) : Host.Outcome State Fault Refusal :=
  live s (fun s =>
    if pipeBusy s p.val then s
    else match encChoice s p.val with
      | none => s
      | some n =>
        let x := encAt s n
        match x.pic with
        | none => s
        | some q =>
          if q.row = 0 then encRoom n q s
          else setEnc n { x with pic := some { q with coding := true, rowFloor := q.floorAll } } s)

/-- The state of a sweep after a picture, and the picture with SWEEP_END (R341, R342). DEDUCED: log entry 73. -/
def sweepStep (n : Nat) (p : EncPic) (s : State) : State :=
  let w := encWord s n
  let x := encAt s n
  if !encGradual w || p.idr then s
  else
    let wave := if p.due || !p.setFloor then x.wave + 1 else x.wave
    let k := x.inSweep + 1
    if encPeriod w ≤ wave then
      let s := setEnc n { x with wave := 0, inSweep := 0 } s
      let s := wr (addReg s (R.VEN_SWEEPS n) 1) (R.VEN_LAST_PERIOD n) (k % 65536)
      if encPeriod w < k then raiseOnce n { code := 0x92, unit := n, a0 := k } s else s
    else setFld (setEnc n { x with wave := wave, inSweep := k } s) (R.VEN_LAST_PERIOD n) 31 16 (k - wave)

/-- Does this picture end its sweep. -/
def sweepEnds (w : Nat → Nat) (x : EncSt) (p : EncPic) : Bool :=
  encGradual w && !p.idr && (p.due || !p.setFloor) && decide (encPeriod w ≤ x.wave + 1)

/-- A picture completes (R325, R332, R337, R339). -/
def encPictureDone (n : Nat) (p : EncPic) (s : State) : State :=
  let x := encAt s n
  let (c, taints) := encContent x p
  let cpb := encFullness s n p - 8 * p.written * encUnit s
  let s := setEnc n { x with pic := none, content := some c, taints := taints, cpb := cpb, removed := some p.n,
                             period := if p.idr || p.start then p.n else x.period, count := x.count + 1 } (encWriteWork n s)
  let s := wr (addReg s (R.VEN_PICTURES n) 1) (R.VEN_CPB n) (cpb / encUnit s)
  let s := if p.repeat_ then addReg s (R.VEN_REPEATS n) 1
    else if p.floorRows = 0 then s
    else
      let s := addReg (addReg s (R.VEN_FLOOR_PICTURES n) 1) (R.VEN_FLOOR_ROWS n) p.floorRows
      raiseOnce n { code := 0x90, unit := n, a0 := p.floorRows, a1 := x.count } s
  encReleaseOpt p.held (sweepStep n p s)

/-- The bits a row takes: a slice's first row begins its NAL unit, its last one fills up its last byte.
DEDUCED: log entry 75. -/
def rowBits (w : Nat → Nat) (p : EncPic) (b : Nat) : Nat :=
  let b := b + 40 * ofBool (sliceBegins w p.row)
  if sliceEnds w p.row then ceilDiv (p.sliceBits + b) 8 * 8 - p.sliceBits else b

/-- The bits of a row in floor mode: never more than its floor (R336). -/
def floorBits (w : Nat → Nat) (p : EncPic) (b : Nat) : Nat :=
  let f := rowFloor w p.idr p.dueSet p.row
  min f (rowBits w p (min b (f - 40 * ofBool (sliceBegins w p.row) - 7)))

/-- The cap of a row (R336). -/
def rowCap (w : Nat → Nat) (p : EncPic) : Nat := p.left - floorFrom w p.idr p.dueSet (p.row + 1)

/-- The row in coding, in the way of R336: 0 normal, 1 at QP 51, 2 in floor mode; with the bits it spends.
DEDUCED: log entry 75. -/
def rowMode (w : Nat → Nat) (p : EncPic) (o : Config.RowChoice) : Nat × Nat :=
  if p.rowFloor then (2, floorBits w p o.floorBits)
  else if rowBits w p o.bits ≤ rowCap w p then (0, rowBits w p o.bits)
  else if rowBits w p o.bits51 ≤ rowCap w p then (1, rowBits w p o.bits51)
  else (2, floorBits w p o.floorBits)

/-- Does a row of a picture hold blocks that floor mode codes intra (R335, R336). -/
def floorIntra (w : Nat → Nat) (p : EncPic) : Bool := p.idr || (p.due && decide (setColumn w p.wave < setColumn w (p.wave + 1)))

/-- A row as it is coded (R333, R336, R337, R341). The QP of a floor row without an intra block is not stated.
DEDUCED: log entry 75. -/
def rowResult (w : Nat → Nat) (p : EncPic) (o : Config.RowChoice) (free : Nat) : Config.RowCoded :=
  let (m, spent) := rowMode w p o
  { mode := m, spent := spent
    qp := if m = 0 then clampNat p.qpMin p.qpMax o.qp else if m = 1 || floorIntra w p then 51 else free % 52
    vectors := if m = 2 then [] else encVectors w p o.vectors }

/-- The bytes of the slice in coding (R343). -/
def sliceBytes (s : State) (n : Nat) (p : EncPic) : List Byte :=
  startCode ++ (List.range (p.sliceBits / 8 - 4)).map
    (Config.encSliceByte (encAt s n).model (encInfo s n p.held) p.sliceRows)

/-- The picture after its row is coded. -/
def rowCoded (s : State) (n : Nat) (p : EncPic) (r : Config.RowCoded) : EncPic :=
  let w := encWord s n
  let floor := decide (r.mode = 2)
  let inSet := encGradual w && !p.idr && decide (setColumn w p.wave < setColumn w (p.wave + 1))
  let allIntra := p.idr || (p.due && decide (setColumn w (p.wave + 1) - setColumn w p.wave = encCols w))
  let q := { p with sliceBits := p.sliceBits + r.spent, sliceRows := p.sliceRows ++ [r] }
  let ends := sliceEnds w p.row
  { q with row := p.row + 1, coding := false, left := p.left - r.spent, floorAll := p.floorAll || floor,
           floorRows := p.floorRows + ofBool floor, setFloor := p.setFloor || (floor && inSet && !p.due),
           skipped := p.skipped || (floor && !allIntra), overMark := p.overMark || decide (r.mode = 1),
           qpSum := p.qpSum + r.qp, bytes := if ends then p.bytes ++ sliceBytes s n q else p.bytes,
           sliceBits := if ends then 0 else q.sliceBits, sliceRows := if ends then [] else q.sliceRows }

/-- The N of the next picture's input seal, as the end of a picture knows it (R331, R334). -/
def encNextRemoval (s : State) (n : Nat) (p : EncPic) : Nat :=
  match (encAt s n).next with
  | some i => i.n
  | none => encNextInput (encWord s n) (max (p.n + 1) (s.tck.next.getD 0))

/-- Bytes of filler data at the end of an access unit of `len` bytes: in CBR, what keeps the CPB from overflowing before
the next removal (R336). -/
def encFillBytes (s : State) (n : Nat) (p : EncPic) (len : Nat) : Nat :=
  let w := encWord s n
  if bit (w 6) 16 then 0
  else
    let k := max 1 ((encNextRemoval s n p - p.n) / encDiv w)
    ceilDiv (encFullness s n p + k * encGain s w - w 8 * 1000 * encUnit s) (8 * encUnit s) - len

/-- The length of a picture's access unit so far. -/
def encLength (s : State) (n : Nat) (p : EncPic) : Nat :=
  p.written + p.bytes.length + (if p.sent.isNone then (encHead s n p (encContent (encAt s n) p).1).length else 0)

/-- EV_HRD_OVER_CLAMP of a row coded at QP 51 (R337). DEDUCED: log entry 75. -/
def overClamp (n : Nat) (p : EncPic) (s : State) : State :=
  raiseOnce n { code := 0x91, unit := n, a0 := 51, a1 := p.qpMax } (addReg s (R.VEN_OVER_CLAMP n) 1)

/-- A picture goes on with its next row, or completes; records follow at the end of a slice, and of the picture (R345). -/
def encRowEnds (n : Nat) (p : EncPic) (s : State) : State :=
  let w := encWord s n
  let slices := bit (w 6) 18
  if p.row = encRows w then
    let p := { p with sweepEnd := sweepEnds w (encAt s n) p }
    let fill := fillerData (decide (bits (w 5) 7 0 = 1)) (encFillBytes s n p (encLength s n p))
    let (s, p) := encEmit n (if slices then 1 else 0) true fill p s
    encPictureDone n p s
  else if slices && sliceBegins w p.row then
    let (s, p) := encEmit n 1 false [] p s
    setEnc n { encAt s n with pic := some p } s
  else setEnc n { encAt s n with pic := some p } s

/-- A row of a picture finishes coding: its input and its references are read, and the encoder's own model makes its
choices (R327, R336 to R338). -/
def encRowDone (n : Nat) (p : EncPic) (o : RowObs) (s : State) : State :=
  let w := encWord s n
  let (s, found) := match p.held with
    | some f => encReadRow n (encPicture s f) p.row s
    | none => (s, [])
  let (s, refBad) := encReadRefs n o.refs (encCacheMet n o.granary s)
  let model := (encAt s n).model
  let input := encRowInput s n p (rowCap w p) found refBad
  let r := rowResult w p (Config.encRow model input) (Config.freeNat s.draws)
  let s := if r.mode = 1 then overClamp n p s else s
  let s := setEnc n { encAt s n with model := Config.encKeep model input r } { s with draws := s.draws + 1 }
  encRowEnds n (rowCoded s n p r) s

/-- ENC_ROW_CODED. -/
def execEncRowCoded (p : Fin 2) (o : RowObs) (s : State) : Host.Outcome State Fault Refusal :=
  live s (linked o.links (fun s =>
    match (List.range 16).find? (fun n => decide (encPipe s n = p.val) && (encAt s n).pic.any EncPic.coding) with
    | none => s
    | some n =>
      match (encAt s n).pic with
      | some q =>
        let k := min o.cycles (encMaxCycles (encWord s n) - q.cycles)
        encRowDone n { q with cycles := q.cycles + k } o (engineBusy (12 + p.val) k s)
      | none => s))

/-- Busy cycles of the pipelines in the tick that ends. -/
def pipeTick (s : State) : State :=
  (List.range 2).foldl (fun s p => wr s (R.VEN_PIPE_CYCLES p) (smGet (fun _ => 0) s.engineCycles (12 + p))) s

/-- Has a draining session no work left (R347). -/
def encIdle (s : State) (n : Nat) : Bool := (encAt s n).pic.isNone

/-- The record of KIND 2, if the record ring has room (R347); words 3 to 6 hold values the manual does not state.
DEDUCED: log entry 75. -/
def encEnd (n : Nat) (s : State) : State :=
  let x := encAt s n
  if encFreeRecs s n = 0 then s
  else
    let free := (List.range 4).map (fun i => (Config.freeWord (s.draws + i)).toNat)
    encRecord n x.made ([2 ^ 30 + 2 * 2 ^ 28 + n * 2 ^ 24, x.made % encRing s n, 0] ++ free ++ [0]) { s with draws := s.draws + 4 }

end Sys2Proof.Machine
end

