-- ==== Sys2Proof/Machine/Checks.lean ====
section
/-!
DEFINITION. Machine/Checks.lean: the check-value engines (R371 to R377) and snapshots (R378, R379).
-/

namespace Sys2Proof.Machine

/-! ## Algorithms (R371, R372) -/

/-- Width, polynomial (in the register's bit order), INIT, reflection and XOROUT of an algorithm. -/
structure ChkAlg where
  width : Nat
  poly : Nat
  init : Nat
  reflected : Bool
  xorout : Nat
deriving DecidableEq, Repr

/-- The algorithms of R371; a reflected polynomial is given bit-reversed. -/
def chkAlg (a : Nat) : ChkAlg :=
  match a with
  | 0 => { width := 32, poly := crc32cPoly, init := 0xFFFFFFFF, reflected := true, xorout := 0xFFFFFFFF }
  | 1 => { width := 32, poly := 0xEDB88320, init := 0xFFFFFFFF, reflected := true, xorout := 0xFFFFFFFF }
  | 2 => { width := 16, poly := 0x1021, init := 0xFFFF, reflected := false, xorout := 0 }
  | _ => { width := 64, poly := 0x42F0E1EBA9EA3693, init := 0, reflected := false, xorout := 0 }

/-- The register after a run of bytes. -/
def chkRun (g : ChkAlg) (r : Nat) (bs : List Byte) : Nat :=
  if g.reflected then crcRun g.poly r bs else crcMsbRun g.width g.poly r bs

/-- fold(A, S) of R372. -/
def chkFold (a sq : Nat) : Nat :=
  let m := 2 ^ 64
  let x := (a % m) ^^^ (sq * 0x9E3779B97F4A7C15 % m)
  let x := (x ^^^ (x / 2 ^ 30)) * 0xBF58476D1CE4E5B9 % m
  let x := (x ^^^ (x / 2 ^ 27)) * 0x94D049BB133111EB % m
  x ^^^ (x / 2 ^ 31)

/-! ## Jobs (R373 to R377) -/

/-- Bytes a job engine has processed; `reg` counts them in KiB. -/
def addBytes (key reg n : Nat) (s : State) : State :=
  let b := smGet (fun _ => 0) s.jobBytes key + n
  wr { s with jobBytes := smSet (fun _ => 0) s.jobBytes key b } reg (b / 1024)

/-- Is a job in progress on a context. -/
def chkBusy (s : State) (x : Nat) : Bool :=
  s.rng.cmds.any (fun d => decide (d.opcode = 0x30 ∧ bits (d.w 2) 5 0 = x ∧ d.phase = .waiting))

/-- Is a job on a context in flight. DEDUCED: log entry 66. -/
def chkInFlight (s : State) (x : Nat) : Bool :=
  s.rng.cmds.any (fun d => decide (d.opcode = 0x30 ∧ bits (d.w 2) 5 0 = x ∧ (d.phase = .waiting ∨ d.phase = .started)))

/-- The jobs and snapshots in progress on a CHK engine, in the order in which they are served (R375). -/
def turnsOf (s : State) (e : Nat) : List Nat := smGet (fun _ => []) s.chkTurns e
def setTurns (e : Nat) (ts : List Nat) (s : State) : State := { s with chkTurns := smSet (fun _ => []) s.chkTurns e ts }

/-- A job or snapshot joins its engine's round; an engine that was idle begins now. -/
def joinTurns (e tag : Nat) (s : State) : State :=
  let s := if turnsOf s e = [] then { s with chkAt := smSet (fun _ => 0) s.chkAt e s.elapsed } else s
  setTurns e (turnsOf s e ++ [tag]) s

/-- Bytes of a turn, and its duration at 16 bytes per cycle of 800 MHz (R375). -/
abbrev turnBytes : Nat := 4096
def turnTime : Nat := 320 * nsUnit

/-- ALG of a job, and its register before the data (R374 step 1). -/
def chkJobAlg (s : State) (c : Cmd) : Nat :=
  if bit (c.w 3) 0 then bits (c.w 3) 17 16 else fld s (R.CHK_CFG (bits (c.w 2) 5 0)) 1 0
def chkJobFrom (s : State) (c : Cmd) : Nat :=
  let x := bits (c.w 2) 5 0
  let g := chkAlg (chkJobAlg s c)
  if bit (c.w 3) 0 then
    (if bit (c.w 3) 8 then g.init ^^^ (chkFold (c.w 7 + 2 ^ 32 * c.w 8) (c.w 9) % 2 ^ g.width) else g.init)
  else rd64 s (R.CHK_RUN_LO x) (R.CHK_RUN_HI x) % 2 ^ g.width

/-- A context takes an ALG and a register. -/
def chkSet (x alg v : Nat) (s : State) : State := wr64 (setFld s (R.CHK_CFG x) 1 0 alg) (R.CHK_RUN_LO x) (R.CHK_RUN_HI x) v

/-- CHK_JOB starts; the jobs of a context run one at a time (R375). Its `aux` holds the bytes it has processed, and ALG and
register of the context at its start (R376). DEDUCED: log entry 66. -/
def execChkJob (tag : Fin 4096) (s : State) : Host.Outcome State Fault Refusal :=
  live s (fun s => onCmd tag.val 0x30 s (fun c s =>
    let x := bits (c.w 2) 5 0
    if chkBusy s x then s
    else
      let aux := [0, fld s (R.CHK_CFG x) 1 0, rd64 s (R.CHK_RUN_LO x) (R.CHK_RUN_HI x)]
      joinTurns (x / 16) c.tag (chkSet x (chkJobAlg s c) (chkJobFrom s c) (waitCmd c.tag aux s))))

/-- A CHK job has processed its data (R374 steps 3 and 4). -/
def chkFinish (c : Cmd) (s : State) : State :=
  let x := bits (c.w 2) 5 0
  let g := chkAlg (fld s (R.CHK_CFG x) 1 0)
  let v := rd64 s (R.CHK_RUN_LO x) (R.CHK_RUN_HI x) % 2 ^ g.width
  let s := addReg s (R.CHK_JOBS x) 1
  let fin := bit (c.w 3) 1
  let out := if fin then v ^^^ g.xorout else v
  if bit (c.w 3) 2 && decide (out ≠ (c.w 10 + 2 ^ 32 * c.w 11) % 2 ^ g.width) then
    finish c.tag stJobFailed 3 out (out / 2 ^ 32) s
  else finish c.tag stSuccess out (out / 2 ^ 32) (ofBool fin) s

/-- A turn of a CHK job: up to 4 KiB of its data; a read that fails ends it, and the context is as at its start (R375,
R376). DEDUCED: log entry 66. -/
def chkTurn (c : Cmd) (s : State) : State :=
  let x := bits (c.w 2) 5 0
  let done := c.aux.headD 0
  let n := min turnBytes (c.w 6 - done)
  let sp := if bit (c.w 3) 3 then spCellar else spHost
  let (s, r) := if n = 0 then (s, { data := [], bad := none }) else dmaRead 25 21 sp (c.w 4 + 2 ^ 32 * c.w 5 + done) n s
  match r.bad with
  | some a => finishFault c a 25 (addReg (chkSet x (c.aux.getD 1 0) (c.aux.getD 2 0) s) (R.CHK_JOBS x) 1)
  | none =>
    let alg := fld s (R.CHK_CFG x) 1 0
    let v := chkRun (chkAlg alg) (rd64 s (R.CHK_RUN_LO x) (R.CHK_RUN_HI x) % 2 ^ (chkAlg alg).width) r.data
    let s := addBytes (x / 16) (R.CHK_E_KIB (x / 16)) n (chkSet x alg v s)
    if done + n = c.w 6 then chkFinish c s else updCmd c.tag (fun c => { c with aux := (done + n) :: c.aux.drop 1 }) s

/-- A write to a context's CFG, RUN_LO or RUN_HI (R377); WRITE_IGNORED clears by a written 1. DEDUCED: log entry 47. -/
def chkContext (x reg v : Nat) (s : State) : State :=
  let s := if reg = 0 ∧ bit v 3 then setFlag s (R.CHK_CFG x) 3 false else s
  if chkInFlight s x then setFlag s (R.CHK_CFG x) 3 true
  else if reg = 0 then setFld s (R.CHK_CFG x) 1 0 (bits v 1 0)
  else if reg = 1 then wr s (R.CHK_RUN_LO x) v
  else wr s (R.CHK_RUN_HI x) v

/-- CHK_CONTEXT_WRITE. -/
def execChkContextWrite (ctx : Fin 64) (reg : Fin 3) (v : Word) (s : State) : Host.Outcome State Fault Refusal :=
  live s (chkContext ctx.val reg.val v.toNat)

/-! ## Snapshots (R378, R379) -/

/-- SNAPSHOT starts: it acts at the next seal. Its `aux` holds the buffer it has taken and the bytes its turns have
covered. -/
def execSnapshot (tag : Fin 4096) (s : State) : Host.Outcome State Fault Refusal :=
  live s (fun s => onCmd tag.val 0x32 s (fun c s => waitCmd c.tag [] s))

/-- Step 9 of a seal: waiting snapshots take their heads' RETAINED frames (R378). DEDUCED: log entry 67. -/
def sealSnapshots (s : State) : State :=
  (s.rng.cmds.filter (fun c => decide (c.opcode = 0x32 ∧ c.phase = .waiting ∧ c.aux = []))).foldl (fun s c =>
    let h := bits (c.w 2) 4 0
    match (List.range 8).find? (fun k => (wbAt s h k).kept && !(wbAt s h k).writing && (wbAt s h k).frame.isSome) with
    | none => finish c.tag stJobFailed 1 0 0 s
    | some k =>
      joinTurns (h % 4) c.tag (waitCmd c.tag [k, 0] (encHold { kind := 2, unit := h, slot := k, seq := 0, cap := 0 } s))) s

/-- The active pixel words of a writeback frame in raster order, with the address of the first read that failed. -/
def snapRows (a pitch w : Nat) : Nat → State → List Byte → State × MemRead
  | 0, s, acc => (s, { data := acc, bad := none })
  | rows + 1, s, acc =>
    let (s, r) := dmaRead 25 21 spCellar a (4 * w) s
    if r.bad.isSome then (s, r) else snapRows (a + pitch) pitch w rows s (acc ++ r.data)

/-- The history entry of a head for a frame number [23:0] (R102, R379). DEDUCED: log entry 67. -/
def historyEntry (s : State) (h n : Nat) : Option Nat :=
  (List.range 16).find? (fun k => decide (bits (rd s (R.WIN_LT_HIST_INFO h k)) 31 8 = n % 2 ^ 24))

/-- The copy of a snapshot (R379). DEDUCED: log entry 67. -/
def snapCopy (s : State) (h k value flags : Nat) (header pixels : List Byte) : List Byte :=
  header.take 256 ++ gRead s (wbRecAddr h k) 64 ++ leBytes 4 value ++ leBytes 4 flags ++ List.replicate 3768 0 ++ pixels

/-- A snapshot with its frame read: value, comparison and copy (R379). A frame that has left the history does not
compare, and its FLAGS are a value the manual does not state. DEDUCED: log entry 67. -/
def snapFinish (c : Cmd) (h k : Nat) (header active pixels : List Byte) (s : State) : State :=
  let value := crc32c active
  let n := ofLe ((header.drop 28).take 4)
  let entry := historyEntry s h n
  let flags := match entry with
    | some e => bits (rd s (R.WIN_LT_HIST_INFO h e)) 7 0
    | none => (Config.freeWord s.draws).toNat
  let s := { s with draws := s.draws + 1 }
  let sp := if bit (c.w 3) 1 then spCellar else spHost
  let dst := c.w 4 + 2 ^ 32 * c.w 5
  let size := 4096 + pixels.length
  if bit (c.w 3) 0 && decide (c.w 6 < size) then finish c.tag stJobFailed 4 0 0 s
  else
    let (s, bad) := if bit (c.w 3) 0 then dmaWrite 25 21 sp dst (snapCopy s h k value flags header pixels) s else (s, none)
    match bad with
    | some a => finishFault c a 25 s
    | none =>
      if entry.any (fun e => decide (rd s (R.WIN_LT_HIST_CRC h e) = value)) then finish c.tag stSuccess value n (bits flags 3 0) s
      else finish c.tag stJobFailed 2 value n s

/-- A snapshot runs over the frame it holds, and gives it back (R379). DEDUCED: log entry 67. -/
def snapDone (c : Cmd) (s : State) : State :=
  match c.aux with
  | [] => s
  | k :: _ =>
    let h := bits (c.w 2) 4 0
    let b := wbAt s h k
    let a := wbAddr s h k
    let pitch := wbPitch b.width
    let (s, header) := dmaRead 25 21 spCellar a 4096 s
    let (s, active) := snapRows (a + 0x1000) pitch b.width b.height s []
    let (s, pixels) := if bit (c.w 3) 0 then dmaRead 25 21 spCellar (a + 0x1000) (pitch * b.height) s
      else (s, { data := [], bad := none })
    let s := match (header.bad.or active.bad).or pixels.bad with
      | some f => finishFault c f 25 s
      | none => snapFinish c h k header.data active.data pixels.data (addBytes (h % 4) (R.CHK_E_KIB (h % 4)) active.data.length s)
    encRelease { kind := 2, unit := h, slot := k, seq := 0, cap := 0 } s

/-- A turn of a snapshot; with the last it does its work. DEDUCED: log entry 67. -/
def snapTurn (c : Cmd) (s : State) : State :=
  let k := c.aux.headD 0
  let b := wbAt s (bits (c.w 2) 4 0) k
  let done := c.aux.getD 1 0 + turnBytes
  if 4 * b.width * b.height ≤ done then snapDone c s else updCmd c.tag (fun c => { c with aux := [k, done] }) s

/-! ## Turns (R375) -/

/-- Is a job or snapshot still in progress. -/
def inProgress (s : State) (tag : Nat) : Bool := (findCmd s tag).any (fun c => decide (c.phase = .waiting))

/-- An engine serves the next of its jobs and snapshots for a turn; one with more to do goes to the end of the round. -/
def engineTurn (e : Nat) (s : State) : State :=
  match turnsOf s e with
  | [] => s
  | tag :: ts =>
    let s := match findCmd s tag with
      | some c => if c.opcode = 0x30 then chkTurn c s else snapTurn c s
      | none => s
    setTurns e (if inProgress s tag then ts ++ [tag] else ts) s

/-- Turns that a job or snapshot has still to be given. -/
def turnsLeft (s : State) (tag : Nat) : Nat :=
  match findCmd s tag with
  | some c =>
    if c.opcode = 0x30 then max 1 (ceilDiv (c.w 6 - c.aux.headD 0) turnBytes)
    else
      let b := wbAt s (bits (c.w 2) 4 0) (c.aux.headD 0)
      max 1 (ceilDiv (4 * b.width * b.height - c.aux.getD 1 0) turnBytes)
  | none => 0

/-- The turns of an engine up to that with which a job or snapshot ends. -/
def engineUntil (e tag : Nat) : Nat → State → State
  | 0, s => s
  | fuel + 1, s => if inProgress s tag then engineUntil e tag fuel (engineTurn e s) else s

/-- The turns of an engine that lie before an instant, short of one with which a job or snapshot ends: that is reported by
its own command. DESIGN CHOICE: log entry 13. -/
def engineCatch (e : Nat) : Nat → State → State
  | 0, s => s
  | fuel + 1, s =>
    match turnsOf s e with
    | [] => s
    | tag :: _ => if turnsLeft s tag ≤ 1 then s else engineCatch e fuel (engineTurn e s)

/-- The engine of a context has come as far as the present instant lets it (R375, R377). -/
def chkCatch (e : Nat) (s : State) : State :=
  let at_ := smGet (fun _ => 0) s.chkAt e
  let n := (s.elapsed - at_) / turnTime
  if turnsOf s e = [] ∨ n = 0 then s
  else engineCatch e n { s with chkAt := smSet (fun _ => 0) s.chkAt e (at_ + n * turnTime) }

/-- A job or snapshot of an engine comes to its end: the turns up to there are served, and those that end before it end too
(R375). -/
def engineEnd (e tag : Nat) (s : State) : State :=
  let n := ((turnsOf s e).map (turnsLeft s)).foldl (· + ·) 0
  if (turnsOf s e).contains tag then
    let s := engineUntil e tag n s
    { s with chkAt := smSet (fun _ => 0) s.chkAt e s.elapsed }
  else s

/-- CHK_JOB_COMPLETE and SNAPSHOT_COMPLETE; `links` are the link errors that the reads up to there meet (R366).
DESIGN CHOICE: log entry 13. -/
def execChkJobComplete (w : WorkEnd) (s : State) : Host.Outcome State Fault Refusal :=
  live s (fun s => onWaiting w.tag.val 0x30 s (fun c => linked w.links (engineEnd (bits (c.w 2) 5 0 / 16) c.tag)))
def execSnapshotComplete (w : WorkEnd) (s : State) : Host.Outcome State Fault Refusal :=
  live s (fun s => onWaiting w.tag.val 0x32 s (fun c => linked w.links (engineEnd (bits (c.w 2) 4 0 % 4) c.tag)))

end Sys2Proof.Machine
end

