-- ==== Sys2Proof/Machine/Compress.lean ====
section
/-!
DEFINITION. Machine/Compress.lean: the CPX coder (R380 to R383) and its jobs (R384 to R387). A context's committed state
stands in its registers, and its dictionary in the Granary, in a form of which nothing can be proved (R386).
-/

namespace Sys2Proof.Machine

/-! ## The coder -/

/-- A coder at work: entries from 258 on as (code of the prefix, last byte), the previous data code, SINCE_FULL, and the
codes written so far with their widths, the last first. -/
structure Coder where
  dict : List (Nat × Byte) := []
  prev : Option Nat := none
  since : Nat := 0
  out : List (Nat × Nat) := []
deriving DecidableEq, Repr

/-- E, and the width of a code (R380). -/
def Coder.e (c : Coder) : Nat := 258 + c.dict.length
def bitLen (n : Nat) : Nat := if n = 0 then 0 else Nat.log2 n + 1
def Coder.width (c : Coder) : Nat := max 9 (min 16 (bitLen c.e))

/-- The string of a code; entries refer to earlier ones, so that `fuel` beyond their number suffices. -/
def codeString (dict : List (Nat × Byte)) : Nat → Nat → List Byte
  | 0, _ => []
  | fuel + 1, k =>
    if k < 256 then [BitVec.ofNat 8 k]
    else match dict[k - 258]? with
      | some (p, b) => codeString dict fuel p ++ [b]
      | none => []
def Coder.string (c : Coder) (k : Nat) : List Byte := codeString c.dict (c.dict.length + 1) k

/-- A data code is passed: it defines entry E from P, and becomes P (R381). -/
def Coder.define (c : Coder) (x : Nat) (first : Byte) : Coder :=
  match c.prev with
  | some p => if c.e ≤ 65535 then { c with dict := c.dict ++ [(p, first)], prev := some x } else { c with prev := some x }
  | none => { c with prev := some x }

/-- RESET (R381). -/
def Coder.reset (c : Coder) : Coder := { c with dict := [], prev := none, since := 0 }

/-- A code is written. -/
def Coder.put (k : Nat) (c : Coder) : Coder := { c with out := (k, c.width) :: c.out }

/-- The longest defined string that matches, from a code and its length on. DEDUCED: log entry 68. -/
def longest (dict : List (Nat × Byte)) : Nat → Nat → List Byte → Nat × Nat
  | k, n, [] => (k, n)
  | k, n, b :: bs =>
    match dict.findIdx? (fun q => q = (k, b)) with
    | some i => longest dict (258 + i) (n + 1) bs
    | none => (k, n)

/-- The code for a position, and the bytes it covers (R382). DEDUCED: log entry 68. -/
def Coder.choose (c : Coder) (b : Byte) (bs : List Byte) : Nat × Nat :=
  let (k, n) := longest c.dict b.toNat 1 bs
  match c.prev with
  | some p =>
    let t := c.string p ++ [b]
    if c.e ≤ 65535 ∧ n < t.length ∧ t.isPrefixOf (b :: bs) then (c.e, t.length) else (k, n)
  | none => (k, n)

/-- The encoder over the input of a job (R382). -/
def Coder.encode : Nat → List Byte → Coder → Coder
  | 0, _, c => c
  | _, [], c => { c.put 257 with prev := none }
  | fuel + 1, b :: bs, c =>
    let (k, n) := c.choose b bs
    let full := decide (c.e = 65536)
    let c := c.put k
    let c := { c with since := c.since + ofBool full }
    Coder.encode fuel ((b :: bs).drop n) (c.define k b)

/-- Codes packed LSB first (R380). -/
def codeBits (k w : Nat) : List Bool := (List.range w).map (fun i => k.testBit i)
def bitsByte (l : List Bool) : Byte :=
  BitVec.ofNat 8 ((l.zip (List.range 8)).foldl (fun n p => n + ofBool p.1 * 2 ^ p.2) 0)
def packBits : Nat → List Bool → List Byte
  | 0, _ => []
  | n + 1, l => if l = [] then [] else bitsByte (l.take 8) :: packBits n (l.drop 8)
def Coder.bytes (c : Coder) : List Byte :=
  let l := c.out.reverse.flatMap (fun q => codeBits q.1 q.2)
  packBits (l.length / 8 + 1) l

/-- The bits of a job's source. -/
def sourceBits (bs : List Byte) : List Bool := bs.flatMap (fun b => codeBits b.toNat 8)
def bitsNat (l : List Bool) : Nat := l.foldr (fun b n => ofBool b + 2 * n) 0

/-- What the decoder ends with: its coder and output, or a cause of R387. -/
abbrev Decoded := Coder × List Byte × Nat

/-- The decoder (R383): cause 0 success, 4 OUT_FULL, 5 BAD_CODE, 6 TRUNCATED. -/
def decodeCodes (cap : Nat) : Nat → Bool → List Bool → List Byte → Coder → Decoded
  | 0, _, _, out, c => (c, out, 6)
  | fuel + 1, first, l, out, c =>
    let w := c.width
    if l.length < w then (c, out, 6)
    else
      let x := bitsNat (l.take w)
      let rest := l.drop w
      if x = 257 then ({ c with prev := none }, out, 0)
      else if x = 256 then (if first then decodeCodes cap fuel false rest out c.reset else (c, out, 5))
      else if c.e < x ∨ (x = c.e ∧ c.prev = none) then (c, out, 5)
      else
        let t := if x = c.e then
            let p := c.string (c.prev.getD 0)
            p ++ p.take 1
          else c.string x
        let out := out ++ t
        if cap < out.length then (c, out, 4)
        else decodeCodes cap fuel false rest out (c.define x (t.headD 0))

/-! ## Contexts -/

/-- Roles (R384): 0 EMPTY, 1 COMPRESS, 2 DECOMPRESS. -/
def cpxRole (s : State) (x : Nat) : Nat := fld s (R.CPX_STATE x) 31 30

/-- BAR4 offset of a context's dictionary. -/
def cpxDict (x : Nat) : Nat := 0x01B40000 + x * 0x40000

/-- The device's own form of an entry, and back (R386). DEDUCED: log entry 68. -/
def cpxForm (k : Nat) (q : Nat × Byte) : Nat := (q.1 % 65536 + q.2.toNat * 65536) ^^^ (Config.cpxMask k % 2 ^ 32)
def cpxEntry (k v : Nat) : Nat × Byte :=
  let w := v ^^^ (Config.cpxMask k % 2 ^ 32)
  (bits w 15 0, BitVec.ofNat 8 (bits w 23 16))

/-- A context as its registers and dictionary hold it. -/
def cpxLoad (s : State) (x : Nat) : Coder :=
  { dict := (List.range (fld s (R.CPX_STATE x) 16 0 - 258)).map (fun i => cpxEntry (258 + i) (gRead32 s (cpxDict x + 4 * (258 + i)))),
    prev := if flag s (R.CPX_STATE x) 29 then some (fld s (R.CPX_P x) 15 0) else none, since := rd s (R.CPX_SINCE_FULL x) }

/-- A context's registers take a state. -/
def cpxShow (x role after : Nat) (c : Coder) (s : State) : State :=
  let s := wr s (R.CPX_STATE x) (role * 2 ^ 30 + ofBool c.prev.isSome * 2 ^ 29 + c.e)
  wr (wr (wr s (R.CPX_P x) (c.prev.getD 0)) (R.CPX_RESET_AFTER x) after) (R.CPX_SINCE_FULL x) c.since

/-- A job commits: the entries from `from_` on enter the dictionary (R385). -/
def cpxCommit (x from_ : Nat) (c : Coder) (s : State) : State :=
  let news := (List.range (c.e - from_)).map (fun i => cpxForm (from_ + i) (c.dict.getD (from_ + i - 258) (0, 0)))
  cpxShow x (cpxRole s x) (rd s (R.CPX_RESET_AFTER x)) c (gWords (cpxDict x + 4 * from_) news s)

/-! ## Jobs (R384, R385) -/

/-- Is a job running; the engine runs one at a time. -/
def cpxBusy (s : State) : Bool := s.rng.cmds.any (fun d => decide (d.opcode = 0x31 ∧ d.phase = .waiting))
def cpxInFlight (s : State) : Bool :=
  s.rng.cmds.any (fun d => decide (d.opcode = 0x31 ∧ (d.phase = .waiting ∨ d.phase = .started)))

/-- No CPX_JOB that was started before a command has still to run. -/
def cpxFirst (s : State) (c : Cmd) : Bool :=
  match s.rng.cmds.find? (fun d => decide (d.opcode = 0x31 ∧ (d.phase = .waiting ∨ d.phase = .started))) with
  | some d => decide (d.tag = c.tag)
  | none => true

/-- CPX_JOB starts, in the order the ring engine starts the jobs. -/
def execCpxJob (tag : Fin 4096) (s : State) : Host.Outcome State Fault Refusal :=
  live s (fun s => onCmd tag.val 0x31 s (fun c s =>
    if cpxBusy s || !cpxFirst s c then s
    else setFld (waitCmd c.tag [] s) R.CPX_STATUS 1 0 (bits (c.w 2) 1 0)))

/-- Source and destination of a job. -/
def cpxSrc (c : Cmd) : Nat := c.w 4 + 2 ^ 32 * c.w 5
def cpxDst (c : Cmd) : Nat := c.w 7 + 2 ^ 32 * c.w 8
def cpxSrcSp (c : Cmd) : Nat := if bit (c.w 3) 16 then spCellar else spHost
def cpxDstSp (c : Cmd) : Nat := if bit (c.w 3) 17 then spCellar else spHost

/-- The destination of a failed job holds values the manual leaves undefined (R385). DEDUCED: log entry 68. -/
def cpxSpoil (c : Cmd) (s : State) : State :=
  let sp := cpxDstSp c
  let a := cpxDst c
  let ps := (guardParts s 26 sp a (c.w 9) .write).filter (fun p => p.ok && memAnswers s sp p.addr p.len)
  if c.w 9 = 0 ∨ 3 ≤ bits (c.w 3) 2 0 then s
  else ps.foldl (fun s p =>
    memStore s sp p.addr ((List.range p.len).map (fun i => Config.freeByte (s.draws * 2 ^ 64 + p.addr + i))))
    { s with draws := s.draws + 1 }

/-- A job fails as a whole (R385). DEDUCED: log entry 68. -/
def cpxFail (c : Cmd) (cause : Nat) (s : State) : State :=
  finish c.tag stJobFailed cause 0 0 (cpxSpoil c (addReg s (R.CPX_FAILS (bits (c.w 2) 1 0)) 1))
def cpxFault (c : Cmd) (a : Nat) (s : State) : State :=
  finishFault c a 26 (cpxSpoil c (addReg s (R.CPX_FAILS (bits (c.w 2) 1 0)) 1))

/-- A job succeeds. -/
def cpxSucceed (c : Cmd) (r0 r1 r2 rdN wrN : Nat) (s : State) : State :=
  let x := bits (c.w 2) 1 0
  let s := addReg s (R.CPX_JOBS x) 1
  let s := addBytes (16 + x) (R.CPX_IN_KIB x) rdN s
  finish c.tag stSuccess r0 r1 r2 (addBytes (32 + x) (R.CPX_OUT_KIB x) wrN s)

/-- The source of a job. -/
def cpxRead (c : Cmd) (n : Nat) (s : State) : State × MemRead :=
  if n = 0 then (s, { data := [], bad := none }) else dmaRead 26 22 (cpxSrcSp c) (cpxSrc c) n s

/-- The output of a job; a write that fails or is denied fails the job (R385). DEDUCED: log entry 68. -/
def cpxWrite (c : Cmd) (bs : List Byte) (s : State) : State × Option Nat :=
  if bs = [] then (s, none) else dmaWriteTold 26 22 (cpxDstSp c) (cpxDst c) bs s

/-- A job that begins with RESET first copies the dictionary to its journal (R385). -/
def cpxJournalAddr (s : State) (x : Nat) : Nat := rd64 s R.CPX_JOURNAL_LO R.CPX_JOURNAL_HI + x * 0x40000
def cpxJournal (x : Nat) (reset : Bool) (s : State) : State × Option Nat :=
  if reset then dmaWriteTold 26 22 spCellar (cpxJournalAddr s x) (gRead s (cpxDict x) 0x40000) s else (s, none)

/-- BAR4 offset and length of the entries a context's dictionary defines. -/
def cpxEntries (s : State) (x : Nat) : Nat × Nat := (cpxDict x + 4 * 258, 4 * (fld s (R.CPX_STATE x) 16 0 - 258))

/-- Does a job that reads a context's dictionary meet an uncorrectable word (R367). -/
def cpxBad (s : State) (x : Nat) : Bool := granaryBad s (cpxEntries s x).1 (cpxEntries s x).2

/-- A job ends with GRANARY_ERROR: the words it met count (R367, R385). -/
def cpxGranary (c : Cmd) (x : Nat) (s : State) : State :=
  cpxFail c 9 (granaryMet (cpxEntries s x).1 (cpxEntries s x).2 s)

/-- A job's output is written and its context committed. -/
def cpxFinish (c : Cmd) (x from_ : Nat) (co : Coder) (out : List Byte) (crc rdN : Nat) (s : State) : State :=
  match cpxWrite c out s with
  | (s, some a) => cpxFault c a s
  | (s, none) => cpxSucceed c out.length crc co.e rdN out.length (cpxCommit x from_ co s)

/-- COMPRESS (R382). -/
def cpxCompress (c : Cmd) (x : Nat) (s : State) : State :=
  let co := cpxLoad s x
  let after := rd s (R.CPX_RESET_AFTER x)
  let reset := bit (c.w 3) 8 || (decide (co.e = 65536 ∧ 0 < after ∧ after * 4096 ≤ co.since))
  if cpxRole s x ≠ 1 then cpxFail c 7 s
  else if cpxBad s x then cpxGranary c x s
  else match cpxJournal x reset s with
    | (s, some a) => cpxFault c a s
    | (s, none) =>
      let (s, r) := cpxRead c (c.w 6) s
      match r.bad with
      | some a => cpxFault c a s
      | none =>
        let done := Coder.encode (r.data.length + 1) r.data (if reset then (co.put 256).reset else co)
        if c.w 9 < done.bytes.length then cpxFail c 4 s
        else cpxFinish c x (if reset then 258 else co.e) done done.bytes (crc32c r.data) r.data.length s

/-- DECOMPRESS (R383). -/
def cpxDecompress (c : Cmd) (x : Nat) (s : State) : State :=
  if cpxRole s x ≠ 2 then cpxFail c 7 s
  else if cpxBad s x then cpxGranary c x s
  else
    let (s, r) := cpxRead c (c.w 6) s
    match r.bad with
    | some a => cpxFault c a s
    | none =>
      let co := cpxLoad s x
      let l := sourceBits r.data
      let reset := decide (bitsNat (l.take co.width) = 256)
      match cpxJournal x reset s with
      | (s, some a) => cpxFault c a s
      | (s, none) =>
        let (done, out, cause) := decodeCodes (c.w 9) (l.length + 1) true l [] co
        if cause ≠ 0 then cpxFail c cause s
        else cpxFinish c x (if reset then 258 else co.e) done out (crc32c out) r.data.length s

/-- The save image of a context (R386). -/
def cpxImage (s : State) (x : Nat) : List Byte :=
  let co := cpxLoad s x
  let head := wordBytes [0x31585043, cpxRole s x * 2 ^ 30 + ofBool co.prev.isSome * 2 ^ 29 + co.e, co.prev.getD 0,
    rd s (R.CPX_RESET_AFTER x), co.since]
  let body := wordBytes ((List.range 65536).map (fun k =>
    if co.e ≤ k then 0 else if k < 258 then Config.cpxMask k % 2 ^ 32 else gRead32 s (cpxDict x + 4 * k)))
  head ++ leBytes 4 (crc32c (head ++ body)) ++ List.replicate 4072 0 ++ body

/-- SAVE. -/
def cpxSave (c : Cmd) (x : Nat) (s : State) : State :=
  if cpxRole s x = 0 then cpxFail c 7 s
  else if c.w 9 < 266240 then cpxFail c 4 s
  else if cpxBad s x then cpxGranary c x s
  else
    let img := cpxImage s x
    match cpxWrite c img s with
    | (s, some a) => cpxFault c a s
    | (s, none) => cpxSucceed c 266240 (ofLe ((img.drop 20).take 4)) (cpxLoad s x).e 0 266240 s

/-- RESTORE. -/
def cpxRestore (c : Cmd) (x : Nat) (s : State) : State :=
  if c.w 6 < 266240 then cpxFail c 8 s
  else
    let (s, r) := cpxRead c 266240 s
    match r.bad with
    | some a => cpxFault c a s
    | none =>
      let img := r.data
      let w (i : Nat) : Nat := ofLe ((img.drop (4 * i)).take 4)
      let role := bits (w 1) 31 30
      let e := bits (w 1) 16 0
      if w 0 ≠ 0x31585043 ∨ w 5 ≠ crc32c (img.take 20 ++ img.drop 4096) ∨ (role ≠ 1 ∧ role ≠ 2) then cpxFail c 8 s
      else
        let s := gWrite s (cpxDict x + 4 * 258) ((img.drop (4096 + 4 * 258)).take (4 * (e - 258)))
        let s := wr s (R.CPX_STATE x) (role * 2 ^ 30 + ofBool (bit (w 1) 29) * 2 ^ 29 + e)
        let s := wr (wr (wr s (R.CPX_P x) (bits (w 2) 15 0)) (R.CPX_RESET_AFTER x) (bits (w 3) 15 0)) (R.CPX_SINCE_FULL x) (w 4)
        cpxSucceed c 0 (w 5) e 266240 0 s

/-- INIT. -/
def cpxInit (c : Cmd) (x : Nat) (s : State) : State :=
  cpxSucceed c 0 0 258 0 0 (cpxShow x (if bit (c.w 10) 16 then 2 else 1) (bits (c.w 10) 15 0) {} s)

/-- A CPX job completes. DEDUCED: log entry 68. -/
def cpxDone (c : Cmd) (s : State) : State :=
  let x := bits (c.w 2) 1 0
  match bits (c.w 3) 2 0 with
  | 0 => cpxCompress c x s
  | 1 => cpxDecompress c x s
  | 2 => cpxSave c x s
  | 3 => cpxRestore c x s
  | _ => cpxInit c x s

/-- CPX_JOB_COMPLETE; `links` are the link errors its reads meet (R366). -/
def execCpxJobComplete (w : WorkEnd) (s : State) : Host.Outcome State Fault Refusal :=
  live s (fun s => onWaiting w.tag.val 0x31 s (fun c => linked w.links (cpxDone c)))

/-- A write to CPX_JOURNAL (R385). -/
def cpxJournalStore (hi : Bool) (v : Nat) (s : State) : State :=
  if cpxInFlight s then setFlag s R.CPX_STATUS 3 true
  else if hi then wr s R.CPX_JOURNAL_HI (bits v 3 0)
  else wr s R.CPX_JOURNAL_LO (v / 4096 * 4096)

/-- CPX_JOURNAL_WRITE. -/
def execCpxJournalWrite (hi : Bool) (v : Word) (s : State) : Host.Outcome State Fault Refusal :=
  live s (cpxJournalStore hi v.toNat)

end Sys2Proof.Machine
end

