-- ==== Sys2Proof/Machine/Winnow.lean ====
section
/-!
DEFINITION. Machine/Winnow.lean: Winnow's part of the seal: latching (R35 step 3, R74, R87, R272, R273, R296), frame
selection (R37 to R43, R177), the checks of stored Husks (R75), the intent table (R89 to R93), age and class (R76 to R81),
coverage (R82, R281, R282, R291) and the release of frames (R261, R296, R310). The order of the steps stands in
Machine/Seal.lean.
-/

namespace Sys2Proof.Machine

/-- The layers of the present heads, as (head, layer). -/
def allLayers (s : State) : List (Nat × Nat) :=
  (List.range (Config.heads s.part)).flatMap (fun h => (List.range 16).map (fun l => (h, l)))

/-- Run an operation on every layer. -/
def eachLayer (f : Nat → Nat → State → State) (s : State) : State := (allLayers s).foldl (fun s q => f q.1 q.2 s) s

/-- The present heads and source channels. -/
def presentHeads (s : State) : List Nat := List.range (Config.heads s.part)
def presentSources (s : State) : List Nat := List.range (Config.sources s.part)

/-! ## Stored Husks (R75) -/

/-- An unsound Husk is reported once until its repair. `ix` names the Husk; its low 16 bits are the index the table of R75
gives, which several Husks may share. DEDUCED: log entry 36. -/
def huskFault (kind ix v k : Nat) (s : State) : State :=
  if s.faults.contains (kind, ix) then s
  else
    let s := addReg { s with faults := s.faults ++ [(kind, ix)] } R.WIN_HUSK_FAULT_COUNT 1
    let s := wr s R.WIN_HUSK_FAULT (2 ^ 31 + kind * 2 ^ 27 + ix % 65536)
    raise { code := 0x23, unit := ix % 65536, sub := kind, a0 := v, a1 := k } (setFld s R.WIN_STATUS 2 1 3)

/-- The faults of which a condition holds end. -/
def huskRepairs (gone : Nat → Nat → Bool) (s : State) : State :=
  let fs := s.faults.filter (fun f => !gone f.1 f.2)
  setFlag { s with faults := fs } R.WIN_STATUS 2 (!fs.isEmpty)
def huskRepair (kind ix : Nat) (s : State) : State := huskRepairs (fun k i => decide (k = kind ∧ i = ix)) s

/-- Is the Husk of a register pair sound. -/
def pairSound (s : State) (off : Nat) : Bool := huskSound (rd s off) (rd s (off + 4))

/-- A register pair is checked: an unsound one is a fault, a sound one its repair. DEDUCED: log entry 36. -/
def huskCheck (kind ix off : Nat) (s : State) : State :=
  if pairSound s off then (if s.faults.contains (kind, ix) then huskRepair kind ix s else s)
  else huskFault kind ix (rd s off) (rd s (off + 4)) s

/-- A stored Husk that no register shows: what damage its complement has met. -/
def damageAt (s : State) (kind ix : Nat) : Nat := smGet (fun _ => 0) s.damage (kind * 65536 + ix)
def damageCheck (kind ix v : Nat) (s : State) : State :=
  if damageAt s kind ix = 0 then s else huskFault kind ix v (complement v ^^^ damageAt s kind ix) s

/-- A unit has reached OFF: its state and ownership words are written anew (kinds 3 and 5). -/
def damageRepair (kind ix : Nat) (s : State) : State :=
  huskRepair kind ix { s with damage := smSet (fun _ => 0) s.damage (kind * 65536 + ix) 0 }

/-- The seal reads the state tables: what a word that proves uncorrectable held is lost (R367). A ledger word faults its
instance, whose event carries the sides of its first condition; a Husk word reads unsound from then on.
DEDUCED: log entry 65. -/
def stateWordLost (snap : State) (w : Nat) (s : State) : State :=
  let s := granaryHeal w 1 (granaryUncorrectable w s)
  let harm (key : Nat) (s : State) : State := { s with damage := smSet (fun _ => 0) s.damage key 1 }
  match Config.stateWord w with
  | .ledger kind i => if (ledgerInstances snap).contains (kind, i) then
      ledgerFail kind i ((ledgerSides snap kind i).headD (Side.eq 0 0)) s else s
  | .ownership c => if c < Config.sources s.part then harm (3 * 65536 + c) s else s
  | .dataPath ix => if (presentHeads s).contains (ix - 0x200) || (presentSources s).contains (ix - 0x300) then harm (5 * 65536 + ix) s
      else s
  | .pair off => if (regRow? off).any (fun r => decide (r.1.hk ≠ 0)) then wr s (off + 4) (rd s (off + 4) ^^^ 1) else s
  | .other => s

/-- The uncorrectable words of the state tables beside the provenance records. -/
def stateTables (snap s : State) : State :=
  (granaryBadWords s 0x01A5B000 0x65000).foldl (fun s w => stateWordLost snap w s) s

/-- The data-path words of a head, a source channel and a layer (R89). -/
def dpHead (s : State) (h : Nat) : Nat := unitState s 1 h * 2 ^ 30
def dpSrc (s : State) (c : Nat) : Nat := unitState s 0 c * 2 ^ 30 + srcKind s c * 2 ^ 28
def dpLayer (s : State) (h l : Nat) : Nat := layerWord s h l &&& 0x7000FFFF

/-! ## Step 3: latching -/

/-- Is a head, a channel, the rest of the device in DIRECT mode (R144). -/
def headDirect (s : State) (h : Nat) : Bool := flag s R.SHF_DIRECT_HEAD h
def srcDirect (s : State) (c : Nat) : Bool := flag s (R.SHF_DIRECT_SRC (c / 32)) (c % 32)
def devDirect (s : State) : Bool := flag s R.SHF_DIRECT_DEV 0

/-- Is an offset the V word of a source map pair, of a threshold pair. -/
def isMapPair (off : Nat) : Bool := inArray 0x302000 [(24, 0x4000), (16, 0x100)] off
def isThreshold (off : Nat) : Bool := decide (0x62000 ≤ off ∧ off < 0x65000)

/-- EV_ST_WRITE_IGNORED (R145, R272, R273), at most once a tick. -/
def stIgnored (off : Nat) (s : State) : State := raiseOnce 0 { code := 0x41, a0 := off } s

/-- Layers a set of map words enables. -/
def mapCount (s : State) (r : Nat → Nat) : Nat := ((allLayers s).filter (fun q => bit (r (R.HEAD_L_SRC q.1 q.2)) 30)).length

/-- An accepted source map pair takes effect, while its head is in DIRECT mode (R272, R273). SHF_GEN does not count it: no row
of R138 names it. DEDUCED: log entries 37, 51. -/
def mapEffect (off v : Nat) (s : State) : State :=
  if !headDirect s ((off - 0x302000) / 0x4000) then stIgnored off s
  else if bit v 30 && decide (256 < mapCount s (fun o => if o = off then v else rd s o)) then stIgnored off s
  else huskStore off v s

/-- An accepted pair takes effect: thresholds are stored clamped (R79). DEDUCED: log entry 51. -/
def pairEffect (off v : Nat) (s : State) : State :=
  if isMapPair off then mapEffect off v s
  else bumpGen (huskStore off (if isThreshold off then clampNat 1000 16000000 v else v) s)

/-- The pairs accepted since the last seal take effect (R74), in the order of their offsets. DEDUCED: log entry 51. -/
def pairsEffect (s : State) : State :=
  s.accepted.foldl (fun s p => match p.2 with
    | some v => pairEffect p.1 v s
    | none => s) { s with accepted := [] }

/-- A layer takes its map word; one whose word changes starts without a frame (R75, R275), and a direct address that waits
for a burst falls away where another value is latched now (R146). DEDUCED: log entry 37. -/
def layerLatch (old : State) (h l : Nat) (s : State) : State :=
  let i := 16 * h + l
  let s := huskCheck 2 i (R.HEAD_L_SRC h l) s
  let s := wr s (R.WIN_L_DP h l) (dpLayer s h l)
  let x := layerAt s i
  let fresh := decide (dpLayer old h l ≠ dpLayer s h l) || !layerEnabled s h l
  let touches := if fresh then x.touches.filter (fun t => decide (t = s.clock)) else x.touches
  let addr := x.addr.filter (fun p => decide (lrd s p.1 = p.2))
  setLayer i (if fresh || x.released then { touches := touches, addr := addr }
    else { cur := x.cur, old := x.cur.bind (picOf old h l), lastCap := x.lastCap, touches := touches, age := x.age,
           runSpan := x.runSpan, runStart := x.runStart, addr := addr }) s

/-- WB_EN of a head as latched. -/
def wbEnabled (s : State) (h : Nat) : Bool := lfld s (R.HEAD_CMP_CTRL h) 5 5 = 1

/-- Writeback of a head at the latch (R296). DEDUCED: log entry 46. -/
def wbLatch (old : State) (h : Nat) (s : State) : State :=
  let x := headAt s h
  let en := wbEnabled s h
  let x := if en && !wbEnabled old h then
      { x with wbNext := some (lfld s (R.HEAD_WB_BASE h) 23 0 * 4096, lfld s (R.HEAD_WB_CFG h) 27 8 * 4096,
                               lfld s (R.HEAD_WB_CFG h) 3 0) }
    else if en then x else { x with wbOn := false, wbNext := none }
  let busy := x.wbs.any (fun p => decide (p.2.state = 1 ∨ p.2.state = 4))
  let x := match x.wbNext with
    | some (base, stride, bufs) =>
      if busy then x
      else { x with wbOn := true, wbNext := none, wbBase := base, wbStride := stride, wbBufs := bufs, wbs := [] }
    | none => x
  setHead h x s

/-- The heads whose WB_EN goes to 0 at this latch. -/
def wbStopped (old s : State) : List Nat := (presentHeads s).filter (fun h => wbEnabled old h && !wbEnabled s h)

/-- A source channel whose start conditions hold runs from this seal on (R176, R252, R493). DEDUCED: log entries 37, 53. -/
def srcSealState (c : Nat) (s : State) : State :=
  if unitState s 0 c = 1 then startCredits c (unitRuns 0 c s) else s

/-- The ports whose rate or burst changes now bring their buckets up to date with the values that end (R357). -/
def portsSettle (s : State) : State :=
  ((List.range 24).filter (fun p => decide (rd s (R.DMC_PORT_REG p) ≠ lrd s (R.DMC_PORT_REG p)))).foldl
    (fun s p => setPort p (portFilled s p) s) s

/-- Step 3 of the seal of n; `old` is the state before the seal, and `timed` are the heads whose timing its sheaf has
changed. -/
def sealLatch (n : Nat) (old : State) (timed : List Nat) (s : State) : State :=
  let s := portsSettle (pairsEffect s)
  let s := { s with latched := s.regs }
  let s := setFlag s R.WIN_STATUS 4 (!hbDistinct (lrd s R.WIN_HB_FG) (lrd s R.WIN_HB_BG))
  let s := eachLayer (layerLatch old) s
  let s := (presentHeads s).foldl (fun s h => phaseLatch h s) s
  let s := (presentHeads s).foldl (fun s h => if retimesAt s (lrd old) timed h then retimeHead h s else s) s
  let s := (presentHeads s).foldl (fun s h => headokUpdate h (headSealState n h (wbLatch old h s))) s
  (presentSources s).foldl (fun s c => srcSealState c s) s

/-! ## Step 4: frame selection -/

/-- A candidate: slot or buffer, sequence number, capture time, and whether it may be sealed now (R38, R43). -/
structure Cand where
  slot : Nat
  seq : Nat
  cap : Int
  ready : Bool
deriving DecidableEq, Repr

/-- The order of candidates: capture time, then sequence number (R37). -/
def Cand.later (a b : Cand) : Bool := decide (b.cap < a.cap ∨ (b.cap = a.cap ∧ b.seq < a.seq))

/-- The latest capture time that is eligible for a layer (R37). -/
def eligibleTo (s : State) (h l t : Nat) : Int := (t : Int) - ((lfld s (R.HEAD_L_MIN_LAT h l) 23 0 * 1000 * nsUnit : Nat) : Int)

/-- Is a layer line-progressive now: set so, of a NATIVE channel whose bridge reports genlock (R42). -/
def lineProg (s : State) (h l c : Nat) : Bool :=
  bit (lrd s (R.HEAD_L_CTRL h l)) 3 && decide (srcKind s c = 1 ∧ fld s (R.SRC_INPUT c) 31 29 = 3)
    && (laneAt s (fld s (R.SRC_INPUT c) 20 16)).genlock

/-- The candidates of a layer's source channel. -/
def chanCands (s : State) (h l c : Nat) : List Cand :=
  (List.range 16).filterMap (fun k =>
    let x := slotAt s c k
    if x.state ≠ 0 && x.shown && !x.withdrawn then
      some { slot := k, seq := x.seq, cap := x.cap,
             ready := x.done.any (fun d => decide (d ≤ s.clock)) || (lineProg s h l c && decide (1 ≤ x.linesIn)) }
    else none)

/-- The candidates of a head's writeback (R294). -/
def wbCands (s : State) (k : Nat) : List Cand :=
  if !(headAt s k).wbOn then []
  else (List.range 8).filterMap (fun b =>
    let x := wbAt s k b
    match x.frame with
    | some f =>
      if x.state ≠ 0 && !x.writing && !x.withdrawn then
        some { slot := b, seq := f.n % 2 ^ 32, cap := f.cap, ready := decide (f.done ≤ s.clock) }
      else none
    | none => none)

/-- The one frame of a host buffer: the last TOUCH before T_N (R275). -/
def bufferCands (s : State) (h l : Nat) : List Cand :=
  let size := lrd s (R.HEAD_L_BUF_SIZE h l)
  if bufferFormat (lfld s (R.HEAD_L_BUF_FMT h l) 15 0) && decide (bits size 12 0 ≠ 0 ∧ bits size 28 16 ≠ 0) then
    match (layerAt s (16 * h + l)).touches.find? (fun t => decide (t ≠ s.clock)) with
    | some t => [{ slot := 0, seq := 0, cap := t, ready := true }]
    | none => []
  else []

/-- Every candidate of a layer, an empty source picture giving none (R274). -/
def layerCands (s : State) (h l : Nat) : List Cand :=
  let ix := layerIndex s h l
  if layerKind s h l = 0 then
    if unitPresent s.part .src ix && decide (unitState s 0 ix = 1 ∨ unitState s 0 ix = 2) then chanCands s h l ix else []
  else if layerKind s h l = 1 ∧ ix = 0 then bufferCands s h l
  else if layerKind s h l = 2 ∧ unitPresent s.part .head ix then wbCands s ix
  else []

/-- The latest eligible candidate (R37). -/
def bestCand (s : State) (h l t : Nat) : Option Cand :=
  ((layerCands s h l).filter (fun c => decide (c.cap ≤ eligibleTo s h l t))).foldl
    (fun best c => match best with
      | none => some c
      | some b => if c.later b then some c else some b) none

/-- Is a frame withdrawn (R75). -/
def frameWithdrawn (s : State) (f : Sealed) : Bool :=
  if f.kind = 0 then (slotAt s f.unit f.slot).withdrawn
  else if f.kind = 2 then (wbAt s f.unit f.slot).withdrawn
  else false

/-- The fault of a record: its index in EV_HUSK_FAULT, where writeback records count as those of channel 0x7F, and above it
which head's they are. DEDUCED: log entry 36. -/
def recIndex (f : Sealed) : Nat :=
  if f.kind = 0 then 16 * f.unit + f.slot else 65536 * (1 + f.unit) + 16 * 0x7F + f.slot

/-- Does the record of a frame read unsound. -/
def recordBad (s : State) (f : Sealed) : Bool := (sealedRec f).any (fun a => !recSound s a)

/-- The record of a frame is read: an unsound one withdraws the frame (R75, R367). -/
def recordCheck (f : Sealed) (s : State) : State :=
  match sealedRec f with
  | none => s
  | some a =>
    if recSound s a || frameWithdrawn s f then s
    else
      let (v, k) := recBadPair s a
      let s := huskFault 0 (recIndex f) v k (granaryMet a 64 s)
      if f.kind = 0 then updSlot f.unit f.slot (fun x => { x with withdrawn := true, kept := false }) s
      else setWb f.unit f.slot { wbAt s f.unit f.slot with withdrawn := true, kept := false } s

/-- A candidate as a sealed frame of a layer. -/
def Cand.sealed (s : State) (h l : Nat) (c : Cand) : Sealed :=
  { kind := layerKind s h l, unit := layerIndex s h l, slot := c.slot, seq := c.seq, cap := c.cap }

/-- The sound candidate of a layer: unsound ones are withdrawn on the way. DEDUCED: log entry 37. -/
def soundCand (h l t : Nat) : Nat → State → State × Option Cand
  | 0, s => (s, none)
  | fuel + 1, s =>
    match bestCand s h l t with
    | none => (s, none)
    | some c =>
      if recordBad s (c.sealed s h l) then soundCand h l t fuel (recordCheck (c.sealed s h l) s) else (s, some c)

/-- The capture time that R39 compares a candidate with: that of the last sound frame the layer sealed. -/
def lastSound (s : State) (x : Layer) : Option Int :=
  match x.cur with
  | some f => if frameWithdrawn s f then x.lastCap else some f.cap
  | none => none

/-- A layer is late: it keeps its frame, or stays ABSENT (R40, R41). DEDUCED: log entry 37. -/
def layerLate (i : Nat) (c : Cand) (s : State) : State :=
  let s := addReg s (R.TCK_LATE i) 1
  match (layerAt s i).cur with
  | some f => raise { code := 0x12, unit := i, a0 := c.seq, a1 := f.seq } s
  | none => s

/-- A candidate before the layer's frames (R38 to R43). An incomplete candidate with the capture time of the frame before
and a higher sequence number leaves that frame, without counting the layer late. DESIGN CHOICE: log entry 87. -/
def layerTake (h l : Nat) (c : Cand) (s : State) : State :=
  let i := 16 * h + l
  let x := layerAt s i
  let ref := lastSound s x
  if ref.any (fun r => decide (c.cap < r)) then s
  else if c.ready then setLayer i { x with cur := some (c.sealed s h l), lastCap := ref } s
  else if ref.any (fun r => decide (c.cap = r)) then s
  else layerLate i c s

/-- Does a layer's channel drain, or is it off, so that the layer holds no frame (R177). -/
def channelGone (s : State) (h l : Nat) : Bool :=
  decide (layerKind s h l = 0 ∧ (unitState s 0 (layerIndex s h l) = 0 ∨ unitState s 0 (layerIndex s h l) = 3))

/-- Step 4 for one layer; in QUIET every layer keeps its frame (R441). DEDUCED: log entries 37, 63. -/
def layerSelect (t : Nat) (h l : Nat) (s : State) : State :=
  let i := 16 * h + l
  if !layerEnabled s h l then s
  else if channelGone s h l then setLayer i { layerAt s i with cur := none, lastCap := none } s
  else
    let s := match (layerAt s i).cur with
      | some f => recordCheck f s
      | none => s
    if quiet s then s else
    match soundCand h l t 17 s with
    | (s, some c) => layerTake h l c s
    | (s, none) => s

/-! ## Step 6: intent (R89 to R93) -/

/-- Does a running intent match a unit's state: RUN = 1, RUN = 0 (R90). -/
def runMatches (s : State) (kind u : Nat) (run : Bool) : Bool :=
  let st := unitState s kind u
  if run then decide (st = 1 ∨ st = 2)
      || (decide (st = 3) && (enableQueued s kind u || (decide (kind = 1) && decide ((headAt s u).restart = 2))))
  else decide (st = 0 ∨ st = 3)

/-- An intent entry: kind (0 head, 1 source, 2 layer) and index, offsets of its words with their fault indices, whether it
mismatches, and the words its event carries. -/
structure Intent where
  kind : Nat
  ix : Nat
  words : List (Nat × Nat)
  bad : Bool
  ev : Ev
deriving DecidableEq, Repr

/-- The entry of a head. -/
def intentHead (s : State) (h : Nat) : Intent :=
  let w := rd s (R.WIN_INTENT_HEAD h)
  { kind := 0, ix := h, words := [(0x200 + h, R.WIN_INTENT_HEAD h)], bad := bit w 31 && !runMatches s 1 h (bit w 30),
    ev := { code := 0x25, unit := h, sub := 0, a0 := w, a1 := dpHead s h } }

/-- The entry of a source channel. -/
def intentSrc (s : State) (c : Nat) : Intent :=
  let w := rd s (R.WIN_INTENT_SRC_A c)
  let d := rd s (R.WIN_INTENT_SRC_DECL c)
  let dp := rd s (R.WIN_S_DP_DECL c)
  let st := unitState s 0 c
  let ok := runMatches s 0 c (bit w 30) && (!bit w 30 ||
    (decide (bits w 29 28 = srcKind s c) && (decide (st ≠ 1 ∧ st ≠ 2) || decide (d = dp))))
  { kind := 1, ix := c, words := [(0x300 + c, R.WIN_INTENT_SRC_A c), (0x400 + c, R.WIN_INTENT_SRC_DECL c)],
    bad := bit w 31 && !ok,
    ev := { code := 0x25, unit := c, sub := 1, a0 := w, a1 := dpSrc s c, a2 := d, a3 := dp } }

/-- The entry of a layer. The index of EV_INTENT_MISMATCH is h, s or 16h + l. DESIGN CHOICE: log entry 87. -/
def intentLayer (s : State) (h l : Nat) : Intent :=
  let i := 16 * h + l
  let w := rd s (R.WIN_INTENT_LAYER h l)
  let dp := dpLayer s h l
  let ok := decide (bit w 30 = bit dp 30) && (!bit w 30 || decide (bits w 29 0 = bits dp 29 0))
  { kind := 2, ix := i, words := [(i, R.WIN_INTENT_LAYER h l)], bad := bit w 31 && !ok,
    ev := { code := 0x25, unit := i, sub := 2, a0 := w, a1 := dp } }

/-- The whole intent table. -/
def intents (s : State) : List Intent :=
  (presentHeads s).map (intentHead s) ++ (presentSources s).map (intentSrc s) ++ (allLayers s).map (fun q => intentLayer s q.1 q.2)

/-- One entry is compared, unless a word of it is unsound; a mismatch is raised at its first seal, and ends when the entry is
no longer compared too. DESIGN CHOICE: log entry 87. -/
def intentStep (e : Intent) (s : State) : State :=
  let s := e.words.foldl (fun s w => huskCheck 4 w.1 w.2 s) s
  let rest := s.mismatches.filter (fun m => decide (m ≠ (e.kind, e.ix)))
  if e.bad && e.words.all (fun w => pairSound s w.2) then
    if s.mismatches.contains (e.kind, e.ix) then s else raise e.ev { s with mismatches := s.mismatches ++ [(e.kind, e.ix)] }
  else { s with mismatches := rest }

/-- Step 6 of the seal. -/
def sealIntent (s : State) : State :=
  let s := (presentHeads s).foldl (fun s h => damageCheck 5 (0x200 + h) (dpHead s h) s) s
  let s := (presentSources s).foldl (fun s c => damageCheck 5 (0x300 + c) (dpSrc s c) s) s
  let s := (intents s).foldl (fun s e => intentStep e s) s
  wr (setFlag s R.WIN_STATUS 3 (!s.mismatches.isEmpty)) R.WIN_MISMATCH_COUNT s.mismatches.length

/-- Does a layer's data-path or intent word name a channel (R91). -/
def layerNames (s : State) (h l c : Nat) : Bool :=
  let names (w : Nat) : Bool := bit w 30 && decide (bits w 29 28 = 0 ∧ bits w 15 0 = c)
  let w := rd s (R.WIN_INTENT_LAYER h l)
  names (dpLayer s h l) || (bit w 31 && names w)

/-- Does a mismatch cover a layer (R91). -/
def mismatchCovers (s : State) (h l : Nat) (m : Nat × Nat) : Bool :=
  if m.1 = 0 then decide (m.2 = h) else if m.1 = 1 then layerNames s h l m.2 else decide (m.2 = 16 * h + l)

/-! ## Coverage (R82, R291) -/

/-- A rectangle of the raster: left, top, right, bottom. -/
abbrev Rect := Nat × Nat × Nat × Nat

/-- A layer's destination clipped to the raster; none without a pixel in it. -/
def clippedRect (s : State) (h l : Nat) : Option Rect :=
  let g := geo s h l
  let x1 := min (g.dx + g.dw).toNat (hActive s h)
  let y1 := min (g.dy + g.dh).toNat (vActive s h)
  if g.dx.toNat < x1 ∧ g.dy.toNat < y1 then some (g.dx.toNat, g.dy.toNat, x1, y1) else none

/-- Does a rectangle hold a point; do two overlap. -/
def Rect.has (r : Rect) (x y : Nat) : Bool := decide (r.1 ≤ x ∧ x < r.2.2.1 ∧ r.2.1 ≤ y ∧ y < r.2.2.2)
def Rect.meets (a b : Rect) : Bool :=
  decide (a.1 < b.2.2.1 ∧ b.1 < a.2.2.1 ∧ a.2.1 < b.2.2.2 ∧ b.2.1 < a.2.2.2)

/-- Is a rectangle the union of parts of others: an uncovered point moved left and up as far as it stays uncovered comes
to a corner of these coordinates. -/
def Rect.within (r : Rect) (os : List Rect) : Bool :=
  let xs := r.1 :: (os.map (fun o => o.2.2.1)).filter (fun x => decide (r.1 < x ∧ x < r.2.2.1))
  let ys := r.2.1 :: (os.map (fun o => o.2.2.2)).filter (fun y => decide (r.2.1 < y ∧ y < r.2.2.2))
  xs.all (fun x => ys.all (fun y => os.any (fun o => o.has x y)))

/-- Is a layer fully covered. -/
def fullyCovered (s : State) (h l : Nat) : Bool :=
  match clippedRect s h l with
  | none => true
  | some r => r.within (((above (blendOrder s h) l).filter (layerOpaque s h)).filterMap (clippedRect s h))

/-- Does the glyph rectangle of R86 lie wholly in the layer's visible region and under no enabled layer (R77). -/
def glyphClear (s : State) (h l : Nat) : Bool :=
  let g := geo s h l
  let o := glyphOrigin s h l g
  let x := g.dx + o.1
  let y := g.dy + o.2
  let r : Rect := (x.toNat, y.toNat, x.toNat + 32, y.toNat + 32)
  decide (0 ≤ o.1 ∧ 0 ≤ o.2 ∧ o.1 + 32 ≤ g.dw ∧ o.2 + 32 ≤ g.dh ∧ 0 ≤ x ∧ 0 ≤ y ∧ x + 32 ≤ hActive s h ∧ y + 32 ≤ vActive s h)
    && !((above (blendOrder s h) l).filter (layerEnabled s h)).any (fun k => (clippedRect s h k).any (fun q => r.meets q))

/-! ## Step 7: age and class (R76 to R81) -/

/-- Rank of a class code (R63). -/
def classRank (c : Nat) : Nat := [5, 0, 1, 2, 3, 4, 6].getD c 0

/-- The channel a layer draws from. -/
def layerChannel (s : State) (h l : Nat) : Option Nat :=
  if layerEnabled s h l ∧ layerKind s h l = 0 then some (layerIndex s h l) else none

/-- Does a layer depend on a ledger instance (R60). DEDUCED: log entry 33. -/
def ledgerCovers (s : State) (h l : Nat) (f : Nat × Nat) : Bool :=
  let src := layerChannel s h l
  let i := f.2
  if f.1 = 0 then decide (src = some i)
  else if f.1 = 1 then src.any (fun c => s.tck.entries.any (fun e => decide (e.pool = i ∧ e.kind = 0 ∧ e.unit = c)))
  else if f.1 = 2 then src.any (fun c => hostFed s c (if i = 0xFFFF then none else some i))
  else if f.1 = 3 then src.any (fun c => decide (flowOf s c = some i))
  else (lanesOf s h).contains i || src.any (fun c =>
    decide (srcKind s c = 1 ∧ fld s (R.SRC_INPUT c) 31 29 = 3 ∧ fld s (R.SRC_INPUT c) 20 16 = i))

/-- Does a Husk fault cover a layer (R75, R93). -/
def huskCovers (s : State) (h l : Nat) (f : Nat × Nat) : Bool :=
  let ix := f.2
  if f.1 = 0 then (layerAt s (16 * h + l)).cur.any (fun c => decide (c.kind ≠ 1 ∧ recIndex c = ix) && frameWithdrawn s c)
  else if f.1 = 1 ∨ f.1 = 2 then decide (ix % 65536 = 16 * h + l)
  else if f.1 = 3 then decide (layerChannel s h l = some ix)
  else if ix < 0x200 then decide (ix = 16 * h + l)
  else if ix < 0x300 then decide (ix = 0x200 + h)
  else layerNames s h l (if ix < 0x400 then ix - 0x300 else ix - 0x400)

/-- What a frame's record, or a host buffer, tells the class: taints, SIG_VALID, STAMP_REPEAT, SIG_RUN, RUN_SPAN. -/
def frameFacts (s : State) (f : Sealed) : Nat × Bool × Bool × Nat × Nat :=
  match sealedRec f with
  | some a => (recTaints s a, recSigValid s a, recRepeat s a, recSigRun s a, recSpan s a)
  | none => (0, false, false, 1, 0)

/-- The capture time of the first frame of a sealed frame's signature run (R88). -/
def runFirst (s : State) (f : Sealed) : Int := if f.kind = 0 then (slotAt s f.unit f.slot).first else f.cap

/-- FROZEN_N for a frame, and the thresholds of a layer in µs. DEDUCED: log entry 38. -/
def frozenN (s : State) (f : Sealed) : Nat := if f.kind = 0 then lfld s (R.WIN_S_FREEZE f.unit) 7 0 else 255
def liveMax (s : State) (h l : Nat) : Nat := lfld s (R.WIN_L_LIVEMAX h l) 23 0
def staleMin (s : State) (h l : Nat) : Nat := lfld s (R.WIN_L_STALEMIN h l) 23 0

/-- The age of a frame at T_N in ns (R76); none when it lies in the future (R34). -/
def ageOf (s : State) (t : Nat) (f : Sealed) : Option Nat :=
  if (t : Int) < f.cap then none else some (((t : Int) - f.cap) / (nsUnit : Int)).toNat |>.map (· + s.tck.lastU)

/-- The conditions of R77 and R441 that hold, each with the class it yields and its cause bit (0 AGE to 8 INTENT).
DEDUCED: log entry 38. -/
def classConds (s : State) (h l t : Nat) : List (Nat × Nat) :=
  let en := layerEnabled s h l
  let x := layerAt s (16 * h + l)
  let cond (b : Bool) (c cause : Nat) : List (Nat × Nat) := if b then [(c, cause)] else []
  let frame : List (Nat × Nat) := match x.cur with
    | none => []
    | some f =>
      let (taints, sig, rep, run, _) := frameFacts s f
      let live := liveMax s h l * 1000
      let stale := staleMin s h l * 1000
      let aged := bit (lrd s (R.WIN_L_MARK h l)) 14
      (match ageOf s t f with
        | some a => cond (decide (live < a ∧ a < stale)) 2 0 ++ cond (decide (stale ≤ a)) 4 0
        | none => [(6, 5)])
        ++ cond ((bit taints 4 && !sig) || bit taints 5 || bit taints 3) 2 1
        ++ cond (bits taints 2 0 ≠ 0) (if aged then 2 else 3) 3
        ++ cond ((sig && decide (frozenN s f < run)) || rep) 5 4
        ++ cond (quiet s) 4 0
  frame ++ cond (layerDecimated s h l) 2 1
    ++ cond (en && !fullyCovered s h l && !glyphClear s h l) 2 2
    ++ cond (s.tck.faults.any (ledgerCovers s h l)) 6 6
    ++ cond (s.faults.any (huskCovers s h l)) 6 7
    ++ cond (s.mismatches.any (mismatchCovers s h l)) 6 8

/-- The class and the cause bits of a layer (R77). DEDUCED: log entry 38. -/
def classOf (s : State) (h l t : Nat) : Nat × Nat :=
  let cs := classConds s h l t
  let base := if (layerAt s (16 * h + l)).cur.isSome then 1 else 0
  (cs.foldl (fun c d => if classRank c < classRank d.1 then d.1 else c) base, cs.foldl (fun m d => m ||| 2 ^ d.2) 0)

/-- The thresholds of a layer are read, each a Husk of its own (R75). DEDUCED: log entry 38. -/
def thresholdCheck (h l : Nat) (s : State) : State :=
  huskCheck 1 (65536 + 16 * h + l) (R.WIN_L_STALEMIN h l) (huskCheck 1 (16 * h + l) (R.WIN_L_LIVEMAX h l) s)

/-- Step 7 for one layer. DEDUCED: log entry 38. -/
def layerClassify (t : Nat) (h l : Nat) (s : State) : State :=
  let i := 16 * h + l
  let s := thresholdCheck h l s
  let (c, cause) := classOf s h l t
  let x := layerAt s i
  let was := fld s (R.WIN_L_CLASS h l) 2 0
  let age := x.cur.map (fun f => (ageOf s t f).getD 0)
  let slot := (x.cur.map Sealed.slot).getD 0
  let s := wr s (R.WIN_L_CLASS h l)
    (cause * 2 ^ 16 + slot * 2 ^ 8 + ofBool (layerEnabled s h l && fullyCovered s h l) * 2 ^ 3 + c)
  let s := wr s (R.WIN_L_AGE h l) (match age with
    | some a => min (a / 1000) 0xFFFFFFFF
    | none => 0xFFFFFFFF)
  let s := setLayer i { x with age := age.getD 0
                               runSpan := (x.cur.map (fun f => (frameFacts s f).2.2.2.2)).getD 0
                               runStart := (x.cur.map (runFirst s)).getD 0 } s
  if was ≠ c ∧ (was = 1 ∨ c = 1) then raise { code := 0x24, unit := i, sub := was * 8 + c, a0 := cause } s else s

/-- Layers of a class at this seal. -/
def classCount (s : State) (c : Nat) : Nat := ((allLayers s).filter (fun q => decide (layerClass s q.1 q.2 = c))).length

/-- Step 7 of the seal. -/
def sealClass (t : Nat) (s : State) : State :=
  let s := eachLayer (layerClassify t) s
  wr s R.WIN_SUMMARY (classCount s 6 * 2 ^ 16 + classCount s 1)

/-! ## Step 8: line stores and fetch (R281, R282, R286) -/

/-- Twice the fetch bytes of a format (R276). -/
def fetchB2 (f : Nat) : Nat := if f = 0x10 then 3 else if f = 0x11 then 6 else 8

/-- A layer's term of the fetch sum; `r` gives the FORMAT of a channel and of a host buffer. -/
def fetchTerm (s : State) (h l : Nat) : Nat :=
  let g := geo s h l
  let f := if layerKind s h l = 0 then srcFormat s (layerIndex s h l)
    else if layerKind s h l = 1 then lfld s (R.HEAD_L_BUF_FMT h l) 15 0 else 0x30
  g.cw1 * g.ch1 * fetchB2 f

/-- The units of the line store a layer uses. DEDUCED: log entry 39. -/
def unitsUsed (g : Geo) : Nat :=
  if !g.nearest then g.need else if g.used = 0 then 0 else ceilDiv (2 * ceilDiv g.cw1 (2 ^ g.m) * 4) 8192

/-- Step 8 for one layer: its status, and EV_LB_CLAMP at the seal at which the clamp begins. DEDUCED: log entry 38. -/
def layerStatus (h l : Nat) (s : State) : State :=
  let g := geo s h l
  let en := layerEnabled s h l
  let near := en && g.nearest
  let was := flag s (R.HEAD_L_STATUS h l) 2
  let s := wr s (R.HEAD_L_STATUS h l) ((if near then min 7 g.m else 0) * 2 ^ 9 + min 7 g.kv * 2 ^ 6 + min 7 g.kh * 2 ^ 3 + ofBool near * 4
    + ofBool (layerDecimated s h l) * 2 + ofBool en)
  let s := wr s (R.HEAD_L_NEED h l) (min 127 g.need * 2 ^ 16 + (if en then min 127 (unitsUsed g) else 0))
  if near && !was then raise { code := 0x80, unit := 16 * h + l, a0 := g.need, a1 := g.used } s else s

/-- The fetch sum of a head, in thousandths of a byte per output pixel. -/
def headFetch (s : State) (h : Nat) : Nat :=
  let sum := (((List.range 16).filter (layerEnabled s h)).map (fetchTerm s h)).foldl (· + ·) 0
  min 0xFFFF (500 * sum / max 1 (hActive s h * vActive s h))

/-- Step 8 of the seal. -/
def sealCover (s : State) : State :=
  let s := eachLayer layerStatus s
  let s := (presentHeads s).foldl (fun s h => wr s (R.HEAD_FETCH h) (headFetch s h)) s
  let n (f : Nat → Nat → Bool) : Nat := ((allLayers s).filter (fun q => f q.1 q.2)).length
  wr s R.CMP_STATUS (n (layerDecimated s) * 2 ^ 16 + n (layerEnabled s))

/-! ## Step 9: readers and releases (R261, R296, R310) -/

/-- The layers that hold a frame. -/
def holders (s : State) (kind unit slot : Nat) : Nat :=
  (s.layers.filter (fun p => !p.2.released && p.2.cur.any (fun f => decide (f.kind = kind ∧ f.unit = unit ∧ f.slot = slot)))).length

/-- Layers that show a head's writeback release it, and its RETAINED buffer is FREE (R296). DEDUCED: log entry 37. -/
def wbRelease (h : Nat) (s : State) : State :=
  let s := { s with layers := s.layers.map (fun p =>
    (p.1, if p.2.cur.any (fun f => decide (f.kind = 2 ∧ f.unit = h)) then { p.2 with released := true } else p.2)) }
  let x := headAt s h
  let wbs := x.wbs.foldl (fun m q => smSet (fun _ => {}) m q.1 { q.2 with kept := false }) x.wbs
  setHead h { x with wbs := wbs } s

/-- The first seal after a disable: the head's layers release their frames (R310). -/
def headRelease (h : Nat) (s : State) : State :=
  let x := headAt s h
  if x.disabling && !x.sealedOff then
    let s := setHead h { x with sealedOff := true } s
    let s := (List.range 16).foldl (fun s l => setLayer (16 * h + l) { layerAt s (16 * h + l) with released := true } s) s
    wbRelease h s
  else s

/-- Does a frame of a channel make an earlier one redundant (R261). -/
def eligibleAll (s : State) (t c : Nat) (y : Slot) : Bool :=
  (allLayers s).all (fun q => !decide (layerChannel s q.1 q.2 = some c) || decide (y.cap ≤ eligibleTo s q.1 q.2 t))
def Slot.laterThan (y x : Slot) : Bool := decide (x.cap < y.cap ∨ (x.cap = y.cap ∧ x.seq < y.seq))

/-- Step 9 for a channel: reader counts, and the frames that are retained no longer. DEDUCED: log entry 37. -/
def chanRelease (t c : Nat) (s : State) : State :=
  let gone := decide (unitState s 0 c = 3)
  let kept := ((List.range 16).map (slotAt s c)).filter (fun y => y.kept && !y.withdrawn)
  let redundant (x : Slot) : Bool := kept.any (fun y => y.laterThan x && eligibleAll s t c y)
  (List.range 16).foldl (fun s k =>
    updSlot c k (fun x => { x with readers := holders s 0 c k, kept := x.kept && !gone && !redundant x,
                                   ref := x.ref && !gone, wait := x.wait && !gone }) s) s

/-- Step 9 for a head's writeback buffers. -/
def wbReaders (h : Nat) (s : State) : State :=
  (headAt s h).wbs.foldl (fun s p => setWb h p.1 { p.2 with readers := holders s 2 h p.1 } s) s

/-- Step 9 of the seal at T_N = t. EV_HUSK_FAULT of an ownership word (kind 3) carries 0 as its V word.
DESIGN CHOICE: log entry 87. -/
def sealRelease (t : Nat) (stopped : List Nat) (s : State) : State :=
  let s := stopped.foldl (fun s h => wbRelease h s) s
  let s := (presentHeads s).foldl (fun s h => headRelease h s) s
  let s := s.chans.foldl (fun s p => chanRelease t p.1 s) s
  let s := (presentHeads s).foldl (fun s h => wbReaders h s) s
  let s := (presentSources s).foldl (fun s c => damageCheck 3 c 0 s) s
  huskRepairs (fun kind ix => decide (kind = 0) && !s.layers.any (fun p => p.2.cur.any (fun f =>
    decide (f.kind ≠ 1 ∧ recIndex f = ix) && !p.2.released && frameWithdrawn s f))) s

/-! ## Touches of host buffers (R275) -/

/-- A write of TOUCH = 1 is accepted: the local time is kept, beside that of the touch before it, since one accepted in the
update of T_N counts after T_N. -/
def touchTake (h l : Nat) (s : State) : State :=
  let x := layerAt s (16 * h + l)
  if x.touches.head? = some s.clock then s
  else setLayer (16 * h + l) { x with touches := (s.clock :: x.touches).take 2 } s

/-- LAYER_TOUCH; `hm` is what host software has stored in its memory before it. -/
def execLayerTouch (h : Fin 24) (l : Fin 16) (hm : Cells) (s : State) : Host.Outcome State Fault Refusal :=
  live s (fun s =>
    let s := hostStore hm s
    if unitPresent s.part .head h.val then touchTake h.val l.val s else s)

end Sys2Proof.Machine
end

