-- ==== Sys2Proof/Machine/ClockStep.lean ====
section
/-!
DEFINITION. Machine/ClockStep.lean: steps of the local clock (R116, R117) with what follows them: the tick (R32, R33,
R488), the triggers (R125) and the heads (R311).
-/

namespace Sys2Proof.Machine

/-- The local clock steps to a time. DEDUCED: log entry 31. -/
def clockStep (t : Nat) (s : State) : State := headsStepped (triggersStepped (tickStepped s.clock { s with clock := t }))

/-- The pending offset of a refused sample, in units of 2⁻¹⁶ ns. -/
def pendingOfs (s : State) : Int := sint 64 (rd64 s R.TIM_PEND_OFS_LO R.TIM_PEND_OFS_HI)

/-- The STEP_ACCEPT pair takes effect (R116); a step that would pass the epoch ends at it. DEDUCED: log entry 31. DESIGN
CHOICE: log entry 88. -/
def stepTake (v : Nat) (s : State) : State :=
  let s := huskStore R.TIM_STEP_ACCEPT v s
  let id := fld s R.TIM_PEND_ID 15 0
  if decide (v = id) && flag s R.TIM_STATUS 3 then
    let θ := pendingOfs s
    let s := raise { code := 0x33, a0 := uint 64 θ, a1 := uint 64 θ / 2 ^ 32, a2 := id } (setFlag s R.TIM_STATUS 3 false)
    clockStep ((s.clock : Int) - θ * 65536).toNat s
  else raise { code := 0x34, a0 := v, a1 := id } (setFlag s R.TIM_STATUS 7 true)

/-- The pair taking effect outside a sheaf counts in SHF_GEN (R138). -/
def stepAccept (v : Nat) (s : State) : State := stepTake v (bumpGen s)

/-- STEP_ACCEPT: the K write of the TIM_STEP_ACCEPT pair. -/
def execStepAccept (k : Word) (s : State) : Host.Outcome State Fault Refusal :=
  live s (huskK R.TIM_STEP_ACCEPT k.toNat stepAccept)

/-- A write of GO to TIM_SET_CMD (R117). DEDUCED: log entry 31. -/
def timeSet (s : State) : State :=
  if decide (timeState s = 0) && !flag s R.TIM_STATUS 3 then
    clockStep (mkTime (rd64 s R.TIM_SET_SEC_LO R.TIM_SET_SEC_HI) (min 999999999 (fld s R.TIM_SET_NS 29 0)) (rd s R.TIM_SET_FRAC)) s
  else raise { code := 0x35, sub := timeState s } (setFlag s R.TIM_STATUS 6 true)

/-- TIME_SET: a write to TIM_SET_CMD. -/
def execTimeSet (v : Word) (s : State) : Host.Outcome State Fault Refusal :=
  live s (fun s => if bit v.toNat 0 then timeSet s else s)

end Sys2Proof.Machine
end

