-- ==== Sys2Proof/Machine/Keys.lean ====
section
/-!
DEFINITION. Machine/Keys.lean: the touch unit and Demal's keys (R388 to R410), and the firing of the triggers, of which
trigger 10 starts touch scans and trigger 11 calibrations (R123, R389, R458).
-/

namespace Sys2Proof.Machine

/-! ## State of keys -/

/-- A key. -/
def keyAt (s : State) (k : Nat) : KeySt := smGet (fun _ => {}) s.tch.keys k
def setKey (k : Nat) (x : KeySt) (s : State) : State :=
  { s with tch := { s.tch with keys := smSet (fun _ => {}) s.tch.keys k x } }

/-- The 64 keys. -/
def allKeys : List Nat := List.range 64

/-- Code of a key's state (R394). A key that starts inside its window has no baseline yet and reads SUSPECT. -/
def KeySt.code (x : KeySt) : Nat :=
  if x.phase = 0 then 0 else if x.phase = 4 then 4 else if x.cfg.guard then 5
  else if x.phase = 2 then 2 else if x.phase = 3 then 3 else 1

/-- T and H of a key (R393), and its debounce counts. DEDUCED: log entry 69. -/
def keyLevels (p : PanelSt) (c : KeyCfg) : Int × Int :=
  let t := if p.glove && !c.guard then c.gloveTh else c.touchTh
  if p.noise then ((ceilDiv (t * p.noisePct) 100 : Nat), (ceilDiv (c.hyst * p.noisePct) 100 : Nat)) else ((t : Nat), (c.hyst : Nat))
def debounceOn (p : PanelSt) (c : KeyCfg) : Nat := c.on + (if p.noise then 2 else 0)
def debounceOff (p : PanelSt) (c : KeyCfg) : Nat := c.off + (if p.noise then 2 else 0)

/-- The delta of a key. -/
def keyDelta (s : State) (k : Nat) : Int := (fld s (R.TCH_K_RAW k) 15 0 : Int) - (fld s (R.TCH_K_BASE k) 15 0 : Int)

/-- The slice that converts a key in a scan: its own, or the spare that covers it (R392). -/
def keySlice (q : TouchScan) (k : Nat) : Nat := if q.cover = some (k / 8) then 8 else k / 8

/-- An event of a key with a time (R401). -/
def keyEvent (code k sub time a2 : Nat) : Ev :=
  { code := code, unit := k, sub := sub, a0 := timeArg time, a1 := timeArg time / 2 ^ 32, a2 := a2 }

/-- State and events of a scan in processing: events are raised last (step 6). -/
abbrev Proc := State × List Ev

/-- A key's new state with events, which a guard channel does not raise (R403). -/
def Proc.put (k : Nat) (x : KeySt) (evs : List Ev) (p : Proc) : Proc :=
  (setKey k x p.1, if x.cfg.guard then p.2 else p.2 ++ evs)

/-! ## Processing a scan (R394 to R405) -/

/-- A touch that was reported ends by a fault or by KEY_CONFIG; the delta of that release is a value the manual does not
state (R394, R401, R409). DESIGN CHOICE: log entry 71. -/
def forcedRelease (q : TouchScan) (k : Nat) (p : Proc) : Proc :=
  let s := p.1
  if fld s (R.TCH_K_STATE k) 2 0 = 3 then
    ({ s with draws := s.draws + 1 }, p.2 ++ [keyEvent 0xA8 k 0 q.time (Config.freeWord s.draws).toNat])
  else p

/-- New settings, and step 1: keys of slices in FAULT; a key that starts waits for its step (R394, R395, R409).
DEDUCED: log entry 69. -/
def keyBegin (q : TouchScan) (p : Proc) (k : Nat) : Proc :=
  let x := keyAt p.1 k
  let (p, x) := if x.fresh then (forcedRelease q k p, { cfg := x.cfg, phase := if x.cfg.en then 7 else 0 }) else (p, x)
  let x : KeySt := if x.cfg.en ∧ x.phase = 0 then { x with phase := 7 } else x
  let fault := flag p.1 (R.TCH_SLICE_STATUS (keySlice q k)) 31
  if !x.cfg.en then (setKey k x p.1, p.2)
  else if fault then
    let p := if x.phase = 3 then forcedRelease q k p else p
    (setKey k { cfg := x.cfg, phase := 4 } p.1, p.2)
  else if x.phase = 4 then (setKey k { cfg := x.cfg, phase := 7 } p.1, p.2)
  else (setKey k x p.1, p.2)

/-- Drive-noise mode follows the noise metric of a scan (R405). DEDUCED: log entry 70. -/
def noiseStep (metric : Nat) (n : PanelSt) : PanelSt :=
  if !n.noiseAuto then { n with noise := false, enterRun := 0, exitRun := 0 }
  else if n.noise then
    let r := if metric ≤ n.noiseExit then n.exitRun + 1 else 0
    if 100 ≤ r then { n with noise := false, enterRun := 0, exitRun := 0 } else { n with exitRun := r }
  else
    let r := if n.noiseEnter ≤ metric then n.enterRun + 1 else 0
    if 3 ≤ r then { n with noise := true, enterRun := 0, exitRun := 0 } else { n with enterRun := r }

/-- Step 2: modes, HOP of drive-noise mode, and EV_TOUCH_MODE at every change (R404, R405). -/
def modeStep (p : Proc) : Proc :=
  let s := p.1
  let metric := fld s R.TCH_NOISE 15 0
  let n := noiseStep metric s.tch.panel
  let s := if n.noise then setFlag s R.TCH_CTRL 6 true
    else if s.tch.panel.noise then setFlag s R.TCH_CTRL 6 false
    else s
  let mode := ofBool n.noise * 4 + ofBool n.water * 2 + ofBool n.glove
  let was := fld s R.TCH_STATUS 15 13
  let s := setFld { s with tch := { s.tch with panel := n } } R.TCH_STATUS 15 13 mode
  (s, if mode = was then p.2 else p.2 ++ [{ code := 0xAE, sub := mode, a0 := metric }])

/-- A key without a baseline (R395). DEDUCED: log entry 69. -/
def keyStarting (k : Nat) (x : KeySt) (p : Proc) : Proc :=
  let s := p.1
  let raw := fld s (R.TCH_K_RAW k) 15 0
  let inside := decide (x.cfg.winLo ≤ raw ∧ raw ≤ x.cfg.winHi)
  if x.phase = 7 then
    if inside then p.put k { x with phase := 6, inside := 1 } []
    else p.put k { x with phase := 1, inside := 0 } [{ code := 0xAB, unit := k, sub := 1 }]
  else if !inside then p.put k { x with inside := 0 } []
  else if x.inside + 1 < 3 then p.put k { x with inside := x.inside + 1 } []
  else
    let evs : List Ev := (if x.phase = 1 then [{ code := 0xAB, unit := k, sub := 0 }] else [])
      ++ [{ code := 0xAC, unit := k, sub := 2 }]
    Proc.put k { cfg := x.cfg, phase := 2 } evs (wr s (R.TCH_K_BASE k) raw, p.2)

/-- R398: a run of deltas at or below −ANTI_TH; the flag tells that it has lasted 2 s. -/
def antiStep (q : TouchScan) (x : KeySt) (d : Int) : KeySt × Bool :=
  if d ≤ -(x.cfg.antiTh : Int) then
    let from_ := x.antiAt.getD q.at_
    if from_ + 2 * secUnit ≤ q.at_ then ({ x with antiAt := none }, true) else ({ x with antiAt := some from_ }, false)
  else ({ x with antiAt := none }, false)

/-- R397: BASE moves one count toward RAW every DRIFT_SCANS scans of a small delta. -/
def driftStep (k : Nat) (n : PanelSt) (t d : Int) (x : KeySt) (s : State) : State × KeySt :=
  if (d.natAbs : Int) * 2 < t then
    if x.drift + 1 < n.driftScans then (s, { x with drift := x.drift + 1 })
    else
      let b := fld s (R.TCH_K_BASE k) 15 0
      (wr s (R.TCH_K_BASE k) (if 0 < d then b + 1 else if d < 0 then b - 1 else b), { x with drift := 0 })
  else (s, x)

/-- A RELEASED key, or a guard channel that is not over threshold (R396 to R398, R403); a guard channel's state is GUARD,
so that its baseline does not move (R397, R398). -/
def keyReleased (q : TouchScan) (overMark : Bool) (k : Nat) (x : KeySt) (p : Proc) : Proc :=
  let s := p.1
  let n := s.tch.panel
  let d := keyDelta s k
  let t := (keyLevels n x.cfg).1
  let (x, anti) := if x.cfg.guard then (x, false) else antiStep q x d
  let s := if anti then wr s (R.TCH_K_BASE k) (fld s (R.TCH_K_RAW k) 15 0) else s
  let (s, x) := if anti || x.cfg.guard then (s, x) else driftStep k n t d x s
  let vet := x.cfg.veto && n.water && overMark && !x.cfg.guard
  let x := if vet || !decide (t ≤ d) then { x with onRun := 0 }
    else { x with onRun := x.onRun + 1, onAt := if x.onRun = 0 then q.time else x.onAt }
  let x := { x with vetoed := vet }
  let x := if x.cfg.guard ∧ debounceOn n x.cfg ≤ x.onRun then { cfg := x.cfg, phase := 3 } else x
  Proc.put k x (if anti then [{ code := 0xAC, unit := k, sub := 0 }] else []) (s, p.2)

/-- A TOUCHED key, or a guard channel over threshold (R396, R399, R400). DEDUCED: log entry 69. -/
def keyTouched (q : TouchScan) (k : Nat) (x : KeySt) (p : Proc) : Proc :=
  let s := p.1
  let n := s.tch.panel
  let d := keyDelta s k
  let (t, h) := keyLevels n x.cfg
  let x := if d < t - h then { x with offRun := x.offRun + 1, offAt := if x.offRun = 0 then q.time else x.offAt }
    else { x with offRun := 0 }
  let held := q.at_ - x.touchAt
  let released : KeySt := { cfg := x.cfg, phase := 2 }
  if debounceOff n x.cfg ≤ x.offRun then p.put k released [keyEvent 0xA8 k 0 x.offAt (uint 32 d)]
  else if x.cfg.guard then p.put k x []
  else if !x.cfg.hold then
    if x.cfg.maxOn * secUnit ≤ held then
      Proc.put k released [keyEvent 0xA9 k 0 q.time 0, { code := 0xAC, unit := k, sub := 1 }]
        (wr s (R.TCH_K_BASE k) (fld s (R.TCH_K_RAW k) 15 0), p.2)
    else p.put k x []
  else
    let m := held / (60 * secUnit)
    if x.minutes < m then p.put k { x with minutes := m } [keyEvent 0xAA k 0 q.time (60 * m)] else p.put k x []

/-- Steps 3 and 4 for one key; `guards` selects the guard channels. DEDUCED: log entry 69. -/
def keyStep (q : TouchScan) (guards overMark : Bool) (p : Proc) (k : Nat) : Proc :=
  let x := keyAt p.1 k
  if x.cfg.guard ≠ guards then p
  else if x.phase = 2 then keyReleased q overMark k x p
  else if x.phase = 3 then keyTouched q k x p
  else if x.phase = 1 ∨ x.phase = 6 ∨ x.phase = 7 then keyStarting k x p
  else p

/-- Is a guard channel over threshold (R403). -/
def guardOver (s : State) : Bool := allKeys.any (fun k => (keyAt s k).cfg.guard && decide ((keyAt s k).phase = 3))

/-- Has a RELEASED key completed the debounce of a touch (R396). -/
def keyCandidate (s : State) (k : Nat) : Bool :=
  let x := keyAt s k
  decide (x.phase = 2 ∧ debounceOn s.tch.panel x.cfg ≤ x.onRun) && !x.cfg.guard

/-- The members of a key's group that satisfy a condition. -/
def groupKeys (s : State) (k : Nat) (f : Nat → Bool) : List Nat :=
  allKeys.filter (fun j => (keyAt s j).cfg.groupEn && decide ((keyAt s j).cfg.group = (keyAt s k).cfg.group) && f j)

/-- The candidate of a group with the largest delta, the lower index at a tie (R402). -/
def groupWinner (s : State) (k : Nat) : Option Nat :=
  (groupKeys s k (keyCandidate s)).foldl (fun b j => match b with
    | none => some j
    | some i => if keyDelta s i < keyDelta s j then some j else some i) none

/-- Step 5 for one key; `s0` is the state before the step (R402). DEDUCED: log entry 69. -/
def keyArbitrate (s0 : State) (q : TouchScan) (p : Proc) (k : Nat) : Proc :=
  let x := keyAt s0 k
  if !keyCandidate s0 k then p
  else if x.cfg.groupEn && !(groupKeys s0 k (fun j => decide ((keyAt s0 j).phase = 3))).isEmpty then p
  else if x.cfg.groupEn && decide (groupWinner s0 k ≠ some k) then p.put k { x with onRun := 0 } []
  else p.put k { cfg := x.cfg, phase := 3, touchAt := q.at_ } [keyEvent 0xA8 k 1 x.onAt (uint 32 (keyDelta s0 k))]

/-- The registers of a key follow its state. -/
def showKey (q : TouchScan) (k : Nat) (s : State) : State :=
  let x := keyAt s k
  let s := setFlag (setFld s (R.TCH_K_STATE k) 2 0 x.code) (R.TCH_K_STATE k) 16 x.vetoed
  let s := if x.phase = 2 ∨ x.phase = 3 ∨ x.phase = 4 then s else wr s (R.TCH_K_BASE k) 0
  wr s (R.TCH_K_HELD k) (if x.code = 3 then min ((q.at_ - x.touchAt) / (1000000 * nsUnit)) 0xFFFFFFFF else 0)

/-! ## KEY_CONFIG (R408, R409) -/

/-- The settings a KEY body carries. -/
def keyCfgOf (c : Cmd) : KeyCfg :=
  { en := bit (c.w 3) 31, hold := bit (c.w 3) 30, guard := bit (c.w 3) 29, veto := bit (c.w 3) 28, groupEn := bit (c.w 3) 27,
    group := bits (c.w 3) 19 16, touchTh := bits (c.w 3) 15 0, gloveTh := bits (c.w 4) 31 16, hyst := bits (c.w 4) 15 0,
    antiTh := bits (c.w 5) 31 16, maxOn := if bits (c.w 5) 15 0 = 0 then 60 else bits (c.w 5) 15 0,
    winHi := bits (c.w 6) 31 16, winLo := bits (c.w 6) 15 0, off := bits (c.w 7) 15 8, on := bits (c.w 7) 7 0 }

/-- The word that holds the first field outside its range (R408). -/
def keyRange (c : Cmd) : Option Nat :=
  if bits (c.w 2) 17 16 = 0 then
    let k := keyCfgOf c
    firstBad [(3, decide (8 ≤ k.touchTh ∧ k.touchTh ≤ 32767) && !(k.guard && k.groupEn)),
      (4, decide (4 ≤ k.gloveTh ∧ k.gloveTh ≤ k.touchTh ∧ k.hyst < k.gloveTh)),
      (5, decide (8 ≤ k.antiTh ∧ k.antiTh ≤ 32767)), (6, decide (k.winLo < k.winHi)),
      (7, decide (1 ≤ k.on ∧ k.on ≤ 8 ∧ 1 ≤ k.off ∧ k.off ≤ 8))]
  else
    firstBad [(3, decide (2 ≤ bits (c.w 3) 7 0 ∧ bits (c.w 3) 7 0 ≤ 100)), (4, decide (bits (c.w 4) 31 16 < bits (c.w 4) 15 0)),
      (5, decide (100 ≤ bits (c.w 5) 15 0 ∧ bits (c.w 5) 15 0 ≤ 400)), (6, decide (1 ≤ bits (c.w 6) 7 0))]

/-- KEY takes effect: the key restarts at the next scan processed. -/
def applyKey (c : Cmd) (s : State) : State :=
  let k := bits (c.w 2) 5 0
  let g := keyCfgOf c
  let s := setKey k { keyAt s k with cfg := g, fresh := true } s
  setFld (setFld (setFld s (R.TCH_K_STATE k) 11 8 g.group) (R.TCH_K_STATE k) 4 4 (ofBool g.groupEn)) (R.TCH_K_STATE k) 3 3
    (ofBool g.hold)

/-- Trigger 10 is armed with START at the next tick instant and a period of SCAN_MS; a pulse width that R123 does not
allow becomes 8 ns. DEDUCED: log entry 70. -/
def armScans (ms : Nat) (s : State) : State :=
  let t := tickInstant s (tickAfter s s.clock)
  let s := trigDisarm 10 s
  let s := wr64 s (R.TIM_TRIG_START_SEC_LO 10) (R.TIM_TRIG_START_SEC_HI 10) (timeSec t)
  let s := wr (wr s (R.TIM_TRIG_START_NS 10) (timeNs t)) (R.TIM_TRIG_START_FRAC 10) (timeFrac t)
  let s := wr (wr (wr s (R.TIM_TRIG_PERIOD_NS 10) (ms * 1000000)) (R.TIM_TRIG_PERIOD_FRAC 10) 0) (R.TIM_TRIG_COUNT 10) 0
  let w := rd s (R.TIM_TRIG_WIDTH_NS 10)
  let s := if 8 ≤ w ∧ w + 8 ≤ ms * 1000000 then s else wr s (R.TIM_TRIG_WIDTH_NS 10) 8
  trigArm 10 (setFlag (setFlag s (R.TIM_TRIG_CTRL 10) 2 true) (R.TIM_TRIG_CTRL 10) 0 true)

/-- PANEL takes effect: RUN, GLOVE and SHIELD of the front end, HOP and FREQ, and trigger 10 (R403, R404, R409).
DEDUCED: log entry 70. -/
def applyPanel (c : Cmd) (s : State) : State :=
  let n := s.tch.panel
  let auto := bit (c.w 3) 29
  let n := { n with glove := bit (c.w 3) 31, water := bit (c.w 3) 30, noiseAuto := auto, noiseExit := bits (c.w 4) 31 16,
                    noiseEnter := bits (c.w 4) 15 0, noisePct := bits (c.w 5) 15 0, driftScans := bits (c.w 6) 7 0 }
  let s := { s with tch := { s.tch with panel := n } }
  let freq := if auto then fld s R.TCH_CTRL 5 4 else 0
  let s := wr s R.TCH_CTRL (freq * 16 + ofBool n.water * 4 + ofBool n.glove * 2 + 1)
  armScans (bits (c.w 3) 7 0) s

/-- The KEY_CONFIG commands that wait take effect in an idle gap. DEDUCED: log entry 70. -/
def applyWaiting (s : State) : State :=
  let tags := s.tch.waiting
  let s := tags.foldl (fun s t => match findCmd s t with
    | some c => if bits (c.w 2) 17 16 = 0 then applyKey c s else applyPanel c s
    | none => s) s
  { s with tch := { s.tch with waiting := [], taken := s.tch.taken ++ tags } }

/-- Steps 1 to 5 for a completed scan: the keys as they are after it, and the events it raises. DEDUCED: log entry 69. -/
def scanSteps (q : TouchScan) (s : State) : Proc :=
  let p := modeStep (allKeys.foldl (keyBegin q) (s, []))
  let p := allKeys.foldl (keyStep q true false) p
  let p := allKeys.foldl (keyStep q false (guardOver p.1)) p
  allKeys.foldl (keyArbitrate p.1 q) p

/-- Demal processes the completed scan (R393 to R405); the KEY_CONFIG commands it saw complete (R409). -/
def processScan (s : State) : State :=
  match s.tch.done with
  | none => s
  | some q =>
    let p := scanSteps q s
    let s := allKeys.foldl (fun s k => showKey q k s) p.1
    let s := p.2.foldl (fun s e => raise e s) s
    let s := s.tch.taken.foldl (fun s t => finish t stSuccess 0 0 0 s) s
    let s := { s with tch := { s.tch with done := none, taken := [] } }
    if s.tch.scan.isNone then applyWaiting s else s

/-- KEY_SCAN_PROCESS: while Demal is RUNNING (R406). DESIGN CHOICE: log entry 80. -/
def execKeyScanProcess (s : State) : Host.Outcome State Fault Refusal :=
  live s (fun s => if demalState s = 2 then processScan s else s)

/-- KEY_CONFIG in flight executes: served by Demal (R181, R408, R409). DEDUCED: log entry 70. -/
def keyConfig (c : Cmd) (s : State) : State :=
  if demalState s ≠ 2 then finish c.tag stNoFirmware (demalState s) 0 0 s
  else match keyRange c with
    | some i => reject c 1 i s
    | none =>
      let s := waitCmd c.tag [] { s with tch := { s.tch with waiting := s.tch.waiting ++ [c.tag] } }
      if s.tch.scan.isNone && s.tch.done.isNone then applyWaiting s else s

def execKeyConfig (tag : Fin 4096) (s : State) : Host.Outcome State Fault Refusal :=
  live s (fun s => onCmd tag.val 0x40 s keyConfig)

/-! ## The touch unit (R389 to R393) -/

/-- The slice the spare covers in the scan that starts, and whether it is the scan after the last step (R455). -/
def coverNext (s : State) : Option Nat × Bool :=
  match (calIn s 5).map Cal.item with
  | some i => if 64 ≤ i ∧ i < 72 then (some (i - 64), false)
              else if s.tch.coverEnds then (none, false) else (s.tch.cover, s.tch.cover.isSome)
  | none => if s.tch.coverEnds then (none, false) else (s.tch.cover, s.tch.cover.isSome)

/-- The slices show which of them the spare covers. -/
def showCover (c : Option Nat) (s : State) : State :=
  let s := (List.range 8).foldl (fun s i => setFlag s (R.TCH_SLICE_STATUS i) 30 (decide (c = some i))) s
  setFld (setFlag s (R.TCH_SLICE_STATUS 8) 4 c.isSome) (R.TCH_SLICE_STATUS 8) 3 0 (c.getD 0)

/-- Trigger 10 fires: a scan starts, or the fire is an overrun (R389, R391). -/
def touchStart (s : State) : State :=
  if s.tch.scan.isSome then setFlag (addReg s R.TCH_OVERRUNS 1) R.TCH_STATUS 18 true
  else if !flag s R.TCH_CTRL 0 then s
  else
    let s := if s.tch.waiting = [] then s else applyWaiting (if demalState s = 2 then processScan s else s)
    let (c, ends) := coverNext s
    let q : TouchScan := { time := s.clock, at_ := s.elapsed, hop := flag s R.TCH_CTRL 6, freq := fld s R.TCH_CTRL 5 4, cover := c }
    showCover c (setFlag { s with tch := { s.tch with scan := some q, cover := c, coverEnds := ends } } R.TCH_STATUS 9 true)

/-- Quiet count of a slice at a frequency, and the sum over the slices. -/
def quietAt (o : TouchObs) (f i : Nat) : Nat := (((o.quiet.getD f [])[i]?).map Fin.val).getD 0
def quietSum (o : TouchObs) (f : Nat) : Nat := ((List.range 9).map (quietAt o f)).foldl (· + ·) 0

/-- The frequency of a scan's keys (R390). -/
def scanFreq (q : TouchScan) (o : TouchObs) : Nat :=
  if q.hop then [1, 2, 3].foldl (fun b f => if quietSum o f < quietSum o b then f else b) 0 else q.freq

/-- Period of the conversion clock in ns, and the duration of a scan (R390). -/
def freqNs (f : Nat) : Nat := 80 + 10 * f
def scanNs (hop : Bool) (f : Nat) : Nat :=
  if hop then 256 * (freqNs 0 + freqNs 1 + freqNs 2 + freqNs 3) + 9 * 1024 * freqNs f else (256 + 9 * 1024) * freqNs f

/-- A slice's reference count of a scan: gain error, and FAULT (R392). -/
def sliceEnd (o : TouchObs) (f i : Nat) (s : State) : State :=
  let ref := ((o.refs[i]?).map Fin.val).getD 0
  let trim := Config.refTrim i f
  let g := Int.tdiv (((ref : Int) - (trim : Int)) * 1000000) (trim : Int)
  let s := wr (wr s (R.TCH_REF i) ref) (R.TCH_GAIN_ERR i) (uint 32 g)
  let faulty := flag s (R.TCH_SLICE_STATUS i) 31
  let good := if faulty && decide (g.natAbs ≤ 25000) then smGet (fun _ => 0) s.tch.good i + 1 else 0
  let s := { s with tch := { s.tch with good := smSet (fun _ => 0) s.tch.good i (if good < 3 then good else 0) } }
  let now := if faulty then decide (good < 3) else decide (30000 < g.natAbs)
  if now = faulty then s
  else
    let s := setFlag (setFlag s (R.TCH_SLICE_STATUS i) 31 now) R.TCH_STATUS i now
    raise { code := 0xAD, unit := i, a0 := uint 32 g } s

/-- RAW of a key, at the nearest count; over a reference count of 0 it is a value the manual does not state (R392).
DESIGN CHOICE: log entry 71. -/
def keyRaw (o : TouchObs) (q : TouchScan) (k : Nat) (s : State) : State :=
  let i := keySlice q k
  let ref := ((o.refs[i]?).map Fin.val).getD 0
  let c := o.keys.getD k 0 * Config.refTrim i 0
  if ref = 0 then wr { s with draws := s.draws + 1 } (R.TCH_K_RAW k) (Config.freeNat s.draws % 65536)
  else wr s (R.TCH_K_RAW k) (min 65535 ((2 * c + ref) / (2 * ref)))

/-- A scan ends: every count is written at once (R389 to R393). -/
def touchEnd (q : TouchScan) (o : TouchObs) (s : State) : State :=
  let f := scanFreq q o
  let measured := if q.hop then [0, 1, 2, 3] else [f]
  let s := measured.foldl (fun s j => wr s (R.TCH_QUIET j) (quietSum o j)) s
  let s := (List.range 9).foldl (fun s i => sliceEnd o f i s) s
  let s := allKeys.foldl (fun s k => keyRaw o q k s) s
  let s := wr s R.TCH_NOISE (((List.range 9).map (quietAt o f)).foldl max 0)
  let s := setFld (setFlag (addReg s R.TCH_SCANS 1) R.TCH_STATUS 9 false) R.TCH_STATUS 17 16 f
  { s with tch := { s.tch with scan := none, done := some q } }

/-- TOUCH_SCAN_END; Demal has processed the scan before by then (R393). -/
def execTouchScanEnd (o : TouchObs) (s : State) : Host.Outcome State Fault Refusal :=
  live s (fun s =>
    match s.tch.scan with
    | none => s
    | some q =>
      let s := if demalState s = 2 then processScan s else s
      touchEnd q o (waitElapsed (q.at_ + scanNs q.hop (scanFreq q o) * nsUnit) s))

/-- TCH_CTRL: the host's writes are ignored while Demal is RUNNING. DEDUCED: log entry 70. -/
def tchCtrlWrite (v : Nat) (s : State) : State := if demalState s = 2 then s else wr s R.TCH_CTRL (v &&& 0x77)

/-! ## Triggers -/

/-- TRIGGER_FIRE: trigger 9 fires with the tick (R126). -/
def execTriggerFire (t : Fin 12) (s : State) : Host.Outcome State Fault Refusal :=
  liveAon s (fun s =>
    if t.val = 9 || !trigArmed s t.val || (decide (9 < t.val) && !running s) then s
    else
      let s := trigReach t.val s
      if t.val = 10 then touchStart s
      else if t.val = 11 then calSchedule s
      else s)

end Sys2Proof.Machine
end

