-- ==== Sys2Proof/Machine/Guards.lean ====
section
/-!
DEFINITION. Machine/Guards.lean: the registers of the guards (R414, R420 to R423). The check of an access stands in
Machine/Ops.lean.
-/

namespace Sys2Proof.Machine

/-- First offset of a guard's registers. -/
def guardBase (g : Nat) : Nat := 0xA0000 + g * 0x400

/-- GEN of a guard (R423). -/
def guardGen (s : State) (g : Nat) : Nat := fld s (R.GRD_STATUS g) 31 16

/-- An accepted write to CTRL, BASE or CFG counts in GEN (R423). -/
def guardAccepted (g : Nat) (s : State) : State := addFld s (R.GRD_STATUS g) 31 16 1

/-- A write that LOCK or DEF_LOCK turns away (R420). -/
def guardIgnored (g : Nat) (s : State) : State := setFlag s (R.GRD_STATUS g) 1 true

/-- A write to CTRL: the default attributes, and DEF_LOCK, which only sets (R415, R420). -/
def guardCtrlWrite (g v : Nat) (s : State) : State :=
  let r := R.GRD_CTRL g
  if flag s r 3 then guardIgnored g s else guardAccepted g (wr s r (bits v 3 0))

/-- A write to STATUS clears its sticky bits (R419, R420). -/
def guardStatusWrite (g v : Nat) (s : State) : State :=
  let s := if bit v 1 then setFlag s (R.GRD_STATUS g) 1 false else s
  if bit v 0 then setFlag s (R.GRD_STATUS g) 0 false else s

/-- CFG as stored: a SIZE above 51 is stored as 51, reserved bits as 0 (R414). -/
def guardCfgStored (v : Nat) : Nat := setBits (v &&& 0x80FFFF0F) 13 8 (min 51 (bits v 13 8))

/-- A write to a region's BASE_LO, BASE_HI or CFG, turned away while the region's LOCK is 1 (R420). -/
def guardRegionWrite (g r sub v : Nat) (s : State) : State :=
  if flag s (R.GRD_R_CFG g r) 3 then (if sub < 3 then guardIgnored g s else s)
  else if sub = 0 then guardAccepted g (wr s (R.GRD_R_BASE_LO g r) (v / 4096 * 4096))
  else if sub = 1 then guardAccepted g (wr s (R.GRD_R_BASE_HI g r) v)
  else if sub = 2 then guardAccepted g (wr s (R.GRD_R_CFG g r) (guardCfgStored v))
  else s

/-- A write to a register of the GRD block. -/
def guardRegWrite (off v : Nat) (s : State) : State :=
  let g := (off - 0xA0000) / 0x400
  let o := (off - 0xA0000) % 0x400
  if off < 0xA0000 ∨ 28 ≤ g ∨ o % 4 ≠ 0 then s
  else if o = 0 then guardCtrlWrite g v s
  else if o = 4 then guardStatusWrite g v s
  else if 0x100 ≤ o ∧ o < 0x200 then guardRegionWrite g ((o - 0x100) / 16) (o % 16 / 4) v s
  else s

/-- GUARD_REG_WRITE. -/
def execGuardRegWrite (off : Nat) (v : Word) (s : State) : Host.Outcome State Fault Refusal :=
  live s (guardRegWrite off v.toNat)

/-- Do two enabled regions overlap: same space, and an enabled pane of one shares an address with one of the other
(R421). -/
def GRegion.overlaps (p q : GRegion) : Bool :=
  decide (p.space = q.space) &&
    (List.range 8).any (fun i => bit p.panes i && (List.range 8).any (fun j => bit q.panes j &&
      decide (p.base + i * (p.span / 8) < q.base + (j + 1) * (q.span / 8)
        ∧ q.base + j * (q.span / 8) < p.base + (i + 1) * (p.span / 8))))

/-- The lower region of the first overlap in which a region carries LOCK (R421). -/
def guardOverlap (s : State) (g : Nat) : Option Nat :=
  let rs := guardRegions s g
  (rs.find? (fun p => rs.any (fun q => decide (p.num < q.num) && (p.lock || q.lock) && p.overlaps q))).map (·.num)

/-- GUARD_SYNC_READ: GEN sampled at the read, with DONE once every access checked under an earlier GEN has completed,
or without DONE after 16 µs (R423). DEDUCED: log entry 17. -/
def execGuardSyncRead (g : Fin 28) (s : State) : Host.Outcome State Fault Refusal :=
  live s (fun s =>
    let gen := guardGen s g.val
    let fin := s.flights.foldl (fun m f => if f.guard = g.val ∧ f.gen ≠ gen then max m f.until_ else m) 0
    let limit := s.updates + usUpdates 16
    if fin ≤ limit then wr (waitUpdates fin s) (R.GRD_SYNC g.val) (2 ^ 31 + gen)
    else wr (waitUpdates limit s) (R.GRD_SYNC g.val) gen)

/-- An access is checked by a guard and completes after a number of counter updates (R422, R424). Accesses that have
completed leave the record. DEDUCED: log entry 17. DESIGN CHOICE: log entry 77. -/
def guardFlight (g span : Nat) (s : State) : State :=
  let now := s.updates
  let live := s.flights.filter (fun f => decide (now < f.until_))
  { s with flights := if span = 0 then live else live ++ [{ guard := g, gen := guardGen s g, until_ := now + span }] }

end Sys2Proof.Machine
end

