-- ==== Sys2Proof/Machine/HuskEffect.lean ====
section
/-!
DEFINITION. Machine/HuskEffect.lean: what each HK pair does when it takes effect (R74): the pairs of WIN wait for step 3 of
the next seal, and so do the source map pairs of a head in DIRECT mode (R272); the pairs of LCS, PWR, TIM and SRC act at
once.
-/

namespace Sys2Proof.Machine

/-! ## Power requests (R440, R441) -/

/-- A change between RUN and QUIET takes effect; on the return to RUN a loss report goes ahead of each flow's packets. -/
def powerTurn (want : Nat) (s : State) : State :=
  let was := powerState s
  let s := setPower want s
  if was = 1 ∧ want = 0 then vstWake s else s

/-- The PWR_REQ pair takes effect (R440). -/
def powerEffect (v : Nat) (s : State) : State :=
  let s := huskStore R.PWR_REQ v s
  let st := powerState s
  let want := bits v 1 0
  if want = st then s
  else if want = 3 then powerDownBegin s
  else if want = 2 then (if keepReady s then keepEnter s else setFlag s R.PWR_STATUS 17 true)
  else if flag s R.TCK_CTRL 0 then { s with pwr := { s.pwr with change := some want } }
  else powerTurn want s

/-- POWER_REQUEST: the K write of the PWR_REQ pair. -/
def execPowerRequest (k : Word) (s : State) : Host.Outcome State Fault Refusal :=
  live s (huskK R.PWR_REQ k.toNat powerEffect)

/-! ## Every HK pair -/

/-- The MAP_COMMIT pair of a source channel. -/
def isMapCommit (off : Nat) : Bool := inArray 0x180068 [(96, 0x100)] off

/-- A sound pair with V word at an offset takes effect, or waits for the next seal (R74, R272). -/
def huskEffect (off v : Nat) (s : State) : State :=
  if off = R.LCS_REQ then lcsEffect v s
  else if off = R.PWR_REQ then powerEffect v s
  else if off = R.TIM_STEP_ACCEPT then stepAccept v s
  else if isMapCommit off then mapCommit ((off - 0x180068) / 0x100) v s
  else if isMapPair off && !headDirect s ((off - 0x302000) / 0x4000) then stIgnored off s
  else winAccept off v s

/-- HUSK_K_WRITE. -/
def execHuskKWrite (off : Nat) (k : Word) (s : State) : Host.Outcome State Fault Refusal :=
  livePair off s (huskK off k.toNat (huskEffect off))

end Sys2Proof.Machine
end

