-- ==== Sys2Proof/Machine/Sheaf.lean ====
section
/-!
DEFINITION. Machine/Sheaf.lean: sheaves (R128 to R147): the slots, the checker's entry pass and state pass, what a seal
applies, DIRECT mode and direct writes to ST registers.
-/

namespace Sys2Proof.Machine

/-! ## Registers a sheaf may name -/

/-- The row of an offset that names a register of access ST or HK; the CLR registers are among them (R141 code 2). -/
def sheafRow (off : Nat) : Option (RegRow × Nat) :=
  match regRow? off with
  | some (r, i) => if r.st ≠ 0 ∨ r.hk ≠ 0 then some (r, i) else none
  | none => none

/-- Is an offset a SHF_DIRECT_CLR register. -/
def isClr (off : Nat) : Bool := decide (0x70040 ≤ off ∧ off ≤ 0x70050)

/-- The DIRECT scope of a register: (0 head, 1 source channel, 2 device) and index; none for the pairs and registers of no
scope (R144, R492). DEDUCED: log entry 50. -/
def directScope (off : Nat) (r : RegRow) : Option (Nat × Nat) :=
  if isClr off then none
  else if 0x300000 ≤ off ∧ off < 0x360000 then some (0, (off - 0x300000) / 0x4000)
  else if r.hk ≠ 0 then none
  else if 0x50100 ≤ off ∧ off < 0x50160 then some (0, (off - 0x50100) / 4)
  else if 0x62000 ≤ off ∧ off < 0x65000 then some (0, (off - 0x62000) / 0x200)
  else if 0x65000 ≤ off ∧ off < 0x65C00 then some (1, (off - 0x65000) / 0x20)
  else if 0x180000 ≤ off ∧ off < 0x186000 then some (1, (off - 0x180000) / 0x100)
  else some (2, 0)

/-- Is a unit in DIRECT mode. -/
def inDirect (s : State) (u : Nat × Nat) : Bool :=
  if u.1 = 0 then headDirect s u.2 else if u.1 = 1 then srcDirect s u.2 else devDirect s

/-- A field held within two bounds. -/
def clampField (hi lo a b v : Nat) : Nat := setBits v hi lo (clampNat a b (bits v hi lo))

/-- The value an ST register stores for a written one: reserved bits 0, each range as its table states. -/
def stStored (r : RegRow) (off v : Nat) : Nat :=
  let v := v &&& r.st
  if r.base = R.WIN_WITNESS then clampField 3 0 2 8 v
  else if r.base = R.WIN_L_MARK 0 0 then clampField 7 3 8 31 v
  else if r.base = R.WIN_S_FREEZE 0 then clampField 7 0 2 255 v
  else if r.base = R.SRC_JITTER 0 then clampField 23 0 1000 1000000 v
  else if r.base = R.SRC_SILENT 0 then clampField 15 0 10 60000 v
  else if r.base = R.SRC_RTCP_CFG 0 then clampField 15 0 1 3600 v
  else if r.base = R.VEN_QP 0 then
    let v := clampField 15 8 0 51 v
    clampField 7 0 0 (bits v 15 8) v
  else if r.base = R.HEAD_CMP_CTRL 0 then (if bits v 2 1 = 3 then setBits v 2 1 0 else v)
  else if r.base = R.HEAD_WB_CFG 0 then clampField 3 0 2 8 v
  else if r.base = R.HEAD_L_CTRL 0 0 then (if bits v 1 0 = 3 then setBits v 1 0 0 else v)
  else if r.base = R.HEAD_L_MIN_LAT 0 0 then clampField 23 0 0 10000000 v
  else if r.base = R.HEAD_L_CROP_SIZE 0 0 ∨ r.base = R.HEAD_L_DST_SIZE 0 0 then
    clampField 29 16 1 8192 (clampField 13 0 1 8192 v)
  else if r.base = R.HEAD_L_LB 0 0 then clampField 6 0 0 96 v
  else if r.base = R.HEAD_MODE 0 then (if (off - 0x300000) / 0x4000 % 2 = 1 then 0 else v)
  else if r.base = R.HEAD_WM 0 then
    let v := clampField 3 0 0 14 v
    clampField 7 4 (bits v 3 0 + 1) 15 v
  else if r.base = R.DMC_PORT_REG 0 then clampField 23 16 1 255 v
  else v

/-! ## Slots and entries (R128, R131) -/

/-- State of a slot: 0 EMPTY, 1 STAGING, 2 CHECKING, 3 PENDING. -/
def shfState (s : State) (k : Nat) : Nat := fld s (R.SHF_SLOT_STATE k) 1 0
def setShfState (k v : Nat) (s : State) : State := setFld s (R.SHF_SLOT_STATE k) 1 0 v

/-- Count, mode NOT_BEFORE and target tick of a slot's sheaf. -/
def shfCount (s : State) (k : Nat) : Nat := fld s (R.SHF_SLOT_COUNT k) 12 0
def shfNotBefore (s : State) (k : Nat) : Bool := flag s (R.SHF_SLOT_COUNT k) 16
def shfTarget (s : State) (k : Nat) : Nat := rd64 s (R.SHF_SLOT_TARGET_LO k) (R.SHF_SLOT_TARGET_HI k)

/-- BAR4 offset of a slot's entries. -/
def shfBase (k : Nat) : Nat := 0x01AC0000 + k * 0x10000

/-- An entry (R128). -/
structure ShfEntry where
  head : Nat
  value : Nat
  mask : Nat
  vk : Nat
deriving DecidableEq, Repr

def ShfEntry.off (e : ShfEntry) : Nat := bits e.head 23 0
def ShfEntry.crit (e : ShfEntry) : Bool := bit e.head 31

/-- Entry i of a slot. -/
def shfEntry (s : State) (k i : Nat) : ShfEntry :=
  let a := shfBase k + 16 * i
  { head := gRead32 s a, value := gRead32 s (a + 4), mask := gRead32 s (a + 8), vk := gRead32 s (a + 12) }
def shfList (s : State) (k : Nat) : List ShfEntry := (List.range (shfCount s k)).map (shfEntry s k)

/-- VALUE_K as R128 states it. -/
def ShfEntry.sound (e : ShfEntry) : Bool := decide (e.vk = if e.crit then complement e.value else 0)

/-! ## Applying values -/

/-- Leave DIRECT mode where bits of a CLR register are 1 (R144). -/
def directClear (scope off base v : Nat) (s : State) : State :=
  (List.range 32).foldl (fun s i =>
    if bit v i && flag s off i then raise { code := 0x42, unit := base + i, sub := scope } (setFlag s off i false) else s) s

/-- The DIRECT register a CLR register clears: scope, offset, first unit. -/
def clrTarget (off : Nat) : Nat × Nat × Nat :=
  if off = R.SHF_DIRECT_CLR_HEAD then (0, R.SHF_DIRECT_HEAD, 0)
  else if off = R.SHF_DIRECT_CLR_DEV then (2, R.SHF_DIRECT_DEV, 0)
  else (1, R.SHF_DIRECT_SRC ((off - 0x70044) / 4), (off - 0x70044) / 4 * 32)

/-- The value a V word stores: thresholds clamped (R79). -/
def pairStored (r : RegRow) (off v : Nat) : Nat :=
  if isThreshold off then clampNat 1000 16000000 (v &&& r.hk) else v &&& r.hk

/-- A merged value as the projected state holds it: no event, no effect beyond the register. -/
def projectOne (s : State) (p : Nat × Nat) : State :=
  match sheafRow p.1 with
  | none => s
  | some (r, _) =>
    if r.kWord then s
    else if isClr p.1 then
      let (_, d, _) := clrTarget p.1
      wr s d (rd s d - (rd s d &&& p.2))
    else if r.hk ≠ 0 then huskStore p.1 (pairStored r p.1 p.2) s
    else wr s p.1 (stStored r p.1 p.2)

/-- The projected state a slot's check meets: every PENDING sheaf submitted before it is merged (R132). -/
def projected (s : State) (k : Nat) : State :=
  ((s.shf.order.takeWhile (fun j => decide (j ≠ k))).filter (fun j => decide (shfState s j = 3))).foldl
    (fun p j => (smGet (fun _ => []) s.shf.vals j).foldl projectOne p) s

/-- A merged value applied at step 2: pairs whose effect is immediate take it now. A direct pair on the same register that is
pending or accepted stays so (R74). DEDUCED: log entry 51. -/
def applyOne (s : State) (p : Nat × Nat) : State :=
  match sheafRow p.1 with
  | none => s
  | some (r, _) =>
    if r.kWord then s
    else if isClr p.1 then
      let (scope, d, base) := clrTarget p.1
      directClear scope d base p.2 s
    else if r.hk ≠ 0 then
      let v := pairStored r p.1 p.2
      if p.1 = R.LCS_REQ then lcsEffect v s
      else if p.1 = R.PWR_REQ then powerEffect v s
      else if p.1 = R.TIM_STEP_ACCEPT then stepTake v s
      else if isMapCommit p.1 then mapCommit ((p.1 - 0x180068) / 0x100) v s
      else huskStore p.1 v s
    else wr s p.1 (stStored r p.1 p.2)

/-! ## The entry pass (R129, R130, R140) -/

/-- Merged values so far, by offset. -/
abbrev Merged := SMap (Option Nat)

def mergedAt (m : Merged) (off : Nat) : Option Nat := smGet (fun _ => none) m off

/-- An entry's masked bits over what stands before it; a CLR register reads 0. -/
def mergeEntry (p : State) (m : Merged) (e : ShfEntry) : Merged :=
  let old := match mergedAt m e.off with
    | some v => v
    | none => if isClr e.off then 0 else rd p e.off
  smSet (fun _ => none) m e.off (some ((old &&& (e.mask ^^^ 0xFFFFFFFF)) ||| (e.value &&& e.mask)))

/-- Does a sheaf's own merged CLR value clear a unit's DIRECT bit (R144). DEDUCED: log entry 50. -/
def clearsUnit (clr : Merged) (u : Nat × Nat) : Bool :=
  let v (off : Nat) : Nat := (mergedAt clr off).getD 0
  if u.1 = 0 then bit (v R.SHF_DIRECT_CLR_HEAD) u.2
  else if u.1 = 1 then bit (v (R.SHF_DIRECT_CLR_SRC (u.2 / 32))) (u.2 % 32)
  else bit (v R.SHF_DIRECT_CLR_DEV) 0

/-- Does an entry keep R130 and R128; `prev` and `next` are the offsets of its neighbours. -/
def pairOk (r : RegRow) (prev next : Option Nat) (e : ShfEntry) : Bool :=
  let hk := decide (r.hk ≠ 0)
  let placed := if !hk then true else if r.kWord then prev == some (e.off - 4) else next == some (e.off + 4)
  (!e.crit || decide (e.mask = 0xFFFFFFFF)) && (!hk || e.crit) && placed && e.sound

/-- The entry rules in table order: reason and detail of the first that fails (R141 codes 1 to 5). -/
def entryFails (p : State) (clr m : Merged) (prev next : Option Nat) (e : ShfEntry) : Option (Nat × Nat) :=
  if bits e.head 30 24 ≠ 0 ∨ e.off % 4 ≠ 0 ∨ e.mask = 0 then some (1, 0)
  else match sheafRow e.off with
    | none => some (2, e.off)
    | some (r, i) =>
      if !unitPresent p.part r.unit (i / r.unitDiv) then some (3, e.off)
      else match (directScope e.off r).filter (fun u => inDirect p u && !clearsUnit clr u) with
        | some u => some (4, u.1 * 2 ^ 16 + u.2)
        | none =>
          if !pairOk r prev next e then some (5, e.off)
          else if r.kWord && decide (mergedAt (mergeEntry p m e) e.off ≠ (mergedAt m (e.off - 4)).map complement) then some (5, e.off)
          else none

/-- The entry pass: merged values, or reason, entry and detail. -/
def entryPass (p : State) (clr : Merged) : Nat → Option Nat → List ShfEntry → Merged → Except (Nat × Nat × Nat) Merged
  | _, _, [], m => .ok m
  | i, prev, e :: es, m =>
    match entryFails p clr m prev (es.head?.map ShfEntry.off) e with
    | some (r, d) => .error (r, i, d)
    | none => entryPass p clr (i + 1) (some e.off) es (mergeEntry p m e)

/-! ## The state pass (R141 codes 7 to 17, R142) -/

/-- The lowest entry that addresses a unit, else 0xFFFF (R140). DEDUCED: log entry 48. -/
def firstEntry (es : List ShfEntry) (p : Nat → Bool) : Nat := (es.findIdx? (fun e => p e.off)).getD 0xFFFF

/-- The registers of a layer, of a head, of a lane. -/
def ofLayer (h l off : Nat) : Bool :=
  let a := 0x302000 + h * 0x4000 + l * 0x100
  let b := 0x62000 + (16 * h + l) * 0x20
  decide ((a ≤ off ∧ off < a + 0x100) ∨ (b ≤ off ∧ off < b + 0x20))
def ofHead (h off : Nat) : Bool :=
  let a := 0x300000 + h * 0x4000
  let b := 0x62000 + h * 0x200
  decide ((a ≤ off ∧ off < a + 0x4000) ∨ (b ≤ off ∧ off < b + 0x200) ∨ off = R.TCK_HEADPHASE h)
def ofLane (n off : Nat) : Bool := decide (0x100000 + n * 0x400 ≤ off ∧ off < 0x100400 + n * 0x400)

/-- A failing rule: reason, entry, detail. -/
abbrev ShfFail := Option (Nat × Nat × Nat)

/-- Heads and layers that the rules on one unit test: those not in DIRECT mode (R142). DEDUCED: log entry 49. -/
def checkedHeads (q : State) : List Nat := (presentHeads q).filter (fun h => !headDirect q h)
def checkedLayers (q : State) : List (Nat × Nat) := (allLayers q).filter (fun x => !headDirect q x.1)

/-- The size of a layer's source picture (R274). -/
def sourcePicture (q : State) (h l : Nat) : Nat × Nat :=
  let ix := layerIndex q h l
  if layerKind q h l = 0 ∧ unitPresent q.part .src ix then (declW q ix, declH q ix)
  else if layerKind q h l = 1 ∧ ix = 0 then (lfld q (R.HEAD_L_BUF_SIZE h l) 12 0, lfld q (R.HEAD_L_BUF_SIZE h l) 28 16)
  else if layerKind q h l = 2 ∧ unitPresent q.part .head ix then (hActive q ix, vActive q ix)
  else (0, 0)

/-- LAYER_OUTSIDE. -/
def ruleOutside (q : State) (es : List ShfEntry) : ShfFail :=
  (checkedLayers q).findSome? (fun (h, l) =>
    let g := geo q h l
    let (w, v) := sourcePicture q h l
    if layerEnabled q h l && ((clippedRect q h l).isNone || decide (w < g.cx + g.cw ∨ v < g.cy + g.ch)) then
      some (7, firstEntry es (ofLayer h l), 16 * h + l)
    else none)

/-- LAYER_POOL. -/
def rulePool (q : State) (es : List ShfEntry) : ShfFail :=
  let on := (allLayers q).filter (fun (h, l) => layerEnabled q h l)
  if on.length ≤ 256 then none
  else some (8, firstEntry es (fun o => on.any (fun (h, l) => decide (o = R.HEAD_L_SRC h l ∨ o = R.HEAD_L_SRC h l + 4))), on.length)

/-- ORDER_TABLE. -/
def ruleOrder (q : State) (es : List ShfEntry) : ShfFail :=
  (checkedHeads q).findSome? (fun h =>
    if lfld q (R.HEAD_CMP_CTRL h) 0 0 = 1
        && !isPermutation (orderTable (lrd q (R.HEAD_CMP_ORDER_0 h)) (lrd q (R.HEAD_CMP_ORDER_1 h))) then
      some (9, firstEntry es (ofHead h), h)
    else none)

/-- LINEBUF_SHORT: the layers of a head, then its total. DEDUCED: log entry 49. -/
def ruleLines (q : State) (es : List ShfEntry) : ShfFail :=
  (checkedHeads q).findSome? (fun h =>
    match (List.range 16).find? (fun l => layerEnabled q h l && decide (lfld q (R.HEAD_L_LB h l) 6 0 < (geo q h l).need)) with
    | some l => some (10, firstEntry es (ofLayer h l), 16 * h + l)
    | none => if 96 < lbBefore q h 16 then some (10, firstEntry es (ofHead h), 0x100 + h) else none)

/-- FETCH_BUDGET: each head's fetch sum (R282), then the regulators' rates (R14, R357). DEDUCED: log entry 49. -/
def ruleFetch (q : State) (es : List ShfEntry) : ShfFail :=
  match (presentHeads q).find? (fun h =>
      decide (6 * hActive q h * vActive q h < (((List.range 16).filter (layerEnabled q h)).map (fetchTerm q h)).foldl (· + ·) 0)) with
  | some h => some (11, firstEntry es (ofHead h), h)
  | none =>
    let rate := ((List.range 24).map (fun p => portRate q p * 16)).foldl (· + ·) 0
    if planCeiling q < rate then some (11, firstEntry es (fun o => decide (0x408100 ≤ o ∧ o < 0x4081C0)), 0x100) else none

/-- Does the glyph of a layer meet the band area of another (R85, R86, R141 code 12). -/
def glyphMeets (q : State) (h l m : Nat) : Bool :=
  let g := geo q h l
  let o := glyphOrigin q h l g
  let d := geo q h m
  let b : Int := lfld q (R.WIN_L_MARK h m) 7 3
  let x0 := max (max (g.dx + o.1) d.dx) 0
  let y0 := max (max (g.dy + o.2) d.dy) 0
  let x1 := min (min (g.dx + o.1 + 32) (d.dx + d.dw)) (hActive q h)
  let y1 := min (min (g.dy + o.2 + 32) (d.dy + d.dh)) (vActive q h)
  decide (x0 < x1 ∧ y0 < y1)
    && !decide (d.dx + b ≤ x0 ∧ d.dy + b ≤ y0 ∧ x1 ≤ d.dx + d.dw - b ∧ y1 ≤ d.dy + d.dh - b)

/-- GLYPH_OVERLAP. DEDUCED: log entry 39. -/
def ruleGlyph (q : State) (es : List ShfEntry) : ShfFail :=
  (checkedLayers q).findSome? (fun (h, l) =>
    if layerEnabled q h l && (List.range 16).any (fun m => decide (m ≠ l) && layerEnabled q h m && glyphMeets q h l m) then
      some (12, firstEntry es (ofLayer h l), 16 * h + l)
    else none)

/-- TIMING_RANGE; an entry addresses a paired head by either head of the pair. DEDUCED: log entry 45. -/
def ruleTiming (q : State) (es : List ShfEntry) : ShfFail :=
  (checkedHeads q).findSome? (fun h =>
    if timingBad q (rd q) h then some (13, firstEntry es (fun o => (headGroup q h).any (fun k => ofHead k o)), h) else none)

/-- The payload need of a lane, times the line period of one tick: ceil(W / P) × V_TOTAL over its heads (R213). -/
def laneNeed (q : State) (n : Nat) : Nat :=
  (((laneHeads q n).filter (fun h => unitPresent q.part .head h)).map (fun h =>
    ceilDiv (hActive q h) (if outFmt q h = 2 then 400 else 267) * vTotal q h)).foldl (· + ·) 0

/-- Does a lane hold a HEAD entry whose head appears in another entry of the device (R213). -/
def sharesHead (q : State) (n : Nat) : Bool :=
  let entries := ((List.range 32).filter (fun m => unitPresent q.part .lane m)).flatMap (laneHeads q)
  (laneHeads q n).any (fun h => decide (2 ≤ entries.count h))

/-- LANE_RATE (R213), lane by lane: a HEAD entry on an Ethernet lane, a head that appears in more than one entry, a need
above the limit. DEDUCED: log entry 49. -/
def ruleLane (q : State) (es : List ShfEntry) : ShfFail :=
  ((List.range 32).filter (fun n => unitPresent q.part .lane n)).findSome? (fun n =>
    let limit := 97 * ngzRate (laneRate q n) / (100 * 8384)
    if laneHeads q n ≠ [] ∧ (laneMode q n ≠ 0 ∨ sharesHead q n ∨ limit * tickNum q < laneNeed q n * tickDen q * 10 ^ 9) then
      some (14, firstEntry es (ofLane n), n)
    else none)

/-- GUARD_OVERLAP (R421). DEDUCED: log entry 49. -/
def ruleGuards (q : State) (_ : List ShfEntry) : ShfFail :=
  (List.range 28).findSome? (fun g => (guardOverlap q g).map (fun r => (16, 0xFFFF, g * 256 + r)))

/-- FRESH_ORDER (R79). -/
def ruleFresh (q : State) (es : List ShfEntry) : ShfFail :=
  (checkedLayers q).findSome? (fun (h, l) =>
    if staleMin q h l ≤ liveMax q h l then some (17, firstEntry es (ofLayer h l), 16 * h + l) else none)

/-- The state rules in table order. TICK_BUDGET (15) tests a raised declaration, and no register of a declaration has access
ST or HK, so it cannot fail. DEDUCED: log entries 34, 49. -/
def statePass (q : State) (es : List ShfEntry) : ShfFail :=
  [ruleOutside, rulePool, ruleOrder, ruleLines, ruleFetch, ruleGlyph, ruleTiming, ruleLane, ruleGuards, ruleFresh].findSome?
    (fun rule => rule q es)

/-! ## The check (R132, R138, R140) -/

/-- CRC-32C over a slot's entries as read. DEDUCED: log entry 48. -/
def shfCrc (s : State) (k : Nat) : Nat := crc32c (gRead s (shfBase k) (16 * shfCount s k))

/-- The check of a slot's sheaf: its shadow values, or reason, entry and detail. DEDUCED: log entry 48. -/
def sheafCheck (s : State) (k : Nat) : Except (Nat × Nat × Nat) (List (Nat × Nat)) :=
  let crc := shfCrc s k
  if crc ≠ rd s (R.SHF_SLOT_CRC k) ∨ granaryBad s (shfBase k) (16 * shfCount s k) then .error (6, 0xFFFF, crc)
  else
    let es := shfList s k
    let p := projected s k
    let clr := (es.filter (fun e => isClr e.off)).foldl (fun m e => mergeEntry p m e) []
    match entryPass p clr 0 none es [] with
    | .error f => .error f
    | .ok m =>
      let vals := m.filterMap (fun x => x.2.map (fun v => (x.1, v)))
      let q := vals.foldl projectOne p
      match statePass { q with latched := q.regs } es with
      | some f => .error f
      | none => .ok vals

/-- SHF_LAST and SHF_LAST_DETAIL; reasons other than NONE and CANCELLED count (R141). DEDUCED: log entry 48. -/
def sheafLast (k reason entry detail : Nat) (s : State) : State :=
  let s := wr (wr s R.SHF_LAST (2 ^ 31 + k * 2 ^ 28 + reason * 2 ^ 16 + entry)) R.SHF_LAST_DETAIL detail
  if reason = 0 ∨ reason = 20 then s else addReg s R.SHF_REJECT_COUNT 1

/-- A slot's sheaf ends: the slot is EMPTY, and no order or check remains of it. -/
def sheafLeave (k : Nat) (s : State) : State :=
  let f := s.shf
  setShfState k 0 { s with shf := { f with order := f.order.filter (fun j => decide (j ≠ k)),
                                            checkedAt := smSet (fun _ => none) f.checkedAt k none,
                                            vals := smSet (fun _ => []) f.vals k [] } }

/-- A slot's sheaf is rejected or cancelled; one that is PENDING steps the generation (R138). DEDUCED: log entry 35. -/
def sheafReject (k reason entry detail : Nat) (s : State) : State :=
  let tag := smGet (fun _ => 0) s.shf.tags k
  let was := decide (shfState s k = 3)
  let s := sheafLast k reason entry detail (sheafLeave k s)
  let s := finishNow tag stRejected (reason * 2 ^ 16 + entry) detail 0 s
  if was then genStep s else s

/-- SHEAF_CHECK_DONE: the checker completes the check of the slot in CHECKING that was submitted first.
DEDUCED: log entry 48. -/
def sheafCheckDone (s : State) : State :=
  match s.shf.order.find? (fun k => decide (shfState s k = 2)) with
  | none => s
  | some k =>
    match sheafCheck s k with
    | .error (r, i, d) => sheafReject k r i d (granaryMet (shfBase k) (16 * shfCount s k) s)
    | .ok vals =>
      let f := s.shf
      setShfState k 3 { s with shf := { f with checkedAt := smSet (fun _ => none) f.checkedAt k (some s.updates),
                                                vals := smSet (fun _ => []) f.vals k vals } }

def execSheafCheckDone (s : State) : Host.Outcome State Fault Refusal := live s sheafCheckDone

/-! ## Slots and submission (R131, R132, R135, R139) -/

/-- SHEAF_SLOT_OPEN: the submitted fields are cleared, the entries stay. -/
def sheafOpen (k : Nat) (s : State) : State :=
  if shfState s k ≠ 0 then s
  else
    let s := wr64 (wr (wr s (R.SHF_SLOT_COUNT k) 0) (R.SHF_SLOT_CRC k) 0) (R.SHF_SLOT_TARGET_LO k) (R.SHF_SLOT_TARGET_HI k) 0
    setShfState k 1 s
def execSheafSlotOpen (slot : Fin 8) (s : State) : Host.Outcome State Fault Refusal := live s (sheafOpen slot.val)

/-- SHEAF_CANCEL. -/
def sheafCancel (k : Nat) (s : State) : State :=
  if shfState s k = 1 then setShfState k 0 s
  else if shfState s k = 0 then s
  else sheafReject k 20 0xFFFF 0 s
def execSheafCancel (slot : Fin 8) (s : State) : Host.Outcome State Fault Refusal := live s (sheafCancel slot.val)

/-- A write to bytes of a slot's entries (R131, R368). -/
def shfWrite (k a : Nat) (bs : List Byte) (s : State) : State :=
  if shfState s k = 1 then (if flag s R.GRN_STATUS 0 then gWrite s a bs else s)
  else if shfState s k = 0 then s
  else raiseOnce k { code := 0x40, unit := k, a0 := a } s

/-- SHEAF_SLOT_ENTRY_WRITE. -/
def execSheafSlotEntryWrite (slot : Fin 8) (word : Fin 16384) (v : Word) (s : State) : Host.Outcome State Fault Refusal :=
  live s (shfWrite slot.val (shfBase slot.val + 4 * word.val) (leBytes 4 v.toNat))

/-- SHEAF_SUBMIT executes. DEDUCED: log entry 48. -/
def sheafSubmit (c : Cmd) (s : State) : State :=
  let k := bits (c.w 2) 2 0
  let e := bits (c.w 3) 12 0
  let nt := c.w 4 + 2 ^ 32 * c.w 5
  if shfState s k ≠ 1 ∨ e = 0 ∨ 4096 < e then
    let st := shfState s k
    finishNow c.tag stRejected (19 * 2 ^ 16 + 0xFFFF) st 0 (sheafLast k 19 0xFFFF st s)
  else
    let s := wr (wr s (R.SHF_SLOT_COUNT k) (bits (c.w 2) 8 8 * 2 ^ 16 + e)) (R.SHF_SLOT_CRC k) (c.w 6)
    let s := wr64 s (R.SHF_SLOT_TARGET_LO k) (R.SHF_SLOT_TARGET_HI k) nt
    let f := s.shf
    let s := { s with shf := { f with order := f.order ++ [k], tags := smSet (fun _ => 0) f.tags k c.tag } }
    let s := waitCmd c.tag [] (setShfState k 2 s)
    if bits (c.w 2) 8 8 = 0 ∧ tickRun s ∧ tickInstant s nt ≤ s.clock then sheafReject k 18 0xFFFF (nt % 2 ^ 32) s else s

def execSheafSubmit (tag : Fin 4096) (s : State) : Host.Outcome State Fault Refusal :=
  live s (fun s => onCmd tag.val 0x20 s sheafSubmit)

/-- SHF_APPLIED_READ: a read of _APPLIED_LO latches _APPLIED_HI. -/
def execShfAppliedRead (slot : Fin 8) (s : State) : Host.Outcome State Fault Refusal :=
  live s (wideLatch (R.SHF_SLOT_APPLIED_LO slot.val) (R.SHF_SLOT_APPLIED_HI slot.val))

/-! ## Step 2 of a seal (R134 to R137) -/

/-- The first critical entry of a slot that is unsound (R137). DEDUCED: log entry 35. -/
def unsoundEntry (s : State) (k : Nat) : Option Nat :=
  (shfList s k).findIdx? (fun e => e.crit && !e.sound)

/-- EV_HUSK_FAULT for an unsound critical entry; no layer depends on it and no repair is due (R137).
DEDUCED: log entries 35, 36. -/
def entryFault (k i : Nat) (s : State) : State :=
  let e := shfEntry s k i
  let ix := 4096 * k + i
  let s := wr (addReg s R.WIN_HUSK_FAULT_COUNT 1) R.WIN_HUSK_FAULT (2 ^ 31 + 4 * 2 ^ 27 + ix)
  raise { code := 0x23, unit := ix, sub := 4, a0 := e.value, a1 := e.vk } (setFlag s R.WIN_STATUS 1 true)

/-- A sheaf applies at the seal of n; its command's tag, whose completion is still to be written. DEDUCED: log entry 51. -/
def sheafApply (n k : Nat) (s : State) : State × Option Nat :=
  match unsoundEntry s k with
  | some i => (sheafReject k 5 i (shfEntry s k i).off (entryFault k i s), none)
  | none =>
    let tag := smGet (fun _ => 0) s.shf.tags k
    let s := (smGet (fun _ => []) s.shf.vals k).foldl applyOne s
    let s := wideSet (R.SHF_SLOT_APPLIED_LO k) n (addReg s R.SHF_APPLIED_COUNT 1)
    (sheafLast k 0 0 0 (sheafLeave k s), some tag)

/-- Step 2: the slots in submission order. `applied` is the tag of the sheaf that has applied, `blocked` tells that a sheaf
before still waits. -/
def sheafStep (n : Nat) : List Nat → State → Option Nat → Bool → State × Option Nat
  | [], s, applied, _ => (s, applied)
  | k :: ks, s, applied, blocked =>
    let nt := shfTarget s k
    let exact := !shfNotBefore s k
    let missed := sheafReject k 18 0xFFFF (nt % 2 ^ 32) s
    if exact && decide (nt < n) then sheafStep n ks missed applied blocked
    else
      let done := (smGet (fun _ => none) s.shf.checkedAt k).any (fun u => decide (u < s.updates))
      if decide (nt ≤ n) && applied.isNone && !blocked && decide (shfState s k = 3) && done then
        let (s, a) := sheafApply n k s
        sheafStep n ks s a blocked
      else if exact && decide (nt = n) then sheafStep n ks missed applied blocked
      else sheafStep n ks s applied true

/-- The heads that a sheaf re-times at step 3 of this seal, of those whose timing it has changed (R311, R313). -/
def sheafRetimes (timed : List Nat) (s : State) : List Nat := timed.filter (mayRetime s)

/-- The completion of a sheaf that has applied: written now, or when the heads it re-timed run again (R136, R313). -/
def sheafComplete (tag : Nat) (heads : List Nat) (s : State) : State :=
  if heads = [] then finishNow tag stSuccess 0 0 0 s
  else
    let (n, rebase) := tickNow s
    { s with shf := { s.shf with deferred := s.shf.deferred ++ [(tag, n, rebase, heads)] } }

/-! ## DIRECT mode (R144 to R146) -/

/-- Units present of a DIRECT register: bits 0 to 31 from a first unit on. -/
def directMask (s : State) (reg : Nat) : Nat :=
  let unit (i : Nat) : Bool := if reg = 0 then unitPresent s.part .head i
    else if reg = 4 then decide (i = 0) else unitPresent s.part .src ((reg - 1) * 32 + i)
  ((List.range 32).filter unit).foldl (fun m i => m + 2 ^ i) 0

/-- A write to SHF_DIRECT_HEAD (0), SHF_DIRECT_SRC_0 to _2 (1 to 3) or SHF_DIRECT_DEV (4). DEDUCED: log entry 50. -/
def directEnter (reg v : Nat) (s : State) : State :=
  let off := if reg = 0 then R.SHF_DIRECT_HEAD else if reg = 4 then R.SHF_DIRECT_DEV else R.SHF_DIRECT_SRC (reg - 1)
  let scope := if reg = 0 then 0 else if reg = 4 then 2 else 1
  let base := if 1 ≤ reg ∧ reg ≤ 3 then (reg - 1) * 32 else 0
  let v := v &&& directMask s reg
  (List.range 32).foldl (fun s i =>
    if bit v i && !flag s off i then
      genStep (raise { code := 0x42, unit := base + i, sub := 4 + scope } (setFlag s off i true))
    else s) s

/-- DIRECT_ENTER. -/
def execDirectEnter (reg : Fin 5) (v : Word) (s : State) : Host.Outcome State Fault Refusal :=
  live s (directEnter reg.val v.toNat)

/-- Does a head scan, or is it to scan, in the raster that a direct write changes: RUNNING, or with its last frame in scan. -/
def scansOn (s : State) (h : Nat) : Bool :=
  decide (unitState s 1 h = 2) || (decide (unitState s 1 h = 3) && (headAt s h).scan.any Scan.active)

/-- A direct write to a head's H, V or PAIR acts from the next line on; the odd head of a pair ignores its own H and V
(R305, R316). DEDUCED: log entry 50. -/
def directRaster (pair : Bool) (off h : Nat) (s : State) : State :=
  let hs := if pair ∧ unitPresent s.part .head (h / 2 * 2 + 1) then [h / 2 * 2, h / 2 * 2 + 1] else headGroup s h
  if (!pair && decide (leader s h ≠ h)) || decide (rd s off = lrd s off) || !scansOn s h then s
  else
    let hs := hs.filter (scansOn s)
    eachHead hs directTiming (lwr (eachHead hs rasterAnchor s) off (rd s off))

/-- What an accepted direct write does before the next seal: a layer's address waits for the layer's next burst, timing of
a head that scans acts from the next line (R146, R316). DEDUCED: log entry 50. -/
def directEffect (r : RegRow) (off : Nat) (s : State) : State :=
  let h := (off - 0x300000) / 0x4000
  if r.base = R.HEAD_L_ADDR 0 0 ∨ r.base = R.HEAD_L_ADDR_HI 0 0 then
    if unitState s 1 h = 0 then s
    else
      let i := 16 * h + (off - 0x302000) % 0x4000 / 0x100
      let x := layerAt s i
      setLayer i { x with addr := x.addr.filter (fun p => decide (p.1 ≠ off)) ++ [(off, rd s off)] } s
  else if r.base = R.HEAD_H 0 ∨ r.base = R.HEAD_V 0 ∨ r.base = R.HEAD_MODE 0 then
    directRaster (decide (r.base = R.HEAD_MODE 0)) off h s
  else s

/-- A direct write to an ST register. DEDUCED: log entry 50. -/
def stDirectWrite (off v : Nat) (s : State) : State :=
  match regRow? off with
  | none => s
  | some (r, i) =>
    if r.st = 0 ∨ !unitPresent s.part r.unit (i / r.unitDiv) then s
    else if ((directScope off r).filter (inDirect s)).isNone then stIgnored off s
    else directEffect r off (genStep (wr s off (stStored r off v)))

/-- ST_DIRECT_WRITE. -/
def execStDirectWrite (off : Nat) (v : Word) (s : State) : Host.Outcome State Fault Refusal :=
  live s (stDirectWrite off v.toNat)

end Sys2Proof.Machine
end

