-- ==== Sys2Proof/Machine/Flags.lean ====
section
/-!
DEFINITION. Machine/Flags.lean: the status words and flags a register computes from the state when it is read: busy and state
bits, slot and buffer states, position of a head in a pair, levels and ages.
-/

namespace Sys2Proof.Machine

/-- LCS_KEYS: slot 4 programmed, slots revoked or destroyed, slots programmed (R436). Parts leave the vendor with its key. -/
def keysWord (s : State) : Nat :=
  let word (f : KeySlot → Bool) : Nat := (List.range 4).foldl (fun n k => n + ofBool (f (keySlotAt s k)) * 2 ^ k) 0
  2 ^ 8 + word (fun k => k.revoked || k.destroyed) * 2 ^ 4 + word (fun k => k.programmed)

/-- SHF_STATUS: slots CHECKING or PENDING, and slots STAGING (R131). -/
def shfStatus (s : State) : Nat :=
  (List.range 8).foldl (fun n k =>
    n + ofBool (decide (2 ≤ shfState s k)) * 2 ^ (8 + k) + ofBool (decide (shfState s k = 1)) * 2 ^ k) 0

/-- The CHK engine a command in progress runs on: context x on engine floor(x / 16), a snapshot of head h on engine h mod 4
(R374, R378). -/
def chkEngine (c : Cmd) : Option Nat :=
  if c.phase ≠ .waiting then none
  else if c.opcode = 0x30 then some (bits (c.w 2) 5 0 / 16)
  else if c.opcode = 0x32 ∧ c.aux ≠ [] then some (bits (c.w 2) 4 0 % 4)
  else none

/-- CHK_STATUS: engines with a job or snapshot in progress. -/
def chkStatus (s : State) : Nat :=
  (List.range 4).foldl (fun n e => n + ofBool (s.rng.cmds.any (fun c => decide (chkEngine c = some e))) * 2 ^ e) 0

/-- The register of a CHK context, as wide as its algorithm's CRC (R371, R377). -/
def chkRunNow (s : State) (x : Nat) : Nat :=
  rd64 s (R.CHK_RUN_LO x) (R.CHK_RUN_HI x) % 2 ^ (chkAlg (fld s (R.CHK_CFG x) 1 0)).width

/-- VEN_STATUS: pipelines that code a picture, sessions RUNNING (R329). -/
def venStatus (s : State) : Nat :=
  ((List.range 2).foldl (fun n p => n + ofBool (pipeBusy s p) * 2 ^ (16 + p)) 0)
    + (List.range 16).foldl (fun n k => n + ofBool (decide (unitState s 2 k = 2)) * 2 ^ k) 0

/-- LANE_n_FAR_AGE: ms since the last STATUS, 0xFFFF when none in the span (R207). -/
def farAge (s : State) (n : Nat) : Nat :=
  match (laneAt s n).farAt with
  | some t => min 0xFFFF ((s.elapsed - t) / (1000000 * nsUnit))
  | none => 0xFFFF

/-- DMC_PORT_p_STATUS: halved refill, and the signed bucket level in 64-byte units (R357, R362). -/
def portStatus (s : State) (p : Nat) : Nat :=
  let x := portFilled s p
  ofBool x.throttledUntil.isSome * 2 ^ 31 + uint 24 (x.tokens / (64 * tokenUnit))

/-- DSTATE of a channel: 0 IDLE, 1 WAIT_START, 2 DECODING, 3 WAIT_SLOT (R254, R262). -/
def decodeState (s : State) (c : Nat) : Nat :=
  if unitState s 0 c ≠ 2 ∨ srcKind s c ≠ 0 then 0
  else if !(chanAt s c).started then 1
  else if pictureReady s c && (freeSlot s c).isNone then 3
  else 2

/-- State codes of n slots from a first one on, three bits each (R260). -/
def slotStates (s : State) (c from_ n : Nat) : Nat :=
  (List.range n).foldl (fun w k => w + (if from_ + k < poolSize s c then slotState s c (from_ + k) else 0) * 8 ^ k) 0

/-- VDC_S_s_SLOT_COUNTS: slots FREE, DECODING, SEALED, REF, ENCODE (R260). -/
def slotCounts (s : State) (c : Nat) : Nat :=
  (List.range 5).foldl (fun w st => w + slotsIn s c st * 32 ^ st) 0

/-- HEAD_h_STATUS with the head's position in a pair (R305). -/
def headStatus (s : State) (h : Nat) : Nat :=
  let p := paired s h
  let second := p && decide (h % 2 = 1)
  let differs := [R.HEAD_H, R.HEAD_V, R.TCK_HEADPHASE].any (fun r => decide (lrd s (r h) ≠ lrd s (r (h - 1))))
  setBits (setBits (setBits (rd s (R.HEAD_STATUS h)) 6 6 (ofBool p)) 7 7 (ofBool second)) 8 8 (ofBool (second && differs))

/-- HEAD_h_POS: the line in scan, in active scan alone, which ends H_TOTAL − H_ACTIVE pixels after the last active pixel of a
frame that is not cut (R302, R303). DEDUCED: log entry 45. -/
def headPos (s : State) (h : Nat) : Nat :=
  let x := headAt s h
  if x.scan.any (fun sc => sc.active && !sc.cut) || x.endAt.any (fun t => decide (s.elapsed < t)) then rd s (R.HEAD_POS h) else 0

/-- HEAD_h_URGENT_US with the span in progress (R306). -/
def urgentUs (s : State) (h : Nat) : Nat :=
  let now := if flag s (R.HEAD_STATUS h) 5 then
      ((headAt s h).urgentRest + (s.elapsed - (headAt s h).urgentAt)) / (1000 * nsUnit) else 0
  rd s (R.HEAD_URGENT_US h) + now

/-- ORDER_FALLBACK of a head: an order table in use that is no permutation (R290). DEDUCED: log entry 40. -/
def orderFallback (s : State) (h : Nat) : Bool :=
  bit (lrd s (R.HEAD_CMP_CTRL h)) 0
    && !(List.range 16).all (fun l => (orderTable (lrd s (R.HEAD_CMP_ORDER_0 h)) (lrd s (R.HEAD_CMP_ORDER_1 h))).contains l)

/-- HEAD_h_WB_STATUS: WB_WAIT, ORDER_FALLBACK, the state of each writeback buffer (R290, R294, R296). -/
def wbStatus (s : State) (h : Nat) : Nat :=
  ofBool (headAt s h).wbNext.isSome * 2 ^ 25 + ofBool (orderFallback s h) * 2 ^ 24
    + (List.range 8).foldl (fun w k => w + (wbAt s h k).state * 8 ^ k) 0

/-- CMP_HCOEF and CMP_VCOEF: taps 2w + 1 and 2w of set j / 8 at phase j mod 8; V has three words (R285). -/
def coefWord (horizontal : Bool) (j w : Nat) : Nat :=
  let cs := if horizontal then hCoef (decide (8 ≤ j)) (j % 8) else vCoef (decide (8 ≤ j)) (j % 8)
  let tap (i : Nat) : Nat := uint 16 (cs.getD i 0)
  tap (2 * w + 1) * 2 ^ 16 + tap (2 * w)

end Sys2Proof.Machine
end

