-- ==== Sys2Proof/Machine/Seal.lean ====
section
/-!
DEFINITION. Machine/Seal.lean: the seal of a tick in the order of its nine steps (R25, R35, R36), and the end of a unit's
drain (R152, R176, R270, R310, R347).
-/

namespace Sys2Proof.Machine

/-! ## The seal -/

/-- A frame that is in scan at a seal has no end that the device reports: its writeback buffer is FREE. One over which the
clock has stepped goes on (R311). DEDUCED: log entry 34. -/
def dropScan (h : Nat) (s : State) : State :=
  match (headAt s h).scan with
  | none => s
  | some sc =>
    if sc.active && (headAt s h).stepPending then keepScene h s else
    let s := if sc.active then encWbFailed h sc.n s else encNoScan h sc.n s
    let s := match sc.wb with
      | some k => setWb h k { wbAt s h k with writing := false } s
      | none => s
    setHead h { headAt s h with scan := none } s

/-- Does BEAT move while Demal runs: ticks without it are counted (R19). DEDUCED: log entry 30. -/
def beatTick (beat : Bool) (s : State) : State :=
  if demalState s ≠ 2 then { s with tck := { s.tck with beatMissed := 0 } }
  else if beat then addReg { s with tck := { s.tck with beatMissed := 0 } } R.SYS_DEMAL_BEAT 1
  else { s with tck := { s.tck with beatMissed := s.tck.beatMissed + 1 } }

/-- Step 1: T_N and the holdover bound are kept, and the tick begins: the tick number and TCK_STATUS.RUNNING show it,
allowances of one event a tick start afresh, and trigger 9 fires (R126). -/
def sealBegin (n t : Nat) (s : State) : State :=
  let tck : TickSt := { s.tck with next := some (n + 1), first := none, everSealed := true, lastN := n,
                                   lastRebase := rd s R.TCK_REBASE, lastT := t, lastU := uBound s, once := [] }
  let s := wideSet R.TCK_N_LO n { s with tck := tck }
  let s := setFlag s R.TCK_STATUS 0 true
  if trigArmed s 9 then trigFires 9 s else s

/-- A change of power state that waited for step 3 (R440). -/
def sealPower (s : State) : State :=
  match s.pwr.change with
  | none => s
  | some want =>
    let s := { s with pwr := { s.pwr with change := none } }
    if powerState s = want then s else powerTurn want s

/-- Steps 1 to 3 of the seal of n at T_N = t. -/
def sealSettle (n t : Nat) (s : State) : State :=
  let s := sealBegin n t s
  let old := s
  let (s, tag) := sheafStep n s.shf.order s none false
  let timed := sheafTimed old s
  let heads := sheafRetimes timed s
  let s := sealLatch n old timed (sealPower s)
  match tag with
  | some tag => sheafComplete tag heads s
  | none => s

/-- Steps 4 to 8; `snap` is the state at T_N, on which the ledgers are balanced. -/
def sealJudge (t : Nat) (snap s : State) : State :=
  let s := eachLayer (layerSelect t) s
  let s := sealIntent (ledgerSeal snap (stateTables snap (poolStep s)))
  sealCover (sealClass t s)

/-- Every running channel earns its credits (R54). DEDUCED: log entry 32. -/
def sealCredits (s : State) : State :=
  (presentSources s).foldl (fun s c => if unitState s 0 c = 2 then earnCredits c s else s) s

/-- Step 9, with what the seal starts: frames to scan, encode inputs, snapshots, lane messages, corrections of
calibrations; a picture without a FREE slot is skipped at its end. -/
def sealClose (n t : Nat) (stopped : List Nat) (snap s : State) : State :=
  let s := sealRelease t stopped s
  let s := eachHead (presentHeads s) (headSealScan n t) s
  let s := sealSnapshots (sealEncode n t s)
  let s := (presentSources s).foldl (fun s c => decodeSkip snap c s) s
  calTick t (lanesSeal s)

/-- The seal of n at T_N = t. DEDUCED: log entries 34, 44. -/
def sealTick (n t : Nat) (o : SealObs) (s : State) : State :=
  let s := raiseTotals (eachHead (presentHeads s) dropScan (workSeal o.work s))
  let s := engineTick (pipeTick (beatTick o.beat s))
  let snap := s
  let s := trackSeal (mr4Seal o.mr4 (sealSettle n t s))
  let s := sealCredits (sealJudge t snap s)
  let s := sealClose n t (wbStopped snap s) snap s
  wr s R.TCK_SEAL_MAX (max (rd s R.TCK_SEAL_MAX) o.durNs.val)

/-- SEAL: tick N fires at the first counter update at or after T_N.
DESIGN CHOICE: log entries 4, 13. DEDUCED: log entries 34, 83. -/
def execTickSeal (o : SealObs) (s : State) : Host.Outcome State Fault Refusal :=
  live s (fun s =>
    match s.tck.next with
    | none => s
    | some n =>
      let t := tickInstant s n
      let s' := waitClock t s
      if s'.clock < t then s else sealTick n t o s')

/-! ## The end of a drain (R176) -/

/-- Is a command over: its status stands. -/
def Cmd.over (c : Cmd) : Bool :=
  match c.phase with
  | .due .. => true
  | _ => false

/-- Is every command of a unit complete, but for the disables that wait for OFF and the enable that waits behind the drain
(R176). -/
def unitCmdsDone (s : State) (kind u : Nat) : Bool :=
  s.rng.cmds.all (fun c => decide (c.unit ≠ some (kind, u)) || c.over
    || (decide (c.phase = .waiting) && decide (c.aux.head? = some auxDisabling ∨ c.aux.head? = some auxQueued)))

/-- A draining channel reaches OFF: cost returned, nothing of the session kept but its mapping, flow counts at 0
(R53, R230, R270). -/
def srcOff (c : Nat) (s : State) : State :=
  if !((List.range 16).all (fun k => decide ((slotAt s c k).state = 0))) || !unitCmdsDone s 0 c then s
  else
    let s := uncommit 0 c s
    let x := chanAt s c
    let s := setChan c { mappings := x.mappings, mapLapsed := x.mapLapsed } s
    let s := match flowOf s c with
      | some f => flowReset f s
      | none => s
    let s := damageRepair 5 (0x300 + c) (damageRepair 3 c (unitOff 0 c s))
    runQueued 0 c srcOpen (ledgerRepair s)

/-- A disabled head reaches OFF: its PLL stops (R310). -/
def headOff (h : Nat) (s : State) : State :=
  let x := headAt s h
  if !x.disabling || !x.sealedOff || x.scan.isSome || x.wbs.any (fun p => decide (p.2.state = 1 ∨ p.2.state = 4))
    || !unitCmdsDone s 1 h then s
  else
    let s := setHead h { x with pllOn := false, lockedAt := none, nf := none, disabling := false, sealedOff := false } s
    let s := setHeadState h 0 (setFlag s (R.HEAD_STATUS h) 3 false)
    let s := finishWaiters 1 h auxDisabling stSuccess s
    runQueued 1 h (headOpen h) (ledgerRepair (damageRepair 5 (0x200 + h) s))

/-- A stopped encode session reaches OFF: its last record, and its cost returned (R347). -/
def encOff (n : Nat) (s : State) : State :=
  if !encIdle s n || !unitCmdsDone s 2 n then s
  else runQueued 2 n encStart (ledgerRepair (unitOff 2 n (uncommit 2 n (encEnd n s))))

/-- A draining ring without a command in flight reaches OFF (R152). -/
def ringOff (u : Nat) (s : State) : State :=
  if s.rng.cmds.any (fun c => decide (c.sq = u)) then s else ledgerRepair (unitOff 3 u s)

/-- A draining unit reaches OFF, when its conditions hold. -/
def drainComplete (kind u : Nat) (s : State) : State :=
  let count := [96, 24, 16, 100].getD kind 0
  if count ≤ u ∨ unitState s kind u ≠ 3 then s
  else if kind = 0 then srcOff u s
  else if kind = 1 then headOff u s
  else if kind = 2 then encOff u s
  else ringOff u s

/-- UNIT_DRAIN_COMPLETE. -/
def execUnitDrainComplete (kind : Fin 4) (unit : Nat) (s : State) : Host.Outcome State Fault Refusal :=
  live s (drainComplete kind.val unit)

end Sys2Proof.Machine
end

