-- ==== Sys2Proof/Machine/Reset.lean ====
section
/-!
DEFINITION. Machine/Reset.lean: the resets (R15, R431, R432, R434, R471 to R474), the sequencing of the rails (R445), the
exit from KEEP (R443) and the PCIe link (R473).
-/

namespace Sys2Proof.Machine

/-! ## What a reset leaves -/

/-- Registers of the always-on domain: the PWR and TRM blocks, the time unit but triggers 9 to 11, DMC_CFG and DMC_RETAIN
(R442). DEDUCED: log entry 21. -/
def aonReg (off : Nat) : Bool :=
  decide ((0x20000 ≤ off ∧ off < 0x50000 ∧ ¬(R.TIM_TRIG_CTRL 9 ≤ off ∧ off < R.TIM_TRIG_CTRL 12)) ∨ off = R.DMC_CFG ∨ off = R.DMC_RETAIN)

/-- LCS registers that only PORST_n changes: the pending state and LCS_NONCE (R429, R431). DEDUCED: log entry 21. -/
def lcsKept (off : Nat) : Bool := decide (off = R.LCS_STATE ∨ (R.LCS_NONCE 0 ≤ off ∧ off ≤ R.LCS_NONCE 7))

/-- Every block but the always-on domain, the fuse latches and what depends on them is as after reset (R472).
DEDUCED: log entry 21. -/
def domainsReset (s : State) : State :=
  { pending := s.pending, part := s.part, supply := s.supply, porst := s.porst,
    regs := s.regs.filter (fun p => aonReg p.1 || lcsKept p.1),
    wide := s.wide.filter (fun p => aonReg p.1),
    clock := s.clock, elapsed := s.elapsed, updates := s.updates, cellar := s.cellar, losses := s.losses, host := s.host, draws := s.draws,
    tim := { s.tim with trigs := s.tim.trigs.filter (fun p => decide (p.1 < 9)) },
    lcs := { stateFuses := s.lcs.stateFuses, state := s.lcs.state, slots := s.lcs.slots, vendorAuth := s.lcs.vendorAuth },
    pwr := { s.pwr with change := none } }

/-- The device starts from its domains' reset: in RUN, with the locks that SEALED requires (R434, R439).
DEDUCED: log entry 23. -/
def deviceStart (s : State) : State :=
  let s := setFld s R.PWR_STATUS 1 0 0
  sealedRegions (setFld s R.TCK_STATUS 3 2 (timeState s))

/-! ## SYSRST_n (R118, R443, R459, R472) -/

/-- The time unit goes to FREE, with its event, and forgets a pending refusal (R118). DEDUCED: log entry 21. -/
def timeReset (s : State) : State := setFlag (setTimeState 0 s) R.TIM_STATUS 3 false

/-- The records of every calibration item return to 0 (R459). DEDUCED: log entry 21. -/
def trimRecordsReset (s : State) : State :=
  (List.range 73).foldl (fun s i =>
    wr (wideSet (R.TRM_TIME_LO i) 0 (wr s (R.TRM_COUNT i) 0)) (R.TRM_TIME_HI i) 0) s

/-- A reset by SYSRST_n in RUN or QUIET: calibrations are aborted, Cellar's content is undefined, the link is down.
DEDUCED: log entry 21. -/
def sysReset (s : State) : State :=
  let s := trimRecordsReset (domainsReset (calAbortAll s))
  deviceStart (timeReset (cellarLose 0 0 s))

/-! ## Rails (R445) -/

/-- The entries the power controller has still to turn on. -/
def railsLeft (s : State) : List RailEntry :=
  (s.pwr.rails.getD []).filter (fun e => !s.pwr.good.contains e.code)

/-- Is an entry the next in ORDER. DEDUCED: log entry 24. -/
def railNext (s : State) (code : Nat) : Option RailEntry :=
  let left := railsLeft s
  (left.find? (fun e => left.all (fun f => decide (e.order ≤ f.order)))).bind (fun e => if e.code = code then some e else none)

/-- A device whose rails the board sequences waits for all eight monitors (R445). DEDUCED: log entry 24. -/
def railsByBoard (s : State) : Bool := decide (s.pwr.rails.getD [] = [])

/-- Every rail is good: on a cold start the device comes out of reset; an exit from KEEP counts, and the DRAM channels train
with the configuration kept (R365, R443). DEDUCED: log entry 24. -/
def railsGood (s : State) : State :=
  let back := s.pwr.fromKeep
  let s := { s with supply := .on, pwr := { s.pwr with fromKeep := false } }
  if back then
    let mask := s.cell.keepMask
    let s := deviceStart (addReg (domainsReset s) R.PWR_KEEP_COUNT 1)
    let s := { s with cell := { s.cell with keepRetained := true, keepMask := mask } }
    (channels s).foldl (fun s c => trainStart c s) s
  else deviceStart s

/-- Have all rails come up. DEDUCED: log entry 23. -/
def railsDone (s : State) : Bool :=
  if railsByBoard s then s.pwr.fromKeep || (List.range 8).all (fun r => s.pwr.good.contains r) else (railsLeft s).isEmpty

/-- A rail is good; the command of VDD_CORE is that of its table entry (R446). -/
def railGood (code : Nat) (e : Option RailEntry) (s : State) : State :=
  let s := { s with pwr := { s.pwr with good := s.pwr.good ++ [code] } }
  let s := match e with
    | some e => (if code = 0 then wr s R.PWR_AVS_VOUT (e.vout % 1024) else s)
    | none => s
  if railsDone s then railsGood s else s

/-- RAIL_SEQUENCE_STEP: a rail, commanded after its delay, reaches power-good; without a table the board brings rails up
in its own order. DEDUCED: log entry 24. -/
def execRailSequenceStep (rail : Fin 8) (s : State) : Host.Outcome State Fault Refusal :=
  .next (
    if s.supply ≠ .rising ∨ s.porst then s
    else if railsByBoard s then
      (if s.pwr.good.contains rail.val then s else railGood rail.val none s)
    else match railNext s rail.val with
      | some e => railGood rail.val (some e) (passUpdates (usUpdates (1000 * e.delayMs)) s)
      | none => s)

/-! ## PORST_n (R15, R431, R432, R471) -/

/-- What PORST_n leaves: the fuses, and nothing of Cellar's content; the local clock starts at 0. DEDUCED: log entry 22. -/
def coldReset (s : State) : State :=
  let s := cellarLose 0 0 s
  { pending := s.pending, part := s.part, supply := .off, porst := true, cellar := s.cellar, losses := s.losses,
    host := s.host, draws := s.draws,
    lcs := { stateFuses := s.lcs.stateFuses, state := s.lcs.state, slots := s.lcs.slots } }

/-- PORST_N_ASSERT. DEDUCED: log entry 22. DESIGN CHOICE: log entry 78. -/
def execPorstNAssert (s : State) : Host.Outcome State Fault Refusal := .next (coldReset s)

/-- The fuses rule: the life-cycle state, and the slots that RETURN and VOID destroy (R431, R432, R437).
DEDUCED: log entry 22. -/
def fusesRule (s : State) : State :=
  let st := fusedState s
  let s := { s with lcs := { s.lcs with state := st } }
  if st = lcReturn ∨ st = lcVoid then destroySlots s else s

/-- PORST_N_RELEASE: the power controller reads the rail table and begins to turn the rails on. DEDUCED: log entry 22. -/
def execPorstNRelease (table : List Byte) (g33 : Bool) (s : State) : Host.Outcome State Fault Refusal :=
  .next (
    if !s.porst then s
    else
      let s := renewNonce (fusesRule { s with porst := false, supply := .rising })
      { s with pwr := { s.pwr with rails := railTable table, good := [], gLevel := if g33 then 3300 else 1800 } })

/-! ## KEEP (R443) -/

/-- A wake cause is taken: the rails that KEEP had turned off come back in order. DEDUCED: log entry 23. -/
def wakeTake (cause : Nat) (s : State) : State :=
  let s := setFld s R.PWR_STATUS 19 18 cause
  let good := ((s.pwr.rails.getD []).filter (fun e => !e.offInKeep)).map (fun e => e.code)
  let s := { s with supply := .rising, pwr := { s.pwr with fromKeep := true, good := good } }
  if railsDone s then railsGood s else s

/-- Does a GPIO level wake: bit n of PWR_WAKE_GPIO set and the pin at its level of PWR_WAKE_POL. -/
def gpioWakes (s : State) (pins : Nat) : Bool :=
  (List.range 32).any (fun n => flag s R.PWR_WAKE_GPIO n && decide (bit pins n = flag s R.PWR_WAKE_POL n))

/-- The time of PWR_WAKE_AT. -/
def wakeAt (s : State) : Nat := mkTime (rd64 s R.PWR_WAKE_AT_LO R.PWR_WAKE_AT_HI) (fld s R.PWR_WAKE_AT_NS 29 0) 0

/-- KEEP_WAKE; `gpio` is the level of the GPIO pins. DEDUCED: log entry 23. -/
def execKeepWake (cause : Fin 4) (gpio : Word) (s : State) : Host.Outcome State Fault Refusal :=
  .next (
    if s.supply ≠ .keep ∨ s.porst then s
    else if cause.val = 1 then (if gpioWakes s gpio.toNat then wakeTake 1 s else s)
    else if cause.val = 2 then
      (if flag s R.PWR_WAKE_AT_NS 31 then
        let s' := waitClock (wakeAt s) s
        if s'.clock < wakeAt s then s else wakeTake 2 s'
      else s)
    else if cause.val = 3 then wakeTake 3 s
    else s)

/-- SYSRST_N: in KEEP a wake, else a reset. DEDUCED: log entry 23. DESIGN CHOICE: log entry 78. -/
def execSysrstN (s : State) : Host.Outcome State Fault Refusal :=
  .next (if s.porst then s else if s.supply = .keep then wakeTake 3 s else if s.supply = .on then sysReset s else s)

/-! ## The PCIe link (R473) -/

/-- EV_PCIE_LINK. DEDUCED: log entry 20. -/
def linkEvent (up width gen : Nat) (s : State) : State :=
  if running s then raise { code := 8, sub := up, a0 := width * 16 + gen } s else s

/-- PCIE_PERST_N: the endpoint is reset, its interrupt table with it, and the link goes down.
PRESUMED: log entry 18. DEDUCED: log entry 20. -/
def execPciePerstN (s : State) : Host.Outcome State Fault Refusal :=
  .next (
    if !powered s then s
    else
      let up := s.linkUp
      let s := { s with linkUp := false, bar2 := [] }
      if up then linkEvent 0 0 0 s else s)

/-- PCIE_LINK_UP: the link trains to Gen1 to Gen4 at x1, x2 or x4 (R149). DEDUCED: log entry 20. -/
def execPcieLinkUp (width gen : Fin 16) (s : State) : Host.Outcome State Fault Refusal :=
  .next (
    if !powered s || s.linkUp || !decide ((width.val = 1 ∨ width.val = 2 ∨ width.val = 4) ∧ 1 ≤ gen.val ∧ gen.val ≤ 4) then s
    else linkEvent 1 width.val gen.val { s with linkUp := true })

end Sys2Proof.Machine
end

