-- ==== Sys2Proof/Machine/RegFile.lean ====
section
/-!
DEFINITION. Machine/RegFile.lean: reads and writes of BAR0 registers by software (R1, R2, R6, R10): a read's side effect, the
values a register computes, what a write to each register does. Every command that stands for one register's write has the
same meaning as the write it stands for.
-/

namespace Sys2Proof.Machine

/-- The state after a meaning that answers a next state; a meaning that stops changes nothing. -/
def after (f : State → Host.Outcome State Fault Refusal) (s : State) : State :=
  match f s with
  | .next t => t
  | _ => s

/-- The instance of an array of n registers that an offset names. -/
def instOf (base n stride off : Nat) : Option (Fin n) :=
  if h : base ≤ off ∧ (off - base) % stride = 0 ∧ (off - base) / stride < n then some ⟨(off - base) / stride, h.2.2⟩
  else none

/-- Run an operation on the instance an offset names; another offset goes on to `rest`. -/
def onInst (n base stride off : Nat) (f : Fin n → State → State) (rest : State → State) (s : State) : State :=
  match instOf base n stride off with
  | some i => f i s
  | none => rest s

/-- The event codes that R175 lists. DEDUCED: log entry 19. -/
def eventListed (c : Nat) : Bool :=
  [(0x00, 0x09), (0x10, 0x16), (0x20, 0x27), (0x30, 0x39), (0x40, 0x42), (0x48, 0x53), (0x60, 0x66), (0x70, 0x75),
   (0x80, 0x88), (0x90, 0x93), (0x98, 0x9D), (0xA0, 0xA4), (0xA8, 0xAE), (0xB0, 0xB7)].any (fun p => decide (p.1 ≤ c ∧ c ≤ p.2))

/-- Is an offset the EVT_CODE or EVT_COUNT register of a code that no event has. DEDUCED: log entry 19. -/
def eventAbsent (off : Nat) : Bool :=
  match instOf (R.EVT_CODE 0) 192 4 off, instOf (R.EVT_COUNT 0) 192 4 off with
  | some c, _ => !eventListed c.val
  | none, some c => !eventListed c.val
  | none, none => false

/-- Does the LCS block hold an offset: in VOID it and SYS_ID alone answer (R437). -/
def inLcs (off : Nat) : Bool := decide (0x10000 ≤ off ∧ off < 0x20000)

/-- The register that a word access at an offset names: the row and its index, where the offset is aligned, a chapter
defines it, its unit is present, its event code is listed, and in VOID it answers (R2, R10, R175, R437).
DESIGN CHOICE: log entry 7. DEDUCED: log entry 14. -/
def regNamed (s : State) (off : Nat) : Option (RegRow × Nat) :=
  match regRow? off with
  | some (r, i) =>
    if off % 4 = 0 ∧ !eventAbsent off ∧ unitPresent s.part r.unit (i / r.unitDiv)
        ∧ (s.lcs.state ≠ 4 ∨ inLcs off ∨ off = R.SYS_ID) then some (r, i)
    else none
  | none => none

/-! ## Reads -/

/-- The effect of a read on the state: pairs and groups that it latches, a stamp it takes out of its FIFO, the wait of
GRD_g_SYNC, the turns of a CHK engine up to the read (R377). -/
def readEffect (off : Nat) (s : State) : State :=
  if off = R.TIM_NOW_SEC_LO then after execTimNowRead s
  else if off = R.TIM_U_LO then after execTimURead s
  else if off = R.TCK_N_LO then after execTckNRead s
  else
    (onInst 73 (R.TRM_TIME_LO 0) 16 off (fun i => after (execTrmTimeRead i)) <|
     onInst 17 (R.TIM_CAP_SEC_LO 0) 0x20 off (fun i => after (execCaptureFifoRead i)) <|
     onInst 8 (R.SHF_SLOT_APPLIED_LO 0) 0x20 off (fun i => after (execShfAppliedRead i)) <|
     onInst 28 (R.GRD_SYNC 0) 0x400 off (fun i => after (execGuardSyncRead i)) <|
     onInst 32 (R.LANE_RX_SPAN_START 0) 0x400 off (fun i => after (execLaneRxSpanRead i)) <|
     onInst 32 (R.LANE_FAR_SPAN_START 0) 0x400 off (fun i => after (execLaneFarSpanRead i)) <|
     onInst 1024 (R.VST_FLOW_ARRIVED_A 0) 0x40 off (fun i => after (execFlowCountsRead i)) <|
     onInst 96 (R.VDC_S_SLOT_COUNTS 0) 0x80 off (fun i => after (execVdcSlotCountsRead i)) <|
     onInst 16 (R.VEN_NEXT_N_LO 0) 0x100 off (fun i => after (execEncNextNRead i)) <|
     onInst 24 (R.HEAD_LAST_N_LO 0) 0x4000 off (fun i => after (execHeadLastNRead i)) <|
     onInst 24 (R.HEAD_FIRST_N_LO 0) 0x4000 off (fun i => after (execHeadFirstNRead i)) <|
     onInst 64 (R.CHK_RUN_LO 0) 32 off (fun x => chkCatch (x.val / 16)) <|
     onInst 64 (R.CHK_RUN_HI 0) 32 off (fun x => chkCatch (x.val / 16)) <|
     onInst 4 (R.CHK_E_KIB 0) 4 off (fun e => chkCatch e.val) <| id) s

/-- Try the instances of an array in turn. -/
def valInst (n base stride off : Nat) (f : Nat → Nat) (rest : Unit → Option Nat) : Option Nat :=
  match instOf base n stride off with
  | some i => some (f i.val)
  | none => rest ()

/-- Registers of the SYS and LCS blocks that report fuses and states (R4, R16, R427, R430, R436). -/
def sysValue (s : State) (off : Nat) : Option Nat :=
  if off = R.SYS_ID then some (Config.sysId s.part)
  else if off = R.LCS_STATE then
    some ((rd s off &&& 0x710000) + ofBool s.lcs.vendorAuth * 2 ^ 9 + ofBool (debugOpen s) * 2 ^ 8 + s.lcs.state)
  else if off = R.LCS_KEYS then some (keysWord s)
  else valInst 4 R.SYS_UNITS0 4 off (Config.sysUnits s.part) fun _ =>
    valInst 4 (R.LCS_UID 0) 4 off (fun i => (Config.uidWord i).toNat) fun _ =>
    if 0x10100 ≤ off ∧ off < 0x10240 then some (ofLe (((slotHash s ((off - 0x10100) / 0x40)).drop (off % 0x40)).take 4))
    else none

/-- Registers of the services that report what the state holds elsewhere. -/
def serviceValue (s : State) (off : Nat) : Option Nat :=
  if off = R.TCK_TIMEBASE_ID then some (timebaseId s)
  else if off = R.SHF_STATUS then some (shfStatus s)
  else if off = R.CHK_STATUS then some (chkStatus s)
  else if off = R.CPX_STATUS then some (setBits (rd s off) 2 2 (ofBool (cpxBusy s)))
  else if off = R.DMC_CEILING then some (planCeiling s)
  else if off = R.VEN_STATUS then some (venStatus s)
  else valInst 73 (R.TRM_INFO 0) 16 off
      (fun i => if calPresent s.part i then setBits (rd s off) 2 0 ((calKind i).getD 0) else rd s off) fun _ =>
    valInst 28 (R.GRD_STATUS 0) 0x400 off (fun g => setBits (rd s off) 2 2 (ofBool (guardOverlap s g).isSome)) fun _ =>
    valInst 64 (R.CHK_CFG 0) 32 off (fun x => setBits (rd s off) 2 2 (ofBool (chkInFlight s x))) fun _ =>
    valInst 64 (R.CHK_RUN_LO 0) 32 off (fun x => chkRunNow s x) fun _ =>
    valInst 64 (R.CHK_RUN_HI 0) 32 off (fun x => chkRunNow s x / 2 ^ 32) fun _ =>
    valInst 32 (R.LANE_FAR_AGE 0) 0x400 off (farAge s) fun _ =>
    valInst 4 (R.QUAD_STATUS 0) 0x1000 off (fun _ => setBits (rd s off) 16 16 1) fun _ =>
    valInst 24 (R.DMC_PORT_STATUS 0) 8 off (portStatus s) fun _ =>
    valInst 24 (R.DMC_PORT_BYTES 0) 4 off (fun p => (portAt s p).bytes / 1024) fun _ =>
    valInst 8 (R.DMC_CH_DEBT 0) 0x10000 off (fun c => min 0xFFFF (refDebt s c / nsUnit)) fun _ =>
    if 0xD0100 ≤ off ∧ off < 0xD0220 ∧ off % 32 < 16 then some (Config.refTrim ((off - 0xD0100) / 32) (off % 32 / 4))
    else none

/-- Registers of channels, layers and heads that report what the state holds elsewhere. -/
def videoValue (s : State) (off : Nat) : Option Nat :=
  valInst 24 (R.WIN_DP_HEAD 0) 4 off (dpHead s) fun _ =>
  valInst 96 (R.WIN_S_DP_STATE 0) 32 off (dpSrc s) fun _ =>
  valInst 96 (R.SRC_CTRL 0) 0x100 off
    (fun c => setBits (rd s off) 0 0 (ofBool (decide (unitState s 0 c = 1 ∨ unitState s 0 c = 2)))) fun _ =>
  valInst 24 (R.HEAD_CTRL 0) 0x4000 off
    (fun h => ofBool (decide (unitState s 1 h = 1 ∨ unitState s 1 h = 2))) fun _ =>
  valInst 96 (R.VDC_S_STATE 0) 0x80 off (fun c => setBits (rd s off) 18 16 (decodeState s c)) fun _ =>
  valInst 96 (R.VDC_S_CREDIT_FRAME 0) 0x80 off (fun c => (chanAt s c).credit * 65536 / frameUnit s) fun _ =>
  valInst 96 (R.VDC_S_CREDIT_ENT 0) 0x80 off (fun c => (chanAt s c).entCredit) fun _ =>
  valInst 96 (R.VDC_S_CREDIT_PIX 0) 0x80 off (fun c => (chanAt s c).pixCredit) fun _ =>
  valInst 96 (R.VDC_S_SLOTS_A 0) 0x80 off (fun c => slotStates s c 0 10) fun _ =>
  valInst 96 (R.VDC_S_SLOTS_B 0) 0x80 off (fun c => slotStates s c 10 6) fun _ =>
  valInst 96 (R.VDC_S_SLOT_COUNTS 0) 0x80 off (slotCounts s) fun _ =>
  valInst 24 (R.HEAD_STATUS 0) 0x4000 off (headStatus s) fun _ =>
  valInst 24 (R.HEAD_POS 0) 0x4000 off (headPos s) fun _ =>
  valInst 24 (R.HEAD_PIXCLK 0) 0x4000 off (pixelRate s) fun _ =>
  valInst 24 (R.HEAD_URGENT_US 0) 0x4000 off (urgentUs s) fun _ =>
  valInst 24 (R.HEAD_WB_STATUS 0) 0x4000 off (wbStatus s) fun _ =>
  if 0x280100 ≤ off ∧ off < 0x280200 then some (coefWord true ((off - 0x280100) / 16) (off % 16 / 4))
  else if 0x280200 ≤ off ∧ off < 0x280300 then some (coefWord false ((off - 0x280200) / 16) (off % 16 / 4))
  else none

/-- The value a read of a named register returns. -/
def regValue (s : State) (off : Nat) : Nat :=
  ((sysValue s off).or ((serviceValue s off).or (videoValue s off))).getD (rd s off) % 2 ^ 32

/-- A read of a BAR0 register: its effect, and the value it returns; 0 where nothing answers (R2, R10). -/
def regRead (off : Nat) (s : State) : State × Nat :=
  match regNamed s off with
  | none => (s, 0)
  | some _ =>
    let t := readEffect off s
    (t, regValue t off)

/-! ## Writes -/

/-- The bits of a stored value after a plain write: RW bits take the value, W1C bits that are written 1 clear. -/
def plainValue (r : RegRow) (old v : Nat) : Nat :=
  let kept := (old ||| r.rw) ^^^ r.rw
  ((kept ||| (v &&& r.w1c)) ^^^ (v &&& r.w1c)) ||| (v &&& r.rw)

/-- A write to a register with no behaviour of its own. -/
def plainWrite (r : RegRow) (off v : Nat) (s : State) : State :=
  if r.rw ||| r.w1c = 0 then s else wr s off (plainValue r (rd s off) v)

/-- A write to a register whose stored value is held within bounds. -/
def clampedRange (off : Nat) : Option (Nat × Nat × Nat) :=
  if off = R.TRM_INTERVAL then some (17, 60, 86400)
  else if off = R.DMC_TRACK then some (16, 10, 10000)
  else if off = R.DMC_RD then some (16, 256, 65535)
  else if off = R.DMC_SR then some (16, 10, 65535)
  else if off = R.GRN_SCRUB then some (17, 10, 86400)
  else if (instOf (R.LANE_BLIND 0) 32 0x400 off).isSome then some (16, 100, 65535)
  else none

/-- A write to a SRC_s register that is writable only while the channel is OFF (R238). -/
def srcHeld (s : State) (off : Nat) : Bool :=
  let o := off % 0x100
  decide (0x180000 ≤ off ∧ off < 0x186000 ∧ 8 ≤ o ∧ o < 0x40 ∧ unitState s 0 ((off - 0x180000) / 0x100) ≠ 0)

/-- Writes to the TIM block. -/
def timWrite (r : RegRow) (off v : Nat) (s : State) : State :=
  if off = R.TIM_CTRL then (if bit v 0 then setFlag s R.TIM_CTRL 0 true else servoOff s)
  else if off = R.TIM_FREQ then freqWrite 0 v s
  else if off = R.TIM_INC_NOM_LO then freqWrite 1 v s
  else if off = R.TIM_INC_NOM_HI then freqWrite 2 v s
  else if off = R.TIM_SET_CMD then (if bit v 0 then timeSet s else s)
  else if off = R.TIM_SRV_CMD then (if bit v 31 then servoSample s else s)
  else if off = R.TIM_FMAX ∨ off = R.TIM_STEP_LIMIT ∨ off = R.TIM_HOLD_TIMEOUT ∨ off = R.TIM_HO_RATE then timRegWrite off v s
  else if R.TIM_TRIG_CTRL 0 ≤ off ∧ off < R.TIM_TRIG_CTRL 12 then
    let t := (off - R.TIM_TRIG_CTRL 0) / 0x40
    if off = R.TIM_TRIG_CTRL t then trigCtrlWrite t v s
    else if off = R.TIM_TRIG_FIRED t then s
    else trigRegWrite t off v s
  else plainWrite r off v s

/-- Writes to the TCK block; its ST registers are handled before. -/
def tckWrite (r : RegRow) (off v : Nat) (s : State) : State :=
  if off = R.TCK_CTRL then (if bit v 0 then tickStart s else tickStop s)
  else if off = R.TCK_PERIOD_NUM then timebaseWrite 0 v s
  else if off = R.TCK_PERIOD_DEN then timebaseWrite 1 v s
  else if off = R.TCK_PHASE_NS then timebaseWrite 2 v s
  else if off = R.TCK_PHASE_FRAC then timebaseWrite 3 v s
  else if off = R.TCK_GUARD then guardPmWrite v s
  else plainWrite r off v s

/-- Writes to the SHF block. -/
def shfRegWrite (r : RegRow) (off v : Nat) (s : State) : State :=
  (onInst 8 (R.SHF_SLOT_CTRL 0) 0x20 off (fun k s =>
      let s := if bit v 1 then sheafCancel k.val s else s
      if bit v 0 then sheafOpen k.val s else s) <|
   onInst 1 R.SHF_DIRECT_HEAD 4 off (fun _ => directEnter 0 v) <|
   onInst 3 (R.SHF_DIRECT_SRC 0) 4 off (fun j => directEnter (1 + j.val) v) <|
   onInst 1 R.SHF_DIRECT_DEV 4 off (fun _ => directEnter 4 v) <|
   plainWrite r off v) s

/-- The ring whose registers hold an offset. -/
def ringAtOff (off : Nat) : Option Nat :=
  if 0x81000 ≤ off ∧ off < 0x82000 then some ((off - 0x81000) / 0x40)
  else if 0x82000 ≤ off ∧ off < 0x82900 then some (64 + (off - 0x82000) / 0x40)
  else none

/-- Writes to the RNG block. -/
def rngWrite (r : RegRow) (off v : Nat) (s : State) : State :=
  match ringAtOff off with
  | some u =>
    if off = ringCfg u then ringCfgWrite u v s
    else if off = ringBase u ∨ off = ringBase u + 4 then ringBaseWrite u off v s
    else plainWrite r off v s
  | none => plainWrite r off v s

/-- Writes to the EVT block. DEDUCED: log entry 19. -/
def evtWrite (r : RegRow) (off v : Nat) (s : State) : State :=
  onInst 4 (R.EVT_PIN_ACK 0) 16 off (fun p s => if bit v 0 then wr s (R.EVT_PIN_STATUS p.val) 0 else s)
    (plainWrite r off v) s

/-- Writes to the CHK and CPX blocks. -/
def jobWrite (r : RegRow) (off v : Nat) (s : State) : State :=
  if off = R.CPX_JOURNAL_LO then cpxJournalStore false v s
  else if off = R.CPX_JOURNAL_HI then cpxJournalStore true v s
  else if 0xB0100 ≤ off ∧ off < 0xB0900 ∧ off % 32 < 12 then chkContext ((off - 0xB0100) / 32) (off % 32 / 4) v s
  else plainWrite r off v s

/-- Writes to the LNK lanes. -/
def laneWriteReg (r : RegRow) (off v : Nat) (s : State) : State :=
  onInst 32 (R.LANE_CTRL 0) 0x400 off (fun n => if bit v 0 then laneEnable n.val v else laneDisable n.val v)
    (plainWrite r off v) s

/-- Writes to the SRC, VEN and HEAD blocks. -/
def unitWrite (r : RegRow) (off v : Nat) (s : State) : State :=
  (onInst 96 (R.SRC_CTRL 0) 0x100 off (fun c => if bit v 0 then srcRegEnable c.val v else srcRegDisable c.val v) <|
   onInst 16 (R.VEN_REC_CONS 0) 0x100 off (fun n => encRecCons n.val v) <|
   onInst 24 (R.HEAD_CTRL 0) 0x4000 off (fun h => if bit v 0 then headRegEnable h.val else headRegDisable h.val) <|
   (fun s =>
     if 0x302000 ≤ off ∧ (off - 0x302000) % 0x4000 < 0x1000 ∧ off % 0x100 = 0x34 then
       (if bit v 0 then touchTake ((off - 0x302000) / 0x4000) ((off - 0x302000) % 0x4000 / 0x100) s else s)
     else plainWrite r off v s)) s

/-- Writes to the DMC block. -/
def dmcWrite (r : RegRow) (off v : Nat) (s : State) : State :=
  if off = R.DMC_CFG then dmcCfgWrite v s
  else if off = R.DMC_CTRL then dmcCtrlWrite v s
  else plainWrite r off v s

/-- Writes to the LCS, PWR and TRM blocks. -/
def powerWrite (r : RegRow) (off v : Nat) (s : State) : State :=
  if 0x11000 ≤ off ∧ off < 0x11200 then reqBufWrite off v s
  else if off = R.PWR_THR ∨ off = R.PWR_AVS_LIMITS ∨ off = R.PWR_AVS_MARGIN then pwrRegWrite off v s
  else if off = R.TRM_CMD then trmCmdWrite v s
  else plainWrite r off v s

/-- A write to a named register that is neither ST nor one of an HK pair. `core`: a Hearth core makes it, so Demal's own
registers take it while Demal runs. -/
def blockWrite (core : Bool) (r : RegRow) (off v : Nat) (s : State) : State :=
  if off < 0x40000 then powerWrite r off v s
  else if off < 0x50000 then timWrite r off v s
  else if off < 0x60000 then tckWrite r off v s
  else if off < 0x70000 then plainWrite r off v s
  else if off < 0x80000 then shfRegWrite r off v s
  else if off < 0x90000 then rngWrite r off v s
  else if off < 0xA0000 then evtWrite r off v s
  else if off < 0xB0000 then guardRegWrite off v s
  else if off < 0xD0000 then jobWrite r off v s
  else if off < 0x100000 then (if core then plainWrite r off v s else if off = R.TCH_CTRL then tchCtrlWrite v s else plainWrite r off v s)
  else if off < 0x140000 then laneWriteReg r off v s
  else if off < 0x180000 then plainWrite r off v s
  else if off < 0x400000 then unitWrite r off v s
  else if off < 0x500000 then dmcWrite r off v s
  else plainWrite r off v s

/-- A write of a BAR0 register word (R2, R10): HK pairs go to their V or K word, ST registers to a direct write, values with
bounds are stored clamped, every other register acts as its block's chapter states. DESIGN CHOICE: log entry 7. -/
def regWrite (core : Bool) (off v : Nat) (s : State) : State :=
  match regNamed s off with
  | none => s
  | some (r, _) =>
    if r.kWord then huskK (off - 4) v (huskEffect (off - 4)) s
    else if r.hk ≠ 0 then huskV off v s
    else if r.st ≠ 0 then stDirectWrite off v s
    else if srcHeld s off then s
    else match clampedRange off with
      | some (n, lo, hi) => wr s off (clampNat lo hi (v % 2 ^ n))
      | none => blockWrite core r off v s

/-- REGISTER_WRITE: host software writes a register (R10). DESIGN CHOICE: log entry 7. -/
def execRegisterWrite (off : Nat) (v : Word) (s : State) : Host.Outcome State Fault Refusal :=
  .next (if powered s then regWrite false off v.toNat s else s)

end Sys2Proof.Machine
end

