-- ==== Sys2Proof/Machine/Bus.lean ====
section
/-!
DEFINITION. Machine/Bus.lean: an access of a bus master (R411 to R418) and of the debug port (R425): the spaces it reaches, its
guard's check, and what the registers, the Granary, Cellar and host memory do with the parts that pass.
-/

namespace Sys2Proof.Machine

/-! ## Masters (R411) -/

/-- Does the master of a guard reach a space: 0 Cellar, 1 Granary, 2 registers, 3 host memory. -/
def guardReaches (g sp : Nat) : Bool :=
  if g < 4 ∨ g = 27 then true
  else if g = 4 then decide (sp = spGranary ∨ sp = spRegs)
  else if g = 5 ∨ (14 ≤ g ∧ g < 22) ∨ g = 25 ∨ g = 26 then decide (sp = spCellar ∨ sp = spHost)
  else decide (sp = spCellar)

/-- The DMC port of a guard's master (R356, R411). -/
def guardPort (g dma : Nat) : Nat :=
  if g < 2 then 19 else if g < 4 then 20 else if g = 5 then 18 else if g < 10 then 8 else if g < 14 then g - 1
  else if g < 16 then g - 1 else if g < 22 then g - 16 else if g < 24 then g - 16 else if g = 24 then 15 + dma
  else g - 4

/-- Is the master of a guard present (R412, R16). DEDUCED: log entry 14. -/
def masterPresent (p : Part) (g : Nat) : Bool :=
  if 6 ≤ g ∧ g < 10 then unitPresent p .ent (g - 6)
  else if 10 ≤ g ∧ g < 14 then unitPresent p .pix (2 * (g - 10))
  else if 14 ≤ g ∧ g < 16 then unitPresent p .enc (g - 14)
  else if 16 ≤ g ∧ g < 22 then unitPresent p .head (4 * (g - 16))
  else if 22 ≤ g ∧ g < 24 then unitPresent p .head (12 * (g - 22))
  else true

/-- Bytes, and kind of check, of an access; a fetch of any other master than a Hearth core is a read, for X is ignored
there (R415). -/
def opLen : BusOp → Nat
  | .read n => n.val
  | .fetch n => n.val
  | .write d => d.length
  | .atomic d => d.length
def opAcc (g : Nat) : BusOp → Acc
  | .read _ => .read
  | .fetch _ => if g < 4 then .fetch else .read
  | .write _ => .write
  | .atomic _ => .atomic

/-! ## Registers (R10, R150, R153) -/

/-- A read of a word of the register space: BAR0, or BAR2 from 0x0100_0000 on, where doorbells read 0. -/
def regSpaceWord (a : Nat) (s : State) : State × Nat :=
  if a < 0x01000000 then regRead a s
  else
    let o := a - 0x01000000
    if s.lcs.state ≠ 4 ∧ ((0x8000 ≤ o ∧ o < 0x8400) ∨ (0x9000 ≤ o ∧ o < 0x9008)) then (s, ofLe (b2Read s o 4)) else (s, 0)

/-- The words of a read, in rising order. DEDUCED: log entry 15. -/
def regSpaceRead : Nat → Nat → State → State × List Byte
  | 0, _, s => (s, [])
  | n + 1, a, s =>
    let (s, v) := regSpaceWord a s
    let (s, bs) := regSpaceRead n (a + 4) s
    (s, leBytes 4 v ++ bs)

/-- The ring of a doorbell word at a BAR2 offset (R150). DEDUCED: log entry 15. -/
def doorbellRing (o : Nat) : Option Nat := if o < 0x190 then some (o / 4) else none

/-- A vector that is unmasked while it is pending sends its message. PRESUMED: log entry 18. -/
def msixUnmask (v : Nat) (s : State) : State :=
  let p := 0x9000 + v / 8
  if bit (ofLe (b2Read s p 1)) (v % 8) && !bit (ofLe (b2Read s (0x8000 + 16 * v + 12) 4)) 0 then
    msixSignal v (b2Write s p [BitVec.ofNat 8 (setBits (ofLe (b2Read s p 1)) (v % 8) (v % 8) 0)])
  else s

/-- A write of a BAR2 word: a doorbell, or the MSI-X table. PRESUMED: log entry 18. -/
def bar2Word (o v : Nat) (s : State) : State :=
  match doorbellRing o with
  | some u => doorbell u v false s
  | none => if 0x8000 ≤ o ∧ o < 0x8400 then msixUnmask ((o - 0x8000) / 16) (b2Write s o (leBytes 4 v)) else s

/-- A write of the bytes of one word of the register space; fewer than four are no register write, and to a doorbell a
narrow one (R153). DEDUCED: log entry 15. -/
def regSpaceChunk (core : Bool) (a : Nat) (bs : List Byte) (s : State) : State :=
  if a < 0x01000000 then (if bs.length = 4 then regWrite core a (ofLe bs) s else s)
  else if s.lcs.state = 4 then s
  else
    let o := a - 0x01000000
    if bs.length = 4 then bar2Word o (ofLe bs) s
    else match doorbellRing o with
      | some u => if bs = [] then s else doorbell u (ofLe bs) true s
      | none => s

/-- The words of a write, in rising order; `n` bounds their number. DEDUCED: log entry 15. -/
def regSpaceWrite (core : Bool) : Nat → Nat → List Byte → State → State
  | 0, _, _, s => s
  | n + 1, a, bs, s =>
    if bs = [] then s
    else
      let k := 4 - a % 4
      regSpaceWrite core n (a + k) (bs.drop k) (regSpaceChunk core a (bs.take k) s)

/-! ## The Granary (R11, R12, R367, R368) -/

/-- The read-only copy of the glyph font: 15 characters of 16 rows (R88, R489). -/
abbrev fontBase : Nat := 0x01C40000
abbrev fontSize : Nat := 0xF0
def fontByte (a : Nat) : Byte := BitVec.ofNat 8 ((fontRows ((a - fontBase) / 16)).getD ((a - fontBase) % 16) 0)
def inFont (a : Nat) : Bool := decide (fontBase ≤ a ∧ a < fontBase + fontSize)

/-- The parts of the Granary that the present units have, as start and end; sheaf slots apart. DEDUCED: log entry 65. -/
def granaryParts (p : Part) : List (Nat × Nat) :=
  [(0, Config.heads p * 0xC0000), (0x01200000, 0x01300000), (0x01300000, 0x01300000 + Config.pixelEngines p * 0x80000),
   (0x01700000, 0x01700000 + Config.encPipes p * 0x100000), (0x01900000, 0x01900000 + Config.sources p * 0x2000),
   (0x019C0000, 0x01AC0000), (0x01B40000, 0x02400000)]

/-- The parts that a write reaches: the font is read-only (R88). -/
def granaryWritable (p : Part) : List (Nat × Nat) :=
  (granaryParts p).flatMap (fun q => if q.1 ≤ fontBase ∧ fontBase + fontSize ≤ q.2 then
    [(q.1, fontBase), (fontBase + fontSize, q.2)] else [q])

/-- Is a Granary byte present: not unmapped, not of an absent unit (R12). -/
def granaryHas (p : Part) (a : Nat) : Bool :=
  (granaryParts p).any (fun q => decide (q.1 ≤ a ∧ a < q.2)) || decide (0x01AC0000 ≤ a ∧ a < 0x01B40000)

/-- The bytes of a list that lie in a range, with the address of the first. -/
def clipBytes (a : Nat) (bs : List Byte) (lo hi : Nat) : Nat × List Byte :=
  (max a lo, (bs.drop (max a lo - a)).take (hi - max a lo))

/-- An uncorrectable word has been read: the Granary's own outcome of its region (R367). A font word is reloaded; a word of
the Hearth memory halts the Hearth cores. DEDUCED: log entries 16, 65. -/
def granaryOutcome (a : Nat) (s : State) : State :=
  let s := granaryUncorrectable a s
  if inFont a then granaryHeal (a / 8 * 8) 8 s
  else if granaryRegion a = 10 then
    let s := { s with lcs := { s.lcs with halted := [0, 1, 2, 3] } }
    if demalState s = 4 then s else setDemal 4 s
  else s

/-- What the check bits of the words an access reads show, with their outcome: the uncorrectable words among them.
DEDUCED: log entries 16, 65. -/
def granaryCheck (a n : Nat) (ecc : Ecc) (s : State) : State × List Nat :=
  if n = 0 then (s, [])
  else match ecc, (granaryBadWords s a n).head? with
    | .uncorrected, _ => (granaryOutcome a s, [a / 8 * 8])
    | _, some w => (granaryOutcome (max a w) s, [w])
    | .corrected, none => (granaryCorrected a s, [])
    | .clean, none => (s, [])

/-- Granary bytes: the font from its read-only copy; of the uncorrectable words in a list, those of the history as 0,
others as free values, since the manual states no data for them (R88, R367). DEDUCED: log entries 16, 65. -/
def granaryData (bad : List Nat) (a n : Nat) (s : State) : State × List Byte :=
  let bytes := (List.range n).map (fun i =>
    if !granaryHas s.part (a + i) then 0
    else if inFont (a + i) then fontByte (a + i)
    else if granaryRegion (a + i) = 9 ∧ bad.contains ((a + i) / 8 * 8) then 0
    else if bad.contains ((a + i) / 8 * 8) then Config.freeByte (s.draws + i)
    else smGet zeroByte s.granary (a + i))
  ({ s with draws := if bad = [] then s.draws else s.draws + n }, bytes)

/-- A read of the Granary; until it is initialised it reads 0. -/
def granaryRead (a n : Nat) (ecc : Ecc) (s : State) : State × List Byte :=
  if !flag s R.GRN_STATUS 0 then (s, List.replicate n 0)
  else if !(List.range n).any (fun i => granaryHas s.part (a + i)) then (s, List.replicate n 0)
  else
    let (s, bad) := granaryCheck a n ecc s
    granaryData bad a n s

/-- A write of the Granary: to sheaf slots as R131 says, to the parts that are present, else dropped; a write that holds a
word only in part reads it first. DEDUCED: log entries 16, 65. -/
def granaryStore (a : Nat) (bs : List Byte) (ecc : Ecc) (s : State) : State :=
  if !flag s R.GRN_STATUS 0 then s
  else
    let n := bs.length
    let s := if a % 8 ≠ 0 ∧ granaryHas s.part a then (granaryCheck a (min n (8 - a % 8)) ecc s).1 else s
    let s := if (a + n) % 8 ≠ 0 ∧ a / 8 ≠ (a + n) / 8 ∧ granaryHas s.part ((a + n) / 8 * 8) then
        (granaryCheck ((a + n) / 8 * 8) ((a + n) % 8) .clean s).1
      else if a % 8 = 0 ∧ n < 8 ∧ granaryHas s.part a then (granaryCheck a n ecc s).1 else s
    let s := (granaryWritable s.part).foldl (fun s q =>
      let c := clipBytes a bs q.1 q.2
      if c.2 = [] then s else gWrite s c.1 c.2) s
    (List.range 8).foldl (fun s k =>
      let c := clipBytes a bs (shfBase k) (shfBase k + 0x10000)
      if c.2 = [] then s else shfWrite k c.1 c.2 s) s

/-! ## Targets -/

/-- The read of a permitted part by its target: the bytes, and whether the target answers with an error.
DEDUCED: log entry 16. -/
def targetRead (g port sp a n : Nat) (ecc : Ecc) (s : State) : State × List Byte × Bool :=
  if sp = spRegs then
    let (s, bs) := regSpaceRead ((a + n + 3) / 4 - a / 4) (a / 4 * 4) s
    (s, (bs.drop (a % 4)).take n, false)
  else if sp = spGranary then
    if g = 4 ∧ s.lcs.state = 4 then (s, List.replicate n 0, false)
    else
      let (s, bs) := granaryRead a n ecc s
      (s, bs, false)
  else
    let s := if sp = spCellar then cellarRequest a n (portCharge port n false s) else s
    if !memAnswers s sp a n then (s, List.replicate n 0, true)
    else
      let s := if sp = spCellar then cellarEcc a ecc s else s
      if sp = spCellar ∧ ecc = .uncorrected then (s, List.replicate n 0, true) else (s, memBytes s sp a n, false)

/-- The write of a permitted part, and whether the target answers with an error. DEDUCED: log entry 16. -/
def targetWrite (g port sp a : Nat) (bs : List Byte) (ecc : Ecc) (s : State) : State × Bool :=
  if sp = spRegs then (regSpaceWrite (decide (g < 4)) bs.length a bs s, false)
  else if sp = spGranary then (if g = 4 ∧ s.lcs.state = 4 then s else granaryStore a bs ecc s, false)
  else
    let s := if sp = spCellar then cellarRequest a bs.length (portCharge port bs.length false s) else s
    if memAnswers s sp a bs.length then (memStore s sp a bs, false) else (s, true)

/-! ## The access -/

/-- Carry out the parts of an access in rising order: data read so far, and whether any part met an error. A denied read
part gives zeros and an error; a denied write part is dropped (R416, R417). -/
def busParts (q : BusReq) : List GPart → State → State × List Byte × Bool
  | [], s => (s, [], false)
  | p :: ps, s =>
    let g := q.guard.val
    let port := guardPort g q.dma.val
    let sp := q.space.val
    let (s, bs, err) : State × List Byte × Bool :=
      match q.op with
      | .write d =>
        if p.ok then
          let (s, e) := targetWrite g port sp p.addr ((d.drop (p.addr - q.addr)).take p.len) q.ecc s
          (s, [], e)
        else (s, [], decide (g = 27))
      | .atomic d =>
        if p.ok then
          let (s, bs, e) := targetRead g port sp p.addr p.len q.ecc s
          let (s, e') := targetWrite g port sp p.addr ((d.drop (p.addr - q.addr)).take p.len) .clean s
          (s, bs, e || e')
        else (s, List.replicate p.len 0, true)
      | _ => if p.ok then targetRead g port sp p.addr p.len q.ecc s else (s, List.replicate p.len 0, true)
    let (s, bs', err') := busParts q ps s
    (s, bs ++ bs', err || err')

/-- Is the access a posted write, whose denied parts count as writes; an atomic one is denied as a read (R415). -/
def opWrites : BusOp → Bool
  | .write _ => true
  | _ => false

/-- A master's access that reaches its guard: check, denials, targets, and the answer (R415 to R418). A host read with a
denied part gets no data. DEDUCED: log entry 16. -/
def busRun (q : BusReq) (denials : List GPart → State → State) (s : State) : State × BusResp :=
  let g := q.guard.val
  let s := hostStore q.hm s
  let ps := guardParts s g q.space.val q.addr (opLen q.op) (opAcc g q.op)
  let s := guardFlight g q.span (denials ps s)
  let (s, bs, err) := busParts q ps s
  let denied := ps.any (fun p => !p.ok)
  (s, { error := err, data := if g = 4 ∧ denied ∧ (opWrites q.op) = false then [] else bs })

/-- Does an access reach its guard: its master is present and reaches the space; a host access needs the link; in VOID only
the host's register accesses are left (R411, R437). DEDUCED: log entry 16. -/
def busReaches (s : State) (q : BusReq) : Bool :=
  masterPresent s.part q.guard.val && guardReaches q.guard.val q.space.val && decide (0 < opLen q.op ∧ q.guard.val ≠ 27)
    && (decide (q.guard.val ≠ 4) || s.linkUp) && (decide (s.lcs.state ≠ 4) || decide (q.guard.val = 4))

/-- BUS_ACCESS (R411 to R418). DESIGN CHOICE: log entries 7, 80. -/
def execBusAccess (a : BusReq) (s : State) : Host.Outcome State Fault Refusal :=
  .next (if powered s && busReaches s a then
      let r := busRun a (guardDenials raise a.guard.val a.space.val (opWrites a.op)) s
      { r.1 with response := r.2 }
    else s)

/-- EV_DEBUG_LOCKED: region and address (R425). DEDUCED: log entry 17. -/
def debugLocked (region addr : Nat) (s : State) : State :=
  raise { code := 0xA2, unit := 27, sub := region, a0 := addr, a1 := addr / 2 ^ 32 } s

/-- The denied parts of a debug access: a region with LOCK raises EV_DEBUG_LOCKED in place of the guard's own event.
DEDUCED: log entry 17. -/
def debugDenials (q : BusReq) (ps : List GPart) (s : State) : State :=
  ps.foldl (fun s p =>
    if p.ok then s
    else if p.lock then debugLocked p.region p.addr (guardNote s 27 q.space.val (opWrites q.op) p)
    else guardDenials raise 27 q.space.val (opWrites q.op) [p] s) s

/-- DEBUG_ACCESS: a memory access of the debug port, first against the life-cycle state, then guard 27 (R425, R427).
DEDUCED: log entry 17. -/
def execDebugAccess (a : BusReq) (s : State) : Host.Outcome State Fault Refusal :=
  .next (if !powered s ∨ a.guard.val ≠ 27 ∨ (opLen a.op) = 0 then s
    else if !debugOpen s then
      { debugLocked 17 a.addr s with
        debugResponse := { error := true, data := if (opWrites a.op) then [] else List.replicate (opLen a.op) 0 } }
    else
      let r := busRun a (debugDenials a) s
      { r.1 with debugResponse := r.2 })

end Sys2Proof.Machine
end

