-- ==== Sys2Proof/Machine/Dispatch.lean ====
section
/-! DEFINITION. Machine/Dispatch.lean: the effect of a command, one arm per constructor of Instr. -/

namespace Sys2Proof.Machine

def exec (i : Instr) (s : State) : Host.Outcome State Fault Refusal :=
  match i with
  | .porstNAssert => Sys2Proof.Machine.execPorstNAssert s
  | .porstNRelease railTable g33 => Sys2Proof.Machine.execPorstNRelease railTable g33 s
  | .sysrstN => Sys2Proof.Machine.execSysrstN s
  | .pciePerstN => Sys2Proof.Machine.execPciePerstN s
  | .pcieLinkUp width gen => Sys2Proof.Machine.execPcieLinkUp width gen s
  | .railSequenceStep rail => Sys2Proof.Machine.execRailSequenceStep rail s
  | .granaryInitDone => Sys2Proof.Machine.execGranaryInitDone s
  | .demalBootDone copyA copyB => Sys2Proof.Machine.execDemalBootDone copyA copyB s
  | .demalStall => Sys2Proof.Machine.execDemalStall s
  | .registerWrite off v => Sys2Proof.Machine.execRegisterWrite off v s
  | .tickRunStart => Sys2Proof.Machine.execTickRunStart s
  | .tickRunStop => Sys2Proof.Machine.execTickRunStop s
  | .tickTimebaseWrite reg v => Sys2Proof.Machine.execTickTimebaseWrite reg v s
  | .guardPmWrite v => Sys2Proof.Machine.execGuardPmWrite v s
  | .tickSeal o => Sys2Proof.Machine.execTickSeal o s
  | .huskVWrite off v => Sys2Proof.Machine.execHuskVWrite off v s
  | .huskKWrite off k => Sys2Proof.Machine.execHuskKWrite off k s
  | .huskPendingTimeout off => Sys2Proof.Machine.execHuskPendingTimeout off s
  | .timNowRead => Sys2Proof.Machine.execTimNowRead s
  | .tckNRead => Sys2Proof.Machine.execTckNRead s
  | .timURead => Sys2Proof.Machine.execTimURead s
  | .servoSample v => Sys2Proof.Machine.execServoSample v s
  | .stepAccept k => Sys2Proof.Machine.execStepAccept k s
  | .timeSet v => Sys2Proof.Machine.execTimeSet v s
  | .freqWrite reg v => Sys2Proof.Machine.execFreqWrite reg v s
  | .servoDisable => Sys2Proof.Machine.execServoDisable s
  | .holdoverTimeout => Sys2Proof.Machine.execHoldoverTimeout s
  | .captureEdge input rising err => Sys2Proof.Machine.execCaptureEdge input rising err s
  | .captureFifoRead input => Sys2Proof.Machine.execCaptureFifoRead input s
  | .triggerArm t v => Sys2Proof.Machine.execTriggerArm t v s
  | .triggerDisarm t v => Sys2Proof.Machine.execTriggerDisarm t v s
  | .triggerFire t => Sys2Proof.Machine.execTriggerFire t s
  | .triggerPulseEnd t => Sys2Proof.Machine.execTriggerPulseEnd t s
  | .sheafSlotOpen slot => Sys2Proof.Machine.execSheafSlotOpen slot s
  | .sheafCancel slot => Sys2Proof.Machine.execSheafCancel slot s
  | .sheafSlotEntryWrite slot word v => Sys2Proof.Machine.execSheafSlotEntryWrite slot word v s
  | .sheafSubmit tag => Sys2Proof.Machine.execSheafSubmit tag s
  | .sheafCheckDone => Sys2Proof.Machine.execSheafCheckDone s
  | .shfAppliedRead slot => Sys2Proof.Machine.execShfAppliedRead slot s
  | .directEnter reg v => Sys2Proof.Machine.execDirectEnter reg v s
  | .stDirectWrite off v => Sys2Proof.Machine.execStDirectWrite off v s
  | .sqDoorbell r w narrow hm => Sys2Proof.Machine.execSqDoorbell r w narrow hm s
  | .cqDoorbell c w narrow => Sys2Proof.Machine.execCqDoorbell c w narrow s
  | .eqDoorbell e w narrow => Sys2Proof.Machine.execEqDoorbell e w narrow s
  | .ringEnable ring cfg => Sys2Proof.Machine.execRingEnable ring cfg s
  | .ringDisable ring cfg => Sys2Proof.Machine.execRingDisable ring cfg s
  | .descriptorFetch tag hm ecc => Sys2Proof.Machine.execDescriptorFetch tag hm ecc s
  | .completionWrite tag linkOk => Sys2Proof.Machine.execCompletionWrite tag linkOk s
  | .evtPinAck pin => Sys2Proof.Machine.execEvtPinAck pin s
  | .nop tag => Sys2Proof.Machine.execNop tag s
  | .srcOpen tag => Sys2Proof.Machine.execSrcOpen tag s
  | .srcClose tag => Sys2Proof.Machine.execSrcClose tag s
  | .srcMap tag => Sys2Proof.Machine.execSrcMap tag s
  | .framePost tag => Sys2Proof.Machine.execFramePost tag s
  | .framePostCopyDone w => Sys2Proof.Machine.execFramePostCopyDone w s
  | .headCtl tag => Sys2Proof.Machine.execHeadCtl tag s
  | .flowAdd tag => Sys2Proof.Machine.execFlowAdd tag s
  | .flowDel tag => Sys2Proof.Machine.execFlowDel tag s
  | .encStart tag => Sys2Proof.Machine.execEncStart tag s
  | .encStop tag => Sys2Proof.Machine.execEncStop tag s
  | .chkJob tag => Sys2Proof.Machine.execChkJob tag s
  | .chkJobComplete w => Sys2Proof.Machine.execChkJobComplete w s
  | .cpxJob tag => Sys2Proof.Machine.execCpxJob tag s
  | .cpxJobComplete w => Sys2Proof.Machine.execCpxJobComplete w s
  | .snapshot tag => Sys2Proof.Machine.execSnapshot tag s
  | .snapshotComplete w => Sys2Proof.Machine.execSnapshotComplete w s
  | .netTx tag => Sys2Proof.Machine.execNetTx tag s
  | .netTxSent tag o => Sys2Proof.Machine.execNetTxSent tag o s
  | .netRxPost tag => Sys2Proof.Machine.execNetRxPost tag s
  | .keyConfig tag => Sys2Proof.Machine.execKeyConfig tag s
  | .barrier tag => Sys2Proof.Machine.execBarrier tag s
  | .ledgerRead tag => Sys2Proof.Machine.execLedgerRead tag s
  | .trimRun tag => Sys2Proof.Machine.execTrimRun tag s
  | .unitDrainComplete kind unit => Sys2Proof.Machine.execUnitDrainComplete kind unit s
  | .laneEnable n ctrl => Sys2Proof.Machine.execLaneEnable n ctrl s
  | .laneDisable n ctrl => Sys2Proof.Machine.execLaneDisable n ctrl s
  | .quadPllLock q pllB => Sys2Proof.Machine.execQuadPllLock q pllB s
  | .cdrLock n => Sys2Proof.Machine.execCdrLock n s
  | .cdrLoss n => Sys2Proof.Machine.execCdrLoss n s
  | .blindPeriodEnd n => Sys2Proof.Machine.execBlindPeriodEnd n s
  | .blockTransmit o => Sys2Proof.Machine.execBlockTransmit o s
  | .blockReceive n blk => Sys2Proof.Machine.execBlockReceive n blk s
  | .genlockTimeout n => Sys2Proof.Machine.execGenlockTimeout n s
  | .spareSwitch n toSpare => Sys2Proof.Machine.execSpareSwitch n toSpare s
  | .spareCompareTimeout n => Sys2Proof.Machine.execSpareCompareTimeout n s
  | .ethFrameReceive mac frame obs => Sys2Proof.Machine.execEthFrameReceive mac frame obs s
  | .jitterDeadline flow => Sys2Proof.Machine.execJitterDeadline flow s
  | .pathSilentTimeout flow pathB => Sys2Proof.Machine.execPathSilentTimeout flow pathB s
  | .depacketise ch => Sys2Proof.Machine.execDepacketise ch s
  | .flowCountsRead flow => Sys2Proof.Machine.execFlowCountsRead flow s
  | .srcRegEnable ch v => Sys2Proof.Machine.execSrcRegEnable ch v s
  | .srcRegDisable ch v => Sys2Proof.Machine.execSrcRegDisable ch v s
  | .rtcpMapCommit ch k => Sys2Proof.Machine.execRtcpMapCommit ch k s
  | .rtcpMapExpire ch => Sys2Proof.Machine.execRtcpMapExpire ch s
  | .decodePictureStart o => Sys2Proof.Machine.execDecodePictureStart o s
  | .entropyParseDone ch o => Sys2Proof.Machine.execEntropyParseDone ch o s
  | .decodePictureComplete ch o => Sys2Proof.Machine.execDecodePictureComplete ch o s
  | .decodeWorkExhausted ch pix => Sys2Proof.Machine.execDecodeWorkExhausted ch pix s
  | .vdcSlotCountsRead ch => Sys2Proof.Machine.execVdcSlotCountsRead ch s
  | .layerTouch h l hm => Sys2Proof.Machine.execLayerTouch h l hm s
  | .headRegEnable h => Sys2Proof.Machine.execHeadRegEnable h s
  | .headRegDisable h => Sys2Proof.Machine.execHeadRegDisable h s
  | .pixelPllLock h => Sys2Proof.Machine.execPixelPllLock h s
  | .pixelPllUnlock h => Sys2Proof.Machine.execPixelPllUnlock h s
  | .pllLockTimeout h => Sys2Proof.Machine.execPllLockTimeout h s
  | .prefetchStart h => Sys2Proof.Machine.execPrefetchStart h s
  | .activeScanStart h err => Sys2Proof.Machine.execActiveScanStart h err s
  | .scanLine h o => Sys2Proof.Machine.execScanLine h o s
  | .fetchBurst h l o => Sys2Proof.Machine.execFetchBurst h l o s
  | .activeScanCut h => Sys2Proof.Machine.execActiveScanCut h s
  | .frameComplete h => Sys2Proof.Machine.execFrameComplete h s
  | .headStuckNoFrame h => Sys2Proof.Machine.execHeadStuckNoFrame h s
  | .writebackComplete h => Sys2Proof.Machine.execWritebackComplete h s
  | .headLastNRead h => Sys2Proof.Machine.execHeadLastNRead h s
  | .headFirstNRead h => Sys2Proof.Machine.execHeadFirstNRead h s
  | .encRowStart p => Sys2Proof.Machine.execEncRowStart p s
  | .encRowCoded p o => Sys2Proof.Machine.execEncRowCoded p o s
  | .encRecConsWrite n v => Sys2Proof.Machine.execEncRecConsWrite n v s
  | .encNextNRead n => Sys2Proof.Machine.execEncNextNRead n s
  | .dmcTrain v => Sys2Proof.Machine.execDmcTrain v s
  | .dmcTrainDone c fail density rfm => Sys2Proof.Machine.execDmcTrainDone c fail density rfm s
  | .dmcTrackRun c good => Sys2Proof.Machine.execDmcTrackRun c good s
  | .refreshIssue c idle => Sys2Proof.Machine.execRefreshIssue c idle s
  | .refreshCatchupEnter c => Sys2Proof.Machine.execRefreshCatchupEnter c s
  | .refabComplete c => Sys2Proof.Machine.execRefabComplete c s
  | .rowDisturbDetect c rank bank row o => Sys2Proof.Machine.execRowDisturbDetect c rank bank row o s
  | .rowDisturbThrottleEnd port => Sys2Proof.Machine.execRowDisturbThrottleEnd port s
  | .rdWindowReset c => Sys2Proof.Machine.execRdWindowReset c s
  | .selfRefreshIdleEntry c => Sys2Proof.Machine.execSelfRefreshIdleEntry c s
  | .selfRefreshExit c beforeE4 mr4 good => Sys2Proof.Machine.execSelfRefreshExit c beforeE4 mr4 good s
  | .busAccess a => Sys2Proof.Machine.execBusAccess a s
  | .granaryScrub ecc => Sys2Proof.Machine.execGranaryScrub ecc s
  | .chkContextWrite ctx reg v => Sys2Proof.Machine.execChkContextWrite ctx reg v s
  | .cpxJournalWrite hi v => Sys2Proof.Machine.execCpxJournalWrite hi v s
  | .touchScanEnd o => Sys2Proof.Machine.execTouchScanEnd o s
  | .keyScanProcess => Sys2Proof.Machine.execKeyScanProcess s
  | .guardRegWrite off v => Sys2Proof.Machine.execGuardRegWrite off v s
  | .guardSyncRead g => Sys2Proof.Machine.execGuardSyncRead g s
  | .debugAccess a => Sys2Proof.Machine.execDebugAccess a s
  | .debugAuth sig => Sys2Proof.Machine.execDebugAuth sig s
  | .lcsRequest k => Sys2Proof.Machine.execLcsRequest k s
  | .lcsRequestDone fuseOk => Sys2Proof.Machine.execLcsRequestDone fuseOk s
  | .powerRequest k => Sys2Proof.Machine.execPowerRequest k s
  | .keepWake cause gpio => Sys2Proof.Machine.execKeepWake cause gpio s
  | .powerDown => Sys2Proof.Machine.execPowerDown s
  | .supplyMonitorSample rail mv => Sys2Proof.Machine.execSupplyMonitorSample rail mv s
  | .pmbusStatusPoll rail status => Sys2Proof.Machine.execPmbusStatusPoll rail status s
  | .thermalSample mc => Sys2Proof.Machine.execThermalSample mc s
  | .thermalStageFall => Sys2Proof.Machine.execThermalStageFall s
  | .thermalCritical => Sys2Proof.Machine.execThermalCritical s
  | .avsSample slacks => Sys2Proof.Machine.execAvsSample slacks s
  | .avsRaiseAck => Sys2Proof.Machine.execAvsRaiseAck s
  | .trimCmd v => Sys2Proof.Machine.execTrimCmd v s
  | .calibrationComplete item o => Sys2Proof.Machine.execCalibrationComplete item o s
  | .trmTimeRead item => Sys2Proof.Machine.execTrmTimeRead item s
  | .laneRxSpanRead n => Sys2Proof.Machine.execLaneRxSpanRead n s
  | .laneFarSpanRead n => Sys2Proof.Machine.execLaneFarSpanRead n s
  | .ethLinkChange n locked localFault remoteFault => Sys2Proof.Machine.execEthLinkChange n locked localFault remoteFault s
  | .debugCoreControl core op => Sys2Proof.Machine.execDebugCoreControl core op s

end Sys2Proof.Machine
end

