-- ==== Sys2Proof/Machine/Step.lean ====
section
/-!
DEFINITION. Machine/Step.lean: one step of the block: the command at the front of the queue takes effect; on an empty
queue one update of the local time counter passes (R104).
-/

namespace Sys2Proof.Machine

/-- One step. The commands wait first in, first out; with none waiting, time passes by one counter update. -/
def step (s : State) : Host.Outcome State Fault Refusal :=
  match s.pending with
  | [] => .next (if aonRunning s then passUpdates 1 s else s)
  | c :: rest => exec c { s with pending := rest }

/-- The state with the command that a table word spells at the front of its queue. DESIGN CHOICE: log entry 6. -/
def State.withFetchWord (s : State) (nbits w : Nat) : State :=
  match Sys2Proof.decodeTableWord nbits w with
  | some c => { s with pending := c :: s.pending }
  | none => s

end Sys2Proof.Machine
end

