-- ==== Sys2Proof/Safety.lean ====
section
/-!
DEFINITION. Safety.lean: what a run of the block keeps, in the terms the statements use: the canonical form of the
memories and register maps, what no command but a reset may change, and what the posting of events may change.
-/

namespace Sys2Proof.Machine

/-- Every memory and register map is in its canonical form: keys strictly rising, no entry equal to what an unlisted
key reads as. DEDUCED: log entry 82. -/
def memWf (s : State) : Bool :=
  SMap.wf regReset s.regs && SMap.wf regReset s.latched && SMap.wf (fun _ => 0) s.wide
    && SMap.wf zeroByte s.granary && SMap.wf (cellarByte s.losses) s.cellar && SMap.wf zeroByte s.host && SMap.wf bar2Byte s.bar2

/-- What every operation keeps from a state `a` to a state `b`: the fused part (R15), the queue, the level of PORST_n,
the life-cycle state taken at its last release (R427), the canonical form of the memories; time does not run back. With
`tick`, the number and the instant of the last seal too, which a seal and a reset alone change (R35). -/
structure Keeps (tick : Bool) (a b : State) : Prop where
  part : b.part = a.part
  pending : b.pending = a.pending
  porst : b.porst = a.porst
  lcs : b.lcs.state = a.lcs.state
  time : a.elapsed ≤ b.elapsed
  mem : memWf a = true → memWf b = true
  lastSeal : tick = true → b.tck.lastN = a.tck.lastN ∧ b.tck.lastT = a.tck.lastT

/-- The registers that the raising of an event may change: state, index and lost count of an EQ (R163, R172), the events'
counters and pins (R174, R175), the notes of guard 5, which checks the ring engine's writes (R411, R419), the count and the
last of Granary's uncorrectable words, which a ring's cache may hold (R367), and STATE and TRACKS of a DRAM channel that a
record wakes from self-refresh (R355, R364). -/
def eventReg (off : Nat) : Bool :=
  decide ((0x82800 ≤ off ∧ off < 0x82900 ∧ 0xC ≤ off % 0x40 ∧ off % 0x40 ≤ 0x14) ∨ (0x90400 ≤ off ∧ off < 0x90840)
    ∨ off = 0xA1404 ∨ (0xA1410 ≤ off ∧ off ≤ 0xA1420) ∨ off = 0x500010 ∨ off = 0x500018
    ∨ (0x400000 ≤ off ∧ off < 0x480000 ∧ (off % 0x10000 = 0 ∨ off % 0x10000 = 0x14)))

/-- What the raising of events may change between two states: registers of `eventReg`, the records in host memory and
Cellar and what they replaced, the MSI-X pending bits, the rings' record counts, the DMC ports' token buckets, the state
of the DRAM channels that they reach, the uncorrectable words of the ring caches and the once-a-tick marks. -/
structure EventsOnly (a b : State) : Prop where
  regs : ∀ off, eventReg off = false → rd b off = rd a off
  rest : b = { a with regs := b.regs, host := b.host, cellar := b.cellar, overwritten := b.overwritten, bar2 := b.bar2,
                      rng := { a.rng with posted := b.rng.posted },
                      cell := { a.cell with ports := b.cell.ports, chans := b.cell.chans, badWords := b.cell.badWords },
                      tck := { a.tck with once := b.tck.once } }

/-- Two states that differ at most in the registers that `p` names. -/
structure OnlyRegs (p : Nat → Bool) (a b : State) : Prop where
  regs : ∀ off, p off = false → rd b off = rd a off
  rest : b = { a with regs := b.regs }

/-- The commands to blocks that run only while the device is powered and not in VOID (R437, R442): all but the resets,
the supply and the link, the always-on domain, the life-cycle block and the accesses of bus masters, which check for
themselves what they meet. -/
def needsRunning : Instr → Bool
  | .porstNAssert | .porstNRelease .. | .sysrstN | .pciePerstN | .pcieLinkUp .. | .railSequenceStep .. => false
  | .keepWake .. | .powerDown | .holdoverTimeout | .captureEdge .. | .triggerFire .. | .triggerPulseEnd .. => false
  | .trmTimeRead .. | .huskVWrite .. | .huskKWrite .. | .huskPendingTimeout .. | .lcsRequest .. => false
  | .lcsRequestDone .. | .debugAuth .. | .registerWrite .. | .busAccess .. | .debugAccess .. => false
  | _ => true

/-- The value with which a K word `k` makes the pending pair of an HK register take effect (R74): V has not waited out its
51,200 counter updates, and `k` is its one's complement. -/
def pairValue (s : State) (off k : Nat) : Option Nat :=
  match huskPending s off with
  | some p =>
    if huskMask s off ≠ 0 ∧ s.updates < p.until_ ∧ huskSound p.v.toNat k then some (p.v.toNat &&& huskMask s off) else none
  | none => none

/-- The resets, whose effect on the tick unit is that no tick has been sealed. -/
def resetsTick : Instr → Bool
  | .porstNAssert | .sysrstN | .railSequenceStep .. | .keepWake .. => true
  | _ => false

/-- Commands that store no byte in Granary, Cellar, the MSI-X table or, a touch's `hm` apart, host memory: they raise no event
and access no memory. -/
def storesNothing : Instr → Bool
  | .guardPmWrite .. | .timNowRead | .tckNRead | .timURead | .freqWrite .. | .captureFifoRead .. => true
  | .triggerPulseEnd .. | .sheafSlotOpen .. | .sheafCancel .. | .sheafSubmit .. => true
  | .shfAppliedRead .. | .evtPinAck .. | .nop .. | .srcMap .. | .flowAdd .. | .flowDel .. | .chkJob .. => true
  | .cpxJob .. | .snapshot .. | .netTx .. | .netRxPost .. | .barrier .. | .ledgerRead .. | .quadPllLock .. => true
  | .blindPeriodEnd .. | .flowCountsRead .. | .vdcSlotCountsRead .. | .pixelPllLock .. | .prefetchStart .. => true
  | .activeScanCut .. | .writebackComplete .. | .headLastNRead .. | .headFirstNRead .. | .encRecConsWrite .. => true
  | .encNextNRead .. | .dmcTrain .. | .refreshIssue .. | .rowDisturbThrottleEnd .. | .rdWindowReset .. => true
  | .selfRefreshIdleEntry .. | .chkContextWrite .. | .cpxJournalWrite .. | .guardRegWrite .. | .guardSyncRead .. => true
  | .debugAuth .. | .powerDown | .trmTimeRead .. | .laneRxSpanRead .. | .laneFarSpanRead .. | .debugCoreControl .. => true
  | .layerTouch .. => true
  | _ => false

/-- Commands that store no byte in the Granary; those that raise events write to Cellar and host memory alone (R172). -/
def keepsGranary : Instr → Bool
  | .pciePerstN | .pcieLinkUp .. | .demalStall | .tickRunStart | .tickRunStop | .tickTimebaseWrite .. => true
  | .guardPmWrite .. | .huskVWrite .. | .huskPendingTimeout .. | .timNowRead | .tckNRead | .timURead => true
  | .servoSample .. | .timeSet .. | .freqWrite .. | .servoDisable | .holdoverTimeout | .captureEdge .. => true
  | .captureFifoRead .. | .triggerArm .. | .triggerDisarm .. | .triggerFire .. | .triggerPulseEnd .. => true
  | .sheafSlotOpen .. | .sheafCancel .. | .sheafSubmit .. | .sheafCheckDone | .shfAppliedRead .. | .directEnter .. => true
  | .stDirectWrite .. | .sqDoorbell .. | .cqDoorbell .. | .eqDoorbell .. | .ringEnable .. | .ringDisable .. => true
  | .descriptorFetch .. | .completionWrite .. | .evtPinAck .. | .nop .. | .srcOpen .. | .srcClose .. | .srcMap .. => true
  | .headCtl .. | .flowAdd .. | .flowDel .. | .encStart .. | .encStop .. | .chkJob .. | .chkJobComplete .. => true
  | .cpxJob .. | .snapshot .. | .snapshotComplete .. | .netTx .. | .netTxSent .. | .netRxPost .. | .keyConfig .. => true
  | .barrier .. | .ledgerRead .. | .trimRun .. | .unitDrainComplete .. | .laneEnable .. | .laneDisable .. => true
  | .quadPllLock .. | .cdrLock .. | .cdrLoss .. | .blindPeriodEnd .. | .blockTransmit .. | .genlockTimeout .. => true
  | .spareSwitch .. | .spareCompareTimeout .. | .ethFrameReceive .. | .jitterDeadline .. | .pathSilentTimeout .. => true
  | .depacketise .. | .flowCountsRead .. | .srcRegEnable .. | .srcRegDisable .. | .rtcpMapCommit .. => true
  | .rtcpMapExpire .. | .entropyParseDone .. | .decodeWorkExhausted .. | .vdcSlotCountsRead .. | .layerTouch .. => true
  | .headRegEnable .. | .headRegDisable .. | .pixelPllLock .. | .pixelPllUnlock .. | .pllLockTimeout .. => true
  | .prefetchStart .. | .fetchBurst .. | .activeScanCut .. | .headStuckNoFrame .. | .writebackComplete .. => true
  | .headLastNRead .. | .headFirstNRead .. | .encRowStart .. | .encRowCoded .. | .encRecConsWrite .. => true
  | .encNextNRead .. | .dmcTrain .. | .dmcTrainDone .. | .dmcTrackRun .. | .refreshIssue .. => true
  | .refreshCatchupEnter .. | .refabComplete .. | .rowDisturbDetect .. | .rowDisturbThrottleEnd .. => true
  | .rdWindowReset .. | .selfRefreshIdleEntry .. | .selfRefreshExit .. | .granaryScrub .. | .chkContextWrite .. => true
  | .cpxJournalWrite .. | .touchScanEnd .. | .keyScanProcess | .guardRegWrite .. | .guardSyncRead .. => true
  | .debugAuth .. | .lcsRequest .. | .lcsRequestDone .. | .powerRequest .. | .powerDown | .supplyMonitorSample .. => true
  | .pmbusStatusPoll .. | .thermalSample .. | .thermalStageFall | .thermalCritical | .avsSample .. | .avsRaiseAck => true
  | .trimCmd .. | .calibrationComplete .. | .trmTimeRead .. | .laneRxSpanRead .. | .laneFarSpanRead .. => true
  | .ethLinkChange .. | .debugCoreControl .. => true
  | _ => false

/-- Commands that write no register. -/
def writesNoRegister : Instr → Bool
  | .triggerPulseEnd .. | .nop .. | .snapshot .. | .netTx .. | .barrier .. | .ledgerRead .. => true
  | .blindPeriodEnd .. | .layerTouch .. | .activeScanCut .. | .refreshIssue .. => true
  | .rowDisturbThrottleEnd .. | .rdWindowReset .. | .debugAuth .. | .debugCoreControl .. => true
  | _ => false

end Sys2Proof.Machine
end

