-- ==== Sys2Proof/Certificates/Slice0/Obligations.lean ====
section
/-!
DEFINITION. Obligations.lean: the statements about this model. A statement about a block's command has as a premise that the
block runs (`running`, `aonRunning` or `powered`), and says which next state the command answers. A command that reports
an event at an instant of its own lets time pass until then where it comes before it (log entry 4): such a clause says
that the instant has been reached, given that the local clock advances. Values that the manual leaves open appear as the
free values of Config and nothing is said of them.
-/

open Sys2Proof Sys2Proof.Machine

/-! ## The machine as a whole -/

/-- A step on a queue with a command at its front is that command's effect on the state with the rest of the queue. -/
def Obligations.StepRunsFrontCommand : Prop :=
  ∀ (c : Instr) (rest : List Instr) (s : State),
    step { s with pending := c :: rest } = exec c { s with pending := rest }

/-- Every command answers a next state, whatever the state: no rule stops the block, and commands that meet nothing to act
on leave the state as it is (the last is the model's reading, log entry 3). On an empty queue one update of the local time
counter passes: while the always-on domain runs, the local clock takes INC (R104). That an empty queue lets one update
pass is the model's choice (log entry 2). A block without power, in KEEP or in VOID does nothing: every command to such a
block leaves the state as it is. While PORST_n is low, this holds of every command but PORST_n's own two. -/
def Obligations.EveryStepAnswersNext : Prop :=
  (∀ (c : Instr) (s : State), ∃ t, exec c s = .next t) ∧
  (∀ s : State, s.pending = [] →
    (aonRunning s = true → step s = .next { s with clock := s.clock + inc s, elapsed := s.elapsed + inc s, updates := s.updates + 1 }) ∧
    (aonRunning s = false → step s = .next s)) ∧
  ((∀ (c : Instr) (s : State), running s = false → needsRunning c = true → exec c s = .next s) ∧
  (∀ (c : Instr) (s : State), s.porst = true → c ≠ .porstNAssert → (∀ table g, c ≠ .porstNRelease table g) →
    exec c s = .next s))

/-- After reset every memory and register map is in its canonical form. -/
def Obligations.ResetMemoryCanonical : Prop := memWf State.reset = true

/-- Every step keeps every memory and register map in its canonical form. -/
def Obligations.StepKeepsMemoryCanonical : Prop :=
  ∀ s t : State, memWf s = true → step s = .next t → memWf t = true

/-- No command changes the set of present units that the fuses fix (R15), nor the queue behind it. The life-cycle state
changes at the release of PORST_n alone, where it becomes the state that the fuses give. Time does not run back: no
command but the assertion of PORST_n lowers the elapsed time. The number and instant of the last seal change at a seal
alone, or at a reset. -/
def Obligations.CommandsKeepIdentityAndTime : Prop :=
  (∀ (c : Instr) (s t : State), exec c s = .next t → t.part = s.part ∧ t.pending = s.pending) ∧
  (∀ (c : Instr) (s t : State), exec c s = .next t →
    (∀ table g, c ≠ .porstNRelease table g) → t.lcs.state = s.lcs.state) ∧
  (∀ (c : Instr) (s t : State), exec c s = .next t → c ≠ .porstNAssert → s.elapsed ≤ t.elapsed) ∧
  (∀ (c : Instr) (s t : State), exec c s = .next t → resetsTick c = false → (∀ o, c ≠ .tickSeal o) →
    t.tck.lastN = s.tck.lastN ∧ t.tck.lastT = s.tck.lastT)

/-- What the commands that raise no event and access no memory leave as it is: every byte of the Granary, of Cellar and of
the MSI-X table, and every byte of host memory but those that software has stored there before a touch. Of them and of the
others that write no register, every register keeps its value and the value latched at the last seal. -/
def Obligations.CommandsThatStoreNothingKeepMemories : Prop :=
  (∀ (c : Instr) (s t : State), storesNothing c = true → exec c s = .next t →
    (∀ a n, gRead t a n = gRead s a n) ∧ (∀ a n, memBytes t spCellar a n = memBytes s spCellar a n) ∧ t.bar2 = s.bar2 ∧
    ((∀ h l hm, c ≠ .layerTouch h l hm) → ∀ a n, memBytes t spHost a n = memBytes s spHost a n) ∧
    (∀ h l hm, c = .layerTouch h l hm → ∀ a, a ∉ hm.map Prod.fst → memBytes t spHost a 1 = memBytes s spHost a 1)) ∧
  (∀ (c : Instr) (s t : State), writesNoRegister c = true → exec c s = .next t →
    ∀ off, rd t off = rd s off ∧ lrd t off = lrd s off)

/-- What the commands that only raise events, access host memory and Cellar, or change registers leave as it is: every
byte of the Granary. -/
def Obligations.CommandsKeepTheGranary : Prop :=
  ∀ (c : Instr) (s t : State), keepsGranary c = true → exec c s = .next t → ∀ a n, gRead t a n = gRead s a n

/-! ## Reset, power-up and rails -/

/-- PORST_n low resets the device (R471): every register reads its reset value, Granary, rings, units and pending pairs
are empty, the supply is off and the link down; the fuses stay. What Cellar held is lost, so that every byte not yet
written again is a free value of this loss. PORST_n released: the device takes its life-cycle state from the fuses (R431),
destroys the customer key slots in RETURN and VOID (R432, R437), reads the rail table and begins to turn the rails on
(R445). Completes (exec answers this next state): porstNAssert, porstNRelease. -/
def Obligations.PorstResetsAndReleases : Prop :=
  (∀ s : State, ∃ t, exec .porstNAssert s = .next t ∧ t.porst = true ∧ t.supply = .off ∧ t.linkUp = false ∧
    (∀ off, rd t off = (regReset off).toNat) ∧ t.granary = [] ∧ t.husks = [] ∧ t.accepted = [] ∧ t.rng = {} ∧
    t.chans = [] ∧ t.heads = [] ∧ t.lanes = [] ∧ t.encs = [] ∧ t.tck = {} ∧ t.clock = 0 ∧
    (∀ a, smGet (cellarByte t.losses) t.cellar a = Config.freeByte (s.draws * 2 ^ 64 + a)) ∧
    t.lcs.stateFuses = s.lcs.stateFuses ∧ t.lcs.slots = s.lcs.slots) ∧
  (∀ (table : List Byte) (g33 : Bool) (s : State), s.porst = true →
    ∃ t, exec (.porstNRelease table g33) s = .next t ∧ t.porst = false ∧ t.supply = .rising ∧
      t.lcs.state = fusedState s ∧ t.pwr.rails = railTable table ∧ t.pwr.good = [] ∧
      t.pwr.gLevel = (if g33 then 3300 else 1800) ∧
      (fusedState s = 3 ∨ fusedState s = 4 → ∀ k < 4, (keySlotAt t k).destroyed = true) ∧
      (fusedState s ≠ 3 → fusedState s ≠ 4 → t.lcs.slots = s.lcs.slots) ∧
      (∀ i < 8, rd t (R.LCS_NONCE i) = (Config.freeWord (s.draws + i)).toNat) ∧
      OnlyRegs (fun off => decide (R.LCS_NONCE 0 ≤ off ∧ off ≤ R.LCS_NONCE 7)) s
        { t with porst := s.porst, supply := s.supply, lcs := s.lcs, pwr := s.pwr, draws := s.draws })

/-- SYSRST_n in RUN or QUIET resets every block but the always-on domain and what R15 keeps (R472): the registers of the
other blocks read their reset values (the state registers of the life cycle and, in SEALED, the locked guard regions
apart, R431, R434), their units are empty, the link is down, the device is in RUN, the time unit is FREE, which counts its
event where it was not (R118), the local clock goes on. In SEALED the locked regions of guards 4 and 27 are loaded (R434).
In KEEP the first wake cause is taken and recorded (R443): a GPIO pin at its wake level, the local clock at PWR_WAKE_AT
while that is enabled, or SYSRST_n. The rails that KEEP had turned off come back; while some are missing the supply is
rising. Completes (exec answers this next state): sysrstN, keepWake. -/
def Obligations.SysrstAndWakeCauses : Prop :=
  (∀ s : State, s.porst = false → s.supply = .on →
    ∃ t, exec .sysrstN s = .next t ∧ t.supply = .on ∧ t.linkUp = false ∧ t.granary = [] ∧ t.rng = {} ∧ t.chans = [] ∧
      t.heads = [] ∧ t.lanes = [] ∧ t.encs = [] ∧ t.tck = {} ∧ t.clock = s.clock ∧ powerState t = 0 ∧ timeState t = 0 ∧
      t.pwr.cals = [] ∧ t.lcs.state = s.lcs.state ∧ t.lcs.slots = s.lcs.slots ∧
      (∀ off, aonReg off = false → lcsKept off = false → off ≠ R.TCK_STATUS →
        (s.lcs.state ≠ 2 ∨ off < 0xA0000 ∨ 0xB0000 ≤ off) → (timeState s = 0 ∨ eventReg off = false) →
        rd t off = (regReset off).toNat) ∧
      (timeState s ≠ 0 → rd t (R.EVT_COUNT 0x36) = 1) ∧
      (s.lcs.state = 2 → ∀ g ∈ [4, 27], rd t (R.GRD_R_BASE_LO g 14) = 0x01C00000 ∧ rd t (R.GRD_R_CFG g 14) = 0x80FE4A08 ∧
        rd t (R.GRD_R_BASE_LO g 15) = 0x02000000 ∧ rd t (R.GRD_R_CFG g 15) = 0x80FF4A08)) ∧
  (∀ (gpio : Word) (s : State), s.supply = .keep → s.porst = false →
    (∃ t, exec (.keepWake 3 gpio) s = .next t ∧ exec .sysrstN s = .next t ∧ fld t R.PWR_STATUS 19 18 = 3) ∧
    (gpioWakes s gpio.toNat = true → ∃ t, exec (.keepWake 1 gpio) s = .next t ∧ fld t R.PWR_STATUS 19 18 = 1 ∧
      (∀ e ∈ s.pwr.rails.getD [], e.offInKeep = true → (∀ f ∈ s.pwr.rails.getD [], f.code = e.code → f.offInKeep = true) →
        t.supply = .rising ∧ e.code ∉ t.pwr.good)) ∧
    (gpioWakes s gpio.toNat = false → exec (.keepWake 1 gpio) s = .next s) ∧
    (flag s R.PWR_WAKE_AT_NS 31 = true → wakeAt s ≤ s.clock →
      ∃ t, exec (.keepWake 2 gpio) s = .next t ∧ fld t R.PWR_STATUS 19 18 = 2))

/-- Rails come up in increasing ORDER, each after its delay (R445): with a valid table the commanded rail is the next in
ORDER, any other rail is not taken; the last one good brings a cold start out of reset, and an exit from KEEP counts in
PWR_KEEP_COUNT (R443). A power-down turns the rails off 1 ms after it began (R444): the device is OFF with the link down.
Ten milliseconds at or above 127 °C begin one (R448): stage 4, and every HEADOK low at once. Completes (exec answers this
next state): railSequenceStep, powerDown, thermalCritical. -/
def Obligations.RailsComeUpAndGoDown : Prop :=
  (∀ (rail : Fin 8) (s : State), s.supply = .rising → s.porst = false → railsByBoard s = false →
    (railNext s rail.val = none → exec (.railSequenceStep rail) s = .next s) ∧
    (∀ e, railNext s rail.val = some e →
      ∃ t, exec (.railSequenceStep rail) s = .next t ∧ rail.val ∈ t.pwr.good ∧
        t.updates = s.updates + 625000 * e.delayMs ∧
        ((∃ f ∈ s.pwr.rails.getD [], f.code ∉ s.pwr.good ∧ f.code ≠ rail.val) → t.supply = .rising) ∧
        ((∀ f ∈ s.pwr.rails.getD [], f.code ∈ s.pwr.good ∨ f.code = rail.val) →
          t.supply = .on ∧ powerState t = 0 ∧
          (s.pwr.fromKeep = true → rd t R.PWR_KEEP_COUNT = (rd s R.PWR_KEEP_COUNT + 1) % 2 ^ 32)))) ∧
  ((∀ (s : State) (x : Nat), powered s = true → s.pwr.downAt = some x →
    ∃ t, exec .powerDown s = .next t ∧ t.supply = .off ∧ powerState t = 3 ∧ t.linkUp = false ∧ t.pwr.downAt = none ∧
      (0 < inc s → x ≤ t.elapsed) ∧ (∀ off, off ≠ R.PWR_STATUS → rd t off = rd s off)) ∧
  (∀ (s : State) (x : Nat), running s = true → s.pwr.critSince = some x → s.pwr.downAt = none →
    ∃ t, exec .thermalCritical s = .next t ∧ thermalStage t = 4 ∧ t.pwr.downAt = some (t.elapsed + msUnit) ∧
      (0 < inc s → x + 10 * msUnit ≤ t.elapsed) ∧ ∀ h < 24, flag t (R.WIN_LT_STATUS h) 0 = false))

/-- PCIE_PERST_n resets the PCIe endpoint alone: the link goes down with EV_PCIE_LINK (R473). Training brings the link up
at a width and generation that R149 names, with the same event. Nothing else changes but what the event does. Completes
(exec answers this next state): pciePerstN, pcieLinkUp. -/
def Obligations.PcieLinkDownAndUp : Prop :=
  (∀ s : State, running s = true → s.linkUp = true →
    exec .pciePerstN s = .next (raise { code := 8, sub := 0 } { s with linkUp := false, bar2 := [] })) ∧
  (∀ s : State, powered s = true → s.linkUp = false → exec .pciePerstN s = .next { s with bar2 := [] }) ∧
  (∀ (width gen : Fin 16) (s : State), running s = true → s.linkUp = false →
    (width.val = 1 ∨ width.val = 2 ∨ width.val = 4) → 1 ≤ gen.val → gen.val ≤ 4 →
    exec (.pcieLinkUp width gen) s =
      .next (raise { code := 8, sub := 1, a0 := width.val * 16 + gen.val } { s with linkUp := true }))

/-! ## Boot, life cycle, power and calibration -/

/-- The initialisation of Granary sets GRN_STATUS.INIT_DONE (R368) and starts the scrubber at the first word (R369); the
bytes, zero since the reset by the model's choice (log entry 65), stay; a Demal that is NOT_LOADED then goes to VERIFYING.
Once done, it is not done again. The outcome of Demal's verification (R435): the first copy that passes is loaded at the
start of the Hearth memory and runs, recorded in LCS_BOOT and VERSION; where both fail, STATE becomes REJECTED, and
Granary is as before. When STATE is RUNNING and BEAT has not advanced across 8 consecutive ticks, the device sets STATE to
HALTED and raises EV_DEMAL_STALL (R19); every key is then OFF (R407). Before that, or in another STATE, nothing happens.
Completes (exec answers this next state): granaryInitDone, demalBootDone, demalStall. -/
def Obligations.DemalBootsAndStalls : Prop :=
  (∀ s : State, running s = true →
    (flag s R.GRN_STATUS 0 = false → ∃ t, exec .granaryInitDone s = .next t ∧ flag t R.GRN_STATUS 0 = true ∧
      t.granary = s.granary ∧ (s.granary = [] → ∀ a n, gRead t a n = List.replicate n 0) ∧ t.cell.scrubAt = 0 ∧
      demalState t = (if demalState s = 0 then 1 else demalState s)) ∧
    (flag s R.GRN_STATUS 0 = true → exec .granaryInitDone s = .next s)) ∧
  (∀ (copyA copyB : List Byte) (s : State), running s = true → demalState s = 1 → flag s R.GRN_STATUS 0 = true →
    (∀ img copy, (img = copyA ∧ copy = 0 ∧ imageRuns s copyA = true ∨
        img = copyB ∧ copy = 1 ∧ imageRuns s copyA = false ∧ imageRuns s copyB = true) →
      ∃ t, exec (.demalBootDone copyA copyB) s = .next t ∧ demalState t = 2 ∧
        fld t R.SYS_DEMAL 31 16 = bits (ofLe ((img.drop 4).take 4)) 31 16 ∧ fld t R.LCS_BOOT 0 0 = copy ∧
        t.lcs.demalEntry = ofLe ((img.drop 12).take 4) ∧
        t.granary = (gWrite s 0x01C80000 ((img.drop 0x100).take (imageLen img))).granary) ∧
    (imageRuns s copyA = false → imageRuns s copyB = false →
      ∃ t, exec (.demalBootDone copyA copyB) s = .next t ∧ demalState t = 3 ∧ t.granary = s.granary ∧ t.lcs = s.lcs)) ∧
  (∀ s : State, running s = true →
    (demalState s = 2 → 8 ≤ s.tck.beatMissed → ∃ t, exec .demalStall s = .next t ∧ demalState t = 4 ∧
      (∃ u, u = raise { code := 4, a0 := rd s R.SYS_DEMAL_BEAT } s ∧ t = setDemal 4 u) ∧
      ∀ k < 64, rd t (R.TCH_K_BASE k) = 0 ∧ rd t (R.TCH_K_HELD k) = 0 ∧ fld t (R.TCH_K_STATE k) 2 0 = 0) ∧
    (¬ (demalState s = 2 ∧ 8 ≤ s.tck.beatMissed) → exec .demalStall s = .next s))

/-- The K write of a sound LCS_REQ pair takes the request into processing, or drops it with result BUSY while an earlier
one is processed (R429). The request carried out leaves processing with its result in LCS_RESULT, and LCS_NONCE is drawn
afresh; an accepted TRANSITION is pending and the state stays until the next release of PORST_n (R431). The debug port
opens in RETURN with a vendor-key signature over LCS_UID and LCS_NONCE alone (R432); an open port halts, steps and runs
Hearth cores, a closed one does not (R427). Nothing else changes. Completes (exec answers this next state): lcsRequest,
lcsRequestDone, debugAuth, debugCoreControl. -/
def Obligations.LifeCycleAndDebugPort : Prop :=
  ((∀ (k : Word) (v : Nat) (s : State), powered s = true → pairValue s R.LCS_REQ k.toNat = some v →
    ∃ t, exec (.lcsRequest k) s = .next t ∧ huskPending t R.LCS_REQ = none ∧
      (s.lcs.request = none → t.lcs.request = some v ∧ flag t R.LCS_RESULT 18 = true ∧ rd t R.LCS_REQ = v % 2 ^ 32) ∧
      (∀ w, s.lcs.request = some w → t.lcs = s.lcs ∧ fld t R.LCS_RESULT 7 0 = 7)) ∧
  (∀ (fuseOk : Bool) (v : Nat) (s : State), powered s = true → s.lcs.request = some v →
    ∃ t, exec (.lcsRequestDone fuseOk) s = .next t ∧ t.lcs.request = none ∧ t.lcs.state = s.lcs.state ∧
      flag t R.LCS_RESULT 18 = false ∧ flag t R.LCS_RESULT 31 = true ∧
      fld t R.LCS_RESULT 7 0 = (if reqResult s v = 0 ∧ fuseOk = false then 6 else reqResult s v) ∧
      (∃ d, ∀ i < 8, rd t (R.LCS_NONCE i) = (Config.freeWord (d + i)).toNat) ∧
      (reqResult s v = 0 → fuseOk = true → reqOp v = 0 →
        flag t R.LCS_STATE 16 = true ∧ fld t R.LCS_STATE 22 20 = reqArg v ∧
        smGet (fun _ => 0) t.lcs.stateFuses (reqArg v) = 0xFFFFFFFF))) ∧
  ((∀ (sig : List Byte) (s : State), powered s = true →
    (s.lcs.state = 3 → slotMatches s 4 (sig.take 96) = true →
      Config.ecdsaVerify (sig.take 96) (uidBytes ++ nonceBytes s) ((sig.drop 96).take 96) = true →
      exec (.debugAuth sig) s = .next { s with lcs := { s.lcs with vendorAuth := true } }) ∧
    (s.lcs.state ≠ 3 ∨ slotMatches s 4 (sig.take 96) = false ∨
      Config.ecdsaVerify (sig.take 96) (uidBytes ++ nonceBytes s) ((sig.drop 96).take 96) = false →
      exec (.debugAuth sig) s = .next s)) ∧
  (∀ (core : Fin 4) (op : CoreOp) (s : State), running s = true →
    (debugOpen s = false → exec (.debugCoreControl core op) s = .next s) ∧
    (debugOpen s = true → ∃ h, exec (.debugCoreControl core op) s = .next { s with lcs := { s.lcs with halted := h } } ∧
      (core.val ∈ h ↔ op ≠ .run) ∧ ∀ c, c ≠ core.val → (c ∈ h ↔ c ∈ s.lcs.halted))))

/-- A supply monitor's reading is kept; outside ±3 % of nominal it sets WARN; outside 0 to 150 % it marks the sensor
(R446, R447). A poll of a rail-table regulator keeps its STATUS_WORD and sets WARN and FAULT from its bits; FAULT drives
every HEADOK low and begins a power-down (R444). Completes (exec answers this next state): supplyMonitorSample,
pmbusStatusPoll. -/
def Obligations.RailMonitoringSetsWarnAndFault : Prop :=
  (∀ (rail : Fin 8) (mv : Nat) (s : State), running s = true → mv < 2 ^ 32 →
    ∃ t, exec (.supplyMonitorSample rail mv) s = .next t ∧ rd t (R.PWR_SENSOR (8 + rail.val)) = mv ∧
      (railNominal s rail.val ≠ 0 → outside mv (railNominal s rail.val) 3 = true → flag t (R.PWR_RAIL rail.val) 30 = true) ∧
      (railNominal s rail.val ≠ 0 → flag t R.PWR_SENSOR_BAD (8 + rail.val) = decide (3 * railNominal s rail.val < 2 * mv))) ∧
  (∀ (rail : Fin 8) (status : BitVec 16) (e : RailEntry) (s : State), running s = true → railOf s rail.val = some e →
    ∃ t, exec (.pmbusStatusPoll rail status) s = .next t ∧ fld t (R.PWR_RAIL rail.val) 15 0 = status.toNat ∧
      (bits status.toNat 15 13 ≠ 0 → flag t (R.PWR_RAIL rail.val) 30 = true) ∧
      (bits status.toNat 5 2 ≠ 0 → flag t (R.PWR_RAIL rail.val) 31 = true ∧
        (s.pwr.downAt = none → t.pwr.downAt = some (s.elapsed + msUnit) ∧ ∀ h < 24, flag t (R.WIN_LT_STATUS h) 0 = false)))

/-- The thermal loop (R448): with every sensor calibrated and every reading in range, a sample keeps each reading,
PWR_TEMP is the hottest, and the thermal stage rises at once to the stage it enters. After 100 ms below the fall level the
stage falls by one. The AVS loop (R450): less slack than AVS_MARGIN raises VDD_CORE by 5 mV, up to VMAX, above which the
AVS stage rises instead with EV_LOOP_LIMIT (R451); a fall of the applied stage that waits for slack raises it too (R452);
the twentieth sample in a row with slack to spare lowers it by 5 mV. A raise is done when the regulator acknowledges it
(R452). Completes (exec answers this next state): thermalSample, thermalStageFall, avsSample, avsRaiseAck. -/
def Obligations.ThermalAndVoltageLoops : Prop :=
  ((∀ (mc : List Int) (s : State), running s = true → mc.length = 8 →
    (∀ i < 8, -55000 ≤ mc.getD i 0 ∧ mc.getD i 0 ≤ 150000 ∧ i ∈ s.pwr.calibrated ∧ calOf s (40 + i) = none) →
    ∃ t, exec (.thermalSample mc) s = .next t ∧ (∀ i < 8, rd t (R.PWR_SENSOR i) = uint 32 (mc.getD i 0)) ∧
      (∃ m ∈ mc, rd t R.PWR_TEMP = uint 32 m ∧ (∀ x ∈ mc, x ≤ m) ∧ thermalStage t = max (thermalStage s) (thermalEntry s m))) ∧
  (∀ (x : Nat) (s : State), running s = true → s.pwr.lowSince = some x → thermalStage s ≠ 0 →
    ∃ t, exec .thermalStageFall s = .next t ∧ thermalStage t = thermalStage s - 1 ∧
      (0 < inc s → x + 100 * msUnit ≤ t.elapsed))) ∧
  ((∀ (x : Int) (xs : List Int) (s : State), running s = true → (s.pwr.rails.getD []).any (·.avs) = true →
    ∃ t, exec (.avsSample (x :: xs)) s = .next t ∧ t.pwr.slack = xs.foldl min x ∧
      (xs.foldl min x < avsMargin s → vOut s + 5 ≤ vMax s → vMin s ≤ vOut s →
        vOut t = vOut s + 5 ∧ t.pwr.raising = true) ∧
      (xs.foldl min x < avsMargin s → vMax s < vOut s + 5 →
        vOut t = vOut s ∧ avsStage t = min 3 (avsStage s + 1) ∧ rd t R.PWR_LIMITS = (rd s R.PWR_LIMITS + 1) % 2 ^ 32) ∧
      (avsMargin s + 20 < xs.foldl min x → (fallWaits s = false ∨ avsMargin s + 60 ≤ xs.foldl min x) → s.pwr.slackRun = 19 →
        avsStage s = 0 → vMin s + 5 ≤ vOut s → vOut s ≤ vMax s + 5 → vOut t + 5 = vOut s ∧ t.pwr.slackRun = 0) ∧
      (fallWaits s = true → xs.foldl min x < avsMargin s + 60 → vOut s + 5 ≤ vMax s → vMin s ≤ vOut s →
        vOut t = vOut s + 5 ∧ t.pwr.raising = true)) ∧
  (∀ s : State, running s = true →
    exec .avsRaiseAck s = .next (applyStage { s with pwr := { s.pwr with raising := false } })))

/-- The K write of a sound PWR_REQ pair (R440): OFF begins a power-down, KEEP is entered or refused with KEEP_REFUSED
(R442), a change between RUN and QUIET waits for the next seal while the tick runs and is made at once while it does not,
and the current state is ignored. Completes (exec answers this next state): powerRequest. -/
def Obligations.PowerRequestChangesState : Prop :=
  ∀ (k : Word) (v : Nat) (s : State), running s = true → pairValue s R.PWR_REQ k.toNat = some v →
    ∃ t, exec (.powerRequest k) s = .next t ∧ rd t R.PWR_REQ = v % 2 ^ 32 ∧ huskPending t R.PWR_REQ = none ∧
      (bits v 1 0 = powerState s → t.pwr = s.pwr ∧ powerState t = powerState s ∧ t.supply = s.supply) ∧
      (bits v 1 0 = 3 → powerState s ≠ 3 → s.pwr.downAt = none → t.pwr.downAt = some (s.elapsed + msUnit)) ∧
      (bits v 1 0 = 2 → powerState s ≠ 2 → keepReady s = true →
        t.supply = .keep ∧ powerState t = 2 ∧ t.linkUp = false ∧ t.pwr.cals = []) ∧
      (bits v 1 0 = 2 → powerState s ≠ 2 → keepReady s = false → flag t R.PWR_STATUS 17 = true ∧ t.supply = .on) ∧
      (bits v 1 0 < 2 → bits v 1 0 ≠ powerState s → tickRun s = true →
        t.pwr.change = some (bits v 1 0) ∧ powerState t = powerState s) ∧
      (bits v 1 0 < 2 → bits v 1 0 ≠ powerState s → tickRun s = false → powerState t = bits v 1 0)

/-- TRM_CMD starts one item while Demal does not run, and is ignored with CMD_IGNORED while it does (R460). TRIM_RUN
completes with NO_FIRMWARE without Demal (R181), and else starts its item. An item whose measurement is in range succeeds,
its COUNT and TIME recorded (R459); out of range it fails with cause OUT_OF_RANGE (R457). Completes (exec answers this
next state): trimCmd, trimRun, calibrationComplete. -/
def Obligations.CalibrationStartsAndRecords : Prop :=
  (∀ (v : Word) (s : State), running s = true →
    (demalState s = 2 → exec (.trimCmd v) s = .next (setFlag s R.TRM_STATUS 7 true)) ∧
    (demalState s ≠ 2 → bit v.toNat 31 = true → calPresent s.part (bits v.toNat 6 0) = true →
      calIn s (calGroup (bits v.toNat 6 0)) = none →
      ∃ t, exec (.trimCmd v) s = .next t ∧ (∃ c ∈ t.pwr.cals, c.item :: c.next = calItems (bits v.toNat 6 0)) ∧
        flag t R.TRM_STATUS 15 = true ∧ fld t R.TRM_STATUS 14 8 = (calItems (bits v.toNat 6 0)).headD 0)) ∧
  (∀ (tag : Fin 4096) (c : Cmd) (s : State), running s = true → findCmd s tag.val = some c → c.opcode = 0x58 →
    mayExecute s.rng.cmds c = true →
    (demalState s ≠ 2 → exec (.trimRun tag) s = .next (finish c.tag stNoFirmware (demalState s) 0 0 s)) ∧
    (demalState s = 2 → bits (c.w 2) 6 0 < 36 → bit (c.w 3) 0 = false → calIn s (calGroup (bits (c.w 2) 6 0)) = none →
      ∃ t, exec (.trimRun tag) s = .next t ∧
        (∃ q ∈ t.pwr.cals, q.item = bits (c.w 2) 6 0 ∧ q.tag = some c.tag) ∧
        t.rng = (waitCmd c.tag [bits (c.w 2) 6 0, 0, 0] s).rng)) ∧
  (∀ (item : Fin 73) (o : CalObs) (c : Cal) (s : State), running s = true → calOf s item.val = some c → c.phase = 0 →
    item.val < 36 → (item.val < 32 → laneOff s item.val = true) →
    ∃ t, exec (.calibrationComplete item o) s = .next t ∧
      (o.inRange = true → rd t (R.TRM_COUNT item.val) = (rd s (R.TRM_COUNT item.val) + 1) % 2 ^ 32 ∧
        wideGet t (R.TRM_TIME_LO item.val) = timeArg s.clock % 2 ^ 64) ∧
      (o.inRange = false → fld t (R.TRM_INFO item.val) 11 8 = 4 ∧ rd t (R.TRM_COUNT item.val) = rd s (R.TRM_COUNT item.val)))

/-! ## The wall tick and network time -/

/-- RUN is set (R27, R28): with a timebase that keeps R24 the first tick to seal is the smallest N whose T_N lies at least
100 µs after the write; with one that breaks R24 RUN stays 0 and TB_INVALID is set. RUN is cleared (R30, R49): with every
head, channel and session OFF no tick is next and capacities and limits are 0; otherwise RUN stays 1 and STOP_IGNORED is
set. Completes (exec answers this next state): tickRunStart, tickRunStop. -/
def Obligations.TickRunStartsAndStops : Prop :=
  ∀ s : State, running s = true →
    (tickRun s = false → timebaseValid s = true →
      ∃ t n, exec .tickRunStart s = .next t ∧ tickRun t = true ∧ t.tck.next = some n ∧
        s.clock + 100000 * nsUnit ≤ tickInstant s n ∧ ∀ m < n, tickInstant s m < s.clock + 100000 * nsUnit) ∧
    (tickRun s = false → timebaseValid s = false →
      ∃ t, exec .tickRunStart s = .next t ∧ tickRun t = false ∧ flag t R.TCK_STATUS 4 = true ∧ t.tck.next = s.tck.next) ∧
    (tickRun s = true → unitsOff s = true →
      ∃ t, exec .tickRunStop s = .next t ∧ tickRun t = false ∧ t.tck.next = none ∧
        ∀ p < 4, rd t (R.TCK_POOL_CAP p) = 0 ∧ rd t (R.TCK_POOL_LIMIT p) = 0) ∧
    (tickRun s = true → unitsOff s = false →
      ∃ t, exec .tickRunStop s = .next t ∧ tickRun t = true ∧ flag t R.TCK_STATUS 6 = true ∧ t.tck.next = s.tck.next)

/-- While RUN is 1 a write to a timebase register is ignored: CFG_IGNORED is set and EV_TICK_CFG_IGNORED raised, and
nothing else happens (R29). While RUN is 0 the register is stored, its undefined bits apart. Completes (exec answers this
next state): tickTimebaseWrite. -/
def Obligations.TimebaseHeldWhileRunning : Prop :=
  ∀ (reg : Fin 4) (v : Word) (s : State), running s = true →
    (tickRun s = true → exec (.tickTimebaseWrite reg v) s = .next (raise { code := 0x10, sub := 1 } (setFlag s R.TCK_STATUS 5 true)) ∧
      ∀ t, exec (.tickTimebaseWrite reg v) s = .next t → tickNum t = tickNum s ∧ tickDen t = tickDen s ∧ tickPhase t = tickPhase s) ∧
    (tickRun s = false → ∃ t, exec (.tickTimebaseWrite reg v) s = .next t ∧
      (reg.val = 0 → tickNum t = v.toNat ∧ tickDen t = tickDen s ∧ tickPhase t = tickPhase s) ∧
      (reg.val = 1 → tickNum t = tickNum s ∧ tickDen t = bits v.toNat 15 0 ∧ tickPhase t = tickPhase s) ∧
      (reg.val = 2 → tickNum t = tickNum s ∧ tickDen t = tickDen s ∧
        tickPhase t = bits v.toNat 29 0 * nsUnit + rd s R.TCK_PHASE_FRAC) ∧
      (reg.val = 3 → tickNum t = tickNum s ∧ tickDen t = tickDen s ∧
        tickPhase t = fld s R.TCK_PHASE_NS 29 0 * nsUnit + v.toNat) ∧
      OnlyRegs (fun o => [R.TCK_PERIOD_NUM, R.TCK_PERIOD_DEN, R.TCK_PHASE_NS, R.TCK_PHASE_FRAC].contains o) s t)

/-- GUARD_PM is stored within 50 to 500; sessions already admitted keep their costs, and while RUN is 1 every limit is
computed afresh (R49, R50). Completes (exec answers this next state): guardPmWrite. -/
def Obligations.GuardPmClampsAndRecomputes : Prop :=
  ∀ (v : Word) (s : State), running s = true →
    ∃ t, exec (.guardPmWrite v) s = .next t ∧
      guardPm t = max 50 (min 500 (bits v.toNat 9 0)) ∧ t.tck.entries = s.tck.entries ∧
      (∀ p < 4, rd t (R.TCK_POOL_COMMITTED p) = rd s (R.TCK_POOL_COMMITTED p) ∧ rd t (R.TCK_POOL_CAP p) = rd s (R.TCK_POOL_CAP p)) ∧
      (tickRun s = true → ∀ p < 4, rd t (R.TCK_POOL_LIMIT p) = rd s (R.TCK_POOL_CAP p) * (1000 - guardPm t) / 1000) ∧
      (tickRun s = false → OnlyRegs (fun o => decide (o = R.TCK_GUARD)) s t)

/-- The seal of tick N is made at T_N of R22, which step 1 of R35 keeps with N; TCK_SEAL_MAX is at least the time it took.
While the tick is stopped nothing is sealed (R27). Completes (exec answers this next state): tickSeal. -/
def Obligations.SealTakesNumberAndInstant : Prop :=
  ∀ (o : SealObs) (s : State), running s = true →
    (∀ n, s.tck.next = some n → (0 < inc s ∨ tickInstant s n ≤ s.clock) →
      ∃ t, exec (.tickSeal o) s = .next t ∧ t.tck.lastN = n ∧
        t.tck.lastT = fld s R.TCK_PHASE_NS 29 0 * nsUnit + rd s R.TCK_PHASE_FRAC +
          n * rd s R.TCK_PERIOD_NUM * 2 ^ 32 / fld s R.TCK_PERIOD_DEN 15 0 ∧
        o.durNs.val ≤ rd t R.TCK_SEAL_MAX) ∧
    (s.tck.next = none → exec (.tickSeal o) s = .next s)

/-- A read of the lower half of a 64-bit pair shows the whole value in the pair and latches its upper half; nothing else
changes. A read of TIM_NOW_SEC_LO latches the whole local time in one update (R106), and a read of TIM_U_LO the bound U
(R119). The counts of a lane's span and of its far end (R206, R207), of a flow (R230) and of a channel's readers (R260)
show the moment at which they are read. Completes (exec answers this next state): tckNRead, shfAppliedRead, encNextNRead,
headLastNRead, headFirstNRead, trmTimeRead, timNowRead, timURead, laneRxSpanRead, laneFarSpanRead, flowCountsRead,
vdcSlotCountsRead. -/
def Obligations.ReadsLatchWholeValues : Prop :=
  (∀ (slot : Fin 8) (n : Fin 16) (h : Fin 24) (item : Fin 73) (s : State), running s = true →
    ∀ c lo hi, (c, lo, hi) ∈ [(Instr.tckNRead, R.TCK_N_LO, R.TCK_N_HI),
        (.shfAppliedRead slot, R.SHF_SLOT_APPLIED_LO slot.val, R.SHF_SLOT_APPLIED_HI slot.val),
        (.encNextNRead n, R.VEN_NEXT_N_LO n.val, R.VEN_NEXT_N_HI n.val),
        (.headLastNRead h, R.HEAD_LAST_N_LO h.val, R.HEAD_LAST_N_HI h.val),
        (.headFirstNRead h, R.HEAD_FIRST_N_LO h.val, R.HEAD_FIRST_N_HI h.val),
        (.trmTimeRead item, R.TRM_TIME_LO item.val, R.TRM_TIME_HI item.val)] →
      ∃ t, exec c s = .next t ∧ rd64 t lo hi = wideGet s lo % 2 ^ 64 ∧
        OnlyRegs (fun o => decide (o = lo ∨ o = hi)) s t) ∧
  (∀ s : State, running s = true →
    (∃ t, exec .timNowRead s = .next t ∧ rd64 t R.TIM_NOW_SEC_LO R.TIM_NOW_SEC_HI = s.clock / (1000000000 * 2 ^ 32) % 2 ^ 64 ∧
      rd t R.TIM_NOW_NS = s.clock % (1000000000 * 2 ^ 32) / 2 ^ 32 ∧ rd t R.TIM_NOW_FRAC = s.clock % 2 ^ 32 ∧
      OnlyRegs (fun o => [R.TIM_NOW_SEC_LO, R.TIM_NOW_SEC_HI, R.TIM_NOW_NS, R.TIM_NOW_FRAC].contains o) s t) ∧
    (∃ t, exec .timURead s = .next t ∧ rd64 t R.TIM_U_LO R.TIM_U_HI = uBound s ∧
      OnlyRegs (fun o => [R.TIM_U_LO, R.TIM_U_HI].contains o) s t)) ∧
  (∀ s : State, running s = true →
    (∀ (n : Fin 32) (p : Span), (laneAt s n.val).span = some p → ∃ t, exec (.laneRxSpanRead n) s = .next t ∧
      rd t (R.LANE_RX_SEQ_LAST n.val) = p.last % 2 ^ 32 ∧ rd t (R.LANE_RX_RECEIVED n.val) = p.received % 2 ^ 32 ∧
      rd t (R.LANE_RX_LOST n.val) = p.lost % 2 ^ 32) ∧
    (∀ n : Fin 32, ∃ t, exec (.laneFarSpanRead n) s = .next t ∧
      rd t (R.LANE_FAR_SEQ_LAST n.val) = (laneAt s n.val).far.last % 2 ^ 32 ∧
      rd t (R.LANE_FAR_RECEIVED n.val) = (laneAt s n.val).far.received % 2 ^ 32 ∧
      rd t (R.LANE_FAR_LOST n.val) = (laneAt s n.val).far.lost % 2 ^ 32) ∧
    (∀ f : Fin 1024, ∃ t, exec (.flowCountsRead f) s = .next t ∧
      rd t (R.VST_FLOW_ARRIVED_A f.val) = (flowAt s f.val).arrivedA % 2 ^ 32 ∧
      rd t (R.VST_FLOW_ARRIVED_B f.val) = (flowAt s f.val).arrivedB % 2 ^ 32 ∧
      rd t (R.VST_FLOW_USED f.val) = (flowAt s f.val).used % 2 ^ 32 ∧ rd t (R.VST_FLOW_DUP f.val) = (flowAt s f.val).dup % 2 ^ 32 ∧
      rd t (R.VST_FLOW_LATE f.val) = (flowAt s f.val).late % 2 ^ 32 ∧
      rd t (R.VST_FLOW_MALFORMED f.val) = (flowAt s f.val).malformed % 2 ^ 32 ∧
      rd t (R.VST_FLOW_HELD f.val) = (flowAt s f.val).held.length % 2 ^ 32) ∧
    (∀ c : Fin 96, unitPresent s.part .src c.val = true → ∃ t, exec (.vdcSlotCountsRead c) s = .next t ∧
      rd t (R.VDC_S_READERS c.val) = readerSum s c.val % 2 ^ 32 ∧
      OnlyRegs (fun o => decide (o = R.VDC_S_READERS c.val)) s t))

/-- The servo handles a sample in R111's order: ignored while SERVO_EN is 0; discarded when its path delay is too long;
refused when |θ| exceeds STEP_LIMIT, with the clock left alone (R114) and LOCKED left for HOLDOVER (R118); otherwise
accepted under the law of R112, with a pending refusal withdrawn (R115) and the state LOCKED. Writes of FREQ and INC_NOM
take effect while SERVO_EN is 0 alone, FREQ within ±FMAX (R105, R113); clearing SERVO_EN keeps FREQ, zeroes I and returns
to FREE (R113, R118); HOLD_TIMEOUT after the last accepted sample a LOCKED unit enters HOLDOVER, and the growth of U
begins (R118, R119). Completes (exec answers this next state): servoSample, freqWrite, servoDisable, holdoverTimeout. -/
def Obligations.ServoAndTimeStates : Prop :=
  (∀ (v : Word) (s : State), running s = true → bit v.toNat 31 = true →
    (flag s R.TIM_CTRL 0 = false → exec (.servoSample v) s = .next s) ∧
    (flag s R.TIM_CTRL 0 = true → rd s R.TIM_DELAY_MAX < rd s R.TIM_SRV_DELAY →
      ∃ t, exec (.servoSample v) s = .next t ∧ rd t R.TIM_DISCARD_COUNT = (rd s R.TIM_DISCARD_COUNT + 1) % 2 ^ 32 ∧
        flag t R.TIM_STATUS 5 = true ∧ rd t R.TIM_FREQ = rd s R.TIM_FREQ ∧ t.clock = s.clock ∧ timeState t = timeState s) ∧
    (flag s R.TIM_CTRL 0 = true → rd s R.TIM_SRV_DELAY ≤ rd s R.TIM_DELAY_MAX →
      fld s R.TIM_STEP_LIMIT 29 0 * 65536 < (servoTheta s).natAbs →
      ∃ t, exec (.servoSample v) s = .next t ∧ rd t R.TIM_REFUSED_COUNT = (rd s R.TIM_REFUSED_COUNT + 1) % 2 ^ 32 ∧
        flag t R.TIM_STATUS 3 = true ∧ flag t R.TIM_STATUS 4 = true ∧
        fld t R.TIM_PEND_ID 15 0 = (fld s R.TIM_PEND_ID 15 0 + 1) % 2 ^ 16 ∧ pendingOfs t = servoTheta s ∧
        t.clock = s.clock ∧ (timeState s ≠ 1 → rd t R.TIM_FREQ = rd s R.TIM_FREQ) ∧
        timeState t = if timeState s = 1 then 2 else timeState s) ∧
    (flag s R.TIM_CTRL 0 = true → rd s R.TIM_SRV_DELAY ≤ rd s R.TIM_DELAY_MAX →
      (servoTheta s).natAbs ≤ fld s R.TIM_STEP_LIMIT 29 0 * 65536 →
      ∀ e i f : Int, e = Int.tdiv (-servoTheta s) 65536 →
        i = clampInt (-fmaxOf s) (fmaxOf s) (sint 32 (rd s R.TIM_INTEGRAL) + (fld s R.TIM_KI 15 0 : Int) * e) →
        f = clampInt (-fmaxOf s) (fmaxOf s) (i + (fld s R.TIM_KP 15 0 : Int) * e) →
        ∃ t, exec (.servoSample v) s = .next t ∧ rd t R.TIM_INTEGRAL = uint 32 i ∧
          rd t R.TIM_FREQ = uint 32 (clampInt (freqOf s - rd s R.TIM_SLEW) (freqOf s + rd s R.TIM_SLEW) f) ∧
          t.tim.lastOfs = ceilDiv (servoTheta s).natAbs 65536 ∧ flag t R.TIM_STATUS 3 = false ∧ timeState t = 1 ∧
          t.clock = s.clock)) ∧
  ((∀ (reg : Fin 3) (v : Word) (s : State), running s = true →
    (flag s R.TIM_CTRL 0 = true → exec (.freqWrite reg v) s = .next s) ∧
    (flag s R.TIM_CTRL 0 = false → ∃ t, exec (.freqWrite reg v) s = .next t ∧
      (reg.val = 0 → freqOf t = max (-fmaxOf s) (min (fmaxOf s) (sint 32 v.toNat)) ∧ incNom t = incNom s) ∧
      (reg.val = 1 → incNom t = v.toNat + 2 ^ 32 * fld s R.TIM_INC_NOM_HI 3 0 ∧ freqOf t = freqOf s) ∧
      (reg.val = 2 → incNom t = rd s R.TIM_INC_NOM_LO + 2 ^ 32 * bits v.toNat 3 0 ∧ freqOf t = freqOf s))) ∧
  (∀ s : State, running s = true → ∃ t, exec .servoDisable s = .next t ∧ flag t R.TIM_CTRL 0 = false ∧
    rd t R.TIM_FREQ = rd s R.TIM_FREQ ∧ rd t R.TIM_INTEGRAL = 0 ∧ timeState t = 0 ∧ flag t R.TIM_STATUS 3 = false) ∧
  (∀ s : State, aonRunning s = true → timeState s = 1 → ∃ t, exec .holdoverTimeout s = .next t ∧ timeState t = 2 ∧
    t.tim.holdAt = t.elapsed ∧ (0 < inc s → s.tim.acceptAt + holdTimeout s ≤ t.elapsed)))

/-- A step of the local clock: STEP_ACCEPT with the current PEND_ID subtracts the pending θ and clears STEP_PENDING with
FREQ left alone; a stale one sets ACCEPT_STALE (R116). TIME_SET in FREE without a pending refusal loads the written time,
nanoseconds held to 999,999,999, and else sets SET_IGNORED (R117). After a forward step the next tick to seal is no
earlier than the first tick after the stepped time (R32). Completes (exec answers this next state): stepAccept, timeSet.
-/
def Obligations.ClockStepsAndTimeSet : Prop :=
  (∀ (k : Word) (v : Nat) (s : State), running s = true → pairValue s R.TIM_STEP_ACCEPT k.toNat = some v →
    (v = fld s R.TIM_PEND_ID 15 0 → flag s R.TIM_STATUS 3 = true → ∃ t, exec (.stepAccept k) s = .next t ∧
      t.clock = ((s.clock : Int) - pendingOfs s * 65536).toNat ∧ flag t R.TIM_STATUS 3 = false ∧
      rd t R.TIM_FREQ = rd s R.TIM_FREQ ∧ rd t R.TIM_INTEGRAL = rd s R.TIM_INTEGRAL ∧
      ∀ n, s.tck.next = some n → s.clock ≤ t.clock → t.tck.next = some (max n (tickAfter s t.clock))) ∧
    (v ≠ fld s R.TIM_PEND_ID 15 0 ∨ flag s R.TIM_STATUS 3 = false → ∃ t, exec (.stepAccept k) s = .next t ∧
      t.clock = s.clock ∧ flag t R.TIM_STATUS 7 = true ∧ t.tck.next = s.tck.next)) ∧
  (∀ (v : Word) (s : State), running s = true → bit v.toNat 0 = true →
    (timeState s = 0 → flag s R.TIM_STATUS 3 = false → ∃ t, exec (.timeSet v) s = .next t ∧
      t.clock = mkTime (rd64 s R.TIM_SET_SEC_LO R.TIM_SET_SEC_HI) (min 999999999 (fld s R.TIM_SET_NS 29 0)) (rd s R.TIM_SET_FRAC) ∧
      ∀ n, s.tck.next = some n → s.clock ≤ t.clock → t.tck.next = some (max n (tickAfter s t.clock))) ∧
    (timeState s ≠ 0 ∨ flag s R.TIM_STATUS 3 = true → ∃ t, exec (.timeSet v) s = .next t ∧
      t.clock = s.clock ∧ flag t R.TIM_STATUS 6 = true))

/-- A selected edge is stamped within ±3.2 ns with its polarity at the end of the FIFO; one closer than 16 ns to the last
stamped edge (R121), or one that meets four entries (R122), is counted lost; an edge not selected does nothing. A read
takes the oldest entry, and shows 0 where there is none (R122). Completes (exec answers this next state): captureEdge,
captureFifoRead. -/
def Obligations.CapturesQueueAndRead : Prop :=
  (∀ (c : Fin 17) (rising : Bool) (err : Int) (s : State), aonRunning s = true →
    (edgeSelected s c.val rising = false → exec (.captureEdge c rising err) s = .next s) ∧
    (edgeSelected s c.val rising = true → (∀ x, (capAt s c.val).lastEdge = some x → x + 16 * nsUnit ≤ s.elapsed) →
      (capAt s c.val).fifo.length < 4 →
      ∃ (t : State) (stamp : Nat), exec (.captureEdge c rising err) s = .next t ∧
        (capAt t c.val).fifo = (capAt s c.val).fifo ++ [(stamp, rising)] ∧
        (stamp : Int) ≤ s.clock + 13743895347 ∧ (s.clock : Int) ≤ stamp + 13743895347 ∧
        fld t (R.TIM_CAP_STATUS c.val) 31 16 = fld s (R.TIM_CAP_STATUS c.val) 31 16) ∧
    (edgeSelected s c.val rising = true →
      ((∃ x, (capAt s c.val).lastEdge = some x ∧ s.elapsed < x + 16 * nsUnit) ∨ 4 ≤ (capAt s c.val).fifo.length) →
      ∃ t, exec (.captureEdge c rising err) s = .next t ∧ (capAt t c.val).fifo = (capAt s c.val).fifo ∧
        fld t (R.TIM_CAP_STATUS c.val) 31 16 = (fld s (R.TIM_CAP_STATUS c.val) 31 16 + 1) % 2 ^ 16)) ∧
  (∀ (c : Fin 17) (s : State), running s = true →
    ((capAt s c.val).fifo = [] → ∃ t, exec (.captureFifoRead c) s = .next t ∧
      rd64 t (R.TIM_CAP_SEC_LO c.val) (R.TIM_CAP_SEC_HI c.val) = 0 ∧ rd t (R.TIM_CAP_NS c.val) = 0 ∧
      rd t (R.TIM_CAP_FRAC c.val) = 0) ∧
    (∀ x pol rest, (capAt s c.val).fifo = (x, pol) :: rest → ∃ t, exec (.captureFifoRead c) s = .next t ∧
      rd64 t (R.TIM_CAP_SEC_LO c.val) (R.TIM_CAP_SEC_HI c.val) = timeSec x % 2 ^ 64 ∧
      rd t (R.TIM_CAP_NS c.val) = timeNs x ∧ rd t (R.TIM_CAP_FRAC c.val) = timeFrac x ∧
      flag t (R.TIM_CAP_STATUS c.val) 3 = pol ∧ (capAt t c.val).fifo = rest))

/-- A trigger with a sound schedule arms at the first instant after the write; a one-shot whose instant is past sets
MISSED instead, and a schedule that breaks R123 sets CFG_BAD (R123, R124). Disarming cuts a pulse short. An armed trigger
fires at its next instant, counts it, and is armed for the next while its series lasts; triggers 10 and 11 also start a
touch scan and the scheduled calibration (R123). A pulse ends after its width. Completes (exec answers this next state):
triggerArm, triggerDisarm, triggerFire, triggerPulseEnd. -/
def Obligations.TriggersFollowSchedule : Prop :=
  (∀ (t : Fin 12) (v : Word) (s : State), running s = true → t.val ≠ 9 → trigArmed s t.val = false →
    (trigValid s t.val = true →
      (if bit v.toNat 2 then rd s (R.TIM_TRIG_COUNT t.val) = 0 ∨
          trigNextAfter s t.val s.clock < rd s (R.TIM_TRIG_COUNT t.val) else s.clock < trigStart s t.val) →
      ∃ u, exec (.triggerArm t v) s = .next u ∧ trigArmed u t.val = true ∧
        s.clock < trigInstant s t.val (trigAt u t.val).next ∧
        ∀ j < (trigAt u t.val).next, trigInstant s t.val j ≤ s.clock) ∧
    (trigValid s t.val = true → bit v.toNat 2 = false → trigStart s t.val ≤ s.clock →
      ∃ u, exec (.triggerArm t v) s = .next u ∧ trigArmed u t.val = false ∧ flag u (R.TIM_TRIG_CTRL t.val) 5 = true) ∧
    (trigValid s t.val = false →
      ∃ u, exec (.triggerArm t v) s = .next u ∧ trigArmed u t.val = false ∧ flag u (R.TIM_TRIG_CTRL t.val) 7 = true)) ∧
  (∀ (t : Fin 12) (v : Word) (s : State), running s = true → ∃ u, exec (.triggerDisarm t v) s = .next u ∧
    trigArmed u t.val = false ∧ (trigAt u t.val).pulseEnd = none ∧ ∀ j, j ≠ t.val → trigAt u j = trigAt s j) ∧
  (∀ (t : Fin 12) (s : State), aonRunning s = true → t.val < 9 → trigArmed s t.val = true →
    ∃ u, exec (.triggerFire t) s = .next u ∧
      rd u (R.TIM_TRIG_FIRED t.val) = (rd s (R.TIM_TRIG_FIRED t.val) + 1) % 2 ^ 32 ∧
      (0 < inc s → trigInstant s t.val (trigAt s t.val).next ≤ u.clock) ∧
      (trigAt u t.val).pulseEnd = some (u.clock + trigWidth s t.val) ∧
      trigArmed u t.val = trigHas s t.val ((trigAt s t.val).next + 1)) ∧
  (∀ s : State, running s = true →
    (trigArmed s 10 = true → exec (.triggerFire 10) s = .next (touchStart (trigReach 10 s))) ∧
    (trigArmed s 11 = true → exec (.triggerFire 11) s = .next (calSchedule (trigReach 11 s)))) ∧
  (∀ (t : Fin 12) (e : Nat) (s : State), aonRunning s = true → (trigAt s t.val).pulseEnd = some e →
    ∃ u, exec (.triggerPulseEnd t) s = .next u ∧ (trigAt u t.val).pulseEnd = none ∧ (0 < inc s → e ≤ u.clock))

/-- A fire of trigger 10 that arrives while a scan is in progress starts no scan: TCH_OVERRUNS counts it and OVERRUN is
set (R391). -/
def Obligations.TouchFireDuringScanOverruns : Prop :=
  ∀ (q : TouchScan) (s : State), running s = true → trigArmed s 10 = true → s.tch.scan = some q →
    ∃ t, exec (.triggerFire 10) s = .next t ∧ t.tch = s.tch ∧
      rd t R.TCH_OVERRUNS = (rd s R.TCH_OVERRUNS + 1) % 2 ^ 32 ∧ flag t R.TCH_STATUS 18 = true

/-! ## Registers, Husk pairs and sheaves -/

/-- A write to a register that no chapter defines, or of a unit the part lacks, is ignored, and a read of it returns 0
(R2, R10). A register with bounds stores a written value held within them and changes nothing else. Completes (exec
answers this next state): registerWrite. -/
def Obligations.RegisterWritesClampOrAreIgnored : Prop :=
  (∀ (off : Nat) (v : Word) (s : State), regNamed s off = none →
    exec (.registerWrite off v) s = .next s ∧ regRead off s = (s, 0)) ∧
  (∀ (v : Word) (s : State), running s = true →
    ∀ off hi lo top, (off, hi, lo, top) ∈ [(R.TRM_INTERVAL, 16, 60, 86400), (R.DMC_TRACK, 15, 10, 10000), (R.DMC_RD, 15, 256, 65535),
        (R.DMC_SR, 15, 10, 65535), (R.GRN_SCRUB, 16, 10, 86400)] →
      ∃ t, exec (.registerWrite off v) s = .next t ∧ rd t off = max lo (min top (bits v.toNat hi 0)) ∧
        OnlyRegs (fun o => decide (o = off)) s t)

/-- A V word of an HK pair is held for 51,200 counter updates; one that meets a held value rejects it with cause REPLACED
(R74). Nothing takes effect. The K word of a WIN pair (R74): with the one's complement of the held value the pair is
accepted for step 3 of the next seal and reads still return the value in effect; with another value, or with no value
held, the pair is rejected with cause MISMATCH or ORPHAN. In every case the slot empties. A held V word is discarded with
cause TIMEOUT once 51,200 counter updates have passed since its write (R74). Completes (exec answers this next state):
huskVWrite, huskKWrite, huskPendingTimeout. -/
def Obligations.HuskPairsTakeEffectOrAreRejected : Prop :=
  (∀ (off : Nat) (v : Word) (s : State), running s = true → huskMask s off ≠ 0 →
    (huskPending s off = none → exec (.huskVWrite off v) s =
      .next { s with husks := s.husks ++ [{ off := off, v := v, until_ := s.updates + 51200 }] }) ∧
    (∀ p, huskPending s off = some p → s.updates < p.until_ →
      ∃ t, exec (.huskVWrite off v) s = .next t ∧
        huskPending t off = some { off := off, v := v, until_ := s.updates + 51200 } ∧
        flag t R.WIN_STATUS 0 = true ∧ rd t R.WIN_HUSK_REJECT = 2 * 2 ^ 30 + off % 2 ^ 24 ∧
        (∀ o, eventReg o = false → o ≠ R.WIN_STATUS → o ≠ R.WIN_HUSK_REJECT → rd t o = rd s o))) ∧
  (∀ (off : Nat) (k : Word) (s : State), running s = true → 0x60000 ≤ off → off < 0x70000 → huskMask s off ≠ 0 →
    (∀ v, pairValue s off k.toNat = some v → ∃ t, exec (.huskKWrite off k) s = .next t ∧
      smGet (fun _ => none) t.accepted off = some v ∧ huskPending t off = none ∧ t.regs = s.regs) ∧
    (∀ p, huskPending s off = some p → s.updates < p.until_ → k ≠ p.v ^^^ 0xFFFFFFFF →
      ∃ t, exec (.huskKWrite off k) s = .next t ∧ huskPending t off = none ∧ t.accepted = s.accepted ∧
        flag t R.WIN_STATUS 0 = true ∧ rd t R.WIN_HUSK_REJECT = off % 2 ^ 24) ∧
    (huskPending s off = none → ∃ t, exec (.huskKWrite off k) s = .next t ∧ huskPending t off = none ∧
      t.accepted = s.accepted ∧ flag t R.WIN_STATUS 0 = true ∧ rd t R.WIN_HUSK_REJECT = 2 ^ 30 + off % 2 ^ 24)) ∧
  (∀ (off : Nat) (p : HuskPend) (s : State), running s = true → huskPending s off = some p →
    ∃ t, exec (.huskPendingTimeout off) s = .next t ∧ huskPending t off = none ∧ p.until_ ≤ t.updates ∧
      t.accepted = s.accepted ∧ flag t R.WIN_STATUS 0 = true ∧ rd t R.WIN_HUSK_REJECT = 3 * 2 ^ 30 + off % 2 ^ 24)

/-- A sound MAP_COMMIT pair makes the staged RTCP mapping valid until HOLD_S seconds later on the local clock; it lapses
then (R241, R242). Completes (exec answers this next state): rtcpMapCommit, rtcpMapExpire. -/
def Obligations.RtcpMappingValidForHold : Prop :=
  (∀ (c : Fin 96) (k : Word) (v : Nat) (s : State), running s = true →
    pairValue s (R.SRC_MAP_COMMIT c.val) k.toNat = some v →
    ∃ t m, exec (.rtcpMapCommit c k) s = .next t ∧ (chanAt t c.val).mappings = m :: (chanAt s c.val).mappings ∧
      (chanAt t c.val).mapLapsed = false ∧
      m.rtp = rd s (R.SRC_MAP_RTP c.val) ∧
      m.time = mkTime (rd64 s (R.SRC_MAP_SEC_LO c.val) (R.SRC_MAP_SEC_HI c.val)) (rd s (R.SRC_MAP_NS c.val)) (rd s (R.SRC_MAP_FRAC c.val)) ∧
      m.since = s.clock ∧ m.ends = s.clock + lfld s (R.SRC_RTCP_CFG c.val) 15 0 * secUnit ∧
      rd t (R.SRC_MAP_COMMIT c.val) = v % 2 ^ 32 ∧ flag t (R.SRC_MAP_STATUS c.val) 31 = true) ∧
  (∀ (c : Fin 96) (m : Mapping) (s : State), running s = true → (chanAt s c.val).mappings.head? = some m →
    (chanAt s c.val).mapLapsed = false →
    ∃ t, exec (.rtcpMapExpire c) s = .next t ∧ (chanAt t c.val).mapLapsed = true ∧ flag t (R.SRC_MAP_STATUS c.val) 31 = false ∧
      (0 < inc s → m.ends ≤ t.clock))

/-- OPEN takes an EMPTY slot to STAGING with its submitted fields cleared and its entries as they are, and is ignored in
another state (R131). A write to the entries of a STAGING slot stores its four bytes and no others; in an EMPTY slot it is
dropped; in CHECKING or PENDING it is dropped with an event (R131). CANCEL ends a STAGING slot without a completion, and a
CHECKING or PENDING one with reason CANCELLED (R139), shown in SHF_LAST and not counted as a rejection (R141); in an EMPTY
slot it does nothing. Completes (exec answers this next state): sheafSlotOpen, sheafSlotEntryWrite, sheafCancel. -/
def Obligations.SheafSlotsOpenWriteCancel : Prop :=
  ∀ (k : Fin 8) (s : State), running s = true →
    (shfState s k.val = 0 → ∃ t, exec (.sheafSlotOpen k) s = .next t ∧ shfState t k.val = 1 ∧ rd t (R.SHF_SLOT_COUNT k.val) = 0 ∧
      rd t (R.SHF_SLOT_CRC k.val) = 0 ∧ shfTarget t k.val = 0 ∧ t.granary = s.granary ∧
      OnlyRegs (fun o => [R.SHF_SLOT_STATE k.val, R.SHF_SLOT_COUNT k.val, R.SHF_SLOT_CRC k.val, R.SHF_SLOT_TARGET_LO k.val,
        R.SHF_SLOT_TARGET_HI k.val].contains o) s t) ∧
    (shfState s k.val ≠ 0 → exec (.sheafSlotOpen k) s = .next s) ∧
    (∀ (w : Fin 16384) (v : Word),
      (shfState s k.val = 1 → flag s R.GRN_STATUS 0 = true → ∃ t, exec (.sheafSlotEntryWrite k w v) s = .next t ∧
        gRead32 t (shfBase k.val + 4 * w.val) = v.toNat ∧ t.regs = s.regs ∧
        ∀ a, a < shfBase k.val + 4 * w.val ∨ shfBase k.val + 4 * w.val + 4 ≤ a → gRead t a 1 = gRead s a 1) ∧
      (shfState s k.val = 0 → exec (.sheafSlotEntryWrite k w v) s = .next s) ∧
      (2 ≤ shfState s k.val → ∃ t, exec (.sheafSlotEntryWrite k w v) s = .next t ∧ EventsOnly s t)) ∧
    (shfState s k.val = 0 → exec (.sheafCancel k) s = .next s) ∧
    (shfState s k.val = 1 → ∃ t, exec (.sheafCancel k) s = .next t ∧ shfState t k.val = 0 ∧
      OnlyRegs (fun o => decide (o = R.SHF_SLOT_STATE k.val)) s t) ∧
    (2 ≤ shfState s k.val → ∃ t, exec (.sheafCancel k) s = .next t ∧ shfState t k.val = 0 ∧ k.val ∉ t.shf.order ∧
      rd t R.SHF_LAST = 2 ^ 31 + k.val * 2 ^ 28 + 20 * 2 ^ 16 + 0xFFFF ∧ rd t R.SHF_LAST_DETAIL = 0 ∧
      rd t R.SHF_REJECT_COUNT = rd s R.SHF_REJECT_COUNT ∧
      ∀ c, findCmd s (smGet (fun _ => 0) s.shf.tags k.val) = some c →
        findCmd t (smGet (fun _ => 0) s.shf.tags k.val) =
          some { c with phase := .due stRejected (20 * 2 ^ 16 + 0xFFFF) 0 0 (some (tickNow s)) })

/-- SHEAF_SUBMIT completes at once with SLOT_STATE and leaves the slot alone when the slot is not STAGING or the entry
count is out of range; otherwise the slot is CHECKING, behind the sheaves submitted before it (R132), but an EXACT one
whose instant has passed while RUN is 1 is rejected with MISSED_TICK (R135). The checker makes the first slot in CHECKING
PENDING with its shadow values, or rejects it with the reason the check reports (R132, R140). Completes (exec answers this
next state): sheafSubmit, sheafCheckDone. -/
def Obligations.SheafSubmitAndCheck : Prop :=
  (∀ (tag : Fin 4096) (c : Cmd) (s : State), running s = true → findCmd s tag.val = some c → c.opcode = 0x20 →
    mayExecute s.rng.cmds c = true →
    (shfState s (bits (c.w 2) 2 0) ≠ 1 ∨ bits (c.w 3) 12 0 = 0 ∨ 4096 < bits (c.w 3) 12 0 →
      ∃ t, exec (.sheafSubmit tag) s = .next t ∧ shfState t (bits (c.w 2) 2 0) = shfState s (bits (c.w 2) 2 0) ∧
        t.shf = s.shf ∧ findCmd t tag.val = some { c with phase := .due stRejected (19 * 2 ^ 16 + 0xFFFF) (shfState s (bits (c.w 2) 2 0)) 0 (some (tickNow s)) }) ∧
    (shfState s (bits (c.w 2) 2 0) = 1 → bits (c.w 3) 12 0 ≠ 0 → bits (c.w 3) 12 0 ≤ 4096 →
      ((bits (c.w 2) 8 8 ≠ 0 ∨ tickRun s = false ∨ s.clock < tickInstant s (c.w 4 + 2 ^ 32 * c.w 5)) →
        ∃ t, exec (.sheafSubmit tag) s = .next t ∧ shfState t (bits (c.w 2) 2 0) = 2 ∧
          t.shf.order = s.shf.order ++ [bits (c.w 2) 2 0] ∧ shfTarget t (bits (c.w 2) 2 0) = c.w 4 + 2 ^ 32 * c.w 5 ∧
          findCmd t tag.val = some { c with phase := .waiting, aux := [] }) ∧
      (bits (c.w 2) 8 8 = 0 → tickRun s = true → tickInstant s (c.w 4 + 2 ^ 32 * c.w 5) ≤ s.clock →
        ∃ t, exec (.sheafSubmit tag) s = .next t ∧ shfState t (bits (c.w 2) 2 0) = 0 ∧
          findCmd t tag.val = some { c with aux := [], phase := .due stRejected (18 * 2 ^ 16 + 0xFFFF) (c.w 4) 0 (some (tickNow s)) }))) ∧
  (∀ (k : Nat) (s : State), running s = true → s.shf.order.find? (fun j => decide (shfState s j = 2)) = some k →
    (∀ vals, sheafCheck s k = .ok vals → ∃ t, exec .sheafCheckDone s = .next t ∧ shfState t k = 3 ∧
      smGet (fun _ => []) t.shf.vals k = vals ∧ smGet (fun _ => none) t.shf.checkedAt k = some s.updates) ∧
    (∀ r i d, sheafCheck s k = .error (r, i, d) → ∃ t, exec .sheafCheckDone s = .next t ∧ shfState t k = 0 ∧
      ∀ c, findCmd s (smGet (fun _ => 0) s.shf.tags k) = some c →
        findCmd t (smGet (fun _ => 0) s.shf.tags k) =
          some { c with phase := .due stRejected (r * 2 ^ 16 + i) d 0 (some (tickNow s)) }))

/-- Writing 1 to its bit puts a present unit in DIRECT mode (R144). A direct write to an ST register outside DIRECT mode
is ignored with an event (R145); in DIRECT mode the register takes the value that its table lets it store, and, but for
the timing of a head, the latched value waits for the next seal (R146). Completes (exec answers this next state):
directEnter, stDirectWrite. -/
def Obligations.DirectModeTakesWrites : Prop :=
  (∀ (v : Word) (s : State), running s = true →
    (∃ t, exec (.directEnter 0 v) s = .next t ∧ t.latched = s.latched ∧ ∀ h < 24, headDirect t h =
      (headDirect s h || (bit v.toNat h && unitPresent s.part .head h))) ∧
    (∀ q : Fin 3, ∃ t, exec (.directEnter ⟨1 + q.val, by omega⟩ v) s = .next t ∧ t.latched = s.latched ∧ ∀ i < 32, srcDirect t (32 * q.val + i) =
      (srcDirect s (32 * q.val + i) || (bit v.toNat i && unitPresent s.part .src (32 * q.val + i)))) ∧
    (∃ t, exec (.directEnter 4 v) s = .next t ∧ t.latched = s.latched ∧ devDirect t = (devDirect s || bit v.toNat 0))) ∧
  (∀ (off : Nat) (v : Word) (r : RegRow) (i : Nat) (s : State), running s = true → regRow? off = some (r, i) → r.st ≠ 0 →
    unitPresent s.part r.unit (i / r.unitDiv) = true →
    ((directScope off r).filter (inDirect s) = none → ∃ t, exec (.stDirectWrite off v) s = .next t ∧ EventsOnly s t) ∧
    (∀ u, (directScope off r).filter (inDirect s) = some u → r.base ∉ [R.HEAD_H 0, R.HEAD_V 0, R.HEAD_MODE 0] →
      ∃ t, exec (.stDirectWrite off v) s = .next t ∧ rd t off = stStored r off v.toNat % 2 ^ 32 ∧ t.latched = s.latched))

/-! ## Rings -/

/-- A doorbell word takes effect when its upper half is the complement of its lower half, the write is 32 bits wide (R153)
and the ring, RUNNING, has room for it (R154): the last accepted value becomes the index written. Any other write leaves
the index as it is, sets DOORBELL_BAD and raises an event. Host memory is as software left it before the write. A ring
that is OFF and enabled with a valid configuration runs with every index 0; with an invalid one it is OFF again with FAULT
set (R152). A RUNNING SQ that is disabled drains, a CQ that no SQ names is OFF at once, and a CQ that one names goes on
with CFG_IGNORED set (R152). For an event ring the events of its own start must not go to a ring. Completes (exec answers
this next state): sqDoorbell, cqDoorbell, eqDoorbell, ringEnable, ringDisable. -/
def Obligations.RingsTakeDoorbellsAndEnables : Prop :=
  (∀ (r : Fin 64) (q : Fin 32) (e : Fin 4) (w : Word) (narrow : Bool) (hm : Cells) (s : State), running s = true →
    ∀ c u a, (c, u, a) ∈ [(Instr.sqDoorbell r w narrow hm, r.val, hostStore hm s), (.cqDoorbell q w narrow, 64 + q.val, s),
        (.eqDoorbell e w narrow, 96 + e.val, s)] →
      (narrow = true ∨ bits w.toNat 31 16 ≠ bits w.toNat 15 0 ^^^ 0xFFFF ∨ doorbellInRange s u (bits w.toNat 15 0) = false →
        ∃ t, exec c s = .next t ∧ EventsOnly (setFlag a (ringStatus u) 2 true) t) ∧
      (narrow = false → bits w.toNat 31 16 = bits w.toNat 15 0 ^^^ 0xFFFF → doorbellInRange s u (bits w.toNat 15 0) = true →
        (96 ≤ u → rd s (R.RNG_EQ_LOST (u - 96)) = 0) →
        exec c s = .next (setFld a (ringIndex u) 31 16 (bits w.toNat 15 0)))) ∧
  ((∀ (ring : RingId) (cfg : Word) (s : State), running s = true → ringState s (ringNum ring) = 0 →
    (96 ≤ ringNum ring → flag s (R.EVT_CODE 9) 31 = false ∧ flag s (R.EVT_CODE 3) 31 = false ∧
      rd s (R.RNG_EQ_LOST (ringNum ring - 96)) = 0) →
    ∀ a, a = wr s (ringCfg (ringNum ring)) (setBits cfg.toNat 0 0 1 &&& (ringCfgMask (ringNum ring) + 1)) →
      (ringValid a (ringNum ring) = true → ∃ t, exec (.ringEnable ring cfg) s = .next t ∧ ringState t (ringNum ring) = 2 ∧
        rd t (ringIndex (ringNum ring)) = 0) ∧
      (ringValid a (ringNum ring) = false → ∃ t, exec (.ringEnable ring cfg) s = .next t ∧ ringState t (ringNum ring) = 0 ∧
        flag t (ringStatus (ringNum ring)) 5 = true)) ∧
  (∀ (r : Fin 64) (cfg : Word) (s : State), running s = true → ringState s r.val = 2 →
    ∃ t, exec (.ringDisable (.sq r) cfg) s = .next t ∧ ringState t r.val = 3 ∧ flag t (R.RNG_SQ_CFG r.val) 0 = false ∧
      t.rng.cmds = s.rng.cmds) ∧
  (∀ (q : Fin 32) (cfg : Word) (s : State), running s = true → ringState s (64 + q.val) = 2 →
    (cqNamed s q.val = false → ∃ t, exec (.ringDisable (.cq q) cfg) s = .next t ∧ ringState t (64 + q.val) = 0) ∧
    (cqNamed s q.val = true → ∃ t, exec (.ringDisable (.cq q) cfg) s = .next t ∧ ringState t (64 + q.val) = 2 ∧
      flag t (R.RNG_CQ_STATUS q.val) 4 = true)))

/-- The next descriptor of the SQ that is served (R157) becomes a command in flight under a free tag, and the SQ's fetch
index and count of issued tags advance; one that is malformed (R159) or names an absent unit (R3) has its completion due
at once. A fetch that fails puts the SQ into DRAINING with FAULT set (R168); with no SQ ready nothing is fetched.
Completes (exec answers this next state): descriptorFetch. -/
def Obligations.DescriptorsAreFetchedInOrder : Prop :=
  ∀ (tag : Fin 4096) (hm : Cells) (ecc : Ecc) (s a : State), running s = true → a = hostStore hm s →
    (sqNext a = none → exec (.descriptorFetch tag hm ecc) s = .next a) ∧
    (∀ r b o, sqNext a = some r → s.rng.cmds.length < 4096 → findCmd s tag.val = none → granaryBad s (ringCache r) 0x1000 = false →
      dmaRead 5 18 (ringSpace s r) (ringAddr s r (fld s (ringIndex r) 15 0) 64) 64
        (noteLink [(ringAddr s r (fld s (ringIndex r) 15 0) 64, ecc)] a) = (b, o) →
      (o.bad = none → ecc ≠ .uncorrected → ∃ t c, exec (.descriptorFetch tag hm ecc) s = .next t ∧
        t.rng.cmds = s.rng.cmds ++ [c] ∧ c.tag = tag.val ∧ c.sq = r ∧ c.index = fld s (ringIndex r) 15 0 ∧
        c.words = (bytesToWords 16 o.data).map (BitVec.ofNat 32) ∧ c.fetched = s.clock ∧
        (badDescriptor c = none → absentUnit s.part c = none → c.phase = .started) ∧
        (∀ i, badDescriptor c = some i → c.phase = .due stBadDescriptor i 0 0 none) ∧
        (∀ u, badDescriptor c = none → absentUnit s.part c = some u → c.phase = .due stAbsentUnit u 0 0 none) ∧
        fld t (ringIndex r) 15 0 = (fld s (ringIndex r) 15 0 + 1) % 2 ^ 16 ∧
        rd t (R.RNG_SQ_ISSUED r) = (rd s (R.RNG_SQ_ISSUED r) + 1) % 2 ^ 32) ∧
      (o.bad ≠ none ∨ ecc = .uncorrected → ∃ t, exec (.descriptorFetch tag hm ecc) s = .next t ∧ ringState t r = 3 ∧
        flag t (R.RNG_SQ_STATUS r) 5 = true ∧ t.rng.cmds = s.rng.cmds))

/-- A finished command leaves flight, its tag free and counted completed, once its record is written into a CQ with room,
or, for a SILENT command that succeeded, without a record (R157, R162); while its CQ is full it keeps its tag and waits
(R165). A BARRIER finishes when the commands before it have gone (R167). NOP finishes with SUCCESS (R159), BARRIER starts
to wait (R167), LEDGER_READ finishes with the two sides of the first failing condition of the balance, or of its first,
and whether the instance is faulted (R164). Nothing else changes. An ACK releases its interrupt pin: ASSERTED and FIRST
read 0, and nothing else changes (R174). Completes (exec answers this next state): completionWrite, nop, barrier,
ledgerRead, evtPinAck. -/
def Obligations.CompletionsAndServiceCommands : Prop :=
  (∀ (tag : Fin 4096) (linkOk : Bool) (c : Cmd) (s : State), running s = true → findCmd s tag.val = some c → c.sq < 64 →
    (flag s (R.RNG_SQ_CFG c.sq) 3 = true → firstOfSq s c = true) →
    (∀ st r0 r1 r2 n, c.phase = .due st r0 r1 r2 n →
      (bit (c.w 0) 8 = true → st = stSuccess → ∃ t, exec (.completionWrite tag linkOk) s = .next t ∧
        findCmd t tag.val = none ∧ t.host = s.host ∧ t.cellar = s.cellar ∧
        rd t (R.RNG_SQ_COMPLETED c.sq) = (rd s (R.RNG_SQ_COMPLETED c.sq) + 1) % 2 ^ 32) ∧
      (bit (c.w 0) 8 = false ∨ st ≠ stSuccess → ∀ u b, u = 64 + fld s (R.RNG_SQ_CFG c.sq) 20 16 → ringState s u = 2 →
        (ringFree s u = 0 → ∃ t, exec (.completionWrite tag linkOk) s = .next t ∧ EventsOnly s t) ∧
        (ringFree s u ≠ 0 → linkOk = true → granaryBad s (ringCache u) 0x1000 = false → dmaWrite 5 18 (ringSpace s u) (ringAddr s u (fld s (ringIndex u) 15 0) 32)
            (wordBytes (completionWords (ringPhase s u) c st (n.getD (tickNow s)).1 (n.getD (tickNow s)).2 r0 r1 r2)) s = (b, none) →
          ∃ t, exec (.completionWrite tag linkOk) s = .next t ∧ findCmd t tag.val = none ∧
            fld t (ringIndex u) 15 0 = (fld s (ringIndex u) 15 0 + 1) % 2 ^ 16 ∧
            rd t (R.RNG_SQ_COMPLETED c.sq) = (rd s (R.RNG_SQ_COMPLETED c.sq) + 1) % 2 ^ 32))) ∧
    (c.phase = .waiting → c.opcode = 0x48 → barrierMet s c = true →
      exec (.completionWrite tag linkOk) s =
        .next (completionDue c stSuccess 0 0 0 none linkOk (waitUpdates (c.aux.headD 0) s)) ∧
      (bit (c.w 0) 8 = true → ∃ t, exec (.completionWrite tag linkOk) s = .next t ∧ findCmd t tag.val = none))) ∧
  (∀ (tag : Fin 4096) (c : Cmd) (s : State), running s = true → findCmd s tag.val = some c →
    mayExecute s.rng.cmds c = true → ∀ (x : Instr) (d : Cmd),
      (x = .nop tag ∧ c.opcode = 0x01 ∧ d = { c with phase := .due stSuccess 0 0 0 none } ∨
        x = .barrier tag ∧ c.opcode = 0x48 ∧
          d = { c with phase := .waiting, aux := [if bits (c.w 2) 1 0 = 2 then flightsEnd s else 0] } ∨
        x = .ledgerRead tag ∧ c.opcode = 0x50 ∧ ∃ p ∈ ledgerSides s (bits (c.w 2) 2 0) (bits (c.w 3) 15 0),
          ((∀ y ∈ ledgerSides s (bits (c.w 2) 2 0) (bits (c.w 3) 15 0), y.ok = true) ∧
              (ledgerSides s (bits (c.w 2) 2 0) (bits (c.w 3) 15 0)).head? = some p ∨
            (ledgerSides s (bits (c.w 2) 2 0) (bits (c.w 3) 15 0)).find? (fun y => !y.ok) = some p) ∧
          d = { c with phase := .due stSuccess p.left p.right (ofBool (ledgerFaulted s (bits (c.w 2) 2 0) (bits (c.w 3) 15 0))) none }) →
      ∃ t, exec x s = .next t ∧ findCmd t tag.val = some d ∧ t = { s with rng := { s.rng with cmds := t.rng.cmds } } ∧
        ∀ j, j ≠ tag.val → findCmd t j = findCmd s j) ∧
  (∀ (pin : Fin 4) (s : State), running s = true → ∃ t, exec (.evtPinAck pin) s = .next t ∧
    rd t (R.EVT_PIN_STATUS pin.val) = 0 ∧ OnlyRegs (fun o => decide (o = R.EVT_PIN_STATUS pin.val)) s t)

/-- A draining unit reaches OFF when its conditions hold (R176): a channel when every slot is FREE, a disabled head after
its last frame, an encode session that has come to rest, each when its commands are complete, an SQ without a command in
flight; it keeps the last seal begun as the tick of a later disable (R169), and stays OFF unless an enable waits behind
its drain (R178). A unit that does not drain stays as it is. Completes (exec answers this next state): unitDrainComplete.
-/
def Obligations.DrainedUnitsReachOff : Prop :=
  ∀ (kind : Fin 4) (u : Nat) (s : State), running s = true → u < [96, 24, 16, 100].getD kind.val 0 →
    (unitState s kind.val u ≠ 3 → exec (.unitDrainComplete kind u) s = .next s) ∧
    (unitState s kind.val u = 3 →
      (kind.val < 3 → unitCmdsDone s kind.val u = true) →
      (kind.val = 0 → ∀ k < 16, (slotAt s u k).state = 0) →
      (kind.val = 1 → (headAt s u).disabling = true ∧ (headAt s u).sealedOff = true ∧ (headAt s u).scan = none ∧
        ∀ p ∈ (headAt s u).wbs, p.2.state ≠ 1 ∧ p.2.state ≠ 4) →
      (kind.val = 2 → encIdle s u = true) →
      (kind.val = 3 → u < 64 ∧ ∀ c ∈ s.rng.cmds, c.sq ≠ u) →
      ∃ t, exec (.unitDrainComplete kind u) s = .next t ∧ unitState t kind.val u ≠ 3 ∧ offTick t kind.val u = tickNow s ∧
        (enableQueued s kind.val u = false → unitState t kind.val u = 0))

/-! ## Sources and decode -/

/-- SRC_OPEN (R51, R160, R176, R180): of an OFF channel, while the tick runs, with an input of the kind and with its cost
admitted, it stores the declaration, charges the entropy pool, takes the channel to STARTING and waits for RUNNING; a
stopped tick, a full pool and a channel that is not OFF answer TICK_STOPPED, BUDGET and UNIT_STATE, but behind a drain one
SRC_OPEN waits (R178). SRC_CLOSE of an OFF channel completes at once with RESULT0 = 1 and the last seal begun before the
channel reached OFF (R169), and takes a channel that is not OFF to DRAINING, its picture in decode stopped, and waits for
OFF (R176, R270). Completes (exec answers this next state): srcOpen, srcClose. -/
def Obligations.SourcesOpenAndClose : Prop :=
  ∀ (tag : Fin 4096) (c : Cmd) (ch kind : Nat) (s : State), running s = true → findCmd s tag.val = some c →
    mayExecute s.rng.cmds c = true → ch = bits (c.w 2) 15 0 → kind = bits (c.w 2) 17 16 → ch < 96 →
    (c.opcode = 0x10 → unitState s 0 ch = 0 →
      (tickRun s = true → inputFits s ch kind = true → admitFails s (declCosts s kind c.w) = none →
        ∃ t, exec (.srcOpen tag) s = .next t ∧ unitState t 0 ch = 1 ∧ srcKind t ch = kind ∧
          findCmd t tag.val = some { c with phase := .waiting, aux := [auxEnabling] } ∧
          rd t (R.SRC_SOURCE_ID ch) = c.w 3 ∧ (∀ i < 8, rd t (R.SRC_DECL ch i) = c.w (4 + i)) ∧
          (kind = 0 → rd t (R.TCK_POOL_COMMITTED 0) =
            (rd s (R.TCK_POOL_COMMITTED 0) + entCost s (bits (c.w 6) 7 0) (c.w 5) (c.w 7)) % 2 ^ 32)) ∧
      (tickRun s = true → inputFits s ch kind = true → ∀ p n, admitFails s (declCosts s kind c.w) = some (p, n) →
        ∃ t, exec (.srcOpen tag) s = .next t ∧ t.regs = s.regs ∧
          findCmd t tag.val = some { c with phase := .due stBudget p n 0 none }) ∧
      (tickRun s = false → ∃ t, exec (.srcOpen tag) s = .next t ∧ t.regs = s.regs ∧
        findCmd t tag.val = some { c with phase := .due stTickStopped 0 0 0 none })) ∧
    (c.opcode = 0x10 → unitState s 0 ch = 1 ∨ unitState s 0 ch = 2 → ∃ t, exec (.srcOpen tag) s = .next t ∧ t.regs = s.regs ∧
      findCmd t tag.val = some { c with phase := .due stUnitState (unitState s 0 ch) 0 0 none }) ∧
    (c.opcode = 0x10 → unitState s 0 ch = 3 → ∃ t, exec (.srcOpen tag) s = .next t ∧ t.regs = s.regs ∧
      findCmd t tag.val = some (if enableQueued s 0 ch then { c with phase := .due stUnitState 3 0 0 none }
        else { c with phase := .waiting, aux := [auxQueued] })) ∧
    (c.opcode = 0x11 → unitState s 0 ch = 0 → ∃ t, exec (.srcClose tag) s = .next t ∧ t.regs = s.regs ∧
      findCmd t tag.val = some { c with phase := .due stSuccess 1 0 0 (some (offTick s 0 ch)) }) ∧
    (c.opcode = 0x11 → unitState s 0 ch = 1 ∨ unitState s 0 ch = 2 → ∃ t, exec (.srcClose tag) s = .next t ∧
      unitState t 0 ch = 3 ∧ (chanAt t ch).pic = none ∧ (chanAt t ch).native = none ∧
      findCmd t tag.val = some { c with phase := .waiting, aux := [auxDisabling] })

/-- A direct write of EN to SRC_s_CTRL (R179, R180, R238): EN = 1 starts an OFF channel whose declaration in its registers
is sound, fits its input and is admitted while the tick runs, and else sets its refusal bit; EN = 1 during a drain is
ignored with its sticky bit set; EN = 0 drains a STARTING or RUNNING channel. SRC_MAP binds an OFF or RUNNING channel to
an input of its kind that no other channel holds (R221, R222), is REJECTED where another holds it, and refused with
UNIT_STATE while the channel is STARTING or DRAINING. Completes (exec answers this next state): srcRegEnable,
srcRegDisable, srcMap. -/
def Obligations.SourceChannelsBindAndEnable : Prop :=
  (∀ (ch : Fin 96) (v : Word) (s : State), running s = true → unitPresent s.part .src ch.val = true →
    (unitState s 0 ch.val = 0 →
      (tickRun s = true → bits v.toNat 5 4 ≠ 3 → inputFits s ch.val (bits v.toNat 5 4) = true →
        badDeclaration (bits v.toNat 5 4) (srcRegWord s ch.val) = none →
        admitFails s (declCosts s (bits v.toNat 5 4) (srcRegWord s ch.val)) = none →
        ∃ t, exec (.srcRegEnable ch v) s = .next t ∧ unitState t 0 ch.val = 1 ∧ srcKind t ch.val = bits v.toNat 5 4) ∧
      (tickRun s = false ∨ bits v.toNat 5 4 = 3 ∨ inputFits s ch.val (bits v.toNat 5 4) = false →
        ∃ t, exec (.srcRegEnable ch v) s = .next t ∧ unitState t 0 ch.val = 0 ∧ flag t (R.SRC_STATE ch.val) 6 = true) ∧
      (∃ t, exec (.srcRegDisable ch v) s = .next t ∧ fld t (R.SRC_CTRL ch.val) 5 4 = bits v.toNat 5 4 ∧
        OnlyRegs (fun o => decide (o = R.SRC_CTRL ch.val)) s t)) ∧
    (unitState s 0 ch.val = 1 ∨ unitState s 0 ch.val = 2 → exec (.srcRegEnable ch v) s = .next s ∧
      ∃ t, exec (.srcRegDisable ch v) s = .next t ∧ unitState t 0 ch.val = 3) ∧
    (unitState s 0 ch.val = 3 → ∃ t, exec (.srcRegEnable ch v) s = .next t ∧
      EventsOnly (setFlag s (R.SRC_STATE ch.val) 7 true) t)) ∧
  (∀ (tag : Fin 4096) (c : Cmd) (ch : Nat) (s : State), running s = true → findCmd s tag.val = some c → c.opcode = 0x12 →
    mayExecute s.rng.cmds c = true → ch = bits (c.w 2) 15 0 → ch < 96 → (bits (c.w 3) 31 30 = 0 → bits (c.w 3) 15 0 < 1024) →
    (unitState s 0 ch = 0 ∨ unitState s 0 ch = 2 →
      (inputTaken s ch (c.w 3) = false → (flag s (R.SRC_STATE ch) 2 = true → srcKind s ch = bits (c.w 3) 31 30) →
        ∃ t, exec (.srcMap tag) s = .next t ∧ rd t (R.SRC_INPUT ch) = setBits (c.w 3) 29 29 1 ∧
          findCmd t tag.val = some { c with phase := .due stSuccess 0 0 0 none }) ∧
      (inputTaken s ch (c.w 3) = true → ∃ t, exec (.srcMap tag) s = .next t ∧ t.regs = s.regs ∧
        findCmd t tag.val = some { c with phase := .due stRejected (1 * 2 ^ 16) 0 0 none })) ∧
    (unitState s 0 ch = 1 ∨ unitState s 0 ch = 3 → ∃ t, exec (.srcMap tag) s = .next t ∧ t.regs = s.regs ∧
      findCmd t tag.val = some { c with phase := .due stUnitState (unitState s 0 ch) 0 0 none }))

/-- FRAME_POST of a whole frame to a RUNNING HOST channel, on the SQ bound to it and within its frame credit, takes the
lowest-numbered FREE slot and waits for the copy (R239, R260); once the copy is done the frame is complete in the slot,
and where a read of the buffer or a write of the slot failed the slot is FREE again and the command ends with ADDR_FAULT
and the address of the access that failed (R164, R239). Posted frames of one channel are copied in their order (R158).
Completes (exec answers this next state): framePost, framePostCopyDone. -/
def Obligations.PostedFramesTakeSlots : Prop :=
  (∀ (tag : Fin 4096) (c : Cmd) (ch k : Nat) (s : State), running s = true → findCmd s tag.val = some c → c.opcode = 0x13 →
    mayExecute s.rng.cmds c = true → ch = bits (c.w 2) 15 0 → ch < 96 → unitState s 0 ch = 2 → srcKind s ch = 2 →
    flag s (R.SRC_INPUT ch) 29 = true → fld s (R.SRC_INPUT ch) 31 30 = 2 → fld s (R.SRC_INPUT ch) 15 0 = c.sq →
    quiet s = false → frameShort s ch (bits (c.w 6) 15 0 * 16) (c.w 7) = false → creditLeft s ch = true →
    freeSlot s ch = some k →
    ∃ t, exec (.framePost tag) s = .next t ∧ findCmd t tag.val = some { c with phase := .waiting, aux := [k] } ∧
      (slotAt t ch k).decoding = true ∧ (slotAt t ch k).seq = c.w 12 ∧ (slotAt t ch k).arrival = c.fetched ∧
      (∀ j, j ≠ k → slotAt t ch j = slotAt s ch j) ∧
      (chanAt t ch).credit = (chanAt s ch).credit - frameUnit s ∧
      rd t (R.SRC_FRAMES ch) = (rd s (R.SRC_FRAMES ch) + 1) % 2 ^ 32) ∧
  (∀ (tag : Fin 4096) (links : LinkErrs) (c : Cmd) (ch k : Nat) (s a : State) (bad : Option Nat), running s = true →
    findCmd s tag.val = some c → c.opcode = 0x13 → firstWaiting s.rng.cmds c = true → ch = bits (c.w 2) 15 0 → ch < 96 →
    k = c.aux.headD 0 → copyFrame c ch k (noteLink links s) = (a, bad) →
    (bad = none → ∃ t, exec (.framePostCopyDone ⟨tag, links⟩) s = .next t ∧
      findCmd t tag.val = some { c with phase := .due stSuccess 0 0 0 none } ∧
      (slotAt t ch k).decoding = false ∧ (slotAt t ch k).done = some s.clock ∧ (slotAt t ch k).kept = true) ∧
    (∀ x, bad = some x → ∃ t, exec (.framePostCopyDone ⟨tag, links⟩) s = .next t ∧ slotAt t ch k = {} ∧
      ∃ d, findCmd t tag.val = some d ∧ d.phase = .due stAddrFault x (x / 2 ^ 32) 5 none))

/-- A ready picture of a supported stream, at which decoding can start or past the start state, and within its declaration
starts on the lowest-numbered idle engines in the lowest-numbered FREE slot, when no other ready picture goes first (R247,
R249, R254, R260). The end of parsing frees the entropy engine and spends its cycles, unless the engine stalls for a
coefficient page (R248); work beyond the credit rejects the picture, frees its engines and its slot and taints the channel
(R54, R247, R270). A parsed picture whose work its credit covers completes: no picture is in decode, its pixel engine is
idle and it counts as decoded (R247, R256). Completes (exec answers this next state): decodePictureStart,
entropyParseDone, decodeWorkExhausted, decodePictureComplete. -/
def Obligations.PicturesDecode : Prop :=
  (∀ (o : PictureStart) (au : Au) (aus : List Au) (e p k : Nat) (s : State), running s = true → quiet s = false →
    pictureReady s o.ch.val = true → (chanAt s o.ch.val).aus = au :: aus → o.vcl = true → o.lost = false →
    streamSupported (declCodec s o.ch.val) o = true → ((chanAt s o.ch.val).started = false → startPicture o = true) →
    ((chanAt s o.ch.val).started = true → o.rasl = false ∨ (chanAt s o.ch.val).skipRasl = false) → paramCheck s o = none →
    idleEnt s = some e → idlePix s = some p → creditLeft s o.ch.val = true → freeSlot s o.ch.val = some k →
    overtaken s o.ch.val = false →
    ∃ t q, exec (.decodePictureStart o) s = .next t ∧ (chanAt t o.ch.val).pic = some q ∧ q.slot = k ∧ q.ent = e ∧ q.pix = p ∧
      q.parsed = false ∧ (chanAt t o.ch.val).aus = aus ∧ flag t R.VDC_STATUS e = true ∧ flag t R.VDC_STATUS (4 + p) = true ∧
      (slotAt t o.ch.val k).decoding = true ∧ (slotAt t o.ch.val k).seq = rd s (R.VDC_S_NEXT_SEQ o.ch.val) ∧
      rd t (R.VDC_S_NEXT_SEQ o.ch.val) = (rd s (R.VDC_S_NEXT_SEQ o.ch.val) + 1) % 2 ^ 32) ∧
  (∀ (ch : Fin 96) (p : Pic) (s : State), running s = true → (chanAt s ch.val).pic = some p → p.ent < 4 → p.pix < 8 → p.slot < 16 →
    (∀ (o : ParseObs) (a : State), p.parsed = false → a = pageMoves ch.val o.pages (noteLink o.links s) →
      ∃ q, (chanAt a ch.val).pic = some q ∧ q.slot = p.slot ∧
        (q.stalled = true → exec (.entropyParseDone ch o) s = .next (noteLink [] a)) ∧
        (q.stalled = false → o.cycles ≤ (chanAt s ch.val).entCredit → ∃ t r, exec (.entropyParseDone ch o) s = .next t ∧
          (chanAt t ch.val).pic = some r ∧ r.parsed = true ∧ r.slot = p.slot ∧
          (chanAt t ch.val).entCredit = (chanAt s ch.val).entCredit - o.cycles ∧ flag t R.VDC_STATUS p.ent = false) ∧
        (q.stalled = false → (chanAt s ch.val).entCredit < o.cycles → ∃ t, exec (.entropyParseDone ch o) s = .next t ∧
          (chanAt t ch.val).pic = none ∧ (chanAt t ch.val).overTaint = true ∧ (chanAt t ch.val).entCredit = 0 ∧
          slotAt t ch.val p.slot = {} ∧ flag t R.VDC_STATUS p.ent = false)) ∧
    (∀ pix : Bool, p.parsed = false ∨ pix = true → ∃ t, exec (.decodeWorkExhausted ch pix) s = .next t ∧
      (chanAt t ch.val).pic = none ∧ (chanAt t ch.val).overTaint = true ∧ slotAt t ch.val p.slot = {} ∧
      flag t R.VDC_STATUS (4 + p.pix) = false ∧
      rd t (R.SRC_OVER_DECL ch.val) = (rd s (R.SRC_OVER_DECL ch.val) + 1) % 2 ^ 32) ∧
    (∀ o : DecodeObs, p.parsed = true → o.cycles ≤ (chanAt s ch.val).pixCredit →
      ∃ t, exec (.decodePictureComplete ch o) s = .next t ∧ (chanAt t ch.val).pic = none ∧
        flag t R.VDC_STATUS (4 + p.pix) = false ∧ (chanAt t ch.val).pixCredit = (chanAt s ch.val).pixCredit - o.cycles ∧
        rd t (R.VDC_S_DECODED ch.val) = (rd s (R.VDC_S_DECODED ch.val) + 1) % 2 ^ 32))

/-! ## The Vestibule and the network -/

/-- A MAC counts and discards a frame with a bad FCS, of a wrong size, a PAUSE frame and one its filter refuses, and
passes every other frame on (R217); a frame of no other class without a posted buffer is counted and dropped (R235).
FLOW_ADD stores a key and its CRC-32C unless its path holds one or another key is equal; FLOW_DEL removes keys unless that
would leave a flow bound to a channel that is not OFF without one (R219, R220). NET_RX_POST posts its buffer to a queue
and waits for a frame, unless a host ring names Demal's queue while Demal runs (R234). NET_TX goes to its MAC, or ends
with JOB_FAILED, cause 1, while the MAC's lane is not UP; once sent, the frame padded to 60 B and with its FCS is on the
wire and the command ends with SUCCESS, and with ADDR_FAULT where a read of it failed (R164, R236). Completes (exec
answers this next state): ethFrameReceive, flowAdd, flowDel, netRxPost, netTx, netTxSent. -/
def Obligations.NetworkFramesAndFlowTable : Prop :=
  ((∀ (m : Fin 8) (f : List Byte) (o : EthObs) (s : State), running s = true → macUp s m.val = true → macMode s m.val ≠ 3 →
    (fcsGood f = false → exec (.ethFrameReceive m f o) s = .next (addReg s (R.ETH_RX_FCS_ERR m.val) 1)) ∧
    (fcsGood f = true → f.length < 64 ∨ 9216 < f.length →
      exec (.ethFrameReceive m f o) s = .next (addReg s (R.ETH_RX_SIZE_ERR m.val) 1)) ∧
    (fcsGood f = true → 64 ≤ f.length → f.length ≤ 9216 → isPause f = true →
      exec (.ethFrameReceive m f o) s = .next (addReg s (R.ETH_RX_PAUSE m.val) 1)) ∧
    (fcsGood f = true → 64 ≤ f.length → f.length ≤ 9216 → isPause f = false →
      (macAccepts s m.val f = false → exec (.ethFrameReceive m f o) s = .next (addReg s (R.ETH_RX_FILTERED m.val) 1)) ∧
      (macAccepts s m.val f = true → exec (.ethFrameReceive m f o) s = .next (frameIn m.val (f.take (f.length - 4))
          (macStamp s m.val o.err (R.TIM_TS_RX_ADJ m.val)) (addReg s (R.ETH_RX_FRAMES m.val) 1)) ∧
        (classify s m.val (parseEth (f.take (f.length - 4))) = .other → postedBuffer s 0 = none →
          ∃ t, exec (.ethFrameReceive m f o) s = .next t ∧
            rd t (R.ETH_RX_FRAMES m.val) = (rd s (R.ETH_RX_FRAMES m.val) + 1) % 2 ^ 32 ∧
            rd t R.VST_UNMATCHED = (rd s R.VST_UNMATCHED + 1) % 2 ^ 32 ∧
            rd t (R.VST_RX_DROP 0) = (rd s (R.VST_RX_DROP 0) + 1) % 2 ^ 32 ∧ t.flows = s.flows)))) ∧
  (∀ (tag : Fin 4096) (c : Cmd) (f : Nat) (s : State), running s = true → findCmd s tag.val = some c →
    mayExecute s.rng.cmds c = true → f = bits (c.w 2) 9 0 →
    (c.opcode = 0x18 → bit (c.w 2) 16 = false →
      ((flowAt s f).keyA = none → (∀ y ∈ s.flows, y.2.keyA ≠ some (flowKey c) ∧ y.2.keyB ≠ some (flowKey c)) →
        ∃ t, exec (.flowAdd tag) s = .next t ∧ flowAt t f = { flowAt s f with keyA := some (flowKey c) } ∧
          rd t (R.VST_FLOW_KEY_A_CRC f) = crc32c (wordBytes (flowKey c)) % 2 ^ 32 ∧
          findCmd t tag.val = some { c with phase := .due stSuccess 0 0 0 none }) ∧
      ((flowAt s f).keyA ≠ none → ∃ t, exec (.flowAdd tag) s = .next t ∧ t.flows = s.flows ∧ t.regs = s.regs ∧
        findCmd t tag.val = some { c with phase := .due stRejected (2 * 2 ^ 16) 0 0 none })) ∧
    (c.opcode = 0x18 → bit (c.w 2) 16 = true →
      ((flowAt s f).keyB = none → (∀ y ∈ s.flows, y.2.keyA ≠ some (flowKey c) ∧ y.2.keyB ≠ some (flowKey c)) →
        ∃ t, exec (.flowAdd tag) s = .next t ∧ flowAt t f = { flowAt s f with keyB := some (flowKey c) } ∧
          rd t (R.VST_FLOW_KEY_B_CRC f) = crc32c (wordBytes (flowKey c)) % 2 ^ 32 ∧
          findCmd t tag.val = some { c with phase := .due stSuccess 0 0 0 none })) ∧
    (c.opcode = 0x19 → bit (c.w 2) 16 = true → bit (c.w 2) 17 = true →
      (∀ ch, (flowAt s f).chan = some ch → unitState s 0 ch ≠ 0 →
        ∃ t, exec (.flowDel tag) s = .next t ∧ t.flows = s.flows ∧ t.regs = s.regs ∧
          findCmd t tag.val = some { c with phase := .due stRejected (3 * 2 ^ 16) 0 0 none }) ∧
      ((∀ ch, (flowAt s f).chan = some ch → unitState s 0 ch = 0) →
        ∃ t, exec (.flowDel tag) s = .next t ∧ flowAt t f = { flowAt s f with
            keyA := none, keyB := none
            chan := if (flowAt s f).keyA = none ∧ (flowAt s f).keyB = none then (flowAt s f).chan else none } ∧
          findCmd t tag.val = some { c with phase := .due stSuccess 0 0 0 none })))) ∧
  (∀ (tag : Fin 4096) (c : Cmd) (s : State), running s = true → findCmd s tag.val = some c →
    (c.opcode = 0x39 → mayExecute s.rng.cmds c = true →
      ((bit (c.w 3) 0 = false ∨ demalState s ≠ 2 ∨ flag s (ringCfg c.sq) 1 = true) → ∃ t, exec (.netRxPost tag) s = .next t ∧
        findCmd t tag.val = some { c with phase := .waiting, aux := [] } ∧
        (bit (c.w 3) 0 = false → fld t R.VST_RX_POSTED 15 0 = (fld s R.VST_RX_POSTED 15 0 + 1) % 2 ^ 16) ∧
        (bit (c.w 3) 0 = true → fld t R.VST_RX_POSTED 31 16 = (fld s R.VST_RX_POSTED 31 16 + 1) % 2 ^ 16)) ∧
      (bit (c.w 3) 0 = true → demalState s = 2 → flag s (ringCfg c.sq) 1 = false → ∃ t, exec (.netRxPost tag) s = .next t ∧
        findCmd t tag.val = some { c with phase := .due stUnitState 2 0 0 none } ∧ t.regs = s.regs)) ∧
    (c.opcode = 0x38 → mayExecute s.rng.cmds c = true → ∃ t, exec (.netTx tag) s = .next t ∧
      findCmd t tag.val = some (if macUp s (bits (c.w 2) 2 0) then { c with phase := .waiting, aux := [] }
        else { c with phase := .due stJobFailed 1 0 0 none }) ∧ t.regs = s.regs) ∧
    (c.opcode = 0x38 → firstWaiting s.rng.cmds c = true → macUp s (bits (c.w 2) 2 0) = true → ∀ (err : Int) (links : LinkErrs) a r f,
      dmaRead 5 18 (if bit (c.w 7) 3 then spCellar else spHost) (c.w 4 + 2 ^ 32 * c.w 5) (bits (c.w 6) 13 0) (noteLink links s) = (a, r) →
      (∀ b, r.bad = some b → ∃ t, exec (.netTxSent tag ⟨err, links⟩) s = .next t ∧
        findCmd t tag.val = some { c with phase := .due stAddrFault b (b / 2 ^ 32) 5 none }) ∧
      (r.bad = none → f = r.data → ∀ m tx g, m = bits (c.w 2) 2 0 → tx = macStamp a m err (R.TIM_TS_TX_ADJ m) →
        g = (if bits (c.w 7) 1 0 = 2 then oneStep f (bits (c.w 8) 13 0) (timeSec tx % 2 ^ 48) (timeNs tx) (timeFrac tx) tx
          ((c.w 9 + 2 ^ 32 * c.w 10) * nsUnit + c.w 11) else f) →
        ∃ t r0 r1 r2, exec (.netTxSent tag ⟨err, links⟩) s = .next t ∧
          smGet (fun _ => []) t.macTx m = (g ++ List.replicate (60 - g.length) 0) ++ ethFcs (g ++ List.replicate (60 - g.length) 0) ∧
          findCmd t tag.val = some { c with phase := .due stSuccess r0 r1 r2 none } ∧
          (bits (c.w 7) 1 0 = 0 → r0 = 0 ∧ r1 = 0 ∧ r2 = 0) ∧
          (bits (c.w 7) 1 0 ≠ 0 → r0 + 2 ^ 32 * r1 = tx / nsUnit ∧ r2 = timeFrac tx))))

/-- The PACKET balance of R58 of every flow, arrived on A and B against used, duplicate, late, malformed and held (R230),
is kept by every frame that arrives, by the jitter deadline, by a path that falls silent and by the flow table's commands.
-/
def Obligations.PacketBalanceKept : Prop :=
  ∀ (c : Instr) (s t : State),
    (∃ m f o, c = .ethFrameReceive m f o) ∨ (∃ f, c = .jitterDeadline f) ∨ (∃ f b, c = .pathSilentTimeout f b) ∨
      (∃ tag, c = .flowAdd tag) ∨ (∃ tag, c = .flowDel tag) →
    exec c s = .next t →
    (∀ f, (flowAt s f).arrivedA + (flowAt s f).arrivedB = (flowAt s f).used + (flowAt s f).dup + (flowAt s f).late
      + (flowAt s f).malformed + (flowAt s f).held.length) →
    ∀ f, (flowAt t f).arrivedA + (flowAt t f).arrivedB = (flowAt t f).used + (flowAt t f).dup + (flowAt t f).late
      + (flowAt t f).malformed + (flowAt t f).held.length

/-- When the only held packet of a flow has been held for JITTER_US, the numbers before it are declared lost: a loss
report and the packet are released, and NEXT goes past it (R226). A path that has been silent while the other accepted has
its bit set (R229). The depacketiser takes the loss reports, and one payload while the ring has room (R226, R227, R233).
Completes (exec answers this next state): jitterDeadline, pathSilentTimeout, depacketise. -/
def Obligations.FlowTimersAndDepacketise : Prop :=
  (∀ (f : Fin 1024) (c n : Nat) (p : Pkt) (s : State), running s = true → (flowAt s f.val).chan = some c →
    (flowAt s f.val).held = [p] → (flowAt s f.val).next = some n → n < 65536 → p.seq < 65536 → p.seq ≠ n →
    granaryBad s (descAddr c p.desc) 32 = false → (0 < inc s ∨ p.at_ + jitter s c ≤ s.elapsed) →
    ∃ t, exec (.jitterDeadline f) s = .next t ∧ p.at_ + jitter s c ≤ t.elapsed ∧ (flowAt t f.val).held = [] ∧
      (flowAt t f.val).used = (flowAt s f.val).used + 1 ∧ (flowAt t f.val).next = some ((p.seq + 1) % 65536) ∧
      (chanAt t c).released = (chanAt s c).released ++ [.loss ((p.seq + 65536 - n) % 65536), .data p] ∧
      rd t (R.VST_FLOW_LOST f.val) = (rd s (R.VST_FLOW_LOST f.val) + (p.seq + 65536 - n) % 65536) % 2 ^ 32) ∧
  (∀ (f : Fin 1024) (c : Nat) (s : State), running s = true → (flowAt s f.val).chan = some c →
    (flowAt s f.val).keyA ≠ none → (flowAt s f.val).keyB ≠ none →
    (flag s (R.VST_FLOW_STATE f.val) 28 = false → (flowAt s f.val).acceptA < (flowAt s f.val).acceptB →
      ∃ t, exec (.pathSilentTimeout f false) s = .next t ∧ flag t (R.VST_FLOW_STATE f.val) 28 = true ∧
        (0 < inc s → (flowAt s f.val).acceptA + lfld s (R.SRC_SILENT c) 15 0 * 1000000 * nsUnit ≤ t.elapsed)) ∧
    (flag s (R.VST_FLOW_STATE f.val) 27 = false → (flowAt s f.val).acceptB < (flowAt s f.val).acceptA →
      ∃ t, exec (.pathSilentTimeout f true) s = .next t ∧ flag t (R.VST_FLOW_STATE f.val) 27 = true)) ∧
  (∀ (ch : Fin 96) (s : State), running s = true → unitState s 0 ch.val = 1 ∨ unitState s 0 ch.val = 2 →
    (∀ p is, (chanAt s ch.val).released = .data p :: is → ringInUse s ch.val + p.payload.length ≤ ringBytes →
      ∃ t, exec (.depacketise ch) s = .next t ∧ (chanAt t ch.val).released = is ∧
        (p.marker = true → (chanAt t ch.val).asm = none ∧ (chanAt s ch.val).aus.length < (chanAt t ch.val).aus.length)) ∧
    (∀ p is, (chanAt s ch.val).released = .data p :: is → ringBytes < ringInUse s ch.val + p.payload.length →
      exec (.depacketise ch) s = .next s) ∧
    (∀ n, (chanAt s ch.val).released = [.loss n] → ∃ t, exec (.depacketise ch) s = .next t ∧
      (chanAt t ch.val).released = [] ∧ (chanAt t ch.val).skipFu = true ∧
      rd t (R.SRC_LOSS_REPORTS ch.val) = (rd s (R.SRC_LOSS_REPORTS ch.val) + 1) % 2 ^ 32))

/-! ## W-lanes -/

/-- A write of CTRL with EN = 1 starts an OFF lane whose MODE, MAC and PLL frequency can be had: SEND_BLIND, block numbers
from 0, its PLL assigned; else it sets the lane's refusal bit (R183, R184, R491). A lane that is not OFF changes nothing
but its ignored bit. EN = 0 takes a lane that is not OFF to OFF at once (R183). A PLL that locks lets its lanes send
(R491). Completes (exec answers this next state): laneEnable, laneDisable, quadPllLock. -/
def Obligations.LanesStartAndStop : Prop :=
  (∀ (n : Fin 32) (v : Word) (s : State), running s = true → unitPresent s.part .lane n.val = true →
    (laneState s n.val = 0 →
      (∀ b, bits v.toNat 3 1 ≤ 3 → (1 ≤ bits v.toNat 3 1 → macTaken s n.val (bits v.toNat 10 8) = false) →
        pllFor s (n.val / 8) (pllCode (bits v.toNat 3 1) (bits v.toNat 5 4)) = some b →
        ∃ t, exec (.laneEnable n v) s = .next t ∧ laneState t n.val = 1 ∧ flag t (R.LANE_CTRL n.val) 0 = true ∧
          laneMode t n.val = bits v.toNat 3 1 ∧ laneRate t n.val = bits v.toNat 5 4 ∧ rd t (R.LANE_TX_SEQ n.val) = 0 ∧
          pllFreq t (n.val / 8) b = pllCode (bits v.toNat 3 1) (bits v.toNat 5 4) ∧ (laneAt t n.val).blind = true ∧
          (laneAt t n.val).blindEnd = s.elapsed + fld s (R.LANE_BLIND n.val) 15 0 * 1000 * nsUnit) ∧
      (3 < bits v.toNat 3 1 ∨ (1 ≤ bits v.toNat 3 1 ∧ macTaken s n.val (bits v.toNat 10 8) = true) ∨
          pllFor s (n.val / 8) (pllCode (bits v.toNat 3 1) (bits v.toNat 5 4)) = none →
        ∃ t, exec (.laneEnable n v) s = .next t ∧ laneState t n.val = 0 ∧ flag t (R.LANE_STATUS n.val) 6 = true) ∧
      exec (.laneDisable n v) s = .next (wr s (R.LANE_CTRL n.val) (v.toNat &&& laneCtrlMask))) ∧
    (laneState s n.val ≠ 0 →
      (∃ t, exec (.laneEnable n v) s = .next t ∧ OnlyRegs (fun o => decide (o = R.LANE_STATUS n.val)) s t ∧
        laneState t n.val = laneState s n.val ∧ flag t (R.LANE_STATUS n.val) 7 =
          (flag s (R.LANE_STATUS n.val) 7 || decide (v.toNat &&& laneCtrlMask ≠ rd s (R.LANE_CTRL n.val) &&& laneCtrlMask))) ∧
      ∃ t, exec (.laneDisable n v) s = .next t ∧ laneState t n.val = 0 ∧ flag t (R.LANE_CTRL n.val) 0 = false ∧
        laneAt t n.val = {})) ∧
  (∀ (q : Fin 4) (b : Bool) (s : State), running s = true → pllFreq s q.val b ≠ 0 → pllLocked s q.val b = false →
    ∃ t, exec (.quadPllLock q b) s = .next t ∧ pllLocked t q.val b = true ∧
      ∀ n ∈ pllUsers s q.val (pllFreq s q.val b), (laneAt t n).nextAt = some s.elapsed)

/-- The receive side (R184, R201, R202): lock of the CDR takes SEND_BLIND to ALIGNING; its loss takes UP to LOST and
ALIGNING to SEND_BLIND. An Ethernet lane is UP exactly while its PCS is locked without a fault. The blind period ends
BLIND_US after the enable. While a calibration of a lane that is not OFF runs, the lane switches to its quad's spare
slice, and back when the correction is in place, each switch counted, when the comparison of its two slices has succeeded
and a tick has fired since (R214, R454); one that has not succeeded 10 ms after the start fails the calibration without a
switch (R215). That an Ethernet lane compares at its switch is the model's choice (log entry 13). Completes (exec answers
this next state): cdrLock, cdrLoss, ethLinkChange, blindPeriodEnd, spareSwitch, spareCompareTimeout. -/
def Obligations.LaneStatesAndSpareSlice : Prop :=
  (∀ (n : Fin 32) (s : State), running s = true → laneState s n.val ≠ 0 →
    (∃ t, exec (.cdrLock n) s = .next t ∧ flag t (R.LANE_STATUS n.val) 4 = true ∧
      laneState t n.val = (if laneState s n.val = 1 then 2 else laneState s n.val)) ∧
    (∃ t, exec (.cdrLoss n) s = .next t ∧ flag t (R.LANE_STATUS n.val) 4 = false ∧ laneState t n.val =
      (if laneState s n.val = 3 then 4 else if laneState s n.val = 2 then 1 else laneState s n.val)) ∧
    (laneMode s n.val ≠ 0 → ∀ locked lf rf : Bool,
      (laneState s n.val = 2 → locked = true → lf = false → rf = false →
        ∃ t, exec (.ethLinkChange n locked lf rf) s = .next t ∧ laneState t n.val = 3 ∧
          flag t (R.ETH_STATUS (fld s (R.LANE_CTRL n.val) 10 8)) 0 = true) ∧
      (laneState s n.val = 3 → (locked = false ∨ lf = true ∨ rf = true) →
        ∃ t, exec (.ethLinkChange n locked lf rf) s = .next t ∧ laneState t n.val = 4 ∧
          flag t (R.ETH_STATUS (fld s (R.LANE_CTRL n.val) 10 8)) 0 = false ∧
          rd t (R.LANE_RX_LOST_ENTRIES n.val) = (rd s (R.LANE_RX_LOST_ENTRIES n.val) + 1) % 2 ^ 32)) ∧
    ((laneAt s n.val).blind = true → ∃ t, exec (.blindPeriodEnd n) s = .next t ∧ (laneAt t n.val).blind = false ∧
      (0 < inc s → (laneAt s n.val).blindEnd ≤ t.elapsed) ∧ t.regs = s.regs)) ∧
  (∀ (n : Fin 32) (c : Cal) (s : State), running s = true → laneState s n.val ≠ 0 → calOf s n.val = some c →
    (spareReady s n.val c = false → ∀ b, exec (.spareSwitch n b) s = .next s) ∧
    (spareReady s n.val c = true → c.phase = 0 → flag s (R.LANE_STATUS n.val) 5 = false → ∃ t, exec (.spareSwitch n true) s = .next t ∧
      flag t (R.LANE_STATUS n.val) 5 = true ∧ flag t (R.QUAD_SPARE (n.val / 8)) 4 = true ∧
      (∃ d, calOf t n.val = some d ∧ d.phase = 1) ∧
      rd t (R.QUAD_SWITCHES (n.val / 8)) = (rd s (R.QUAD_SWITCHES (n.val / 8)) + 1) % 2 ^ 32) ∧
    (spareReady s n.val c = true → c.phase = 2 → flag s (R.LANE_STATUS n.val) 5 = true → ∃ t, exec (.spareSwitch n false) s = .next t ∧
      flag t (R.LANE_STATUS n.val) 5 = false ∧ flag t (R.QUAD_SPARE (n.val / 8)) 4 = false ∧
      rd t (R.TRM_COUNT n.val) = (rd s (R.TRM_COUNT n.val) + 1) % 2 ^ 32) ∧
    (c.phase = 0 → c.matchAt = none → ∃ t, exec (.spareCompareTimeout n) s = .next t ∧ fld t (R.TRM_INFO n.val) 11 8 = 2 ∧
      (0 < inc s → c.since + 10000000 * nsUnit ≤ t.elapsed) ∧
      flag t (R.LANE_STATUS n.val) 5 = flag s (R.LANE_STATUS n.val) 5) ∧
    (c.matchAt ≠ none → exec (.spareCompareTimeout n) s = .next s))

/-- Every block sent takes the next number and is followed by the next block boundary (R190, R196). Sixteen valid headers
in a row make an ALIGNING lane UP, and at a position without one the hunt goes on at the next bit (R201, R204); an UP lane
counts a bad header, and the fourth among 64 block positions makes it LOST (R201, R205). An idle block ahead continues the
span (R205, R206). Without STATUS for 2 ms genlock is lost (R200). Completes (exec answers this next state):
blockTransmit, blockReceive, genlockTimeout. -/
def Obligations.LanesSendAndReceiveBlocks : Prop :=
  ∀ (n : Fin 32) (s : State), running s = true →
    (laneState s n.val ≠ 0 → laneMode s n.val = 0 → ∀ T, (laneAt s n.val).nextAt = some T →
      ∀ links : LinkErrs, ∃ t, exec (.blockTransmit ⟨n, links⟩) s = .next t ∧
        rd t (R.LANE_TX_SEQ n.val) = (rd s (R.LANE_TX_SEQ n.val) + 1) % 2 ^ 32 ∧
        (laneAt t n.val).nextAt = some (T + blockTime (laneRate s n.val)) ∧ (0 < inc s → T ≤ t.elapsed)) ∧
    (∀ (b : RxBlock) new line g h, laneMode s n.val = 0 →
      new = (if flag s (R.LANE_CTRL n.val) 14 then (laneAt s n.val).line else b.line) →
      line = (laneAt s n.val).hunt ++ (if flag s (R.LANE_CTRL n.val) 13 then new.map not else new) → line.length = blockBits →
      g = (takeBlock ((laneAt s n.val).rxBit, (laneAt s n.val).rxRun) (line.take 96)).1 →
      h = (takeBlock ((laneAt s n.val).rxBit, (laneAt s n.val).rxRun) line).1 →
      (laneState s n.val = 2 → ∃ t, exec (.blockReceive n b) s = .next t ∧
        (headerValid g = true → 15 ≤ (laneAt s n.val).valid → laneState t n.val = 3) ∧
        (headerValid g = true → (laneAt s n.val).valid < 15 → laneState t n.val = 2 ∧
          (laneAt t n.val).valid = (laneAt s n.val).valid + 1 ∧ (laneAt t n.val).hunt = []) ∧
        (headerValid g = false → laneState t n.val = 2 ∧ (laneAt t n.val).valid = 0 ∧ (laneAt t n.val).hunt = line.drop 1)) ∧
      (laneState s n.val = 3 → (laneAt s n.val).held = none → ∃ t, exec (.blockReceive n b) s = .next t ∧
        (headerValid h = false → laneState t n.val = (if 3 ≤ ((laneAt s n.val).window.take 63).count false then 4 else 3) ∧
          rd t (R.LANE_RX_BAD_HEADER n.val) = (rd s (R.LANE_RX_BAD_HEADER n.val) + 1) % 2 ^ 32) ∧
        (∀ sp : Span, headerValid h = true → headerType h = 0 → (laneAt s n.val).span = some sp →
          headerSeq h = (sp.last + 1) % 2 ^ 32 → sp.last < 2 ^ 32 →
          (laneAt t n.val).span = some { sp with last := headerSeq h, received := (sp.received + 1) % 2 ^ 32, lost := sp.lost % 2 ^ 32 }))) ∧
    (∀ T, (laneAt s n.val).farAt = some T → (laneAt s n.val).genlock = true →
      ∃ t, exec (.genlockTimeout n) s = .next t ∧ (laneAt t n.val).genlock = false ∧ (0 < inc s → T + 2000000 * nsUnit ≤ t.elapsed))

/-! ## Heads -/

/-- HEAD_CTL and the register writes that enable a head (R179, R180, R309, R311): while the tick runs and the timing is
sound an OFF head starts, its PLL with it and not yet locked; otherwise a command ends with TICK_STOPPED, REJECTED or
UNIT_STATE and a register write sets its refusal bit. A disable of an OFF head completes at once or does nothing, and
takes a STARTING or RUNNING head to DRAINING (R176, R310). The pixel PLL (R309, R312, R314): lock fixes the first tick
after it as the tick of RUNNING; the loss of lock takes a RUNNING head to STARTING, counted as a re-time, and ends its
frame in active scan TIMING_TORN; a head whose PLL has not locked 10 ms after its start is late, and stays STARTING.
Completes (exec answers this next state): headCtl, headRegDisable, headRegEnable, pixelPllLock, pixelPllUnlock,
pllLockTimeout. -/
def Obligations.HeadsAndPixelPlls : Prop :=
  ((∀ (tag : Fin 4096) (c : Cmd) (h : Nat) (s : State), running s = true → findCmd s tag.val = some c → c.opcode = 0x14 →
    mayExecute s.rng.cmds c = true → h = bits (c.w 2) 4 0 → h < 24 → (headAt s h).restart ≠ 2 →
    (bit (c.w 3) 0 = true →
      (unitState s 1 h = 0 → tickRun s = true → timingBad s (lrd s) h = false → ∃ t, exec (.headCtl tag) s = .next t ∧
        unitState t 1 h = 1 ∧ flag t (R.HEAD_CTRL h) 0 = true ∧ headLocked t h = false ∧ (headAt t h).pllOn = true ∧
        findCmd t tag.val = some { c with phase := .waiting, aux := [auxEnabling] }) ∧
      (unitState s 1 h = 0 → tickRun s = true → timingBad s (lrd s) h = true → ∃ t, exec (.headCtl tag) s = .next t ∧
        t.regs = s.regs ∧ findCmd t tag.val = some { c with phase := .due stRejected (1 * 2 ^ 16) h 0 none }) ∧
      (unitState s 1 h = 0 → tickRun s = false → ∃ t, exec (.headCtl tag) s = .next t ∧
        t.regs = s.regs ∧ findCmd t tag.val = some { c with phase := .due stTickStopped 0 0 0 none }) ∧
      (unitState s 1 h = 1 ∨ unitState s 1 h = 2 → ∃ t, exec (.headCtl tag) s = .next t ∧
        t.regs = s.regs ∧ findCmd t tag.val = some { c with phase := .due stUnitState (unitState s 1 h) 0 0 none }) ∧
      (unitState s 1 h = 3 → ∃ t, exec (.headCtl tag) s = .next t ∧ t.regs = s.regs ∧
        findCmd t tag.val = some (if enableQueued s 1 h then { c with phase := .due stUnitState 3 0 0 none }
          else { c with phase := .waiting, aux := [auxQueued] }))) ∧
    (bit (c.w 3) 0 = false →
      (unitState s 1 h = 0 → ∃ t, exec (.headCtl tag) s = .next t ∧
        t.regs = s.regs ∧ findCmd t tag.val = some { c with phase := .due stSuccess 1 0 0 (some (offTick s 1 h)) }) ∧
      (unitState s 1 h = 1 ∨ unitState s 1 h = 2 → (headAt s h).disabling = false → ∃ t, exec (.headCtl tag) s = .next t ∧
        unitState t 1 h = 3 ∧ (headAt t h).disabling = true ∧
        ∃ d, findCmd t tag.val = some d ∧ d.phase = .waiting ∧ d.aux = [auxDisabling]))) ∧
  (∀ (h : Fin 24) (s : State), running s = true → unitPresent s.part .head h.val = true →
    (unitState s 1 h.val = 0 → exec (.headRegDisable h) s = .next s ∧
      (tickRun s = true → timingBad s (lrd s) h.val = false → ∃ t, exec (.headRegEnable h) s = .next t ∧
        unitState t 1 h.val = 1 ∧ headLocked t h.val = false ∧ (headAt t h.val).pllOn = true) ∧
      (tickRun s = false ∨ timingBad s (lrd s) h.val = true →
        exec (.headRegEnable h) s = .next (setFlag s (R.HEAD_STATUS h.val) 10 true))) ∧
    (unitState s 1 h.val = 1 ∨ unitState s 1 h.val = 2 → exec (.headRegEnable h) s = .next s ∧
      ((headAt s h.val).disabling = false → ∃ t, exec (.headRegDisable h) s = .next t ∧ unitState t 1 h.val = 3)) ∧
    (unitState s 1 h.val = 3 → ∃ t, exec (.headRegEnable h) s = .next t ∧
      EventsOnly (setFlag s (R.HEAD_STATUS h.val) 9 true) t))) ∧
  (∀ (h : Fin 24) (s : State), running s = true →
    ((headAt s h.val).pllOn = true → headLocked s h.val = false → ∃ t, exec (.pixelPllLock h) s = .next t ∧
      headLocked t h.val = true ∧ (headAt t h.val).lockedAt = some s.clock ∧
      (headAt t h.val).nf = some (tickAfter s s.clock) ∧ t.clock = s.clock) ∧
    (headLocked s h.val = true → ∃ t, exec (.pixelPllUnlock h) s = .next t ∧ headLocked t h.val = false ∧
      (headAt t h.val).lockedAt = none ∧
      (unitState s 1 h.val ≠ 2 → unitState t 1 h.val = unitState s 1 h.val) ∧
      (unitState s 1 h.val = 2 → unitState t 1 h.val = 1 ∧ (headAt t h.val).pllOn = true ∧
        rd t (R.HEAD_UNLOCKS h.val) = (rd s (R.HEAD_UNLOCKS h.val) + 1) % 2 ^ 32 ∧
        rd t (R.HEAD_RETIMES h.val) = (rd s (R.HEAD_RETIMES h.val) + 1) % 2 ^ 32 ∧
        (∀ sc, (headAt s h.val).scan = some sc → (headAt t h.val).scan =
          if sc.active then some { sc with ended := true, timingTorn := true } else none))) ∧
    (unitState s 1 h.val = 1 → (headAt s h.val).pllOn = true → headLocked s h.val = false → (headAt s h.val).lockLate = false →
      ∃ t, exec (.pllLockTimeout h) s = .next t ∧ (headAt t h.val).lockLate = true ∧ unitState t 1 h.val = 1 ∧
        (0 < inc s → (headAt s h.val).pllAt + 10000000 * nsUnit ≤ t.elapsed)))

/-- A frame begins (R45, R302, R303, R307): prefetch starts 40 µs before active scan, active scan at T_N + HEAD_PHASE,
with ADJ from the blank that ended, and each line of a frame that is neither cut nor ended is put out at its own instant,
before the cut; 16 µs before the next tick a frame whose active scan does not end before is cut. A fetch unit takes the
lines of its layer in order (R275, R306), those of a frame over which the clock has stepped from the registers and layers
of its own seal (R311). Completes (exec answers this next state): prefetchStart, activeScanStart, scanLine, activeScanCut,
fetchBurst. -/
def Obligations.FramesBeginAndRunLineByLine : Prop :=
  ∀ (h : Fin 24) (sc : Scan) (s : State), running s = true → (headAt s h.val).scan = some sc →
    (sc.prefetch = false → sc.active = false → unitState s 1 h.val = 2 → ∃ t, exec (.prefetchStart h) s = .next t ∧
      (headAt t h.val).scan = some { sc with prefetch := true, fetchAt := t.elapsed } ∧
      (0 < inc s → scanInstant s h.val sc - 40000 * nsUnit ≤ t.clock)) ∧
    (∀ (err : Int) (lead : Scan), sc.active = false → unitState s 1 h.val = 2 →
      (headAt s (leader s h.val)).scan = some lead → lead.active = false →
      ∃ t q, exec (.activeScanStart h err) s = .next t ∧ (headAt t h.val).scan = some q ∧ q.active = true ∧ q.n = sc.n ∧
        q.line = sc.line ∧ q.baseAt = t.elapsed ∧ (0 < inc s → scanInstant s h.val lead ≤ t.clock) ∧
        ((headAt s h.val).endAt.isSome = true →
          rd t (R.HEAD_ADJ h.val) = uint 32 (adjOf err (waitClock (scanInstant s h.val lead) s) h.val))) ∧
    (∀ o : ScanObs, sc.active = true → sc.cut = false → sc.ended = false → sc.line < vActive (scene s h.val) h.val →
      (∀ c, cutInstant s h.val = some c → (waitElapsed (lineAt s h.val sc sc.line) s).clock < c) →
      ∃ t q, exec (.scanLine h o) s = .next t ∧ (headAt t h.val).scan = some q ∧ q.line = sc.line + 1 ∧ q.n = sc.n ∧
        fld t (R.HEAD_POS h.val) 12 0 = sc.line % 2 ^ 13 ∧ (0 < inc s → lineAt s h.val sc sc.line ≤ t.elapsed)) ∧
    (∀ c, sc.active = true → sc.ended = false → sc.cut = false → cutInstant s h.val = some c →
      (cutsScan s h.val sc = true → ∃ t, exec (.activeScanCut h) s = .next t ∧
        (headAt t h.val).scan = some { sc with cut := true, timingTorn := true, lastPix := t.elapsed } ∧
        (0 < inc s → c ≤ t.clock) ∧ t.regs = s.regs) ∧
      (cutsScan s h.val sc = false → exec (.activeScanCut h) s = .next s)) ∧
    (∀ (l : Fin 16) (o : BurstObs) (q : State), sc.prefetch = true ∨ sc.active = true → q = scene s h.val →
      layerEnabled q h.val l.val = true → layerCovered q h.val l.val = false →
      (geo q h.val l.val).onLine (nextFetch q h.val l.val) = true → nextFetch q h.val l.val < vActive q h.val →
      ∃ t, exec (.fetchBurst h l o) s = .next t ∧
        (layerAt (scene t h.val) (16 * h.val + l.val)).fetched = some (nextFetch q h.val l.val))

/-- The end of a frame (R94 to R99, R102, R308): it counts, its number and CRC enter Lintel's registers and the head has
no frame in scan. A head that repeats a QLIVE picture for WITNESS_N frames, or completes none for two tick periods, is
declared stuck: STUCK is set and HEADOK falls. The acknowledgement of the last write of the oldest writeback frame that
waits makes it the one retained frame of its head (R294), or frees its buffer when writeback has been turned off (R296) or
the head's disable has met its seal (R310). A touch of a host layer keeps the local time, once an update (R275). Completes
(exec answers this next state): frameComplete, headStuckNoFrame, writebackComplete, layerTouch. -/
def Obligations.FramesEndUnderTheWitness : Prop :=
  (∀ (h : Fin 24) (s : State), running s = true →
    (∀ sc : Scan, (headAt s h.val).scan = some sc → frameOver s h.val sc = true →
      (headGroup s h.val).all (fun k => (headAt s k).scan.all (frameOver s k)) = true →
      ∃ t, exec (.frameComplete h) s = .next t ∧ (headAt t h.val).scan = none ∧
        rd t (R.HEAD_FRAMES h.val) = (rd s (R.HEAD_FRAMES h.val) + 1) % 2 ^ 32 ∧
        rd t (R.WIN_LT_LAST_N h.val) = sc.n % 2 ^ 32 ∧ rd t (R.WIN_LT_HIST_CRC h.val 0) = frameCrc sc % 2 ^ 32 ∧
        wideGet t (R.HEAD_LAST_N_LO h.val) = sc.n ∧
        (0 < inc s → sc.lastPix ≤ t.elapsed) ∧
        (unitState s 1 h.val = 2 → (headAt s h.val).restart = 0 → frameQlive (scene s h.val) h.val sc = true →
          (headAt s h.val).lastCrc = some (frameCrc sc) → witnessN s ≤ (headAt s h.val).run + 1 →
          flag t (R.WIN_LT_STATUS h.val) 1 = true ∧ flag t (R.WIN_LT_STATUS h.val) 0 = false)) ∧
    (unitState s 1 h.val = 2 → (headAt s h.val).restart = 0 → ∃ t, exec (.headStuckNoFrame h) s = .next t ∧
      (headAt t h.val).restart = 1 ∧ flag t (R.WIN_LT_STATUS h.val) 0 = false ∧ flag t (R.WIN_LT_STATUS h.val) 1 = true ∧
      flag t (R.WIN_LT_STATUS h.val) 3 = true ∧
      (0 < inc s → (headAt s h.val).frameAt + 2 * tickNum s * nsUnit / tickDen s ≤ t.elapsed))) ∧
  ((∀ (h : Fin 24) (k : Nat) (f : WbFrame) (rest : List (Nat × WbFrame)) (s : State), running s = true →
    (headAt s h.val).wbPending = (k, f) :: rest →
    ∃ t, exec (.writebackComplete h) s = .next t ∧ (headAt t h.val).wbPending = rest ∧
      (∀ off, (∀ n < 16, off ≠ R.VEN_SKIPPED_LATE n) → rd t off = rd s off) ∧
      (wbAt t h.val k).writing = false ∧ (wbAt t h.val k).kept = wbKeeps (headAt s h.val) ∧
      (wbAt t h.val k).frame = (if wbKeeps (headAt s h.val) then some { f with done := s.clock } else none) ∧
      (wbKeeps (headAt s h.val) = true → ∀ j, j ≠ k → (wbAt t h.val j).kept = false) ∧
      (wbKeeps (headAt s h.val) = false → ∀ j, j ≠ k → (wbAt t h.val j).kept = (wbAt s h.val j).kept ∧
        (wbAt t h.val j).frame = (wbAt s h.val j).frame ∧ (wbAt t h.val j).writing = (wbAt s h.val j).writing)) ∧
  (∀ (h : Fin 24) (l : Fin 16) (hm : Cells) (s : State), running s = true → unitPresent s.part .head h.val = true →
    ∃ t, exec (.layerTouch h l hm) s = .next t ∧ (layerAt t (16 * h.val + l.val)).touches.head? = some s.clock ∧
      (layerAt t (16 * h.val + l.val)).touches.tail.head? = (if (layerAt s (16 * h.val + l.val)).touches.head? = some s.clock
        then (layerAt s (16 * h.val + l.val)).touches.tail.head? else (layerAt s (16 * h.val + l.val)).touches.head?) ∧
      t.regs = s.regs))

/-! ## Encode -/

/-- ENC_START of an OFF session while the tick runs (R322 to R324): the first reason of R322 that applies rejects it, a
full pool answers BUDGET, and otherwise the session is STARTING with its declaration in its registers, its cost committed,
its data ring empty and its enable waiting. A stopped tick answers TICK_STOPPED, a session that is not OFF UNIT_STATE
(R31, R180). ENC_STOP of an OFF session completes at once; a STARTING or RUNNING session drains, and takes no further
input (R347). Completes (exec answers this next state): encStart, encStop. -/
def Obligations.EncodeSessionsStartAndStop : Prop :=
  ∀ (tag : Fin 4096) (c : Cmd) (n : Nat) (s : State), running s = true → findCmd s tag.val = some c →
    mayExecute s.rng.cmds c = true → n = bits (c.w 2) 3 0 →
    (c.opcode = 0x28 → unitState s 2 n = 0 →
      (tickRun s = true → ∀ r, encReason s c.w = some r → ∃ t, exec (.encStart tag) s = .next t ∧ t.regs = s.regs ∧
        findCmd t tag.val = some { c with phase := .due stRejected (r * 2 ^ 16) 0 0 none }) ∧
      (tickRun s = true → encReason s c.w = none → ∀ p short, admitFails s [(2 + bits (c.w 2) 16 16, encCost c.w)] = some (p, short) →
        ∃ t, exec (.encStart tag) s = .next t ∧ t.regs = s.regs ∧
          findCmd t tag.val = some { c with phase := .due stBudget p short 0 none }) ∧
      (tickRun s = true → encReason s c.w = none → admitFails s [(2 + bits (c.w 2) 16 16, encCost c.w)] = none →
        ∃ t, exec (.encStart tag) s = .next t ∧ unitState t 2 n = 1 ∧ encPipe t n = bits (c.w 2) 16 16 ∧
          findCmd t tag.val = some { c with phase := .waiting, aux := [auxEnabling] } ∧
          rd t (R.VEN_SRC n) = c.w 3 ∧ rd t (R.VEN_SIZE n) = c.w 4 ∧ rd t (R.VEN_MODE n) = c.w 6 ∧ rd t (R.VEN_BIT_RATE n) = c.w 7 ∧
          rd t (R.VEN_CPB_KBIT n) = c.w 8 ∧ rd t (R.VEN_COST n) = encCost c.w % 2 ^ 32 ∧ rd t (R.VEN_PICTURES n) = 0 ∧
          rd t (R.VEN_DATA_FREE n) = 2 ^ bits (c.w 11) 4 0 ∧ (encAt t n).pic = none ∧ (encAt t n).made = 0 ∧
          rd t (R.TCK_POOL_COMMITTED (2 + bits (c.w 2) 16 16)) =
            (rd s (R.TCK_POOL_COMMITTED (2 + bits (c.w 2) 16 16)) + encCost c.w) % 2 ^ 32) ∧
      (tickRun s = false → ∃ t, exec (.encStart tag) s = .next t ∧ t.regs = s.regs ∧
        findCmd t tag.val = some { c with phase := .due stTickStopped 0 0 0 none })) ∧
    (c.opcode = 0x28 → unitState s 2 n = 1 ∨ unitState s 2 n = 2 → ∃ t, exec (.encStart tag) s = .next t ∧ t.regs = s.regs ∧
      findCmd t tag.val = some { c with phase := .due stUnitState (unitState s 2 n) 0 0 none }) ∧
    (c.opcode = 0x29 → unitState s 2 n = 0 → ∃ t, exec (.encStop tag) s = .next t ∧ t.regs = s.regs ∧
      findCmd t tag.val = some { c with phase := .due stSuccess 1 0 0 (some (offTick s 2 n)) }) ∧
    (c.opcode = 0x28 → unitState s 2 n = 3 → ∃ t, exec (.encStart tag) s = .next t ∧ t.regs = s.regs ∧
      findCmd t tag.val = some (if enableQueued s 2 n then { c with phase := .due stUnitState 3 0 0 none }
        else { c with phase := .waiting, aux := [auxQueued] })) ∧
    (c.opcode = 0x29 → unitState s 2 n = 1 ∨ unitState s 2 n = 2 → ∃ t, exec (.encStop tag) s = .next t ∧
      unitState t 2 n = 3 ∧ (encAt t n).next = none ∧ (encAt t n).pic = (encAt s n).pic ∧
      ∃ d, findCmd t tag.val = some d ∧ d.phase = .waiting ∧ d.aux = [auxDisabling])

/-- The pipeline codes the ready picture with the earliest deadline row by row (R328, R329, R336): before its first row
the rings must have room for it, or for it in floor mode, or the session ends with its fault bit set and drains (R346);
the QP limits latched then are the picture's, and its budget is the CPB's fullness less the bits ahead of its slices
(R336, R337). A coded row spends its bits, as the choice of R336 gives them; the last row ends the picture, which is
counted. A sound write of REC_CONS frees the records before it, another sets REC_CONS_BAD (R344). Completes (exec answers
this next state): encRowStart, encRowCoded, encRecConsWrite. -/
def Obligations.EncodeRowsAndRecords : Prop :=
  (∀ (p : Fin 2) (n : Nat) (q : EncPic) (s : State), running s = true → pipeBusy s p.val = false → encChoice s p.val = some n →
    (encAt s n).pic = some q →
    (q.row ≠ 0 → ∃ t, exec (.encRowStart p) s = .next t ∧ t.regs = s.regs ∧
      (encAt t n).pic = some { q with coding := true, rowFloor := q.floorAll }) ∧
    (q.row = 0 → encSlices (encWord s n) ≤ encFreeRecs s n → 125 * rd s (R.VEN_CPB_KBIT n) + 4096 ≤ encFreeData s n →
      ∃ t, exec (.encRowStart p) s = .next t ∧ t.regs = s.regs ∧ (encAt t n).pic = some { q with
        coding := true, rowFloor := q.floorAll
        qpMin := lfld s (R.VEN_QP n) 7 0, qpMax := lfld s (R.VEN_QP n) 15 8
        left := encFullness s n q / encUnit s - encHeadBits s n q }) ∧
    (q.row = 0 → encFreeData s n < 125 * rd s (R.VEN_CPB_KBIT n) + 4096 → encSlices (encWord s n) ≤ encFreeRecs s n →
      floorFrom (encWord s n) q.idr q.dueSet 0 / 8 + 4096 ≤ encFreeData s n → ∃ t, exec (.encRowStart p) s = .next t ∧
        (encAt t n).pic = some (encOpen s n { q with floorAll := true, outShort := true }) ∧
        rd t (R.VEN_OUT_FULL n) = (rd s (R.VEN_OUT_FULL n) + 1) % 2 ^ 32) ∧
    (q.row = 0 → (encFreeRecs s n < encSlices (encWord s n) ∨
        encFreeData s n < min (125 * rd s (R.VEN_CPB_KBIT n)) (floorFrom (encWord s n) q.idr q.dueSet 0 / 8) + 4096) →
      ∃ t, exec (.encRowStart p) s = .next t ∧ (encAt t n).pic = none ∧ flag t (R.VEN_STATE n) 6 = true ∧ unitState t 2 n = 3)) ∧
  (∀ (p : Fin 2) (o : RowObs) (n : Nat) (q : EncPic) (s : State), running s = true → (encAt s n).pic = some q →
    (List.range 16).find? (fun k => decide (encPipe s k = p.val) && (encAt s k).pic.any EncPic.coding) = some n →
    (q.row + 1 ≠ encRows (encWord s n) → ∃ t r, exec (.encRowCoded p o) s = .next t ∧ (encAt t n).pic = some r ∧
      r.row = q.row + 1 ∧ r.coding = false ∧ r.n = q.n ∧
      ∃ k : Config.RowChoice, r.left = q.left - (rowMode (encWord s n) q k).2 ∧
        r.floorAll = (q.floorAll || decide ((rowMode (encWord s n) q k).1 = 2))) ∧
    (q.row + 1 = encRows (encWord s n) → ∃ t, exec (.encRowCoded p o) s = .next t ∧ (encAt t n).pic = none ∧
      (encAt t n).count = (encAt s n).count + 1 ∧ (encAt t n).removed = some q.n ∧
      rd t (R.VEN_PICTURES n) = (rd s (R.VEN_PICTURES n) + 1) % 2 ^ 32)) ∧
  (∀ (n : Fin 16) (v : Word) (k : Nat) (s : State), running s = true →
    k = (bits v.toNat 15 0 + 65536 - fld s (R.VEN_REC_INDEX n.val) 31 16) % 65536 →
    (doorbellSound v.toNat = true → k ≤ (fld s (R.VEN_REC_INDEX n.val) 15 0 + 65536 - fld s (R.VEN_REC_INDEX n.val) 31 16) % 65536 →
      ∃ t, exec (.encRecConsWrite n v) s = .next t ∧ fld t (R.VEN_REC_INDEX n.val) 31 16 = bits v.toNat 15 0 ∧
        fld t (R.VEN_REC_INDEX n.val) 15 0 = fld s (R.VEN_REC_INDEX n.val) 15 0 ∧
        (encAt t n.val).recs = (encAt s n.val).recs.drop k) ∧
    (doorbellSound v.toNat = false ∨ (fld s (R.VEN_REC_INDEX n.val) 15 0 + 65536 - fld s (R.VEN_REC_INDEX n.val) 31 16) % 65536 < k →
      exec (.encRecConsWrite n v) s = .next (setFlag s (R.VEN_STATE n.val) 7 true)))

/-! ## Cellar and the Granary -/

/-- DMC_TRAIN starts training of every present channel that is UNTRAINED or FAILED (R353). A good attempt makes the
channel READY, and Cellar ready with its capacity once every present channel is READY or in self-refresh (R354); the third
failure fails the channel with its step, and a density other than DMC_CFG's is a failure of step 1, as is, by the model's
choice (log entry 64), a DMC_CFG that describes devices the DMC does not support. A tracking run that is due counts, and
two failures in a row are shown (R355). The scrubber goes through the Granary word by word, in SCRUB_S seconds (R369).
Completes (exec answers this next state): dmcTrain, dmcTrainDone, dmcTrackRun, granaryScrub. -/
def Obligations.CellarTrainsAndTracks : Prop :=
  (∀ (v : Word) (s : State), running s = true → ∃ t, exec (.dmcTrain v) s = .next t ∧ flag t R.DMC_STATUS 2 = bit v.toNat 1 ∧
    ∀ c < 8, chanState t c = if bit v.toNat 0 = true ∧ c < Config.dmcChannels s.part ∧ (chanState s c = 0 ∨ chanState s c = 4)
      then 1 else chanState s c) ∧
  (∀ (c : Fin 8) (fail : Fin 9) (density : Fin 8) (rfm : Bool) (s : State), running s = true → chanState s c.val = 1 →
    (fail.val = 0 → density.val = fld s R.DMC_CFG 12 10 → geometryOk s = true →
      ∃ t, exec (.dmcTrainDone c fail density rfm) s = .next t ∧
        chanState t c.val = 2 ∧ flag t (R.DMC_CH_STATUS c.val) 8 = rfm ∧
        ((∀ d < Config.dmcChannels s.part, d ≠ c.val → chanState s d = 2 ∨ chanState s d = 3) → flag t R.DMC_STATUS 0 = true ∧
          fld t R.DMC_CAPACITY 16 0 = capacityMiB s % 2 ^ 17)) ∧
    (fail.val ≠ 0 ∨ density.val ≠ fld s R.DMC_CFG 12 10 ∨ geometryOk s = false → ∃ t, exec (.dmcTrainDone c fail density rfm) s = .next t ∧
      (dramAt t c.val).attempts = (dramAt s c.val).attempts + 1 ∧
      ((dramAt s c.val).attempts < 2 → chanState t c.val = 1) ∧
      (2 ≤ (dramAt s c.val).attempts → chanState t c.val = 4 ∧ fld t (R.DMC_CH_STATUS c.val) 15 12 =
        if density.val ≠ fld s R.DMC_CFG 12 10 ∨ geometryOk s = false then 1 else fail.val))) ∧
  (∀ (c : Fin 8) (good : Bool) (s : State), running s = true → trackDue s c.val = true →
    (∀ d < c.val, trackDue s d = false) → (0x100, 0) ∉ s.tck.once → ∃ t, exec (.dmcTrackRun c good) s = .next t ∧
      rd t (R.DMC_CH_TRACKS c.val) = (rd s (R.DMC_CH_TRACKS c.val) + 1) % 2 ^ 32 ∧ (dramAt t c.val).trackAt = s.elapsed ∧
      (dramAt t c.val).trackOwed = false ∧ (dramAt t c.val).failRow = (if good then 0 else (dramAt s c.val).failRow + 1) ∧
      (good = false → 1 ≤ (dramAt s c.val).failRow → flag t R.DMC_STATUS 1 = true)) ∧
  (∀ (ecc : Ecc) (s : State), running s = true → flag s R.GRN_STATUS 0 = true → ∃ t, exec (.granaryScrub ecc) s = .next t ∧
    t.cell.scrubAt = (if s.cell.scrubAt + 1 = granaryWords then 0 else s.cell.scrubAt + 1) ∧
    (0 < inc s → s.cell.scrubFrom + scrubSpan s * s.cell.scrubAt / granaryWords ≤ t.elapsed) ∧
    rd t R.GRN_SCRUB_PASSES = (rd s R.GRN_SCRUB_PASSES + if s.cell.scrubAt + 1 = granaryWords then 1 else 0) % 2 ^ 32)

/-- A READY channel (R358 to R364): a refresh under way ends with the debt lower by the refresh interval; a debt above the
limit starts a catch-up, which ends at the first comparison within it. A row whose activations of the present window reach
RD_THRESH is counted afresh, the disturbance is counted, and a port of a unit that caused it is throttled for 1 ms. A
channel idle for SR_IDLE_US enters self-refresh, and leaves it with no debt, or before E4 with at most the debt it had;
_MR4 keeps the value of the last seal (R359). Completes (exec answers this next state): refreshIssue, refabComplete,
refreshCatchupEnter, rowDisturbDetect, rowDisturbThrottleEnd, rdWindowReset, selfRefreshIdleEntry, selfRefreshExit. -/
def Obligations.CellarRefreshesAndRests : Prop :=
  ∀ (c : Fin 8) (s : State), running s = true →
    (chanState s c.val = 2 → (dramAt s c.val).refab = false → ∀ idle : Bool, ∃ t, exec (.refreshIssue c idle) s = .next t ∧
      (dramAt t c.val).refab = true ∧ (dramAt t c.val).debtAt = t.elapsed ∧
      (idle = true ∨ chanCatchup s c.val = true → t.elapsed = s.elapsed ∧ (dramAt t c.val).debt = refDebt s c.val)) ∧
    (chanState s c.val = 2 → (dramAt s c.val).refab = true → ∃ t, exec (.refabComplete c) s = .next t ∧
      (dramAt t c.val).refab = false ∧ (dramAt t c.val).debt = refDebt s c.val - refInterval s c.val ∧
      chanCatchup t c.val = (chanCatchup s c.val && refOver s c.val (refDebt s c.val - refInterval s c.val))) ∧
    (chanState s c.val = 2 → chanCatchup s c.val = false →
      (refOver s c.val (dramAt s c.val).debt = true → ∃ t, exec (.refreshCatchupEnter c) s = .next t ∧
        chanCatchup t c.val = true ∧
        rd t (R.DMC_CH_CATCHUPS c.val) = (rd s (R.DMC_CH_CATCHUPS c.val) + 1) % 2 ^ 32) ∧
      (refOver s c.val (dramAt s c.val).debt = false → exec (.refreshCatchupEnter c) s = .next s)) ∧
    (chanState s c.val = 2 → ∀ (rank : Fin 2) (bank : Fin 16) (row : Fin 262144) (port : Fin 24) (acts n : Nat),
      n = smGet (fun _ => 0) (dramAt s c.val).rowCounts (rowKey rank.val bank.val row.val) + acts →
      (rank.val < ranksOf s → fld s R.DMC_RD 15 0 ≤ n → ∃ t, exec (.rowDisturbDetect c rank bank row ⟨port, acts⟩) s = .next t ∧
        rd t (R.DMC_CH_RD_EVENTS c.val) = (rd s (R.DMC_CH_RD_EVENTS c.val) + 1) % 2 ^ 32 ∧
        rd t (R.DMC_CH_RD_LAST c.val) = rank.val * 2 ^ 31 + bank.val * 2 ^ 27 + row.val ∧
        smGet (fun _ => 0) (dramAt t c.val).rowCounts (rowKey rank.val bank.val row.val) = 0 ∧
        (6 ≤ port.val → (portAt t port.val).throttledUntil = some (s.elapsed + msUnit))) ∧
      (rank.val < ranksOf s → n < fld s R.DMC_RD 15 0 → ∃ t, exec (.rowDisturbDetect c rank bank row ⟨port, acts⟩) s = .next t ∧
        smGet (fun _ => 0) (dramAt t c.val).rowCounts (rowKey rank.val bank.val row.val) = n ∧ t.regs = s.regs) ∧
      (ranksOf s ≤ rank.val → exec (.rowDisturbDetect c rank bank row ⟨port, acts⟩) s = .next s)) ∧
    (∀ (port : Fin 24) u, (portAt s port.val).throttledUntil = some u → ∃ t, exec (.rowDisturbThrottleEnd port) s = .next t ∧
      (portAt t port.val).throttledUntil = none ∧ (0 < inc s → u ≤ t.elapsed) ∧ t.regs = s.regs) ∧
    (chanState s c.val = 2 → ∃ t, exec (.rdWindowReset c) s = .next t ∧ (dramAt t c.val).windowAt = t.elapsed ∧
      (dramAt t c.val).rowCounts = [] ∧
      (0 < inc s → (dramAt s c.val).windowAt + (if chanDoubled s c.val then 16 else 32) * msUnit ≤ t.elapsed)) ∧
    (chanState s c.val = 2 → chanCatchup s c.val = false → flag s R.DMC_STATUS 2 = true →
      ∃ t, exec (.selfRefreshIdleEntry c) s = .next t ∧ chanState t c.val = 3 ∧
        (0 < inc s → (dramAt s c.val).reqAt + fld s R.DMC_SR 15 0 * 1000 * nsUnit ≤ t.elapsed) ∧
        rd t (R.DMC_CH_SR_ENTRIES c.val) = (rd s (R.DMC_CH_SR_ENTRIES c.val) + 1) % 2 ^ 32) ∧
    (chanState s c.val = 3 → ∀ (mr4 : Byte) (good : Bool),
      (∃ t, exec (.selfRefreshExit c true mr4 good) s = .next t ∧ chanState t c.val = 2 ∧
        (dramAt t c.val).debt ≤ (dramAt s c.val).debt ∧
        rd t (R.DMC_CH_SR_ABORTS c.val) = (rd s (R.DMC_CH_SR_ABORTS c.val) + 1) % 2 ^ 32) ∧
      (∃ t, exec (.selfRefreshExit c false mr4 good) s = .next t ∧ chanState t c.val = 2 ∧ (dramAt t c.val).debt = 0 ∧
        rd t (R.DMC_CH_MR4 c.val) = rd s (R.DMC_CH_MR4 c.val) ∧ chanDoubled t c.val = mr4Short mr4.toNat))

/-! ## Check values, snapshots, compression, touch -/

/-- CHK_JOB (R371 to R376): the jobs of a context run one at a time; a job that starts sets ALG and RUN of its context and
joins its engine's round. The job whose turn it is reads up to 4 KiB and RUN takes them in (R375); at the end of its data
it answers the check value, with XOROUT at the end of a run, or JOB_FAILED, cause 3, where it compares and differs; a read
that fails ends it with ADDR_FAULT, its context as at its start (R376). A context write is ignored, with its bit set,
while a job of the context is in flight (R377). SNAPSHOT waits for the next seal (R378). In its last turn over the
writeback frame it holds, its value is the CRC-32C of the active pixel words; it succeeds where the head's history has
that value for the frame and else ends with JOB_FAILED, cause 2, and gives the buffer back (R379). That the turns up to
the end of a job are one command is the model's choice (log entry 13). Completes (exec answers this next state): chkJob,
chkJobComplete, chkContextWrite, snapshot, snapshotComplete. -/
def Obligations.CheckJobsAndSnapshots : Prop :=
  ((∀ (tag : Fin 4096) (c : Cmd) (x e : Nat) (s : State), running s = true → findCmd s tag.val = some c →
    c.opcode = 0x30 → x = bits (c.w 2) 5 0 → e = x / 16 →
    (mayExecute s.rng.cmds c = true →
      (chkBusy s x = false → ∃ t, exec (.chkJob tag) s = .next t ∧ fld t (R.CHK_CFG x) 1 0 = chkJobAlg s c % 4 ∧
        rd64 t (R.CHK_RUN_LO x) (R.CHK_RUN_HI x) = chkJobFrom s c % 2 ^ 64 ∧ turnsOf t e = turnsOf s e ++ [tag.val] ∧
        findCmd t tag.val = some { c with
          phase := .waiting, aux := [0, fld s (R.CHK_CFG x) 1 0, rd64 s (R.CHK_RUN_LO x) (R.CHK_RUN_HI x)] } ∧
        ∀ o, o ∉ [R.CHK_CFG x, R.CHK_RUN_LO x, R.CHK_RUN_HI x] → rd t o = rd s o) ∧
      (chkBusy s x = true → exec (.chkJob tag) s = .next s)) ∧
    (∀ (links : LinkErrs) ts n g v out a r, firstWaiting s.rng.cmds c = true → turnsOf s e = tag.val :: ts →
      c.aux.headD 0 ≤ c.w 6 → n = min 4096 (c.w 6 - c.aux.headD 0) → g = chkAlg (fld s (R.CHK_CFG x) 1 0) →
      (a, r) = (if n = 0 then (noteLink links s, { data := [], bad := none })
        else dmaRead 25 21 (if bit (c.w 3) 3 then spCellar else spHost) (c.w 4 + 2 ^ 32 * c.w 5 + c.aux.headD 0) n (noteLink links s)) →
      v = chkRun g (rd64 s (R.CHK_RUN_LO x) (R.CHK_RUN_HI x) % 2 ^ g.width) r.data →
      out = (if bit (c.w 3) 1 then (v % 2 ^ g.width) ^^^ g.xorout else v % 2 ^ g.width) →
      (r.bad = none → c.aux.headD 0 + n = c.w 6 → ∃ t, exec (.chkJobComplete ⟨tag, links⟩) s = .next t ∧
        rd64 t (R.CHK_RUN_LO x) (R.CHK_RUN_HI x) = v % 2 ^ 64 ∧ fld t (R.CHK_CFG x) 1 0 = fld s (R.CHK_CFG x) 1 0 ∧
        rd t (R.CHK_JOBS x) = (rd s (R.CHK_JOBS x) + 1) % 2 ^ 32 ∧
        findCmd t tag.val = some (if bit (c.w 3) 2 = true ∧ out ≠ (c.w 10 + 2 ^ 32 * c.w 11) % 2 ^ g.width
          then { c with phase := .due stJobFailed 3 out (out / 2 ^ 32) none }
          else { c with phase := .due stSuccess out (out / 2 ^ 32) (ofBool (bit (c.w 3) 1)) none })) ∧
      (r.bad = none → c.aux.headD 0 + n < c.w 6 → links = [] → ts = [] →
        exec (.chkJobComplete ⟨tag, []⟩) s = exec (.chkJobComplete ⟨tag, []⟩) (engineTurn e (noteLink [] s)) ∧
        rd64 (engineTurn e (noteLink [] s)) (R.CHK_RUN_LO x) (R.CHK_RUN_HI x) = v % 2 ^ 64 ∧
        findCmd (engineTurn e (noteLink [] s)) tag.val = some { c with aux := (c.aux.headD 0 + n) :: c.aux.drop 1 }) ∧
      (∀ b, r.bad = some b → ∃ t, exec (.chkJobComplete ⟨tag, links⟩) s = .next t ∧
        rd64 t (R.CHK_RUN_LO x) (R.CHK_RUN_HI x) = c.aux.getD 2 0 % 2 ^ 64 ∧ fld t (R.CHK_CFG x) 1 0 = c.aux.getD 1 0 % 4 ∧
        findCmd t tag.val = some { c with phase := .due stAddrFault b (b / 2 ^ 32) 25 none }))) ∧
  (∀ (x : Fin 64) (v : Word) (s : State), running s = true →
    (chkInFlight s x.val = false →
      (∃ t, exec (.chkContextWrite x 0 v) s = .next t ∧ fld t (R.CHK_CFG x.val) 1 0 = bits v.toNat 1 0 ∧
        OnlyRegs (fun o => decide (o = R.CHK_CFG x.val)) s t) ∧
      exec (.chkContextWrite x 1 v) s = .next (wr s (R.CHK_RUN_LO x.val) v.toNat) ∧
      exec (.chkContextWrite x 2 v) s = .next (wr s (R.CHK_RUN_HI x.val) v.toNat)) ∧
    (chkInFlight s x.val = true → ∀ reg, ∃ t, exec (.chkContextWrite x reg v) s = .next t ∧
      flag t (R.CHK_CFG x.val) 3 = true ∧ fld t (R.CHK_CFG x.val) 1 0 = fld s (R.CHK_CFG x.val) 1 0 ∧
      OnlyRegs (fun o => decide (o = R.CHK_CFG x.val)) s t))) ∧
  (∀ (tag : Fin 4096) (c : Cmd) (s : State), running s = true → findCmd s tag.val = some c → c.opcode = 0x32 →
    (mayExecute s.rng.cmds c = true → ∃ t, exec (.snapshot tag) s = .next t ∧ t.regs = s.regs ∧
      findCmd t tag.val = some { c with phase := .waiting, aux := [] }) ∧
    (∀ (links : LinkErrs) k d ks h b a0 a1 header active n ts, firstWaiting s.rng.cmds c = true → c.aux = k :: d :: ks →
      h = bits (c.w 2) 4 0 → h < 24 → b = wbAt s h k → turnsOf s (h % 4) = tag.val :: ts →
      (d + 4096 < 4 * b.width * b.height → links = [] → ts = [] →
        exec (.snapshotComplete ⟨tag, []⟩) s = exec (.snapshotComplete ⟨tag, []⟩) (engineTurn (h % 4) (noteLink [] s)) ∧
        findCmd (engineTurn (h % 4) (noteLink [] s)) tag.val = some { c with aux := [k, d + 4096] }) ∧
      (4 * b.width * b.height ≤ d + 4096 → bit (c.w 3) 0 = false →
        dmaRead 25 21 spCellar (wbAddr s h k) 4096 (noteLink links s) = (a0, { data := header, bad := none }) →
        snapRows (wbAddr s h k + 0x1000) (wbPitch b.width) b.width b.height a0 [] = (a1, { data := active, bad := none }) →
        n = ofLe ((header.drop 28).take 4) →
        ∃ t, exec (.snapshotComplete ⟨tag, links⟩) s = .next t ∧ (wbAt t h k).held = b.held - 1 ∧
          (∀ e, historyEntry s h n = some e → rd s (R.WIN_LT_HIST_CRC h e) = crc32c active → findCmd t tag.val =
            some { c with phase := .due stSuccess (crc32c active) n (bits (rd s (R.WIN_LT_HIST_INFO h e)) 3 0) none }) ∧
          ((∀ e, historyEntry s h n = some e → rd s (R.WIN_LT_HIST_CRC h e) ≠ crc32c active) → findCmd t tag.val =
            some { c with phase := .due stJobFailed 2 (crc32c active) n none }))))

/-- CPX_JOB (R382, R384 to R387): one job runs at a time. INIT gives a context its role and an empty dictionary. A
COMPRESS job on a COMPRESS context without RESET codes its source from the context's state, writes the codes, answers
their length, the CRC-32C of the input and E, and commits; a context of another role, too small a destination or image
fails the job, and a read or write that fails ends it with ADDR_FAULT; neither changes a context. CPX_JOURNAL is held
while a job is in flight (R385). Completes (exec answers this next state): cpxJob, cpxJobComplete, cpxJournalWrite. -/
def Obligations.CompressionJobsRun : Prop :=
  (∀ (tag : Fin 4096) (c : Cmd) (x : Nat) (s : State), running s = true → findCmd s tag.val = some c → c.opcode = 0x31 →
    x = bits (c.w 2) 1 0 →
    (mayExecute s.rng.cmds c = true →
      (cpxBusy s = false → cpxFirst s c = true → ∃ t, exec (.cpxJob tag) s = .next t ∧
        findCmd t tag.val = some { c with phase := .waiting, aux := [] } ∧ fld t R.CPX_STATUS 1 0 = x) ∧
      (cpxBusy s = true → exec (.cpxJob tag) s = .next s)) ∧
    (firstWaiting s.rng.cmds c = true → ∀ links : LinkErrs,
      (4 ≤ bits (c.w 3) 2 0 → ∃ t, exec (.cpxJobComplete ⟨tag, links⟩) s = .next t ∧
        cpxRole t x = (if bit (c.w 10) 16 then 2 else 1) ∧ cpxLoad t x = {} ∧
        rd t (R.CPX_RESET_AFTER x) = bits (c.w 10) 15 0 ∧ rd t (R.CPX_JOBS x) = (rd s (R.CPX_JOBS x) + 1) % 2 ^ 32 ∧
        findCmd t tag.val = some { c with phase := .due stSuccess 0 0 258 none }) ∧
      ((bits (c.w 3) 2 0 = 0 ∧ cpxRole s x ≠ 1) ∨ (bits (c.w 3) 2 0 = 1 ∧ cpxRole s x ≠ 2) ∨ (bits (c.w 3) 2 0 = 2 ∧ cpxRole s x = 0) →
        ∃ t, exec (.cpxJobComplete ⟨tag, links⟩) s = .next t ∧ OnlyRegs (fun o => decide (o = R.CPX_FAILS x)) s { s with regs := t.regs } ∧
          t.granary = s.granary ∧ rd t (R.CPX_FAILS x) = (rd s (R.CPX_FAILS x) + 1) % 2 ^ 32 ∧
          findCmd t tag.val = some { c with phase := .due stJobFailed 7 0 0 none }) ∧
      (bits (c.w 3) 2 0 = 3 → c.w 6 < 266240 → ∃ t, exec (.cpxJobComplete ⟨tag, links⟩) s = .next t ∧ t.granary = s.granary ∧
        findCmd t tag.val = some { c with phase := .due stJobFailed 8 0 0 none }) ∧
      (∀ a r u b done, bits (c.w 3) 2 0 = 0 → cpxRole s x = 1 → cpxBad s x = false → bit (c.w 3) 8 = false →
        rd s (R.CPX_RESET_AFTER x) = 0 → cpxRead c (c.w 6) (noteLink links s) = (a, r) →
        done = Coder.encode (r.data.length + 1) r.data (cpxLoad s x) → cpxWrite c done.bytes a = (u, b) →
        (r.bad = none → done.bytes.length ≤ c.w 9 → b = none → ∃ t, exec (.cpxJobComplete ⟨tag, links⟩) s = .next t ∧
          findCmd t tag.val = some { c with phase := .due stSuccess done.bytes.length (crc32c r.data) done.e none } ∧
          fld t (R.CPX_STATE x) 16 0 = done.e % 2 ^ 17 ∧ rd t (R.CPX_SINCE_FULL x) = done.since % 2 ^ 32 ∧
          rd t (R.CPX_JOBS x) = (rd s (R.CPX_JOBS x) + 1) % 2 ^ 32) ∧
        (r.bad = none → c.w 9 < done.bytes.length → ∃ t, exec (.cpxJobComplete ⟨tag, links⟩) s = .next t ∧
          findCmd t tag.val = some { c with phase := .due stJobFailed 4 0 0 none }) ∧
        (∀ w, r.bad = some w ∨ (r.bad = none ∧ done.bytes.length ≤ c.w 9 ∧ b = some w) →
          ∃ t, exec (.cpxJobComplete ⟨tag, links⟩) s = .next t ∧
            findCmd t tag.val = some { c with phase := .due stAddrFault w (w / 2 ^ 32) 26 none } ∧
            rd t (R.CPX_STATE x) = rd s (R.CPX_STATE x) ∧ rd t (R.CPX_FAILS x) = (rd s (R.CPX_FAILS x) + 1) % 2 ^ 32)))) ∧
  (∀ (hi : Bool) (v : Word) (s : State), running s = true →
    (cpxInFlight s = true → exec (.cpxJournalWrite hi v) s = .next (setFlag s R.CPX_STATUS 3 true)) ∧
    (cpxInFlight s = false → ∃ t, exec (.cpxJournalWrite hi v) s = .next t ∧ rd64 t R.CPX_JOURNAL_LO R.CPX_JOURNAL_HI =
      if hi then rd s R.CPX_JOURNAL_LO + 2 ^ 32 * bits v.toNat 3 0
      else v.toNat / 4096 * 4096 + 2 ^ 32 * rd s R.CPX_JOURNAL_HI))

/-- The end of a touch scan writes the count of every key, scaled by its slice's reference, and waits for Demal (R390 to
R393). When Demal processes it, outside noise mode, an enabled key of a slice in FAULT reads FAULT (R394); a RELEASED key
becomes TOUCHED when its delta has reached T in ON scans in a row, and a TOUCHED one RELEASED when it has been below T − H
in OFF scans (R393, R396, R399); the KEY_CONFIG commands that took effect before the scan complete (R409). Completes (exec
answers this next state): touchScanEnd, keyScanProcess. -/
def Obligations.TouchScansMoveKeys : Prop :=
  (∀ (o : TouchObs) (q : TouchScan) (s : State), running s = true → s.tch.scan = some q →
    ∃ t, exec (.touchScanEnd o) s = .next t ∧ t.tch.scan = none ∧ t.tch.done = some q ∧
      rd t R.TCH_SCANS = (rd s R.TCH_SCANS + 1) % 2 ^ 32 ∧ flag t R.TCH_STATUS 9 = false ∧
      (0 < inc s → q.at_ + scanNs q.hop (scanFreq q o) * nsUnit ≤ t.elapsed) ∧
      ∀ k < 64, ∀ ref, ref = ((o.refs[keySlice q k]?).map Fin.val).getD 0 → ref ≠ 0 →
        rd t (R.TCH_K_RAW k) = min 65535 ((2 * (o.keys.getD k 0 * Config.refTrim (keySlice q k) 0) + ref) / (2 * ref))) ∧
  (∀ (q : TouchScan) (s : State), running s = true → demalState s = 2 → s.tch.done = some q →
    ∃ t, exec .keyScanProcess s = .next t ∧ t.tch.done = none ∧
      (∀ c, findCmd s c.tag = some c → c.tag ∈ s.tch.taken →
        findCmd t c.tag = some { c with phase := .due stSuccess 0 0 0 none }) ∧
      (s.tch.panel.noiseAuto = false → s.tch.waiting = [] → ∀ k < 64, ∀ x T H, x = keyAt s k → x.fresh = false → x.cfg.en = true →
        T = (keyLevels { s.tch.panel with noise := false } x.cfg).1 → H = (keyLevels { s.tch.panel with noise := false } x.cfg).2 →
        (flag s (R.TCH_SLICE_STATUS (keySlice q k)) 31 = true → fld t (R.TCH_K_STATE k) 2 0 = 4) ∧
        (flag s (R.TCH_SLICE_STATUS (keySlice q k)) 31 = false → x.cfg.guard = false → x.cfg.veto = false → x.cfg.groupEn = false →
          (x.phase = 2 → 0 < T → 1 ≤ x.cfg.on →
            (T ≤ keyDelta s k → x.cfg.on ≤ x.onRun + 1 → fld t (R.TCH_K_STATE k) 2 0 = 3 ∧ (keyAt t k).touchAt = q.at_) ∧
            (T ≤ keyDelta s k → x.onRun + 1 < x.cfg.on → fld t (R.TCH_K_STATE k) 2 0 = 2 ∧ (keyAt t k).onRun = x.onRun + 1) ∧
            (keyDelta s k < T → fld t (R.TCH_K_STATE k) 2 0 = 2 ∧ (keyAt t k).onRun = 0)) ∧
          (x.phase = 3 → 1 ≤ x.cfg.on → keyDelta s k < T - H → x.cfg.off ≤ x.offRun + 1 → fld t (R.TCH_K_STATE k) 2 0 = 2) ∧
          (x.phase = 3 → T - H ≤ keyDelta s k → 1 ≤ x.cfg.off → q.at_ - x.touchAt < x.cfg.maxOn * secUnit →
            fld t (R.TCH_K_STATE k) 2 0 = 3))))

/-- KEY_CONFIG is served by Demal: NO_FIRMWARE without it, REJECTED with the word of the first field out of range (R181,
R408); else it waits, and in an idle gap takes effect at once: a key has its new settings and starts afresh (R409).
Completes (exec answers this next state): keyConfig. -/
def Obligations.KeyConfigTakesEffect : Prop :=
  ∀ (tag : Fin 4096) (c : Cmd) (s : State), running s = true → findCmd s tag.val = some c → c.opcode = 0x40 →
    mayExecute s.rng.cmds c = true →
    (demalState s ≠ 2 → ∃ t, exec (.keyConfig tag) s = .next t ∧ t.regs = s.regs ∧ t.tch = s.tch ∧
      findCmd t tag.val = some { c with phase := .due stNoFirmware (demalState s) 0 0 none }) ∧
    (demalState s = 2 → ∀ i, keyRange c = some i → ∃ t, exec (.keyConfig tag) s = .next t ∧ t.regs = s.regs ∧ t.tch = s.tch ∧
      findCmd t tag.val = some { c with phase := .due stRejected (1 * 2 ^ 16) i 0 none }) ∧
    (demalState s = 2 → keyRange c = none → ∃ t, exec (.keyConfig tag) s = .next t ∧
      findCmd t tag.val = some { c with phase := .waiting, aux := [] } ∧
      (s.tch.scan.isSome ∨ s.tch.done.isSome → t.regs = s.regs ∧ t.tch = { s.tch with waiting := s.tch.waiting ++ [c.tag] }) ∧
      (s.tch.scan = none → s.tch.done = none → c.tag ∈ t.tch.taken ∧ t.tch.waiting = [] ∧
        (bits (c.w 2) 17 16 = 0 → (keyAt t (bits (c.w 2) 5 0)).cfg = keyCfgOf c ∧ (keyAt t (bits (c.w 2) 5 0)).fresh = true) ∧
        (bits (c.w 2) 17 16 ≠ 0 → t.tch.panel.driftScans = bits (c.w 6) 7 0 ∧ t.tch.panel.noiseAuto = bit (c.w 3) 29 ∧
          flag t R.TCH_CTRL 0 = true ∧ rd t (R.TIM_TRIG_PERIOD_NS 10) = bits (c.w 3) 7 0 * 1000000)))

/-! ## Guards and the debug port -/

/-- A write to a guard's CTRL, or to BASE or CFG of a region, is stored and counts in GEN while it is not locked, and is
turned away, with the IGNORED bit set, while it is (R414, R420, R423). A read of SYNC waits for the accesses checked under
an earlier GEN, 16 µs at most, and reads the GEN it sampled, with DONE when they have completed (R423). Completes (exec
answers this next state): guardRegWrite, guardSyncRead. -/
def Obligations.GuardRegistersLockAndSync : Prop :=
  ∀ (g : Fin 28) (v : Word) (s : State), running s = true →
    (flag s (R.GRD_CTRL g.val) 3 = false → ∃ t, exec (.guardRegWrite (R.GRD_CTRL g.val) v) s = .next t ∧
      rd t (R.GRD_CTRL g.val) = bits v.toNat 3 0 ∧ guardGen t g.val = (guardGen s g.val + 1) % 65536) ∧
    (flag s (R.GRD_CTRL g.val) 3 = true → exec (.guardRegWrite (R.GRD_CTRL g.val) v) s =
      .next (setFlag s (R.GRD_STATUS g.val) 1 true)) ∧
    (∀ r < 16,
      (flag s (R.GRD_R_CFG g.val r) 3 = false →
        (∃ t, exec (.guardRegWrite (R.GRD_R_CFG g.val r) v) s = .next t ∧ rd t (R.GRD_R_CFG g.val r) = guardCfgStored v.toNat ∧
          guardGen t g.val = (guardGen s g.val + 1) % 65536) ∧
        (∃ t, exec (.guardRegWrite (R.GRD_R_BASE_LO g.val r) v) s = .next t ∧ rd t (R.GRD_R_BASE_LO g.val r) = v.toNat / 4096 * 4096 ∧
          guardGen t g.val = (guardGen s g.val + 1) % 65536) ∧
        (∃ t, exec (.guardRegWrite (R.GRD_R_BASE_HI g.val r) v) s = .next t ∧ rd t (R.GRD_R_BASE_HI g.val r) = v.toNat ∧
          guardGen t g.val = (guardGen s g.val + 1) % 65536)) ∧
      (flag s (R.GRD_R_CFG g.val r) 3 = true →
        ∀ off ∈ [R.GRD_R_CFG g.val r, R.GRD_R_BASE_LO g.val r, R.GRD_R_BASE_HI g.val r],
          exec (.guardRegWrite off v) s = .next (setFlag s (R.GRD_STATUS g.val) 1 true))) ∧
    (∃ t, exec (.guardSyncRead g) s = .next t ∧ fld t (R.GRD_SYNC g.val) 15 0 = guardGen s g.val ∧
      ((∀ f ∈ s.flights, f.guard = g.val → f.gen ≠ guardGen s g.val → f.until_ ≤ s.updates + usUpdates 16) →
        flag t (R.GRD_SYNC g.val) 31 = true ∧
        ∀ f ∈ s.flights, f.guard = g.val → f.gen ≠ guardGen s g.val → f.until_ ≤ t.updates) ∧
      ((∃ f ∈ s.flights, f.guard = g.val ∧ f.gen ≠ guardGen s g.val ∧ s.updates + usUpdates 16 < f.until_) →
        flag t (R.GRD_SYNC g.val) 31 = false ∧ t.updates = s.updates + usUpdates 16))

/-- An access of a bus master goes through its guard (R411, R415, R416, R352): an access without a permitted part answers
an error, with zeros to a read (and no data to the host), and stores nothing; a permitted write of Cellar or host memory
stores its bytes where its target answers, and a permitted read gives them; a permitted write of a whole register word is
a register write. A memory access of the debug port (R425, R427): outside the life-cycle states that open the port, or its
authentication, it answers an error and changes no memory; else guard 27 checks it as it does a bus access. Completes
(exec answers this next state): busAccess, debugAccess. -/
def Obligations.BusAndDebugAccessesAreChecked : Prop :=
  (∀ (q : BusReq) (s : State), powered s = true → busReaches s q = true →
    ((∀ p ∈ guardParts (hostStore q.hm s) q.guard.val q.space.val q.addr (opLen q.op) (opAcc q.guard.val q.op), p.ok = false) →
      opWrites q.op = false → ∃ t, exec (.busAccess q) s = .next t ∧ t.response.error = true ∧ t.granary = s.granary ∧
        (q.guard.val = 4 → t.response.data = []) ∧ (q.guard.val ≠ 4 → ∀ b ∈ t.response.data, b = 0)) ∧
    (∀ p, guardParts (hostStore q.hm s) q.guard.val q.space.val q.addr (opLen q.op) (opAcc q.guard.val q.op) = [p] → p.ok = true →
      p.addr = q.addr → p.len = opLen q.op →
      (∀ d, q.op = .write d → q.space.val = spCellar ∨ q.space.val = spHost →
        memAnswers (hostStore q.hm s) q.space.val q.addr d.length = true →
        ∃ t, exec (.busAccess q) s = .next t ∧ memBytes t q.space.val q.addr d.length = d ∧ t.response = { error := false, data := [] } ∧
          (∀ off, eventReg off = false → rd t off = rd s off) ∧ t.granary = s.granary) ∧
      (∀ n, q.op = .read n → q.space.val = spCellar ∨ q.space.val = spHost → q.ecc = .clean →
        memAnswers (hostStore q.hm s) q.space.val q.addr n.val = true → ∃ t, exec (.busAccess q) s = .next t ∧
          t.response = { error := false, data := memBytes (hostStore q.hm s) q.space.val q.addr n.val } ∧
          t.cellar = s.cellar ∧ t.host = (hostStore q.hm s).host ∧ t.granary = s.granary) ∧
      (∀ d, q.op = .write d → q.space.val = spRegs → d.length = 4 → q.addr % 4 = 0 → q.addr < 0x01000000 →
        exec (.busAccess q) s = .next { regWrite (decide (q.guard.val < 4)) q.addr (ofLe d)
          (guardFlight q.guard.val q.span (hostStore q.hm s)) with response := { error := false, data := [] } }))) ∧
  (∀ (q : BusReq) (s : State), powered s = true → q.guard.val = 27 → 0 < opLen q.op →
    (debugOpen s = false → ∃ t, exec (.debugAccess q) s = .next t ∧ t.debugResponse.error = true ∧
      (∀ b ∈ t.debugResponse.data, b = 0) ∧ EventsOnly s { t with debugResponse := s.debugResponse }) ∧
    (debugOpen s = true → ∀ p n, q.op = .read n → q.space.val = spCellar ∨ q.space.val = spHost → q.ecc = .clean →
      guardParts (hostStore q.hm s) 27 q.space.val q.addr n.val .read = [p] → p.ok = true → p.addr = q.addr → p.len = n.val →
      memAnswers (hostStore q.hm s) q.space.val q.addr n.val = true → ∃ t, exec (.debugAccess q) s = .next t ∧
        t.debugResponse = { error := false, data := memBytes (hostStore q.hm s) q.space.val q.addr n.val } ∧
        t.granary = s.granary ∧ t.cellar = s.cellar))
end

