-- ==== Sys2Proof/Laws/SMap.lean ====
section
/-!
SUPPORT. Laws/SMap.lean: the laws of sparse maps: a read after a write gives the value written at its key and the old
value at every other, and every write keeps the canonical form.
-/

namespace Sys2Proof.Machine

variable {α : Type}

theorem smGet_smDrop_same (d : Nat → α) (m : SMap α) (k : Nat) : smGet d (smDrop m k) k = d k := by
  induction m with
  | nil => rfl
  | cons p m ih =>
    obtain ⟨k0, v0⟩ := p
    by_cases h : k = k0
    · simpa [smDrop, h] using h ▸ ih
    · simpa [smDrop, smGet, h] using ih

theorem smGet_smDrop_other (d : Nat → α) (m : SMap α) {k j : Nat} (h : j ≠ k) :
    smGet d (smDrop m k) j = smGet d m j := by
  induction m with
  | nil => rfl
  | cons p m ih =>
    obtain ⟨k0, v0⟩ := p
    by_cases hk : k = k0
    · subst hk; simp [smDrop, smGet, h, ih]
    · by_cases hj : j = k0 <;> simp [smDrop, smGet, hk, hj]
      simpa [hj] using ih

theorem smGet_smPut_same (d : Nat → α) (m : SMap α) (k : Nat) (v : α) (h : k ∉ m.map Prod.fst) :
    smGet d (smPut m k v) k = v := by
  induction m with
  | nil => simp [smPut, smGet]
  | cons p m ih =>
    obtain ⟨k0, v0⟩ := p
    simp only [List.map_cons, List.mem_cons, not_or] at h
    by_cases hk : k < k0 <;> simp [smPut, smGet, hk]
    simpa [h.1] using ih h.2

theorem smGet_smPut_other (d : Nat → α) (m : SMap α) {k j : Nat} (v : α) (h : j ≠ k) :
    smGet d (smPut m k v) j = smGet d m j := by
  induction m with
  | nil => simp [smPut, smGet, h]
  | cons p m ih =>
    obtain ⟨k0, v0⟩ := p
    by_cases hk : k < k0 <;> by_cases hj : j = k0 <;> simp [smPut, smGet, hk, h, hj]
    · intro e; exact absurd (hj.trans e) h
    · simpa [hj] using ih

theorem smDrop_keys (m : SMap α) (k : Nat) : k ∉ (smDrop m k).map Prod.fst := by
  induction m with
  | nil => simp [smDrop]
  | cons p m ih =>
    obtain ⟨k0, v0⟩ := p
    by_cases h : k = k0
    · subst h; rw [smDrop, if_pos rfl]; exact ih
    · rw [smDrop, if_neg h, List.map_cons, List.mem_cons, not_or]; exact ⟨h, ih⟩

/-- A key written reads as the value written. -/
@[simp] theorem smGet_smSet_same [DecidableEq α] (d : Nat → α) (m : SMap α) (k : Nat) (v : α) :
    smGet d (smSet d m k v) k = v := by
  unfold smSet
  split
  · next h => rw [smGet_smDrop_same, h]
  · exact smGet_smPut_same d _ k v (smDrop_keys m k)

/-- Every other key reads as before. -/
theorem smGet_smSet_other [DecidableEq α] (d : Nat → α) (m : SMap α) {k j : Nat} (v : α) (h : j ≠ k) :
    smGet d (smSet d m k v) j = smGet d m j := by
  unfold smSet
  split
  · exact smGet_smDrop_other d m h
  · rw [smGet_smPut_other d _ v h, smGet_smDrop_other d m h]

theorem smGet_smSet [DecidableEq α] (d : Nat → α) (m : SMap α) (k j : Nat) (v : α) :
    smGet d (smSet d m k v) j = if j = k then v else smGet d m j := by
  split
  · next h => rw [h, smGet_smSet_same]
  · next h => exact smGet_smSet_other d m v h

/-- A range written reads as the values written, every key outside it as before. -/
theorem smGet_smSetRange_other [DecidableEq α] (d : Nat → α) (vs : List α) :
    ∀ (m : SMap α) (k : Nat) {j : Nat}, (j < k ∨ k + vs.length ≤ j) →
      smGet d (smSetRange d m k vs) j = smGet d m j := by
  induction vs with
  | nil => intros; rfl
  | cons v vs ih =>
    intro m k j h
    rw [smSetRange, ih _ _ (by simp only [List.length_cons] at h; omega),
      smGet_smSet_other d m v (by simp only [List.length_cons] at h; omega)]

theorem smGet_smSetRange_in [DecidableEq α] (d : Nat → α) (vs : List α) :
    ∀ (m : SMap α) (k i : Nat) (h : i < vs.length), smGet d (smSetRange d m k vs) (k + i) = vs[i] := by
  induction vs with
  | nil => intro m k i h; exact absurd h (Nat.not_lt_zero i)
  | cons v vs ih =>
    intro m k i h
    cases i with
    | zero => rw [smSetRange, smGet_smSetRange_other d vs _ _ (Or.inl (by omega))]; simp
    | succ i => rw [smSetRange, show k + (i + 1) = k + 1 + i by omega,
        ih _ _ _ (by simpa using h)]; simp

theorem smGetRange_length (d : Nat → α) (m : SMap α) (n : Nat) : ∀ k, (smGetRange d m k n).length = n := by
  induction n with
  | zero => intro k; rfl
  | succ n ih => intro k; simp [smGetRange, ih]

theorem smGetRange_getElem (d : Nat → α) (m : SMap α) (n : Nat) :
    ∀ (k i : Nat) (h : i < (smGetRange d m k n).length), (smGetRange d m k n)[i] = smGet d m (k + i) := by
  induction n with
  | zero => intro k i h; simp [smGetRange] at h
  | succ n ih =>
    intro k i h
    cases i with
    | zero => simp [smGetRange]
    | succ i =>
      have := ih (k + 1) i (by simpa [smGetRange] using h)
      simpa [smGetRange, show k + 1 + i = k + (i + 1) by omega] using this

/-- Reading a range just written gives the values written. -/
theorem smGetRange_smSetRange_same [DecidableEq α] (d : Nat → α) (m : SMap α) (k : Nat) (vs : List α) :
    smGetRange d (smSetRange d m k vs) k vs.length = vs := by
  apply List.ext_getElem (smGetRange_length d _ _ k)
  intro i h1 h2
  rw [smGetRange_getElem, smGet_smSetRange_in d vs m k i h2]

/-! ## The canonical form -/

/-- The canonical form as a proposition. -/
theorem SMap.wf_iff [DecidableEq α] (d : Nat → α) (m : SMap α) :
    SMap.wf d m = true ↔ m.Pairwise (fun p q => p.1 < q.1) ∧ ∀ p ∈ m, p.2 ≠ d p.1 := by
  simp [SMap.wf]

theorem smDrop_mem {m : SMap α} {k : Nat} {p : Nat × α} (h : p ∈ smDrop m k) : p ∈ m ∧ p.1 ≠ k := by
  induction m with
  | nil => simp [smDrop] at h
  | cons q m ih =>
    obtain ⟨k0, v0⟩ := q
    by_cases hk : k = k0
    · simp only [smDrop, hk, if_true] at h
      have := ih (hk ▸ h); exact ⟨List.mem_cons_of_mem _ this.1, this.2⟩
    · simp only [smDrop, hk, if_false, List.mem_cons] at h
      rcases h with h | h
      · subst h; exact ⟨List.mem_cons_self, fun e => hk e.symm⟩
      · exact ⟨List.mem_cons_of_mem _ (ih h).1, (ih h).2⟩

theorem smDrop_pairwise {m : SMap α} (k : Nat) (h : m.Pairwise (fun p q => p.1 < q.1)) :
    (smDrop m k).Pairwise (fun p q => p.1 < q.1) := by
  induction m with
  | nil => exact List.Pairwise.nil
  | cons q m ih =>
    obtain ⟨k0, v0⟩ := q
    rw [List.pairwise_cons] at h
    by_cases hk : k = k0
    · simpa [smDrop, hk] using hk ▸ ih h.2
    · simp only [smDrop, hk, if_false, List.pairwise_cons]
      exact ⟨fun p hp => h.1 p (smDrop_mem hp).1, ih h.2⟩

theorem smPut_mem {m : SMap α} {k : Nat} {v : α} {p : Nat × α} (h : p ∈ smPut m k v) : p = (k, v) ∨ p ∈ m := by
  induction m with
  | nil => simpa [smPut] using h
  | cons q m ih =>
    obtain ⟨k0, v0⟩ := q
    by_cases hk : k < k0
    · simpa [smPut, hk] using h
    · simp only [smPut, hk, if_false, List.mem_cons] at h ⊢
      rcases h with h | h
      · exact Or.inr (Or.inl h)
      · rcases ih h with h | h
        · exact Or.inl h
        · exact Or.inr (Or.inr h)

theorem smPut_pairwise {m : SMap α} {k : Nat} (v : α) (hk : ∀ p ∈ m, p.1 ≠ k)
    (h : m.Pairwise (fun p q => p.1 < q.1)) : (smPut m k v).Pairwise (fun p q => p.1 < q.1) := by
  induction m with
  | nil => simp [smPut]
  | cons q m ih =>
    obtain ⟨k0, v0⟩ := q
    have h0 : k0 ≠ k := hk (k0, v0) List.mem_cons_self
    have hp := List.pairwise_cons.mp h
    by_cases hlt : k < k0
    · rw [smPut, if_pos hlt, List.pairwise_cons]
      refine ⟨fun p hm => ?_, h⟩
      rcases List.mem_cons.mp hm with rfl | hm
      · exact hlt
      · exact lt_trans hlt (hp.1 p hm)
    · simp only [smPut, hlt, if_false, List.pairwise_cons]
      refine ⟨fun p hm => ?_, ih (fun p hm => hk p (List.mem_cons_of_mem _ hm)) hp.2⟩
      rcases smPut_mem hm with rfl | hm
      · show k0 < k; omega
      · exact hp.1 p hm

/-- A write keeps the canonical form. -/
theorem smSet_wf [DecidableEq α] {d : Nat → α} {m : SMap α} (k : Nat) (v : α) (h : SMap.wf d m = true) :
    SMap.wf d (smSet d m k v) = true := by
  rw [SMap.wf_iff] at h ⊢
  unfold smSet
  split
  · exact ⟨smDrop_pairwise k h.1, fun p hp => h.2 p (smDrop_mem hp).1⟩
  · next hv =>
    refine ⟨smPut_pairwise v (fun p hp => (smDrop_mem hp).2) (smDrop_pairwise k h.1), fun p hp => ?_⟩
    rcases smPut_mem hp with rfl | hp
    · exact hv
    · exact h.2 p (smDrop_mem hp).1

theorem smSetRange_wf [DecidableEq α] {d : Nat → α} (vs : List α) :
    ∀ {m : SMap α} (k : Nat), SMap.wf d m = true → SMap.wf d (smSetRange d m k vs) = true := by
  induction vs with
  | nil => intro m k h; exact h
  | cons v vs ih => intro m k h; exact ih (k + 1) (smSet_wf k v h)

theorem wf_filter [DecidableEq α] {d : Nat → α} {m : SMap α} (f : Nat × α → Bool) (h : SMap.wf d m = true) :
    SMap.wf d (m.filter f) = true := by
  rw [SMap.wf_iff] at h ⊢
  exact ⟨h.1.filter f, fun p hp => h.2 p (List.mem_of_mem_filter hp)⟩

theorem wf_nil [DecidableEq α] {d : Nat → α} : SMap.wf d ([] : SMap α) = true := by simp [SMap.wf]

/-- Two canonical maps that read the same at every key are the same. -/
theorem wf_ext [DecidableEq α] {d : Nat → α} {m n : SMap α} (hm : SMap.wf d m = true) (hn : SMap.wf d n = true)
    (h : ∀ k, smGet d m k = smGet d n k) : m = n := by
  rw [SMap.wf_iff] at hm hn
  induction m generalizing n with
  | nil =>
    cases n with
    | nil => rfl
    | cons q n =>
      obtain ⟨k, v⟩ := q
      have h1 := h k
      rw [smGet, smGet, if_pos rfl] at h1
      exact absurd h1.symm (hn.2 _ List.mem_cons_self)
  | cons p m ih =>
    obtain ⟨k, v⟩ := p
    have hpm := List.pairwise_cons.mp hm.1
    have nolist : ∀ (l : SMap α) (j : Nat), (∀ p ∈ l, j < p.1) → smGet d l j = d j := by
      intro l j hl
      induction l with
      | nil => rfl
      | cons q l ihl =>
        obtain ⟨a, b⟩ := q
        have h1 : j < a := hl (a, b) List.mem_cons_self
        rw [smGet, if_neg (by omega)]
        exact ihl (fun p hp => hl p (List.mem_cons_of_mem _ hp))
    cases n with
    | nil =>
      have h1 := h k
      rw [smGet, smGet, if_pos rfl] at h1
      exact absurd h1 (hm.2 _ List.mem_cons_self)
    | cons q n =>
      obtain ⟨k', v'⟩ := q
      have hpn := List.pairwise_cons.mp hn.1
      have hv : v ≠ d k := hm.2 (k, v) List.mem_cons_self
      have hv' : v' ≠ d k' := hn.2 (k', v') List.mem_cons_self
      have hk : k = k' := by
        rcases lt_trichotomy k k' with hlt | heq | hgt
        · have h1 := h k
          rw [smGet, if_pos rfl, nolist ((k', v') :: n) k (by
            intro p hp
            rcases List.mem_cons.mp hp with rfl | hp
            · exact hlt
            · exact lt_trans hlt (hpn.1 p hp))] at h1
          exact absurd h1 hv
        · exact heq
        · have h1 := h k'
          rw [nolist ((k, v) :: m) k' (by
            intro p hp
            rcases List.mem_cons.mp hp with rfl | hp
            · exact hgt
            · exact lt_trans hgt (hpm.1 p hp)), smGet, if_pos rfl] at h1
          exact absurd h1.symm hv'
      subst hk
      have hvv : v = v' := by simpa [smGet] using h k
      subst hvv
      congr 1
      refine ih ⟨hpm.2, fun p hp => hm.2 p (List.mem_cons_of_mem _ hp)⟩
        ⟨hpn.2, fun p hp => hn.2 p (List.mem_cons_of_mem _ hp)⟩ (fun j => ?_)
      by_cases hj : j = k
      · subst hj; rw [nolist m j hpm.1, nolist n j hpn.1]
      · simpa [smGet, hj] using h j

end Sys2Proof.Machine
end

