-- ==== Sys2Proof/Laws/Keeps.lean ====
section
/-!
SUPPORT. Laws/Keeps.lean: the calculus of `Keeps`: it is reflexive, passes along folds, and every write of a register
or of memory has it. The files Laws/Keeps<Module>.lean say it once of every shared operation.
-/

namespace Sys2Proof.Machine

theorem memWf_iff (s : State) : memWf s = true ↔
    SMap.wf regReset s.regs = true ∧ SMap.wf regReset s.latched = true ∧ SMap.wf (fun _ => 0) s.wide = true ∧
    SMap.wf zeroByte s.granary = true ∧ SMap.wf (cellarByte s.losses) s.cellar = true ∧ SMap.wf zeroByte s.host = true ∧
    SMap.wf bar2Byte s.bar2 = true := by
  simp [memWf, and_assoc]

theorem Keeps.refl {k : Bool} (s : State) : Keeps k s s := ⟨rfl, rfl, rfl, rfl, le_rfl, id, fun _ => ⟨rfl, rfl⟩⟩

theorem Keeps.trans {k : Bool} {a b c : State} (h : Keeps k a b) (j : Keeps k b c) : Keeps k a c :=
  ⟨j.part.trans h.part, j.pending.trans h.pending, j.porst.trans h.porst, j.lcs.trans h.lcs, h.time.trans j.time,
    fun w => j.mem (h.mem w), fun e => ⟨(j.lastSeal e).1.trans (h.lastSeal e).1, (j.lastSeal e).2.trans (h.lastSeal e).2⟩⟩

/-- What is kept but for the last seal. -/
theorem Keeps.weaken {k : Bool} {a b : State} (h : Keeps k a b) : Keeps false a b :=
  ⟨h.part, h.pending, h.porst, h.lcs, h.time, h.mem, fun e => nomatch e⟩

/-- A state that differs from `b` in nothing that `Keeps` speaks of. -/
theorem Keeps.upd {k : Bool} {a b : State} 
    (supply' : Supply) (linkUp' : Bool) (clock' : Nat) (updates' : Nat) (draws' : Nat) (husks' : List
    HuskPend) (accepted' : SMap (Option Nat)) (faults' : List (Nat × Nat)) (mismatches' : List (Nat ×
    Nat)) (damage' : SMap Nat) (chans' : SMap Chan) (flows' : SMap Flow) (engineCycles' : SMap Nat)
    (macTx' : SMap (List Byte)) (layers' : SMap Layer) (heads' : SMap Head) (lanes' : SMap LaneSt) (shf'
    : ShfSt) (rng' : RingSt) (tim' : TimeSt) (flights' : List Flight) (cell' : CellSt)
    (pwr' : PowerSt) (tch' : TouchSt) (encs' : SMap EncSt) (jobBytes' : SMap Nat) (overwritten' : List OldBytes)
    (chkTurns' : SMap (List Nat)) (chkAt' : SMap Nat) (response' : BusResp)
    (debugResponse' : BusResp)
    (h : Keeps k a b) :
    Keeps k a { b with supply := supply', linkUp := linkUp', clock := clock', updates := updates', draws := draws',
                       husks := husks', accepted := accepted', faults := faults', mismatches := mismatches',
                       damage := damage', chans := chans', flows := flows', engineCycles := engineCycles',
                       macTx := macTx', layers := layers', heads := heads', lanes := lanes', shf := shf', rng := rng',
                       tim := tim', flights := flights', cell := cell', pwr := pwr', tch := tch',
                       encs := encs', jobBytes := jobBytes', overwritten := overwritten',
                       chkTurns := chkTurns', chkAt := chkAt', response := response', debugResponse := debugResponse' } :=
  ⟨h.part, h.pending, h.porst, h.lcs, h.time, h.mem, h.lastSeal⟩

/-- The same with another record of the tick unit, whose last seal is the same. -/
theorem Keeps.updTck {k : Bool} {a b : State} 
    (supply' : Supply) (linkUp' : Bool) (clock' : Nat) (updates' : Nat) (draws' : Nat) (husks' : List
    HuskPend) (accepted' : SMap (Option Nat)) (faults' : List (Nat × Nat)) (mismatches' : List (Nat ×
    Nat)) (damage' : SMap Nat) (chans' : SMap Chan) (flows' : SMap Flow) (engineCycles' : SMap Nat)
    (macTx' : SMap (List Byte)) (layers' : SMap Layer) (heads' : SMap Head) (lanes' : SMap LaneSt) (shf'
    : ShfSt) (rng' : RingSt) (tim' : TimeSt) (flights' : List Flight) (cell' : CellSt)
    (pwr' : PowerSt) (tch' : TouchSt) (encs' : SMap EncSt) (jobBytes' : SMap Nat) (overwritten' : List OldBytes)
    (chkTurns' : SMap (List Nat)) (chkAt' : SMap Nat) (response' : BusResp)
    (debugResponse' : BusResp)
    (tck' : TickSt) (e : tck'.lastN = b.tck.lastN) (e' : tck'.lastT = b.tck.lastT) (h : Keeps k a b) :
    Keeps k a { b with supply := supply', linkUp := linkUp', clock := clock', updates := updates', draws := draws',
                       husks := husks', accepted := accepted', faults := faults', mismatches := mismatches',
                       damage := damage', chans := chans', flows := flows', engineCycles := engineCycles',
                       macTx := macTx', layers := layers', heads := heads', lanes := lanes', shf := shf', rng := rng',
                       tim := tim', tck := tck', flights := flights', cell := cell', pwr := pwr', tch := tch',
                       encs := encs', jobBytes := jobBytes', overwritten := overwritten',
                       chkTurns := chkTurns', chkAt := chkAt', response := response', debugResponse := debugResponse' } :=
  ⟨h.part, h.pending, h.porst, h.lcs, h.time, h.mem,
    fun w => ⟨e.trans (h.lastSeal w).1, e'.trans (h.lastSeal w).2⟩⟩

/-- A state that differs from `b` in the life cycle's record but not in its state. -/
theorem Keeps.updLcs {k : Bool} {a b : State} (x : LcsSt) (e : x.state = b.lcs.state) (h : Keeps k a b) :
    Keeps k a { b with lcs := x } :=
  ⟨h.part, h.pending, h.porst, e.trans h.lcs, h.time, h.mem, h.lastSeal⟩

/-- The latched registers take the registers' values (step 3 of a seal). -/
theorem Keeps.latch {k : Bool} {a b : State} (h : Keeps k a b) : Keeps k a { b with latched := b.regs } :=
  ⟨h.part, h.pending, h.porst, h.lcs, h.time, (fun w => by
    have := h.mem w
    rw [memWf_iff] at this ⊢
    exact ⟨this.1, this.1, this.2.2⟩), h.lastSeal⟩

/-- Granary, or the MSI-X table, as it is after reset. -/
theorem Keeps.granaryEmpty {k : Bool} {a b : State} (h : Keeps k a b) : Keeps k a { b with granary := [] } :=
  ⟨h.part, h.pending, h.porst, h.lcs, h.time, (fun w => by
    have := h.mem w
    rw [memWf_iff] at this ⊢
    exact ⟨this.1, this.2.1, this.2.2.1, wf_nil, this.2.2.2.2⟩), h.lastSeal⟩

theorem Keeps.bar2Empty {k : Bool} {a b : State} (h : Keeps k a b) : Keeps k a { b with bar2 := [] } :=
  ⟨h.part, h.pending, h.porst, h.lcs, h.time, (fun w => by
    have := h.mem w
    rw [memWf_iff] at this ⊢
    exact ⟨this.1, this.2.1, this.2.2.1, this.2.2.2.1, this.2.2.2.2.1, this.2.2.2.2.2.1, wf_nil⟩), h.lastSeal⟩

theorem Keeps.ite {k : Bool} {a x y : State} {c : Prop} [Decidable c] (hx : Keeps k a x) (hy : Keeps k a y) :
    Keeps k a (if c then x else y) := by
  split
  · exact hx
  · exact hy

theorem Keeps.foldl {k : Bool} {a : State} {β : Type} {f : State → β → State} (l : List β) {s : State} (h : Keeps k a s)
    (hf : ∀ t x, Keeps k a t → Keeps k a (f t x)) : Keeps k a (l.foldl f s) := by
  induction l generalizing s with
  | nil => exact h
  | cons x l ih => exact ih (hf s x h)

/-- A fold that carries more than the state. -/
theorem Keeps.foldlPair {k : Bool} {a : State} {β γ : Type} {f : State × γ → β → State × γ} (l : List β) {q : State × γ}
    (h : Keeps k a q.1) (hf : ∀ t x, Keeps k a t.1 → Keeps k a (f t x).1) : Keeps k a (l.foldl f q).1 := by
  induction l generalizing q with
  | nil => exact h
  | cons x l ih => exact ih (hf q x h)

/-- The state of a pair that a match has taken apart. -/
theorem Keeps.fst {k : Bool} {a t : State} {γ : Type} {q : State × γ} {c : γ} (e : q = (t, c)) (h : Keeps k a q.1) : Keeps k a t := by
  rw [e] at h; exact h

theorem Keeps.iteFst {k : Bool} {a : State} {γ : Type} {x y : State × γ} {c : Prop} [Decidable c] (hx : Keeps k a x.1)
    (hy : Keeps k a y.1) : Keeps k a (if c then x else y).1 := by
  split
  · exact hx
  · exact hy

/-- The same for a pair within a pair. -/
theorem Keeps.fstFst {k : Bool} {a : State} {γ δ : Type} {q : (State × γ) × δ} {p : State × γ} {c : δ} (e : q = (p, c))
    (h : Keeps k a q.1.1) : Keeps k a p.1 := by
  rw [e] at h; exact h

theorem Keeps.iteFstFst {k : Bool} {a : State} {γ δ : Type} {x y : (State × γ) × δ} {c : Prop} [Decidable c] (hx : Keeps k a x.1.1)
    (hy : Keeps k a y.1.1) : Keeps k a (if c then x else y).1.1 := by
  split
  · exact hx
  · exact hy

variable {k : Bool} {a s : State}

theorem id_keeps (h : Keeps k a s) : Keeps k a (id s) := h

theorem wr_keeps (off v : Nat) (h : Keeps k a s) : Keeps k a (wr s off v) :=
  ⟨h.part, h.pending, h.porst, h.lcs, h.time, (fun w => by
    have := h.mem w
    rw [memWf_iff] at this ⊢
    exact ⟨smSet_wf off _ this.1, this.2⟩), h.lastSeal⟩

theorem lwr_keeps (off v : Nat) (h : Keeps k a s) : Keeps k a (lwr s off v) :=
  ⟨h.part, h.pending, h.porst, h.lcs, h.time, (fun w => by
    have := h.mem w
    rw [memWf_iff] at this ⊢
    exact ⟨this.1, smSet_wf off _ this.2.1, this.2.2⟩), h.lastSeal⟩

theorem setFld_keeps (off hi lo v : Nat) (h : Keeps k a s) : Keeps k a (setFld s off hi lo v) := wr_keeps _ _ h
theorem setFlag_keeps (off i : Nat) (b : Bool) (h : Keeps k a s) : Keeps k a (setFlag s off i b) := wr_keeps _ _ h
theorem addReg_keeps (off n : Nat) (h : Keeps k a s) : Keeps k a (addReg s off n) := wr_keeps _ _ h
theorem addFld_keeps (off hi lo n : Nat) (h : Keeps k a s) : Keeps k a (addFld s off hi lo n) := wr_keeps _ _ h
theorem wr64_keeps (lo hi v : Nat) (h : Keeps k a s) : Keeps k a (wr64 s lo hi v) := wr_keeps _ _ (wr_keeps _ _ h)

theorem wideSet_keeps (lo v : Nat) (h : Keeps k a s) : Keeps k a (wideSet lo v s) := by
  refine wr_keeps _ _ ⟨h.part, h.pending, h.porst, h.lcs, h.time, fun w => ?_, h.lastSeal⟩
  have := h.mem w
  rw [memWf_iff] at this ⊢
  exact ⟨this.1, this.2.1, smSet_wf lo v this.2.2.1, this.2.2.2⟩

theorem wideLatch_keeps (lo hi : Nat) (h : Keeps k a s) : Keeps k a (wideLatch lo hi s) := wr_keeps _ _ (wr_keeps _ _ h)

theorem passUpdates_keeps (n : Nat) (h : Keeps k a s) : Keeps k a (passUpdates n s) :=
  ⟨h.part, h.pending, h.porst, h.lcs, h.time.trans (Nat.le_add_right _ _), h.mem, h.lastSeal⟩

theorem waitClock_keeps (t : Nat) (h : Keeps k a s) : Keeps k a (waitClock t s) := Keeps.ite h (passUpdates_keeps _ h)
theorem waitElapsed_keeps (t : Nat) (h : Keeps k a s) : Keeps k a (waitElapsed t s) := Keeps.ite h (passUpdates_keeps _ h)
theorem waitUpdates_keeps (u : Nat) (h : Keeps k a s) : Keeps k a (waitUpdates u s) := passUpdates_keeps _ h

theorem gWrite_keeps (x : Nat) (bs : List Byte) (h : Keeps k a s) : Keeps k a (gWrite s x bs) :=
  ⟨h.part, h.pending, h.porst, h.lcs, h.time, (fun w => by
    have := h.mem w
    rw [memWf_iff] at this ⊢
    exact ⟨this.1, this.2.1, this.2.2.1, smSetRange_wf bs x this.2.2.2.1, this.2.2.2.2⟩), h.lastSeal⟩

theorem gWrite32_keeps (x v : Nat) (h : Keeps k a s) : Keeps k a (gWrite32 s x v) := gWrite_keeps _ _ h

theorem b2Write_keeps (x : Nat) (bs : List Byte) (h : Keeps k a s) : Keeps k a (b2Write s x bs) :=
  ⟨h.part, h.pending, h.porst, h.lcs, h.time, (fun w => by
    have := h.mem w
    rw [memWf_iff] at this ⊢
    exact ⟨this.1, this.2.1, this.2.2.1, this.2.2.2.1, this.2.2.2.2.1, this.2.2.2.2.2.1,
      smSetRange_wf bs x this.2.2.2.2.2.2⟩), h.lastSeal⟩

theorem keepOld_keeps (sp x n : Nat) (h : Keeps k a s) : Keeps k a (keepOld sp x n s) :=
  ⟨h.part, h.pending, h.porst, h.lcs, h.time, h.mem, h.lastSeal⟩

theorem memStore_keeps (sp x : Nat) (bs : List Byte) (h : Keeps k a s) : Keeps k a (memStore s sp x bs) := by
  refine Keeps.ite ⟨h.part, h.pending, h.porst, h.lcs, h.time, fun w => ?_, h.lastSeal⟩
    ⟨h.part, h.pending, h.porst, h.lcs, h.time, fun w => ?_, h.lastSeal⟩ <;> have := h.mem w <;> rw [memWf_iff] at this ⊢
  · exact ⟨this.1, this.2.1, this.2.2.1, this.2.2.2.1, smSetRange_wf bs x this.2.2.2.2.1, this.2.2.2.2.2⟩
  · exact ⟨this.1, this.2.1, this.2.2.1, this.2.2.2.1, this.2.2.2.2.1, smSetRange_wf bs x this.2.2.2.2.2.1,
      this.2.2.2.2.2.2⟩

theorem hostStore_keeps (m : Cells) (h : Keeps k a s) : Keeps k a (hostStore m s) := by
  induction m generalizing s with
  | nil => exact h
  | cons c m ih =>
    obtain ⟨x, b⟩ := c
    refine ih ⟨h.part, h.pending, h.porst, h.lcs, h.time, fun w => ?_, h.lastSeal⟩
    have := h.mem w
    rw [memWf_iff] at this ⊢
    exact ⟨this.1, this.2.1, this.2.2.1, this.2.2.2.1, this.2.2.2.2.1, smSet_wf x b this.2.2.2.2.2.1,
      this.2.2.2.2.2.2⟩

/-! Commands that answer a next state -/

theorem next_keeps {t x : State} (hx : Keeps k a x)
    (e : (Host.Outcome.next x : Host.Outcome State Fault Refusal) = .next t) : Keeps k a t := by
  cases e; exact hx

theorem live_keeps {f : State → State} {t : State} (hf : ∀ s, Keeps k a s → Keeps k a (f s)) (kept : Keeps k a s)
    (e : live s f = .next t) : Keeps k a t :=
  next_keeps (Keeps.ite (hf s kept) kept) e

theorem liveAon_keeps {f : State → State} {t : State} (hf : ∀ s, Keeps k a s → Keeps k a (f s)) (kept : Keeps k a s)
    (e : liveAon s f = .next t) : Keeps k a t :=
  next_keeps (Keeps.ite (hf s kept) kept) e

/-- Every write of a memory keeps the canonical form, and it holds after reset. -/
theorem memory_operations_keep_wf (s : State) (h : memWf s = true) (x sp : Nat) (bs : List Byte) (m : Cells) :
    memWf (gWrite s x bs) = true ∧ memWf (b2Write s x bs) = true ∧ memWf (memStore s sp x bs) = true ∧
      memWf (hostStore m s) = true :=
  ⟨(gWrite_keeps (k := true) x bs (Keeps.refl s)).mem h, (b2Write_keeps (k := true) x bs (Keeps.refl s)).mem h,
    (memStore_keeps (k := true) sp x bs (Keeps.refl s)).mem h, (hostStore_keeps (k := true) m (Keeps.refl s)).mem h⟩

theorem memWf_reset : memWf State.reset = true := by decide

end Sys2Proof.Machine
end

