-- ==== Sys2Proof/Laws/KeepsOps.lean ====
section
/-!
SUPPORT. Laws/KeepsOps.lean: every operation of Machine/Ops.lean that answers a state has `Keeps`.
-/

namespace Sys2Proof.Machine

variable {hold : Bool} {pre s : State}

theorem guardNote_keeps (g : Nat) (sp : Nat) (write : Bool) (p : GPart) (kept : Keeps hold pre s) :
    Keeps hold pre (guardNote s g sp write p) := by
  unfold guardNote
  repeat' first
    | with_reducible assumption
    | intro _
    | with_reducible apply addReg_keeps | with_reducible apply wr64_keeps | with_reducible apply wr_keeps | with_reducible apply setFlag_keeps
    | with_reducible apply Keeps.ite

theorem msixSignal_keeps (v : Nat) (kept : Keeps hold pre s) :
    Keeps hold pre (msixSignal v s) := by
  unfold msixSignal
  repeat' first
    | with_reducible assumption
    | intro _
    | with_reducible apply b2Write_keeps | with_reducible apply memStore_keeps
    | with_reducible apply Keeps.ite

theorem pinRoute_keeps (p : Nat) (code : Nat) (kept : Keeps hold pre s) :
    Keeps hold pre (pinRoute p code s) := by
  unfold pinRoute
  repeat' first
    | with_reducible assumption
    | intro _
    | with_reducible apply addReg_keeps | with_reducible apply wr_keeps
    | with_reducible apply Keeps.ite

theorem ringAdvance_keeps (u : Nat) (kept : Keeps hold pre s) :
    Keeps hold pre (ringAdvance u s) := by
  unfold ringAdvance
  repeat' first
    | with_reducible assumption
    | intro _
    | with_reducible apply addFld_keeps | with_reducible apply msixSignal_keeps
    | with_reducible apply Keeps.ite
    | fail_if_no_progress (with_reducible apply Keeps.upd)

theorem markOnce_keeps (code : Nat) (key : Nat) (kept : Keeps hold pre s) :
    Keeps hold pre (markOnce code key s) := by
  unfold markOnce
  repeat' first
    | with_reducible assumption
    | intro _
    | with_reducible apply Keeps.ite
    | fail_if_no_progress (with_reducible refine Keeps.updTck (e := rfl) (e' := rfl) (h := ?_) ..)

theorem onceWith_keeps {again : Ev → State → State} (key : Nat) (ev : Ev) (hagain : ∀ x0 t, Keeps hold pre t → Keeps hold pre (again x0 t)) (kept : Keeps hold pre s) :
    Keeps hold pre (onceWith again key ev s) := by
  unfold onceWith
  repeat' first
    | with_reducible assumption
    | intro _
    | with_reducible apply addReg_keeps | with_reducible apply markOnce_keeps
    | with_reducible apply Keeps.ite
    | with_reducible apply hagain

theorem guardDenials_keeps {again : Ev → State → State} (g : Nat) (sp : Nat) (write : Bool) (ps : List GPart) (hagain : ∀ x0 t, Keeps hold pre t → Keeps hold pre (again x0 t)) (kept : Keeps hold pre s) :
    Keeps hold pre (guardDenials again g sp write ps s) := by
  unfold guardDenials
  repeat' first
    | with_reducible assumption
    | intro _
    | with_reducible apply guardNote_keeps | with_reducible apply onceWith_keeps
    | with_reducible apply Keeps.ite
    | with_reducible apply Keeps.foldl

theorem setPort_keeps (p : Nat) (x : PortSt) (kept : Keeps hold pre s) :
    Keeps hold pre (setPort p x s) := by
  unfold setPort
  repeat' first
    | with_reducible assumption
    | intro _
    | with_reducible apply Keeps.ite
    | fail_if_no_progress (with_reducible apply Keeps.upd)

theorem portCharge_keeps (p : Nat) (b : Nat) (urgent : Bool) (kept : Keeps hold pre s) :
    Keeps hold pre (portCharge p b urgent s) := by
  unfold portCharge
  repeat' first
    | with_reducible assumption
    | intro _
    | with_reducible apply setPort_keeps

theorem setDram_keeps (c : Nat) (x : DmcSt) (kept : Keeps hold pre s) :
    Keeps hold pre (setDram c x s) := by
  unfold setDram
  repeat' first
    | with_reducible assumption
    | intro _
    | with_reducible apply Keeps.ite
    | fail_if_no_progress (with_reducible apply Keeps.upd)

theorem setChanState_keeps (c : Nat) (v : Nat) (kept : Keeps hold pre s) :
    Keeps hold pre (setChanState c v s) := by
  unfold setChanState
  repeat' first
    | with_reducible assumption
    | intro _
    | with_reducible apply setFld_keeps

theorem chanRequest_keeps (c : Nat) (kept : Keeps hold pre s) :
    Keeps hold pre (chanRequest c s) := by
  unfold chanRequest
  repeat' first
    | with_reducible assumption
    | intro _
    | with_reducible apply addReg_keeps | with_reducible apply setDram_keeps | with_reducible apply setChanState_keeps
    | with_reducible apply Keeps.ite

theorem cellarRequest_keeps (a : Nat) (n : Nat) (kept : Keeps hold pre s) :
    Keeps hold pre (cellarRequest a n s) := by
  unfold cellarRequest
  repeat' first
    | with_reducible assumption
    | intro _
    | with_reducible apply chanRequest_keeps
    | with_reducible apply Keeps.ite
    | with_reducible apply Keeps.foldl

theorem portEnter_keeps (port : Nat) (sp : Nat) (urgent : Bool) (ps : List GPart) (kept : Keeps hold pre s) :
    Keeps hold pre (portEnter port sp urgent ps s) := by
  unfold portEnter
  repeat' first
    | with_reducible assumption
    | intro _
    | with_reducible apply cellarRequest_keeps | with_reducible apply portCharge_keeps
    | with_reducible apply Keeps.ite
    | with_reducible apply Keeps.foldl

theorem storeParts_keeps (sp x : Nat) (bs : List Byte) (ps : List GPart) (h : Keeps hold pre s) :
    Keeps hold pre (storeParts sp x bs ps s).1 := by
  induction ps generalizing s with
  | nil => exact h
  | cons p ps ih =>
    unfold storeParts
    split
    · split
      · exact ih (memStore_keeps _ _ _ h)
      · exact ih h
    · exact ih h

theorem dmaWriteWith_keeps {again : Ev → State → State} (g : Nat) (port : Nat) (sp : Nat) (a : Nat) (bs : List Byte) (hagain : ∀ x0 t, Keeps hold pre t → Keeps hold pre (again x0 t)) (kept : Keeps hold pre s) :
    Keeps hold pre (dmaWriteWith again g port sp a bs s).1 := by
  unfold dmaWriteWith
  repeat' first
    | with_reducible assumption
    | intro _
    | with_reducible apply guardDenials_keeps | with_reducible apply storeParts_keeps | with_reducible apply portEnter_keeps

theorem ringFaultWith_keeps {again : Ev → State → State} (u : Nat) (addr : Nat) (hagain : ∀ x0 t, Keeps hold pre t → Keeps hold pre (again x0 t)) (kept : Keeps hold pre s) :
    Keeps hold pre (ringFaultWith again u addr s) := by
  unfold ringFaultWith
  repeat' first
    | with_reducible assumption
    | intro _
    | with_reducible apply setFlag_keeps | with_reducible apply setFld_keeps
    | with_reducible apply Keeps.ite
    | with_reducible apply hagain

theorem granaryHeal_keeps (a : Nat) (n : Nat) (kept : Keeps hold pre s) :
    Keeps hold pre (granaryHeal a n s) := by
  unfold granaryHeal
  repeat' first
    | with_reducible assumption
    | intro _
    | with_reducible apply Keeps.ite
    | fail_if_no_progress (with_reducible apply Keeps.upd)

theorem granaryErrorWith_keeps {again : Ev → State → State} (w : Nat) (hagain : ∀ x0 t, Keeps hold pre t → Keeps hold pre (again x0 t)) (kept : Keeps hold pre s) :
    Keeps hold pre (granaryErrorWith again w s) := by
  unfold granaryErrorWith
  repeat' first
    | with_reducible assumption
    | intro _
    | with_reducible apply wr_keeps | with_reducible apply addReg_keeps
    | with_reducible apply Keeps.ite
    | with_reducible apply hagain

theorem ringCacheMet_keeps {again : Ev → State → State} (u : Nat) (hagain : ∀ x0 t, Keeps hold pre t → Keeps hold pre (again x0 t)) (kept : Keeps hold pre s) :
    Keeps hold pre (ringCacheMet again u s) := by
  unfold ringCacheMet
  repeat' first
    | with_reducible assumption
    | intro _
    | with_reducible apply granaryErrorWith_keeps | with_reducible apply granaryHeal_keeps
    | with_reducible apply Keeps.ite
    | with_reducible apply Keeps.foldl

theorem eqWriteWith_keeps {again : Ev → State → State} (e : Nat) (ev : Ev) (hagain : ∀ x0 t, Keeps hold pre t → Keeps hold pre (again x0 t)) (kept : Keeps hold pre s) :
    Keeps hold pre (eqWriteWith again e ev s).1 := by
  unfold eqWriteWith
  repeat' first
    | with_reducible assumption
    | intro _
    | with_reducible apply dmaWriteWith_keeps | with_reducible apply ringCacheMet_keeps | with_reducible apply ringAdvance_keeps | with_reducible apply ringFaultWith_keeps
    | with_reducible apply Keeps.ite | with_reducible apply Keeps.iteFst

theorem eqPostWith_keeps {again : Ev → State → State} (e : Nat) (ev : Ev) (hagain : ∀ x0 t, Keeps hold pre t → Keeps hold pre (again x0 t)) (kept : Keeps hold pre s) :
    Keeps hold pre (eqPostWith again e ev s) := by
  unfold eqPostWith
  repeat' first
    | with_reducible assumption
    | intro _
    | with_reducible apply addReg_keeps | with_reducible apply eqWriteWith_keeps
    | with_reducible apply Keeps.ite

theorem eventSignals_keeps (code : Nat) (h : Keeps hold pre s) : Keeps hold pre (eventSignals code s) := by
  unfold eventSignals
  dsimp only
  exact Keeps.ite (pinRoute_keeps _ _ (Keeps.ite (msixSignal_keeps _ h) h)) (Keeps.ite (msixSignal_keeps _ h) h)

theorem raiseFuel_keeps (n : Nat) (ev : Ev) (h : Keeps hold pre s) : Keeps hold pre (raiseFuel n ev s) := by
  induction n generalizing ev s with
  | zero => exact addReg_keeps _ _ h
  | succ n ih =>
    unfold raiseFuel
    exact eventSignals_keeps _ (Keeps.ite (eqPostWith_keeps _ _ (fun ev t ht => ih ev ht) (addReg_keeps _ _ h))
      (addReg_keeps _ _ h))

theorem raise_keeps (ev : Ev) (kept : Keeps hold pre s) :
    Keeps hold pre (raise ev s) := by
  unfold raise
  repeat' first
    | with_reducible assumption
    | intro _
    | with_reducible apply raiseFuel_keeps

theorem raiseOnce_keeps (key : Nat) (ev : Ev) (kept : Keeps hold pre s) :
    Keeps hold pre (raiseOnce key ev s) := by
  unfold raiseOnce
  repeat' first
    | with_reducible assumption
    | intro _
    | with_reducible apply onceWith_keeps | with_reducible apply raise_keeps

theorem raiseTotal_keeps (code : Nat) (unit : Nat) (first : Nat) (n : Nat) (kept : Keeps hold pre s) :
    Keeps hold pre (raiseTotal code unit first n s) := by
  unfold raiseTotal
  repeat' first
    | with_reducible assumption
    | intro _
    | with_reducible apply raiseOnce_keeps | with_reducible apply addReg_keeps
    | with_reducible apply Keeps.ite
    | fail_if_no_progress (with_reducible refine Keeps.updTck (e := rfl) (e' := rfl) (h := ?_) ..)

theorem raiseTotals_keeps (kept : Keeps hold pre s) :
    Keeps hold pre (raiseTotals s) := by
  unfold raiseTotals
  repeat' first
    | with_reducible assumption
    | intro _
    | with_reducible apply raise_keeps
    | with_reducible apply Keeps.ite
    | with_reducible apply Keeps.foldl | with_reducible apply Keeps.foldlPair
    | fail_if_no_progress (with_reducible refine Keeps.updTck (e := rfl) (e' := rfl) (h := ?_) ..)

theorem granaryCorrected_keeps (a : Nat) (kept : Keeps hold pre s) :
    Keeps hold pre (granaryCorrected a s) := by
  unfold granaryCorrected
  repeat' first
    | with_reducible assumption
    | intro _
    | with_reducible apply wr_keeps | with_reducible apply addReg_keeps | with_reducible apply raiseOnce_keeps

theorem granaryUncorrectable_keeps (a : Nat) (kept : Keeps hold pre s) :
    Keeps hold pre (granaryUncorrectable a s) := by
  unfold granaryUncorrectable
  repeat' first
    | with_reducible assumption
    | intro _
    | with_reducible apply granaryErrorWith_keeps | with_reducible apply raise_keeps
    | with_reducible apply Keeps.ite
    | fail_if_no_progress (with_reducible apply Keeps.upd)

theorem granaryMet_keeps (a : Nat) (n : Nat) (kept : Keeps hold pre s) :
    Keeps hold pre (granaryMet a n s) := by
  unfold granaryMet
  repeat' first
    | with_reducible assumption
    | intro _
    | with_reducible apply granaryErrorWith_keeps | with_reducible apply raise_keeps
    | with_reducible apply Keeps.ite
    | with_reducible apply Keeps.foldl

theorem cellarEcc_keeps (a : Nat) (e : Ecc) (kept : Keeps hold pre s) :
    Keeps hold pre (cellarEcc a e s) := by
  unfold cellarEcc
  repeat' first
    | with_reducible assumption
    | intro _
    | with_reducible apply raiseOnce_keeps | with_reducible apply addReg_keeps | with_reducible apply raise_keeps
    | with_reducible apply Keeps.ite
    | fail_if_no_progress (with_reducible apply Keeps.upd)
    | refine Keeps.fst (by assumption) ?_
    | dsimp only
    | split

theorem dmaWrite_keeps (g : Nat) (port : Nat) (sp : Nat) (a : Nat) (bs : List Byte) (kept : Keeps hold pre s) :
    Keeps hold pre (dmaWrite g port sp a bs s).1 := by
  unfold dmaWrite
  repeat' first
    | with_reducible assumption
    | intro _
    | with_reducible apply dmaWriteWith_keeps | with_reducible apply raise_keeps

theorem noteLink_keeps (es : LinkErrs) (kept : Keeps hold pre s) :
    Keeps hold pre (noteLink es s) := by
  unfold noteLink
  repeat' first
    | with_reducible assumption
    | intro _
    | with_reducible apply Keeps.ite
    | fail_if_no_progress (with_reducible apply Keeps.upd)

theorem linked_keeps (es : LinkErrs) {f : State → State} (hf : ∀ t, Keeps hold pre t → Keeps hold pre (f t)) (kept : Keeps hold pre s) :
    Keeps hold pre (linked es f s) := by
  unfold linked
  repeat' first
    | with_reducible assumption
    | intro _
    | with_reducible apply noteLink_keeps
    | with_reducible apply Keeps.ite
    | with_reducible apply hf

theorem linkRead_keeps (a : Nat) (n : Nat) (kept : Keeps hold pre s) :
    Keeps hold pre (linkRead a n s).1 := by
  unfold linkRead
  repeat' first
    | with_reducible assumption
    | intro _
    | with_reducible apply cellarEcc_keeps | with_reducible apply noteLink_keeps
    | with_reducible apply Keeps.ite | with_reducible apply Keeps.iteFst
    | with_reducible apply Keeps.foldl

theorem readParts_keeps (sp : Nat) (ps : List GPart) (h : Keeps hold pre s) : Keeps hold pre (readParts sp ps s).1 := by
  induction ps generalizing s with
  | nil => exact h
  | cons p ps ih =>
    unfold readParts
    refine ih ?_
    dsimp only
    have h1 := linkRead_keeps p.addr p.len h
    split
    · exact h
    · split
      · split
        · exact h1
        · exact h1
      · exact h

theorem dmaReadAs_keeps (urgent : Bool) (g : Nat) (port : Nat) (sp : Nat) (a : Nat) (n : Nat) (kept : Keeps hold pre s) :
    Keeps hold pre (dmaReadAs urgent g port sp a n s).1 := by
  unfold dmaReadAs
  repeat' first
    | with_reducible assumption
    | intro _
    | with_reducible apply guardDenials_keeps | with_reducible apply raise_keeps | with_reducible apply readParts_keeps | with_reducible apply portEnter_keeps

theorem dmaRead_keeps (g : Nat) (port : Nat) (sp : Nat) (a : Nat) (n : Nat) (kept : Keeps hold pre s) :
    Keeps hold pre (dmaRead g port sp a n s).1 := by
  unfold dmaRead
  repeat' first
    | with_reducible assumption
    | intro _
    | with_reducible apply dmaReadAs_keeps

theorem dmaWriteTold_keeps (g : Nat) (port : Nat) (sp : Nat) (a : Nat) (bs : List Byte) (kept : Keeps hold pre s) :
    Keeps hold pre (dmaWriteTold g port sp a bs s).1 := by
  unfold dmaWriteTold
  repeat' first
    | with_reducible assumption
    | intro _
    | with_reducible apply dmaWrite_keeps

theorem genStep_keeps (kept : Keeps hold pre s) :
    Keeps hold pre (genStep s) := by
  unfold genStep
  repeat' first
    | with_reducible assumption
    | intro _
    | with_reducible apply setFld_keeps | with_reducible apply addReg_keeps
    | with_reducible apply Keeps.ite
    | with_reducible apply Keeps.foldl

theorem noteOff_keeps (kind : Nat) (u : Nat) (kept : Keeps hold pre s) :
    Keeps hold pre (noteOff kind u s) := by
  unfold noteOff
  repeat' first
    | with_reducible assumption
    | intro _
    | with_reducible apply Keeps.ite
    | fail_if_no_progress (with_reducible apply Keeps.upd)

theorem setUnitThen_keeps (kind : Nat) (u : Nat) (new : Nat) (queued : Bool) {f : State → State} (hf : ∀ t, Keeps hold pre t → Keeps hold pre (f t)) (kept : Keeps hold pre s) :
    Keeps hold pre (setUnitThen kind u new queued f s) := by
  unfold setUnitThen
  repeat' first
    | with_reducible assumption
    | intro _
    | with_reducible apply genStep_keeps | with_reducible apply setFld_keeps | with_reducible apply noteOff_keeps | with_reducible apply raise_keeps
    | with_reducible apply Keeps.ite
    | with_reducible apply hf

theorem setUnit_keeps (kind : Nat) (u : Nat) (new : Nat) (queued : Bool) (kept : Keeps hold pre s) :
    Keeps hold pre (setUnit kind u new queued s) := by
  unfold setUnit
  repeat' first
    | with_reducible assumption
    | intro _
    | with_reducible apply setUnitThen_keeps

theorem updCmd_keeps (tag : Nat) (f : Cmd → Cmd) (kept : Keeps hold pre s) :
    Keeps hold pre (updCmd tag f s) := by
  unfold updCmd
  repeat' first
    | with_reducible assumption
    | intro _
    | with_reducible apply Keeps.ite
    | fail_if_no_progress (with_reducible apply Keeps.upd)

theorem dropCmd_keeps (tag : Nat) (kept : Keeps hold pre s) :
    Keeps hold pre (dropCmd tag s) := by
  unfold dropCmd
  repeat' first
    | with_reducible assumption
    | intro _
    | with_reducible apply Keeps.ite
    | fail_if_no_progress (with_reducible apply Keeps.upd)

theorem finish_keeps (tag : Nat) (status : Nat) (r0 : Nat) (r1 : Nat) (r2 : Nat) (kept : Keeps hold pre s) :
    Keeps hold pre (finish tag status r0 r1 r2 s) := by
  unfold finish
  repeat' first
    | with_reducible assumption
    | intro _
    | with_reducible apply updCmd_keeps

theorem finishNow_keeps (tag : Nat) (status : Nat) (r0 : Nat) (r1 : Nat) (r2 : Nat) (kept : Keeps hold pre s) :
    Keeps hold pre (finishNow tag status r0 r1 r2 s) := by
  unfold finishNow
  repeat' first
    | with_reducible assumption
    | intro _
    | with_reducible apply updCmd_keeps

theorem waitCmd_keeps (tag : Nat) (aux : List Nat) (kept : Keeps hold pre s) :
    Keeps hold pre (waitCmd tag aux s) := by
  unfold waitCmd
  repeat' first
    | with_reducible assumption
    | intro _
    | with_reducible apply updCmd_keeps

theorem onCmd_keeps (tag : Nat) (opcode : Nat) {f : Cmd → State → State} (hf : ∀ x0 t, Keeps hold pre t → Keeps hold pre (f x0 t)) (kept : Keeps hold pre s) :
    Keeps hold pre (onCmd tag opcode s f) := by
  unfold onCmd
  repeat' first
    | with_reducible assumption
    | intro _
    | with_reducible apply Keeps.ite
    | fail_if_no_progress (with_reducible apply Keeps.upd)
    | refine Keeps.fst (by assumption) ?_
    | with_reducible apply hf
    | dsimp only
    | split

theorem onWaiting_keeps (tag : Nat) (opcode : Nat) {f : Cmd → State → State} (hf : ∀ x0 t, Keeps hold pre t → Keeps hold pre (f x0 t)) (kept : Keeps hold pre s) :
    Keeps hold pre (onWaiting tag opcode s f) := by
  unfold onWaiting
  repeat' first
    | with_reducible assumption
    | intro _
    | with_reducible apply Keeps.ite
    | fail_if_no_progress (with_reducible apply Keeps.upd)
    | refine Keeps.fst (by assumption) ?_
    | with_reducible apply hf
    | dsimp only
    | split

theorem finishFault_keeps (c : Cmd) (a : Nat) (g : Nat) (kept : Keeps hold pre s) :
    Keeps hold pre (finishFault c a g s) := by
  unfold finishFault
  repeat' first
    | with_reducible assumption
    | intro _
    | with_reducible apply finish_keeps

end Sys2Proof.Machine
end

