-- ==== Sys2Proof/Laws/KeepsHusk.lean ====
section
/-!
SUPPORT. Laws/KeepsHusk.lean: every operation of Machine/Husk.lean that answers a state has `Keeps`.
-/

namespace Sys2Proof.Machine

variable {hold : Bool} {pre s : State}

theorem huskStore_keeps (off : Nat) (v : Nat) (kept : Keeps hold pre s) :
    Keeps hold pre (huskStore off v s) := by
  unfold huskStore
  repeat' first
    | with_reducible assumption
    | intro _
    | with_reducible apply wr_keeps

theorem huskDrop_keeps (off : Nat) (kept : Keeps hold pre s) :
    Keeps hold pre (huskDrop off s) := by
  unfold huskDrop
  repeat' first
    | with_reducible assumption
    | intro _
    | with_reducible apply Keeps.ite
    | fail_if_no_progress (with_reducible apply Keeps.upd)

theorem huskReject_keeps (cause : Nat) (off : Nat) (kept : Keeps hold pre s) :
    Keeps hold pre (huskReject cause off s) := by
  unfold huskReject
  repeat' first
    | with_reducible assumption
    | intro _
    | with_reducible apply setFlag_keeps | with_reducible apply wr_keeps | with_reducible apply raise_keeps

theorem huskExpire_keeps (off : Nat) (kept : Keeps hold pre s) :
    Keeps hold pre (huskExpire off s) := by
  unfold huskExpire
  repeat' first
    | with_reducible assumption
    | intro _
    | with_reducible apply huskReject_keeps | with_reducible apply huskDrop_keeps
    | with_reducible apply Keeps.ite
    | fail_if_no_progress (with_reducible apply Keeps.upd)
    | refine Keeps.fst (by assumption) ?_
    | dsimp only
    | split

theorem huskV_keeps (off : Nat) (v : Nat) (kept : Keeps hold pre s) :
    Keeps hold pre (huskV off v s) := by
  unfold huskV
  repeat' first
    | with_reducible assumption
    | intro _
    | with_reducible apply huskExpire_keeps | with_reducible apply huskReject_keeps | with_reducible apply huskDrop_keeps
    | with_reducible apply Keeps.ite
    | fail_if_no_progress (with_reducible apply Keeps.upd)

theorem huskK_keeps (off : Nat) (k : Nat) {effect : Nat → State → State} (heffect : ∀ x0 t, Keeps hold pre t → Keeps hold pre (effect x0 t)) (kept : Keeps hold pre s) :
    Keeps hold pre (huskK off k effect s) := by
  unfold huskK
  repeat' first
    | with_reducible assumption
    | intro _
    | with_reducible apply huskExpire_keeps | with_reducible apply huskReject_keeps | with_reducible apply huskDrop_keeps
    | with_reducible apply Keeps.ite
    | fail_if_no_progress (with_reducible apply Keeps.upd)
    | refine Keeps.fst (by assumption) ?_
    | with_reducible apply heffect
    | dsimp only
    | split

theorem winAccept_keeps (off : Nat) (v : Nat) (kept : Keeps hold pre s) :
    Keeps hold pre (winAccept off v s) := by
  unfold winAccept
  repeat' first
    | with_reducible assumption
    | intro _
    | with_reducible apply Keeps.ite
    | fail_if_no_progress (with_reducible apply Keeps.upd)

theorem livePair_keeps {off : Nat} {f : State → State} {t : State} (hf : ∀ s, Keeps hold pre s → Keeps hold pre (f s))
    (kept : Keeps hold pre s) (e : livePair off s f = .next t) : Keeps hold pre t :=
  next_keeps (Keeps.ite (hf s kept) kept) e

theorem execHuskVWrite_keeps (off : Nat) (v : Word) {post : State} (kept : Keeps hold pre s) (e : execHuskVWrite off v s = .next post) :
    Keeps hold pre post := by
  unfold execHuskVWrite at e
  refine livePair_keeps (fun s kept => ?_) kept e
  clear e
  repeat' first
    | with_reducible assumption
    | intro _
    | with_reducible apply huskV_keeps

theorem execHuskPendingTimeout_keeps (off : Nat) {post : State} (kept : Keeps hold pre s) (e : execHuskPendingTimeout off s = .next post) :
    Keeps hold pre post := by
  unfold execHuskPendingTimeout at e
  refine livePair_keeps (fun s kept => ?_) kept e
  clear e
  repeat' first
    | with_reducible assumption
    | intro _
    | with_reducible apply huskExpire_keeps | with_reducible apply waitUpdates_keeps
    | with_reducible apply Keeps.ite
    | fail_if_no_progress (with_reducible apply Keeps.upd)
    | refine Keeps.fst (by assumption) ?_
    | dsimp only
    | split

end Sys2Proof.Machine
end

