-- ==== Sys2Proof/Laws/KeepsLcs.lean ====
section
/-!
SUPPORT. Laws/KeepsLcs.lean: every operation of Machine/Lcs.lean that answers a state has `Keeps`.
-/

namespace Sys2Proof.Machine

variable {hold : Bool} {pre s : State}

theorem setKeySlot_keeps (k : Nat) (x : KeySlot) (kept : Keeps hold pre s) :
    Keeps hold pre (setKeySlot k x s) := by
  unfold setKeySlot
  repeat' first
    | with_reducible assumption
    | intro _
    | with_reducible apply Keeps.ite
    | fail_if_no_progress (with_reducible apply Keeps.upd)
    | fail_if_no_progress (with_reducible refine Keeps.updLcs _ rfl ?_)

theorem renewNonce_keeps (kept : Keeps hold pre s) :
    Keeps hold pre (renewNonce s) := by
  unfold renewNonce
  repeat' first
    | with_reducible assumption
    | intro _
    | with_reducible apply wr_keeps
    | with_reducible apply Keeps.ite
    | with_reducible apply Keeps.foldl | with_reducible apply Keeps.foldlPair
    | fail_if_no_progress (with_reducible apply Keeps.upd)

theorem destroySlots_keeps (kept : Keeps hold pre s) :
    Keeps hold pre (destroySlots s) := by
  unfold destroySlots
  repeat' first
    | with_reducible assumption
    | intro _
    | with_reducible apply setKeySlot_keeps
    | with_reducible apply Keeps.ite
    | with_reducible apply Keeps.foldl

theorem sealedRegions_keeps (kept : Keeps hold pre s) :
    Keeps hold pre (sealedRegions s) := by
  unfold sealedRegions
  repeat' first
    | with_reducible assumption
    | intro _
    | with_reducible apply wr_keeps
    | with_reducible apply Keeps.ite
    | with_reducible apply Keeps.foldl

theorem reqBlow_keeps (v : Nat) (fuseOk : Bool) (kept : Keeps hold pre s) :
    Keeps hold pre (reqBlow v fuseOk s) := by
  unfold reqBlow
  repeat' first
    | with_reducible assumption
    | intro _
    | with_reducible apply setKeySlot_keeps
    | with_reducible apply Keeps.ite
    | fail_if_no_progress (with_reducible apply Keeps.upd)
    | fail_if_no_progress (with_reducible refine Keeps.updLcs _ rfl ?_)

theorem reqPending_keeps (v : Nat) (kept : Keeps hold pre s) :
    Keeps hold pre (reqPending v s) := by
  unfold reqPending
  repeat' first
    | with_reducible assumption
    | intro _
    | with_reducible apply raise_keeps | with_reducible apply setFlag_keeps | with_reducible apply setFld_keeps
    | with_reducible apply Keeps.ite

theorem reqReport_keeps (v : Nat) (result : Nat) (kept : Keeps hold pre s) :
    Keeps hold pre (reqReport v result s) := by
  unfold reqReport
  repeat' first
    | with_reducible assumption
    | intro _
    | with_reducible apply setFld_keeps | with_reducible apply raise_keeps

theorem lcsEffect_keeps (v : Nat) (kept : Keeps hold pre s) :
    Keeps hold pre (lcsEffect v s) := by
  unfold lcsEffect
  repeat' first
    | with_reducible assumption
    | intro _
    | with_reducible apply reqReport_keeps | with_reducible apply setFlag_keeps | with_reducible apply huskStore_keeps
    | with_reducible apply Keeps.ite
    | fail_if_no_progress (with_reducible apply Keeps.upd)
    | fail_if_no_progress (with_reducible refine Keeps.updLcs _ rfl ?_)

theorem liveLcs_keeps {f : State → State} {t : State} (hf : ∀ s, Keeps hold pre s → Keeps hold pre (f s))
    (kept : Keeps hold pre s) (e : liveLcs s f = .next t) : Keeps hold pre t :=
  next_keeps (Keeps.ite (hf s kept) kept) e

theorem execLcsRequest_keeps (k : Word) {post : State} (kept : Keeps hold pre s) (e : execLcsRequest k s = .next post) :
    Keeps hold pre post := by
  unfold execLcsRequest at e
  refine liveLcs_keeps (fun s kept => ?_) kept e
  clear e
  repeat' first
    | with_reducible assumption
    | intro _
    | with_reducible apply huskK_keeps | with_reducible apply lcsEffect_keeps

theorem lcsDone_keeps (v : Nat) (fuseOk : Bool) (kept : Keeps hold pre s) :
    Keeps hold pre (lcsDone v fuseOk s) := by
  unfold lcsDone
  repeat' first
    | with_reducible assumption
    | intro _
    | with_reducible apply setFlag_keeps | with_reducible apply reqBlow_keeps | with_reducible apply reqReport_keeps | with_reducible apply renewNonce_keeps
    | with_reducible apply reqPending_keeps
    | with_reducible apply Keeps.ite
    | fail_if_no_progress (with_reducible apply Keeps.upd)
    | fail_if_no_progress (with_reducible refine Keeps.updLcs _ rfl ?_)

theorem execLcsRequestDone_keeps (fuseOk : Bool) {post : State} (kept : Keeps hold pre s) (e : execLcsRequestDone fuseOk s = .next post) :
    Keeps hold pre post := by
  unfold execLcsRequestDone at e
  refine liveLcs_keeps (fun s kept => ?_) kept e
  clear e
  repeat' first
    | with_reducible assumption
    | intro _
    | with_reducible apply lcsDone_keeps
    | with_reducible apply Keeps.ite
    | fail_if_no_progress (with_reducible apply Keeps.upd)
    | refine Keeps.fst (by assumption) ?_
    | dsimp only
    | split

theorem reqBufWrite_keeps (off : Nat) (v : Nat) (kept : Keeps hold pre s) :
    Keeps hold pre (reqBufWrite off v s) := by
  unfold reqBufWrite
  repeat' first
    | with_reducible assumption
    | intro _
    | with_reducible apply wr_keeps
    | with_reducible apply Keeps.ite

theorem execDebugAuth_keeps (sig : List Byte) {post : State} (kept : Keeps hold pre s) (e : execDebugAuth sig s = .next post) :
    Keeps hold pre post := by
  unfold execDebugAuth at e
  refine liveLcs_keeps (fun s kept => ?_) kept e
  clear e
  repeat' first
    | with_reducible assumption
    | intro _
    | with_reducible apply Keeps.ite
    | fail_if_no_progress (with_reducible apply Keeps.upd)
    | fail_if_no_progress (with_reducible refine Keeps.updLcs _ rfl ?_)

theorem execDebugCoreControl_keeps (core : Fin 4) (op : CoreOp) {post : State} (kept : Keeps hold pre s) (e : execDebugCoreControl core op s = .next post) :
    Keeps hold pre post := by
  unfold execDebugCoreControl at e
  refine live_keeps (fun s kept => ?_) kept e
  clear e
  repeat' first
    | with_reducible assumption
    | intro _
    | with_reducible apply Keeps.ite
    | fail_if_no_progress (with_reducible apply Keeps.upd)
    | fail_if_no_progress (with_reducible refine Keeps.updLcs _ rfl ?_)
    | refine Keeps.fst (by assumption) ?_
    | dsimp only
    | split

theorem keysOff_keeps (kept : Keeps hold pre s) :
    Keeps hold pre (keysOff s) := by
  unfold keysOff
  repeat' first
    | with_reducible assumption
    | intro _
    | with_reducible apply wr_keeps
    | with_reducible apply Keeps.ite
    | with_reducible apply Keeps.foldl | with_reducible apply Keeps.foldlPair
    | fail_if_no_progress (with_reducible apply Keeps.upd)

theorem demalLeaves_keeps (new : Nat) (kept : Keeps hold pre s) :
    Keeps hold pre (demalLeaves new s) := by
  unfold demalLeaves
  repeat' first
    | with_reducible assumption
    | intro _
    | with_reducible apply finish_keeps | with_reducible apply keysOff_keeps
    | with_reducible apply Keeps.ite
    | with_reducible apply Keeps.foldl | with_reducible apply Keeps.foldlPair
    | fail_if_no_progress (with_reducible apply Keeps.upd)

theorem setDemal_keeps (new : Nat) (kept : Keeps hold pre s) :
    Keeps hold pre (setDemal new s) := by
  unfold setDemal
  repeat' first
    | with_reducible assumption
    | intro _
    | with_reducible apply demalLeaves_keeps | with_reducible apply raise_keeps | with_reducible apply setFld_keeps
    | with_reducible apply Keeps.ite

theorem demalLoad_keeps (copy : Nat) (img : List Byte) (kept : Keeps hold pre s) :
    Keeps hold pre (demalLoad copy img s) := by
  unfold demalLoad
  repeat' first
    | with_reducible assumption
    | intro _
    | with_reducible apply gWrite_keeps | with_reducible apply setFld_keeps | with_reducible apply wr_keeps | with_reducible apply setDemal_keeps
    | with_reducible apply Keeps.ite
    | fail_if_no_progress (with_reducible apply Keeps.upd)
    | fail_if_no_progress (with_reducible refine Keeps.updLcs _ rfl ?_)

theorem execDemalBootDone_keeps (copyA : List Byte) (copyB : List Byte) {post : State} (kept : Keeps hold pre s) (e : execDemalBootDone copyA copyB s = .next post) :
    Keeps hold pre post := by
  unfold execDemalBootDone at e
  refine live_keeps (fun s kept => ?_) kept e
  clear e
  repeat' first
    | with_reducible assumption
    | intro _
    | with_reducible apply demalLoad_keeps | with_reducible apply setDemal_keeps
    | with_reducible apply Keeps.ite

theorem demalHalt_keeps (kept : Keeps hold pre s) :
    Keeps hold pre (demalHalt s) := by
  unfold demalHalt
  repeat' first
    | with_reducible assumption
    | intro _
    | with_reducible apply setDemal_keeps | with_reducible apply raise_keeps

theorem execDemalStall_keeps {post : State} (kept : Keeps hold pre s) (e : execDemalStall s = .next post) :
    Keeps hold pre post := by
  unfold execDemalStall at e
  refine live_keeps (fun s kept => ?_) kept e
  clear e
  repeat' first
    | with_reducible assumption
    | intro _
    | with_reducible apply demalHalt_keeps
    | with_reducible apply Keeps.ite

end Sys2Proof.Machine
end

