-- ==== Sys2Proof/Laws/KeepsCellar.lean ====
section
/-!
SUPPORT. Laws/KeepsCellar.lean: every operation of Machine/Cellar.lean that answers a state has `Keeps`.
-/

namespace Sys2Proof.Machine

variable {hold : Bool} {pre s : State}

theorem cellarLose_keeps (len mask : Nat) (h : Keeps hold pre s) : Keeps hold pre (cellarLose len mask s) := by
  refine ⟨h.part, h.pending, h.porst, h.lcs, h.time, fun w => ?_, h.lastSeal⟩
  have := h.mem w
  rw [memWf_iff] at this ⊢
  refine ⟨this.1, this.2.1, this.2.2.1, this.2.2.2.1, ?_, this.2.2.2.2.2⟩
  have hc := (SMap.wf_iff _ _).mp this.2.2.2.2.1
  refine (SMap.wf_iff _ _).mpr ⟨hc.1.filter _, fun p hp => ?_⟩
  have hb : bit mask (p.1 / len) = true := (List.mem_filter.mp hp).2
  show p.2 ≠ if bit mask (p.1 / len) then cellarByte s.losses p.1 else _
  rw [hb]
  exact hc.2 p (List.mem_filter.mp hp).1

theorem dmcCfgWrite_keeps (v : Nat) (kept : Keeps hold pre s) :
    Keeps hold pre (dmcCfgWrite v s) := by
  unfold dmcCfgWrite
  repeat' first
    | with_reducible assumption
    | intro _
    | with_reducible apply wr_keeps
    | with_reducible apply Keeps.ite

theorem trainStart_keeps (c : Nat) (kept : Keeps hold pre s) :
    Keeps hold pre (trainStart c s) := by
  unfold trainStart
  repeat' first
    | with_reducible assumption
    | intro _
    | with_reducible apply setDram_keeps | with_reducible apply setChanState_keeps
    | with_reducible apply Keeps.ite

theorem dmcCtrlWrite_keeps (v : Nat) (kept : Keeps hold pre s) :
    Keeps hold pre (dmcCtrlWrite v s) := by
  unfold dmcCtrlWrite
  repeat' first
    | with_reducible assumption
    | intro _
    | with_reducible apply setFlag_keeps | with_reducible apply trainStart_keeps
    | with_reducible apply Keeps.ite
    | with_reducible apply Keeps.foldl

theorem execDmcTrain_keeps (v : Word) {post : State} (kept : Keeps hold pre s) (e : execDmcTrain v s = .next post) :
    Keeps hold pre post := by
  unfold execDmcTrain at e
  refine live_keeps (fun s kept => ?_) kept e
  clear e
  repeat' first
    | with_reducible assumption
    | intro _
    | with_reducible apply dmcCtrlWrite_keeps

theorem dmcReady_keeps (kept : Keeps hold pre s) :
    Keeps hold pre (dmcReady s) := by
  unfold dmcReady
  repeat' first
    | with_reducible assumption
    | intro _
    | with_reducible apply setFld_keeps | with_reducible apply setFlag_keeps | with_reducible apply cellarLose_keeps | with_reducible apply raise_keeps
    | with_reducible apply Keeps.ite
    | with_reducible apply Keeps.foldl | with_reducible apply Keeps.foldlPair
    | fail_if_no_progress (with_reducible apply Keeps.upd)

theorem trainDone_keeps (c : Nat) (fail : Nat) (density : Nat) (rfm : Bool) (kept : Keeps hold pre s) :
    Keeps hold pre (trainDone c fail density rfm s) := by
  unfold trainDone
  repeat' first
    | with_reducible assumption
    | intro _
    | with_reducible apply setDram_keeps | with_reducible apply raise_keeps | with_reducible apply setFld_keeps | with_reducible apply setChanState_keeps
    | with_reducible apply setFlag_keeps | with_reducible apply dmcReady_keeps
    | with_reducible apply Keeps.ite

theorem execDmcTrainDone_keeps (c : Fin 8) (fail : Fin 9) (density : Fin 8) (rfm : Bool) {post : State} (kept : Keeps hold pre s) (e : execDmcTrainDone c fail density rfm s = .next post) :
    Keeps hold pre post := by
  unfold execDmcTrainDone at e
  refine live_keeps (fun s kept => ?_) kept e
  clear e
  repeat' first
    | with_reducible assumption
    | intro _
    | with_reducible apply trainDone_keeps
    | with_reducible apply Keeps.ite

theorem setDebt_keeps (c : Nat) (d : Nat) (kept : Keeps hold pre s) :
    Keeps hold pre (setDebt c d s) := by
  unfold setDebt
  repeat' first
    | with_reducible assumption
    | intro _
    | with_reducible apply setDram_keeps

theorem catchupEnter_keeps (c : Nat) (kept : Keeps hold pre s) :
    Keeps hold pre (catchupEnter c s) := by
  unfold catchupEnter
  repeat' first
    | with_reducible assumption
    | intro _
    | with_reducible apply setDram_keeps | with_reducible apply addReg_keeps | with_reducible apply setFlag_keeps | with_reducible apply raise_keeps
    | with_reducible apply Keeps.ite

theorem execRefreshCatchupEnter_keeps (c : Fin 8) {post : State} (kept : Keeps hold pre s) (e : execRefreshCatchupEnter c s = .next post) :
    Keeps hold pre post := by
  unfold execRefreshCatchupEnter at e
  refine live_keeps (fun s kept => ?_) kept e
  clear e
  repeat' first
    | with_reducible assumption
    | intro _
    | with_reducible apply catchupEnter_keeps

theorem execRefreshIssue_keeps (c : Fin 8) (idle : Bool) {post : State} (kept : Keeps hold pre s) (e : execRefreshIssue c idle s = .next post) :
    Keeps hold pre post := by
  unfold execRefreshIssue at e
  refine live_keeps (fun s kept => ?_) kept e
  clear e
  repeat' first
    | with_reducible assumption
    | intro _
    | with_reducible apply waitElapsed_keeps | with_reducible apply setDram_keeps
    | with_reducible apply Keeps.ite

theorem catchupLeave_keeps (c : Nat) (d : Nat) (kept : Keeps hold pre s) :
    Keeps hold pre (catchupLeave c d s) := by
  unfold catchupLeave
  repeat' first
    | with_reducible assumption
    | intro _
    | with_reducible apply wr_keeps | with_reducible apply setFlag_keeps | with_reducible apply raise_keeps | with_reducible apply setDram_keeps

theorem execRefabComplete_keeps (c : Fin 8) {post : State} (kept : Keeps hold pre s) (e : execRefabComplete c s = .next post) :
    Keeps hold pre post := by
  unfold execRefabComplete at e
  refine live_keeps (fun s kept => ?_) kept e
  clear e
  repeat' first
    | with_reducible assumption
    | intro _
    | with_reducible apply setDram_keeps | with_reducible apply catchupLeave_keeps
    | with_reducible apply Keeps.ite

theorem mr4Read_keeps (c : Nat) (v : Nat) (kept : Keeps hold pre s) :
    Keeps hold pre (mr4Read c v s) := by
  unfold mr4Read
  repeat' first
    | with_reducible assumption
    | intro _
    | with_reducible apply setDebt_keeps | with_reducible apply setFlag_keeps | with_reducible apply raise_keeps | with_reducible apply catchupEnter_keeps
    | with_reducible apply Keeps.ite

theorem mr4Seal_keeps (obs : List (Fin 8 × Byte)) (kept : Keeps hold pre s) :
    Keeps hold pre (mr4Seal obs s) := by
  unfold mr4Seal
  repeat' first
    | with_reducible assumption
    | intro _
    | with_reducible apply mr4Read_keeps | with_reducible apply wr_keeps
    | with_reducible apply Keeps.ite
    | with_reducible apply Keeps.foldl

theorem trackRun_keeps (c : Nat) (good : Bool) (kept : Keeps hold pre s) :
    Keeps hold pre (trackRun c good s) := by
  unfold trackRun
  repeat' first
    | with_reducible assumption
    | intro _
    | with_reducible apply addReg_keeps | with_reducible apply setDram_keeps | with_reducible apply setFlag_keeps | with_reducible apply raise_keeps
    | with_reducible apply Keeps.ite

theorem trackSeal_keeps (kept : Keeps hold pre s) :
    Keeps hold pre (trackSeal s) := by
  unfold trackSeal
  repeat' first
    | with_reducible assumption
    | intro _
    | with_reducible apply setDram_keeps
    | with_reducible apply Keeps.ite
    | with_reducible apply Keeps.foldl

theorem execDmcTrackRun_keeps (c : Fin 8) (good : Bool) {post : State} (kept : Keeps hold pre s) (e : execDmcTrackRun c good s = .next post) :
    Keeps hold pre post := by
  unfold execDmcTrackRun at e
  refine live_keeps (fun s kept => ?_) kept e
  clear e
  repeat' first
    | with_reducible assumption
    | intro _
    | with_reducible apply trackRun_keeps | with_reducible apply markOnce_keeps
    | with_reducible apply Keeps.ite

theorem portThrottle_keeps (p : Nat) (kept : Keeps hold pre s) :
    Keeps hold pre (portThrottle p s) := by
  unfold portThrottle
  repeat' first
    | with_reducible assumption
    | intro _
    | with_reducible apply setPort_keeps

theorem rowDisturb_keeps (c : Nat) (rank : Nat) (bank : Nat) (row : Nat) (port : Nat) (kept : Keeps hold pre s) :
    Keeps hold pre (rowDisturb c rank bank row port s) := by
  unfold rowDisturb
  repeat' first
    | with_reducible assumption
    | intro _
    | with_reducible apply wr_keeps | with_reducible apply addReg_keeps | with_reducible apply raiseOnce_keeps | with_reducible apply setDram_keeps
    | with_reducible apply portThrottle_keeps
    | with_reducible apply Keeps.ite

theorem rowActivate_keeps (c : Nat) (rank : Nat) (bank : Nat) (row : Nat) (port : Nat) (acts : Nat) (kept : Keeps hold pre s) :
    Keeps hold pre (rowActivate c rank bank row port acts s) := by
  unfold rowActivate
  repeat' first
    | with_reducible assumption
    | intro _
    | with_reducible apply setDram_keeps | with_reducible apply rowDisturb_keeps
    | with_reducible apply Keeps.ite

theorem execRowDisturbDetect_keeps (c : Fin 8) (rank : Fin 2) (bank : Fin 16) (row : Fin 262144) (o : RowActs) {post : State} (kept : Keeps hold pre s) (e : execRowDisturbDetect c rank bank row o s = .next post) :
    Keeps hold pre post := by
  unfold execRowDisturbDetect at e
  refine live_keeps (fun s kept => ?_) kept e
  clear e
  repeat' first
    | with_reducible assumption
    | intro _
    | with_reducible apply rowActivate_keeps
    | with_reducible apply Keeps.ite

theorem execRowDisturbThrottleEnd_keeps (port : Fin 24) {post : State} (kept : Keeps hold pre s) (e : execRowDisturbThrottleEnd port s = .next post) :
    Keeps hold pre post := by
  unfold execRowDisturbThrottleEnd at e
  refine live_keeps (fun s kept => ?_) kept e
  clear e
  repeat' first
    | with_reducible assumption
    | intro _
    | with_reducible apply waitElapsed_keeps | with_reducible apply setPort_keeps
    | with_reducible apply Keeps.ite
    | fail_if_no_progress (with_reducible apply Keeps.upd)
    | refine Keeps.fst (by assumption) ?_
    | dsimp only
    | split

theorem execRdWindowReset_keeps (c : Fin 8) {post : State} (kept : Keeps hold pre s) (e : execRdWindowReset c s = .next post) :
    Keeps hold pre post := by
  unfold execRdWindowReset at e
  refine live_keeps (fun s kept => ?_) kept e
  clear e
  repeat' first
    | with_reducible assumption
    | intro _
    | with_reducible apply waitElapsed_keeps | with_reducible apply setDram_keeps
    | with_reducible apply Keeps.ite

theorem execSelfRefreshIdleEntry_keeps (c : Fin 8) {post : State} (kept : Keeps hold pre s) (e : execSelfRefreshIdleEntry c s = .next post) :
    Keeps hold pre post := by
  unfold execSelfRefreshIdleEntry at e
  refine live_keeps (fun s kept => ?_) kept e
  clear e
  repeat' first
    | with_reducible assumption
    | intro _
    | with_reducible apply waitElapsed_keeps | with_reducible apply setDram_keeps | with_reducible apply addReg_keeps | with_reducible apply setChanState_keeps
    | with_reducible apply Keeps.ite

theorem selfRefreshExit_keeps (c : Nat) (beforeE4 : Bool) (mr4 : Nat) (good : Bool) (kept : Keeps hold pre s) :
    Keeps hold pre (selfRefreshExit c beforeE4 mr4 good s) := by
  unfold selfRefreshExit
  repeat' first
    | with_reducible assumption
    | intro _
    | with_reducible apply setDram_keeps | with_reducible apply setChanState_keeps | with_reducible apply addReg_keeps | with_reducible apply setDebt_keeps
    | with_reducible apply trackRun_keeps | with_reducible apply mr4Read_keeps
    | with_reducible apply Keeps.ite
    | fail_if_no_progress (with_reducible apply Keeps.upd)

theorem execSelfRefreshExit_keeps (c : Fin 8) (beforeE4 : Bool) (mr4 : Byte) (good : Bool) {post : State} (kept : Keeps hold pre s) (e : execSelfRefreshExit c beforeE4 mr4 good s = .next post) :
    Keeps hold pre post := by
  unfold execSelfRefreshExit at e
  refine live_keeps (fun s kept => ?_) kept e
  clear e
  repeat' first
    | with_reducible assumption
    | intro _
    | with_reducible apply selfRefreshExit_keeps
    | with_reducible apply Keeps.ite

theorem execGranaryInitDone_keeps {post : State} (kept : Keeps hold pre s) (e : execGranaryInitDone s = .next post) :
    Keeps hold pre post := by
  unfold execGranaryInitDone at e
  refine live_keeps (fun s kept => ?_) kept e
  clear e
  repeat' first
    | with_reducible assumption
    | intro _
    | with_reducible apply setFlag_keeps | with_reducible apply setDemal_keeps
    | with_reducible apply Keeps.ite
    | fail_if_no_progress (with_reducible apply Keeps.upd)

theorem execGranaryScrub_keeps (ecc : Ecc) {post : State} (kept : Keeps hold pre s) (e : execGranaryScrub ecc s = .next post) :
    Keeps hold pre post := by
  unfold execGranaryScrub at e
  refine live_keeps (fun s kept => ?_) kept e
  clear e
  repeat' first
    | with_reducible assumption
    | intro _
    | with_reducible apply waitElapsed_keeps | with_reducible apply granaryUncorrectable_keeps | with_reducible apply granaryCorrected_keeps | with_reducible apply addReg_keeps
    | with_reducible apply Keeps.ite
    | fail_if_no_progress (with_reducible apply Keeps.upd)
    | refine Keeps.fst (by assumption) ?_
    | dsimp only
    | split

end Sys2Proof.Machine
end

