-- ==== Sys2Proof/Laws/KeepsCalib.lean ====
section
/-!
SUPPORT. Laws/KeepsCalib.lean: every operation of Machine/Calib.lean that answers a state has `Keeps`.
-/

namespace Sys2Proof.Machine

variable {hold : Bool} {pre s : State}

theorem spareShow_keeps (kept : Keeps hold pre s) :
    Keeps hold pre (spareShow s) := by
  unfold spareShow
  repeat' first
    | with_reducible assumption
    | intro _
    | with_reducible apply setFlag_keeps | with_reducible apply setFld_keeps
    | with_reducible apply Keeps.ite
    | with_reducible apply Keeps.foldl | with_reducible apply Keeps.foldlPair
    | fail_if_no_progress (with_reducible apply Keeps.upd)
    | refine Keeps.fst (by assumption) ?_
    | dsimp only
    | split

theorem setCals_keeps (cs : List Cal) (kept : Keeps hold pre s) :
    Keeps hold pre (setCals cs s) := by
  unfold setCals
  repeat' first
    | with_reducible assumption
    | intro _
    | with_reducible apply spareShow_keeps | with_reducible apply setFlag_keeps
    | with_reducible apply Keeps.ite
    | fail_if_no_progress (with_reducible apply Keeps.upd)

theorem updCal_keeps (i : Nat) (f : Cal → Cal) (kept : Keeps hold pre s) :
    Keeps hold pre (updCal i f s) := by
  unfold updCal
  repeat' first
    | with_reducible assumption
    | intro _
    | with_reducible apply setCals_keeps

theorem calNoteFail_keeps (i : Nat) (cause : Nat) (quiet : Bool) (kept : Keeps hold pre s) :
    Keeps hold pre (calNoteFail i cause quiet s) := by
  unfold calNoteFail
  repeat' first
    | with_reducible assumption
    | intro _
    | with_reducible apply setFld_keeps | with_reducible apply addFld_keeps | with_reducible apply raise_keeps
    | with_reducible apply Keeps.ite

theorem calNoteDone_keeps (i : Nat) (t : Nat) (kept : Keeps hold pre s) :
    Keeps hold pre (calNoteDone i t s) := by
  unfold calNoteDone
  repeat' first
    | with_reducible assumption
    | intro _
    | with_reducible apply wideSet_keeps | with_reducible apply addReg_keeps | with_reducible apply raise_keeps
    | with_reducible apply Keeps.ite
    | fail_if_no_progress (with_reducible apply Keeps.upd)

theorem calTell_keeps (tag : Option Nat) (i : Nat) (cause : Option Nat) (kept : Keeps hold pre s) :
    Keeps hold pre (calTell tag i cause s) := by
  unfold calTell
  repeat' first
    | with_reducible assumption
    | intro _
    | with_reducible apply updCmd_keeps | with_reducible apply finish_keeps
    | with_reducible apply Keeps.ite
    | fail_if_no_progress (with_reducible apply Keeps.upd)
    | refine Keeps.fst (by assumption) ?_
    | dsimp only
    | split

theorem calAdvance_keeps (i : Nat) (kept : Keeps hold pre s) :
    Keeps hold pre (calAdvance i s) := by
  unfold calAdvance
  repeat' first
    | with_reducible assumption
    | intro _
    | with_reducible apply setCals_keeps | with_reducible apply setFld_keeps | with_reducible apply updCal_keeps
    | with_reducible apply Keeps.ite
    | fail_if_no_progress (with_reducible apply Keeps.upd)
    | refine Keeps.fst (by assumption) ?_
    | dsimp only
    | split

theorem calSucceed_keeps (i : Nat) (t : Nat) (kept : Keeps hold pre s) :
    Keeps hold pre (calSucceed i t s) := by
  unfold calSucceed
  repeat' first
    | with_reducible assumption
    | intro _
    | with_reducible apply calTell_keeps | with_reducible apply calAdvance_keeps | with_reducible apply calNoteDone_keeps
    | with_reducible apply Keeps.ite
    | fail_if_no_progress (with_reducible apply Keeps.upd)
    | refine Keeps.fst (by assumption) ?_
    | dsimp only
    | split

theorem setTrim_keeps (i : Nat) (v : Nat) (kept : Keeps hold pre s) :
    Keeps hold pre (setTrim i v s) := by
  unfold setTrim
  repeat' first
    | with_reducible assumption
    | intro _
    | with_reducible apply Keeps.ite
    | fail_if_no_progress (with_reducible apply Keeps.upd)

theorem trimTake_keeps (i : Nat) (kept : Keeps hold pre s) :
    Keeps hold pre (trimTake i s) := by
  unfold trimTake
  repeat' first
    | with_reducible assumption
    | intro _
    | with_reducible apply updCal_keeps | with_reducible apply setTrim_keeps
    | with_reducible apply Keeps.ite
    | fail_if_no_progress (with_reducible apply Keeps.upd)

theorem trimRestore_keeps (i : Nat) (kept : Keeps hold pre s) :
    Keeps hold pre (trimRestore i s) := by
  unfold trimRestore
  repeat' first
    | with_reducible assumption
    | intro _
    | with_reducible apply setTrim_keeps
    | with_reducible apply Keeps.ite
    | fail_if_no_progress (with_reducible apply Keeps.upd)
    | refine Keeps.fst (by assumption) ?_
    | dsimp only
    | split

theorem calFail_keeps (i : Nat) (cause : Nat) (quiet : Bool) (kept : Keeps hold pre s) :
    Keeps hold pre (calFail i cause quiet s) := by
  unfold calFail
  repeat' first
    | with_reducible assumption
    | intro _
    | with_reducible apply calTell_keeps | with_reducible apply calAdvance_keeps | with_reducible apply calNoteFail_keeps | with_reducible apply trimRestore_keeps
    | with_reducible apply Keeps.ite
    | fail_if_no_progress (with_reducible apply Keeps.upd)
    | refine Keeps.fst (by assumption) ?_
    | dsimp only
    | split

theorem calStartRun_keeps (tag : Option Nat) (items : List Nat) (kept : Keeps hold pre s) :
    Keeps hold pre (calStartRun tag items s) := by
  unfold calStartRun
  repeat' first
    | with_reducible assumption
    | intro _
    | with_reducible apply calTell_keeps | with_reducible apply calNoteFail_keeps | with_reducible apply setFld_keeps | with_reducible apply setCals_keeps
    | with_reducible apply Keeps.ite
    | with_reducible apply Keeps.foldl | with_reducible apply Keeps.foldlPair
    | fail_if_no_progress (with_reducible apply Keeps.upd)
    | refine Keeps.fst (by assumption) ?_
    | dsimp only
    | split

theorem trimAll_keeps (tag : Nat) (onlyDue : Bool) (kept : Keeps hold pre s) :
    Keeps hold pre (trimAll tag onlyDue s) := by
  unfold trimAll
  repeat' first
    | with_reducible assumption
    | intro _
    | with_reducible apply calStartRun_keeps | with_reducible apply waitCmd_keeps | with_reducible apply finish_keeps
    | with_reducible apply Keeps.ite
    | with_reducible apply Keeps.foldl | with_reducible apply Keeps.foldlPair
    | fail_if_no_progress (with_reducible apply Keeps.upd)
    | refine Keeps.fst (by assumption) ?_
    | dsimp only
    | split

theorem trimRun_keeps (c : Cmd) (kept : Keeps hold pre s) :
    Keeps hold pre (trimRun c s) := by
  unfold trimRun
  repeat' first
    | with_reducible assumption
    | intro _
    | with_reducible apply finish_keeps | with_reducible apply trimAll_keeps | with_reducible apply calStartRun_keeps | with_reducible apply waitCmd_keeps
    | with_reducible apply Keeps.ite

theorem execTrimRun_keeps (tag : Fin 4096) {post : State} (kept : Keeps hold pre s) (e : execTrimRun tag s = .next post) :
    Keeps hold pre post := by
  unfold execTrimRun at e
  refine live_keeps (fun s kept => ?_) kept e
  clear e
  repeat' first
    | with_reducible assumption
    | intro _
    | with_reducible apply onCmd_keeps | with_reducible apply trimRun_keeps

theorem trmCmdWrite_keeps (v : Nat) (kept : Keeps hold pre s) :
    Keeps hold pre (trmCmdWrite v s) := by
  unfold trmCmdWrite
  repeat' first
    | with_reducible assumption
    | intro _
    | with_reducible apply setFlag_keeps | with_reducible apply calStartRun_keeps
    | with_reducible apply Keeps.ite

theorem execTrimCmd_keeps (v : Word) {post : State} (kept : Keeps hold pre s) (e : execTrimCmd v s = .next post) :
    Keeps hold pre post := by
  unfold execTrimCmd at e
  refine live_keeps (fun s kept => ?_) kept e
  clear e
  repeat' first
    | with_reducible assumption
    | intro _
    | with_reducible apply trmCmdWrite_keeps

theorem calSchedule_keeps (kept : Keeps hold pre s) :
    Keeps hold pre (calSchedule s) := by
  unfold calSchedule
  repeat' first
    | with_reducible assumption
    | intro _
    | with_reducible apply calStartRun_keeps
    | with_reducible apply Keeps.ite
    | with_reducible apply Keeps.foldl | with_reducible apply Keeps.foldlPair
    | fail_if_no_progress (with_reducible apply Keeps.upd)
    | refine Keeps.fst (by assumption) ?_
    | dsimp only
    | split

theorem calRefvFail_keeps (uv : Nat) (kept : Keeps hold pre s) :
    Keeps hold pre (calRefvFail uv s) := by
  unfold calRefvFail
  repeat' first
    | with_reducible assumption
    | intro _
    | with_reducible apply raise_keeps | with_reducible apply calFail_keeps
    | with_reducible apply Keeps.ite
    | with_reducible apply Keeps.foldl | with_reducible apply Keeps.foldlPair
    | fail_if_no_progress (with_reducible apply Keeps.upd)
    | refine Keeps.fst (by assumption) ?_
    | dsimp only
    | split

theorem calMeasured_keeps (i : Nat) (o : CalObs) (kept : Keeps hold pre s) :
    Keeps hold pre (calMeasured i o s) := by
  unfold calMeasured
  repeat' first
    | with_reducible assumption
    | intro _
    | with_reducible apply wr_keeps | with_reducible apply calRefvFail_keeps | with_reducible apply calFail_keeps | with_reducible apply trimTake_keeps
    | with_reducible apply updCal_keeps | with_reducible apply calSucceed_keeps
    | with_reducible apply Keeps.ite

theorem execCalibrationComplete_keeps (item : Fin 73) (o : CalObs) {post : State} (kept : Keeps hold pre s) (e : execCalibrationComplete item o s = .next post) :
    Keeps hold pre post := by
  unfold execCalibrationComplete at e
  refine live_keeps (fun s kept => ?_) kept e
  clear e
  repeat' first
    | with_reducible assumption
    | intro _
    | with_reducible apply calMeasured_keeps
    | with_reducible apply Keeps.ite
    | fail_if_no_progress (with_reducible apply Keeps.upd)
    | refine Keeps.fst (by assumption) ?_
    | dsimp only
    | split

theorem calTick_keeps (t : Nat) (kept : Keeps hold pre s) :
    Keeps hold pre (calTick t s) := by
  unfold calTick
  repeat' first
    | with_reducible assumption
    | intro _
    | with_reducible apply calSucceed_keeps
    | with_reducible apply Keeps.ite
    | with_reducible apply Keeps.foldl

theorem calAbortAll_keeps (kept : Keeps hold pre s) :
    Keeps hold pre (calAbortAll s) := by
  unfold calAbortAll
  repeat' first
    | with_reducible assumption
    | intro _
    | with_reducible apply setCals_keeps | with_reducible apply calNoteFail_keeps | with_reducible apply trimRestore_keeps
    | with_reducible apply Keeps.ite
    | with_reducible apply Keeps.foldl

theorem calAbort_keeps (i : Nat) (kept : Keeps hold pre s) :
    Keeps hold pre (calAbort i s) := by
  unfold calAbort
  repeat' first
    | with_reducible assumption
    | intro _
    | with_reducible apply calFail_keeps

theorem execTrmTimeRead_keeps (item : Fin 73) {post : State} (kept : Keeps hold pre s) (e : execTrmTimeRead item s = .next post) :
    Keeps hold pre post := by
  unfold execTrmTimeRead at e
  refine liveAon_keeps (fun s kept => ?_) kept e
  clear e
  repeat' first
    | with_reducible assumption
    | intro _
    | with_reducible apply wideLatch_keeps

end Sys2Proof.Machine
end

