-- ==== Sys2Proof/Laws/KeepsPower.lean ====
section
/-!
SUPPORT. Laws/KeepsPower.lean: every operation of Machine/Power.lean that answers a state has `Keeps`.
-/

namespace Sys2Proof.Machine

variable {hold : Bool} {pre s : State}

theorem setPower_keeps (new : Nat) (kept : Keeps hold pre s) :
    Keeps hold pre (setPower new s) := by
  unfold setPower
  repeat' first
    | with_reducible assumption
    | intro _
    | with_reducible apply raise_keeps | with_reducible apply setFld_keeps

theorem headokLow_keeps (kept : Keeps hold pre s) :
    Keeps hold pre (headokLow s) := by
  unfold headokLow
  repeat' first
    | with_reducible assumption
    | intro _
    | with_reducible apply setFlag_keeps
    | with_reducible apply Keeps.ite
    | with_reducible apply Keeps.foldl

theorem powerDownBegin_keeps (kept : Keeps hold pre s) :
    Keeps hold pre (powerDownBegin s) := by
  unfold powerDownBegin
  repeat' first
    | with_reducible assumption
    | intro _
    | with_reducible apply headokLow_keeps
    | with_reducible apply Keeps.ite
    | fail_if_no_progress (with_reducible apply Keeps.upd)

theorem keepEnter_keeps (kept : Keeps hold pre s) :
    Keeps hold pre (keepEnter s) := by
  unfold keepEnter
  repeat' first
    | with_reducible assumption
    | intro _
    | with_reducible apply headokLow_keeps | with_reducible apply calAbortAll_keeps | with_reducible apply wr_keeps | with_reducible apply setChanState_keeps
    | with_reducible apply setFld_keeps
    | with_reducible apply Keeps.ite
    | with_reducible apply Keeps.foldl | with_reducible apply Keeps.foldlPair
    | fail_if_no_progress (with_reducible apply Keeps.upd)

theorem execPowerDown_keeps {post : State} (kept : Keeps hold pre s) (e : execPowerDown s = .next post) :
    Keeps hold pre post := by
  unfold execPowerDown at e
  refine next_keeps ?_ e
  clear e
  repeat' first
    | with_reducible assumption
    | intro _
    | with_reducible apply setFld_keeps | with_reducible apply waitElapsed_keeps
    | with_reducible apply Keeps.ite
    | fail_if_no_progress (with_reducible apply Keeps.upd)
    | refine Keeps.fst (by assumption) ?_
    | dsimp only
    | split

theorem railEvent_keeps (code : Nat) (monitor : Bool) (kept : Keeps hold pre s) :
    Keeps hold pre (railEvent code monitor s) := by
  unfold railEvent
  repeat' first
    | with_reducible assumption
    | intro _
    | with_reducible apply raiseOnce_keeps

theorem railWarn_keeps (code : Nat) (monitor : Bool) (kept : Keeps hold pre s) :
    Keeps hold pre (railWarn code monitor s) := by
  unfold railWarn
  repeat' first
    | with_reducible assumption
    | intro _
    | with_reducible apply railEvent_keeps | with_reducible apply setFlag_keeps

theorem railFault_keeps (code : Nat) (monitor : Bool) (kept : Keeps hold pre s) :
    Keeps hold pre (railFault code monitor s) := by
  unfold railFault
  repeat' first
    | with_reducible assumption
    | intro _
    | with_reducible apply powerDownBegin_keeps | with_reducible apply railEvent_keeps | with_reducible apply setFlag_keeps

theorem monitorSample_keeps (r : Nat) (mv : Nat) (kept : Keeps hold pre s) :
    Keeps hold pre (monitorSample r mv s) := by
  unfold monitorSample
  repeat' first
    | with_reducible assumption
    | intro _
    | with_reducible apply wr_keeps | with_reducible apply setFlag_keeps | with_reducible apply raiseOnce_keeps | with_reducible apply railWarn_keeps
    | with_reducible apply railFault_keeps
    | with_reducible apply Keeps.ite
    | fail_if_no_progress (with_reducible apply Keeps.upd)
    | refine Keeps.fst (by assumption) ?_
    | dsimp only
    | split

theorem execSupplyMonitorSample_keeps (rail : Fin 8) (mv : Nat) {post : State} (kept : Keeps hold pre s) (e : execSupplyMonitorSample rail mv s = .next post) :
    Keeps hold pre post := by
  unfold execSupplyMonitorSample at e
  refine live_keeps (fun s kept => ?_) kept e
  clear e
  repeat' first
    | with_reducible assumption
    | intro _
    | with_reducible apply monitorSample_keeps

theorem execPmbusStatusPoll_keeps (rail : Fin 8) (status : BitVec 16) {post : State} (kept : Keeps hold pre s) (e : execPmbusStatusPoll rail status s = .next post) :
    Keeps hold pre post := by
  unfold execPmbusStatusPoll at e
  refine live_keeps (fun s kept => ?_) kept e
  clear e
  repeat' first
    | with_reducible assumption
    | intro _
    | with_reducible apply setFld_keeps | with_reducible apply railWarn_keeps | with_reducible apply railFault_keeps
    | with_reducible apply Keeps.ite

theorem applyStage_keeps (kept : Keeps hold pre s) :
    Keeps hold pre (applyStage s) := by
  unfold applyStage
  repeat' first
    | with_reducible assumption
    | intro _
    | with_reducible apply setFlag_keeps | with_reducible apply raise_keeps | with_reducible apply setFld_keeps
    | with_reducible apply Keeps.ite

theorem tempReading_keeps (i : Nat) (raw : Int) (kept : Keeps hold pre s) :
    Keeps hold pre (tempReading i raw s) := by
  unfold tempReading
  repeat' first
    | with_reducible assumption
    | intro _
    | with_reducible apply raiseOnce_keeps | with_reducible apply setFlag_keeps | with_reducible apply wr_keeps
    | with_reducible apply Keeps.ite

theorem thermalSample_keeps (mc : List Int) (kept : Keeps hold pre s) :
    Keeps hold pre (thermalSample mc s) := by
  unfold thermalSample
  repeat' first
    | with_reducible assumption
    | intro _
    | with_reducible apply tempReading_keeps | with_reducible apply wr_keeps | with_reducible apply setFld_keeps | with_reducible apply applyStage_keeps
    | with_reducible apply Keeps.ite
    | with_reducible apply Keeps.foldl | with_reducible apply Keeps.foldlPair
    | fail_if_no_progress (with_reducible apply Keeps.upd)

theorem execThermalSample_keeps (mc : List Int) {post : State} (kept : Keeps hold pre s) (e : execThermalSample mc s = .next post) :
    Keeps hold pre post := by
  unfold execThermalSample at e
  refine live_keeps (fun s kept => ?_) kept e
  clear e
  repeat' first
    | with_reducible assumption
    | intro _
    | with_reducible apply thermalSample_keeps

theorem execThermalStageFall_keeps {post : State} (kept : Keeps hold pre s) (e : execThermalStageFall s = .next post) :
    Keeps hold pre post := by
  unfold execThermalStageFall at e
  refine live_keeps (fun s kept => ?_) kept e
  clear e
  repeat' first
    | with_reducible assumption
    | intro _
    | with_reducible apply waitElapsed_keeps | with_reducible apply setFld_keeps | with_reducible apply applyStage_keeps
    | with_reducible apply Keeps.ite
    | fail_if_no_progress (with_reducible apply Keeps.upd)
    | refine Keeps.fst (by assumption) ?_
    | dsimp only
    | split

theorem execThermalCritical_keeps {post : State} (kept : Keeps hold pre s) (e : execThermalCritical s = .next post) :
    Keeps hold pre post := by
  unfold execThermalCritical at e
  refine live_keeps (fun s kept => ?_) kept e
  clear e
  repeat' first
    | with_reducible assumption
    | intro _
    | with_reducible apply powerDownBegin_keeps | with_reducible apply applyStage_keeps | with_reducible apply setFld_keeps | with_reducible apply waitElapsed_keeps
    | with_reducible apply Keeps.ite
    | fail_if_no_progress (with_reducible apply Keeps.upd)
    | refine Keeps.fst (by assumption) ?_
    | dsimp only
    | split

theorem pwrThrWrite_keeps (v : Nat) (kept : Keeps hold pre s) :
    Keeps hold pre (pwrThrWrite v s) := by
  unfold pwrThrWrite
  repeat' first
    | with_reducible assumption
    | intro _
    | with_reducible apply wr_keeps

theorem avsRaise_keeps (kept : Keeps hold pre s) :
    Keeps hold pre (avsRaise s) := by
  unfold avsRaise
  repeat' first
    | with_reducible assumption
    | intro _
    | with_reducible apply setFld_keeps | with_reducible apply raise_keeps | with_reducible apply addReg_keeps | with_reducible apply applyStage_keeps
    | with_reducible apply wr_keeps
    | with_reducible apply Keeps.ite
    | fail_if_no_progress (with_reducible apply Keeps.upd)

theorem avsLower_keeps (kept : Keeps hold pre s) :
    Keeps hold pre (avsLower s) := by
  unfold avsLower
  repeat' first
    | with_reducible assumption
    | intro _
    | with_reducible apply applyStage_keeps | with_reducible apply setFld_keeps | with_reducible apply wr_keeps
    | with_reducible apply Keeps.ite

theorem avsSample_keeps (slacks : List Int) (kept : Keeps hold pre s) :
    Keeps hold pre (avsSample slacks s) := by
  unfold avsSample
  repeat' first
    | with_reducible assumption
    | intro _
    | with_reducible apply applyStage_keeps | with_reducible apply avsRaise_keeps | with_reducible apply avsLower_keeps
    | with_reducible apply Keeps.ite
    | with_reducible apply Keeps.foldl | with_reducible apply Keeps.foldlPair
    | fail_if_no_progress (with_reducible apply Keeps.upd)
    | refine Keeps.fst (by assumption) ?_
    | dsimp only
    | split

theorem execAvsSample_keeps (slacks : List Int) {post : State} (kept : Keeps hold pre s) (e : execAvsSample slacks s = .next post) :
    Keeps hold pre post := by
  unfold execAvsSample at e
  refine live_keeps (fun s kept => ?_) kept e
  clear e
  repeat' first
    | with_reducible assumption
    | intro _
    | with_reducible apply avsSample_keeps

theorem execAvsRaiseAck_keeps {post : State} (kept : Keeps hold pre s) (e : execAvsRaiseAck s = .next post) :
    Keeps hold pre post := by
  unfold execAvsRaiseAck at e
  refine live_keeps (fun s kept => ?_) kept e
  clear e
  repeat' first
    | with_reducible assumption
    | intro _
    | with_reducible apply applyStage_keeps
    | with_reducible apply Keeps.ite
    | fail_if_no_progress (with_reducible apply Keeps.upd)

theorem avsLimitsWrite_keeps (v : Nat) (kept : Keeps hold pre s) :
    Keeps hold pre (avsLimitsWrite v s) := by
  unfold avsLimitsWrite
  repeat' first
    | with_reducible assumption
    | intro _
    | with_reducible apply wr_keeps

theorem pwrRegWrite_keeps (off : Nat) (v : Nat) (kept : Keeps hold pre s) :
    Keeps hold pre (pwrRegWrite off v s) := by
  unfold pwrRegWrite
  repeat' first
    | with_reducible assumption
    | intro _
    | with_reducible apply pwrThrWrite_keeps | with_reducible apply avsLimitsWrite_keeps | with_reducible apply wr_keeps
    | with_reducible apply Keeps.ite

end Sys2Proof.Machine
end

