-- ==== Sys2Proof/Laws/KeepsRings.lean ====
section
/-!
SUPPORT. Laws/KeepsRings.lean: every operation of Machine/Rings.lean that answers a state has `Keeps`.
-/

namespace Sys2Proof.Machine

variable {hold : Bool} {pre s : State}

theorem eqPostLost_keeps (e : Nat) (kept : Keeps hold pre s) :
    Keeps hold pre (eqPostLost e s) := by
  unfold eqPostLost
  repeat' first
    | with_reducible assumption
    | intro _
    | with_reducible apply eqWriteWith_keeps | with_reducible apply raise_keeps | with_reducible apply addReg_keeps | with_reducible apply eventSignals_keeps
    | with_reducible apply wr_keeps
    | with_reducible apply Keeps.ite

theorem ringStart_keeps (u : Nat) (kept : Keeps hold pre s) :
    Keeps hold pre (ringStart u s) := by
  unfold ringStart
  repeat' first
    | with_reducible assumption
    | intro _
    | with_reducible apply setUnit_keeps | with_reducible apply wr_keeps | with_reducible apply setUnitThen_keeps | with_reducible apply eqPostLost_keeps
    | with_reducible apply setFlag_keeps | with_reducible apply raise_keeps
    | with_reducible apply Keeps.ite
    | fail_if_no_progress (with_reducible apply Keeps.upd)

theorem ringDrain_keeps (u : Nat) (kept : Keeps hold pre s) :
    Keeps hold pre (ringDrain u s) := by
  unfold ringDrain
  repeat' first
    | with_reducible assumption
    | intro _
    | with_reducible apply setUnit_keeps
    | with_reducible apply Keeps.ite

theorem ringCfgKeep_keeps (u : Nat) (v : Nat) (kept : Keeps hold pre s) :
    Keeps hold pre (ringCfgKeep u v s) := by
  unfold ringCfgKeep
  repeat' first
    | with_reducible assumption
    | intro _
    | with_reducible apply setFlag_keeps
    | with_reducible apply Keeps.ite

theorem ringCfgWrite_keeps (u : Nat) (v : Nat) (kept : Keeps hold pre s) :
    Keeps hold pre (ringCfgWrite u v s) := by
  unfold ringCfgWrite
  repeat' first
    | with_reducible assumption
    | intro _
    | with_reducible apply wr_keeps | with_reducible apply ringStart_keeps | with_reducible apply ringCfgKeep_keeps | with_reducible apply raise_keeps
    | with_reducible apply setFlag_keeps | with_reducible apply ringDrain_keeps
    | with_reducible apply Keeps.ite

theorem ringBaseWrite_keeps (u : Nat) (off : Nat) (v : Nat) (kept : Keeps hold pre s) :
    Keeps hold pre (ringBaseWrite u off v s) := by
  unfold ringBaseWrite
  repeat' first
    | with_reducible assumption
    | intro _
    | with_reducible apply wr_keeps | with_reducible apply setFlag_keeps
    | with_reducible apply Keeps.ite

theorem execRingEnable_keeps (ring : RingId) (cfg : Word) {post : State} (kept : Keeps hold pre s) (e : execRingEnable ring cfg s = .next post) :
    Keeps hold pre post := by
  unfold execRingEnable at e
  refine live_keeps (fun s kept => ?_) kept e
  clear e
  repeat' first
    | with_reducible assumption
    | intro _
    | with_reducible apply ringCfgWrite_keeps

theorem execRingDisable_keeps (ring : RingId) (cfg : Word) {post : State} (kept : Keeps hold pre s) (e : execRingDisable ring cfg s = .next post) :
    Keeps hold pre post := by
  unfold execRingDisable at e
  refine live_keeps (fun s kept => ?_) kept e
  clear e
  repeat' first
    | with_reducible assumption
    | intro _
    | with_reducible apply ringCfgWrite_keeps

theorem doorbell_keeps (u : Nat) (w : Nat) (narrow : Bool) (kept : Keeps hold pre s) :
    Keeps hold pre (doorbell u w narrow s) := by
  unfold doorbell
  repeat' first
    | with_reducible assumption
    | intro _
    | with_reducible apply raiseOnce_keeps | with_reducible apply setFlag_keeps | with_reducible apply raise_keeps | with_reducible apply setFld_keeps
    | with_reducible apply eqPostLost_keeps
    | with_reducible apply Keeps.ite

theorem execSqDoorbell_keeps (r : Fin 64) (w : Word) (narrow : Bool) (hm : Cells) {post : State} (kept : Keeps hold pre s) (e : execSqDoorbell r w narrow hm s = .next post) :
    Keeps hold pre post := by
  unfold execSqDoorbell at e
  refine live_keeps (fun s kept => ?_) kept e
  clear e
  repeat' first
    | with_reducible assumption
    | intro _
    | with_reducible apply doorbell_keeps | with_reducible apply hostStore_keeps

theorem execCqDoorbell_keeps (c : Fin 32) (w : Word) (narrow : Bool) {post : State} (kept : Keeps hold pre s) (e : execCqDoorbell c w narrow s = .next post) :
    Keeps hold pre post := by
  unfold execCqDoorbell at e
  refine live_keeps (fun s kept => ?_) kept e
  clear e
  repeat' first
    | with_reducible assumption
    | intro _
    | with_reducible apply doorbell_keeps

theorem execEqDoorbell_keeps (e : Fin 4) (w : Word) (narrow : Bool) {post : State} (kept : Keeps hold pre s) (e : execEqDoorbell e w narrow s = .next post) :
    Keeps hold pre post := by
  unfold execEqDoorbell at e
  refine live_keeps (fun s kept => ?_) kept e
  clear e
  repeat' first
    | with_reducible assumption
    | intro _
    | with_reducible apply doorbell_keeps

theorem sqFault_keeps (r : Nat) (addr : Nat) (kept : Keeps hold pre s) :
    Keeps hold pre (sqFault r addr s) := by
  unfold sqFault
  repeat' first
    | with_reducible assumption
    | intro _
    | with_reducible apply setUnit_keeps | with_reducible apply setFlag_keeps | with_reducible apply raise_keeps

theorem cmdStart_keeps (tag : Nat) (r : Nat) (bs : List Byte) (kept : Keeps hold pre s) :
    Keeps hold pre (cmdStart tag r bs s) := by
  unfold cmdStart
  repeat' first
    | with_reducible assumption
    | intro _
    | with_reducible apply addFld_keeps | with_reducible apply addReg_keeps | with_reducible apply finish_keeps
    | with_reducible apply Keeps.ite
    | fail_if_no_progress (with_reducible apply Keeps.upd)
    | refine Keeps.fst (by assumption) ?_
    | dsimp only
    | split

theorem descriptorFetch_keeps (tag : Nat) (ecc : Ecc) (kept : Keeps hold pre s) :
    Keeps hold pre (descriptorFetch tag ecc s) := by
  unfold descriptorFetch
  repeat' first
    | with_reducible assumption
    | intro _
    | with_reducible apply raiseOnce_keeps | with_reducible apply dmaRead_keeps | with_reducible apply noteLink_keeps | with_reducible apply ringCacheMet_keeps
    | with_reducible apply raise_keeps | with_reducible apply sqFault_keeps | with_reducible apply cmdStart_keeps
    | with_reducible apply Keeps.ite
    | fail_if_no_progress (with_reducible apply Keeps.upd)
    | refine Keeps.fst (by assumption) ?_
    | dsimp only
    | split

theorem execDescriptorFetch_keeps (tag : Fin 4096) (hm : Cells) (ecc : Ecc) {post : State} (kept : Keeps hold pre s) (e : execDescriptorFetch tag hm ecc s = .next post) :
    Keeps hold pre post := by
  unfold execDescriptorFetch at e
  refine live_keeps (fun s kept => ?_) kept e
  clear e
  repeat' first
    | with_reducible assumption
    | intro _
    | with_reducible apply descriptorFetch_keeps | with_reducible apply hostStore_keeps

theorem releaseTag_keeps (c : Cmd) (kept : Keeps hold pre s) :
    Keeps hold pre (releaseTag c s) := by
  unfold releaseTag
  repeat' first
    | with_reducible assumption
    | intro _
    | with_reducible apply addReg_keeps | with_reducible apply dropCmd_keeps | with_reducible apply setFld_keeps

theorem completionPost_keeps (c : Cmd) (status : Nat) (r0 : Nat) (r1 : Nat) (r2 : Nat) (tick : Nat × Nat) (linkOk : Bool) (kept : Keeps hold pre s) :
    Keeps hold pre (completionPost c status r0 r1 r2 tick linkOk s) := by
  unfold completionPost
  repeat' first
    | with_reducible assumption
    | intro _
    | with_reducible apply raiseOnce_keeps | with_reducible apply releaseTag_keeps | with_reducible apply dmaWrite_keeps | with_reducible apply ringCacheMet_keeps
    | with_reducible apply raise_keeps | with_reducible apply ringAdvance_keeps | with_reducible apply ringDrain_keeps | with_reducible apply setFlag_keeps
    | with_reducible apply Keeps.ite

theorem completionDue_keeps (c : Cmd) (status : Nat) (r0 : Nat) (r1 : Nat) (r2 : Nat) (tick : Option (Nat × Nat)) (linkOk : Bool) (kept : Keeps hold pre s) :
    Keeps hold pre (completionDue c status r0 r1 r2 tick linkOk s) := by
  unfold completionDue
  repeat' first
    | with_reducible assumption
    | intro _
    | with_reducible apply releaseTag_keeps | with_reducible apply completionPost_keeps
    | with_reducible apply Keeps.ite

theorem execCompletionWrite_keeps (tag : Fin 4096) (linkOk : Bool) {post : State} (kept : Keeps hold pre s) (e : execCompletionWrite tag linkOk s = .next post) :
    Keeps hold pre post := by
  unfold execCompletionWrite at e
  refine live_keeps (fun s kept => ?_) kept e
  clear e
  repeat' first
    | with_reducible assumption
    | intro _
    | with_reducible apply completionDue_keeps | with_reducible apply waitUpdates_keeps
    | with_reducible apply Keeps.ite
    | fail_if_no_progress (with_reducible apply Keeps.upd)
    | refine Keeps.fst (by assumption) ?_
    | dsimp only
    | split

theorem execNop_keeps (tag : Fin 4096) {post : State} (kept : Keeps hold pre s) (e : execNop tag s = .next post) :
    Keeps hold pre post := by
  unfold execNop at e
  refine live_keeps (fun s kept => ?_) kept e
  clear e
  repeat' first
    | with_reducible assumption
    | intro _
    | with_reducible apply onCmd_keeps | with_reducible apply finish_keeps

theorem execBarrier_keeps (tag : Fin 4096) {post : State} (kept : Keeps hold pre s) (e : execBarrier tag s = .next post) :
    Keeps hold pre post := by
  unfold execBarrier at e
  refine live_keeps (fun s kept => ?_) kept e
  clear e
  repeat' first
    | with_reducible assumption
    | intro _
    | with_reducible apply onCmd_keeps | with_reducible apply waitCmd_keeps

theorem execEvtPinAck_keeps (pin : Fin 4) {post : State} (kept : Keeps hold pre s) (e : execEvtPinAck pin s = .next post) :
    Keeps hold pre post := by
  unfold execEvtPinAck at e
  refine live_keeps (fun s kept => ?_) kept e
  clear e
  repeat' first
    | with_reducible assumption
    | intro _
    | with_reducible apply wr_keeps

theorem finishWaiters_keeps (kind : Nat) (u : Nat) (purpose : Nat) (status : Nat) (kept : Keeps hold pre s) :
    Keeps hold pre (finishWaiters kind u purpose status s) := by
  unfold finishWaiters
  repeat' first
    | with_reducible assumption
    | intro _
    | with_reducible apply finishNow_keeps
    | with_reducible apply Keeps.ite
    | with_reducible apply Keeps.foldl

theorem enableCmd_keeps (kind : Nat) (u : Nat) (c : Cmd) {start : Cmd → State → State} (hstart : ∀ x0 t, Keeps hold pre t → Keeps hold pre (start x0 t)) (kept : Keeps hold pre s) :
    Keeps hold pre (enableCmd kind u c start s) := by
  unfold enableCmd
  repeat' first
    | with_reducible assumption
    | intro _
    | with_reducible apply finish_keeps | with_reducible apply waitCmd_keeps
    | with_reducible apply Keeps.ite
    | with_reducible apply hstart

theorem disableCmd_keeps (kind : Nat) (u : Nat) (c : Cmd) {drain : State → State} (hdrain : ∀ t, Keeps hold pre t → Keeps hold pre (drain t)) (kept : Keeps hold pre s) :
    Keeps hold pre (disableCmd kind u c drain s) := by
  unfold disableCmd
  repeat' first
    | with_reducible assumption
    | intro _
    | with_reducible apply updCmd_keeps | with_reducible apply waitCmd_keeps | with_reducible apply finishWaiters_keeps
    | with_reducible apply Keeps.ite
    | fail_if_no_progress (with_reducible apply Keeps.upd)
    | with_reducible apply hdrain

theorem unitDrain_keeps (kind : Nat) (u : Nat) (kept : Keeps hold pre s) :
    Keeps hold pre (unitDrain kind u s) := by
  unfold unitDrain
  repeat' first
    | with_reducible assumption
    | intro _
    | with_reducible apply setUnit_keeps | with_reducible apply finishWaiters_keeps

theorem unitRuns_keeps (kind : Nat) (u : Nat) (kept : Keeps hold pre s) :
    Keeps hold pre (unitRuns kind u s) := by
  unfold unitRuns
  repeat' first
    | with_reducible assumption
    | intro _
    | with_reducible apply finishWaiters_keeps | with_reducible apply setUnit_keeps

theorem unitOff_keeps (kind : Nat) (u : Nat) (kept : Keeps hold pre s) :
    Keeps hold pre (unitOff kind u s) := by
  unfold unitOff
  repeat' first
    | with_reducible assumption
    | intro _
    | with_reducible apply finishWaiters_keeps | with_reducible apply setUnit_keeps

theorem runQueued_keeps (kind : Nat) (u : Nat) {start : Cmd → State → State} (hstart : ∀ x0 t, Keeps hold pre t → Keeps hold pre (start x0 t)) (kept : Keeps hold pre s) :
    Keeps hold pre (runQueued kind u start s) := by
  unfold runQueued
  repeat' first
    | with_reducible assumption
    | intro _
    | with_reducible apply enableCmd_keeps | with_reducible apply updCmd_keeps
    | with_reducible apply Keeps.ite
    | with_reducible apply Keeps.foldl

end Sys2Proof.Machine
end

