-- ==== Sys2Proof/Laws/KeepsTick.lean ====
section
/-!
SUPPORT. Laws/KeepsTick.lean: every operation of Machine/Tick.lean that answers a state has `Keeps`.
-/

namespace Sys2Proof.Machine

variable {hold : Bool} {pre s : State}

theorem bumpGen_keeps (kept : Keeps hold pre s) :
    Keeps hold pre (bumpGen s) := by
  unfold bumpGen
  repeat' first
    | with_reducible assumption
    | intro _
    | with_reducible apply genStep_keeps

theorem poolLimits_keeps (kept : Keeps hold pre s) :
    Keeps hold pre (poolLimits s) := by
  unfold poolLimits
  repeat' first
    | with_reducible assumption
    | intro _
    | with_reducible apply wr_keeps
    | with_reducible apply Keeps.ite
    | with_reducible apply Keeps.foldl | with_reducible apply Keeps.foldlPair
    | fail_if_no_progress (with_reducible refine Keeps.updTck (e := rfl) (e' := rfl) (h := ?_) ..)

theorem budgetShort_keeps (kept : Keeps hold pre s) :
    Keeps hold pre (budgetShort s) := by
  unfold budgetShort
  repeat' first
    | with_reducible assumption
    | intro _
    | with_reducible apply setFlag_keeps

theorem poolCapacity_keeps (stage : Nat) (kept : Keeps hold pre s) :
    Keeps hold pre (poolCapacity stage s) := by
  unfold poolCapacity
  repeat' first
    | with_reducible assumption
    | intro _
    | with_reducible apply wr_keeps | with_reducible apply poolLimits_keeps | with_reducible apply bumpGen_keeps | with_reducible apply raise_keeps
    | with_reducible apply budgetShort_keeps
    | with_reducible apply Keeps.ite
    | with_reducible apply Keeps.foldl | with_reducible apply Keeps.foldlPair
    | fail_if_no_progress (with_reducible refine Keeps.updTck (e := rfl) (e' := rfl) (h := ?_) ..)

theorem poolStep_keeps (kept : Keeps hold pre s) :
    Keeps hold pre (poolStep s) := by
  unfold poolStep
  repeat' first
    | with_reducible assumption
    | intro _
    | with_reducible apply poolCapacity_keeps
    | with_reducible apply Keeps.ite

theorem poolAdmit_keeps (kind : Nat) (unit : Nat) (costs : List (Nat × Nat)) (kept : Keeps hold pre s) :
    Keeps hold pre (poolAdmit kind unit costs s) := by
  unfold poolAdmit
  repeat' first
    | with_reducible assumption
    | intro _
    | with_reducible apply bumpGen_keeps | with_reducible apply addReg_keeps | with_reducible apply addFld_keeps
    | with_reducible apply Keeps.ite
    | with_reducible apply Keeps.foldl | with_reducible apply Keeps.foldlPair
    | fail_if_no_progress (with_reducible refine Keeps.updTck (e := rfl) (e' := rfl) (h := ?_) ..)

theorem poolEmptied_keeps (p : Nat) (kept : Keeps hold pre s) :
    Keeps hold pre (poolEmptied p s) := by
  unfold poolEmptied
  repeat' first
    | with_reducible assumption
    | intro _
    | with_reducible apply setFld_keeps | with_reducible apply wr_keeps
    | with_reducible apply Keeps.ite

theorem uncommit_keeps (kind : Nat) (unit : Nat) (kept : Keeps hold pre s) :
    Keeps hold pre (uncommit kind unit s) := by
  unfold uncommit
  repeat' first
    | with_reducible assumption
    | intro _
    | with_reducible apply wr_keeps | with_reducible apply setFld_keeps | with_reducible apply budgetShort_keeps | with_reducible apply bumpGen_keeps
    | with_reducible apply Keeps.ite
    | with_reducible apply Keeps.foldl | with_reducible apply Keeps.foldlPair
    | fail_if_no_progress (with_reducible refine Keeps.updTck (e := rfl) (e' := rfl) (h := ?_) ..)

theorem tickIgnored_keeps (why : Nat) (kept : Keeps hold pre s) :
    Keeps hold pre (tickIgnored why s) := by
  unfold tickIgnored
  repeat' first
    | with_reducible assumption
    | intro _
    | with_reducible apply raise_keeps | with_reducible apply setFlag_keeps

theorem tickStart_keeps (kept : Keeps hold pre s) :
    Keeps hold pre (tickStart s) := by
  unfold tickStart
  repeat' first
    | with_reducible assumption
    | intro _
    | with_reducible apply tickIgnored_keeps | with_reducible apply setFlag_keeps
    | with_reducible apply Keeps.ite
    | fail_if_no_progress (with_reducible refine Keeps.updTck (e := rfl) (e' := rfl) (h := ?_) ..)

theorem tickStop_keeps (kept : Keeps hold pre s) :
    Keeps hold pre (tickStop s) := by
  unfold tickStop
  repeat' first
    | with_reducible assumption
    | intro _
    | with_reducible apply tickIgnored_keeps | with_reducible apply raiseTotals_keeps | with_reducible apply setFlag_keeps | with_reducible apply wr_keeps
    | with_reducible apply budgetShort_keeps | with_reducible apply bumpGen_keeps
    | with_reducible apply Keeps.ite
    | with_reducible apply Keeps.foldl | with_reducible apply Keeps.foldlPair
    | fail_if_no_progress (with_reducible refine Keeps.updTck (e := rfl) (e' := rfl) (h := ?_) ..)

theorem execTickRunStart_keeps {post : State} (kept : Keeps hold pre s) (e : execTickRunStart s = .next post) :
    Keeps hold pre post := by
  unfold execTickRunStart at e
  refine live_keeps (fun s kept => ?_) kept e
  clear e
  repeat' first
    | with_reducible assumption
    | intro _
    | with_reducible apply tickStart_keeps

theorem execTickRunStop_keeps {post : State} (kept : Keeps hold pre s) (e : execTickRunStop s = .next post) :
    Keeps hold pre post := by
  unfold execTickRunStop at e
  refine live_keeps (fun s kept => ?_) kept e
  clear e
  repeat' first
    | with_reducible assumption
    | intro _
    | with_reducible apply tickStop_keeps

theorem timebaseWrite_keeps (reg : Nat) (v : Nat) (kept : Keeps hold pre s) :
    Keeps hold pre (timebaseWrite reg v s) := by
  unfold timebaseWrite
  repeat' first
    | with_reducible assumption
    | intro _
    | with_reducible apply tickIgnored_keeps | with_reducible apply wr_keeps
    | with_reducible apply Keeps.ite

theorem execTickTimebaseWrite_keeps (reg : Fin 4) (v : Word) {post : State} (kept : Keeps hold pre s) (e : execTickTimebaseWrite reg v s = .next post) :
    Keeps hold pre post := by
  unfold execTickTimebaseWrite at e
  refine live_keeps (fun s kept => ?_) kept e
  clear e
  repeat' first
    | with_reducible assumption
    | intro _
    | with_reducible apply timebaseWrite_keeps

theorem guardPmWrite_keeps (v : Nat) (kept : Keeps hold pre s) :
    Keeps hold pre (guardPmWrite v s) := by
  unfold guardPmWrite
  repeat' first
    | with_reducible assumption
    | intro _
    | with_reducible apply wr_keeps | with_reducible apply poolLimits_keeps
    | with_reducible apply Keeps.ite

theorem execGuardPmWrite_keeps (v : Word) {post : State} (kept : Keeps hold pre s) (e : execGuardPmWrite v s = .next post) :
    Keeps hold pre post := by
  unfold execGuardPmWrite at e
  refine live_keeps (fun s kept => ?_) kept e
  clear e
  repeat' first
    | with_reducible assumption
    | intro _
    | with_reducible apply guardPmWrite_keeps

theorem execTckNRead_keeps {post : State} (kept : Keeps hold pre s) (e : execTckNRead s = .next post) :
    Keeps hold pre post := by
  unfold execTckNRead at e
  refine live_keeps (fun s kept => ?_) kept e
  clear e
  repeat' first
    | with_reducible assumption
    | intro _
    | with_reducible apply wideLatch_keeps

theorem tickStepped_keeps (old : Nat) (kept : Keeps hold pre s) :
    Keeps hold pre (tickStepped old s) := by
  unfold tickStepped
  repeat' first
    | with_reducible assumption
    | intro _
    | with_reducible apply addReg_keeps | with_reducible apply raise_keeps | with_reducible apply addFld_keeps
    | with_reducible apply Keeps.ite
    | fail_if_no_progress (with_reducible refine Keeps.updTck (e := rfl) (e' := rfl) (h := ?_) ..)
    | fail_if_no_progress (with_reducible apply Keeps.upd)
    | refine Keeps.fst (by assumption) ?_
    | dsimp only
    | split

end Sys2Proof.Machine
end

