-- ==== Sys2Proof/Laws/KeepsStore.lean ====
section
/-!
SUPPORT. Laws/KeepsStore.lean: every operation of Machine/Store.lean that answers a state has `Keeps`.
-/

namespace Sys2Proof.Machine

variable {hold : Bool} {pre s : State}

theorem setChan_keeps (c : Nat) (x : Chan) (kept : Keeps hold pre s) :
    Keeps hold pre (setChan c x s) := by
  unfold setChan
  repeat' first
    | with_reducible assumption
    | intro _
    | with_reducible apply Keeps.ite
    | fail_if_no_progress (with_reducible apply Keeps.upd)

theorem setSlot_keeps (c : Nat) (k : Nat) (x : Slot) (kept : Keeps hold pre s) :
    Keeps hold pre (setSlot c k x s) := by
  unfold setSlot
  repeat' first
    | with_reducible assumption
    | intro _
    | with_reducible apply setChan_keeps

theorem updSlot_keeps (c : Nat) (k : Nat) (f : Slot → Slot) (kept : Keeps hold pre s) :
    Keeps hold pre (updSlot c k f s) := by
  unfold updSlot
  repeat' first
    | with_reducible assumption
    | intro _
    | with_reducible apply setSlot_keeps

theorem dropSlot_keeps (c : Nat) (k : Nat) (kept : Keeps hold pre s) :
    Keeps hold pre (dropSlot c k s) := by
  unfold dropSlot
  repeat' first
    | with_reducible assumption
    | intro _
    | with_reducible apply setSlot_keeps

theorem gWords_keeps (a : Nat) (ws : List Nat) (kept : Keeps hold pre s) :
    Keeps hold pre (gWords a ws s) := by
  unfold gWords
  repeat' first
    | with_reducible assumption
    | intro _
    | with_reducible apply gWrite_keeps

theorem timeDisagree_keeps (c : Nat) (arrival : Nat) (sei : Option Nat) (rtcp : Option Nat) (kept : Keeps hold pre s) :
    Keeps hold pre (timeDisagree c arrival sei rtcp s) := by
  unfold timeDisagree
  repeat' first
    | with_reducible assumption
    | intro _
    | with_reducible apply raiseOnce_keeps

theorem takeSlot_keeps (c : Nat) (k : Nat) (x : Slot) (idWords : List Nat) (kept : Keeps hold pre s) :
    Keeps hold pre (takeSlot c k x idWords s) := by
  unfold takeSlot
  repeat' first
    | with_reducible assumption
    | intro _
    | with_reducible apply setSlot_keeps | with_reducible apply gWords_keeps | with_reducible apply addReg_keeps

theorem completeRecord_keeps (c : Nat) (k : Nat) (kept : Keeps hold pre s) :
    Keeps hold pre (completeRecord c k s) := by
  unfold completeRecord
  repeat' first
    | with_reducible assumption
    | intro _
    | with_reducible apply raiseOnce_keeps | with_reducible apply gWords_keeps | with_reducible apply setSlot_keeps | with_reducible apply setChan_keeps
    | with_reducible apply wr_keeps
    | with_reducible apply Keeps.ite

theorem earnCredits_keeps (c : Nat) (kept : Keeps hold pre s) :
    Keeps hold pre (earnCredits c s) := by
  unfold earnCredits
  repeat' first
    | with_reducible assumption
    | intro _
    | with_reducible apply setChan_keeps

theorem startCredits_keeps (c : Nat) (kept : Keeps hold pre s) :
    Keeps hold pre (startCredits c s) := by
  unfold startCredits
  repeat' first
    | with_reducible assumption
    | intro _
    | with_reducible apply setChan_keeps

theorem spendFrame_keeps (c : Nat) (kept : Keeps hold pre s) :
    Keeps hold pre (spendFrame c s) := by
  unfold spendFrame
  repeat' first
    | with_reducible assumption
    | intro _
    | with_reducible apply setChan_keeps

theorem refundFrame_keeps (c : Nat) (kept : Keeps hold pre s) :
    Keeps hold pre (refundFrame c s) := by
  unfold refundFrame
  repeat' first
    | with_reducible assumption
    | intro _
    | with_reducible apply setChan_keeps

theorem overDeclared_keeps (c : Nat) (check : Nat) (pool : Nat) (kept : Keeps hold pre s) :
    Keeps hold pre (overDeclared c check pool s) := by
  unfold overDeclared
  repeat' first
    | with_reducible assumption
    | intro _
    | with_reducible apply raiseOnce_keeps | with_reducible apply addReg_keeps

theorem srcRejected_keeps (c : Nat) (kept : Keeps hold pre s) :
    Keeps hold pre (srcRejected c s) := by
  unfold srcRejected
  repeat' first
    | with_reducible assumption
    | intro _
    | with_reducible apply addReg_keeps

end Sys2Proof.Machine
end

