-- ==== Sys2Proof/Laws/KeepsVestibule.lean ====
section
/-!
SUPPORT. Laws/KeepsVestibule.lean: every operation of Machine/Vestibule.lean that answers a state has `Keeps`.
-/

namespace Sys2Proof.Machine

variable {hold : Bool} {pre s : State}

theorem setFlow_keeps (f : Nat) (x : Flow) (kept : Keeps hold pre s) :
    Keeps hold pre (setFlow f x s) := by
  unfold setFlow
  repeat' first
    | with_reducible assumption
    | intro _
    | with_reducible apply Keeps.ite
    | fail_if_no_progress (with_reducible apply Keeps.upd)

theorem flowReset_keeps (f : Nat) (kept : Keeps hold pre s) :
    Keeps hold pre (flowReset f s) := by
  unfold flowReset
  repeat' first
    | with_reducible assumption
    | intro _
    | with_reducible apply setFlow_keeps | with_reducible apply wr_keeps | with_reducible apply setFld_keeps

theorem flowBind_keeps (f : Nat) (c : Nat) (kept : Keeps hold pre s) :
    Keeps hold pre (flowBind f c s) := by
  unfold flowBind
  repeat' first
    | with_reducible assumption
    | intro _
    | with_reducible apply flowReset_keeps | with_reducible apply setFlow_keeps | with_reducible apply setFld_keeps | with_reducible apply setFlag_keeps

theorem flowUnbind_keeps (f : Nat) (kept : Keeps hold pre s) :
    Keeps hold pre (flowUnbind f s) := by
  unfold flowUnbind
  repeat' first
    | with_reducible assumption
    | intro _
    | with_reducible apply setFlow_keeps | with_reducible apply setFld_keeps | with_reducible apply setFlag_keeps

theorem release_keeps (c : Nat) (i : BsItem) (kept : Keeps hold pre s) :
    Keeps hold pre (release c i s) := by
  unfold release
  repeat' first
    | with_reducible assumption
    | intro _
    | with_reducible apply setChan_keeps

theorem countMalformed_keeps (f : Nat) (kept : Keeps hold pre s) :
    Keeps hold pre (countMalformed f s) := by
  unfold countMalformed
  repeat' first
    | with_reducible assumption
    | intro _
    | with_reducible apply setFlow_keeps | with_reducible apply raiseOnce_keeps

theorem releasePacket_keeps (f : Nat) (c : Nat) (p : Pkt) (kept : Keeps hold pre s) :
    Keeps hold pre (releasePacket f c p s) := by
  unfold releasePacket
  repeat' first
    | with_reducible assumption
    | intro _
    | with_reducible apply release_keeps | with_reducible apply countMalformed_keeps | with_reducible apply granaryHeal_keeps | with_reducible apply granaryMet_keeps
    | with_reducible apply setFlow_keeps
    | with_reducible apply Keeps.ite

theorem releaseRun_keeps (f c : Nat) (ps : List Pkt) (h : Keeps hold pre s) : Keeps hold pre (releaseRun f c ps s) := by
  induction ps generalizing s with
  | nil => exact h
  | cons p ps ih =>
    unfold releaseRun
    dsimp only
    split
    · exact ih (releasePacket_keeps _ _ _ (setFlow_keeps _ _ h))
    · exact h

theorem releaseAll_keeps (f : Nat) (c : Nat) (kept : Keeps hold pre s) :
    Keeps hold pre (releaseAll f c s) := by
  unfold releaseAll
  repeat' first
    | with_reducible assumption
    | intro _
    | with_reducible apply releasePacket_keeps | with_reducible apply setFlow_keeps
    | with_reducible apply Keeps.ite
    | with_reducible apply Keeps.foldl

theorem declareLost_keeps (f : Nat) (c : Nat) (n : Nat) (kept : Keeps hold pre s) :
    Keeps hold pre (declareLost f c n s) := by
  unfold declareLost
  repeat' first
    | with_reducible assumption
    | intro _
    | with_reducible apply setFlow_keeps | with_reducible apply addReg_keeps | with_reducible apply release_keeps | with_reducible apply raiseTotal_keeps

theorem advanceTo_keeps (f c target n : Nat) (h : Keeps hold pre s) : Keeps hold pre (advanceTo f c target n s) := by
  induction n generalizing s with
  | zero => exact h
  | succ n ih =>
    unfold advanceTo
    dsimp only
    split
    · exact h
    · exact ih (releaseRun_keeps _ _ _ (Keeps.ite h (declareLost_keeps _ _ _ h)))

theorem countLate_keeps (f : Nat) (c : Nat) (n : Nat) (event : Bool) (kept : Keeps hold pre s) :
    Keeps hold pre (countLate f c n event s) := by
  unfold countLate
  repeat' first
    | with_reducible assumption
    | intro _
    | with_reducible apply setFlow_keeps | with_reducible apply raiseOnce_keeps
    | with_reducible apply Keeps.ite

theorem vstWrite_keeps (a : Nat) (bs : List Byte) (kept : Keeps hold pre s) :
    Keeps hold pre (vstWrite a bs s) := by
  unfold vstWrite
  repeat' first
    | with_reducible assumption
    | intro _
    | with_reducible apply dmaWrite_keeps

theorem holdPacket_keeps (f : Nat) (c : Nat) (p : RtpPkt) (rx : Nat) (desc : Nat) (kept : Keeps hold pre s) :
    Keeps hold pre (holdPacket f c p rx desc s) := by
  unfold holdPacket
  repeat' first
    | with_reducible assumption
    | intro _
    | with_reducible apply setFlow_keeps | with_reducible apply vstWrite_keeps | with_reducible apply releaseRun_keeps

theorem reorderFull_keeps (f : Nat) (c : Nat) (kept : Keeps hold pre s) :
    Keeps hold pre (reorderFull f c s) := by
  unfold reorderFull
  repeat' first
    | with_reducible assumption
    | intro _
    | with_reducible apply raiseTotal_keeps | with_reducible apply countLate_keeps

theorem acceptPacket_keeps (f : Nat) (c : Nat) (p : RtpPkt) (rx : Nat) {before : State → State} (hbefore : ∀ t, Keeps hold pre t → Keeps hold pre (before t)) (kept : Keeps hold pre s) :
    Keeps hold pre (acceptPacket f c p rx before s) := by
  unfold acceptPacket
  repeat' first
    | with_reducible assumption
    | intro _
    | with_reducible apply reorderFull_keeps | with_reducible apply holdPacket_keeps
    | with_reducible apply Keeps.ite
    | fail_if_no_progress (with_reducible apply Keeps.upd)
    | refine Keeps.fst (by assumption) ?_
    | with_reducible apply hbefore
    | dsimp only
    | split

theorem flowRestart_keeps (f : Nat) (c : Nat) (p : RtpPkt) (rx : Nat) (kept : Keeps hold pre s) :
    Keeps hold pre (flowRestart f c p rx s) := by
  unfold flowRestart
  repeat' first
    | with_reducible assumption
    | intro _
    | with_reducible apply release_keeps | with_reducible apply releaseAll_keeps | with_reducible apply setFlow_keeps | with_reducible apply acceptPacket_keeps
    | with_reducible apply id_keeps | with_reducible apply addReg_keeps

theorem sequencePacket_keeps (f : Nat) (c : Nat) (p : RtpPkt) (rx : Nat) (kept : Keeps hold pre s) :
    Keeps hold pre (sequencePacket f c p rx s) := by
  unfold sequencePacket
  repeat' first
    | with_reducible assumption
    | intro _
    | with_reducible apply setFlow_keeps | with_reducible apply acceptPacket_keeps | with_reducible apply id_keeps | with_reducible apply advanceTo_keeps
    | with_reducible apply countLate_keeps | with_reducible apply flowRestart_keeps
    | with_reducible apply Keeps.ite

theorem pathAccepts_keeps (f : Nat) (pathB : Bool) (kept : Keeps hold pre s) :
    Keeps hold pre (pathAccepts f pathB s) := by
  unfold pathAccepts
  repeat' first
    | with_reducible assumption
    | intro _
    | with_reducible apply setFlow_keeps | with_reducible apply setFlag_keeps

theorem latchSsrc_keeps (f : Nat) (u : UdpPkt) (kept : Keeps hold pre s) :
    Keeps hold pre (latchSsrc f u s) := by
  unfold latchSsrc
  repeat' first
    | with_reducible assumption
    | intro _
    | with_reducible apply wr_keeps | with_reducible apply setFlow_keeps
    | with_reducible apply Keeps.ite

theorem flowPacket_keeps (f : Nat) (c : Nat) (pathB : Bool) (key : List Nat) (u : UdpPkt) (stamp : Nat) (kept : Keeps hold pre s) :
    Keeps hold pre (flowPacket f c pathB key u stamp s) := by
  unfold flowPacket
  repeat' first
    | with_reducible assumption
    | intro _
    | with_reducible apply setFlow_keeps | with_reducible apply latchSsrc_keeps | with_reducible apply countMalformed_keeps | with_reducible apply pathAccepts_keeps
    | with_reducible apply countLate_keeps | with_reducible apply sequencePacket_keeps
    | with_reducible apply Keeps.ite
    | fail_if_no_progress (with_reducible apply Keeps.upd)
    | refine Keeps.fst (by assumption) ?_
    | dsimp only
    | split

theorem rxPosted_keeps (q : Nat) (up : Bool) (kept : Keeps hold pre s) :
    Keeps hold pre (rxPosted q up s) := by
  unfold rxPosted
  repeat' first
    | with_reducible assumption
    | intro _
    | with_reducible apply setFld_keeps
    | with_reducible apply Keeps.ite

theorem rxDeliver_keeps (q : Nat) (cls : Nat) (mac : Nat) (flow : Option Nat) (f : List Byte) (rx : Nat) (kept : Keeps hold pre s) :
    Keeps hold pre (rxDeliver q cls mac flow f rx s) := by
  unfold rxDeliver
  repeat' first
    | with_reducible assumption
    | intro _
    | with_reducible apply raiseTotal_keeps | with_reducible apply addReg_keeps | with_reducible apply rxPosted_keeps | with_reducible apply dmaWrite_keeps
    | with_reducible apply finish_keeps | with_reducible apply finishFault_keeps
    | with_reducible apply Keeps.ite
    | fail_if_no_progress (with_reducible apply Keeps.upd)
    | refine Keeps.fst (by assumption) ?_
    | dsimp only
    | split

theorem fecCount_keeps (m : Nat) (o : EthObs) (kept : Keeps hold pre s) :
    Keeps hold pre (fecCount m o s) := by
  unfold fecCount
  repeat' first
    | with_reducible assumption
    | intro _
    | with_reducible apply addReg_keeps | with_reducible apply raiseOnce_keeps
    | with_reducible apply Keeps.ite

theorem frameIn_keeps (m : Nat) (f : List Byte) (rx : Nat) (kept : Keeps hold pre s) :
    Keeps hold pre (frameIn m f rx s) := by
  unfold frameIn
  repeat' first
    | with_reducible assumption
    | intro _
    | with_reducible apply rxDeliver_keeps | with_reducible apply addReg_keeps | with_reducible apply flowPacket_keeps
    | with_reducible apply Keeps.ite
    | fail_if_no_progress (with_reducible apply Keeps.upd)
    | refine Keeps.fst (by assumption) ?_
    | dsimp only
    | split

theorem ethReceive_keeps (m : Nat) (f : List Byte) (o : EthObs) (kept : Keeps hold pre s) :
    Keeps hold pre (ethReceive m f o s) := by
  unfold ethReceive
  repeat' first
    | with_reducible assumption
    | intro _
    | with_reducible apply fecCount_keeps | with_reducible apply addReg_keeps | with_reducible apply frameIn_keeps
    | with_reducible apply Keeps.ite

theorem execEthFrameReceive_keeps (mac : Fin 8) (frame : List Byte) (obs : EthObs) {post : State} (kept : Keeps hold pre s) (e : execEthFrameReceive mac frame obs s = .next post) :
    Keeps hold pre post := by
  unfold execEthFrameReceive at e
  refine live_keeps (fun s kept => ?_) kept e
  clear e
  repeat' first
    | with_reducible assumption
    | intro _
    | with_reducible apply ethReceive_keeps
    | with_reducible apply Keeps.ite

theorem reject_keeps (c : Cmd) (reason : Nat) (detail : Nat) (kept : Keeps hold pre s) :
    Keeps hold pre (reject c reason detail s) := by
  unfold reject
  repeat' first
    | with_reducible assumption
    | intro _
    | with_reducible apply finish_keeps

theorem flowAdd_keeps (c : Cmd) (kept : Keeps hold pre s) :
    Keeps hold pre (flowAdd c s) := by
  unfold flowAdd
  repeat' first
    | with_reducible assumption
    | intro _
    | with_reducible apply reject_keeps | with_reducible apply setFlow_keeps | with_reducible apply wr_keeps | with_reducible apply setFld_keeps
    | with_reducible apply setFlag_keeps | with_reducible apply finish_keeps
    | with_reducible apply Keeps.ite

theorem dropKey_keeps (f : Nat) (pathB : Bool) (kept : Keeps hold pre s) :
    Keeps hold pre (dropKey f pathB s) := by
  unfold dropKey
  repeat' first
    | with_reducible assumption
    | intro _
    | with_reducible apply setFlow_keeps | with_reducible apply wr_keeps | with_reducible apply setFld_keeps | with_reducible apply setFlag_keeps
    | with_reducible apply Keeps.ite

theorem inputClear_keeps (c : Nat) (kept : Keeps hold pre s) :
    Keeps hold pre (inputClear c s) := by
  unfold inputClear
  repeat' first
    | with_reducible assumption
    | intro _
    | with_reducible apply wr_keeps

theorem flowDel_keeps (c : Cmd) (kept : Keeps hold pre s) :
    Keeps hold pre (flowDel c s) := by
  unfold flowDel
  repeat' first
    | with_reducible assumption
    | intro _
    | with_reducible apply reject_keeps | with_reducible apply dropKey_keeps | with_reducible apply inputClear_keeps | with_reducible apply flowUnbind_keeps
    | with_reducible apply finish_keeps
    | with_reducible apply Keeps.ite
    | fail_if_no_progress (with_reducible apply Keeps.upd)
    | refine Keeps.fst (by assumption) ?_
    | dsimp only
    | split

theorem execFlowAdd_keeps (tag : Fin 4096) {post : State} (kept : Keeps hold pre s) (e : execFlowAdd tag s = .next post) :
    Keeps hold pre post := by
  unfold execFlowAdd at e
  refine live_keeps (fun s kept => ?_) kept e
  clear e
  repeat' first
    | with_reducible assumption
    | intro _
    | with_reducible apply onCmd_keeps | with_reducible apply flowAdd_keeps

theorem execFlowDel_keeps (tag : Fin 4096) {post : State} (kept : Keeps hold pre s) (e : execFlowDel tag s = .next post) :
    Keeps hold pre post := by
  unfold execFlowDel at e
  refine live_keeps (fun s kept => ?_) kept e
  clear e
  repeat' first
    | with_reducible assumption
    | intro _
    | with_reducible apply onCmd_keeps | with_reducible apply flowDel_keeps

theorem jitterRun_keeps (f c n : Nat) (h : Keeps hold pre s) : Keeps hold pre (jitterRun f c n s) := by
  induction n generalizing s with
  | zero => exact h
  | succ n ih =>
    unfold jitterRun
    dsimp only
    split
    · split
      · exact ih (releaseRun_keeps _ _ _ (Keeps.ite h (declareLost_keeps _ _ _ h)))
      · exact h
    · exact h

theorem execJitterDeadline_keeps (flow : Fin 1024) {post : State} (kept : Keeps hold pre s) (e : execJitterDeadline flow s = .next post) :
    Keeps hold pre post := by
  unfold execJitterDeadline at e
  refine live_keeps (fun s kept => ?_) kept e
  clear e
  repeat' first
    | with_reducible assumption
    | intro _
    | with_reducible apply jitterRun_keeps | with_reducible apply waitElapsed_keeps
    | with_reducible apply Keeps.ite
    | fail_if_no_progress (with_reducible apply Keeps.upd)
    | refine Keeps.fst (by assumption) ?_
    | dsimp only
    | split

theorem execPathSilentTimeout_keeps (flow : Fin 1024) (pathB : Bool) {post : State} (kept : Keeps hold pre s) (e : execPathSilentTimeout flow pathB s = .next post) :
    Keeps hold pre post := by
  unfold execPathSilentTimeout at e
  refine live_keeps (fun s kept => ?_) kept e
  clear e
  repeat' first
    | with_reducible assumption
    | intro _
    | with_reducible apply waitElapsed_keeps | with_reducible apply raise_keeps | with_reducible apply setFlag_keeps
    | with_reducible apply Keeps.ite
    | fail_if_no_progress (with_reducible apply Keeps.upd)
    | refine Keeps.fst (by assumption) ?_
    | dsimp only
    | split

theorem execFlowCountsRead_keeps (flow : Fin 1024) {post : State} (kept : Keeps hold pre s) (e : execFlowCountsRead flow s = .next post) :
    Keeps hold pre post := by
  unfold execFlowCountsRead at e
  refine live_keeps (fun s kept => ?_) kept e
  clear e
  repeat' first
    | with_reducible assumption
    | intro _
    | with_reducible apply wr_keeps

theorem ringCopy_keeps (c : Nat) (bs : List Byte) (kept : Keeps hold pre s) :
    Keeps hold pre (ringCopy c bs s) := by
  unfold ringCopy
  repeat' first
    | with_reducible assumption
    | intro _
    | with_reducible apply vstWrite_keeps | with_reducible apply setChan_keeps
    | with_reducible apply Keeps.ite

theorem lossReport_keeps (c : Nat) (n : Nat) (kept : Keeps hold pre s) :
    Keeps hold pre (lossReport c n s) := by
  unfold lossReport
  repeat' first
    | with_reducible assumption
    | intro _
    | with_reducible apply addReg_keeps | with_reducible apply setChan_keeps

theorem depacketiseData_keeps (c : Nat) (p : Pkt) (kept : Keeps hold pre s) :
    Keeps hold pre (depacketiseData c p s) := by
  unfold depacketiseData
  repeat' first
    | with_reducible assumption
    | intro _
    | with_reducible apply ringCopy_keeps | with_reducible apply setChan_keeps

theorem depacketise_keeps (c : Nat) (is : List BsItem) (h : Keeps hold pre s) : Keeps hold pre (depacketise c is s) := by
  induction is generalizing s with
  | nil => exact h
  | cons i is ih =>
    cases i with
    | loss n => exact ih (lossReport_keeps _ _ (setChan_keeps _ _ h))
    | data p =>
      unfold depacketise
      exact Keeps.ite (depacketiseData_keeps _ _ (setChan_keeps _ _ h)) h

theorem execDepacketise_keeps (ch : Fin 96) {post : State} (kept : Keeps hold pre s) (e : execDepacketise ch s = .next post) :
    Keeps hold pre post := by
  unfold execDepacketise at e
  refine live_keeps (fun s kept => ?_) kept e
  clear e
  repeat' first
    | with_reducible assumption
    | intro _
    | with_reducible apply depacketise_keeps
    | with_reducible apply Keeps.ite

theorem netRxPost_keeps (c : Cmd) (kept : Keeps hold pre s) :
    Keeps hold pre (netRxPost c s) := by
  unfold netRxPost
  repeat' first
    | with_reducible assumption
    | intro _
    | with_reducible apply finish_keeps | with_reducible apply rxPosted_keeps | with_reducible apply waitCmd_keeps
    | with_reducible apply Keeps.ite

theorem execNetRxPost_keeps (tag : Fin 4096) {post : State} (kept : Keeps hold pre s) (e : execNetRxPost tag s = .next post) :
    Keeps hold pre post := by
  unfold execNetRxPost at e
  refine live_keeps (fun s kept => ?_) kept e
  clear e
  repeat' first
    | with_reducible assumption
    | intro _
    | with_reducible apply onCmd_keeps | with_reducible apply netRxPost_keeps

theorem execNetTx_keeps (tag : Fin 4096) {post : State} (kept : Keeps hold pre s) (e : execNetTx tag s = .next post) :
    Keeps hold pre post := by
  unfold execNetTx at e
  refine live_keeps (fun s kept => ?_) kept e
  clear e
  repeat' first
    | with_reducible assumption
    | intro _
    | with_reducible apply onCmd_keeps | with_reducible apply waitCmd_keeps | with_reducible apply finish_keeps
    | with_reducible apply Keeps.ite

theorem netTxSent_keeps (c : Cmd) (err : Int) (kept : Keeps hold pre s) :
    Keeps hold pre (netTxSent c err s) := by
  unfold netTxSent
  repeat' first
    | with_reducible assumption
    | intro _
    | with_reducible apply finish_keeps | with_reducible apply dmaRead_keeps | with_reducible apply finishFault_keeps | with_reducible apply addReg_keeps
    | with_reducible apply Keeps.ite
    | fail_if_no_progress (with_reducible apply Keeps.upd)
    | refine Keeps.fst (by assumption) ?_
    | dsimp only
    | split

theorem execNetTxSent_keeps (tag : Fin 4096) (o : SendObs) {post : State} (kept : Keeps hold pre s) (e : execNetTxSent tag o s = .next post) :
    Keeps hold pre post := by
  unfold execNetTxSent at e
  refine live_keeps (fun s kept => ?_) kept e
  clear e
  repeat' first
    | with_reducible assumption
    | intro _
    | with_reducible apply linked_keeps | with_reducible apply onWaiting_keeps | with_reducible apply netTxSent_keeps

theorem vstDrain_keeps (c : Nat) (kept : Keeps hold pre s) :
    Keeps hold pre (vstDrain c s) := by
  unfold vstDrain
  repeat' first
    | with_reducible assumption
    | intro _
    | with_reducible apply countLate_keeps | with_reducible apply setFlow_keeps
    | with_reducible apply Keeps.ite
    | fail_if_no_progress (with_reducible apply Keeps.upd)
    | refine Keeps.fst (by assumption) ?_
    | dsimp only
    | split

theorem vstWake_keeps (kept : Keeps hold pre s) :
    Keeps hold pre (vstWake s) := by
  unfold vstWake
  repeat' first
    | with_reducible assumption
    | intro _
    | with_reducible apply release_keeps
    | with_reducible apply Keeps.ite
    | with_reducible apply Keeps.foldl | with_reducible apply Keeps.foldlPair
    | fail_if_no_progress (with_reducible apply Keeps.upd)
    | refine Keeps.fst (by assumption) ?_
    | dsimp only
    | split

end Sys2Proof.Machine
end

