-- ==== Sys2Proof/Laws/KeepsSources.lean ====
section
/-!
SUPPORT. Laws/KeepsSources.lean: every operation of Machine/Sources.lean that answers a state has `Keeps`.
-/

namespace Sys2Proof.Machine

variable {hold : Bool} {pre s : State}

theorem srcStart_keeps (c : Nat) (kind : Nat) (w : Nat → Nat) (kept : Keeps hold pre s) :
    Keeps hold pre (srcStart c kind w s) := by
  unfold srcStart
  repeat' first
    | with_reducible assumption
    | intro _
    | with_reducible apply poolAdmit_keeps | with_reducible apply setFld_keeps | with_reducible apply setFlag_keeps | with_reducible apply wr_keeps
    | with_reducible apply setChan_keeps | with_reducible apply setUnit_keeps
    | with_reducible apply Keeps.ite
    | with_reducible apply Keeps.foldl

theorem srcOpen_keeps (c : Cmd) (kept : Keeps hold pre s) :
    Keeps hold pre (srcOpen c s) := by
  unfold srcOpen
  repeat' first
    | with_reducible assumption
    | intro _
    | with_reducible apply reject_keeps | with_reducible apply finish_keeps | with_reducible apply waitCmd_keeps | with_reducible apply srcStart_keeps
    | with_reducible apply Keeps.ite
    | fail_if_no_progress (with_reducible apply Keeps.upd)
    | refine Keeps.fst (by assumption) ?_
    | dsimp only
    | split

theorem execSrcOpen_keeps (tag : Fin 4096) {post : State} (kept : Keeps hold pre s) (e : execSrcOpen tag s = .next post) :
    Keeps hold pre post := by
  unfold execSrcOpen at e
  refine live_keeps (fun s kept => ?_) kept e
  clear e
  repeat' first
    | with_reducible assumption
    | intro _
    | with_reducible apply onCmd_keeps | with_reducible apply enableCmd_keeps | with_reducible apply srcOpen_keeps

theorem enableIgnored_keeps (kind : Nat) (u : Nat) (reg : Nat) (stickyBit : Nat) (off : Nat) (kept : Keeps hold pre s) :
    Keeps hold pre (enableIgnored kind u reg stickyBit off s) := by
  unfold enableIgnored
  repeat' first
    | with_reducible assumption
    | intro _
    | with_reducible apply raise_keeps | with_reducible apply setFlag_keeps

theorem srcRegEnable_keeps (c : Nat) (v : Nat) (kept : Keeps hold pre s) :
    Keeps hold pre (srcRegEnable c v s) := by
  unfold srcRegEnable
  repeat' first
    | with_reducible assumption
    | intro _
    | with_reducible apply enableIgnored_keeps | with_reducible apply setFld_keeps | with_reducible apply setFlag_keeps | with_reducible apply srcStart_keeps
    | with_reducible apply Keeps.ite

theorem execSrcRegEnable_keeps (ch : Fin 96) (v : Word) {post : State} (kept : Keeps hold pre s) (e : execSrcRegEnable ch v s = .next post) :
    Keeps hold pre post := by
  unfold execSrcRegEnable at e
  refine live_keeps (fun s kept => ?_) kept e
  clear e
  repeat' first
    | with_reducible assumption
    | intro _
    | with_reducible apply srcRegEnable_keeps
    | with_reducible apply Keeps.ite

theorem updPic_keeps (c : Nat) (f : Pic → Pic) (kept : Keeps hold pre s) :
    Keeps hold pre (updPic c f s) := by
  unfold updPic
  repeat' first
    | with_reducible assumption
    | intro _
    | with_reducible apply setChan_keeps

theorem pageGive_keeps (c : Nat) (p : Pic) (kept : Keeps hold pre s) :
    Keeps hold pre (pageGive c p s) := by
  unfold pageGive
  repeat' first
    | with_reducible assumption
    | intro _
    | with_reducible apply setFld_keeps | with_reducible apply updPic_keeps

theorem pageTake_keeps (c : Nat) (kept : Keeps hold pre s) :
    Keeps hold pre (pageTake c s) := by
  unfold pageTake
  repeat' first
    | with_reducible assumption
    | intro _
    | with_reducible apply updPic_keeps | with_reducible apply addReg_keeps | with_reducible apply pageGive_keeps
    | with_reducible apply Keeps.ite
    | fail_if_no_progress (with_reducible apply Keeps.upd)
    | refine Keeps.fst (by assumption) ?_
    | dsimp only
    | split

theorem pagesServe_keeps (kept : Keeps hold pre s) :
    Keeps hold pre (pagesServe s) := by
  unfold pagesServe
  repeat' first
    | with_reducible assumption
    | intro _
    | with_reducible apply pageGive_keeps
    | with_reducible apply Keeps.ite
    | with_reducible apply Keeps.foldl | with_reducible apply Keeps.foldlPair
    | fail_if_no_progress (with_reducible apply Keeps.upd)
    | refine Keeps.fst (by assumption) ?_
    | dsimp only
    | split

theorem pagesReturn_keeps (c : Nat) (n : Nat) (kept : Keeps hold pre s) :
    Keeps hold pre (pagesReturn c n s) := by
  unfold pagesReturn
  repeat' first
    | with_reducible assumption
    | intro _
    | with_reducible apply pagesServe_keeps | with_reducible apply updPic_keeps | with_reducible apply setFld_keeps
    | with_reducible apply Keeps.ite
    | fail_if_no_progress (with_reducible apply Keeps.upd)
    | refine Keeps.fst (by assumption) ?_
    | dsimp only
    | split

theorem stopPicture_keeps (c : Nat) (kept : Keeps hold pre s) :
    Keeps hold pre (stopPicture c s) := by
  unfold stopPicture
  repeat' first
    | with_reducible assumption
    | intro _
    | with_reducible apply setFlag_keeps | with_reducible apply pagesReturn_keeps | with_reducible apply updPic_keeps | with_reducible apply dropSlot_keeps
    | with_reducible apply setChan_keeps
    | with_reducible apply Keeps.ite
    | fail_if_no_progress (with_reducible apply Keeps.upd)
    | refine Keeps.fst (by assumption) ?_
    | dsimp only
    | split

theorem abortCopies_keeps (c : Nat) (kept : Keeps hold pre s) :
    Keeps hold pre (abortCopies c s) := by
  unfold abortCopies
  repeat' first
    | with_reducible assumption
    | intro _
    | with_reducible apply finish_keeps | with_reducible apply dropSlot_keeps
    | with_reducible apply Keeps.ite
    | with_reducible apply Keeps.foldl

theorem stopNative_keeps (c : Nat) (kept : Keeps hold pre s) :
    Keeps hold pre (stopNative c s) := by
  unfold stopNative
  repeat' first
    | with_reducible assumption
    | intro _
    | with_reducible apply setChan_keeps | with_reducible apply updSlot_keeps
    | with_reducible apply Keeps.ite
    | fail_if_no_progress (with_reducible apply Keeps.upd)
    | refine Keeps.fst (by assumption) ?_
    | dsimp only
    | split

theorem srcDrain_keeps (c : Nat) (kept : Keeps hold pre s) :
    Keeps hold pre (srcDrain c s) := by
  unfold srcDrain
  repeat' first
    | with_reducible assumption
    | intro _
    | with_reducible apply vstDrain_keeps | with_reducible apply stopNative_keeps | with_reducible apply abortCopies_keeps | with_reducible apply stopPicture_keeps
    | with_reducible apply unitDrain_keeps

theorem execSrcClose_keeps (tag : Fin 4096) {post : State} (kept : Keeps hold pre s) (e : execSrcClose tag s = .next post) :
    Keeps hold pre post := by
  unfold execSrcClose at e
  refine live_keeps (fun s kept => ?_) kept e
  clear e
  repeat' first
    | with_reducible assumption
    | intro _
    | with_reducible apply onCmd_keeps | with_reducible apply disableCmd_keeps | with_reducible apply srcDrain_keeps

theorem srcRegDisable_keeps (c : Nat) (v : Nat) (kept : Keeps hold pre s) :
    Keeps hold pre (srcRegDisable c v s) := by
  unfold srcRegDisable
  repeat' first
    | with_reducible assumption
    | intro _
    | with_reducible apply setFld_keeps | with_reducible apply finishWaiters_keeps | with_reducible apply srcDrain_keeps
    | with_reducible apply Keeps.ite

theorem execSrcRegDisable_keeps (ch : Fin 96) (v : Word) {post : State} (kept : Keeps hold pre s) (e : execSrcRegDisable ch v s = .next post) :
    Keeps hold pre post := by
  unfold execSrcRegDisable at e
  refine live_keeps (fun s kept => ?_) kept e
  clear e
  repeat' first
    | with_reducible assumption
    | intro _
    | with_reducible apply srcRegDisable_keeps
    | with_reducible apply Keeps.ite

theorem flowGiveUp_keeps (c : Nat) (kept : Keeps hold pre s) :
    Keeps hold pre (flowGiveUp c s) := by
  unfold flowGiveUp
  repeat' first
    | with_reducible assumption
    | intro _
    | with_reducible apply release_keeps | with_reducible apply releaseAll_keeps | with_reducible apply flowUnbind_keeps
    | with_reducible apply Keeps.ite
    | fail_if_no_progress (with_reducible apply Keeps.upd)
    | refine Keeps.fst (by assumption) ?_
    | dsimp only
    | split

theorem srcMap_keeps (c : Cmd) (kept : Keeps hold pre s) :
    Keeps hold pre (srcMap c s) := by
  unfold srcMap
  repeat' first
    | with_reducible assumption
    | intro _
    | with_reducible apply finish_keeps | with_reducible apply reject_keeps | with_reducible apply wr_keeps | with_reducible apply flowGiveUp_keeps
    | with_reducible apply flowBind_keeps
    | with_reducible apply Keeps.ite

theorem execSrcMap_keeps (tag : Fin 4096) {post : State} (kept : Keeps hold pre s) (e : execSrcMap tag s = .next post) :
    Keeps hold pre post := by
  unfold execSrcMap at e
  refine live_keeps (fun s kept => ?_) kept e
  clear e
  repeat' first
    | with_reducible assumption
    | intro _
    | with_reducible apply onCmd_keeps | with_reducible apply srcMap_keeps

theorem framePostTake_keeps (c : Cmd) (ch : Nat) (k : Nat) (kept : Keeps hold pre s) :
    Keeps hold pre (framePostTake c ch k s) := by
  unfold framePostTake
  repeat' first
    | with_reducible assumption
    | intro _
    | with_reducible apply takeSlot_keeps | with_reducible apply spendFrame_keeps | with_reducible apply waitCmd_keeps

theorem framePost_keeps (c : Cmd) (kept : Keeps hold pre s) :
    Keeps hold pre (framePost c s) := by
  unfold framePost
  repeat' first
    | with_reducible assumption
    | intro _
    | with_reducible apply finish_keeps | with_reducible apply reject_keeps | with_reducible apply srcRejected_keeps | with_reducible apply overDeclared_keeps
    | with_reducible apply framePostTake_keeps
    | with_reducible apply Keeps.ite
    | fail_if_no_progress (with_reducible apply Keeps.upd)
    | refine Keeps.fst (by assumption) ?_
    | dsimp only
    | split

theorem execFramePost_keeps (tag : Fin 4096) {post : State} (kept : Keeps hold pre s) (e : execFramePost tag s = .next post) :
    Keeps hold pre post := by
  unfold execFramePost at e
  refine live_keeps (fun s kept => ?_) kept e
  clear e
  repeat' first
    | with_reducible assumption
    | intro _
    | with_reducible apply onCmd_keeps | with_reducible apply framePost_keeps

theorem copyRows_keeps (sp src spitch dst dpitch n rows : Nat) (h : Keeps hold pre s) :
    Keeps hold pre (copyRows sp src spitch dst dpitch n rows s).1 := by
  induction rows generalizing src dst s with
  | zero => exact h
  | succ rows ih =>
    unfold copyRows
    have h1 := dmaRead_keeps 5 18 sp src n h
    split
    · next e => exact Keeps.fst e h1
    · next e =>
      have h2 := Keeps.fst e h1
      split
      · next e => exact Keeps.fst e (dmaWrite_keeps _ _ _ _ _ h2)
      · next e => exact ih _ _ (Keeps.fst e (dmaWrite_keeps _ _ _ _ _ h2))

theorem copyFrame_keeps (c : Cmd) (ch : Nat) (k : Nat) (kept : Keeps hold pre s) :
    Keeps hold pre (copyFrame c ch k s).1 := by
  unfold copyFrame
  repeat' first
    | with_reducible assumption
    | intro _
    | with_reducible apply dmaWrite_keeps | with_reducible apply copyRows_keeps
    | with_reducible apply Keeps.ite | with_reducible apply Keeps.iteFst
    | fail_if_no_progress (with_reducible apply Keeps.upd)
    | refine Keeps.fst (by assumption) ?_
    | dsimp only
    | split

theorem framePostCopied_keeps (c : Cmd) (kept : Keeps hold pre s) :
    Keeps hold pre (framePostCopied c s) := by
  unfold framePostCopied
  repeat' first
    | with_reducible assumption
    | intro _
    | with_reducible apply copyFrame_keeps | with_reducible apply wr_keeps | with_reducible apply refundFrame_keeps | with_reducible apply dropSlot_keeps
    | with_reducible apply finishFault_keeps | with_reducible apply updSlot_keeps | with_reducible apply finish_keeps | with_reducible apply completeRecord_keeps
    | with_reducible apply Keeps.ite
    | fail_if_no_progress (with_reducible apply Keeps.upd)
    | refine Keeps.fst (by assumption) ?_
    | dsimp only
    | split

theorem execFramePostCopyDone_keeps (w : WorkEnd) {post : State} (kept : Keeps hold pre s) (e : execFramePostCopyDone w s = .next post) :
    Keeps hold pre post := by
  unfold execFramePostCopyDone at e
  refine live_keeps (fun s kept => ?_) kept e
  clear e
  repeat' first
    | with_reducible assumption
    | intro _
    | with_reducible apply linked_keeps | with_reducible apply onWaiting_keeps | with_reducible apply framePostCopied_keeps

theorem mapCommit_keeps (c : Nat) (v : Nat) (kept : Keeps hold pre s) :
    Keeps hold pre (mapCommit c v s) := by
  unfold mapCommit
  repeat' first
    | with_reducible assumption
    | intro _
    | with_reducible apply huskStore_keeps | with_reducible apply wr_keeps | with_reducible apply setChan_keeps | with_reducible apply raise_keeps
    | with_reducible apply Keeps.ite

theorem execRtcpMapCommit_keeps (ch : Fin 96) (k : Word) {post : State} (kept : Keeps hold pre s) (e : execRtcpMapCommit ch k s = .next post) :
    Keeps hold pre post := by
  unfold execRtcpMapCommit at e
  refine live_keeps (fun s kept => ?_) kept e
  clear e
  repeat' first
    | with_reducible assumption
    | intro _
    | with_reducible apply huskK_keeps | with_reducible apply mapCommit_keeps

theorem execRtcpMapExpire_keeps (ch : Fin 96) {post : State} (kept : Keeps hold pre s) (e : execRtcpMapExpire ch s = .next post) :
    Keeps hold pre post := by
  unfold execRtcpMapExpire at e
  refine live_keeps (fun s kept => ?_) kept e
  clear e
  repeat' first
    | with_reducible assumption
    | intro _
    | with_reducible apply waitClock_keeps | with_reducible apply setChan_keeps | with_reducible apply raise_keeps | with_reducible apply setFlag_keeps
    | with_reducible apply Keeps.ite
    | fail_if_no_progress (with_reducible apply Keeps.upd)
    | refine Keeps.fst (by assumption) ?_
    | dsimp only
    | split

theorem execVdcSlotCountsRead_keeps (ch : Fin 96) {post : State} (kept : Keeps hold pre s) (e : execVdcSlotCountsRead ch s = .next post) :
    Keeps hold pre post := by
  unfold execVdcSlotCountsRead at e
  refine live_keeps (fun s kept => ?_) kept e
  clear e
  repeat' first
    | with_reducible assumption
    | intro _
    | with_reducible apply wr_keeps
    | with_reducible apply Keeps.ite

end Sys2Proof.Machine
end

