-- ==== Sys2Proof/Laws/KeepsLedger.lean ====
section
/-!
SUPPORT. Laws/KeepsLedger.lean: every operation of Machine/Ledger.lean that answers a state has `Keeps`.
-/

namespace Sys2Proof.Machine

variable {hold : Bool} {pre s : State}

theorem setLane_keeps (n : Nat) (x : LaneSt) (kept : Keeps hold pre s) :
    Keeps hold pre (setLane n x s) := by
  unfold setLane
  repeat' first
    | with_reducible assumption
    | intro _
    | with_reducible apply Keeps.ite
    | fail_if_no_progress (with_reducible apply Keeps.upd)

theorem setLayer_keeps (i : Nat) (x : Layer) (kept : Keeps hold pre s) :
    Keeps hold pre (setLayer i x s) := by
  unfold setLayer
  repeat' first
    | with_reducible assumption
    | intro _
    | with_reducible apply Keeps.ite
    | fail_if_no_progress (with_reducible apply Keeps.upd)

theorem ledgerFail_keeps (kind : Nat) (i : Nat) (d : Side) (kept : Keeps hold pre s) :
    Keeps hold pre (ledgerFail kind i d s) := by
  unfold ledgerFail
  repeat' first
    | with_reducible assumption
    | intro _
    | with_reducible apply setFlag_keeps | with_reducible apply wr_keeps | with_reducible apply raise_keeps
    | with_reducible apply Keeps.ite
    | fail_if_no_progress (with_reducible refine Keeps.updTck (e := rfl) (e' := rfl) (h := ?_) ..)

theorem ledgerCheck_keeps (snap0 : State) (kind : Nat) (i : Nat) (kept : Keeps hold pre s) :
    Keeps hold pre (ledgerCheck snap0 kind i s) := by
  unfold ledgerCheck
  repeat' first
    | with_reducible assumption
    | intro _
    | with_reducible apply ledgerFail_keeps
    | with_reducible apply Keeps.ite
    | fail_if_no_progress (with_reducible apply Keeps.upd)
    | refine Keeps.fst (by assumption) ?_
    | dsimp only
    | split

theorem ledgerSeal_keeps (snap0 : State) (kept : Keeps hold pre s) :
    Keeps hold pre (ledgerSeal snap0 s) := by
  unfold ledgerSeal
  repeat' first
    | with_reducible assumption
    | intro _
    | with_reducible apply ledgerCheck_keeps
    | with_reducible apply Keeps.ite
    | with_reducible apply Keeps.foldl

theorem ringsEmpty_keeps (kept : Keeps hold pre s) :
    Keeps hold pre (ringsEmpty s) := by
  unfold ringsEmpty
  repeat' first
    | with_reducible assumption
    | intro _
    | with_reducible apply setFld_keeps | with_reducible apply wr_keeps
    | with_reducible apply Keeps.ite
    | with_reducible apply Keeps.foldl | with_reducible apply Keeps.foldlPair
    | fail_if_no_progress (with_reducible apply Keeps.upd)

theorem ledgerEmpty_keeps (kind : Nat) (i : Nat) (kept : Keeps hold pre s) :
    Keeps hold pre (ledgerEmpty kind i s) := by
  unfold ledgerEmpty
  repeat' first
    | with_reducible assumption
    | intro _
    | with_reducible apply setChan_keeps | with_reducible apply poolEmptied_keeps | with_reducible apply ringsEmpty_keeps | with_reducible apply setFld_keeps
    | with_reducible apply wr_keeps | with_reducible apply flowReset_keeps | with_reducible apply setLane_keeps
    | with_reducible apply Keeps.ite

theorem ledgerClear_keeps (kind : Nat) (i : Nat) (kept : Keeps hold pre s) :
    Keeps hold pre (ledgerClear kind i s) := by
  unfold ledgerClear
  repeat' first
    | with_reducible assumption
    | intro _
    | with_reducible apply ledgerEmpty_keeps | with_reducible apply setFlag_keeps | with_reducible apply wr_keeps
    | with_reducible apply Keeps.ite
    | fail_if_no_progress (with_reducible refine Keeps.updTck (e := rfl) (e' := rfl) (h := ?_) ..)

theorem ledgerRepair_keeps (kept : Keeps hold pre s) :
    Keeps hold pre (ledgerRepair s) := by
  unfold ledgerRepair
  repeat' first
    | with_reducible assumption
    | intro _
    | with_reducible apply ledgerClear_keeps
    | with_reducible apply Keeps.ite
    | with_reducible apply Keeps.foldl

theorem ledgerRead_keeps (c : Cmd) (kept : Keeps hold pre s) :
    Keeps hold pre (ledgerRead c s) := by
  unfold ledgerRead
  repeat' first
    | with_reducible assumption
    | intro _
    | with_reducible apply finish_keeps

theorem execLedgerRead_keeps (tag : Fin 4096) {post : State} (kept : Keeps hold pre s) (e : execLedgerRead tag s = .next post) :
    Keeps hold pre post := by
  unfold execLedgerRead at e
  refine live_keeps (fun s kept => ?_) kept e
  clear e
  repeat' first
    | with_reducible assumption
    | intro _
    | with_reducible apply onCmd_keeps | with_reducible apply ledgerRead_keeps

end Sys2Proof.Machine
end

