-- ==== Sys2Proof/Laws/KeepsTimeUnit.lean ====
section
/-!
SUPPORT. Laws/KeepsTimeUnit.lean: every operation of Machine/TimeUnit.lean that answers a state has `Keeps`.
-/

namespace Sys2Proof.Machine

variable {hold : Bool} {pre s : State}

theorem setTimeState_keeps (new : Nat) (kept : Keeps hold pre s) :
    Keeps hold pre (setTimeState new s) := by
  unfold setTimeState
  repeat' first
    | with_reducible assumption
    | intro _
    | with_reducible apply setFld_keeps | with_reducible apply raise_keeps
    | with_reducible apply Keeps.ite

theorem enterHoldover_keeps (kept : Keeps hold pre s) :
    Keeps hold pre (enterHoldover s) := by
  unfold enterHoldover
  repeat' first
    | with_reducible assumption
    | intro _
    | with_reducible apply wr_keeps | with_reducible apply setTimeState_keeps
    | with_reducible apply Keeps.ite
    | fail_if_no_progress (with_reducible apply Keeps.upd)

theorem servoRefuse_keeps (θ : Int) (kept : Keeps hold pre s) :
    Keeps hold pre (servoRefuse θ s) := by
  unfold servoRefuse
  repeat' first
    | with_reducible assumption
    | intro _
    | with_reducible apply wr64_keeps | with_reducible apply addFld_keeps | with_reducible apply setFlag_keeps | with_reducible apply addReg_keeps
    | with_reducible apply raise_keeps | with_reducible apply enterHoldover_keeps
    | with_reducible apply Keeps.ite

theorem servoWithdraw_keeps (kept : Keeps hold pre s) :
    Keeps hold pre (servoWithdraw s) := by
  unfold servoWithdraw
  repeat' first
    | with_reducible assumption
    | intro _
    | with_reducible apply raise_keeps | with_reducible apply setFlag_keeps
    | with_reducible apply Keeps.ite

theorem servoAccept_keeps (θ : Int) (kept : Keeps hold pre s) :
    Keeps hold pre (servoAccept θ s) := by
  unfold servoAccept
  repeat' first
    | with_reducible assumption
    | intro _
    | with_reducible apply wr_keeps | with_reducible apply setTimeState_keeps | with_reducible apply servoWithdraw_keeps
    | with_reducible apply Keeps.ite
    | fail_if_no_progress (with_reducible apply Keeps.upd)

theorem servoDiscard_keeps (θ : Int) (kept : Keeps hold pre s) :
    Keeps hold pre (servoDiscard θ s) := by
  unfold servoDiscard
  repeat' first
    | with_reducible assumption
    | intro _
    | with_reducible apply setFlag_keeps | with_reducible apply addReg_keeps | with_reducible apply raise_keeps

theorem servoSample_keeps (kept : Keeps hold pre s) :
    Keeps hold pre (servoSample s) := by
  unfold servoSample
  repeat' first
    | with_reducible assumption
    | intro _
    | with_reducible apply servoDiscard_keeps | with_reducible apply servoRefuse_keeps | with_reducible apply servoAccept_keeps
    | with_reducible apply Keeps.ite

theorem execServoSample_keeps (v : Word) {post : State} (kept : Keeps hold pre s) (e : execServoSample v s = .next post) :
    Keeps hold pre post := by
  unfold execServoSample at e
  refine live_keeps (fun s kept => ?_) kept e
  clear e
  repeat' first
    | with_reducible assumption
    | intro _
    | with_reducible apply servoSample_keeps
    | with_reducible apply Keeps.ite

theorem servoOff_keeps (kept : Keeps hold pre s) :
    Keeps hold pre (servoOff s) := by
  unfold servoOff
  repeat' first
    | with_reducible assumption
    | intro _
    | with_reducible apply wr_keeps | with_reducible apply setFlag_keeps | with_reducible apply setTimeState_keeps

theorem execServoDisable_keeps {post : State} (kept : Keeps hold pre s) (e : execServoDisable s = .next post) :
    Keeps hold pre post := by
  unfold execServoDisable at e
  refine live_keeps (fun s kept => ?_) kept e
  clear e
  repeat' first
    | with_reducible assumption
    | intro _
    | with_reducible apply servoOff_keeps

theorem freqWrite_keeps (reg : Nat) (v : Nat) (kept : Keeps hold pre s) :
    Keeps hold pre (freqWrite reg v s) := by
  unfold freqWrite
  repeat' first
    | with_reducible assumption
    | intro _
    | with_reducible apply wr_keeps
    | with_reducible apply Keeps.ite

theorem execFreqWrite_keeps (reg : Fin 3) (v : Word) {post : State} (kept : Keeps hold pre s) (e : execFreqWrite reg v s = .next post) :
    Keeps hold pre post := by
  unfold execFreqWrite at e
  refine live_keeps (fun s kept => ?_) kept e
  clear e
  repeat' first
    | with_reducible assumption
    | intro _
    | with_reducible apply freqWrite_keeps

theorem execHoldoverTimeout_keeps {post : State} (kept : Keeps hold pre s) (e : execHoldoverTimeout s = .next post) :
    Keeps hold pre post := by
  unfold execHoldoverTimeout at e
  refine liveAon_keeps (fun s kept => ?_) kept e
  clear e
  repeat' first
    | with_reducible assumption
    | intro _
    | with_reducible apply enterHoldover_keeps | with_reducible apply waitElapsed_keeps
    | with_reducible apply Keeps.ite

theorem execTimNowRead_keeps {post : State} (kept : Keeps hold pre s) (e : execTimNowRead s = .next post) :
    Keeps hold pre post := by
  unfold execTimNowRead at e
  refine live_keeps (fun s kept => ?_) kept e
  clear e
  repeat' first
    | with_reducible assumption
    | intro _
    | with_reducible apply wr_keeps | with_reducible apply wr64_keeps

theorem execTimURead_keeps {post : State} (kept : Keeps hold pre s) (e : execTimURead s = .next post) :
    Keeps hold pre post := by
  unfold execTimURead at e
  refine live_keeps (fun s kept => ?_) kept e
  clear e
  repeat' first
    | with_reducible assumption
    | intro _
    | with_reducible apply wr64_keeps

theorem setCap_keeps (c : Nat) (x : CapSt) (kept : Keeps hold pre s) :
    Keeps hold pre (setCap c x s) := by
  unfold setCap
  repeat' first
    | with_reducible assumption
    | intro _
    | with_reducible apply setFld_keeps
    | with_reducible apply Keeps.ite
    | fail_if_no_progress (with_reducible apply Keeps.upd)

theorem captureEdge_keeps (c : Nat) (rising : Bool) (err : Int) (kept : Keeps hold pre s) :
    Keeps hold pre (captureEdge c rising err s) := by
  unfold captureEdge
  repeat' first
    | with_reducible assumption
    | intro _
    | with_reducible apply addFld_keeps | with_reducible apply raiseOnce_keeps | with_reducible apply setCap_keeps
    | with_reducible apply Keeps.ite

theorem execCaptureEdge_keeps (input : Fin 17) (rising : Bool) (err : Int) {post : State} (kept : Keeps hold pre s) (e : execCaptureEdge input rising err s = .next post) :
    Keeps hold pre post := by
  unfold execCaptureEdge at e
  refine liveAon_keeps (fun s kept => ?_) kept e
  clear e
  repeat' first
    | with_reducible assumption
    | intro _
    | with_reducible apply captureEdge_keeps
    | with_reducible apply Keeps.ite

theorem showStamp_keeps (c : Nat) (t : Nat) (rising : Bool) (kept : Keeps hold pre s) :
    Keeps hold pre (showStamp c t rising s) := by
  unfold showStamp
  repeat' first
    | with_reducible assumption
    | intro _
    | with_reducible apply wr64_keeps | with_reducible apply setFlag_keeps | with_reducible apply wr_keeps

theorem execCaptureFifoRead_keeps (input : Fin 17) {post : State} (kept : Keeps hold pre s) (e : execCaptureFifoRead input s = .next post) :
    Keeps hold pre post := by
  unfold execCaptureFifoRead at e
  refine live_keeps (fun s kept => ?_) kept e
  clear e
  repeat' first
    | with_reducible assumption
    | intro _
    | with_reducible apply showStamp_keeps | with_reducible apply setCap_keeps
    | with_reducible apply Keeps.ite
    | fail_if_no_progress (with_reducible apply Keeps.upd)
    | refine Keeps.fst (by assumption) ?_
    | dsimp only
    | split

theorem setTrig_keeps (t : Nat) (x : TrigSt) (kept : Keeps hold pre s) :
    Keeps hold pre (setTrig t x s) := by
  unfold setTrig
  repeat' first
    | with_reducible assumption
    | intro _
    | with_reducible apply Keeps.ite
    | fail_if_no_progress (with_reducible apply Keeps.upd)

theorem trigClear_keeps (t : Nat) (v : Nat) (kept : Keeps hold pre s) :
    Keeps hold pre (trigClear t v s) := by
  unfold trigClear
  repeat' first
    | with_reducible assumption
    | intro _
    | with_reducible apply setFlag_keeps
    | with_reducible apply Keeps.ite

theorem trigDisarm_keeps (t : Nat) (kept : Keeps hold pre s) :
    Keeps hold pre (trigDisarm t s) := by
  unfold trigDisarm
  repeat' first
    | with_reducible assumption
    | intro _
    | with_reducible apply setFlag_keeps

theorem trigArm_keeps (t : Nat) (kept : Keeps hold pre s) :
    Keeps hold pre (trigArm t s) := by
  unfold trigArm
  repeat' first
    | with_reducible assumption
    | intro _
    | with_reducible apply raise_keeps | with_reducible apply setFlag_keeps | with_reducible apply setTrig_keeps
    | with_reducible apply Keeps.ite

theorem trigCtrlWrite_keeps (t : Nat) (v : Nat) (kept : Keeps hold pre s) :
    Keeps hold pre (trigCtrlWrite t v s) := by
  unfold trigCtrlWrite
  repeat' first
    | with_reducible assumption
    | intro _
    | with_reducible apply trigClear_keeps | with_reducible apply setFlag_keeps | with_reducible apply setFld_keeps | with_reducible apply trigArm_keeps
    | with_reducible apply setTrig_keeps | with_reducible apply trigDisarm_keeps
    | with_reducible apply Keeps.ite

theorem execTriggerArm_keeps (t : Fin 12) (v : Word) {post : State} (kept : Keeps hold pre s) (e : execTriggerArm t v s = .next post) :
    Keeps hold pre post := by
  unfold execTriggerArm at e
  refine live_keeps (fun s kept => ?_) kept e
  clear e
  repeat' first
    | with_reducible assumption
    | intro _
    | with_reducible apply trigCtrlWrite_keeps

theorem execTriggerDisarm_keeps (t : Fin 12) (v : Word) {post : State} (kept : Keeps hold pre s) (e : execTriggerDisarm t v s = .next post) :
    Keeps hold pre post := by
  unfold execTriggerDisarm at e
  refine live_keeps (fun s kept => ?_) kept e
  clear e
  repeat' first
    | with_reducible assumption
    | intro _
    | with_reducible apply trigCtrlWrite_keeps

theorem trigFires_keeps (t : Nat) (kept : Keeps hold pre s) :
    Keeps hold pre (trigFires t s) := by
  unfold trigFires
  repeat' first
    | with_reducible assumption
    | intro _
    | with_reducible apply setTrig_keeps | with_reducible apply addReg_keeps

theorem trigReach_keeps (t : Nat) (kept : Keeps hold pre s) :
    Keeps hold pre (trigReach t s) := by
  unfold trigReach
  repeat' first
    | with_reducible assumption
    | intro _
    | with_reducible apply trigFires_keeps | with_reducible apply waitClock_keeps | with_reducible apply setTrig_keeps | with_reducible apply trigDisarm_keeps
    | with_reducible apply Keeps.ite

theorem execTriggerPulseEnd_keeps (t : Fin 12) {post : State} (kept : Keeps hold pre s) (e : execTriggerPulseEnd t s = .next post) :
    Keeps hold pre post := by
  unfold execTriggerPulseEnd at e
  refine liveAon_keeps (fun s kept => ?_) kept e
  clear e
  repeat' first
    | with_reducible assumption
    | intro _
    | with_reducible apply waitClock_keeps | with_reducible apply setTrig_keeps
    | with_reducible apply Keeps.ite
    | fail_if_no_progress (with_reducible apply Keeps.upd)
    | refine Keeps.fst (by assumption) ?_
    | dsimp only
    | split

theorem trigStepped_keeps (t : Nat) (kept : Keeps hold pre s) :
    Keeps hold pre (trigStepped t s) := by
  unfold trigStepped
  repeat' first
    | with_reducible assumption
    | intro _
    | with_reducible apply raise_keeps | with_reducible apply addFld_keeps | with_reducible apply setTrig_keeps | with_reducible apply trigDisarm_keeps
    | with_reducible apply setFlag_keeps
    | with_reducible apply Keeps.ite

theorem triggersStepped_keeps (kept : Keeps hold pre s) :
    Keeps hold pre (triggersStepped s) := by
  unfold triggersStepped
  repeat' first
    | with_reducible assumption
    | intro _
    | with_reducible apply trigStepped_keeps
    | with_reducible apply Keeps.ite
    | with_reducible apply Keeps.foldl

theorem trigRegWrite_keeps (t : Nat) (off : Nat) (v : Nat) (kept : Keeps hold pre s) :
    Keeps hold pre (trigRegWrite t off v s) := by
  unfold trigRegWrite
  repeat' first
    | with_reducible assumption
    | intro _
    | with_reducible apply setFlag_keeps | with_reducible apply wr_keeps
    | with_reducible apply Keeps.ite

theorem timRegWrite_keeps (off : Nat) (v : Nat) (kept : Keeps hold pre s) :
    Keeps hold pre (timRegWrite off v s) := by
  unfold timRegWrite
  repeat' first
    | with_reducible assumption
    | intro _
    | with_reducible apply wr_keeps
    | with_reducible apply Keeps.ite

end Sys2Proof.Machine
end

