-- ==== Sys2Proof/Laws/KeepsLanes.lean ====
section
/-!
SUPPORT. Laws/KeepsLanes.lean: every operation of Machine/Lanes.lean that answers a state has `Keeps`.
-/

namespace Sys2Proof.Machine

variable {hold : Bool} {pre s : State}

theorem setHead_keeps (h : Nat) (x : Head) (kept : Keeps hold pre s) :
    Keeps hold pre (setHead h x s) := by
  unfold setHead
  repeat' first
    | with_reducible assumption
    | intro _
    | with_reducible apply Keeps.ite
    | fail_if_no_progress (with_reducible apply Keeps.upd)

theorem setPllFreq_keeps (q : Nat) (b : Bool) (v : Nat) (kept : Keeps hold pre s) :
    Keeps hold pre (setPllFreq q b v s) := by
  unfold setPllFreq
  repeat' first
    | with_reducible assumption
    | intro _
    | with_reducible apply setFld_keeps
    | with_reducible apply Keeps.ite

theorem pllRelease_keeps (q : Nat) (b : Bool) (kept : Keeps hold pre s) :
    Keeps hold pre (pllRelease q b s) := by
  unfold pllRelease
  repeat' first
    | with_reducible assumption
    | intro _
    | with_reducible apply setFlag_keeps | with_reducible apply setPllFreq_keeps
    | with_reducible apply Keeps.ite

theorem spareReturn_keeps (n : Nat) (event : Bool) (kept : Keeps hold pre s) :
    Keeps hold pre (spareReturn n event s) := by
  unfold spareReturn
  repeat' first
    | with_reducible assumption
    | intro _
    | with_reducible apply setFlag_keeps | with_reducible apply addReg_keeps | with_reducible apply raise_keeps
    | with_reducible apply Keeps.ite

theorem ethLink_keeps (n : Nat) (up : Bool) (kept : Keeps hold pre s) :
    Keeps hold pre (ethLink n up s) := by
  unfold ethLink
  repeat' first
    | with_reducible assumption
    | intro _
    | with_reducible apply raise_keeps | with_reducible apply setFlag_keeps
    | with_reducible apply Keeps.ite

theorem setLaneState_keeps (n : Nat) (new : Nat) (kept : Keeps hold pre s) :
    Keeps hold pre (setLaneState n new s) := by
  unfold setLaneState
  repeat' first
    | with_reducible assumption
    | intro _
    | with_reducible apply raise_keeps | with_reducible apply setFld_keeps | with_reducible apply ethLink_keeps | with_reducible apply addReg_keeps
    | with_reducible apply calFail_keeps | with_reducible apply spareReturn_keeps
    | with_reducible apply Keeps.ite

theorem laneCtrlKeep_keeps (n : Nat) (v : Nat) (kept : Keeps hold pre s) :
    Keeps hold pre (laneCtrlKeep n v s) := by
  unfold laneCtrlKeep
  repeat' first
    | with_reducible assumption
    | intro _
    | with_reducible apply setFlag_keeps
    | with_reducible apply Keeps.ite

theorem laneStart_keeps (n : Nat) (b : Bool) (kept : Keeps hold pre s) :
    Keeps hold pre (laneStart n b s) := by
  unfold laneStart
  repeat' first
    | with_reducible assumption
    | intro _
    | with_reducible apply setFlag_keeps | with_reducible apply setPllFreq_keeps | with_reducible apply setLane_keeps | with_reducible apply wr_keeps
    | with_reducible apply setLaneState_keeps
    | with_reducible apply Keeps.ite

theorem laneEnable_keeps (n : Nat) (v : Nat) (kept : Keeps hold pre s) :
    Keeps hold pre (laneEnable n v s) := by
  unfold laneEnable
  repeat' first
    | with_reducible assumption
    | intro _
    | with_reducible apply laneCtrlKeep_keeps | with_reducible apply wr_keeps | with_reducible apply setFlag_keeps | with_reducible apply laneStart_keeps
    | with_reducible apply Keeps.ite
    | fail_if_no_progress (with_reducible apply Keeps.upd)
    | refine Keeps.fst (by assumption) ?_
    | dsimp only
    | split

theorem laneStop_keeps (n : Nat) (kept : Keeps hold pre s) :
    Keeps hold pre (laneStop n s) := by
  unfold laneStop
  repeat' first
    | with_reducible assumption
    | intro _
    | with_reducible apply calAbort_keeps | with_reducible apply spareReturn_keeps | with_reducible apply setFlag_keeps | with_reducible apply setLaneState_keeps
    | with_reducible apply setLane_keeps | with_reducible apply wr_keeps | with_reducible apply ledgerRepair_keeps | with_reducible apply pllRelease_keeps
    | with_reducible apply Keeps.ite

theorem laneDisable_keeps (n : Nat) (v : Nat) (kept : Keeps hold pre s) :
    Keeps hold pre (laneDisable n v s) := by
  unfold laneDisable
  repeat' first
    | with_reducible assumption
    | intro _
    | with_reducible apply wr_keeps | with_reducible apply laneStop_keeps | with_reducible apply laneCtrlKeep_keeps
    | with_reducible apply Keeps.ite

theorem execLaneEnable_keeps (n : Fin 32) (ctrl : Word) {post : State} (kept : Keeps hold pre s) (e : execLaneEnable n ctrl s = .next post) :
    Keeps hold pre post := by
  unfold execLaneEnable at e
  refine live_keeps (fun s kept => ?_) kept e
  clear e
  repeat' first
    | with_reducible assumption
    | intro _
    | with_reducible apply laneEnable_keeps
    | with_reducible apply Keeps.ite

theorem execLaneDisable_keeps (n : Fin 32) (ctrl : Word) {post : State} (kept : Keeps hold pre s) (e : execLaneDisable n ctrl s = .next post) :
    Keeps hold pre post := by
  unfold execLaneDisable at e
  refine live_keeps (fun s kept => ?_) kept e
  clear e
  repeat' first
    | with_reducible assumption
    | intro _
    | with_reducible apply laneDisable_keeps
    | with_reducible apply Keeps.ite

theorem execQuadPllLock_keeps (q : Fin 4) (pllB : Bool) {post : State} (kept : Keeps hold pre s) (e : execQuadPllLock q pllB s = .next post) :
    Keeps hold pre post := by
  unfold execQuadPllLock at e
  refine live_keeps (fun s kept => ?_) kept e
  clear e
  repeat' first
    | with_reducible assumption
    | intro _
    | with_reducible apply setFlag_keeps | with_reducible apply setLane_keeps
    | with_reducible apply Keeps.ite
    | with_reducible apply Keeps.foldl

theorem execCdrLock_keeps (n : Fin 32) {post : State} (kept : Keeps hold pre s) (e : execCdrLock n s = .next post) :
    Keeps hold pre post := by
  unfold execCdrLock at e
  refine live_keeps (fun s kept => ?_) kept e
  clear e
  repeat' first
    | with_reducible assumption
    | intro _
    | with_reducible apply setFlag_keeps | with_reducible apply setLaneState_keeps | with_reducible apply setLane_keeps
    | with_reducible apply Keeps.ite

theorem execCdrLoss_keeps (n : Fin 32) {post : State} (kept : Keeps hold pre s) (e : execCdrLoss n s = .next post) :
    Keeps hold pre post := by
  unfold execCdrLoss at e
  refine live_keeps (fun s kept => ?_) kept e
  clear e
  repeat' first
    | with_reducible assumption
    | intro _
    | with_reducible apply setFlag_keeps | with_reducible apply setLaneState_keeps
    | with_reducible apply Keeps.ite

theorem laneLeaveLost_keeps (n : Nat) (kept : Keeps hold pre s) :
    Keeps hold pre (laneLeaveLost n s) := by
  unfold laneLeaveLost
  repeat' first
    | with_reducible assumption
    | intro _
    | with_reducible apply setLaneState_keeps | with_reducible apply setLane_keeps
    | with_reducible apply Keeps.ite

theorem execEthLinkChange_keeps (n : Fin 32) (locked : Bool) (localFault : Bool) (remoteFault : Bool) {post : State} (kept : Keeps hold pre s) (e : execEthLinkChange n locked localFault remoteFault s = .next post) :
    Keeps hold pre post := by
  unfold execEthLinkChange at e
  refine live_keeps (fun s kept => ?_) kept e
  clear e
  repeat' first
    | with_reducible assumption
    | intro _
    | with_reducible apply setFlag_keeps | with_reducible apply laneLeaveLost_keeps | with_reducible apply setLaneState_keeps
    | with_reducible apply Keeps.ite

theorem execBlindPeriodEnd_keeps (n : Fin 32) {post : State} (kept : Keeps hold pre s) (e : execBlindPeriodEnd n s = .next post) :
    Keeps hold pre post := by
  unfold execBlindPeriodEnd at e
  refine live_keeps (fun s kept => ?_) kept e
  clear e
  repeat' first
    | with_reducible assumption
    | intro _
    | with_reducible apply waitElapsed_keeps | with_reducible apply setLane_keeps
    | with_reducible apply Keeps.ite

theorem pushLine_keeps (lane : Nat) (h : Nat) (n : Nat) (line : Nat) (bodies : List (List Byte)) (kept : Keeps hold pre s) :
    Keeps hold pre (pushLine lane h n line bodies s) := by
  unfold pushLine
  repeat' first
    | with_reducible assumption
    | intro _
    | with_reducible apply addReg_keeps | with_reducible apply setLane_keeps

theorem pushTrailer_keeps (lane : Nat) (h : Nat) (n : Nat) (words : List Nat) (kept : Keeps hold pre s) :
    Keeps hold pre (pushTrailer lane h n words s) := by
  unfold pushTrailer
  repeat' first
    | with_reducible assumption
    | intro _
    | with_reducible apply setLane_keeps

theorem retimeOmit_keeps (n : Nat) (kept : Keeps hold pre s) :
    Keeps hold pre (retimeOmit n s) := by
  unfold retimeOmit
  repeat' first
    | with_reducible assumption
    | intro _
    | with_reducible apply setLane_keeps | with_reducible apply addReg_keeps
    | with_reducible apply Keeps.ite

theorem tileSamples_keeps (c : Nat) (k : Nat) (row : Nat) (from_ : Nat) (count : Nat) (kept : Keeps hold pre s) :
    Keeps hold pre (tileSamples c k row from_ count s).1 := by
  unfold tileSamples
  repeat' first
    | with_reducible assumption
    | intro _
    | with_reducible apply dmaRead_keeps

theorem tileNext_keeps (t : TileTx) (kept : Keeps hold pre s) :
    Keeps hold pre (tileNext t s).1 := by
  unfold tileNext
  repeat' first
    | with_reducible assumption
    | intro _
    | with_reducible apply tileSamples_keeps
    | with_reducible apply Keeps.ite | with_reducible apply Keeps.iteFst
    | fail_if_no_progress (with_reducible apply Keeps.upd)
    | refine Keeps.fst (by assumption) ?_
    | dsimp only
    | split

theorem nextBlock_keeps (n : Nat) (kept : Keeps hold pre s) :
    Keeps hold pre (nextBlock n s).1 := by
  unfold nextBlock
  repeat' first
    | with_reducible assumption
    | intro _
    | with_reducible apply setLane_keeps | with_reducible apply id_keeps | with_reducible apply tileNext_keeps
    | with_reducible apply Keeps.ite | with_reducible apply Keeps.iteFst
    | fail_if_no_progress (with_reducible apply Keeps.upd)
    | refine Keeps.fst (by assumption) ?_
    | dsimp only
    | split

theorem sendOutcome_keeps (n : Nat) (b : TxBlk) (o : Option (Nat × List Bool × LineEnd)) (kept : Keeps hold pre s) :
    Keeps hold pre (sendOutcome n b s o) := by
  rcases o with - | ⟨k, l, tb, tr⟩
  · exact raiseOnce_keeps _ _ (setLane_keeps _ _ (addReg_keeps _ _ (addReg_keeps _ _ (addReg_keeps _ _ kept))))
  · exact setLane_keeps _ _ (addReg_keeps _ _ (addReg_keeps _ _ kept))

theorem sendBlock_keeps (n : Nat) (b : TxBlk) (kept : Keeps hold pre s) : Keeps hold pre (sendBlock n b s) :=
  sendOutcome_keeps _ _ _ kept

theorem blockTransmit_keeps (n : Nat) (kept : Keeps hold pre s) :
    Keeps hold pre (blockTransmit n s) := by
  unfold blockTransmit
  repeat' first
    | with_reducible assumption
    | intro _
    | with_reducible apply waitElapsed_keeps | with_reducible apply setLane_keeps | with_reducible apply nextBlock_keeps | with_reducible apply retimeOmit_keeps
    | with_reducible apply sendBlock_keeps
    | with_reducible apply Keeps.ite
    | fail_if_no_progress (with_reducible apply Keeps.upd)
    | refine Keeps.fst (by assumption) ?_
    | dsimp only
    | split

theorem execBlockTransmit_keeps (o : LaneSend) {post : State} (kept : Keeps hold pre s) (e : execBlockTransmit o s = .next post) :
    Keeps hold pre post := by
  unfold execBlockTransmit at e
  refine live_keeps (fun s kept => ?_) kept e
  clear e
  repeat' first
    | with_reducible assumption
    | intro _
    | with_reducible apply linked_keeps | with_reducible apply blockTransmit_keeps
    | with_reducible apply Keeps.ite

theorem tileSeal_keeps (n : Nat) (k : Nat) (kept : Keeps hold pre s) :
    Keeps hold pre (tileSeal n k s) := by
  unfold tileSeal
  repeat' first
    | with_reducible assumption
    | intro _
    | with_reducible apply setLane_keeps
    | with_reducible apply Keeps.ite
    | fail_if_no_progress (with_reducible apply Keeps.upd)
    | refine Keeps.fst (by assumption) ?_
    | dsimp only
    | split

theorem lanesSeal_keeps (kept : Keeps hold pre s) :
    Keeps hold pre (lanesSeal s) := by
  unfold lanesSeal
  repeat' first
    | with_reducible assumption
    | intro _
    | with_reducible apply setLane_keeps | with_reducible apply tileSeal_keeps
    | with_reducible apply Keeps.ite
    | with_reducible apply Keeps.foldl

theorem laneWrite_keeps (a : Nat) (bs : List Byte) (kept : Keeps hold pre s) :
    Keeps hold pre (laneWrite a bs s) := by
  unfold laneWrite
  repeat' first
    | with_reducible assumption
    | intro _
    | with_reducible apply dmaWrite_keeps

theorem putUnits_keeps (c : Nat) (k : Nat) (row : Nat) (from_ : Nat) (vs : List Nat) (kept : Keeps hold pre s) :
    Keeps hold pre (putUnits c k row from_ vs s) := by
  unfold putUnits
  repeat' first
    | with_reducible assumption
    | intro _
    | with_reducible apply laneWrite_keeps
    | with_reducible apply Keeps.ite

theorem putGrey_keeps (c : Nat) (k : Nat) (row : Nat) (from_ : Nat) (upto : Nat) (kept : Keeps hold pre s) :
    Keeps hold pre (putGrey c k row from_ upto s) := by
  unfold putGrey
  repeat' first
    | with_reducible assumption
    | intro _
    | with_reducible apply putUnits_keeps

theorem nativeArrive_keeps (c : Nat) (k : Nat) (r : NativeRx) (kept : Keeps hold pre s) :
    Keeps hold pre (nativeArrive c k r s) := by
  unfold nativeArrive
  repeat' first
    | with_reducible assumption
    | intro _
    | with_reducible apply gWords_keeps | with_reducible apply setSlot_keeps
    | with_reducible apply Keeps.ite

theorem nativeComplete_keeps (c : Nat) (k : Nat) (r : NativeRx) (kept : Keeps hold pre s) :
    Keeps hold pre (nativeComplete c k r s) := by
  unfold nativeComplete
  repeat' first
    | with_reducible assumption
    | intro _
    | with_reducible apply nativeArrive_keeps | with_reducible apply updSlot_keeps | with_reducible apply setChan_keeps | with_reducible apply completeRecord_keeps
    | with_reducible apply Keeps.ite

theorem nativeRowDone_keeps (c : Nat) (k : Nat) (r : NativeRx) (kept : Keeps hold pre s) :
    Keeps hold pre (nativeRowDone c k r s).1 := by
  unfold nativeRowDone
  repeat' first
    | with_reducible assumption
    | intro _
    | with_reducible apply nativeArrive_keeps | with_reducible apply updSlot_keeps
    | with_reducible apply Keeps.ite

theorem nativeSkip_keeps (c k toRow toPix n : Nat) (r : NativeRx) (h : Keeps hold pre s) :
    Keeps hold pre (nativeSkip c k toRow toPix n r s).1 := by
  induction n generalizing r s with
  | zero => exact h
  | succ n ih =>
    unfold nativeSkip
    dsimp only
    split
    · exact ih _ (nativeRowDone_keeps _ _ _ (putGrey_keeps _ _ _ _ _ h))
    · exact Keeps.iteFst (putGrey_keeps _ _ _ _ _ h) h

theorem nativeEnd_keeps (c : Nat) (kept : Keeps hold pre s) :
    Keeps hold pre (nativeEnd c s) := by
  unfold nativeEnd
  repeat' first
    | with_reducible assumption
    | intro _
    | with_reducible apply raiseOnce_keeps | with_reducible apply dropSlot_keeps | with_reducible apply setChan_keeps | with_reducible apply nativeSkip_keeps
    | with_reducible apply nativeComplete_keeps
    | with_reducible apply Keeps.ite
    | fail_if_no_progress (with_reducible apply Keeps.upd)
    | refine Keeps.fst (by assumption) ?_
    | dsimp only
    | split

theorem nativeBegin_keeps (c : Nat) (r : NativeRx) (fmt : Nat) (seq : Nat) (kept : Keeps hold pre s) :
    Keeps hold pre (nativeBegin c r fmt seq s) := by
  unfold nativeBegin
  repeat' first
    | with_reducible assumption
    | intro _
    | with_reducible apply setChan_keeps | with_reducible apply overDeclared_keeps | with_reducible apply srcRejected_keeps | with_reducible apply takeSlot_keeps
    | with_reducible apply spendFrame_keeps | with_reducible apply laneWrite_keeps
    | with_reducible apply Keeps.ite
    | fail_if_no_progress (with_reducible apply Keeps.upd)
    | refine Keeps.fst (by assumption) ?_
    | dsimp only
    | split

theorem frameStart_keeps (n : Nat) (m : Nat → Nat) (kept : Keeps hold pre s) :
    Keeps hold pre (frameStart n m s) := by
  unfold frameStart
  repeat' first
    | with_reducible assumption
    | intro _
    | with_reducible apply nativeBegin_keeps | with_reducible apply nativeEnd_keeps
    | with_reducible apply Keeps.ite
    | fail_if_no_progress (with_reducible apply Keeps.upd)
    | refine Keeps.fst (by assumption) ?_
    | dsimp only
    | split

theorem nativeUnits_keeps (n : Nat) (c : Nat) (k : Nat) (stream : Nat) (row : Nat) (pix : Nat) (last : Bool) (crc : Nat) (vs : List Nat) (bytes : Nat) (r : NativeRx) (kept : Keeps hold pre s) :
    Keeps hold pre (nativeUnits n c k stream row pix last crc vs bytes r s) := by
  unfold nativeUnits
  repeat' first
    | with_reducible assumption
    | intro _
    | with_reducible apply nativeSkip_keeps | with_reducible apply putUnits_keeps | with_reducible apply putGrey_keeps | with_reducible apply addReg_keeps
    | with_reducible apply raiseOnce_keeps | with_reducible apply nativeRowDone_keeps | with_reducible apply nativeComplete_keeps | with_reducible apply setChan_keeps
    | with_reducible apply Keeps.ite

theorem videoBlock_keeps (n : Nat) (p : List Byte) (kept : Keeps hold pre s) :
    Keeps hold pre (videoBlock n p s) := by
  unfold videoBlock
  repeat' first
    | with_reducible assumption
    | intro _
    | with_reducible apply nativeEnd_keeps | with_reducible apply nativeBegin_keeps | with_reducible apply nativeUnits_keeps
    | with_reducible apply Keeps.ite
    | fail_if_no_progress (with_reducible apply Keeps.upd)
    | refine Keeps.fst (by assumption) ?_
    | dsimp only
    | split

theorem tileRecord_keeps (n : Nat) (c : Nat) (stream : Nat) (frame : Nat) (p : List Byte) (kept : Keeps hold pre s) :
    Keeps hold pre (tileRecord n c stream frame p s) := by
  unfold tileRecord
  repeat' first
    | with_reducible assumption
    | intro _
    | with_reducible apply nativeEnd_keeps | with_reducible apply nativeBegin_keeps | with_reducible apply updSlot_keeps | with_reducible apply id_keeps
    | with_reducible apply gWords_keeps
    | with_reducible apply Keeps.ite
    | fail_if_no_progress (with_reducible apply Keeps.upd)
    | refine Keeps.fst (by assumption) ?_
    | dsimp only
    | split

theorem tileBlock_keeps (n : Nat) (p : List Byte) (kept : Keeps hold pre s) :
    Keeps hold pre (tileBlock n p s) := by
  unfold tileBlock
  repeat' first
    | with_reducible assumption
    | intro _
    | with_reducible apply tileRecord_keeps | with_reducible apply nativeUnits_keeps
    | with_reducible apply Keeps.ite
    | fail_if_no_progress (with_reducible apply Keeps.upd)
    | refine Keeps.fst (by assumption) ?_
    | dsimp only
    | split

theorem setGenlock_keeps (n : Nat) (g : Bool) (kept : Keeps hold pre s) :
    Keeps hold pre (setGenlock n g s) := by
  unfold setGenlock
  repeat' first
    | with_reducible assumption
    | intro _
    | with_reducible apply raise_keeps | with_reducible apply setLane_keeps
    | with_reducible apply Keeps.ite

theorem statusIn_keeps (n : Nat) (m : Nat → Nat) (kept : Keeps hold pre s) :
    Keeps hold pre (statusIn n m s) := by
  unfold statusIn
  repeat' first
    | with_reducible assumption
    | intro _
    | with_reducible apply wr_keeps | with_reducible apply setFlag_keeps | with_reducible apply setLane_keeps | with_reducible apply raiseOnce_keeps
    | with_reducible apply setGenlock_keeps
    | with_reducible apply Keeps.ite

theorem messageIn_keeps (n : Nat) (p : List Byte) (i : Nat) (kept : Keeps hold pre s) :
    Keeps hold pre (messageIn n p s i) := by
  unfold messageIn
  repeat' first
    | with_reducible assumption
    | intro _
    | with_reducible apply statusIn_keeps | with_reducible apply frameStart_keeps | with_reducible apply raise_keeps | with_reducible apply setLane_keeps
    | with_reducible apply Keeps.ite
    | fail_if_no_progress (with_reducible apply Keeps.upd)
    | refine Keeps.fst (by assumption) ?_
    | dsimp only
    | split

theorem ctrlBlock_keeps (n : Nat) (p : List Byte) (kept : Keeps hold pre s) :
    Keeps hold pre (ctrlBlock n p s) := by
  unfold ctrlBlock
  repeat' first
    | with_reducible assumption
    | intro _
    | with_reducible apply messageIn_keeps
    | with_reducible apply Keeps.ite
    | with_reducible apply Keeps.foldl

theorem execGenlockTimeout_keeps (n : Fin 32) {post : State} (kept : Keeps hold pre s) (e : execGenlockTimeout n s = .next post) :
    Keeps hold pre post := by
  unfold execGenlockTimeout at e
  refine live_keeps (fun s kept => ?_) kept e
  clear e
  repeat' first
    | with_reducible assumption
    | intro _
    | with_reducible apply setGenlock_keeps | with_reducible apply waitElapsed_keeps
    | with_reducible apply Keeps.ite
    | fail_if_no_progress (with_reducible apply Keeps.upd)
    | refine Keeps.fst (by assumption) ?_
    | dsimp only
    | split

theorem blockContent_keeps (n : Nat) (typ : Nat) (p : List Byte) (kept : Keeps hold pre s) :
    Keeps hold pre (blockContent n typ p s) := by
  unfold blockContent
  repeat' first
    | with_reducible assumption
    | intro _
    | with_reducible apply addReg_keeps | with_reducible apply videoBlock_keeps | with_reducible apply ctrlBlock_keeps | with_reducible apply tileBlock_keeps
    | with_reducible apply Keeps.ite
    | fail_if_no_progress (with_reducible apply Keeps.upd)
    | refine Keeps.fst (by assumption) ?_
    | dsimp only
    | split

theorem deliver_keeps (n : Nat) (header : Nat) (payload : List Byte) (kept : Keeps hold pre s) :
    Keeps hold pre (deliver n header payload s) := by
  unfold deliver
  repeat' first
    | with_reducible assumption
    | intro _
    | with_reducible apply wr_keeps | with_reducible apply raiseOnce_keeps | with_reducible apply setLane_keeps | with_reducible apply blockContent_keeps
    | with_reducible apply Keeps.ite
    | fail_if_no_progress (with_reducible apply Keeps.upd)
    | refine Keeps.fst (by assumption) ?_
    | dsimp only
    | split

theorem badHeader_keeps (n : Nat) (kept : Keeps hold pre s) :
    Keeps hold pre (badHeader n s) := by
  unfold badHeader
  repeat' first
    | with_reducible assumption
    | intro _
    | with_reducible apply addReg_keeps | with_reducible apply setLane_keeps | with_reducible apply raiseOnce_keeps | with_reducible apply setLaneState_keeps
    | with_reducible apply Keeps.ite

theorem receiveUp_keeps (n : Nat) (header : Nat) (payload : List Byte) (kept : Keeps hold pre s) :
    Keeps hold pre (receiveUp n header payload s) := by
  unfold receiveUp
  repeat' first
    | with_reducible assumption
    | intro _
    | with_reducible apply badHeader_keeps | with_reducible apply deliver_keeps | with_reducible apply setLane_keeps
    | with_reducible apply Keeps.ite

theorem receiveJudge_keeps (n : Nat) (header : Nat) (payload : List Byte) (kept : Keeps hold pre s) :
    Keeps hold pre (receiveJudge n header payload s) := by
  unfold receiveJudge
  repeat' first
    | with_reducible assumption
    | intro _
    | with_reducible apply receiveUp_keeps | with_reducible apply setLane_keeps | with_reducible apply addReg_keeps | with_reducible apply deliver_keeps
    | with_reducible apply badHeader_keeps
    | with_reducible apply Keeps.ite
    | fail_if_no_progress (with_reducible apply Keeps.upd)
    | refine Keeps.fst (by assumption) ?_
    | dsimp only
    | split

theorem spareCompare_keeps (n : Nat) (alike : Bool) (kept : Keeps hold pre s) :
    Keeps hold pre (spareCompare n alike s) := by
  unfold spareCompare
  repeat' first
    | with_reducible assumption
    | intro _
    | with_reducible apply updCal_keeps
    | with_reducible apply Keeps.ite
    | fail_if_no_progress (with_reducible apply Keeps.upd)
    | refine Keeps.fst (by assumption) ?_
    | dsimp only
    | split

theorem receiveBlock_keeps (n : Nat) (other : List Bool) (kept : Keeps hold pre s) :
    Keeps hold pre (receiveBlock n other s) := by
  unfold receiveBlock
  repeat' first
    | with_reducible assumption
    | intro _
    | with_reducible apply addReg_keeps | with_reducible apply setLane_keeps | with_reducible apply receiveJudge_keeps | with_reducible apply spareCompare_keeps

theorem receiveAlign_keeps (n : Nat) (kept : Keeps hold pre s) :
    Keeps hold pre (receiveAlign n s) := by
  unfold receiveAlign
  repeat' first
    | with_reducible assumption
    | intro _
    | with_reducible apply addReg_keeps | with_reducible apply setLane_keeps | with_reducible apply setLaneState_keeps
    | with_reducible apply Keeps.ite

theorem receiveBits_keeps (n : Nat) (other : List Bool) (fuel : Nat) (h : Keeps hold pre s) :
    Keeps hold pre (receiveBits n other fuel s) := by
  induction fuel generalizing s with
  | zero => exact h
  | succ fuel ih =>
    unfold receiveBits
    exact Keeps.ite h (Keeps.ite (ih (receiveAlign_keeps _ h)) (Keeps.ite (ih (receiveBlock_keeps _ _ h)) h))

theorem blockReceive_keeps (n : Nat) (b : RxBlock) (kept : Keeps hold pre s) :
    Keeps hold pre (blockReceive n b s) := by
  unfold blockReceive
  repeat' first
    | with_reducible assumption
    | intro _
    | with_reducible apply laneLeaveLost_keeps | with_reducible apply receiveBits_keeps | with_reducible apply setLane_keeps
    | with_reducible apply Keeps.ite

theorem execBlockReceive_keeps (n : Fin 32) (blk : RxBlock) {post : State} (kept : Keeps hold pre s) (e : execBlockReceive n blk s = .next post) :
    Keeps hold pre post := by
  unfold execBlockReceive at e
  refine live_keeps (fun s kept => ?_) kept e
  clear e
  repeat' first
    | with_reducible assumption
    | intro _
    | with_reducible apply blockReceive_keeps
    | with_reducible apply Keeps.ite

theorem execLaneRxSpanRead_keeps (n : Fin 32) {post : State} (kept : Keeps hold pre s) (e : execLaneRxSpanRead n s = .next post) :
    Keeps hold pre post := by
  unfold execLaneRxSpanRead at e
  refine live_keeps (fun s kept => ?_) kept e
  clear e
  repeat' first
    | with_reducible assumption
    | intro _
    | with_reducible apply wr_keeps
    | with_reducible apply Keeps.ite
    | fail_if_no_progress (with_reducible apply Keeps.upd)
    | refine Keeps.fst (by assumption) ?_
    | dsimp only
    | split

theorem execLaneFarSpanRead_keeps (n : Fin 32) {post : State} (kept : Keeps hold pre s) (e : execLaneFarSpanRead n s = .next post) :
    Keeps hold pre post := by
  unfold execLaneFarSpanRead at e
  refine live_keeps (fun s kept => ?_) kept e
  clear e
  repeat' first
    | with_reducible assumption
    | intro _
    | with_reducible apply wr_keeps

theorem spareSwitch_keeps (n : Nat) (toSpare : Bool) (kept : Keeps hold pre s) :
    Keeps hold pre (spareSwitch n toSpare s) := by
  unfold spareSwitch
  repeat' first
    | with_reducible assumption
    | intro _
    | with_reducible apply setFlag_keeps | with_reducible apply updCal_keeps | with_reducible apply addReg_keeps | with_reducible apply raise_keeps
    | with_reducible apply calSucceed_keeps | with_reducible apply spareReturn_keeps
    | with_reducible apply Keeps.ite
    | fail_if_no_progress (with_reducible apply Keeps.upd)
    | refine Keeps.fst (by assumption) ?_
    | dsimp only
    | split

theorem execSpareSwitch_keeps (n : Fin 32) (toSpare : Bool) {post : State} (kept : Keeps hold pre s) (e : execSpareSwitch n toSpare s = .next post) :
    Keeps hold pre post := by
  unfold execSpareSwitch at e
  refine live_keeps (fun s kept => ?_) kept e
  clear e
  repeat' first
    | with_reducible assumption
    | intro _
    | with_reducible apply spareSwitch_keeps

theorem execSpareCompareTimeout_keeps (n : Fin 32) {post : State} (kept : Keeps hold pre s) (e : execSpareCompareTimeout n s = .next post) :
    Keeps hold pre post := by
  unfold execSpareCompareTimeout at e
  refine live_keeps (fun s kept => ?_) kept e
  clear e
  repeat' first
    | with_reducible assumption
    | intro _
    | with_reducible apply calFail_keeps | with_reducible apply waitElapsed_keeps
    | with_reducible apply Keeps.ite
    | fail_if_no_progress (with_reducible apply Keeps.upd)
    | refine Keeps.fst (by assumption) ?_
    | dsimp only
    | split

end Sys2Proof.Machine
end

