-- ==== Sys2Proof/Laws/KeepsCompose.lean ====
section
/-!
SUPPORT. Laws/KeepsCompose.lean: every operation of Machine/Compose.lean that answers a state has `Keeps`.
-/

namespace Sys2Proof.Machine

variable {hold : Bool} {pre s : State}

theorem setWb_keeps (h : Nat) (k : Nat) (x : WbBuf) (kept : Keeps hold pre s) :
    Keeps hold pre (setWb h k x s) := by
  unfold setWb
  repeat' first
    | with_reducible assumption
    | intro _
    | with_reducible apply setHead_keeps

end Sys2Proof.Machine
end

