-- ==== Sys2Proof/Laws/KeepsEncodeInput.lean ====
section
/-!
SUPPORT. Laws/KeepsEncodeInput.lean: every operation of Machine/EncodeInput.lean that answers a state has `Keeps`.
-/

namespace Sys2Proof.Machine

variable {hold : Bool} {pre s : State}

theorem setEnc_keeps (n : Nat) (x : EncSt) (kept : Keeps hold pre s) :
    Keeps hold pre (setEnc n x s) := by
  unfold setEnc
  repeat' first
    | with_reducible assumption
    | intro _
    | with_reducible apply Keeps.ite
    | fail_if_no_progress (with_reducible apply Keeps.upd)

theorem encHold_keeps (f : Sealed) (kept : Keeps hold pre s) :
    Keeps hold pre (encHold f s) := by
  unfold encHold
  repeat' first
    | with_reducible assumption
    | intro _
    | with_reducible apply updSlot_keeps | with_reducible apply setWb_keeps
    | with_reducible apply Keeps.ite

theorem encRelease_keeps (f : Sealed) (kept : Keeps hold pre s) :
    Keeps hold pre (encRelease f s) := by
  unfold encRelease
  repeat' first
    | with_reducible assumption
    | intro _
    | with_reducible apply updSlot_keeps | with_reducible apply setWb_keeps
    | with_reducible apply Keeps.ite

theorem encReleaseOpt_keeps (f : Option Sealed) (kept : Keeps hold pre s) :
    Keeps hold pre (encReleaseOpt f s) := by
  unfold encReleaseOpt
  repeat' first
    | with_reducible assumption
    | intro _
    | with_reducible apply encRelease_keeps
    | with_reducible apply Keeps.ite
    | fail_if_no_progress (with_reducible apply Keeps.upd)
    | refine Keeps.fst (by assumption) ?_
    | dsimp only
    | split

theorem encBegin_keeps (n : Nat) (i : EncFollow) (follow : Bool) (cut : Bool) (kept : Keeps hold pre s) :
    Keeps hold pre (encBegin n i follow cut s) := by
  unfold encBegin
  repeat' first
    | with_reducible assumption
    | intro _
    | with_reducible apply setEnc_keeps
    | with_reducible apply Keeps.ite
    | fail_if_no_progress (with_reducible apply Keeps.upd)

theorem encFollowStart_keeps (n : Nat) (cut : Bool) (kept : Keeps hold pre s) :
    Keeps hold pre (encFollowStart n cut s) := by
  unfold encFollowStart
  repeat' first
    | with_reducible assumption
    | intro _
    | with_reducible apply setEnc_keeps | with_reducible apply encReleaseOpt_keeps | with_reducible apply addReg_keeps | with_reducible apply encBegin_keeps
    | with_reducible apply Keeps.ite
    | fail_if_no_progress (with_reducible apply Keeps.upd)
    | refine Keeps.fst (by assumption) ?_
    | dsimp only
    | split

theorem encNoScan_keeps (h : Nat) (m : Nat) (kept : Keeps hold pre s) :
    Keeps hold pre (encNoScan h m s) := by
  unfold encNoScan
  repeat' first
    | with_reducible assumption
    | intro _
    | with_reducible apply encFollowStart_keeps
    | with_reducible apply Keeps.ite
    | with_reducible apply Keeps.foldl

theorem encScanBegin_keeps (h : Nat) (m : Nat) (buf : Option Nat) (failed : Bool) (cap : Int) (taints : Nat) (kept : Keeps hold pre s) :
    Keeps hold pre (encScanBegin h m buf failed cap taints s) := by
  unfold encScanBegin
  repeat' first
    | with_reducible assumption
    | intro _
    | with_reducible apply encHold_keeps | with_reducible apply setEnc_keeps | with_reducible apply encFollowStart_keeps | with_reducible apply addReg_keeps
    | with_reducible apply Keeps.ite
    | with_reducible apply Keeps.foldl | with_reducible apply Keeps.foldlPair
    | fail_if_no_progress (with_reducible apply Keeps.upd)
    | refine Keeps.fst (by assumption) ?_
    | dsimp only
    | split

theorem encLine_keeps (h : Nat) (m : Nat) (upto : Nat) (kept : Keeps hold pre s) :
    Keeps hold pre (encLine h m upto s) := by
  unfold encLine
  repeat' first
    | with_reducible assumption
    | intro _
    | with_reducible apply encFollowStart_keeps
    | with_reducible apply Keeps.ite
    | with_reducible apply Keeps.foldl

theorem encWbFailed_keeps (h : Nat) (m : Nat) (kept : Keeps hold pre s) :
    Keeps hold pre (encWbFailed h m s) := by
  unfold encWbFailed
  repeat' first
    | with_reducible assumption
    | intro _
    | with_reducible apply encFollowStart_keeps | with_reducible apply setEnc_keeps
    | with_reducible apply Keeps.ite
    | with_reducible apply Keeps.foldl | with_reducible apply Keeps.foldlPair
    | fail_if_no_progress (with_reducible apply Keeps.upd)
    | refine Keeps.fst (by assumption) ?_
    | dsimp only
    | split

end Sys2Proof.Machine
end

