-- ==== Sys2Proof/Laws/KeepsVideoDecode.lean ====
section
/-!
SUPPORT. Laws/KeepsVideoDecode.lean: every operation of Machine/VideoDecode.lean that answers a state has `Keeps`.
-/

namespace Sys2Proof.Machine

variable {hold : Bool} {pre s : State}

theorem auDone_keeps (c : Nat) (kept : Keeps hold pre s) :
    Keeps hold pre (auDone c s) := by
  unfold auDone
  repeat' first
    | with_reducible assumption
    | intro _
    | with_reducible apply setChan_keeps

theorem takeSeq_keeps (c : Nat) (kept : Keeps hold pre s) :
    Keeps hold pre (takeSeq c s) := by
  unfold takeSeq
  repeat' first
    | with_reducible assumption
    | intro _
    | with_reducible apply addReg_keeps

theorem startDecode_keeps (c : Nat) (kept : Keeps hold pre s) :
    Keeps hold pre (startDecode c s) := by
  unfold startDecode
  repeat' first
    | with_reducible assumption
    | intro _
    | with_reducible apply setChan_keeps
    | with_reducible apply Keeps.ite

theorem skipStart_keeps (c : Nat) (kept : Keeps hold pre s) :
    Keeps hold pre (skipStart c s) := by
  unfold skipStart
  repeat' first
    | with_reducible assumption
    | intro _
    | with_reducible apply auDone_keeps | with_reducible apply addReg_keeps

theorem noteIrap_keeps (o : PictureStart) (kept : Keeps hold pre s) :
    Keeps hold pre (noteIrap o s) := by
  unfold noteIrap
  repeat' first
    | with_reducible assumption
    | intro _
    | with_reducible apply setChan_keeps
    | with_reducible apply Keeps.ite

theorem decodeUnsupported_keeps (o : PictureStart) (kept : Keeps hold pre s) :
    Keeps hold pre (decodeUnsupported o s) := by
  unfold decodeUnsupported
  repeat' first
    | with_reducible assumption
    | intro _
    | with_reducible apply takeSeq_keeps | with_reducible apply auDone_keeps | with_reducible apply addReg_keeps | with_reducible apply setChan_keeps
    | with_reducible apply raiseOnce_keeps
    | with_reducible apply Keeps.ite

theorem decodeError_keeps (c : Nat) (seq : Nat) (e : Nat × Nat) (kept : Keeps hold pre s) :
    Keeps hold pre (decodeError c seq e s) := by
  unfold decodeError
  repeat' first
    | with_reducible assumption
    | intro _
    | with_reducible apply addReg_keeps | with_reducible apply wr_keeps | with_reducible apply raiseOnce_keeps

theorem decodeLost_keeps (o : PictureStart) (kept : Keeps hold pre s) :
    Keeps hold pre (decodeLost o s) := by
  unfold decodeLost
  repeat' first
    | with_reducible assumption
    | intro _
    | with_reducible apply decodeError_keeps | with_reducible apply auDone_keeps | with_reducible apply takeSeq_keeps | with_reducible apply addReg_keeps
    | with_reducible apply Keeps.ite
    | fail_if_no_progress (with_reducible apply Keeps.upd)
    | refine Keeps.fst (by assumption) ?_
    | dsimp only
    | split

theorem decodeReject_keeps (c : Nat) (check : Nat) (kept : Keeps hold pre s) :
    Keeps hold pre (decodeReject c check s) := by
  unfold decodeReject
  repeat' first
    | with_reducible assumption
    | intro _
    | with_reducible apply auDone_keeps | with_reducible apply takeSeq_keeps | with_reducible apply overDeclared_keeps | with_reducible apply setChan_keeps

theorem decodeStarved_keeps (c : Nat) (kept : Keeps hold pre s) :
    Keeps hold pre (decodeStarved c s) := by
  unfold decodeStarved
  repeat' first
    | with_reducible assumption
    | intro _
    | with_reducible apply raiseOnce_keeps | with_reducible apply setChan_keeps
    | with_reducible apply Keeps.ite

theorem decodeSkip_keeps (snap0 : State) (c : Nat) (kept : Keeps hold pre s) :
    Keeps hold pre (decodeSkip snap0 c s) := by
  unfold decodeSkip
  repeat' first
    | with_reducible assumption
    | intro _
    | with_reducible apply auDone_keeps | with_reducible apply takeSeq_keeps | with_reducible apply addReg_keeps | with_reducible apply decodeStarved_keeps
    | with_reducible apply Keeps.ite

theorem pictureOutput_keeps (c : Nat) (k : Nat) (kept : Keeps hold pre s) :
    Keeps hold pre (pictureOutput c k s) := by
  unfold pictureOutput
  repeat' first
    | with_reducible assumption
    | intro _
    | with_reducible apply setSlot_keeps | with_reducible apply completeRecord_keeps | with_reducible apply setFld_keeps | with_reducible apply wr_keeps
    | with_reducible apply setChan_keeps | with_reducible apply addReg_keeps | with_reducible apply raiseOnce_keeps
    | with_reducible apply Keeps.ite

theorem neverOutput_keeps (c : Nat) (k : Nat) (kept : Keeps hold pre s) :
    Keeps hold pre (neverOutput c k s) := by
  unfold neverOutput
  repeat' first
    | with_reducible assumption
    | intro _
    | with_reducible apply gWords_keeps

theorem dropWaiting_keeps (c : Nat) (k : Nat) (kept : Keeps hold pre s) :
    Keeps hold pre (dropWaiting c k s) := by
  unfold dropWaiting
  repeat' first
    | with_reducible assumption
    | intro _
    | with_reducible apply updSlot_keeps | with_reducible apply neverOutput_keeps

theorem bump_keeps (c reorder : Nat) (latency : Option Nat) (full n : Nat) (h : Keeps hold pre s) :
    Keeps hold pre (bump c reorder latency full n s) := by
  induction n generalizing s with
  | zero => exact h
  | succ n ih =>
    unfold bump
    split
    · split
      · exact ih (pictureOutput_keeps _ _ h)
      · exact h
    · exact h

theorem bumpAll_keeps (c : Nat) (kept : Keeps hold pre s) :
    Keeps hold pre (bumpAll c s) := by
  unfold bumpAll
  repeat' first
    | with_reducible assumption
    | intro _
    | with_reducible apply bump_keeps

theorem keepRefs_keeps (c : Nat) (keep : List Int) (also : List Nat) (kept : Keeps hold pre s) :
    Keeps hold pre (keepRefs c keep also s) := by
  unfold keepRefs
  repeat' first
    | with_reducible assumption
    | intro _
    | with_reducible apply updSlot_keeps
    | with_reducible apply Keeps.ite
    | with_reducible apply Keeps.foldl

theorem sequenceBegin_keeps (o : PictureStart) (kept : Keeps hold pre s) :
    Keeps hold pre (sequenceBegin o s) := by
  unfold sequenceBegin
  repeat' first
    | with_reducible assumption
    | intro _
    | with_reducible apply dropWaiting_keeps | with_reducible apply bumpAll_keeps | with_reducible apply keepRefs_keeps | with_reducible apply setChan_keeps
    | with_reducible apply Keeps.ite
    | with_reducible apply Keeps.foldl

theorem noteRecovery_keeps (o : PictureStart) (seq : Nat) (codec : Nat) (kept : Keeps hold pre s) :
    Keeps hold pre (noteRecovery o seq codec s) := by
  unfold noteRecovery
  repeat' first
    | with_reducible assumption
    | intro _
    | with_reducible apply setChan_keeps

theorem pixWrite_keeps (e : Nat) (a : Nat) (bs : List Byte) (kept : Keeps hold pre s) :
    Keeps hold pre (pixWrite e a bs s) := by
  unfold pixWrite
  repeat' first
    | with_reducible assumption
    | intro _
    | with_reducible apply dmaWrite_keeps

theorem pixRead_keeps (e : Nat) (a : Nat) (n : Nat) (kept : Keeps hold pre s) :
    Keeps hold pre (pixRead e a n s).1 := by
  unfold pixRead
  repeat' first
    | with_reducible assumption
    | intro _
    | with_reducible apply dmaRead_keeps

theorem dpbBegin_keeps (o : PictureStart) (p : Pic) (kept : Keeps hold pre s) :
    Keeps hold pre (dpbBegin o p s).1 := by
  unfold dpbBegin
  repeat' first
    | with_reducible assumption
    | intro _
    | with_reducible apply sequenceBegin_keeps | with_reducible apply bump_keeps | with_reducible apply keepRefs_keeps
    | with_reducible apply Keeps.ite

theorem pictureBegin_keeps (o : PictureStart) (au : Au) (ent : Nat) (pix : Nat) (k : Nat) (kept : Keeps hold pre s) :
    Keeps hold pre (pictureBegin o au ent pix k s) := by
  unfold pictureBegin
  repeat' first
    | with_reducible assumption
    | intro _
    | with_reducible apply dpbBegin_keeps | with_reducible apply noteRecovery_keeps | with_reducible apply auDone_keeps | with_reducible apply takeSeq_keeps
    | with_reducible apply spendFrame_keeps | with_reducible apply timeDisagree_keeps | with_reducible apply takeSlot_keeps | with_reducible apply pixWrite_keeps
    | with_reducible apply setFlag_keeps | with_reducible apply wr_keeps | with_reducible apply setChan_keeps
    | with_reducible apply Keeps.ite

theorem pictureNext_keeps (o : PictureStart) (au : Au) (kept : Keeps hold pre s) :
    Keeps hold pre (pictureNext o au s) := by
  unfold pictureNext
  repeat' first
    | with_reducible assumption
    | intro _
    | with_reducible apply decodeReject_keeps | with_reducible apply decodeStarved_keeps | with_reducible apply pictureBegin_keeps
    | with_reducible apply Keeps.ite
    | fail_if_no_progress (with_reducible apply Keeps.upd)
    | refine Keeps.fst (by assumption) ?_
    | dsimp only
    | split

theorem decodeNext_keeps (o : PictureStart) (au : Au) (kept : Keeps hold pre s) :
    Keeps hold pre (decodeNext o au s) := by
  unfold decodeNext
  repeat' first
    | with_reducible assumption
    | intro _
    | with_reducible apply decodeUnsupported_keeps | with_reducible apply skipStart_keeps | with_reducible apply auDone_keeps | with_reducible apply noteIrap_keeps
    | with_reducible apply startDecode_keeps | with_reducible apply decodeLost_keeps | with_reducible apply pictureNext_keeps
    | with_reducible apply Keeps.ite

theorem execDecodePictureStart_keeps (o : PictureStart) {post : State} (kept : Keeps hold pre s) (e : execDecodePictureStart o s = .next post) :
    Keeps hold pre post := by
  unfold execDecodePictureStart at e
  refine live_keeps (fun s kept => ?_) kept e
  clear e
  repeat' first
    | with_reducible assumption
    | intro _
    | with_reducible apply decodeNext_keeps
    | with_reducible apply Keeps.ite
    | fail_if_no_progress (with_reducible apply Keeps.upd)
    | refine Keeps.fst (by assumption) ?_
    | dsimp only
    | split

theorem workExhausted_keeps (c : Nat) (pool : Nat) (kept : Keeps hold pre s) :
    Keeps hold pre (workExhausted c pool s) := by
  unfold workExhausted
  repeat' first
    | with_reducible assumption
    | intro _
    | with_reducible apply stopPicture_keeps | with_reducible apply overDeclared_keeps | with_reducible apply setChan_keeps

theorem engineBusy_keeps (e : Nat) (n : Nat) (kept : Keeps hold pre s) :
    Keeps hold pre (engineBusy e n s) := by
  unfold engineBusy
  repeat' first
    | with_reducible assumption
    | intro _
    | with_reducible apply Keeps.ite
    | fail_if_no_progress (with_reducible apply Keeps.upd)

theorem engineTick_keeps (kept : Keeps hold pre s) :
    Keeps hold pre (engineTick s) := by
  unfold engineTick
  repeat' first
    | with_reducible assumption
    | intro _
    | with_reducible apply wr_keeps
    | with_reducible apply Keeps.ite
    | with_reducible apply Keeps.foldl | with_reducible apply Keeps.foldlPair
    | fail_if_no_progress (with_reducible apply Keeps.upd)

theorem spendEnt_keeps (c : Nat) (n : Nat) (kept : Keeps hold pre s) :
    Keeps hold pre (spendEnt c n s) := by
  unfold spendEnt
  repeat' first
    | with_reducible assumption
    | intro _
    | with_reducible apply engineBusy_keeps | with_reducible apply workExhausted_keeps | with_reducible apply setChan_keeps
    | with_reducible apply Keeps.ite
    | fail_if_no_progress (with_reducible apply Keeps.upd)
    | refine Keeps.fst (by assumption) ?_
    | dsimp only
    | split

theorem spendPix_keeps (c : Nat) (n : Nat) (kept : Keeps hold pre s) :
    Keeps hold pre (spendPix c n s) := by
  unfold spendPix
  repeat' first
    | with_reducible assumption
    | intro _
    | with_reducible apply engineBusy_keeps | with_reducible apply workExhausted_keeps | with_reducible apply setChan_keeps
    | with_reducible apply Keeps.ite
    | fail_if_no_progress (with_reducible apply Keeps.upd)
    | refine Keeps.fst (by assumption) ?_
    | dsimp only
    | split

theorem workSeal_keeps (work : List (Fin 96 × Nat × Nat)) (kept : Keeps hold pre s) :
    Keeps hold pre (workSeal work s) := by
  unfold workSeal
  repeat' first
    | with_reducible assumption
    | intro _
    | with_reducible apply spendPix_keeps | with_reducible apply spendEnt_keeps
    | with_reducible apply Keeps.ite
    | with_reducible apply Keeps.foldl

theorem execDecodeWorkExhausted_keeps (ch : Fin 96) (pix : Bool) {post : State} (kept : Keeps hold pre s) (e : execDecodeWorkExhausted ch pix s = .next post) :
    Keeps hold pre post := by
  unfold execDecodeWorkExhausted at e
  refine live_keeps (fun s kept => ?_) kept e
  clear e
  repeat' first
    | with_reducible assumption
    | intro _
    | with_reducible apply workExhausted_keeps | with_reducible apply engineBusy_keeps
    | with_reducible apply Keeps.ite
    | fail_if_no_progress (with_reducible apply Keeps.upd)
    | refine Keeps.fst (by assumption) ?_
    | dsimp only
    | split

theorem parseStop_keeps (c : Nat) (seq : Nat) (cls : Nat) (unit : Nat) (q : ParseAt) (kept : Keeps hold pre s) :
    Keeps hold pre (parseStop c seq cls unit q s).1 := by
  unfold parseStop
  repeat' first
    | with_reducible assumption
    | intro _
    | with_reducible apply decodeError_keeps

theorem bitstreamRead_keeps (c : Nat) (ent : Nat) (au : Au) (off : Nat) (n : Nat) (kept : Keeps hold pre s) :
    Keeps hold pre (bitstreamRead c ent au off n s).1 := by
  unfold bitstreamRead
  repeat' first
    | with_reducible assumption
    | intro _
    | with_reducible apply dmaRead_keeps
    | with_reducible apply Keeps.ite | with_reducible apply Keeps.iteFst

theorem parseSlice_keeps (c : Nat) (p : Pic) (seq : Nat) (codec : Nat) (baseline : Bool) (sl : SliceObs) (q : ParseAt) (kept : Keeps hold pre s) :
    Keeps hold pre (parseSlice c p seq codec baseline sl s q).1 := by
  unfold parseSlice
  repeat' first
    | with_reducible assumption
    | intro _
    | with_reducible apply bitstreamRead_keeps | with_reducible apply parseStop_keeps
    | with_reducible apply Keeps.ite | with_reducible apply Keeps.iteFst
    | fail_if_no_progress (with_reducible apply Keeps.upd)
    | refine Keeps.fst (by assumption) ?_
    | dsimp only
    | split

theorem parseSlices_keeps (c : Nat) (p : Pic) (seq codec : Nat) (baseline : Bool) (ls : List SliceObs) (q : ParseAt)
    (h : Keeps hold pre s) : Keeps hold pre (parseSlices c p seq codec baseline ls s q).1 := by
  induction ls generalizing s q with
  | nil =>
    unfold parseSlices
    split
    · exact Keeps.iteFst h (Keeps.iteFst (parseStop_keeps _ _ _ _ _ h) (parseStop_keeps _ _ _ _ _ h))
    · exact h
  | cons l ls ih => exact ih _ (parseSlice_keeps _ _ _ _ _ _ _ h)

theorem pageMoves_keeps (c : Nat) (moves : List (Option (Fin 8))) (kept : Keeps hold pre s) :
    Keeps hold pre (pageMoves c moves s) := by
  unfold pageMoves
  repeat' first
    | with_reducible assumption
    | intro _
    | with_reducible apply pageTake_keeps | with_reducible apply pagesReturn_keeps
    | with_reducible apply Keeps.ite
    | with_reducible apply Keeps.foldl | with_reducible apply Keeps.foldlPair
    | fail_if_no_progress (with_reducible apply Keeps.upd)
    | refine Keeps.fst (by assumption) ?_
    | dsimp only
    | split

theorem parseDone_keeps (c : Nat) (p : Pic) (o : ParseObs) (kept : Keeps hold pre s) :
    Keeps hold pre (parseDone c p o s) := by
  unfold parseDone
  repeat' first
    | with_reducible assumption
    | intro _
    | with_reducible apply parseSlices_keeps | with_reducible apply setFlag_keeps | with_reducible apply updPic_keeps

theorem execEntropyParseDone_keeps (ch : Fin 96) (o : ParseObs) {post : State} (kept : Keeps hold pre s) (e : execEntropyParseDone ch o s = .next post) :
    Keeps hold pre post := by
  unfold execEntropyParseDone at e
  refine live_keeps (fun s kept => ?_) kept e
  clear e
  repeat' first
    | with_reducible assumption
    | intro _
    | with_reducible apply linked_keeps | with_reducible apply pageMoves_keeps | with_reducible apply spendEnt_keeps | with_reducible apply parseDone_keeps
    | with_reducible apply Keeps.ite
    | fail_if_no_progress (with_reducible apply Keeps.upd)
    | refine Keeps.fst (by assumption) ?_
    | dsimp only
    | split

theorem pictureTaints_keeps (c : Nat) (p : Pic) (concealed : Nat) (kept : Keeps hold pre s) :
    Keeps hold pre (pictureTaints c p concealed s) := by
  unfold pictureTaints
  repeat' first
    | with_reducible assumption
    | intro _
    | with_reducible apply setSlot_keeps | with_reducible apply setChan_keeps

theorem damageEvents_keeps (c : Nat) (seq : Nat) (concealed : Nat) (p : Pic) (kept : Keeps hold pre s) :
    Keeps hold pre (damageEvents c seq concealed p s) := by
  unfold damageEvents
  repeat' first
    | with_reducible assumption
    | intro _
    | with_reducible apply raiseOnce_keeps | with_reducible apply addReg_keeps
    | with_reducible apply Keeps.ite
    | fail_if_no_progress (with_reducible apply Keeps.upd)
    | refine Keeps.fst (by assumption) ?_
    | dsimp only
    | split

theorem pixelError_keeps (c : Nat) (seq : Nat) (unit : Nat) (p : Pic) (kept : Keeps hold pre s) :
    Keeps hold pre (pixelError c seq unit p s).1 := by
  unfold pixelError
  repeat' first
    | with_reducible assumption
    | intro _
    | with_reducible apply decodeError_keeps

theorem pixelReads_keeps (c seq : Nat) (rs : List RefRead) (p : Pic) (h : Keeps hold pre s) :
    Keeps hold pre (pixelReads c seq rs p s).1 := by
  induction rs generalizing p s with
  | nil => exact h
  | cons r rs ih =>
    have h1 := pixRead_keeps p.pix (slotBase s c r.slot.val + r.off) r.len h
    exact ih _ (Keeps.iteFst (pixelError_keeps _ _ _ _ h1) h1)

theorem pixelGranary_keeps (c seq : Nat) (ws : List (Nat × Nat)) (p : Pic) (h : Keeps hold pre s) :
    Keeps hold pre (pixelGranary c seq ws p s).1 := by
  induction ws generalizing p s with
  | nil => exact h
  | cons w ws ih =>
    have h1 := granaryUncorrectable_keeps w.1 h
    exact ih _ (Keeps.iteFst (pixelError_keeps _ _ _ _ h1) (granaryHeal_keeps _ _ h1))

theorem concealBytes_keeps (c : Nat) (p : Pic) (src : Option Nat) (fmt : Nat) (off : Nat) (n : Nat) (kept : Keeps hold pre s) :
    Keeps hold pre (concealBytes c p src fmt off n s).1 := by
  unfold concealBytes
  repeat' first
    | with_reducible assumption
    | intro _
    | with_reducible apply pixRead_keeps
    | with_reducible apply Keeps.ite | with_reducible apply Keeps.iteFst
    | fail_if_no_progress (with_reducible apply Keeps.upd)
    | refine Keeps.fst (by assumption) ?_
    | dsimp only
    | split

theorem concealRow_keeps (c : Nat) (p : Pic) (src : Option Nat) (fmt off w : Nat) (us : List Nat) (row : List Byte)
    (h : Keeps hold pre s) : Keeps hold pre (concealRow c p src fmt off w us row s).1 := by
  induction us generalizing row s with
  | nil => exact h
  | cons u us ih => exact ih _ (concealBytes_keeps _ _ _ _ _ _ h)

theorem writeRows_keeps (c : Nat) (p : Pic) (src : Option Nat) (off bytes w hh n y : Nat) (rows : List (List Byte))
    (h : Keeps hold pre s) : Keeps hold pre (writeRows c p src off bytes w hh n y rows s) := by
  induction n generalizing y rows s with
  | zero => exact h
  | succ n ih => exact ih _ _ (pixWrite_keeps _ _ _ (concealRow_keeps _ _ _ _ _ _ _ _ h))

theorem writePicture_keeps (c : Nat) (p : Pic) (o : DecodeObs) (kept : Keeps hold pre s) :
    Keeps hold pre (writePicture c p o s) := by
  unfold writePicture
  repeat' first
    | with_reducible assumption
    | intro _
    | with_reducible apply writeRows_keeps | with_reducible apply pixWrite_keeps

theorem dpbComplete_keeps (c : Nat) (p : Pic) (kept : Keeps hold pre s) :
    Keeps hold pre (dpbComplete c p s) := by
  unfold dpbComplete
  repeat' first
    | with_reducible assumption
    | intro _
    | with_reducible apply setSlot_keeps | with_reducible apply neverOutput_keeps | with_reducible apply keepRefs_keeps | with_reducible apply bump_keeps
    | with_reducible apply updSlot_keeps | with_reducible apply setChan_keeps
    | with_reducible apply Keeps.ite
    | with_reducible apply Keeps.foldl

theorem pictureComplete_keeps (c : Nat) (p : Pic) (o : DecodeObs) (kept : Keeps hold pre s) :
    Keeps hold pre (pictureComplete c p o s) := by
  unfold pictureComplete
  repeat' first
    | with_reducible assumption
    | intro _
    | with_reducible apply pixelReads_keeps | with_reducible apply pixelGranary_keeps | with_reducible apply writePicture_keeps | with_reducible apply damageEvents_keeps
    | with_reducible apply pictureTaints_keeps | with_reducible apply pagesReturn_keeps | with_reducible apply setFlag_keeps | with_reducible apply addReg_keeps
    | with_reducible apply dpbComplete_keeps | with_reducible apply setChan_keeps

theorem execDecodePictureComplete_keeps (ch : Fin 96) (o : DecodeObs) {post : State} (kept : Keeps hold pre s) (e : execDecodePictureComplete ch o s = .next post) :
    Keeps hold pre post := by
  unfold execDecodePictureComplete at e
  refine live_keeps (fun s kept => ?_) kept e
  clear e
  repeat' first
    | with_reducible assumption
    | intro _
    | with_reducible apply linked_keeps | with_reducible apply spendPix_keeps | with_reducible apply pictureComplete_keeps
    | with_reducible apply Keeps.ite
    | fail_if_no_progress (with_reducible apply Keeps.upd)
    | refine Keeps.fst (by assumption) ?_
    | dsimp only
    | split

end Sys2Proof.Machine
end

