-- ==== Sys2Proof/Laws/KeepsEncodeStream.lean ====
section
/-!
SUPPORT. Laws/KeepsEncodeStream.lean: every operation of Machine/EncodeStream.lean that answers a state has `Keeps`.
-/

namespace Sys2Proof.Machine

variable {hold : Bool} {pre s : State}

theorem encRead_keeps (n : Nat) (sp : Nat) (a : Nat) (len : Nat) (kept : Keeps hold pre s) :
    Keeps hold pre (encRead n sp a len s).1 := by
  unfold encRead
  repeat' first
    | with_reducible assumption
    | intro _
    | with_reducible apply dmaRead_keeps

theorem encReadRow_keeps (n : Nat) (p : PicSrc) (r : Nat) (kept : Keeps hold pre s) :
    Keeps hold pre (encReadRow n p r s).1 := by
  unfold encReadRow
  repeat' first
    | with_reducible assumption
    | intro _
    | with_reducible apply encRead_keeps
    | with_reducible apply Keeps.ite | with_reducible apply Keeps.iteFst
    | with_reducible apply Keeps.foldl | with_reducible apply Keeps.foldlPair

theorem encReadRefs_keeps (n : Nat) (refs : List (Nat × Nat)) (kept : Keeps hold pre s) :
    Keeps hold pre (encReadRefs n refs s).1 := by
  unfold encReadRefs
  repeat' first
    | with_reducible assumption
    | intro _
    | with_reducible apply encRead_keeps
    | with_reducible apply Keeps.ite | with_reducible apply Keeps.iteFst
    | with_reducible apply Keeps.foldl | with_reducible apply Keeps.foldlPair

theorem encCacheMet_keeps (n : Nat) (ws : List Nat) (kept : Keeps hold pre s) :
    Keeps hold pre (encCacheMet n ws s) := by
  unfold encCacheMet
  repeat' first
    | with_reducible assumption
    | intro _
    | with_reducible apply granaryHeal_keeps | with_reducible apply granaryUncorrectable_keeps
    | with_reducible apply Keeps.ite
    | with_reducible apply Keeps.foldl

theorem encWriteWork_keeps (n : Nat) (kept : Keeps hold pre s) :
    Keeps hold pre (encWriteWork n s) := by
  unfold encWriteWork
  repeat' first
    | with_reducible assumption
    | intro _
    | with_reducible apply dmaWrite_keeps

end Sys2Proof.Machine
end

