-- ==== Sys2Proof/Laws/KeepsHeads.lean ====
section
/-!
SUPPORT. Laws/KeepsHeads.lean: every operation of Machine/Heads.lean that answers a state has `Keeps`.
-/

namespace Sys2Proof.Machine

variable {hold : Bool} {pre s : State}

theorem phaseLatch_keeps (h : Nat) (kept : Keeps hold pre s) :
    Keeps hold pre (phaseLatch h s) := by
  unfold phaseLatch
  repeat' first
    | with_reducible assumption
    | intro _
    | with_reducible apply setHead_keeps

theorem eachHead_keeps (hs : List Nat) {f : Nat → State → State} (hf : ∀ x0 t, Keeps hold pre t → Keeps hold pre (f x0 t)) (kept : Keeps hold pre s) :
    Keeps hold pre (eachHead hs f s) := by
  unfold eachHead
  repeat' first
    | with_reducible assumption
    | intro _
    | with_reducible apply Keeps.ite
    | with_reducible apply Keeps.foldl | with_reducible apply Keeps.foldlPair
    | with_reducible apply hf

theorem headokUpdate_keeps (h : Nat) (kept : Keeps hold pre s) :
    Keeps hold pre (headokUpdate h s) := by
  unfold headokUpdate
  repeat' first
    | with_reducible assumption
    | intro _
    | with_reducible apply setFlag_keeps | with_reducible apply raise_keeps
    | with_reducible apply Keeps.ite

theorem setHeadState_keeps (h : Nat) (new : Nat) (kept : Keeps hold pre s) :
    Keeps hold pre (setHeadState h new s) := by
  unfold setHeadState
  repeat' first
    | with_reducible assumption
    | intro _
    | with_reducible apply setUnit_keeps | with_reducible apply finishWaiters_keeps | with_reducible apply setFlag_keeps | with_reducible apply setHead_keeps
    | with_reducible apply headokUpdate_keeps
    | with_reducible apply Keeps.ite

theorem deferAbandon_keeps (h : Nat) (kept : Keeps hold pre s) :
    Keeps hold pre (deferAbandon h s) := by
  unfold deferAbandon
  repeat' first
    | with_reducible assumption
    | intro _
    | with_reducible apply updCmd_keeps
    | with_reducible apply Keeps.ite
    | with_reducible apply Keeps.foldl | with_reducible apply Keeps.foldlPair
    | fail_if_no_progress (with_reducible apply Keeps.upd)

theorem deferDone_keeps (h : Nat) (n : Nat) (kept : Keeps hold pre s) :
    Keeps hold pre (deferDone h n s) := by
  unfold deferDone
  repeat' first
    | with_reducible assumption
    | intro _
    | with_reducible apply updCmd_keeps
    | with_reducible apply Keeps.ite
    | with_reducible apply Keeps.foldl | with_reducible apply Keeps.foldlPair
    | fail_if_no_progress (with_reducible apply Keeps.upd)

theorem pllStart_keeps (h : Nat) (kept : Keeps hold pre s) :
    Keeps hold pre (pllStart h s) := by
  unfold pllStart
  repeat' first
    | with_reducible assumption
    | intro _
    | with_reducible apply setFlag_keeps | with_reducible apply setHead_keeps

theorem dropUnbegun_keeps (h : Nat) (kept : Keeps hold pre s) :
    Keeps hold pre (dropUnbegun h s) := by
  unfold dropUnbegun
  repeat' first
    | with_reducible assumption
    | intro _
    | with_reducible apply encNoScan_keeps | with_reducible apply setHead_keeps
    | with_reducible apply Keeps.ite
    | fail_if_no_progress (with_reducible apply Keeps.upd)
    | refine Keeps.fst (by assumption) ?_
    | dsimp only
    | split

theorem retimeHead_keeps (h : Nat) (kept : Keeps hold pre s) :
    Keeps hold pre (retimeHead h s) := by
  unfold retimeHead
  repeat' first
    | with_reducible assumption
    | intro _
    | with_reducible apply deferAbandon_keeps | with_reducible apply dropUnbegun_keeps | with_reducible apply setHead_keeps | with_reducible apply pllStart_keeps
    | with_reducible apply setHeadState_keeps | with_reducible apply addReg_keeps | with_reducible apply setFlag_keeps | with_reducible apply raise_keeps

theorem retimeBegin_keeps (h : Nat) (kept : Keeps hold pre s) :
    Keeps hold pre (retimeBegin h s) := by
  unfold retimeBegin
  repeat' first
    | with_reducible assumption
    | intro _
    | with_reducible apply eachHead_keeps | with_reducible apply retimeHead_keeps
    | with_reducible apply Keeps.ite

theorem headsStepped_keeps (kept : Keeps hold pre s) :
    Keeps hold pre (headsStepped s) := by
  unfold headsStepped
  repeat' first
    | with_reducible assumption
    | intro _
    | with_reducible apply setHead_keeps | with_reducible apply retimeHead_keeps
    | with_reducible apply Keeps.ite
    | with_reducible apply Keeps.foldl

theorem execPixelPllLock_keeps (h : Fin 24) {post : State} (kept : Keeps hold pre s) (e : execPixelPllLock h s = .next post) :
    Keeps hold pre post := by
  unfold execPixelPllLock at e
  refine live_keeps (fun s kept => ?_) kept e
  clear e
  repeat' first
    | with_reducible assumption
    | intro _
    | with_reducible apply eachHead_keeps | with_reducible apply setFlag_keeps | with_reducible apply setHead_keeps
    | with_reducible apply Keeps.ite

theorem pllUnlock_keeps (h : Nat) (kept : Keeps hold pre s) :
    Keeps hold pre (pllUnlock h s) := by
  unfold pllUnlock
  repeat' first
    | with_reducible assumption
    | intro _
    | with_reducible apply setFlag_keeps | with_reducible apply setHead_keeps | with_reducible apply raise_keeps | with_reducible apply addReg_keeps
    | with_reducible apply retimeHead_keeps
    | with_reducible apply Keeps.ite

theorem execPixelPllUnlock_keeps (h : Fin 24) {post : State} (kept : Keeps hold pre s) (e : execPixelPllUnlock h s = .next post) :
    Keeps hold pre post := by
  unfold execPixelPllUnlock at e
  refine live_keeps (fun s kept => ?_) kept e
  clear e
  repeat' first
    | with_reducible assumption
    | intro _
    | with_reducible apply eachHead_keeps | with_reducible apply pllUnlock_keeps
    | with_reducible apply Keeps.ite

theorem execPllLockTimeout_keeps (h : Fin 24) {post : State} (kept : Keeps hold pre s) (e : execPllLockTimeout h s = .next post) :
    Keeps hold pre post := by
  unfold execPllLockTimeout at e
  refine live_keeps (fun s kept => ?_) kept e
  clear e
  repeat' first
    | with_reducible assumption
    | intro _
    | with_reducible apply waitElapsed_keeps | with_reducible apply raise_keeps | with_reducible apply setHead_keeps
    | with_reducible apply Keeps.ite

theorem headStart_keeps (h : Nat) (kept : Keeps hold pre s) :
    Keeps hold pre (headStart h s) := by
  unfold headStart
  repeat' first
    | with_reducible assumption
    | intro _
    | with_reducible apply eachHead_keeps | with_reducible apply setHead_keeps | with_reducible apply pllStart_keeps | with_reducible apply setHeadState_keeps

theorem headDrainOne_keeps (h : Nat) (kept : Keeps hold pre s) :
    Keeps hold pre (headDrainOne h s) := by
  unfold headDrainOne
  repeat' first
    | with_reducible assumption
    | intro _
    | with_reducible apply finishWaiters_keeps | with_reducible apply setHead_keeps | with_reducible apply setHeadState_keeps | with_reducible apply deferAbandon_keeps
    | with_reducible apply dropUnbegun_keeps | with_reducible apply setFlag_keeps

theorem headDrain_keeps (h : Nat) (kept : Keeps hold pre s) :
    Keeps hold pre (headDrain h s) := by
  unfold headDrain
  repeat' first
    | with_reducible assumption
    | intro _
    | with_reducible apply eachHead_keeps | with_reducible apply headDrainOne_keeps
    | with_reducible apply Keeps.ite

theorem headOpen_keeps (h : Nat) (c : Cmd) (kept : Keeps hold pre s) :
    Keeps hold pre (headOpen h c s) := by
  unfold headOpen
  repeat' first
    | with_reducible assumption
    | intro _
    | with_reducible apply reject_keeps | with_reducible apply waitCmd_keeps | with_reducible apply headStart_keeps
    | with_reducible apply Keeps.ite

theorem headEnableCmd_keeps (h : Nat) (c : Cmd) (kept : Keeps hold pre s) :
    Keeps hold pre (headEnableCmd h c s) := by
  unfold headEnableCmd
  repeat' first
    | with_reducible assumption
    | intro _
    | with_reducible apply enableCmd_keeps | with_reducible apply headOpen_keeps

theorem headDisableCmd_keeps (h : Nat) (c : Cmd) (kept : Keeps hold pre s) :
    Keeps hold pre (headDisableCmd h c s) := by
  unfold headDisableCmd
  repeat' first
    | with_reducible assumption
    | intro _
    | with_reducible apply waitCmd_keeps | with_reducible apply headDrain_keeps | with_reducible apply finishWaiters_keeps | with_reducible apply disableCmd_keeps
    | with_reducible apply Keeps.ite

theorem execHeadCtl_keeps (tag : Fin 4096) {post : State} (kept : Keeps hold pre s) (e : execHeadCtl tag s = .next post) :
    Keeps hold pre post := by
  unfold execHeadCtl at e
  refine live_keeps (fun s kept => ?_) kept e
  clear e
  repeat' first
    | with_reducible assumption
    | intro _
    | with_reducible apply onCmd_keeps | with_reducible apply headEnableCmd_keeps | with_reducible apply headDisableCmd_keeps
    | with_reducible apply Keeps.ite

theorem headRegEnable_keeps (h : Nat) (kept : Keeps hold pre s) :
    Keeps hold pre (headRegEnable h s) := by
  unfold headRegEnable
  repeat' first
    | with_reducible assumption
    | intro _
    | with_reducible apply enableIgnored_keeps | with_reducible apply setFlag_keeps | with_reducible apply headStart_keeps
    | with_reducible apply Keeps.ite

theorem headRegDisable_keeps (h : Nat) (kept : Keeps hold pre s) :
    Keeps hold pre (headRegDisable h s) := by
  unfold headRegDisable
  repeat' first
    | with_reducible assumption
    | intro _
    | with_reducible apply finishWaiters_keeps | with_reducible apply headDrain_keeps
    | with_reducible apply Keeps.ite

theorem execHeadRegEnable_keeps (h : Fin 24) {post : State} (kept : Keeps hold pre s) (e : execHeadRegEnable h s = .next post) :
    Keeps hold pre post := by
  unfold execHeadRegEnable at e
  refine live_keeps (fun s kept => ?_) kept e
  clear e
  repeat' first
    | with_reducible assumption
    | intro _
    | with_reducible apply headRegEnable_keeps
    | with_reducible apply Keeps.ite

theorem execHeadRegDisable_keeps (h : Fin 24) {post : State} (kept : Keeps hold pre s) (e : execHeadRegDisable h s = .next post) :
    Keeps hold pre post := by
  unfold execHeadRegDisable at e
  refine live_keeps (fun s kept => ?_) kept e
  clear e
  repeat' first
    | with_reducible assumption
    | intro _
    | with_reducible apply headRegDisable_keeps
    | with_reducible apply Keeps.ite

theorem updScan_keeps (h : Nat) (f : Scan → Scan) (kept : Keeps hold pre s) :
    Keeps hold pre (updScan h f s) := by
  unfold updScan
  repeat' first
    | with_reducible assumption
    | intro _
    | with_reducible apply setHead_keeps

theorem updScene_keeps (h : Nat) (i : Nat) (f : Layer → Layer) (kept : Keeps hold pre s) :
    Keeps hold pre (updScene h i f s) := by
  unfold updScene
  repeat' first
    | with_reducible assumption
    | intro _
    | with_reducible apply updScan_keeps | with_reducible apply setLayer_keeps
    | with_reducible apply Keeps.ite
    | fail_if_no_progress (with_reducible apply Keeps.upd)
    | refine Keeps.fst (by assumption) ?_
    | dsimp only
    | split

theorem sceneWrite_keeps (h : Nat) (off : Nat) (v : Nat) (kept : Keeps hold pre s) :
    Keeps hold pre (sceneWrite h off v s) := by
  unfold sceneWrite
  repeat' first
    | with_reducible assumption
    | intro _
    | with_reducible apply updScan_keeps | with_reducible apply lwr_keeps
    | with_reducible apply Keeps.ite
    | fail_if_no_progress (with_reducible apply Keeps.latch)
    | fail_if_no_progress (with_reducible apply Keeps.upd)
    | refine Keeps.fst (by assumption) ?_
    | dsimp only
    | split

theorem keepScene_keeps (h : Nat) (kept : Keeps hold pre s) :
    Keeps hold pre (keepScene h s) := by
  unfold keepScene
  repeat' first
    | with_reducible assumption
    | intro _
    | with_reducible apply updScan_keeps

theorem showLead_keeps (h : Nat) (lead : Nat) (kept : Keeps hold pre s) :
    Keeps hold pre (showLead h lead s) := by
  unfold showLead
  repeat' first
    | with_reducible assumption
    | intro _
    | with_reducible apply setFld_keeps | with_reducible apply setFlag_keeps | with_reducible apply setHead_keeps | with_reducible apply addReg_keeps
    | with_reducible apply Keeps.ite

theorem measureLead_keeps (h : Nat) (kept : Keeps hold pre s) :
    Keeps hold pre (measureLead h s) := by
  unfold measureLead
  repeat' first
    | with_reducible assumption
    | intro _
    | with_reducible apply showLead_keeps | with_reducible apply updScan_keeps
    | with_reducible apply Keeps.ite
    | fail_if_no_progress (with_reducible apply Keeps.upd)
    | refine Keeps.fst (by assumption) ?_
    | dsimp only
    | split

theorem fetchRow_keeps (hd i row : Nat) (urgent : Bool) (qs : List (Nat × Nat × Nat)) (h : Keeps hold pre s) :
    Keeps hold pre (fetchRow hd i row urgent qs s) := by
  induction qs generalizing s with
  | nil => exact h
  | cons q qs ih =>
    have h1 := dmaReadAs_keeps urgent (fetchGuard hd) (fetchPort hd) q.1 q.2.1 q.2.2 h
    exact ih (Keeps.ite h1 (updScene_keeps _ _ _ h1))

theorem burstAddr_keeps (h : Nat) (l : Nat) (row : Nat) (kept : Keeps hold pre s) :
    Keeps hold pre (burstAddr h l row s) := by
  unfold burstAddr
  repeat' first
    | with_reducible assumption
    | intro _
    | with_reducible apply sceneWrite_keeps | with_reducible apply updScene_keeps | with_reducible apply updScan_keeps
    | with_reducible apply Keeps.ite
    | with_reducible apply Keeps.foldl

theorem layerOvertake_keeps (h : Nat) (l : Nat) (y : Nat) (kept : Keeps hold pre s) :
    Keeps hold pre (layerOvertake h l y s) := by
  unfold layerOvertake
  repeat' first
    | with_reducible assumption
    | intro _
    | with_reducible apply addReg_keeps | with_reducible apply updScene_keeps | with_reducible apply raise_keeps
    | with_reducible apply Keeps.ite

theorem fetchRows_keeps (h : Nat) (l : Nat) (g : Geo) (urgent : Bool) (sc : Scan) (y : Nat) (p : PicSrc) (new : List Nat) (kept : Keeps hold pre s) :
    Keeps hold pre (fetchRows h l g urgent sc y p new s) := by
  unfold fetchRows
  repeat' first
    | with_reducible assumption
    | intro _
    | with_reducible apply burstAddr_keeps | with_reducible apply fetchRow_keeps
    | with_reducible apply Keeps.ite
    | with_reducible apply Keeps.foldl | with_reducible apply Keeps.foldlPair
    | fail_if_no_progress (with_reducible apply Keeps.upd)
    | refine Keeps.fst (by assumption) ?_
    | dsimp only
    | split

theorem fetchLine_keeps (h : Nat) (l : Nat) (sc : Scan) (kept : Keeps hold pre s) :
    Keeps hold pre (fetchLine h l sc s) := by
  unfold fetchLine
  repeat' first
    | with_reducible assumption
    | intro _
    | with_reducible apply layerOvertake_keeps | with_reducible apply fetchRows_keeps | with_reducible apply updScene_keeps
    | with_reducible apply Keeps.ite
    | fail_if_no_progress (with_reducible apply Keeps.upd)
    | refine Keeps.fst (by assumption) ?_
    | dsimp only
    | split

theorem execFetchBurst_keeps (h : Fin 24) (l : Fin 16) (o : BurstObs) {post : State} (kept : Keeps hold pre s) (e : execFetchBurst h l o s = .next post) :
    Keeps hold pre post := by
  unfold execFetchBurst at e
  refine live_keeps (fun s kept => ?_) kept e
  clear e
  repeat' first
    | with_reducible assumption
    | intro _
    | with_reducible apply hostStore_keeps | with_reducible apply measureLead_keeps | with_reducible apply linked_keeps | with_reducible apply fetchLine_keeps
    | with_reducible apply Keeps.ite
    | fail_if_no_progress (with_reducible apply Keeps.upd)
    | refine Keeps.fst (by assumption) ?_
    | dsimp only
    | split

theorem wbWrite_keeps (h : Nat) (a : Nat) (bs : List Byte) (kept : Keeps hold pre s) :
    Keeps hold pre (wbWrite h a bs s) := by
  unfold wbWrite
  repeat' first
    | with_reducible assumption
    | intro _
    | with_reducible apply dmaWrite_keeps

theorem wbFail_keeps (h : Nat) (n : Nat) (kept : Keeps hold pre s) :
    Keeps hold pre (wbFail h n s) := by
  unfold wbFail
  repeat' first
    | with_reducible assumption
    | intro _
    | with_reducible apply addReg_keeps | with_reducible apply updScan_keeps | with_reducible apply encWbFailed_keeps | with_reducible apply raiseOnce_keeps

theorem wbBegin_keeps (h : Nat) (n : Nat) (kept : Keeps hold pre s) :
    Keeps hold pre (wbBegin h n s) := by
  unfold wbBegin
  repeat' first
    | with_reducible assumption
    | intro _
    | with_reducible apply wbFail_keeps | with_reducible apply setWb_keeps | with_reducible apply updScan_keeps | with_reducible apply wbWrite_keeps
    | with_reducible apply Keeps.ite
    | fail_if_no_progress (with_reducible apply Keeps.upd)
    | refine Keeps.fst (by assumption) ?_
    | dsimp only
    | split

theorem wbLine_keeps (h : Nat) (sc : Scan) (ws : List Nat) (overflow : Bool) (acked : Nat) (kept : Keeps hold pre s) :
    Keeps hold pre (wbLine h sc ws overflow acked s) := by
  unfold wbLine
  repeat' first
    | with_reducible assumption
    | intro _
    | with_reducible apply wbFail_keeps | with_reducible apply wbWrite_keeps | with_reducible apply encLine_keeps | with_reducible apply setWb_keeps
    | with_reducible apply Keeps.ite
    | fail_if_no_progress (with_reducible apply Keeps.upd)
    | refine Keeps.fst (by assumption) ?_
    | dsimp only
    | split

theorem wbEnd_keeps (h : Nat) (sc : Scan) (kept : Keeps hold pre s) :
    Keeps hold pre (wbEnd h sc s) := by
  unfold wbEnd
  repeat' first
    | with_reducible assumption
    | intro _
    | with_reducible apply setWb_keeps | with_reducible apply gWords_keeps | with_reducible apply setHead_keeps
    | with_reducible apply Keeps.ite
    | fail_if_no_progress (with_reducible apply Keeps.upd)
    | refine Keeps.fst (by assumption) ?_
    | dsimp only
    | split

theorem wbComplete_keeps (h : Nat) (k : Nat) (f : WbFrame) (kept : Keeps hold pre s) :
    Keeps hold pre (wbComplete h k f s) := by
  unfold wbComplete
  repeat' first
    | with_reducible assumption
    | intro _
    | with_reducible apply setHead_keeps | with_reducible apply encLine_keeps | with_reducible apply encWbFailed_keeps
    | with_reducible apply Keeps.ite

theorem execWritebackComplete_keeps (h : Fin 24) {post : State} (kept : Keeps hold pre s) (e : execWritebackComplete h s = .next post) :
    Keeps hold pre post := by
  unfold execWritebackComplete at e
  refine live_keeps (fun s kept => ?_) kept e
  clear e
  repeat' first
    | with_reducible assumption
    | intro _
    | with_reducible apply wbComplete_keeps | with_reducible apply setHead_keeps
    | with_reducible apply Keeps.ite
    | fail_if_no_progress (with_reducible apply Keeps.upd)
    | refine Keeps.fst (by assumption) ?_
    | dsimp only
    | split

theorem execPrefetchStart_keeps (h : Fin 24) {post : State} (kept : Keeps hold pre s) (e : execPrefetchStart h s = .next post) :
    Keeps hold pre post := by
  unfold execPrefetchStart at e
  refine live_keeps (fun s kept => ?_) kept e
  clear e
  repeat' first
    | with_reducible assumption
    | intro _
    | with_reducible apply waitClock_keeps | with_reducible apply measureLead_keeps | with_reducible apply updScan_keeps
    | with_reducible apply Keeps.ite
    | fail_if_no_progress (with_reducible apply Keeps.upd)
    | refine Keeps.fst (by assumption) ?_
    | dsimp only
    | split

theorem scanBegin_keeps (err : Int) (h : Nat) (kept : Keeps hold pre s) :
    Keeps hold pre (scanBegin err h s) := by
  unfold scanBegin
  repeat' first
    | with_reducible assumption
    | intro _
    | with_reducible apply setHead_keeps | with_reducible apply wr_keeps | with_reducible apply wbBegin_keeps | with_reducible apply measureLead_keeps
    | with_reducible apply encScanBegin_keeps
    | with_reducible apply Keeps.ite
    | fail_if_no_progress (with_reducible apply Keeps.upd)
    | refine Keeps.fst (by assumption) ?_
    | dsimp only
    | split

theorem execActiveScanStart_keeps (h : Fin 24) (err : Int) {post : State} (kept : Keeps hold pre s) (e : execActiveScanStart h err s = .next post) :
    Keeps hold pre post := by
  unfold execActiveScanStart at e
  refine live_keeps (fun s kept => ?_) kept e
  clear e
  repeat' first
    | with_reducible assumption
    | intro _
    | with_reducible apply eachHead_keeps | with_reducible apply scanBegin_keeps | with_reducible apply waitClock_keeps
    | with_reducible apply Keeps.ite
    | fail_if_no_progress (with_reducible apply Keeps.upd)
    | refine Keeps.fst (by assumption) ?_
    | dsimp only
    | split

theorem rasterAnchor_keeps (h : Nat) (kept : Keeps hold pre s) :
    Keeps hold pre (rasterAnchor h s) := by
  unfold rasterAnchor
  repeat' first
    | with_reducible assumption
    | intro _
    | with_reducible apply updScan_keeps
    | with_reducible apply Keeps.ite
    | fail_if_no_progress (with_reducible apply Keeps.upd)
    | refine Keeps.fst (by assumption) ?_
    | dsimp only
    | split

theorem underrun_keeps (h : Nat) (line : Nat) (pixel : Nat) (kept : Keeps hold pre s) :
    Keeps hold pre (underrun h line pixel s) := by
  unfold underrun
  repeat' first
    | with_reducible assumption
    | intro _
    | with_reducible apply addReg_keeps | with_reducible apply updScan_keeps | with_reducible apply wr_keeps | with_reducible apply raiseOnce_keeps
    | with_reducible apply Keeps.ite

theorem lineStoreMet_keeps (store : Option (Nat × Nat)) (kept : Keeps hold pre s) :
    Keeps hold pre (lineStoreMet store s) := by
  unfold lineStoreMet
  repeat' first
    | with_reducible assumption
    | intro _
    | with_reducible apply granaryHeal_keeps | with_reducible apply granaryUncorrectable_keeps
    | with_reducible apply Keeps.ite
    | fail_if_no_progress (with_reducible apply Keeps.upd)
    | refine Keeps.fst (by assumption) ?_
    | dsimp only
    | split

theorem scanLine_keeps (h : Nat) (sc : Scan) (o : ScanObs) (kept : Keeps hold pre s) :
    Keeps hold pre (scanLine h sc o s) := by
  unfold scanLine
  repeat' first
    | with_reducible assumption
    | intro _
    | with_reducible apply setFld_keeps | with_reducible apply raise_keeps | with_reducible apply lineStoreMet_keeps | with_reducible apply underrun_keeps
    | with_reducible apply wbLine_keeps | with_reducible apply pushLine_keeps | with_reducible apply updScan_keeps | with_reducible apply measureLead_keeps
    | with_reducible apply Keeps.ite
    | with_reducible apply Keeps.foldl | with_reducible apply Keeps.foldlPair
    | fail_if_no_progress (with_reducible apply Keeps.upd)
    | refine Keeps.fst (by assumption) ?_
    | dsimp only
    | split

theorem execScanLine_keeps (h : Fin 24) (o : ScanObs) {post : State} (kept : Keeps hold pre s) (e : execScanLine h o s = .next post) :
    Keeps hold pre post := by
  unfold execScanLine at e
  refine live_keeps (fun s kept => ?_) kept e
  clear e
  repeat' first
    | with_reducible assumption
    | intro _
    | with_reducible apply waitElapsed_keeps | with_reducible apply scanLine_keeps
    | with_reducible apply Keeps.ite
    | fail_if_no_progress (with_reducible apply Keeps.upd)
    | refine Keeps.fst (by assumption) ?_
    | dsimp only
    | split

theorem cutScan_keeps (h : Nat) (kept : Keeps hold pre s) :
    Keeps hold pre (cutScan h s) := by
  unfold cutScan
  repeat' first
    | with_reducible assumption
    | intro _
    | with_reducible apply updScan_keeps

theorem execActiveScanCut_keeps (h : Fin 24) {post : State} (kept : Keeps hold pre s) (e : execActiveScanCut h s = .next post) :
    Keeps hold pre post := by
  unfold execActiveScanCut at e
  refine live_keeps (fun s kept => ?_) kept e
  clear e
  repeat' first
    | with_reducible assumption
    | intro _
    | with_reducible apply eachHead_keeps | with_reducible apply cutScan_keeps | with_reducible apply waitClock_keeps
    | with_reducible apply Keeps.ite
    | fail_if_no_progress (with_reducible apply Keeps.upd)
    | refine Keeps.fst (by assumption) ?_
    | dsimp only
    | split

theorem headStuck_keeps (cause : Nat) (h : Nat) (kept : Keeps hold pre s) :
    Keeps hold pre (headStuck cause h s) := by
  unfold headStuck
  repeat' first
    | with_reducible assumption
    | intro _
    | with_reducible apply setHead_keeps | with_reducible apply setFlag_keeps | with_reducible apply raise_keeps | with_reducible apply headokUpdate_keeps
    | with_reducible apply Keeps.ite

theorem lintelShift_keeps (h : Nat) (n : Nat) (crc : Nat) (flags : Nat) (kept : Keeps hold pre s) :
    Keeps hold pre (lintelShift h n crc flags s) := by
  unfold lintelShift
  repeat' first
    | with_reducible assumption
    | intro _
    | with_reducible apply wr_keeps
    | with_reducible apply Keeps.ite
    | with_reducible apply Keeps.foldl

theorem witnessFrame_keeps (h : Nat) (sc : Scan) (kept : Keeps hold pre s) :
    Keeps hold pre (witnessFrame h sc s) := by
  unfold witnessFrame
  repeat' first
    | with_reducible assumption
    | intro _
    | with_reducible apply setHead_keeps

theorem frameEnd_keeps (h : Nat) (kept : Keeps hold pre s) :
    Keeps hold pre (frameEnd h s) := by
  unfold frameEnd
  repeat' first
    | with_reducible assumption
    | intro _
    | with_reducible apply headokUpdate_keeps | with_reducible apply lintelShift_keeps | with_reducible apply setFld_keeps | with_reducible apply wr_keeps
    | with_reducible apply wideSet_keeps | with_reducible apply addReg_keeps | with_reducible apply raise_keeps | with_reducible apply pushTrailer_keeps
    | with_reducible apply wbEnd_keeps | with_reducible apply measureLead_keeps | with_reducible apply setHead_keeps | with_reducible apply retimeHead_keeps
    | with_reducible apply Keeps.ite
    | with_reducible apply Keeps.foldl | with_reducible apply Keeps.foldlPair
    | fail_if_no_progress (with_reducible apply Keeps.upd)
    | refine Keeps.fst (by assumption) ?_
    | dsimp only
    | split

theorem execFrameComplete_keeps (h : Fin 24) {post : State} (kept : Keeps hold pre s) (e : execFrameComplete h s = .next post) :
    Keeps hold pre post := by
  unfold execFrameComplete at e
  refine live_keeps (fun s kept => ?_) kept e
  clear e
  repeat' first
    | with_reducible assumption
    | intro _
    | with_reducible apply waitElapsed_keeps | with_reducible apply eachHead_keeps | with_reducible apply witnessFrame_keeps | with_reducible apply headStuck_keeps
    | with_reducible apply frameEnd_keeps
    | with_reducible apply Keeps.ite
    | fail_if_no_progress (with_reducible apply Keeps.upd)
    | refine Keeps.fst (by assumption) ?_
    | dsimp only
    | split

theorem execHeadStuckNoFrame_keeps (h : Fin 24) {post : State} (kept : Keeps hold pre s) (e : execHeadStuckNoFrame h s = .next post) :
    Keeps hold pre post := by
  unfold execHeadStuckNoFrame at e
  refine live_keeps (fun s kept => ?_) kept e
  clear e
  repeat' first
    | with_reducible assumption
    | intro _
    | with_reducible apply waitElapsed_keeps | with_reducible apply eachHead_keeps | with_reducible apply headStuck_keeps
    | with_reducible apply Keeps.ite

theorem execHeadLastNRead_keeps (h : Fin 24) {post : State} (kept : Keeps hold pre s) (e : execHeadLastNRead h s = .next post) :
    Keeps hold pre post := by
  unfold execHeadLastNRead at e
  refine live_keeps (fun s kept => ?_) kept e
  clear e
  repeat' first
    | with_reducible assumption
    | intro _
    | with_reducible apply wideLatch_keeps

theorem execHeadFirstNRead_keeps (h : Fin 24) {post : State} (kept : Keeps hold pre s) (e : execHeadFirstNRead h s = .next post) :
    Keeps hold pre post := by
  unfold execHeadFirstNRead at e
  refine live_keeps (fun s kept => ?_) kept e
  clear e
  repeat' first
    | with_reducible assumption
    | intro _
    | with_reducible apply wideLatch_keeps

theorem headRuns_keeps (h : Nat) (n : Nat) (kept : Keeps hold pre s) :
    Keeps hold pre (headRuns h n s) := by
  unfold headRuns
  repeat' first
    | with_reducible assumption
    | intro _
    | with_reducible apply finishWaiters_keeps | with_reducible apply setHeadState_keeps | with_reducible apply wideSet_keeps | with_reducible apply deferDone_keeps
    | with_reducible apply raise_keeps | with_reducible apply setFlag_keeps
    | with_reducible apply Keeps.ite

theorem headSealState_keeps (n : Nat) (h : Nat) (kept : Keeps hold pre s) :
    Keeps hold pre (headSealState n h s) := by
  unfold headSealState
  repeat' first
    | with_reducible assumption
    | intro _
    | with_reducible apply addReg_keeps | with_reducible apply setHeadState_keeps | with_reducible apply setHead_keeps | with_reducible apply dropUnbegun_keeps
    | with_reducible apply headRuns_keeps
    | with_reducible apply Keeps.ite

theorem headSealScan_keeps (n : Nat) (t : Nat) (h : Nat) (kept : Keeps hold pre s) :
    Keeps hold pre (headSealScan n t h s) := by
  unfold headSealScan
  repeat' first
    | with_reducible assumption
    | intro _
    | with_reducible apply setHead_keeps
    | with_reducible apply Keeps.ite

theorem directTiming_keeps (h : Nat) (kept : Keeps hold pre s) :
    Keeps hold pre (directTiming h s) := by
  unfold directTiming
  repeat' first
    | with_reducible assumption
    | intro _
    | with_reducible apply setFlag_keeps | with_reducible apply setHead_keeps

end Sys2Proof.Machine
end

