-- ==== Sys2Proof/Laws/KeepsEncode.lean ====
section
/-!
SUPPORT. Laws/KeepsEncode.lean: every operation of Machine/Encode.lean that answers a state has `Keeps`.
-/

namespace Sys2Proof.Machine

variable {hold : Bool} {pre s : State}

theorem encShowNext_keeps (n : Nat) (kept : Keeps hold pre s) :
    Keeps hold pre (encShowNext n s) := by
  unfold encShowNext
  repeat' first
    | with_reducible assumption
    | intro _
    | with_reducible apply wideSet_keeps
    | with_reducible apply Keeps.ite
    | fail_if_no_progress (with_reducible apply Keeps.upd)
    | refine Keeps.fst (by assumption) ?_
    | dsimp only
    | split

theorem encEnter_keeps (n : Nat) (c : Cmd) (level : Nat) (kept : Keeps hold pre s) :
    Keeps hold pre (encEnter n c level s) := by
  unfold encEnter
  repeat' first
    | with_reducible assumption
    | intro _
    | with_reducible apply poolAdmit_keeps | with_reducible apply setFld_keeps | with_reducible apply wr_keeps | with_reducible apply encShowNext_keeps
    | with_reducible apply setEnc_keeps | with_reducible apply setUnit_keeps
    | with_reducible apply Keeps.ite
    | with_reducible apply Keeps.foldl

theorem encStart_keeps (c : Cmd) (kept : Keeps hold pre s) :
    Keeps hold pre (encStart c s) := by
  unfold encStart
  repeat' first
    | with_reducible assumption
    | intro _
    | with_reducible apply reject_keeps | with_reducible apply finish_keeps | with_reducible apply waitCmd_keeps | with_reducible apply encEnter_keeps
    | with_reducible apply Keeps.ite
    | fail_if_no_progress (with_reducible apply Keeps.upd)
    | refine Keeps.fst (by assumption) ?_
    | dsimp only
    | split

theorem execEncStart_keeps (tag : Fin 4096) {post : State} (kept : Keeps hold pre s) (e : execEncStart tag s = .next post) :
    Keeps hold pre post := by
  unfold execEncStart at e
  refine live_keeps (fun s kept => ?_) kept e
  clear e
  repeat' first
    | with_reducible assumption
    | intro _
    | with_reducible apply onCmd_keeps | with_reducible apply enableCmd_keeps | with_reducible apply encStart_keeps

theorem encDrain_keeps (n : Nat) (kept : Keeps hold pre s) :
    Keeps hold pre (encDrain n s) := by
  unfold encDrain
  repeat' first
    | with_reducible assumption
    | intro _
    | with_reducible apply unitDrain_keeps | with_reducible apply encReleaseOpt_keeps | with_reducible apply setEnc_keeps
    | with_reducible apply Keeps.ite
    | fail_if_no_progress (with_reducible apply Keeps.upd)
    | refine Keeps.fst (by assumption) ?_
    | dsimp only
    | split

theorem execEncStop_keeps (tag : Fin 4096) {post : State} (kept : Keeps hold pre s) (e : execEncStop tag s = .next post) :
    Keeps hold pre post := by
  unfold execEncStop at e
  refine live_keeps (fun s kept => ?_) kept e
  clear e
  repeat' first
    | with_reducible assumption
    | intro _
    | with_reducible apply onCmd_keeps | with_reducible apply disableCmd_keeps | with_reducible apply encDrain_keeps

theorem encTake_keeps (n : Nat) (i : EncFollow) (kept : Keeps hold pre s) :
    Keeps hold pre (encTake n i s) := by
  unfold encTake
  repeat' first
    | with_reducible assumption
    | intro _
    | with_reducible apply addReg_keeps | with_reducible apply encBegin_keeps | with_reducible apply setEnc_keeps | with_reducible apply encHold_keeps
    | with_reducible apply Keeps.ite
    | fail_if_no_progress (with_reducible apply Keeps.upd)
    | refine Keeps.fst (by assumption) ?_
    | dsimp only
    | split

theorem encRuns_keeps (n : Nat) (m : Nat) (kept : Keeps hold pre s) :
    Keeps hold pre (encRuns n m s) := by
  unfold encRuns
  repeat' first
    | with_reducible assumption
    | intro _
    | with_reducible apply finishNow_keeps | with_reducible apply setUnit_keeps
    | with_reducible apply Keeps.ite
    | with_reducible apply Keeps.foldl

theorem encInput_keeps (n : Nat) (m : Nat) (t : Nat) (kept : Keeps hold pre s) :
    Keeps hold pre (encInput n m t s) := by
  unfold encInput
  repeat' first
    | with_reducible assumption
    | intro _
    | with_reducible apply encFollowStart_keeps | with_reducible apply encRuns_keeps | with_reducible apply setEnc_keeps | with_reducible apply encTake_keeps
    | with_reducible apply Keeps.ite

theorem sealEncode_keeps (m : Nat) (t : Nat) (kept : Keeps hold pre s) :
    Keeps hold pre (sealEncode m t s) := by
  unfold sealEncode
  repeat' first
    | with_reducible assumption
    | intro _
    | with_reducible apply encInput_keeps | with_reducible apply encShowNext_keeps
    | with_reducible apply Keeps.ite
    | with_reducible apply Keeps.foldl

theorem encWrite_keeps (n : Nat) (a : Nat) (bs : List Byte) (kept : Keeps hold pre s) :
    Keeps hold pre (encWrite n a bs s) := by
  unfold encWrite
  repeat' first
    | with_reducible assumption
    | intro _
    | with_reducible apply dmaWrite_keeps
    | with_reducible apply Keeps.ite

theorem encShowFree_keeps (n : Nat) (kept : Keeps hold pre s) :
    Keeps hold pre (encShowFree n s) := by
  unfold encShowFree
  repeat' first
    | with_reducible assumption
    | intro _
    | with_reducible apply wr_keeps

theorem encData_keeps (n : Nat) (bs : List Byte) (kept : Keeps hold pre s) :
    Keeps hold pre (encData n bs s) := by
  unfold encData
  repeat' first
    | with_reducible assumption
    | intro _
    | with_reducible apply encWrite_keeps | with_reducible apply setEnc_keeps

theorem encRecord_keeps (n : Nat) (start : Nat) (words : List Nat) (kept : Keeps hold pre s) :
    Keeps hold pre (encRecord n start words s) := by
  unfold encRecord
  repeat' first
    | with_reducible assumption
    | intro _
    | with_reducible apply encWrite_keeps | with_reducible apply setEnc_keeps | with_reducible apply encShowFree_keeps | with_reducible apply addFld_keeps

theorem encEmit_keeps (n : Nat) (kind : Nat) (last : Bool) (fill : List Byte) (p : EncPic) (kept : Keeps hold pre s) :
    Keeps hold pre (encEmit n kind last fill p s).1 := by
  unfold encEmit
  repeat' first
    | with_reducible assumption
    | intro _
    | with_reducible apply encData_keeps | with_reducible apply encRecord_keeps
    | with_reducible apply Keeps.ite | with_reducible apply Keeps.iteFst
    | fail_if_no_progress (with_reducible apply Keeps.upd)

theorem encRecCons_keeps (n : Nat) (v : Nat) (kept : Keeps hold pre s) :
    Keeps hold pre (encRecCons n v s) := by
  unfold encRecCons
  repeat' first
    | with_reducible assumption
    | intro _
    | with_reducible apply setEnc_keeps | with_reducible apply encShowFree_keeps | with_reducible apply setFld_keeps | with_reducible apply setFlag_keeps
    | with_reducible apply Keeps.ite

theorem execEncRecConsWrite_keeps (n : Fin 16) (v : Word) {post : State} (kept : Keeps hold pre s) (e : execEncRecConsWrite n v s = .next post) :
    Keeps hold pre post := by
  unfold execEncRecConsWrite at e
  refine live_keeps (fun s kept => ?_) kept e
  clear e
  repeat' first
    | with_reducible assumption
    | intro _
    | with_reducible apply encRecCons_keeps

theorem execEncNextNRead_keeps (n : Fin 16) {post : State} (kept : Keeps hold pre s) (e : execEncNextNRead n s = .next post) :
    Keeps hold pre post := by
  unfold execEncNextNRead at e
  refine live_keeps (fun s kept => ?_) kept e
  clear e
  repeat' first
    | with_reducible assumption
    | intro _
    | with_reducible apply wideLatch_keeps

theorem outputFull_keeps (n : Nat) (kept : Keeps hold pre s) :
    Keeps hold pre (outputFull n s) := by
  unfold outputFull
  repeat' first
    | with_reducible assumption
    | intro _
    | with_reducible apply raiseOnce_keeps

theorem encRoom_keeps (n : Nat) (p : EncPic) (kept : Keeps hold pre s) :
    Keeps hold pre (encRoom n p s) := by
  unfold encRoom
  repeat' first
    | with_reducible assumption
    | intro _
    | with_reducible apply setEnc_keeps | with_reducible apply outputFull_keeps | with_reducible apply addReg_keeps | with_reducible apply encReleaseOpt_keeps
    | with_reducible apply encDrain_keeps | with_reducible apply setFlag_keeps
    | with_reducible apply Keeps.ite

theorem execEncRowStart_keeps (p : Fin 2) {post : State} (kept : Keeps hold pre s) (e : execEncRowStart p s = .next post) :
    Keeps hold pre post := by
  unfold execEncRowStart at e
  refine live_keeps (fun s kept => ?_) kept e
  clear e
  repeat' first
    | with_reducible assumption
    | intro _
    | with_reducible apply encRoom_keeps | with_reducible apply setEnc_keeps
    | with_reducible apply Keeps.ite
    | fail_if_no_progress (with_reducible apply Keeps.upd)
    | refine Keeps.fst (by assumption) ?_
    | dsimp only
    | split

theorem sweepStep_keeps (n : Nat) (p : EncPic) (kept : Keeps hold pre s) :
    Keeps hold pre (sweepStep n p s) := by
  unfold sweepStep
  repeat' first
    | with_reducible assumption
    | intro _
    | with_reducible apply setEnc_keeps | with_reducible apply wr_keeps | with_reducible apply addReg_keeps | with_reducible apply raiseOnce_keeps
    | with_reducible apply setFld_keeps
    | with_reducible apply Keeps.ite

theorem encPictureDone_keeps (n : Nat) (p : EncPic) (kept : Keeps hold pre s) :
    Keeps hold pre (encPictureDone n p s) := by
  unfold encPictureDone
  repeat' first
    | with_reducible assumption
    | intro _
    | with_reducible apply setEnc_keeps | with_reducible apply encWriteWork_keeps | with_reducible apply wr_keeps | with_reducible apply addReg_keeps
    | with_reducible apply raiseOnce_keeps | with_reducible apply encReleaseOpt_keeps | with_reducible apply sweepStep_keeps
    | with_reducible apply Keeps.ite

theorem overClamp_keeps (n : Nat) (p : EncPic) (kept : Keeps hold pre s) :
    Keeps hold pre (overClamp n p s) := by
  unfold overClamp
  repeat' first
    | with_reducible assumption
    | intro _
    | with_reducible apply raiseOnce_keeps | with_reducible apply addReg_keeps

theorem encRowEnds_keeps (n : Nat) (p : EncPic) (kept : Keeps hold pre s) :
    Keeps hold pre (encRowEnds n p s) := by
  unfold encRowEnds
  repeat' first
    | with_reducible assumption
    | intro _
    | with_reducible apply encEmit_keeps | with_reducible apply encPictureDone_keeps | with_reducible apply setEnc_keeps
    | with_reducible apply Keeps.ite

theorem encRowDone_keeps (n : Nat) (p : EncPic) (o : RowObs) (kept : Keeps hold pre s) :
    Keeps hold pre (encRowDone n p o s) := by
  unfold encRowDone
  repeat' first
    | with_reducible assumption
    | intro _
    | with_reducible apply encReadRow_keeps | with_reducible apply encReadRefs_keeps | with_reducible apply encCacheMet_keeps | with_reducible apply overClamp_keeps
    | with_reducible apply setEnc_keeps | with_reducible apply encRowEnds_keeps
    | with_reducible apply Keeps.ite
    | fail_if_no_progress (with_reducible apply Keeps.upd)
    | refine Keeps.fst (by assumption) ?_
    | dsimp only
    | split

theorem execEncRowCoded_keeps (p : Fin 2) (o : RowObs) {post : State} (kept : Keeps hold pre s) (e : execEncRowCoded p o s = .next post) :
    Keeps hold pre post := by
  unfold execEncRowCoded at e
  refine live_keeps (fun s kept => ?_) kept e
  clear e
  repeat' first
    | with_reducible assumption
    | intro _
    | with_reducible apply linked_keeps | with_reducible apply encRowDone_keeps | with_reducible apply engineBusy_keeps
    | with_reducible apply Keeps.ite
    | fail_if_no_progress (with_reducible apply Keeps.upd)
    | refine Keeps.fst (by assumption) ?_
    | dsimp only
    | split

theorem pipeTick_keeps (kept : Keeps hold pre s) :
    Keeps hold pre (pipeTick s) := by
  unfold pipeTick
  repeat' first
    | with_reducible assumption
    | intro _
    | with_reducible apply wr_keeps
    | with_reducible apply Keeps.ite
    | with_reducible apply Keeps.foldl

theorem encEnd_keeps (n : Nat) (kept : Keeps hold pre s) :
    Keeps hold pre (encEnd n s) := by
  unfold encEnd
  repeat' first
    | with_reducible assumption
    | intro _
    | with_reducible apply encRecord_keeps
    | with_reducible apply Keeps.ite
    | fail_if_no_progress (with_reducible apply Keeps.upd)

end Sys2Proof.Machine
end

