-- ==== Sys2Proof/Laws/KeepsChecks.lean ====
section
/-!
SUPPORT. Laws/KeepsChecks.lean: every operation of Machine/Checks.lean that answers a state has `Keeps`.
-/

namespace Sys2Proof.Machine

variable {hold : Bool} {pre s : State}

theorem addBytes_keeps (key : Nat) (reg : Nat) (n : Nat) (kept : Keeps hold pre s) :
    Keeps hold pre (addBytes key reg n s) := by
  unfold addBytes
  repeat' first
    | with_reducible assumption
    | intro _
    | with_reducible apply wr_keeps
    | with_reducible apply Keeps.ite
    | fail_if_no_progress (with_reducible apply Keeps.upd)

theorem setTurns_keeps (e : Nat) (ts : List Nat) (kept : Keeps hold pre s) :
    Keeps hold pre (setTurns e ts s) := by
  unfold setTurns
  repeat' first
    | with_reducible assumption
    | intro _
    | with_reducible apply Keeps.ite
    | fail_if_no_progress (with_reducible apply Keeps.upd)

theorem joinTurns_keeps (e : Nat) (tag : Nat) (kept : Keeps hold pre s) :
    Keeps hold pre (joinTurns e tag s) := by
  unfold joinTurns
  repeat' first
    | with_reducible assumption
    | intro _
    | with_reducible apply setTurns_keeps
    | with_reducible apply Keeps.ite
    | fail_if_no_progress (with_reducible apply Keeps.upd)

theorem chkSet_keeps (x : Nat) (alg : Nat) (v : Nat) (kept : Keeps hold pre s) :
    Keeps hold pre (chkSet x alg v s) := by
  unfold chkSet
  repeat' first
    | with_reducible assumption
    | intro _
    | with_reducible apply wr64_keeps | with_reducible apply setFld_keeps

theorem execChkJob_keeps (tag : Fin 4096) {post : State} (kept : Keeps hold pre s) (e : execChkJob tag s = .next post) :
    Keeps hold pre post := by
  unfold execChkJob at e
  refine live_keeps (fun s kept => ?_) kept e
  clear e
  repeat' first
    | with_reducible assumption
    | intro _
    | with_reducible apply onCmd_keeps | with_reducible apply joinTurns_keeps | with_reducible apply chkSet_keeps | with_reducible apply waitCmd_keeps
    | with_reducible apply Keeps.ite

theorem chkFinish_keeps (c : Cmd) (kept : Keeps hold pre s) :
    Keeps hold pre (chkFinish c s) := by
  unfold chkFinish
  repeat' first
    | with_reducible assumption
    | intro _
    | with_reducible apply addReg_keeps | with_reducible apply finish_keeps
    | with_reducible apply Keeps.ite

theorem chkTurn_keeps (c : Cmd) (kept : Keeps hold pre s) :
    Keeps hold pre (chkTurn c s) := by
  unfold chkTurn
  repeat' first
    | with_reducible assumption
    | intro _
    | with_reducible apply dmaRead_keeps | with_reducible apply finishFault_keeps | with_reducible apply addReg_keeps | with_reducible apply chkSet_keeps
    | with_reducible apply addBytes_keeps | with_reducible apply chkFinish_keeps | with_reducible apply updCmd_keeps
    | with_reducible apply Keeps.ite
    | fail_if_no_progress (with_reducible apply Keeps.upd)
    | refine Keeps.fst (by assumption) ?_
    | dsimp only
    | split

theorem chkContext_keeps (x : Nat) (reg : Nat) (v : Nat) (kept : Keeps hold pre s) :
    Keeps hold pre (chkContext x reg v s) := by
  unfold chkContext
  repeat' first
    | with_reducible assumption
    | intro _
    | with_reducible apply setFlag_keeps | with_reducible apply setFld_keeps | with_reducible apply wr_keeps
    | with_reducible apply Keeps.ite

theorem execChkContextWrite_keeps (ctx : Fin 64) (reg : Fin 3) (v : Word) {post : State} (kept : Keeps hold pre s) (e : execChkContextWrite ctx reg v s = .next post) :
    Keeps hold pre post := by
  unfold execChkContextWrite at e
  refine live_keeps (fun s kept => ?_) kept e
  clear e
  repeat' first
    | with_reducible assumption
    | intro _
    | with_reducible apply chkContext_keeps

theorem execSnapshot_keeps (tag : Fin 4096) {post : State} (kept : Keeps hold pre s) (e : execSnapshot tag s = .next post) :
    Keeps hold pre post := by
  unfold execSnapshot at e
  refine live_keeps (fun s kept => ?_) kept e
  clear e
  repeat' first
    | with_reducible assumption
    | intro _
    | with_reducible apply onCmd_keeps | with_reducible apply waitCmd_keeps

theorem sealSnapshots_keeps (kept : Keeps hold pre s) :
    Keeps hold pre (sealSnapshots s) := by
  unfold sealSnapshots
  repeat' first
    | with_reducible assumption
    | intro _
    | with_reducible apply finish_keeps | with_reducible apply joinTurns_keeps | with_reducible apply waitCmd_keeps | with_reducible apply encHold_keeps
    | with_reducible apply Keeps.ite
    | with_reducible apply Keeps.foldl | with_reducible apply Keeps.foldlPair
    | fail_if_no_progress (with_reducible apply Keeps.upd)
    | refine Keeps.fst (by assumption) ?_
    | dsimp only
    | split

theorem snapRows_keeps (x pitch w rows : Nat) (acc : List Byte) (kept : Keeps hold pre s) :
    Keeps hold pre (snapRows x pitch w rows s acc).1 := by
  induction rows generalizing x s acc with
  | zero => exact kept
  | succ rows ih =>
    have h1 := dmaRead_keeps 25 21 spCellar x (4 * w) kept
    unfold snapRows
    exact Keeps.iteFst h1 (ih _ _ h1)

theorem snapFinish_keeps (c : Cmd) (h : Nat) (k : Nat) (header : List Byte) (active : List Byte) (pixels : List Byte) (kept : Keeps hold pre s) :
    Keeps hold pre (snapFinish c h k header active pixels s) := by
  unfold snapFinish
  repeat' first
    | with_reducible assumption
    | intro _
    | with_reducible apply finish_keeps | with_reducible apply dmaWrite_keeps | with_reducible apply finishFault_keeps
    | with_reducible apply Keeps.ite
    | fail_if_no_progress (with_reducible apply Keeps.upd)
    | refine Keeps.fst (by assumption) ?_
    | dsimp only
    | split

theorem snapDone_keeps (c : Cmd) (kept : Keeps hold pre s) :
    Keeps hold pre (snapDone c s) := by
  unfold snapDone
  repeat' first
    | with_reducible assumption
    | intro _
    | with_reducible apply dmaRead_keeps | with_reducible apply snapRows_keeps | with_reducible apply finishFault_keeps | with_reducible apply snapFinish_keeps
    | with_reducible apply addBytes_keeps | with_reducible apply encRelease_keeps
    | with_reducible apply Keeps.ite
    | fail_if_no_progress (with_reducible apply Keeps.upd)
    | refine Keeps.fst (by assumption) ?_
    | dsimp only
    | split

theorem snapTurn_keeps (c : Cmd) (kept : Keeps hold pre s) :
    Keeps hold pre (snapTurn c s) := by
  unfold snapTurn
  repeat' first
    | with_reducible assumption
    | intro _
    | with_reducible apply snapDone_keeps | with_reducible apply updCmd_keeps
    | with_reducible apply Keeps.ite

theorem engineTurn_keeps (e : Nat) (kept : Keeps hold pre s) :
    Keeps hold pre (engineTurn e s) := by
  unfold engineTurn
  repeat' first
    | with_reducible assumption
    | intro _
    | with_reducible apply chkTurn_keeps | with_reducible apply snapTurn_keeps | with_reducible apply setTurns_keeps
    | with_reducible apply Keeps.ite
    | fail_if_no_progress (with_reducible apply Keeps.upd)
    | refine Keeps.fst (by assumption) ?_
    | dsimp only
    | split

theorem engineUntil_keeps (e tag n : Nat) (h : Keeps hold pre s) : Keeps hold pre (engineUntil e tag n s) := by
  induction n generalizing s with
  | zero => exact h
  | succ n ih =>
    unfold engineUntil
    exact Keeps.ite (ih (engineTurn_keeps _ h)) h

theorem engineCatch_keeps (e n : Nat) (h : Keeps hold pre s) : Keeps hold pre (engineCatch e n s) := by
  induction n generalizing s with
  | zero => exact h
  | succ n ih =>
    unfold engineCatch
    split
    · exact h
    · exact Keeps.ite h (ih (engineTurn_keeps _ h))

theorem chkCatch_keeps (e : Nat) (kept : Keeps hold pre s) :
    Keeps hold pre (chkCatch e s) := by
  unfold chkCatch
  repeat' first
    | with_reducible assumption
    | intro _
    | with_reducible apply engineCatch_keeps
    | with_reducible apply Keeps.ite
    | fail_if_no_progress (with_reducible apply Keeps.upd)

theorem engineEnd_keeps (e : Nat) (tag : Nat) (kept : Keeps hold pre s) :
    Keeps hold pre (engineEnd e tag s) := by
  unfold engineEnd
  repeat' first
    | with_reducible assumption
    | intro _
    | with_reducible apply engineUntil_keeps
    | with_reducible apply Keeps.ite
    | with_reducible apply Keeps.foldl | with_reducible apply Keeps.foldlPair
    | fail_if_no_progress (with_reducible apply Keeps.upd)

theorem execChkJobComplete_keeps (w : WorkEnd) {post : State} (kept : Keeps hold pre s) (e : execChkJobComplete w s = .next post) :
    Keeps hold pre post := by
  unfold execChkJobComplete at e
  refine live_keeps (fun s kept => ?_) kept e
  clear e
  repeat' first
    | with_reducible assumption
    | intro _
    | with_reducible apply onWaiting_keeps | with_reducible apply linked_keeps | with_reducible apply engineEnd_keeps

theorem execSnapshotComplete_keeps (w : WorkEnd) {post : State} (kept : Keeps hold pre s) (e : execSnapshotComplete w s = .next post) :
    Keeps hold pre post := by
  unfold execSnapshotComplete at e
  refine live_keeps (fun s kept => ?_) kept e
  clear e
  repeat' first
    | with_reducible assumption
    | intro _
    | with_reducible apply onWaiting_keeps | with_reducible apply linked_keeps | with_reducible apply engineEnd_keeps

end Sys2Proof.Machine
end

