-- ==== Sys2Proof/Laws/KeepsCompress.lean ====
section
/-!
SUPPORT. Laws/KeepsCompress.lean: every operation of Machine/Compress.lean that answers a state has `Keeps`.
-/

namespace Sys2Proof.Machine

variable {hold : Bool} {pre s : State}

theorem cpxShow_keeps (x : Nat) (role : Nat) (after : Nat) (c : Coder) (kept : Keeps hold pre s) :
    Keeps hold pre (cpxShow x role after c s) := by
  unfold cpxShow
  repeat' first
    | with_reducible assumption
    | intro _
    | with_reducible apply wr_keeps

theorem cpxCommit_keeps (x : Nat) (from_ : Nat) (c : Coder) (kept : Keeps hold pre s) :
    Keeps hold pre (cpxCommit x from_ c s) := by
  unfold cpxCommit
  repeat' first
    | with_reducible assumption
    | intro _
    | with_reducible apply cpxShow_keeps | with_reducible apply gWords_keeps

theorem execCpxJob_keeps (tag : Fin 4096) {post : State} (kept : Keeps hold pre s) (e : execCpxJob tag s = .next post) :
    Keeps hold pre post := by
  unfold execCpxJob at e
  refine live_keeps (fun s kept => ?_) kept e
  clear e
  repeat' first
    | with_reducible assumption
    | intro _
    | with_reducible apply onCmd_keeps | with_reducible apply setFld_keeps | with_reducible apply waitCmd_keeps
    | with_reducible apply Keeps.ite

theorem cpxSpoil_keeps (c : Cmd) (kept : Keeps hold pre s) :
    Keeps hold pre (cpxSpoil c s) := by
  unfold cpxSpoil
  repeat' first
    | with_reducible assumption
    | intro _
    | with_reducible apply memStore_keeps
    | with_reducible apply Keeps.ite
    | with_reducible apply Keeps.foldl | with_reducible apply Keeps.foldlPair
    | fail_if_no_progress (with_reducible apply Keeps.upd)

theorem cpxFail_keeps (c : Cmd) (cause : Nat) (kept : Keeps hold pre s) :
    Keeps hold pre (cpxFail c cause s) := by
  unfold cpxFail
  repeat' first
    | with_reducible assumption
    | intro _
    | with_reducible apply finish_keeps | with_reducible apply cpxSpoil_keeps | with_reducible apply addReg_keeps

theorem cpxFault_keeps (c : Cmd) (a : Nat) (kept : Keeps hold pre s) :
    Keeps hold pre (cpxFault c a s) := by
  unfold cpxFault
  repeat' first
    | with_reducible assumption
    | intro _
    | with_reducible apply finishFault_keeps | with_reducible apply cpxSpoil_keeps | with_reducible apply addReg_keeps

theorem cpxSucceed_keeps (c : Cmd) (r0 : Nat) (r1 : Nat) (r2 : Nat) (rdN : Nat) (wrN : Nat) (kept : Keeps hold pre s) :
    Keeps hold pre (cpxSucceed c r0 r1 r2 rdN wrN s) := by
  unfold cpxSucceed
  repeat' first
    | with_reducible assumption
    | intro _
    | with_reducible apply addReg_keeps | with_reducible apply addBytes_keeps | with_reducible apply finish_keeps

theorem cpxRead_keeps (c : Cmd) (n : Nat) (kept : Keeps hold pre s) :
    Keeps hold pre (cpxRead c n s).1 := by
  unfold cpxRead
  repeat' first
    | with_reducible assumption
    | intro _
    | with_reducible apply dmaRead_keeps
    | with_reducible apply Keeps.ite | with_reducible apply Keeps.iteFst

theorem cpxWrite_keeps (c : Cmd) (bs : List Byte) (kept : Keeps hold pre s) :
    Keeps hold pre (cpxWrite c bs s).1 := by
  unfold cpxWrite
  repeat' first
    | with_reducible assumption
    | intro _
    | with_reducible apply dmaWriteTold_keeps
    | with_reducible apply Keeps.ite | with_reducible apply Keeps.iteFst

theorem cpxJournal_keeps (x : Nat) (reset : Bool) (kept : Keeps hold pre s) :
    Keeps hold pre (cpxJournal x reset s).1 := by
  unfold cpxJournal
  repeat' first
    | with_reducible assumption
    | intro _
    | with_reducible apply dmaWriteTold_keeps
    | with_reducible apply Keeps.ite | with_reducible apply Keeps.iteFst

theorem cpxGranary_keeps (c : Cmd) (x : Nat) (kept : Keeps hold pre s) :
    Keeps hold pre (cpxGranary c x s) := by
  unfold cpxGranary
  repeat' first
    | with_reducible assumption
    | intro _
    | with_reducible apply cpxFail_keeps | with_reducible apply granaryMet_keeps

theorem cpxFinish_keeps (c : Cmd) (x : Nat) (from_ : Nat) (co : Coder) (out : List Byte) (crc : Nat) (rdN : Nat) (kept : Keeps hold pre s) :
    Keeps hold pre (cpxFinish c x from_ co out crc rdN s) := by
  unfold cpxFinish
  repeat' first
    | with_reducible assumption
    | intro _
    | with_reducible apply cpxWrite_keeps | with_reducible apply cpxFault_keeps | with_reducible apply cpxSucceed_keeps | with_reducible apply cpxCommit_keeps
    | with_reducible apply Keeps.ite
    | fail_if_no_progress (with_reducible apply Keeps.upd)
    | refine Keeps.fst (by assumption) ?_
    | dsimp only
    | split

theorem cpxCompress_keeps (c : Cmd) (x : Nat) (kept : Keeps hold pre s) :
    Keeps hold pre (cpxCompress c x s) := by
  unfold cpxCompress
  repeat' first
    | with_reducible assumption
    | intro _
    | with_reducible apply cpxFail_keeps | with_reducible apply cpxGranary_keeps | with_reducible apply cpxJournal_keeps | with_reducible apply cpxFault_keeps
    | with_reducible apply cpxRead_keeps | with_reducible apply cpxFinish_keeps
    | with_reducible apply Keeps.ite
    | fail_if_no_progress (with_reducible apply Keeps.upd)
    | refine Keeps.fst (by assumption) ?_
    | dsimp only
    | split

theorem cpxDecompress_keeps (c : Cmd) (x : Nat) (kept : Keeps hold pre s) :
    Keeps hold pre (cpxDecompress c x s) := by
  unfold cpxDecompress
  repeat' first
    | with_reducible assumption
    | intro _
    | with_reducible apply cpxFail_keeps | with_reducible apply cpxGranary_keeps | with_reducible apply cpxRead_keeps | with_reducible apply cpxFault_keeps
    | with_reducible apply cpxJournal_keeps | with_reducible apply cpxFinish_keeps
    | with_reducible apply Keeps.ite
    | fail_if_no_progress (with_reducible apply Keeps.upd)
    | refine Keeps.fst (by assumption) ?_
    | dsimp only
    | split

theorem cpxSave_keeps (c : Cmd) (x : Nat) (kept : Keeps hold pre s) :
    Keeps hold pre (cpxSave c x s) := by
  unfold cpxSave
  repeat' first
    | with_reducible assumption
    | intro _
    | with_reducible apply cpxFail_keeps | with_reducible apply cpxGranary_keeps | with_reducible apply cpxWrite_keeps | with_reducible apply cpxFault_keeps
    | with_reducible apply cpxSucceed_keeps
    | with_reducible apply Keeps.ite
    | fail_if_no_progress (with_reducible apply Keeps.upd)
    | refine Keeps.fst (by assumption) ?_
    | dsimp only
    | split

theorem cpxRestore_keeps (c : Cmd) (x : Nat) (kept : Keeps hold pre s) :
    Keeps hold pre (cpxRestore c x s) := by
  unfold cpxRestore
  repeat' first
    | with_reducible assumption
    | intro _
    | with_reducible apply cpxFail_keeps | with_reducible apply cpxRead_keeps | with_reducible apply cpxFault_keeps | with_reducible apply gWrite_keeps
    | with_reducible apply wr_keeps | with_reducible apply cpxSucceed_keeps
    | with_reducible apply Keeps.ite
    | fail_if_no_progress (with_reducible apply Keeps.upd)
    | refine Keeps.fst (by assumption) ?_
    | dsimp only
    | split

theorem cpxInit_keeps (c : Cmd) (x : Nat) (kept : Keeps hold pre s) :
    Keeps hold pre (cpxInit c x s) := by
  unfold cpxInit
  repeat' first
    | with_reducible assumption
    | intro _
    | with_reducible apply cpxSucceed_keeps | with_reducible apply cpxShow_keeps

theorem cpxDone_keeps (c : Cmd) (kept : Keeps hold pre s) :
    Keeps hold pre (cpxDone c s) := by
  unfold cpxDone
  repeat' first
    | with_reducible assumption
    | intro _
    | with_reducible apply cpxCompress_keeps | with_reducible apply cpxDecompress_keeps | with_reducible apply cpxSave_keeps | with_reducible apply cpxRestore_keeps
    | with_reducible apply cpxInit_keeps
    | with_reducible apply Keeps.ite
    | fail_if_no_progress (with_reducible apply Keeps.upd)
    | refine Keeps.fst (by assumption) ?_
    | dsimp only
    | split

theorem execCpxJobComplete_keeps (w : WorkEnd) {post : State} (kept : Keeps hold pre s) (e : execCpxJobComplete w s = .next post) :
    Keeps hold pre post := by
  unfold execCpxJobComplete at e
  refine live_keeps (fun s kept => ?_) kept e
  clear e
  repeat' first
    | with_reducible assumption
    | intro _
    | with_reducible apply onWaiting_keeps | with_reducible apply linked_keeps | with_reducible apply cpxDone_keeps

theorem cpxJournalStore_keeps (hi : Bool) (v : Nat) (kept : Keeps hold pre s) :
    Keeps hold pre (cpxJournalStore hi v s) := by
  unfold cpxJournalStore
  repeat' first
    | with_reducible assumption
    | intro _
    | with_reducible apply setFlag_keeps | with_reducible apply wr_keeps
    | with_reducible apply Keeps.ite

theorem execCpxJournalWrite_keeps (hi : Bool) (v : Word) {post : State} (kept : Keeps hold pre s) (e : execCpxJournalWrite hi v s = .next post) :
    Keeps hold pre post := by
  unfold execCpxJournalWrite at e
  refine live_keeps (fun s kept => ?_) kept e
  clear e
  repeat' first
    | with_reducible assumption
    | intro _
    | with_reducible apply cpxJournalStore_keeps

end Sys2Proof.Machine
end

