-- ==== Sys2Proof/Laws/KeepsWinnow.lean ====
section
/-!
SUPPORT. Laws/KeepsWinnow.lean: every operation of Machine/Winnow.lean that answers a state has `Keeps`.
-/

namespace Sys2Proof.Machine

variable {hold : Bool} {pre s : State}

theorem eachLayer_keeps {f : Nat → Nat → State → State} (hf : ∀ x0 x1 t, Keeps hold pre t → Keeps hold pre (f x0 x1 t)) (kept : Keeps hold pre s) :
    Keeps hold pre (eachLayer f s) := by
  unfold eachLayer
  repeat' first
    | with_reducible assumption
    | intro _
    | with_reducible apply Keeps.ite
    | with_reducible apply Keeps.foldl | with_reducible apply Keeps.foldlPair
    | with_reducible apply hf

theorem huskFault_keeps (kind : Nat) (ix : Nat) (v : Nat) (k : Nat) (kept : Keeps hold pre s) :
    Keeps hold pre (huskFault kind ix v k s) := by
  unfold huskFault
  repeat' first
    | with_reducible assumption
    | intro _
    | with_reducible apply addReg_keeps | with_reducible apply wr_keeps | with_reducible apply raise_keeps | with_reducible apply setFld_keeps
    | with_reducible apply Keeps.ite
    | fail_if_no_progress (with_reducible apply Keeps.upd)

theorem huskRepairs_keeps (gone : Nat → Nat → Bool) (kept : Keeps hold pre s) :
    Keeps hold pre (huskRepairs gone s) := by
  unfold huskRepairs
  repeat' first
    | with_reducible assumption
    | intro _
    | with_reducible apply setFlag_keeps
    | with_reducible apply Keeps.ite
    | fail_if_no_progress (with_reducible apply Keeps.upd)

theorem huskRepair_keeps (kind : Nat) (ix : Nat) (kept : Keeps hold pre s) :
    Keeps hold pre (huskRepair kind ix s) := by
  unfold huskRepair
  repeat' first
    | with_reducible assumption
    | intro _
    | with_reducible apply huskRepairs_keeps

theorem huskCheck_keeps (kind : Nat) (ix : Nat) (off : Nat) (kept : Keeps hold pre s) :
    Keeps hold pre (huskCheck kind ix off s) := by
  unfold huskCheck
  repeat' first
    | with_reducible assumption
    | intro _
    | with_reducible apply huskRepair_keeps | with_reducible apply huskFault_keeps
    | with_reducible apply Keeps.ite

theorem damageCheck_keeps (kind : Nat) (ix : Nat) (v : Nat) (kept : Keeps hold pre s) :
    Keeps hold pre (damageCheck kind ix v s) := by
  unfold damageCheck
  repeat' first
    | with_reducible assumption
    | intro _
    | with_reducible apply huskFault_keeps
    | with_reducible apply Keeps.ite

theorem damageRepair_keeps (kind : Nat) (ix : Nat) (kept : Keeps hold pre s) :
    Keeps hold pre (damageRepair kind ix s) := by
  unfold damageRepair
  repeat' first
    | with_reducible assumption
    | intro _
    | with_reducible apply huskRepair_keeps
    | with_reducible apply Keeps.ite
    | fail_if_no_progress (with_reducible apply Keeps.upd)

theorem stateWordLost_keeps (snap0 : State) (w : Nat) (kept : Keeps hold pre s) :
    Keeps hold pre (stateWordLost snap0 w s) := by
  unfold stateWordLost
  repeat' first
    | with_reducible assumption
    | intro _
    | with_reducible apply granaryHeal_keeps | with_reducible apply granaryUncorrectable_keeps | with_reducible apply ledgerFail_keeps | with_reducible apply wr_keeps
    | with_reducible apply Keeps.ite
    | fail_if_no_progress (with_reducible apply Keeps.upd)
    | refine Keeps.fst (by assumption) ?_
    | dsimp only
    | split

theorem stateTables_keeps (snap0 : State) (kept : Keeps hold pre s) :
    Keeps hold pre (stateTables snap0 s) := by
  unfold stateTables
  repeat' first
    | with_reducible assumption
    | intro _
    | with_reducible apply stateWordLost_keeps
    | with_reducible apply Keeps.ite
    | with_reducible apply Keeps.foldl

theorem stIgnored_keeps (off : Nat) (kept : Keeps hold pre s) :
    Keeps hold pre (stIgnored off s) := by
  unfold stIgnored
  repeat' first
    | with_reducible assumption
    | intro _
    | with_reducible apply raiseOnce_keeps

theorem mapEffect_keeps (off : Nat) (v : Nat) (kept : Keeps hold pre s) :
    Keeps hold pre (mapEffect off v s) := by
  unfold mapEffect
  repeat' first
    | with_reducible assumption
    | intro _
    | with_reducible apply stIgnored_keeps | with_reducible apply huskStore_keeps
    | with_reducible apply Keeps.ite

theorem pairEffect_keeps (off : Nat) (v : Nat) (kept : Keeps hold pre s) :
    Keeps hold pre (pairEffect off v s) := by
  unfold pairEffect
  repeat' first
    | with_reducible assumption
    | intro _
    | with_reducible apply mapEffect_keeps | with_reducible apply bumpGen_keeps | with_reducible apply huskStore_keeps
    | with_reducible apply Keeps.ite

theorem pairsEffect_keeps (kept : Keeps hold pre s) :
    Keeps hold pre (pairsEffect s) := by
  unfold pairsEffect
  repeat' first
    | with_reducible assumption
    | intro _
    | with_reducible apply pairEffect_keeps
    | with_reducible apply Keeps.ite
    | with_reducible apply Keeps.foldl | with_reducible apply Keeps.foldlPair
    | fail_if_no_progress (with_reducible apply Keeps.upd)
    | refine Keeps.fst (by assumption) ?_
    | dsimp only
    | split

theorem layerLatch_keeps (old0 : State) (h : Nat) (l : Nat) (kept : Keeps hold pre s) :
    Keeps hold pre (layerLatch old0 h l s) := by
  unfold layerLatch
  repeat' first
    | with_reducible assumption
    | intro _
    | with_reducible apply huskCheck_keeps | with_reducible apply wr_keeps | with_reducible apply setLayer_keeps

theorem wbLatch_keeps (old0 : State) (h : Nat) (kept : Keeps hold pre s) :
    Keeps hold pre (wbLatch old0 h s) := by
  unfold wbLatch
  repeat' first
    | with_reducible assumption
    | intro _
    | with_reducible apply setHead_keeps

theorem srcSealState_keeps (c : Nat) (kept : Keeps hold pre s) :
    Keeps hold pre (srcSealState c s) := by
  unfold srcSealState
  repeat' first
    | with_reducible assumption
    | intro _
    | with_reducible apply startCredits_keeps | with_reducible apply unitRuns_keeps
    | with_reducible apply Keeps.ite

theorem portsSettle_keeps (kept : Keeps hold pre s) :
    Keeps hold pre (portsSettle s) := by
  unfold portsSettle
  repeat' first
    | with_reducible assumption
    | intro _
    | with_reducible apply setPort_keeps
    | with_reducible apply Keeps.ite
    | with_reducible apply Keeps.foldl

theorem sealLatch_keeps (n : Nat) (old0 : State) (timed : List Nat) (kept : Keeps hold pre s) :
    Keeps hold pre (sealLatch n old0 timed s) := by
  unfold sealLatch
  repeat' first
    | with_reducible assumption
    | intro _
    | with_reducible apply portsSettle_keeps | with_reducible apply pairsEffect_keeps | with_reducible apply setFlag_keeps | with_reducible apply eachLayer_keeps
    | with_reducible apply layerLatch_keeps | with_reducible apply phaseLatch_keeps | with_reducible apply retimeHead_keeps | with_reducible apply headokUpdate_keeps
    | with_reducible apply headSealState_keeps | with_reducible apply wbLatch_keeps | with_reducible apply srcSealState_keeps
    | with_reducible apply Keeps.ite
    | with_reducible apply Keeps.foldl | with_reducible apply Keeps.foldlPair
    | fail_if_no_progress (with_reducible apply Keeps.latch)

theorem recordCheck_keeps (f : Sealed) (kept : Keeps hold pre s) :
    Keeps hold pre (recordCheck f s) := by
  unfold recordCheck
  repeat' first
    | with_reducible assumption
    | intro _
    | with_reducible apply huskFault_keeps | with_reducible apply granaryMet_keeps | with_reducible apply updSlot_keeps | with_reducible apply setWb_keeps
    | with_reducible apply Keeps.ite
    | fail_if_no_progress (with_reducible apply Keeps.upd)
    | refine Keeps.fst (by assumption) ?_
    | dsimp only
    | split

theorem soundCand_keeps (hd l t n : Nat) (h : Keeps hold pre s) : Keeps hold pre (soundCand hd l t n s).1 := by
  induction n generalizing s with
  | zero => exact h
  | succ n ih =>
    unfold soundCand
    split
    · exact h
    · split
      · exact ih (recordCheck_keeps _ h)
      · exact h

theorem layerLate_keeps (i : Nat) (c : Cand) (kept : Keeps hold pre s) :
    Keeps hold pre (layerLate i c s) := by
  unfold layerLate
  repeat' first
    | with_reducible assumption
    | intro _
    | with_reducible apply addReg_keeps | with_reducible apply raise_keeps
    | with_reducible apply Keeps.ite
    | fail_if_no_progress (with_reducible apply Keeps.upd)
    | refine Keeps.fst (by assumption) ?_
    | dsimp only
    | split

theorem layerTake_keeps (h : Nat) (l : Nat) (c : Cand) (kept : Keeps hold pre s) :
    Keeps hold pre (layerTake h l c s) := by
  unfold layerTake
  repeat' first
    | with_reducible assumption
    | intro _
    | with_reducible apply setLayer_keeps | with_reducible apply layerLate_keeps
    | with_reducible apply Keeps.ite

theorem layerSelect_keeps (t : Nat) (h : Nat) (l : Nat) (kept : Keeps hold pre s) :
    Keeps hold pre (layerSelect t h l s) := by
  unfold layerSelect
  repeat' first
    | with_reducible assumption
    | intro _
    | with_reducible apply setLayer_keeps | with_reducible apply recordCheck_keeps | with_reducible apply soundCand_keeps | with_reducible apply layerTake_keeps
    | with_reducible apply Keeps.ite
    | fail_if_no_progress (with_reducible apply Keeps.upd)
    | refine Keeps.fst (by assumption) ?_
    | dsimp only
    | split

theorem intentStep_keeps (e : Intent) (kept : Keeps hold pre s) :
    Keeps hold pre (intentStep e s) := by
  unfold intentStep
  repeat' first
    | with_reducible assumption
    | intro _
    | with_reducible apply huskCheck_keeps | with_reducible apply raise_keeps
    | with_reducible apply Keeps.ite
    | with_reducible apply Keeps.foldl | with_reducible apply Keeps.foldlPair
    | fail_if_no_progress (with_reducible apply Keeps.upd)

theorem sealIntent_keeps (kept : Keeps hold pre s) :
    Keeps hold pre (sealIntent s) := by
  unfold sealIntent
  repeat' first
    | with_reducible assumption
    | intro _
    | with_reducible apply damageCheck_keeps | with_reducible apply intentStep_keeps | with_reducible apply wr_keeps | with_reducible apply setFlag_keeps
    | with_reducible apply Keeps.ite
    | with_reducible apply Keeps.foldl

theorem thresholdCheck_keeps (h : Nat) (l : Nat) (kept : Keeps hold pre s) :
    Keeps hold pre (thresholdCheck h l s) := by
  unfold thresholdCheck
  repeat' first
    | with_reducible assumption
    | intro _
    | with_reducible apply huskCheck_keeps

theorem layerClassify_keeps (t : Nat) (h : Nat) (l : Nat) (kept : Keeps hold pre s) :
    Keeps hold pre (layerClassify t h l s) := by
  unfold layerClassify
  repeat' first
    | with_reducible assumption
    | intro _
    | with_reducible apply thresholdCheck_keeps | with_reducible apply wr_keeps | with_reducible apply setLayer_keeps | with_reducible apply raise_keeps
    | with_reducible apply Keeps.ite

theorem sealClass_keeps (t : Nat) (kept : Keeps hold pre s) :
    Keeps hold pre (sealClass t s) := by
  unfold sealClass
  repeat' first
    | with_reducible assumption
    | intro _
    | with_reducible apply eachLayer_keeps | with_reducible apply layerClassify_keeps | with_reducible apply wr_keeps

theorem layerStatus_keeps (h : Nat) (l : Nat) (kept : Keeps hold pre s) :
    Keeps hold pre (layerStatus h l s) := by
  unfold layerStatus
  repeat' first
    | with_reducible assumption
    | intro _
    | with_reducible apply wr_keeps | with_reducible apply raise_keeps
    | with_reducible apply Keeps.ite

theorem sealCover_keeps (kept : Keeps hold pre s) :
    Keeps hold pre (sealCover s) := by
  unfold sealCover
  repeat' first
    | with_reducible assumption
    | intro _
    | with_reducible apply eachLayer_keeps | with_reducible apply layerStatus_keeps | with_reducible apply wr_keeps
    | with_reducible apply Keeps.ite
    | with_reducible apply Keeps.foldl

theorem wbRelease_keeps (h : Nat) (kept : Keeps hold pre s) :
    Keeps hold pre (wbRelease h s) := by
  unfold wbRelease
  repeat' first
    | with_reducible assumption
    | intro _
    | with_reducible apply setHead_keeps
    | with_reducible apply Keeps.ite
    | with_reducible apply Keeps.foldl | with_reducible apply Keeps.foldlPair
    | fail_if_no_progress (with_reducible apply Keeps.upd)

theorem headRelease_keeps (h : Nat) (kept : Keeps hold pre s) :
    Keeps hold pre (headRelease h s) := by
  unfold headRelease
  repeat' first
    | with_reducible assumption
    | intro _
    | with_reducible apply setHead_keeps | with_reducible apply setLayer_keeps | with_reducible apply wbRelease_keeps
    | with_reducible apply Keeps.ite
    | with_reducible apply Keeps.foldl

theorem chanRelease_keeps (t : Nat) (c : Nat) (kept : Keeps hold pre s) :
    Keeps hold pre (chanRelease t c s) := by
  unfold chanRelease
  repeat' first
    | with_reducible assumption
    | intro _
    | with_reducible apply updSlot_keeps
    | with_reducible apply Keeps.ite
    | with_reducible apply Keeps.foldl

theorem wbReaders_keeps (h : Nat) (kept : Keeps hold pre s) :
    Keeps hold pre (wbReaders h s) := by
  unfold wbReaders
  repeat' first
    | with_reducible assumption
    | intro _
    | with_reducible apply setWb_keeps
    | with_reducible apply Keeps.ite
    | with_reducible apply Keeps.foldl

theorem sealRelease_keeps (t : Nat) (stopped : List Nat) (kept : Keeps hold pre s) :
    Keeps hold pre (sealRelease t stopped s) := by
  unfold sealRelease
  repeat' first
    | with_reducible assumption
    | intro _
    | with_reducible apply wbRelease_keeps | with_reducible apply headRelease_keeps | with_reducible apply chanRelease_keeps | with_reducible apply wbReaders_keeps
    | with_reducible apply damageCheck_keeps | with_reducible apply huskRepairs_keeps
    | with_reducible apply Keeps.ite
    | with_reducible apply Keeps.foldl

theorem touchTake_keeps (h : Nat) (l : Nat) (kept : Keeps hold pre s) :
    Keeps hold pre (touchTake h l s) := by
  unfold touchTake
  repeat' first
    | with_reducible assumption
    | intro _
    | with_reducible apply setLayer_keeps
    | with_reducible apply Keeps.ite

theorem execLayerTouch_keeps (h : Fin 24) (l : Fin 16) (hm : Cells) {post : State} (kept : Keeps hold pre s) (e : execLayerTouch h l hm s = .next post) :
    Keeps hold pre post := by
  unfold execLayerTouch at e
  refine live_keeps (fun s kept => ?_) kept e
  clear e
  repeat' first
    | with_reducible assumption
    | intro _
    | with_reducible apply hostStore_keeps | with_reducible apply touchTake_keeps
    | with_reducible apply Keeps.ite

end Sys2Proof.Machine
end

