-- ==== Sys2Proof/Laws/KeepsClockStep.lean ====
section
/-!
SUPPORT. Laws/KeepsClockStep.lean: every operation of Machine/ClockStep.lean that answers a state has `Keeps`.
-/

namespace Sys2Proof.Machine

variable {hold : Bool} {pre s : State}

theorem clockStep_keeps (t : Nat) (kept : Keeps hold pre s) :
    Keeps hold pre (clockStep t s) := by
  unfold clockStep
  repeat' first
    | with_reducible assumption
    | intro _
    | with_reducible apply headsStepped_keeps | with_reducible apply triggersStepped_keeps | with_reducible apply tickStepped_keeps
    | with_reducible apply Keeps.ite
    | fail_if_no_progress (with_reducible apply Keeps.upd)

theorem stepTake_keeps (v : Nat) (kept : Keeps hold pre s) :
    Keeps hold pre (stepTake v s) := by
  unfold stepTake
  repeat' first
    | with_reducible assumption
    | intro _
    | with_reducible apply huskStore_keeps | with_reducible apply id_keeps | with_reducible apply raise_keeps | with_reducible apply setFlag_keeps
    | with_reducible apply clockStep_keeps
    | with_reducible apply Keeps.ite

theorem stepAccept_keeps (v : Nat) (kept : Keeps hold pre s) :
    Keeps hold pre (stepAccept v s) := by
  unfold stepAccept
  repeat' first
    | with_reducible assumption
    | intro _
    | with_reducible apply stepTake_keeps | with_reducible apply bumpGen_keeps

theorem execStepAccept_keeps (k : Word) {post : State} (kept : Keeps hold pre s) (e : execStepAccept k s = .next post) :
    Keeps hold pre post := by
  unfold execStepAccept at e
  refine live_keeps (fun s kept => ?_) kept e
  clear e
  repeat' first
    | with_reducible assumption
    | intro _
    | with_reducible apply huskK_keeps | with_reducible apply stepAccept_keeps

theorem timeSet_keeps (kept : Keeps hold pre s) :
    Keeps hold pre (timeSet s) := by
  unfold timeSet
  repeat' first
    | with_reducible assumption
    | intro _
    | with_reducible apply clockStep_keeps | with_reducible apply raise_keeps | with_reducible apply setFlag_keeps
    | with_reducible apply Keeps.ite

theorem execTimeSet_keeps (v : Word) {post : State} (kept : Keeps hold pre s) (e : execTimeSet v s = .next post) :
    Keeps hold pre post := by
  unfold execTimeSet at e
  refine live_keeps (fun s kept => ?_) kept e
  clear e
  repeat' first
    | with_reducible assumption
    | intro _
    | with_reducible apply timeSet_keeps
    | with_reducible apply Keeps.ite

end Sys2Proof.Machine
end

