-- ==== Sys2Proof/Laws/KeepsKeys.lean ====
section
/-!
SUPPORT. Laws/KeepsKeys.lean: every operation of Machine/Keys.lean that answers a state has `Keeps`.
-/

namespace Sys2Proof.Machine

variable {hold : Bool} {pre s : State}

theorem setKey_keeps (k : Nat) (x : KeySt) (kept : Keeps hold pre s) :
    Keeps hold pre (setKey k x s) := by
  unfold setKey
  repeat' first
    | with_reducible assumption
    | intro _
    | with_reducible apply Keeps.ite
    | fail_if_no_progress (with_reducible apply Keeps.upd)

theorem Proc.put_keeps (k : Nat) (x : KeySt) (evs : List Ev) {p : Proc} (kept : Keeps hold pre p.1) :
    Keeps hold pre (Proc.put k x evs p).1 := by
  unfold Proc.put
  repeat' first
    | with_reducible assumption
    | intro _
    | with_reducible apply setKey_keeps

theorem forcedRelease_keeps (q : TouchScan) (k : Nat) {p : Proc} (kept : Keeps hold pre p.1) :
    Keeps hold pre (forcedRelease q k p).1 := by
  unfold forcedRelease
  repeat' first
    | with_reducible assumption
    | intro _
    | with_reducible apply Keeps.ite | with_reducible apply Keeps.iteFst
    | with_reducible apply Keeps.iteFstFst | refine Keeps.fstFst (by assumption) ?_
    | fail_if_no_progress (with_reducible apply Keeps.upd)

theorem keyBegin_keeps (q : TouchScan) {p : Proc} (k : Nat) (kept : Keeps hold pre p.1) :
    Keeps hold pre (keyBegin q p k).1 := by
  unfold keyBegin
  repeat' first
    | with_reducible assumption
    | intro _
    | with_reducible apply forcedRelease_keeps | with_reducible apply setKey_keeps
    | with_reducible apply Keeps.ite | with_reducible apply Keeps.iteFst
    | fail_if_no_progress (with_reducible apply Keeps.upd)
    | with_reducible apply Keeps.iteFstFst

theorem modeStep_keeps {p : Proc} (kept : Keeps hold pre p.1) :
    Keeps hold pre (modeStep p).1 := by
  unfold modeStep
  repeat' first
    | with_reducible assumption
    | intro _
    | with_reducible apply setFlag_keeps | with_reducible apply setFld_keeps
    | with_reducible apply Keeps.ite | with_reducible apply Keeps.iteFst
    | with_reducible apply Keeps.iteFstFst | refine Keeps.fstFst (by assumption) ?_
    | fail_if_no_progress (with_reducible apply Keeps.upd)

theorem keyStarting_keeps (k : Nat) (x : KeySt) {p : Proc} (kept : Keeps hold pre p.1) :
    Keeps hold pre (keyStarting k x p).1 := by
  unfold keyStarting
  repeat' first
    | with_reducible assumption
    | intro _
    | with_reducible apply Proc.put_keeps | with_reducible apply wr_keeps
    | with_reducible apply Keeps.ite | with_reducible apply Keeps.iteFst

theorem driftStep_keeps (k : Nat) (n : PanelSt) (t : Int) (d : Int) (x : KeySt) (kept : Keeps hold pre s) :
    Keeps hold pre (driftStep k n t d x s).1 := by
  unfold driftStep
  repeat' first
    | with_reducible assumption
    | intro _
    | with_reducible apply wr_keeps
    | with_reducible apply Keeps.ite | with_reducible apply Keeps.iteFst

theorem keyReleased_keeps (q : TouchScan) (overMark : Bool) (k : Nat) (x : KeySt) {p : Proc} (kept : Keeps hold pre p.1) :
    Keeps hold pre (keyReleased q overMark k x p).1 := by
  unfold keyReleased
  repeat' first
    | with_reducible assumption
    | intro _
    | with_reducible apply wr_keeps | with_reducible apply driftStep_keeps | with_reducible apply Proc.put_keeps
    | with_reducible apply Keeps.ite | with_reducible apply Keeps.iteFst

theorem keyTouched_keeps (q : TouchScan) (k : Nat) (x : KeySt) {p : Proc} (kept : Keeps hold pre p.1) :
    Keeps hold pre (keyTouched q k x p).1 := by
  unfold keyTouched
  repeat' first
    | with_reducible assumption
    | intro _
    | with_reducible apply Proc.put_keeps | with_reducible apply wr_keeps
    | with_reducible apply Keeps.ite | with_reducible apply Keeps.iteFst

theorem keyStep_keeps (q : TouchScan) (guards : Bool) (overMark : Bool) {p : Proc} (k : Nat) (kept : Keeps hold pre p.1) :
    Keeps hold pre (keyStep q guards overMark p k).1 := by
  unfold keyStep
  repeat' first
    | with_reducible assumption
    | intro _
    | with_reducible apply keyReleased_keeps | with_reducible apply keyTouched_keeps | with_reducible apply keyStarting_keeps
    | with_reducible apply Keeps.iteFstFst | refine Keeps.fstFst (by assumption) ?_
    | with_reducible apply Keeps.ite | with_reducible apply Keeps.iteFst

theorem keyArbitrate_keeps (s0 : State) (q : TouchScan) {p : Proc} (k : Nat) (kept : Keeps hold pre p.1) :
    Keeps hold pre (keyArbitrate s0 q p k).1 := by
  unfold keyArbitrate
  repeat' first
    | with_reducible assumption
    | intro _
    | with_reducible apply Proc.put_keeps
    | with_reducible apply Keeps.ite | with_reducible apply Keeps.iteFst

theorem showKey_keeps (q : TouchScan) (k : Nat) (kept : Keeps hold pre s) :
    Keeps hold pre (showKey q k s) := by
  unfold showKey
  repeat' first
    | with_reducible assumption
    | intro _
    | with_reducible apply setFlag_keeps | with_reducible apply setFld_keeps | with_reducible apply wr_keeps
    | with_reducible apply Keeps.ite

theorem applyKey_keeps (c : Cmd) (kept : Keeps hold pre s) :
    Keeps hold pre (applyKey c s) := by
  unfold applyKey
  repeat' first
    | with_reducible assumption
    | intro _
    | with_reducible apply setKey_keeps | with_reducible apply setFld_keeps

theorem armScans_keeps (ms : Nat) (kept : Keeps hold pre s) :
    Keeps hold pre (armScans ms s) := by
  unfold armScans
  repeat' first
    | with_reducible assumption
    | intro _
    | with_reducible apply trigDisarm_keeps | with_reducible apply wr64_keeps | with_reducible apply wr_keeps | with_reducible apply trigArm_keeps
    | with_reducible apply setFlag_keeps
    | with_reducible apply Keeps.ite

theorem applyPanel_keeps (c : Cmd) (kept : Keeps hold pre s) :
    Keeps hold pre (applyPanel c s) := by
  unfold applyPanel
  repeat' first
    | with_reducible assumption
    | intro _
    | with_reducible apply wr_keeps | with_reducible apply armScans_keeps
    | with_reducible apply Keeps.ite
    | fail_if_no_progress (with_reducible apply Keeps.upd)

theorem applyWaiting_keeps (kept : Keeps hold pre s) :
    Keeps hold pre (applyWaiting s) := by
  unfold applyWaiting
  repeat' first
    | with_reducible assumption
    | intro _
    | with_reducible apply applyKey_keeps | with_reducible apply applyPanel_keeps
    | with_reducible apply Keeps.ite
    | with_reducible apply Keeps.foldl | with_reducible apply Keeps.foldlPair
    | fail_if_no_progress (with_reducible apply Keeps.upd)
    | refine Keeps.fst (by assumption) ?_
    | dsimp only
    | split

theorem scanSteps_keeps (q : TouchScan) (kept : Keeps hold pre s) : Keeps hold pre (scanSteps q s).1 :=
  Keeps.foldlPair _ (Keeps.foldlPair _ (Keeps.foldlPair _ (modeStep_keeps
    (Keeps.foldlPair _ kept fun _ _ h => keyBegin_keeps _ _ h)) fun _ _ h => keyStep_keeps _ _ _ _ h)
    fun _ _ h => keyStep_keeps _ _ _ _ h) fun _ _ h => keyArbitrate_keeps _ _ _ h

theorem processScan_keeps (kept : Keeps hold pre s) : Keeps hold pre (processScan s) := by
  unfold processScan
  split
  · exact kept
  · repeat' first
      | with_reducible assumption
      | intro _
      | with_reducible apply scanSteps_keeps | with_reducible apply showKey_keeps | with_reducible apply raise_keeps
      | with_reducible apply finish_keeps | with_reducible apply applyWaiting_keeps
      | with_reducible apply Keeps.ite
      | with_reducible apply Keeps.foldl
      | fail_if_no_progress (with_reducible apply Keeps.upd)

theorem execKeyScanProcess_keeps {post : State} (kept : Keeps hold pre s) (e : execKeyScanProcess s = .next post) :
    Keeps hold pre post := by
  unfold execKeyScanProcess at e
  refine live_keeps (fun s kept => ?_) kept e
  clear e
  repeat' first
    | with_reducible assumption
    | intro _
    | with_reducible apply processScan_keeps
    | with_reducible apply Keeps.ite

theorem keyConfig_keeps (c : Cmd) (kept : Keeps hold pre s) :
    Keeps hold pre (keyConfig c s) := by
  unfold keyConfig
  repeat' first
    | with_reducible assumption
    | intro _
    | with_reducible apply finish_keeps | with_reducible apply reject_keeps | with_reducible apply waitCmd_keeps | with_reducible apply applyWaiting_keeps
    | with_reducible apply Keeps.ite
    | fail_if_no_progress (with_reducible apply Keeps.upd)
    | refine Keeps.fst (by assumption) ?_
    | dsimp only
    | split

theorem execKeyConfig_keeps (tag : Fin 4096) {post : State} (kept : Keeps hold pre s) (e : execKeyConfig tag s = .next post) :
    Keeps hold pre post := by
  unfold execKeyConfig at e
  refine live_keeps (fun s kept => ?_) kept e
  clear e
  repeat' first
    | with_reducible assumption
    | intro _
    | with_reducible apply onCmd_keeps | with_reducible apply keyConfig_keeps

theorem showCover_keeps (c : Option Nat) (kept : Keeps hold pre s) :
    Keeps hold pre (showCover c s) := by
  unfold showCover
  repeat' first
    | with_reducible assumption
    | intro _
    | with_reducible apply setFlag_keeps | with_reducible apply setFld_keeps
    | with_reducible apply Keeps.ite
    | with_reducible apply Keeps.foldl

theorem touchStart_keeps (kept : Keeps hold pre s) :
    Keeps hold pre (touchStart s) := by
  unfold touchStart
  repeat' first
    | with_reducible assumption
    | intro _
    | with_reducible apply setFlag_keeps | with_reducible apply addReg_keeps | with_reducible apply applyWaiting_keeps | with_reducible apply processScan_keeps
    | with_reducible apply showCover_keeps
    | with_reducible apply Keeps.ite
    | fail_if_no_progress (with_reducible apply Keeps.upd)

theorem sliceEnd_keeps (o : TouchObs) (f : Nat) (i : Nat) (kept : Keeps hold pre s) :
    Keeps hold pre (sliceEnd o f i s) := by
  unfold sliceEnd
  repeat' first
    | with_reducible assumption
    | intro _
    | with_reducible apply wr_keeps | with_reducible apply setFlag_keeps | with_reducible apply raise_keeps
    | with_reducible apply Keeps.ite
    | fail_if_no_progress (with_reducible apply Keeps.upd)

theorem keyRaw_keeps (o : TouchObs) (q : TouchScan) (k : Nat) (kept : Keeps hold pre s) :
    Keeps hold pre (keyRaw o q k s) := by
  unfold keyRaw
  repeat' first
    | with_reducible assumption
    | intro _
    | with_reducible apply wr_keeps
    | with_reducible apply Keeps.ite
    | fail_if_no_progress (with_reducible apply Keeps.upd)

theorem touchEnd_keeps (q : TouchScan) (o : TouchObs) (kept : Keeps hold pre s) :
    Keeps hold pre (touchEnd q o s) := by
  unfold touchEnd
  repeat' first
    | with_reducible assumption
    | intro _
    | with_reducible apply wr_keeps | with_reducible apply sliceEnd_keeps | with_reducible apply keyRaw_keeps | with_reducible apply setFld_keeps
    | with_reducible apply setFlag_keeps | with_reducible apply addReg_keeps
    | with_reducible apply Keeps.ite
    | with_reducible apply Keeps.foldl | with_reducible apply Keeps.foldlPair
    | fail_if_no_progress (with_reducible apply Keeps.upd)

theorem execTouchScanEnd_keeps (o : TouchObs) {post : State} (kept : Keeps hold pre s) (e : execTouchScanEnd o s = .next post) :
    Keeps hold pre post := by
  unfold execTouchScanEnd at e
  refine live_keeps (fun s kept => ?_) kept e
  clear e
  repeat' first
    | with_reducible assumption
    | intro _
    | with_reducible apply processScan_keeps | with_reducible apply touchEnd_keeps | with_reducible apply waitElapsed_keeps
    | with_reducible apply Keeps.ite
    | fail_if_no_progress (with_reducible apply Keeps.upd)
    | refine Keeps.fst (by assumption) ?_
    | dsimp only
    | split

theorem tchCtrlWrite_keeps (v : Nat) (kept : Keeps hold pre s) :
    Keeps hold pre (tchCtrlWrite v s) := by
  unfold tchCtrlWrite
  repeat' first
    | with_reducible assumption
    | intro _
    | with_reducible apply wr_keeps
    | with_reducible apply Keeps.ite

theorem execTriggerFire_keeps (t : Fin 12) {post : State} (kept : Keeps hold pre s) (e : execTriggerFire t s = .next post) :
    Keeps hold pre post := by
  unfold execTriggerFire at e
  refine liveAon_keeps (fun s kept => ?_) kept e
  clear e
  repeat' first
    | with_reducible assumption
    | intro _
    | with_reducible apply trigReach_keeps | with_reducible apply touchStart_keeps | with_reducible apply calSchedule_keeps
    | with_reducible apply Keeps.ite

end Sys2Proof.Machine
end

