-- ==== Sys2Proof/Laws/KeepsGuards.lean ====
section
/-!
SUPPORT. Laws/KeepsGuards.lean: every operation of Machine/Guards.lean that answers a state has `Keeps`.
-/

namespace Sys2Proof.Machine

variable {hold : Bool} {pre s : State}

theorem guardAccepted_keeps (g : Nat) (kept : Keeps hold pre s) :
    Keeps hold pre (guardAccepted g s) := by
  unfold guardAccepted
  repeat' first
    | with_reducible assumption
    | intro _
    | with_reducible apply addFld_keeps

theorem guardIgnored_keeps (g : Nat) (kept : Keeps hold pre s) :
    Keeps hold pre (guardIgnored g s) := by
  unfold guardIgnored
  repeat' first
    | with_reducible assumption
    | intro _
    | with_reducible apply setFlag_keeps

theorem guardCtrlWrite_keeps (g : Nat) (v : Nat) (kept : Keeps hold pre s) :
    Keeps hold pre (guardCtrlWrite g v s) := by
  unfold guardCtrlWrite
  repeat' first
    | with_reducible assumption
    | intro _
    | with_reducible apply guardIgnored_keeps | with_reducible apply guardAccepted_keeps | with_reducible apply wr_keeps
    | with_reducible apply Keeps.ite

theorem guardStatusWrite_keeps (g : Nat) (v : Nat) (kept : Keeps hold pre s) :
    Keeps hold pre (guardStatusWrite g v s) := by
  unfold guardStatusWrite
  repeat' first
    | with_reducible assumption
    | intro _
    | with_reducible apply setFlag_keeps
    | with_reducible apply Keeps.ite

theorem guardRegionWrite_keeps (g : Nat) (r : Nat) (sub : Nat) (v : Nat) (kept : Keeps hold pre s) :
    Keeps hold pre (guardRegionWrite g r sub v s) := by
  unfold guardRegionWrite
  repeat' first
    | with_reducible assumption
    | intro _
    | with_reducible apply guardIgnored_keeps | with_reducible apply guardAccepted_keeps | with_reducible apply wr_keeps
    | with_reducible apply Keeps.ite

theorem guardRegWrite_keeps (off : Nat) (v : Nat) (kept : Keeps hold pre s) :
    Keeps hold pre (guardRegWrite off v s) := by
  unfold guardRegWrite
  repeat' first
    | with_reducible assumption
    | intro _
    | with_reducible apply guardCtrlWrite_keeps | with_reducible apply guardStatusWrite_keeps | with_reducible apply guardRegionWrite_keeps
    | with_reducible apply Keeps.ite

theorem execGuardRegWrite_keeps (off : Nat) (v : Word) {post : State} (kept : Keeps hold pre s) (e : execGuardRegWrite off v s = .next post) :
    Keeps hold pre post := by
  unfold execGuardRegWrite at e
  refine live_keeps (fun s kept => ?_) kept e
  clear e
  repeat' first
    | with_reducible assumption
    | intro _
    | with_reducible apply guardRegWrite_keeps

theorem execGuardSyncRead_keeps (g : Fin 28) {post : State} (kept : Keeps hold pre s) (e : execGuardSyncRead g s = .next post) :
    Keeps hold pre post := by
  unfold execGuardSyncRead at e
  refine live_keeps (fun s kept => ?_) kept e
  clear e
  repeat' first
    | with_reducible assumption
    | intro _
    | with_reducible apply wr_keeps | with_reducible apply waitUpdates_keeps
    | with_reducible apply Keeps.ite

theorem guardFlight_keeps (g : Nat) (span : Nat) (kept : Keeps hold pre s) :
    Keeps hold pre (guardFlight g span s) := by
  unfold guardFlight
  repeat' first
    | with_reducible assumption
    | intro _
    | with_reducible apply Keeps.ite
    | fail_if_no_progress (with_reducible apply Keeps.upd)

end Sys2Proof.Machine
end

