-- ==== Sys2Proof/Laws/KeepsHuskEffect.lean ====
section
/-!
SUPPORT. Laws/KeepsHuskEffect.lean: every operation of Machine/HuskEffect.lean that answers a state has `Keeps`.
-/

namespace Sys2Proof.Machine

variable {hold : Bool} {pre s : State}

theorem powerTurn_keeps (want : Nat) (kept : Keeps hold pre s) :
    Keeps hold pre (powerTurn want s) := by
  unfold powerTurn
  repeat' first
    | with_reducible assumption
    | intro _
    | with_reducible apply setPower_keeps | with_reducible apply vstWake_keeps
    | with_reducible apply Keeps.ite

theorem powerEffect_keeps (v : Nat) (kept : Keeps hold pre s) :
    Keeps hold pre (powerEffect v s) := by
  unfold powerEffect
  repeat' first
    | with_reducible assumption
    | intro _
    | with_reducible apply huskStore_keeps | with_reducible apply powerDownBegin_keeps | with_reducible apply keepEnter_keeps | with_reducible apply setFlag_keeps
    | with_reducible apply powerTurn_keeps
    | with_reducible apply Keeps.ite
    | fail_if_no_progress (with_reducible apply Keeps.upd)

theorem execPowerRequest_keeps (k : Word) {post : State} (kept : Keeps hold pre s) (e : execPowerRequest k s = .next post) :
    Keeps hold pre post := by
  unfold execPowerRequest at e
  refine live_keeps (fun s kept => ?_) kept e
  clear e
  repeat' first
    | with_reducible assumption
    | intro _
    | with_reducible apply huskK_keeps | with_reducible apply powerEffect_keeps

theorem huskEffect_keeps (off : Nat) (v : Nat) (kept : Keeps hold pre s) :
    Keeps hold pre (huskEffect off v s) := by
  unfold huskEffect
  repeat' first
    | with_reducible assumption
    | intro _
    | with_reducible apply lcsEffect_keeps | with_reducible apply powerEffect_keeps | with_reducible apply stepAccept_keeps | with_reducible apply mapCommit_keeps
    | with_reducible apply stIgnored_keeps | with_reducible apply winAccept_keeps
    | with_reducible apply Keeps.ite

theorem execHuskKWrite_keeps (off : Nat) (k : Word) {post : State} (kept : Keeps hold pre s) (e : execHuskKWrite off k s = .next post) :
    Keeps hold pre post := by
  unfold execHuskKWrite at e
  refine livePair_keeps (fun s kept => ?_) kept e
  clear e
  repeat' first
    | with_reducible assumption
    | intro _
    | with_reducible apply huskK_keeps | with_reducible apply huskEffect_keeps

end Sys2Proof.Machine
end

