-- ==== Sys2Proof/Laws/KeepsSheaf.lean ====
section
/-!
SUPPORT. Laws/KeepsSheaf.lean: every operation of Machine/Sheaf.lean that answers a state has `Keeps`.
-/

namespace Sys2Proof.Machine

variable {hold : Bool} {pre s : State}

theorem setShfState_keeps (k : Nat) (v : Nat) (kept : Keeps hold pre s) :
    Keeps hold pre (setShfState k v s) := by
  unfold setShfState
  repeat' first
    | with_reducible assumption
    | intro _
    | with_reducible apply setFld_keeps

theorem directClear_keeps (scope : Nat) (off : Nat) (base : Nat) (v : Nat) (kept : Keeps hold pre s) :
    Keeps hold pre (directClear scope off base v s) := by
  unfold directClear
  repeat' first
    | with_reducible assumption
    | intro _
    | with_reducible apply raise_keeps | with_reducible apply setFlag_keeps
    | with_reducible apply Keeps.ite
    | with_reducible apply Keeps.foldl

theorem projectOne_keeps (p : Nat × Nat) (kept : Keeps hold pre s) :
    Keeps hold pre (projectOne s p) := by
  unfold projectOne
  repeat' first
    | with_reducible assumption
    | intro _
    | with_reducible apply wr_keeps | with_reducible apply huskStore_keeps
    | with_reducible apply Keeps.ite
    | fail_if_no_progress (with_reducible apply Keeps.upd)
    | refine Keeps.fst (by assumption) ?_
    | dsimp only
    | split

theorem projected_keeps (k : Nat) (kept : Keeps hold pre s) :
    Keeps hold pre (projected s k) := by
  unfold projected
  repeat' first
    | with_reducible assumption
    | intro _
    | with_reducible apply projectOne_keeps
    | with_reducible apply Keeps.ite
    | with_reducible apply Keeps.foldl

theorem applyOne_keeps (p : Nat × Nat) (kept : Keeps hold pre s) :
    Keeps hold pre (applyOne s p) := by
  unfold applyOne
  repeat' first
    | with_reducible assumption
    | intro _
    | with_reducible apply directClear_keeps | with_reducible apply lcsEffect_keeps | with_reducible apply powerEffect_keeps | with_reducible apply stepTake_keeps
    | with_reducible apply mapCommit_keeps | with_reducible apply huskStore_keeps | with_reducible apply wr_keeps
    | with_reducible apply Keeps.ite
    | fail_if_no_progress (with_reducible apply Keeps.upd)
    | refine Keeps.fst (by assumption) ?_
    | dsimp only
    | split

theorem sheafLast_keeps (k : Nat) (reason : Nat) (entry : Nat) (detail : Nat) (kept : Keeps hold pre s) :
    Keeps hold pre (sheafLast k reason entry detail s) := by
  unfold sheafLast
  repeat' first
    | with_reducible assumption
    | intro _
    | with_reducible apply wr_keeps | with_reducible apply addReg_keeps
    | with_reducible apply Keeps.ite

theorem sheafLeave_keeps (k : Nat) (kept : Keeps hold pre s) :
    Keeps hold pre (sheafLeave k s) := by
  unfold sheafLeave
  repeat' first
    | with_reducible assumption
    | intro _
    | with_reducible apply setShfState_keeps
    | with_reducible apply Keeps.ite
    | fail_if_no_progress (with_reducible apply Keeps.upd)

theorem sheafReject_keeps (k : Nat) (reason : Nat) (entry : Nat) (detail : Nat) (kept : Keeps hold pre s) :
    Keeps hold pre (sheafReject k reason entry detail s) := by
  unfold sheafReject
  repeat' first
    | with_reducible assumption
    | intro _
    | with_reducible apply sheafLast_keeps | with_reducible apply sheafLeave_keeps | with_reducible apply finishNow_keeps | with_reducible apply genStep_keeps
    | with_reducible apply Keeps.ite

theorem sheafCheckDone_keeps (kept : Keeps hold pre s) :
    Keeps hold pre (sheafCheckDone s) := by
  unfold sheafCheckDone
  repeat' first
    | with_reducible assumption
    | intro _
    | with_reducible apply sheafReject_keeps | with_reducible apply granaryMet_keeps | with_reducible apply setShfState_keeps
    | with_reducible apply Keeps.ite
    | fail_if_no_progress (with_reducible apply Keeps.upd)
    | refine Keeps.fst (by assumption) ?_
    | dsimp only
    | split

theorem execSheafCheckDone_keeps {post : State} (kept : Keeps hold pre s) (e : execSheafCheckDone s = .next post) :
    Keeps hold pre post := by
  unfold execSheafCheckDone at e
  refine live_keeps (fun s kept => ?_) kept e
  clear e
  repeat' first
    | with_reducible assumption
    | intro _
    | with_reducible apply sheafCheckDone_keeps

theorem sheafOpen_keeps (k : Nat) (kept : Keeps hold pre s) :
    Keeps hold pre (sheafOpen k s) := by
  unfold sheafOpen
  repeat' first
    | with_reducible assumption
    | intro _
    | with_reducible apply wr64_keeps | with_reducible apply wr_keeps | with_reducible apply setShfState_keeps
    | with_reducible apply Keeps.ite

theorem execSheafSlotOpen_keeps (slot : Fin 8) {post : State} (kept : Keeps hold pre s) (e : execSheafSlotOpen slot s = .next post) :
    Keeps hold pre post := by
  unfold execSheafSlotOpen at e
  refine live_keeps (fun s kept => ?_) kept e
  clear e
  repeat' first
    | with_reducible assumption
    | intro _
    | with_reducible apply sheafOpen_keeps

theorem sheafCancel_keeps (k : Nat) (kept : Keeps hold pre s) :
    Keeps hold pre (sheafCancel k s) := by
  unfold sheafCancel
  repeat' first
    | with_reducible assumption
    | intro _
    | with_reducible apply setShfState_keeps | with_reducible apply sheafReject_keeps
    | with_reducible apply Keeps.ite

theorem execSheafCancel_keeps (slot : Fin 8) {post : State} (kept : Keeps hold pre s) (e : execSheafCancel slot s = .next post) :
    Keeps hold pre post := by
  unfold execSheafCancel at e
  refine live_keeps (fun s kept => ?_) kept e
  clear e
  repeat' first
    | with_reducible assumption
    | intro _
    | with_reducible apply sheafCancel_keeps

theorem shfWrite_keeps (k : Nat) (a : Nat) (bs : List Byte) (kept : Keeps hold pre s) :
    Keeps hold pre (shfWrite k a bs s) := by
  unfold shfWrite
  repeat' first
    | with_reducible assumption
    | intro _
    | with_reducible apply gWrite_keeps | with_reducible apply raiseOnce_keeps
    | with_reducible apply Keeps.ite

theorem execSheafSlotEntryWrite_keeps (slot : Fin 8) (word : Fin 16384) (v : Word) {post : State} (kept : Keeps hold pre s) (e : execSheafSlotEntryWrite slot word v s = .next post) :
    Keeps hold pre post := by
  unfold execSheafSlotEntryWrite at e
  refine live_keeps (fun s kept => ?_) kept e
  clear e
  repeat' first
    | with_reducible assumption
    | intro _
    | with_reducible apply shfWrite_keeps

theorem sheafSubmit_keeps (c : Cmd) (kept : Keeps hold pre s) :
    Keeps hold pre (sheafSubmit c s) := by
  unfold sheafSubmit
  repeat' first
    | with_reducible assumption
    | intro _
    | with_reducible apply finishNow_keeps | with_reducible apply sheafLast_keeps | with_reducible apply wr_keeps | with_reducible apply wr64_keeps
    | with_reducible apply waitCmd_keeps | with_reducible apply setShfState_keeps | with_reducible apply sheafReject_keeps
    | with_reducible apply Keeps.ite
    | fail_if_no_progress (with_reducible apply Keeps.upd)

theorem execSheafSubmit_keeps (tag : Fin 4096) {post : State} (kept : Keeps hold pre s) (e : execSheafSubmit tag s = .next post) :
    Keeps hold pre post := by
  unfold execSheafSubmit at e
  refine live_keeps (fun s kept => ?_) kept e
  clear e
  repeat' first
    | with_reducible assumption
    | intro _
    | with_reducible apply onCmd_keeps | with_reducible apply sheafSubmit_keeps

theorem execShfAppliedRead_keeps (slot : Fin 8) {post : State} (kept : Keeps hold pre s) (e : execShfAppliedRead slot s = .next post) :
    Keeps hold pre post := by
  unfold execShfAppliedRead at e
  refine live_keeps (fun s kept => ?_) kept e
  clear e
  repeat' first
    | with_reducible assumption
    | intro _
    | with_reducible apply wideLatch_keeps

theorem entryFault_keeps (k : Nat) (i : Nat) (kept : Keeps hold pre s) :
    Keeps hold pre (entryFault k i s) := by
  unfold entryFault
  repeat' first
    | with_reducible assumption
    | intro _
    | with_reducible apply wr_keeps | with_reducible apply addReg_keeps | with_reducible apply raise_keeps | with_reducible apply setFlag_keeps

theorem sheafApply_keeps (n : Nat) (k : Nat) (kept : Keeps hold pre s) :
    Keeps hold pre (sheafApply n k s).1 := by
  unfold sheafApply
  repeat' first
    | with_reducible assumption
    | intro _
    | with_reducible apply sheafReject_keeps | with_reducible apply entryFault_keeps | with_reducible apply applyOne_keeps | with_reducible apply wideSet_keeps
    | with_reducible apply addReg_keeps | with_reducible apply sheafLast_keeps | with_reducible apply sheafLeave_keeps
    | with_reducible apply Keeps.ite | with_reducible apply Keeps.iteFst
    | with_reducible apply Keeps.foldl | with_reducible apply Keeps.foldlPair
    | fail_if_no_progress (with_reducible apply Keeps.upd)
    | refine Keeps.fst (by assumption) ?_
    | dsimp only
    | split

theorem sheafStep_keeps (n : Nat) (ks : List Nat) (applied : Option Nat) (blocked : Bool) (h : Keeps hold pre s) :
    Keeps hold pre (sheafStep n ks s applied blocked).1 := by
  induction ks generalizing s applied blocked with
  | nil => exact h
  | cons k ks ih =>
    have h1 := fun v => sheafReject_keeps k 18 0xFFFF v h
    unfold sheafStep
    dsimp only
    split
    · exact ih _ _ (h1 _)
    · split
      · exact ih _ _ (sheafApply_keeps _ _ h)
      · split
        · exact ih _ _ (h1 _)
        · exact ih _ _ h

theorem sheafComplete_keeps (tag : Nat) (heads : List Nat) (kept : Keeps hold pre s) :
    Keeps hold pre (sheafComplete tag heads s) := by
  unfold sheafComplete
  repeat' first
    | with_reducible assumption
    | intro _
    | with_reducible apply finishNow_keeps
    | with_reducible apply Keeps.ite
    | fail_if_no_progress (with_reducible apply Keeps.upd)

theorem directEnter_keeps (reg : Nat) (v : Nat) (kept : Keeps hold pre s) :
    Keeps hold pre (directEnter reg v s) := by
  unfold directEnter
  repeat' first
    | with_reducible assumption
    | intro _
    | with_reducible apply genStep_keeps | with_reducible apply raise_keeps | with_reducible apply setFlag_keeps
    | with_reducible apply Keeps.ite
    | with_reducible apply Keeps.foldl

theorem execDirectEnter_keeps (reg : Fin 5) (v : Word) {post : State} (kept : Keeps hold pre s) (e : execDirectEnter reg v s = .next post) :
    Keeps hold pre post := by
  unfold execDirectEnter at e
  refine live_keeps (fun s kept => ?_) kept e
  clear e
  repeat' first
    | with_reducible assumption
    | intro _
    | with_reducible apply directEnter_keeps

theorem directRaster_keeps (pair : Bool) (off : Nat) (h : Nat) (kept : Keeps hold pre s) :
    Keeps hold pre (directRaster pair off h s) := by
  unfold directRaster
  repeat' first
    | with_reducible assumption
    | intro _
    | with_reducible apply eachHead_keeps | with_reducible apply directTiming_keeps | with_reducible apply lwr_keeps | with_reducible apply rasterAnchor_keeps
    | with_reducible apply Keeps.ite

theorem directEffect_keeps (r : RegRow) (off : Nat) (kept : Keeps hold pre s) :
    Keeps hold pre (directEffect r off s) := by
  unfold directEffect
  repeat' first
    | with_reducible assumption
    | intro _
    | with_reducible apply setLayer_keeps | with_reducible apply directRaster_keeps
    | with_reducible apply Keeps.ite

theorem stDirectWrite_keeps (off : Nat) (v : Nat) (kept : Keeps hold pre s) :
    Keeps hold pre (stDirectWrite off v s) := by
  unfold stDirectWrite
  repeat' first
    | with_reducible assumption
    | intro _
    | with_reducible apply stIgnored_keeps | with_reducible apply directEffect_keeps | with_reducible apply genStep_keeps | with_reducible apply wr_keeps
    | with_reducible apply Keeps.ite
    | fail_if_no_progress (with_reducible apply Keeps.upd)
    | refine Keeps.fst (by assumption) ?_
    | dsimp only
    | split

theorem execStDirectWrite_keeps (off : Nat) (v : Word) {post : State} (kept : Keeps hold pre s) (e : execStDirectWrite off v s = .next post) :
    Keeps hold pre post := by
  unfold execStDirectWrite at e
  refine live_keeps (fun s kept => ?_) kept e
  clear e
  repeat' first
    | with_reducible assumption
    | intro _
    | with_reducible apply stDirectWrite_keeps

end Sys2Proof.Machine
end

