-- ==== Sys2Proof/Laws/KeepsSeal.lean ====
section
/-!
SUPPORT. Laws/KeepsSeal.lean: every operation of Machine/Seal.lean that answers a state has `Keeps`.
-/

namespace Sys2Proof.Machine

variable {hold : Bool} {pre s : State}

theorem dropScan_keeps (h : Nat) (kept : Keeps hold pre s) :
    Keeps hold pre (dropScan h s) := by
  unfold dropScan
  repeat' first
    | with_reducible assumption
    | intro _
    | with_reducible apply keepScene_keeps | with_reducible apply encWbFailed_keeps | with_reducible apply encNoScan_keeps | with_reducible apply setWb_keeps
    | with_reducible apply setHead_keeps
    | with_reducible apply Keeps.ite
    | fail_if_no_progress (with_reducible apply Keeps.upd)
    | refine Keeps.fst (by assumption) ?_
    | dsimp only
    | split

theorem beatTick_keeps (beat : Bool) (kept : Keeps hold pre s) :
    Keeps hold pre (beatTick beat s) := by
  unfold beatTick
  repeat' first
    | with_reducible assumption
    | intro _
    | with_reducible apply addReg_keeps
    | with_reducible apply Keeps.ite
    | fail_if_no_progress (with_reducible refine Keeps.updTck (e := rfl) (e' := rfl) (h := ?_) ..)

theorem sealBegin_keeps (n t : Nat) (kept : Keeps false pre s) : Keeps false pre (sealBegin n t s) := by
  have aux : ∀ z : State, Keeps false pre z →
      Keeps false pre (let z := setFlag (wideSet R.TCK_N_LO n z) R.TCK_STATUS 0 true
        if trigArmed z 9 then trigFires 9 z else z) := fun z h =>
    have w := setFlag_keeps R.TCK_STATUS 0 true (wideSet_keeps R.TCK_N_LO n h)
    Keeps.ite (trigFires_keeps _ w) w
  exact aux _ ⟨kept.part, kept.pending, kept.porst, kept.lcs, kept.time, kept.mem, nofun⟩

/-- A seal keeps its number and instant (R35, R36). -/
theorem sealBegin_last (n t : Nat) (s : State) : (sealBegin n t s).tck.lastN = n ∧ (sealBegin n t s).tck.lastT = t := by
  have h : ∀ z : State, z.tck.lastN = n ∧ z.tck.lastT = t →
      (let z := setFlag (wideSet R.TCK_N_LO n z) R.TCK_STATUS 0 true
       (if trigArmed z 9 then trigFires 9 z else z).tck.lastN = n ∧
       (if trigArmed z 9 then trigFires 9 z else z).tck.lastT = t) := fun z e => by
    have q : Keeps true z (if trigArmed (setFlag (wideSet R.TCK_N_LO n z) R.TCK_STATUS 0 true) 9 then
        trigFires 9 (setFlag (wideSet R.TCK_N_LO n z) R.TCK_STATUS 0 true)
        else setFlag (wideSet R.TCK_N_LO n z) R.TCK_STATUS 0 true) :=
      have w := setFlag_keeps R.TCK_STATUS 0 true (wideSet_keeps R.TCK_N_LO n (Keeps.refl z))
      Keeps.ite (trigFires_keeps _ w) w
    exact ⟨(q.lastSeal rfl).1.trans e.1, (q.lastSeal rfl).2.trans e.2⟩
  exact h _ ⟨rfl, rfl⟩

theorem sealPower_keeps (kept : Keeps hold pre s) :
    Keeps hold pre (sealPower s) := by
  unfold sealPower
  repeat' first
    | with_reducible assumption
    | intro _
    | with_reducible apply powerTurn_keeps
    | with_reducible apply Keeps.ite
    | fail_if_no_progress (with_reducible apply Keeps.upd)
    | refine Keeps.fst (by assumption) ?_
    | dsimp only
    | split

theorem sealSettle_keeps (n : Nat) (t : Nat) (kept : Keeps false pre s) :
    Keeps false pre (sealSettle n t s) := by
  unfold sealSettle
  repeat' first
    | with_reducible assumption
    | intro _
    | with_reducible apply sealBegin_keeps | with_reducible apply sheafStep_keeps | with_reducible apply sealLatch_keeps | with_reducible apply sealPower_keeps
    | with_reducible apply sheafComplete_keeps
    | with_reducible apply Keeps.ite
    | fail_if_no_progress (with_reducible apply Keeps.upd)
    | refine Keeps.fst (by assumption) ?_
    | dsimp only
    | split

theorem sealJudge_keeps (t : Nat) (snap0 : State) (kept : Keeps hold pre s) :
    Keeps hold pre (sealJudge t snap0 s) := by
  unfold sealJudge
  repeat' first
    | with_reducible assumption
    | intro _
    | with_reducible apply eachLayer_keeps | with_reducible apply layerSelect_keeps | with_reducible apply sealIntent_keeps | with_reducible apply ledgerSeal_keeps
    | with_reducible apply stateTables_keeps | with_reducible apply poolStep_keeps | with_reducible apply sealCover_keeps | with_reducible apply sealClass_keeps

theorem sealCredits_keeps (kept : Keeps hold pre s) :
    Keeps hold pre (sealCredits s) := by
  unfold sealCredits
  repeat' first
    | with_reducible assumption
    | intro _
    | with_reducible apply earnCredits_keeps
    | with_reducible apply Keeps.ite
    | with_reducible apply Keeps.foldl

theorem sealClose_keeps (n : Nat) (t : Nat) (stopped : List Nat) (snap0 : State) (kept : Keeps hold pre s) :
    Keeps hold pre (sealClose n t stopped snap0 s) := by
  unfold sealClose
  repeat' first
    | with_reducible assumption
    | intro _
    | with_reducible apply sealRelease_keeps | with_reducible apply eachHead_keeps | with_reducible apply headSealScan_keeps | with_reducible apply sealSnapshots_keeps
    | with_reducible apply sealEncode_keeps | with_reducible apply decodeSkip_keeps | with_reducible apply calTick_keeps | with_reducible apply lanesSeal_keeps
    | with_reducible apply Keeps.ite
    | with_reducible apply Keeps.foldl

theorem sealTick_keeps (n : Nat) (t : Nat) (o : SealObs) (kept : Keeps false pre s) :
    Keeps false pre (sealTick n t o s) := by
  unfold sealTick
  repeat' first
    | with_reducible assumption
    | intro _
    | with_reducible apply raiseTotals_keeps | with_reducible apply eachHead_keeps | with_reducible apply dropScan_keeps | with_reducible apply workSeal_keeps
    | with_reducible apply engineTick_keeps | with_reducible apply pipeTick_keeps | with_reducible apply beatTick_keeps | with_reducible apply trackSeal_keeps
    | with_reducible apply mr4Seal_keeps | with_reducible apply sealSettle_keeps | with_reducible apply sealCredits_keeps | with_reducible apply sealJudge_keeps
    | with_reducible apply sealClose_keeps | with_reducible apply wr_keeps

theorem execTickSeal_keeps (o : SealObs) {post : State} (kept : Keeps false pre s) (e : execTickSeal o s = .next post) :
    Keeps false pre post := by
  unfold execTickSeal at e
  refine live_keeps (fun s kept => ?_) kept e
  clear e
  repeat' first
    | with_reducible assumption
    | intro _
    | with_reducible apply waitClock_keeps | with_reducible apply sealTick_keeps
    | with_reducible apply Keeps.ite
    | fail_if_no_progress (with_reducible apply Keeps.upd)
    | refine Keeps.fst (by assumption) ?_
    | dsimp only
    | split

theorem srcOff_keeps (c : Nat) (kept : Keeps hold pre s) :
    Keeps hold pre (srcOff c s) := by
  unfold srcOff
  repeat' first
    | with_reducible assumption
    | intro _
    | with_reducible apply uncommit_keeps | with_reducible apply setChan_keeps | with_reducible apply flowReset_keeps | with_reducible apply damageRepair_keeps
    | with_reducible apply unitOff_keeps | with_reducible apply runQueued_keeps | with_reducible apply srcOpen_keeps | with_reducible apply ledgerRepair_keeps
    | with_reducible apply Keeps.ite
    | fail_if_no_progress (with_reducible apply Keeps.upd)
    | refine Keeps.fst (by assumption) ?_
    | dsimp only
    | split

theorem headOff_keeps (h : Nat) (kept : Keeps hold pre s) :
    Keeps hold pre (headOff h s) := by
  unfold headOff
  repeat' first
    | with_reducible assumption
    | intro _
    | with_reducible apply setHead_keeps | with_reducible apply setHeadState_keeps | with_reducible apply setFlag_keeps | with_reducible apply finishWaiters_keeps
    | with_reducible apply runQueued_keeps | with_reducible apply headOpen_keeps | with_reducible apply ledgerRepair_keeps | with_reducible apply damageRepair_keeps
    | with_reducible apply Keeps.ite

theorem encOff_keeps (n : Nat) (kept : Keeps hold pre s) :
    Keeps hold pre (encOff n s) := by
  unfold encOff
  repeat' first
    | with_reducible assumption
    | intro _
    | with_reducible apply runQueued_keeps | with_reducible apply encStart_keeps | with_reducible apply ledgerRepair_keeps | with_reducible apply unitOff_keeps
    | with_reducible apply uncommit_keeps | with_reducible apply encEnd_keeps
    | with_reducible apply Keeps.ite

theorem ringOff_keeps (u : Nat) (kept : Keeps hold pre s) :
    Keeps hold pre (ringOff u s) := by
  unfold ringOff
  repeat' first
    | with_reducible assumption
    | intro _
    | with_reducible apply ledgerRepair_keeps | with_reducible apply unitOff_keeps
    | with_reducible apply Keeps.ite

theorem drainComplete_keeps (kind : Nat) (u : Nat) (kept : Keeps hold pre s) :
    Keeps hold pre (drainComplete kind u s) := by
  unfold drainComplete
  repeat' first
    | with_reducible assumption
    | intro _
    | with_reducible apply srcOff_keeps | with_reducible apply headOff_keeps | with_reducible apply encOff_keeps | with_reducible apply ringOff_keeps
    | with_reducible apply Keeps.ite

theorem execUnitDrainComplete_keeps (kind : Fin 4) (unit : Nat) {post : State} (kept : Keeps hold pre s) (e : execUnitDrainComplete kind unit s = .next post) :
    Keeps hold pre post := by
  unfold execUnitDrainComplete at e
  refine live_keeps (fun s kept => ?_) kept e
  clear e
  repeat' first
    | with_reducible assumption
    | intro _
    | with_reducible apply drainComplete_keeps

end Sys2Proof.Machine
end

