-- ==== Sys2Proof/Laws/KeepsReset.lean ====
section
/-!
SUPPORT. Laws/KeepsReset.lean: every operation of Machine/Reset.lean that answers a state has `Keeps`.
-/

namespace Sys2Proof.Machine

variable {hold : Bool} {pre s : State}

theorem domainsReset_keeps (kept : Keeps false pre s) : Keeps false pre (domainsReset s) :=
  ⟨kept.part, kept.pending, kept.porst, kept.lcs, kept.time, (fun w => by
    have := kept.mem w
    rw [memWf_iff] at this ⊢
    exact ⟨wf_filter _ this.1, wf_nil, wf_filter _ this.2.2.1, wf_nil, this.2.2.2.2.1, this.2.2.2.2.2.1, wf_nil⟩), nofun⟩

theorem deviceStart_keeps (kept : Keeps hold pre s) :
    Keeps hold pre (deviceStart s) := by
  unfold deviceStart
  repeat' first
    | with_reducible assumption
    | intro _
    | with_reducible apply setFld_keeps | with_reducible apply sealedRegions_keeps

theorem timeReset_keeps (kept : Keeps hold pre s) :
    Keeps hold pre (timeReset s) := by
  unfold timeReset
  repeat' first
    | with_reducible assumption
    | intro _
    | with_reducible apply setFlag_keeps | with_reducible apply setTimeState_keeps

theorem trimRecordsReset_keeps (kept : Keeps hold pre s) :
    Keeps hold pre (trimRecordsReset s) := by
  unfold trimRecordsReset
  repeat' first
    | with_reducible assumption
    | intro _
    | with_reducible apply wr_keeps | with_reducible apply wideSet_keeps
    | with_reducible apply Keeps.ite
    | with_reducible apply Keeps.foldl

theorem sysReset_keeps (kept : Keeps false pre s) :
    Keeps false pre (sysReset s) := by
  unfold sysReset
  repeat' first
    | with_reducible assumption
    | intro _
    | with_reducible apply trimRecordsReset_keeps | with_reducible apply domainsReset_keeps | with_reducible apply calAbortAll_keeps | with_reducible apply deviceStart_keeps
    | with_reducible apply timeReset_keeps | with_reducible apply cellarLose_keeps

theorem railsGood_keeps (kept : Keeps false pre s) :
    Keeps false pre (railsGood s) := by
  unfold railsGood
  repeat' first
    | with_reducible assumption
    | intro _
    | with_reducible apply deviceStart_keeps | with_reducible apply addReg_keeps | with_reducible apply domainsReset_keeps | with_reducible apply trainStart_keeps
    | with_reducible apply Keeps.ite
    | with_reducible apply Keeps.foldl | with_reducible apply Keeps.foldlPair
    | fail_if_no_progress (with_reducible apply Keeps.upd)

theorem railGood_keeps (code : Nat) (e : Option RailEntry) (kept : Keeps false pre s) :
    Keeps false pre (railGood code e s) := by
  unfold railGood
  repeat' first
    | with_reducible assumption
    | intro _
    | with_reducible apply wr_keeps | with_reducible apply railsGood_keeps
    | with_reducible apply Keeps.ite
    | fail_if_no_progress (with_reducible apply Keeps.upd)
    | refine Keeps.fst (by assumption) ?_
    | dsimp only
    | split

theorem execRailSequenceStep_keeps (rail : Fin 8) {post : State} (kept : Keeps false pre s) (e : execRailSequenceStep rail s = .next post) :
    Keeps false pre post := by
  unfold execRailSequenceStep at e
  refine next_keeps ?_ e
  clear e
  repeat' first
    | with_reducible assumption
    | intro _
    | with_reducible apply railGood_keeps | with_reducible apply passUpdates_keeps
    | with_reducible apply Keeps.ite
    | fail_if_no_progress (with_reducible apply Keeps.upd)
    | refine Keeps.fst (by assumption) ?_
    | dsimp only
    | split

/-- A reset by PORST_n keeps the part, the queue and the canonical form. -/
theorem coldReset_spec (s : State) : (coldReset s).part = s.part ∧ (coldReset s).pending = s.pending ∧
    (coldReset s).porst = true ∧ (coldReset s).lcs.state = s.lcs.state ∧
    (memWf s = true → memWf (coldReset s) = true) := by
  refine ⟨rfl, rfl, rfl, rfl, fun w => ?_⟩
  have := (cellarLose_keeps (hold := true) 0 0 (Keeps.refl s)).mem w
  rw [memWf_iff] at this ⊢
  exact ⟨wf_nil, wf_nil, wf_nil, wf_nil, this.2.2.2.2.1, this.2.2.2.2.2.1, wf_nil⟩

/-- The fuses rule changes nothing that `Keeps` speaks of but the life-cycle state, which becomes the fused one. -/
theorem fusesRule_spec (s : State) : (fusesRule s).part = s.part ∧ (fusesRule s).pending = s.pending ∧
    (fusesRule s).porst = s.porst ∧ (fusesRule s).lcs.state = fusedState s ∧
    (memWf s = true → memWf (fusesRule s) = true) := by
  have key : Keeps true { s with lcs := { s.lcs with state := fusedState s } } (fusesRule s) :=
    Keeps.ite (destroySlots_keeps (Keeps.refl _)) (Keeps.refl _)
  exact ⟨key.part, key.pending, key.porst, key.lcs, fun w => key.mem w⟩

theorem wakeTake_keeps (cause : Nat) (kept : Keeps false pre s) :
    Keeps false pre (wakeTake cause s) := by
  unfold wakeTake
  repeat' first
    | with_reducible assumption
    | intro _
    | with_reducible apply setFld_keeps | with_reducible apply railsGood_keeps
    | with_reducible apply Keeps.ite
    | fail_if_no_progress (with_reducible apply Keeps.upd)

theorem execKeepWake_keeps (cause : Fin 4) (gpio : Word) {post : State} (kept : Keeps false pre s) (e : execKeepWake cause gpio s = .next post) :
    Keeps false pre post := by
  unfold execKeepWake at e
  refine next_keeps ?_ e
  clear e
  repeat' first
    | with_reducible assumption
    | intro _
    | with_reducible apply wakeTake_keeps | with_reducible apply waitClock_keeps
    | with_reducible apply Keeps.ite

theorem execSysrstN_keeps {post : State} (kept : Keeps false pre s) (e : execSysrstN s = .next post) :
    Keeps false pre post := by
  unfold execSysrstN at e
  refine next_keeps ?_ e
  clear e
  repeat' first
    | with_reducible assumption
    | intro _
    | with_reducible apply wakeTake_keeps | with_reducible apply sysReset_keeps
    | with_reducible apply Keeps.ite

theorem linkEvent_keeps (up : Nat) (width : Nat) (gen : Nat) (kept : Keeps hold pre s) :
    Keeps hold pre (linkEvent up width gen s) := by
  unfold linkEvent
  repeat' first
    | with_reducible assumption
    | intro _
    | with_reducible apply raise_keeps
    | with_reducible apply Keeps.ite

theorem execPciePerstN_keeps {post : State} (kept : Keeps hold pre s) (e : execPciePerstN s = .next post) :
    Keeps hold pre post := by
  unfold execPciePerstN at e
  refine next_keeps ?_ e
  have h : Keeps hold pre { s with linkUp := false, bar2 := [] } := by
    have := Keeps.bar2Empty kept
    exact ⟨this.part, this.pending, this.porst, this.lcs, this.time, this.mem, this.lastSeal⟩
  exact Keeps.ite kept (Keeps.ite (linkEvent_keeps _ _ _ h) h)

theorem execPcieLinkUp_keeps (width : Fin 16) (gen : Fin 16) {post : State} (kept : Keeps hold pre s) (e : execPcieLinkUp width gen s = .next post) :
    Keeps hold pre post := by
  unfold execPcieLinkUp at e
  refine next_keeps ?_ e
  clear e
  repeat' first
    | with_reducible assumption
    | intro _
    | with_reducible apply linkEvent_keeps
    | with_reducible apply Keeps.ite
    | fail_if_no_progress (with_reducible apply Keeps.upd)

end Sys2Proof.Machine
end

