-- ==== Sys2Proof/Laws/KeepsRegFile.lean ====
section
/-!
SUPPORT. Laws/KeepsRegFile.lean: every operation of Machine/RegFile.lean that answers a state has `Keeps`.
-/

namespace Sys2Proof.Machine

variable {hold : Bool} {pre s : State}

theorem after_keeps {f : State → Host.Outcome State Fault Refusal} (hf : ∀ t, f s = .next t → Keeps hold pre t)
    (kept : Keeps hold pre s) : Keeps hold pre (after f s) := by
  unfold after
  split
  · next e => exact hf _ e
  · exact kept

theorem onInst_keeps (n : Nat) (base : Nat) (stride : Nat) (off : Nat) {f : Fin n → State → State} {rest : State → State} (hf : ∀ x0 t, Keeps hold pre t → Keeps hold pre (f x0 t)) (hrest : ∀ t, Keeps hold pre t → Keeps hold pre (rest t)) (kept : Keeps hold pre s) :
    Keeps hold pre (onInst n base stride off f rest s) := by
  unfold onInst
  repeat' first
    | with_reducible assumption
    | intro _
    | with_reducible apply Keeps.ite
    | fail_if_no_progress (with_reducible apply Keeps.upd)
    | refine Keeps.fst (by assumption) ?_
    | with_reducible apply hf
    | with_reducible apply hrest
    | dsimp only
    | split

theorem readEffect_keeps (off : Nat) (kept : Keeps hold pre s) :
    Keeps hold pre (readEffect off s) := by
  unfold readEffect
  repeat' first
    | with_reducible assumption
    | intro _
    | with_reducible apply after_keeps | refine execTimNowRead_keeps (kept := ?_) (e := by with_reducible assumption) .. | refine execTimURead_keeps (kept := ?_) (e := by with_reducible assumption) .. | refine execTckNRead_keeps (kept := ?_) (e := by with_reducible assumption) ..
    | with_reducible apply onInst_keeps | refine execTrmTimeRead_keeps (kept := ?_) (e := by with_reducible assumption) .. | refine execCaptureFifoRead_keeps (kept := ?_) (e := by with_reducible assumption) .. | refine execShfAppliedRead_keeps (kept := ?_) (e := by with_reducible assumption) ..
    | refine execGuardSyncRead_keeps (kept := ?_) (e := by with_reducible assumption) .. | refine execLaneRxSpanRead_keeps (kept := ?_) (e := by with_reducible assumption) .. | refine execLaneFarSpanRead_keeps (kept := ?_) (e := by with_reducible assumption) .. | refine execFlowCountsRead_keeps (kept := ?_) (e := by with_reducible assumption) ..
    | refine execVdcSlotCountsRead_keeps (kept := ?_) (e := by with_reducible assumption) .. | refine execEncNextNRead_keeps (kept := ?_) (e := by with_reducible assumption) .. | refine execHeadLastNRead_keeps (kept := ?_) (e := by with_reducible assumption) .. | refine execHeadFirstNRead_keeps (kept := ?_) (e := by with_reducible assumption) ..
    | with_reducible apply chkCatch_keeps | with_reducible apply id_keeps
    | with_reducible apply Keeps.ite

theorem regRead_keeps (off : Nat) (kept : Keeps hold pre s) :
    Keeps hold pre (regRead off s).1 := by
  unfold regRead
  repeat' first
    | with_reducible assumption
    | intro _
    | with_reducible apply readEffect_keeps
    | with_reducible apply Keeps.ite | with_reducible apply Keeps.iteFst
    | fail_if_no_progress (with_reducible apply Keeps.upd)
    | refine Keeps.fst (by assumption) ?_
    | dsimp only
    | split

theorem plainWrite_keeps (r : RegRow) (off : Nat) (v : Nat) (kept : Keeps hold pre s) :
    Keeps hold pre (plainWrite r off v s) := by
  unfold plainWrite
  repeat' first
    | with_reducible assumption
    | intro _
    | with_reducible apply wr_keeps
    | with_reducible apply Keeps.ite

theorem timWrite_keeps (r : RegRow) (off : Nat) (v : Nat) (kept : Keeps hold pre s) :
    Keeps hold pre (timWrite r off v s) := by
  unfold timWrite
  repeat' first
    | with_reducible assumption
    | intro _
    | with_reducible apply setFlag_keeps | with_reducible apply servoOff_keeps | with_reducible apply freqWrite_keeps | with_reducible apply timeSet_keeps
    | with_reducible apply servoSample_keeps | with_reducible apply timRegWrite_keeps | with_reducible apply trigCtrlWrite_keeps | with_reducible apply trigRegWrite_keeps
    | with_reducible apply plainWrite_keeps
    | with_reducible apply Keeps.ite

theorem tckWrite_keeps (r : RegRow) (off : Nat) (v : Nat) (kept : Keeps hold pre s) :
    Keeps hold pre (tckWrite r off v s) := by
  unfold tckWrite
  repeat' first
    | with_reducible assumption
    | intro _
    | with_reducible apply tickStart_keeps | with_reducible apply tickStop_keeps | with_reducible apply timebaseWrite_keeps | with_reducible apply guardPmWrite_keeps
    | with_reducible apply plainWrite_keeps
    | with_reducible apply Keeps.ite

theorem shfRegWrite_keeps (r : RegRow) (off : Nat) (v : Nat) (kept : Keeps hold pre s) :
    Keeps hold pre (shfRegWrite r off v s) := by
  unfold shfRegWrite
  repeat' first
    | with_reducible assumption
    | intro _
    | with_reducible apply onInst_keeps | with_reducible apply sheafCancel_keeps | with_reducible apply sheafOpen_keeps | with_reducible apply directEnter_keeps
    | with_reducible apply plainWrite_keeps
    | with_reducible apply Keeps.ite

theorem rngWrite_keeps (r : RegRow) (off : Nat) (v : Nat) (kept : Keeps hold pre s) :
    Keeps hold pre (rngWrite r off v s) := by
  unfold rngWrite
  repeat' first
    | with_reducible assumption
    | intro _
    | with_reducible apply ringCfgWrite_keeps | with_reducible apply ringBaseWrite_keeps | with_reducible apply plainWrite_keeps
    | with_reducible apply Keeps.ite
    | fail_if_no_progress (with_reducible apply Keeps.upd)
    | refine Keeps.fst (by assumption) ?_
    | dsimp only
    | split

theorem evtWrite_keeps (r : RegRow) (off : Nat) (v : Nat) (kept : Keeps hold pre s) :
    Keeps hold pre (evtWrite r off v s) := by
  unfold evtWrite
  repeat' first
    | with_reducible assumption
    | intro _
    | with_reducible apply onInst_keeps | with_reducible apply wr_keeps | with_reducible apply plainWrite_keeps
    | with_reducible apply Keeps.ite

theorem jobWrite_keeps (r : RegRow) (off : Nat) (v : Nat) (kept : Keeps hold pre s) :
    Keeps hold pre (jobWrite r off v s) := by
  unfold jobWrite
  repeat' first
    | with_reducible assumption
    | intro _
    | with_reducible apply cpxJournalStore_keeps | with_reducible apply chkContext_keeps | with_reducible apply plainWrite_keeps
    | with_reducible apply Keeps.ite

theorem laneWriteReg_keeps (r : RegRow) (off : Nat) (v : Nat) (kept : Keeps hold pre s) :
    Keeps hold pre (laneWriteReg r off v s) := by
  unfold laneWriteReg
  repeat' first
    | with_reducible assumption
    | intro _
    | with_reducible apply onInst_keeps | with_reducible apply laneEnable_keeps | with_reducible apply laneDisable_keeps | with_reducible apply plainWrite_keeps
    | with_reducible apply Keeps.ite
    | dsimp only
    | split

theorem unitWrite_keeps (r : RegRow) (off : Nat) (v : Nat) (kept : Keeps hold pre s) :
    Keeps hold pre (unitWrite r off v s) := by
  unfold unitWrite
  repeat' first
    | with_reducible assumption
    | intro _
    | with_reducible apply onInst_keeps | with_reducible apply srcRegEnable_keeps | with_reducible apply srcRegDisable_keeps | with_reducible apply encRecCons_keeps
    | with_reducible apply headRegEnable_keeps | with_reducible apply headRegDisable_keeps | with_reducible apply touchTake_keeps | with_reducible apply plainWrite_keeps
    | with_reducible apply Keeps.ite
    | dsimp only
    | split

theorem dmcWrite_keeps (r : RegRow) (off : Nat) (v : Nat) (kept : Keeps hold pre s) :
    Keeps hold pre (dmcWrite r off v s) := by
  unfold dmcWrite
  repeat' first
    | with_reducible assumption
    | intro _
    | with_reducible apply dmcCfgWrite_keeps | with_reducible apply dmcCtrlWrite_keeps | with_reducible apply plainWrite_keeps
    | with_reducible apply Keeps.ite

theorem powerWrite_keeps (r : RegRow) (off : Nat) (v : Nat) (kept : Keeps hold pre s) :
    Keeps hold pre (powerWrite r off v s) := by
  unfold powerWrite
  repeat' first
    | with_reducible assumption
    | intro _
    | with_reducible apply reqBufWrite_keeps | with_reducible apply pwrRegWrite_keeps | with_reducible apply trmCmdWrite_keeps | with_reducible apply plainWrite_keeps
    | with_reducible apply Keeps.ite

theorem blockWrite_keeps (core : Bool) (r : RegRow) (off : Nat) (v : Nat) (kept : Keeps hold pre s) :
    Keeps hold pre (blockWrite core r off v s) := by
  unfold blockWrite
  repeat' first
    | with_reducible assumption
    | intro _
    | with_reducible apply powerWrite_keeps | with_reducible apply timWrite_keeps | with_reducible apply tckWrite_keeps | with_reducible apply plainWrite_keeps
    | with_reducible apply shfRegWrite_keeps | with_reducible apply rngWrite_keeps | with_reducible apply evtWrite_keeps | with_reducible apply guardRegWrite_keeps
    | with_reducible apply jobWrite_keeps | with_reducible apply tchCtrlWrite_keeps | with_reducible apply laneWriteReg_keeps | with_reducible apply unitWrite_keeps
    | with_reducible apply dmcWrite_keeps
    | with_reducible apply Keeps.ite

theorem regWrite_keeps (core : Bool) (off : Nat) (v : Nat) (kept : Keeps hold pre s) :
    Keeps hold pre (regWrite core off v s) := by
  unfold regWrite
  repeat' first
    | with_reducible assumption
    | intro _
    | with_reducible apply huskK_keeps | with_reducible apply huskEffect_keeps | with_reducible apply huskV_keeps | with_reducible apply stDirectWrite_keeps
    | with_reducible apply wr_keeps | with_reducible apply blockWrite_keeps
    | with_reducible apply Keeps.ite
    | fail_if_no_progress (with_reducible apply Keeps.upd)
    | refine Keeps.fst (by assumption) ?_
    | dsimp only
    | split

theorem execRegisterWrite_keeps (off : Nat) (v : Word) {post : State} (kept : Keeps hold pre s) (e : execRegisterWrite off v s = .next post) :
    Keeps hold pre post := by
  unfold execRegisterWrite at e
  refine next_keeps ?_ e
  clear e
  repeat' first
    | with_reducible assumption
    | intro _
    | with_reducible apply regWrite_keeps
    | with_reducible apply Keeps.ite

end Sys2Proof.Machine
end

