-- ==== Sys2Proof/Laws/KeepsBus.lean ====
section
/-!
SUPPORT. Laws/KeepsBus.lean: every operation of Machine/Bus.lean that answers a state has `Keeps`.
-/

namespace Sys2Proof.Machine

variable {hold : Bool} {pre s : State}

theorem regSpaceWord_keeps (a : Nat) (kept : Keeps hold pre s) :
    Keeps hold pre (regSpaceWord a s).1 := by
  unfold regSpaceWord
  repeat' first
    | with_reducible assumption
    | intro _
    | with_reducible apply regRead_keeps
    | with_reducible apply Keeps.ite | with_reducible apply Keeps.iteFst

theorem regSpaceRead_keeps (n x : Nat) (h : Keeps hold pre s) : Keeps hold pre (regSpaceRead n x s).1 := by
  induction n generalizing x s with
  | zero => exact h
  | succ n ih => exact ih _ (regSpaceWord_keeps _ h)

theorem msixUnmask_keeps (v : Nat) (kept : Keeps hold pre s) :
    Keeps hold pre (msixUnmask v s) := by
  unfold msixUnmask
  repeat' first
    | with_reducible assumption
    | intro _
    | with_reducible apply msixSignal_keeps | with_reducible apply b2Write_keeps
    | with_reducible apply Keeps.ite

theorem bar2Word_keeps (o : Nat) (v : Nat) (kept : Keeps hold pre s) :
    Keeps hold pre (bar2Word o v s) := by
  unfold bar2Word
  repeat' first
    | with_reducible assumption
    | intro _
    | with_reducible apply doorbell_keeps | with_reducible apply msixUnmask_keeps | with_reducible apply b2Write_keeps
    | with_reducible apply Keeps.ite
    | fail_if_no_progress (with_reducible apply Keeps.upd)
    | refine Keeps.fst (by assumption) ?_
    | dsimp only
    | split

theorem regSpaceChunk_keeps (core : Bool) (a : Nat) (bs : List Byte) (kept : Keeps hold pre s) :
    Keeps hold pre (regSpaceChunk core a bs s) := by
  unfold regSpaceChunk
  repeat' first
    | with_reducible assumption
    | intro _
    | with_reducible apply regWrite_keeps | with_reducible apply bar2Word_keeps | with_reducible apply doorbell_keeps
    | with_reducible apply Keeps.ite
    | fail_if_no_progress (with_reducible apply Keeps.upd)
    | refine Keeps.fst (by assumption) ?_
    | dsimp only
    | split

theorem regSpaceWrite_keeps (core : Bool) (n x : Nat) (bs : List Byte) (h : Keeps hold pre s) :
    Keeps hold pre (regSpaceWrite core n x bs s) := by
  induction n generalizing x bs s with
  | zero => exact h
  | succ n ih => exact Keeps.ite h (ih _ _ (regSpaceChunk_keeps _ _ _ h))

theorem Keeps.halt (l : List Nat) (h : Keeps hold pre s) : Keeps hold pre { s with lcs := { s.lcs with halted := l } } :=
  Keeps.updLcs _ rfl h

theorem granaryOutcome_keeps (a : Nat) (kept : Keeps hold pre s) : Keeps hold pre (granaryOutcome a s) :=
  have h := granaryUncorrectable_keeps a kept
  Keeps.ite (granaryHeal_keeps _ _ h) (Keeps.ite (Keeps.ite (h.halt _) (setDemal_keeps 4 (h.halt _))) h)

theorem granaryCheck_keeps (a : Nat) (n : Nat) (ecc : Ecc) (kept : Keeps hold pre s) :
    Keeps hold pre (granaryCheck a n ecc s).1 := by
  unfold granaryCheck
  repeat' first
    | with_reducible assumption
    | intro _
    | with_reducible apply granaryOutcome_keeps | with_reducible apply granaryCorrected_keeps
    | with_reducible apply Keeps.ite | with_reducible apply Keeps.iteFst
    | fail_if_no_progress (with_reducible apply Keeps.upd)
    | refine Keeps.fst (by assumption) ?_
    | dsimp only
    | split

theorem granaryData_keeps (bad : List Nat) (a : Nat) (n : Nat) (kept : Keeps hold pre s) :
    Keeps hold pre (granaryData bad a n s).1 := by
  unfold granaryData
  repeat' first
    | with_reducible assumption
    | intro _
    | with_reducible apply Keeps.ite | with_reducible apply Keeps.iteFst
    | fail_if_no_progress (with_reducible apply Keeps.upd)
    | dsimp only
    | split

theorem granaryRead_keeps (a : Nat) (n : Nat) (ecc : Ecc) (kept : Keeps hold pre s) :
    Keeps hold pre (granaryRead a n ecc s).1 := by
  unfold granaryRead
  repeat' first
    | with_reducible assumption
    | intro _
    | with_reducible apply granaryCheck_keeps | with_reducible apply granaryData_keeps
    | with_reducible apply Keeps.ite | with_reducible apply Keeps.iteFst
    | refine Keeps.fst (by assumption) ?_
    | dsimp only
    | split

theorem granaryStore_keeps (a : Nat) (bs : List Byte) (ecc : Ecc) (kept : Keeps hold pre s) :
    Keeps hold pre (granaryStore a bs ecc s) := by
  unfold granaryStore
  repeat' first
    | with_reducible assumption
    | intro _
    | with_reducible apply granaryCheck_keeps | with_reducible apply gWrite_keeps | with_reducible apply shfWrite_keeps
    | with_reducible apply Keeps.ite
    | with_reducible apply Keeps.foldl | with_reducible apply Keeps.foldlPair
    | dsimp only
    | split

theorem targetRead_keeps (g : Nat) (port : Nat) (sp : Nat) (a : Nat) (n : Nat) (ecc : Ecc) (kept : Keeps hold pre s) :
    Keeps hold pre (targetRead g port sp a n ecc s).1 := by
  unfold targetRead
  repeat' first
    | with_reducible assumption
    | intro _
    | with_reducible apply regSpaceRead_keeps | with_reducible apply granaryRead_keeps | with_reducible apply cellarRequest_keeps | with_reducible apply portCharge_keeps
    | with_reducible apply cellarEcc_keeps
    | with_reducible apply Keeps.ite | with_reducible apply Keeps.iteFst
    | refine Keeps.fst (by assumption) ?_
    | dsimp only
    | split

theorem targetWrite_keeps (g : Nat) (port : Nat) (sp : Nat) (a : Nat) (bs : List Byte) (ecc : Ecc) (kept : Keeps hold pre s) :
    Keeps hold pre (targetWrite g port sp a bs ecc s).1 := by
  unfold targetWrite
  repeat' first
    | with_reducible assumption
    | intro _
    | with_reducible apply regSpaceWrite_keeps | with_reducible apply granaryStore_keeps | with_reducible apply cellarRequest_keeps | with_reducible apply portCharge_keeps
    | with_reducible apply memStore_keeps
    | with_reducible apply Keeps.ite | with_reducible apply Keeps.iteFst
    | dsimp only
    | split

theorem busParts_keeps (q : BusReq) (ps : List GPart) (h : Keeps hold pre s) : Keeps hold pre (busParts q ps s).1 := by
  induction ps generalizing s with
  | nil => exact h
  | cons p ps ih =>
    unfold busParts
    refine ih ?_
    dsimp only
    split
    · split
      · exact targetWrite_keeps _ _ _ _ _ _ h
      · exact h
    · split
      · exact targetWrite_keeps _ _ _ _ _ _ (targetRead_keeps _ _ _ _ _ _ h)
      · exact h
    · split
      · exact targetRead_keeps _ _ _ _ _ _ h
      · exact h

theorem busRun_keeps (q : BusReq) {denials : List GPart → State → State} (hdenials : ∀ x0 t, Keeps hold pre t → Keeps hold pre (denials x0 t)) (kept : Keeps hold pre s) :
    Keeps hold pre (busRun q denials s).1 := by
  unfold busRun
  repeat' first
    | with_reducible assumption
    | intro _
    | with_reducible apply hostStore_keeps | with_reducible apply guardFlight_keeps | with_reducible apply busParts_keeps
    | with_reducible apply Keeps.ite | with_reducible apply Keeps.iteFst
    | refine Keeps.fst (by assumption) ?_
    | with_reducible apply hdenials
    | dsimp only
    | split

theorem execBusAccess_keeps (a : BusReq) {post : State} (kept : Keeps hold pre s) (e : execBusAccess a s = .next post) :
    Keeps hold pre post := by
  unfold execBusAccess at e
  refine next_keeps ?_ e
  clear e
  repeat' first
    | with_reducible assumption
    | intro _
    | with_reducible apply busRun_keeps | with_reducible apply guardDenials_keeps | with_reducible apply raise_keeps
    | with_reducible apply Keeps.ite
    | fail_if_no_progress (with_reducible apply Keeps.upd)
    | dsimp only
    | split

theorem debugLocked_keeps (region : Nat) (addr : Nat) (kept : Keeps hold pre s) :
    Keeps hold pre (debugLocked region addr s) := by
  unfold debugLocked
  repeat' first
    | with_reducible assumption
    | intro _
    | with_reducible apply raise_keeps
    | with_reducible apply Keeps.ite
    | dsimp only

theorem debugDenials_keeps (q : BusReq) (ps : List GPart) (kept : Keeps hold pre s) :
    Keeps hold pre (debugDenials q ps s) := by
  unfold debugDenials
  repeat' first
    | with_reducible assumption
    | intro _
    | with_reducible apply debugLocked_keeps | with_reducible apply guardNote_keeps | with_reducible apply guardDenials_keeps | with_reducible apply raise_keeps
    | with_reducible apply Keeps.ite
    | with_reducible apply Keeps.foldl | with_reducible apply Keeps.foldlPair
    | dsimp only
    | split

theorem execDebugAccess_keeps (a : BusReq) {post : State} (kept : Keeps hold pre s) (e : execDebugAccess a s = .next post) :
    Keeps hold pre post := by
  unfold execDebugAccess at e
  refine next_keeps ?_ e
  clear e
  repeat' first
    | with_reducible assumption
    | intro _
    | with_reducible apply debugLocked_keeps | with_reducible apply busRun_keeps | with_reducible apply debugDenials_keeps
    | with_reducible apply Keeps.ite
    | fail_if_no_progress (with_reducible apply Keeps.upd)
    | dsimp only
    | split

end Sys2Proof.Machine
end

