-- ==== Sys2Proof/Laws/Commands.lean ====
section
/-!
SUPPORT. Laws/Commands.lean: what every command keeps, the commands of PORST_n apart, whose effect is a reset.
-/

namespace Sys2Proof.Machine

/-- Every command but PORST_n's two has `Keeps`; the last seal is kept but by the seal and by a reset. -/
theorem exec_keeps (c : Instr) {s t : State} (h : exec c s = .next t) (ha : c ≠ .porstNAssert)
    (hr : ∀ table g, c ≠ .porstNRelease table g) : Keeps false s t := by
  cases c with
  | porstNAssert => exact absurd rfl ha
  | porstNRelease a b => exact absurd rfl (hr a b)
  | sysrstN => exact execSysrstN_keeps (Keeps.refl _) h
  | pciePerstN => exact execPciePerstN_keeps (Keeps.refl _) h
  | pcieLinkUp a b => exact execPcieLinkUp_keeps _ _ (Keeps.refl _) h
  | railSequenceStep a => exact execRailSequenceStep_keeps _ (Keeps.refl _) h
  | granaryInitDone => exact execGranaryInitDone_keeps (Keeps.refl _) h
  | demalBootDone a b => exact execDemalBootDone_keeps _ _ (Keeps.refl _) h
  | demalStall => exact execDemalStall_keeps (Keeps.refl _) h
  | registerWrite a b => exact execRegisterWrite_keeps _ _ (Keeps.refl _) h
  | tickRunStart => exact execTickRunStart_keeps (Keeps.refl _) h
  | tickRunStop => exact execTickRunStop_keeps (Keeps.refl _) h
  | tickTimebaseWrite a b => exact execTickTimebaseWrite_keeps _ _ (Keeps.refl _) h
  | guardPmWrite a => exact execGuardPmWrite_keeps _ (Keeps.refl _) h
  | tickSeal a => exact execTickSeal_keeps _ (Keeps.refl _) h
  | huskVWrite a b => exact execHuskVWrite_keeps _ _ (Keeps.refl _) h
  | huskKWrite a b => exact execHuskKWrite_keeps _ _ (Keeps.refl _) h
  | huskPendingTimeout a => exact execHuskPendingTimeout_keeps _ (Keeps.refl _) h
  | timNowRead => exact execTimNowRead_keeps (Keeps.refl _) h
  | tckNRead => exact execTckNRead_keeps (Keeps.refl _) h
  | timURead => exact execTimURead_keeps (Keeps.refl _) h
  | servoSample a => exact execServoSample_keeps _ (Keeps.refl _) h
  | stepAccept a => exact execStepAccept_keeps _ (Keeps.refl _) h
  | timeSet a => exact execTimeSet_keeps _ (Keeps.refl _) h
  | freqWrite a b => exact execFreqWrite_keeps _ _ (Keeps.refl _) h
  | servoDisable => exact execServoDisable_keeps (Keeps.refl _) h
  | holdoverTimeout => exact execHoldoverTimeout_keeps (Keeps.refl _) h
  | captureEdge a b c => exact execCaptureEdge_keeps _ _ _ (Keeps.refl _) h
  | captureFifoRead a => exact execCaptureFifoRead_keeps _ (Keeps.refl _) h
  | triggerArm a b => exact execTriggerArm_keeps _ _ (Keeps.refl _) h
  | triggerDisarm a b => exact execTriggerDisarm_keeps _ _ (Keeps.refl _) h
  | triggerFire a => exact execTriggerFire_keeps _ (Keeps.refl _) h
  | triggerPulseEnd a => exact execTriggerPulseEnd_keeps _ (Keeps.refl _) h
  | sheafSlotOpen a => exact execSheafSlotOpen_keeps _ (Keeps.refl _) h
  | sheafCancel a => exact execSheafCancel_keeps _ (Keeps.refl _) h
  | sheafSlotEntryWrite a b c => exact execSheafSlotEntryWrite_keeps _ _ _ (Keeps.refl _) h
  | sheafSubmit a => exact execSheafSubmit_keeps _ (Keeps.refl _) h
  | sheafCheckDone => exact execSheafCheckDone_keeps (Keeps.refl _) h
  | shfAppliedRead a => exact execShfAppliedRead_keeps _ (Keeps.refl _) h
  | directEnter a b => exact execDirectEnter_keeps _ _ (Keeps.refl _) h
  | stDirectWrite a b => exact execStDirectWrite_keeps _ _ (Keeps.refl _) h
  | sqDoorbell a b c d => exact execSqDoorbell_keeps _ _ _ _ (Keeps.refl _) h
  | cqDoorbell a b c => exact execCqDoorbell_keeps _ _ _ (Keeps.refl _) h
  | eqDoorbell a b c => exact execEqDoorbell_keeps _ _ _ (Keeps.refl _) h
  | ringEnable a b => exact execRingEnable_keeps _ _ (Keeps.refl _) h
  | ringDisable a b => exact execRingDisable_keeps _ _ (Keeps.refl _) h
  | descriptorFetch a b c => exact execDescriptorFetch_keeps _ _ _ (Keeps.refl _) h
  | completionWrite a b => exact execCompletionWrite_keeps _ _ (Keeps.refl _) h
  | evtPinAck a => exact execEvtPinAck_keeps _ (Keeps.refl _) h
  | nop a => exact execNop_keeps _ (Keeps.refl _) h
  | srcOpen a => exact execSrcOpen_keeps _ (Keeps.refl _) h
  | srcClose a => exact execSrcClose_keeps _ (Keeps.refl _) h
  | srcMap a => exact execSrcMap_keeps _ (Keeps.refl _) h
  | framePost a => exact execFramePost_keeps _ (Keeps.refl _) h
  | framePostCopyDone a => exact execFramePostCopyDone_keeps _ (Keeps.refl _) h
  | headCtl a => exact execHeadCtl_keeps _ (Keeps.refl _) h
  | flowAdd a => exact execFlowAdd_keeps _ (Keeps.refl _) h
  | flowDel a => exact execFlowDel_keeps _ (Keeps.refl _) h
  | encStart a => exact execEncStart_keeps _ (Keeps.refl _) h
  | encStop a => exact execEncStop_keeps _ (Keeps.refl _) h
  | chkJob a => exact execChkJob_keeps _ (Keeps.refl _) h
  | chkJobComplete a => exact execChkJobComplete_keeps _ (Keeps.refl _) h
  | cpxJob a => exact execCpxJob_keeps _ (Keeps.refl _) h
  | cpxJobComplete a => exact execCpxJobComplete_keeps _ (Keeps.refl _) h
  | snapshot a => exact execSnapshot_keeps _ (Keeps.refl _) h
  | snapshotComplete a => exact execSnapshotComplete_keeps _ (Keeps.refl _) h
  | netTx a => exact execNetTx_keeps _ (Keeps.refl _) h
  | netTxSent a b => exact execNetTxSent_keeps _ _ (Keeps.refl _) h
  | netRxPost a => exact execNetRxPost_keeps _ (Keeps.refl _) h
  | keyConfig a => exact execKeyConfig_keeps _ (Keeps.refl _) h
  | barrier a => exact execBarrier_keeps _ (Keeps.refl _) h
  | ledgerRead a => exact execLedgerRead_keeps _ (Keeps.refl _) h
  | trimRun a => exact execTrimRun_keeps _ (Keeps.refl _) h
  | unitDrainComplete a b => exact execUnitDrainComplete_keeps _ _ (Keeps.refl _) h
  | laneEnable a b => exact execLaneEnable_keeps _ _ (Keeps.refl _) h
  | laneDisable a b => exact execLaneDisable_keeps _ _ (Keeps.refl _) h
  | quadPllLock a b => exact execQuadPllLock_keeps _ _ (Keeps.refl _) h
  | cdrLock a => exact execCdrLock_keeps _ (Keeps.refl _) h
  | cdrLoss a => exact execCdrLoss_keeps _ (Keeps.refl _) h
  | blindPeriodEnd a => exact execBlindPeriodEnd_keeps _ (Keeps.refl _) h
  | blockTransmit a => exact execBlockTransmit_keeps _ (Keeps.refl _) h
  | blockReceive a b => exact execBlockReceive_keeps _ _ (Keeps.refl _) h
  | genlockTimeout a => exact execGenlockTimeout_keeps _ (Keeps.refl _) h
  | spareSwitch a b => exact execSpareSwitch_keeps _ _ (Keeps.refl _) h
  | spareCompareTimeout a => exact execSpareCompareTimeout_keeps _ (Keeps.refl _) h
  | ethFrameReceive a b c => exact execEthFrameReceive_keeps _ _ _ (Keeps.refl _) h
  | jitterDeadline a => exact execJitterDeadline_keeps _ (Keeps.refl _) h
  | pathSilentTimeout a b => exact execPathSilentTimeout_keeps _ _ (Keeps.refl _) h
  | depacketise a => exact execDepacketise_keeps _ (Keeps.refl _) h
  | flowCountsRead a => exact execFlowCountsRead_keeps _ (Keeps.refl _) h
  | srcRegEnable a b => exact execSrcRegEnable_keeps _ _ (Keeps.refl _) h
  | srcRegDisable a b => exact execSrcRegDisable_keeps _ _ (Keeps.refl _) h
  | rtcpMapCommit a b => exact execRtcpMapCommit_keeps _ _ (Keeps.refl _) h
  | rtcpMapExpire a => exact execRtcpMapExpire_keeps _ (Keeps.refl _) h
  | decodePictureStart a => exact execDecodePictureStart_keeps _ (Keeps.refl _) h
  | entropyParseDone a b => exact execEntropyParseDone_keeps _ _ (Keeps.refl _) h
  | decodePictureComplete a b => exact execDecodePictureComplete_keeps _ _ (Keeps.refl _) h
  | decodeWorkExhausted a b => exact execDecodeWorkExhausted_keeps _ _ (Keeps.refl _) h
  | vdcSlotCountsRead a => exact execVdcSlotCountsRead_keeps _ (Keeps.refl _) h
  | layerTouch a b c => exact execLayerTouch_keeps _ _ _ (Keeps.refl _) h
  | headRegEnable a => exact execHeadRegEnable_keeps _ (Keeps.refl _) h
  | headRegDisable a => exact execHeadRegDisable_keeps _ (Keeps.refl _) h
  | pixelPllLock a => exact execPixelPllLock_keeps _ (Keeps.refl _) h
  | pixelPllUnlock a => exact execPixelPllUnlock_keeps _ (Keeps.refl _) h
  | pllLockTimeout a => exact execPllLockTimeout_keeps _ (Keeps.refl _) h
  | prefetchStart a => exact execPrefetchStart_keeps _ (Keeps.refl _) h
  | activeScanStart a b => exact execActiveScanStart_keeps _ _ (Keeps.refl _) h
  | scanLine a b => exact execScanLine_keeps _ _ (Keeps.refl _) h
  | fetchBurst a b c => exact execFetchBurst_keeps _ _ _ (Keeps.refl _) h
  | activeScanCut a => exact execActiveScanCut_keeps _ (Keeps.refl _) h
  | frameComplete a => exact execFrameComplete_keeps _ (Keeps.refl _) h
  | headStuckNoFrame a => exact execHeadStuckNoFrame_keeps _ (Keeps.refl _) h
  | writebackComplete a => exact execWritebackComplete_keeps _ (Keeps.refl _) h
  | headLastNRead a => exact execHeadLastNRead_keeps _ (Keeps.refl _) h
  | headFirstNRead a => exact execHeadFirstNRead_keeps _ (Keeps.refl _) h
  | encRowStart a => exact execEncRowStart_keeps _ (Keeps.refl _) h
  | encRowCoded a b => exact execEncRowCoded_keeps _ _ (Keeps.refl _) h
  | encRecConsWrite a b => exact execEncRecConsWrite_keeps _ _ (Keeps.refl _) h
  | encNextNRead a => exact execEncNextNRead_keeps _ (Keeps.refl _) h
  | dmcTrain a => exact execDmcTrain_keeps _ (Keeps.refl _) h
  | dmcTrainDone a b c d => exact execDmcTrainDone_keeps _ _ _ _ (Keeps.refl _) h
  | dmcTrackRun a b => exact execDmcTrackRun_keeps _ _ (Keeps.refl _) h
  | refreshIssue a b => exact execRefreshIssue_keeps _ _ (Keeps.refl _) h
  | refreshCatchupEnter a => exact execRefreshCatchupEnter_keeps _ (Keeps.refl _) h
  | refabComplete a => exact execRefabComplete_keeps _ (Keeps.refl _) h
  | rowDisturbDetect a b c d e => exact execRowDisturbDetect_keeps _ _ _ _ _ (Keeps.refl _) h
  | rowDisturbThrottleEnd a => exact execRowDisturbThrottleEnd_keeps _ (Keeps.refl _) h
  | rdWindowReset a => exact execRdWindowReset_keeps _ (Keeps.refl _) h
  | selfRefreshIdleEntry a => exact execSelfRefreshIdleEntry_keeps _ (Keeps.refl _) h
  | selfRefreshExit a b c d => exact execSelfRefreshExit_keeps _ _ _ _ (Keeps.refl _) h
  | busAccess a => exact execBusAccess_keeps _ (Keeps.refl _) h
  | granaryScrub a => exact execGranaryScrub_keeps _ (Keeps.refl _) h
  | chkContextWrite a b c => exact execChkContextWrite_keeps _ _ _ (Keeps.refl _) h
  | cpxJournalWrite a b => exact execCpxJournalWrite_keeps _ _ (Keeps.refl _) h
  | touchScanEnd a => exact execTouchScanEnd_keeps _ (Keeps.refl _) h
  | keyScanProcess => exact execKeyScanProcess_keeps (Keeps.refl _) h
  | guardRegWrite a b => exact execGuardRegWrite_keeps _ _ (Keeps.refl _) h
  | guardSyncRead a => exact execGuardSyncRead_keeps _ (Keeps.refl _) h
  | debugAccess a => exact execDebugAccess_keeps _ (Keeps.refl _) h
  | debugAuth a => exact execDebugAuth_keeps _ (Keeps.refl _) h
  | lcsRequest a => exact execLcsRequest_keeps _ (Keeps.refl _) h
  | lcsRequestDone a => exact execLcsRequestDone_keeps _ (Keeps.refl _) h
  | powerRequest a => exact execPowerRequest_keeps _ (Keeps.refl _) h
  | keepWake a b => exact execKeepWake_keeps _ _ (Keeps.refl _) h
  | powerDown => exact execPowerDown_keeps (Keeps.refl _) h
  | supplyMonitorSample a b => exact execSupplyMonitorSample_keeps _ _ (Keeps.refl _) h
  | pmbusStatusPoll a b => exact execPmbusStatusPoll_keeps _ _ (Keeps.refl _) h
  | thermalSample a => exact execThermalSample_keeps _ (Keeps.refl _) h
  | thermalStageFall => exact execThermalStageFall_keeps (Keeps.refl _) h
  | thermalCritical => exact execThermalCritical_keeps (Keeps.refl _) h
  | avsSample a => exact execAvsSample_keeps _ (Keeps.refl _) h
  | avsRaiseAck => exact execAvsRaiseAck_keeps (Keeps.refl _) h
  | trimCmd a => exact execTrimCmd_keeps _ (Keeps.refl _) h
  | calibrationComplete a b => exact execCalibrationComplete_keeps _ _ (Keeps.refl _) h
  | trmTimeRead a => exact execTrmTimeRead_keeps _ (Keeps.refl _) h
  | laneRxSpanRead a => exact execLaneRxSpanRead_keeps _ (Keeps.refl _) h
  | laneFarSpanRead a => exact execLaneFarSpanRead_keeps _ (Keeps.refl _) h
  | ethLinkChange a b c d => exact execEthLinkChange_keeps _ _ _ _ (Keeps.refl _) h
  | debugCoreControl a b => exact execDebugCoreControl_keeps _ _ (Keeps.refl _) h

/-- The last seal changes at a seal alone, or at a reset. -/
theorem exec_lastSeal (c : Instr) {s t : State} (h : exec c s = .next t) (hc : resetsTick c = false)
    (hs : ∀ o, c ≠ .tickSeal o) (hr : ∀ table g, c ≠ .porstNRelease table g) : Keeps true s t := by
  cases c with
  | porstNAssert => exact absurd hc (by decide)
  | porstNRelease a b => exact absurd rfl (hr a b)
  | sysrstN => exact absurd hc (by simp [resetsTick])
  | pciePerstN => exact execPciePerstN_keeps (Keeps.refl _) h
  | pcieLinkUp a b => exact execPcieLinkUp_keeps _ _ (Keeps.refl _) h
  | railSequenceStep a => exact absurd hc (by simp [resetsTick])
  | granaryInitDone => exact execGranaryInitDone_keeps (Keeps.refl _) h
  | demalBootDone a b => exact execDemalBootDone_keeps _ _ (Keeps.refl _) h
  | demalStall => exact execDemalStall_keeps (Keeps.refl _) h
  | registerWrite a b => exact execRegisterWrite_keeps _ _ (Keeps.refl _) h
  | tickRunStart => exact execTickRunStart_keeps (Keeps.refl _) h
  | tickRunStop => exact execTickRunStop_keeps (Keeps.refl _) h
  | tickTimebaseWrite a b => exact execTickTimebaseWrite_keeps _ _ (Keeps.refl _) h
  | guardPmWrite a => exact execGuardPmWrite_keeps _ (Keeps.refl _) h
  | tickSeal a => exact absurd rfl (hs a)
  | huskVWrite a b => exact execHuskVWrite_keeps _ _ (Keeps.refl _) h
  | huskKWrite a b => exact execHuskKWrite_keeps _ _ (Keeps.refl _) h
  | huskPendingTimeout a => exact execHuskPendingTimeout_keeps _ (Keeps.refl _) h
  | timNowRead => exact execTimNowRead_keeps (Keeps.refl _) h
  | tckNRead => exact execTckNRead_keeps (Keeps.refl _) h
  | timURead => exact execTimURead_keeps (Keeps.refl _) h
  | servoSample a => exact execServoSample_keeps _ (Keeps.refl _) h
  | stepAccept a => exact execStepAccept_keeps _ (Keeps.refl _) h
  | timeSet a => exact execTimeSet_keeps _ (Keeps.refl _) h
  | freqWrite a b => exact execFreqWrite_keeps _ _ (Keeps.refl _) h
  | servoDisable => exact execServoDisable_keeps (Keeps.refl _) h
  | holdoverTimeout => exact execHoldoverTimeout_keeps (Keeps.refl _) h
  | captureEdge a b c => exact execCaptureEdge_keeps _ _ _ (Keeps.refl _) h
  | captureFifoRead a => exact execCaptureFifoRead_keeps _ (Keeps.refl _) h
  | triggerArm a b => exact execTriggerArm_keeps _ _ (Keeps.refl _) h
  | triggerDisarm a b => exact execTriggerDisarm_keeps _ _ (Keeps.refl _) h
  | triggerFire a => exact execTriggerFire_keeps _ (Keeps.refl _) h
  | triggerPulseEnd a => exact execTriggerPulseEnd_keeps _ (Keeps.refl _) h
  | sheafSlotOpen a => exact execSheafSlotOpen_keeps _ (Keeps.refl _) h
  | sheafCancel a => exact execSheafCancel_keeps _ (Keeps.refl _) h
  | sheafSlotEntryWrite a b c => exact execSheafSlotEntryWrite_keeps _ _ _ (Keeps.refl _) h
  | sheafSubmit a => exact execSheafSubmit_keeps _ (Keeps.refl _) h
  | sheafCheckDone => exact execSheafCheckDone_keeps (Keeps.refl _) h
  | shfAppliedRead a => exact execShfAppliedRead_keeps _ (Keeps.refl _) h
  | directEnter a b => exact execDirectEnter_keeps _ _ (Keeps.refl _) h
  | stDirectWrite a b => exact execStDirectWrite_keeps _ _ (Keeps.refl _) h
  | sqDoorbell a b c d => exact execSqDoorbell_keeps _ _ _ _ (Keeps.refl _) h
  | cqDoorbell a b c => exact execCqDoorbell_keeps _ _ _ (Keeps.refl _) h
  | eqDoorbell a b c => exact execEqDoorbell_keeps _ _ _ (Keeps.refl _) h
  | ringEnable a b => exact execRingEnable_keeps _ _ (Keeps.refl _) h
  | ringDisable a b => exact execRingDisable_keeps _ _ (Keeps.refl _) h
  | descriptorFetch a b c => exact execDescriptorFetch_keeps _ _ _ (Keeps.refl _) h
  | completionWrite a b => exact execCompletionWrite_keeps _ _ (Keeps.refl _) h
  | evtPinAck a => exact execEvtPinAck_keeps _ (Keeps.refl _) h
  | nop a => exact execNop_keeps _ (Keeps.refl _) h
  | srcOpen a => exact execSrcOpen_keeps _ (Keeps.refl _) h
  | srcClose a => exact execSrcClose_keeps _ (Keeps.refl _) h
  | srcMap a => exact execSrcMap_keeps _ (Keeps.refl _) h
  | framePost a => exact execFramePost_keeps _ (Keeps.refl _) h
  | framePostCopyDone a => exact execFramePostCopyDone_keeps _ (Keeps.refl _) h
  | headCtl a => exact execHeadCtl_keeps _ (Keeps.refl _) h
  | flowAdd a => exact execFlowAdd_keeps _ (Keeps.refl _) h
  | flowDel a => exact execFlowDel_keeps _ (Keeps.refl _) h
  | encStart a => exact execEncStart_keeps _ (Keeps.refl _) h
  | encStop a => exact execEncStop_keeps _ (Keeps.refl _) h
  | chkJob a => exact execChkJob_keeps _ (Keeps.refl _) h
  | chkJobComplete a => exact execChkJobComplete_keeps _ (Keeps.refl _) h
  | cpxJob a => exact execCpxJob_keeps _ (Keeps.refl _) h
  | cpxJobComplete a => exact execCpxJobComplete_keeps _ (Keeps.refl _) h
  | snapshot a => exact execSnapshot_keeps _ (Keeps.refl _) h
  | snapshotComplete a => exact execSnapshotComplete_keeps _ (Keeps.refl _) h
  | netTx a => exact execNetTx_keeps _ (Keeps.refl _) h
  | netTxSent a b => exact execNetTxSent_keeps _ _ (Keeps.refl _) h
  | netRxPost a => exact execNetRxPost_keeps _ (Keeps.refl _) h
  | keyConfig a => exact execKeyConfig_keeps _ (Keeps.refl _) h
  | barrier a => exact execBarrier_keeps _ (Keeps.refl _) h
  | ledgerRead a => exact execLedgerRead_keeps _ (Keeps.refl _) h
  | trimRun a => exact execTrimRun_keeps _ (Keeps.refl _) h
  | unitDrainComplete a b => exact execUnitDrainComplete_keeps _ _ (Keeps.refl _) h
  | laneEnable a b => exact execLaneEnable_keeps _ _ (Keeps.refl _) h
  | laneDisable a b => exact execLaneDisable_keeps _ _ (Keeps.refl _) h
  | quadPllLock a b => exact execQuadPllLock_keeps _ _ (Keeps.refl _) h
  | cdrLock a => exact execCdrLock_keeps _ (Keeps.refl _) h
  | cdrLoss a => exact execCdrLoss_keeps _ (Keeps.refl _) h
  | blindPeriodEnd a => exact execBlindPeriodEnd_keeps _ (Keeps.refl _) h
  | blockTransmit a => exact execBlockTransmit_keeps _ (Keeps.refl _) h
  | blockReceive a b => exact execBlockReceive_keeps _ _ (Keeps.refl _) h
  | genlockTimeout a => exact execGenlockTimeout_keeps _ (Keeps.refl _) h
  | spareSwitch a b => exact execSpareSwitch_keeps _ _ (Keeps.refl _) h
  | spareCompareTimeout a => exact execSpareCompareTimeout_keeps _ (Keeps.refl _) h
  | ethFrameReceive a b c => exact execEthFrameReceive_keeps _ _ _ (Keeps.refl _) h
  | jitterDeadline a => exact execJitterDeadline_keeps _ (Keeps.refl _) h
  | pathSilentTimeout a b => exact execPathSilentTimeout_keeps _ _ (Keeps.refl _) h
  | depacketise a => exact execDepacketise_keeps _ (Keeps.refl _) h
  | flowCountsRead a => exact execFlowCountsRead_keeps _ (Keeps.refl _) h
  | srcRegEnable a b => exact execSrcRegEnable_keeps _ _ (Keeps.refl _) h
  | srcRegDisable a b => exact execSrcRegDisable_keeps _ _ (Keeps.refl _) h
  | rtcpMapCommit a b => exact execRtcpMapCommit_keeps _ _ (Keeps.refl _) h
  | rtcpMapExpire a => exact execRtcpMapExpire_keeps _ (Keeps.refl _) h
  | decodePictureStart a => exact execDecodePictureStart_keeps _ (Keeps.refl _) h
  | entropyParseDone a b => exact execEntropyParseDone_keeps _ _ (Keeps.refl _) h
  | decodePictureComplete a b => exact execDecodePictureComplete_keeps _ _ (Keeps.refl _) h
  | decodeWorkExhausted a b => exact execDecodeWorkExhausted_keeps _ _ (Keeps.refl _) h
  | vdcSlotCountsRead a => exact execVdcSlotCountsRead_keeps _ (Keeps.refl _) h
  | layerTouch a b c => exact execLayerTouch_keeps _ _ _ (Keeps.refl _) h
  | headRegEnable a => exact execHeadRegEnable_keeps _ (Keeps.refl _) h
  | headRegDisable a => exact execHeadRegDisable_keeps _ (Keeps.refl _) h
  | pixelPllLock a => exact execPixelPllLock_keeps _ (Keeps.refl _) h
  | pixelPllUnlock a => exact execPixelPllUnlock_keeps _ (Keeps.refl _) h
  | pllLockTimeout a => exact execPllLockTimeout_keeps _ (Keeps.refl _) h
  | prefetchStart a => exact execPrefetchStart_keeps _ (Keeps.refl _) h
  | activeScanStart a b => exact execActiveScanStart_keeps _ _ (Keeps.refl _) h
  | scanLine a b => exact execScanLine_keeps _ _ (Keeps.refl _) h
  | fetchBurst a b c => exact execFetchBurst_keeps _ _ _ (Keeps.refl _) h
  | activeScanCut a => exact execActiveScanCut_keeps _ (Keeps.refl _) h
  | frameComplete a => exact execFrameComplete_keeps _ (Keeps.refl _) h
  | headStuckNoFrame a => exact execHeadStuckNoFrame_keeps _ (Keeps.refl _) h
  | writebackComplete a => exact execWritebackComplete_keeps _ (Keeps.refl _) h
  | headLastNRead a => exact execHeadLastNRead_keeps _ (Keeps.refl _) h
  | headFirstNRead a => exact execHeadFirstNRead_keeps _ (Keeps.refl _) h
  | encRowStart a => exact execEncRowStart_keeps _ (Keeps.refl _) h
  | encRowCoded a b => exact execEncRowCoded_keeps _ _ (Keeps.refl _) h
  | encRecConsWrite a b => exact execEncRecConsWrite_keeps _ _ (Keeps.refl _) h
  | encNextNRead a => exact execEncNextNRead_keeps _ (Keeps.refl _) h
  | dmcTrain a => exact execDmcTrain_keeps _ (Keeps.refl _) h
  | dmcTrainDone a b c d => exact execDmcTrainDone_keeps _ _ _ _ (Keeps.refl _) h
  | dmcTrackRun a b => exact execDmcTrackRun_keeps _ _ (Keeps.refl _) h
  | refreshIssue a b => exact execRefreshIssue_keeps _ _ (Keeps.refl _) h
  | refreshCatchupEnter a => exact execRefreshCatchupEnter_keeps _ (Keeps.refl _) h
  | refabComplete a => exact execRefabComplete_keeps _ (Keeps.refl _) h
  | rowDisturbDetect a b c d e => exact execRowDisturbDetect_keeps _ _ _ _ _ (Keeps.refl _) h
  | rowDisturbThrottleEnd a => exact execRowDisturbThrottleEnd_keeps _ (Keeps.refl _) h
  | rdWindowReset a => exact execRdWindowReset_keeps _ (Keeps.refl _) h
  | selfRefreshIdleEntry a => exact execSelfRefreshIdleEntry_keeps _ (Keeps.refl _) h
  | selfRefreshExit a b c d => exact execSelfRefreshExit_keeps _ _ _ _ (Keeps.refl _) h
  | busAccess a => exact execBusAccess_keeps _ (Keeps.refl _) h
  | granaryScrub a => exact execGranaryScrub_keeps _ (Keeps.refl _) h
  | chkContextWrite a b c => exact execChkContextWrite_keeps _ _ _ (Keeps.refl _) h
  | cpxJournalWrite a b => exact execCpxJournalWrite_keeps _ _ (Keeps.refl _) h
  | touchScanEnd a => exact execTouchScanEnd_keeps _ (Keeps.refl _) h
  | keyScanProcess => exact execKeyScanProcess_keeps (Keeps.refl _) h
  | guardRegWrite a b => exact execGuardRegWrite_keeps _ _ (Keeps.refl _) h
  | guardSyncRead a => exact execGuardSyncRead_keeps _ (Keeps.refl _) h
  | debugAccess a => exact execDebugAccess_keeps _ (Keeps.refl _) h
  | debugAuth a => exact execDebugAuth_keeps _ (Keeps.refl _) h
  | lcsRequest a => exact execLcsRequest_keeps _ (Keeps.refl _) h
  | lcsRequestDone a => exact execLcsRequestDone_keeps _ (Keeps.refl _) h
  | powerRequest a => exact execPowerRequest_keeps _ (Keeps.refl _) h
  | keepWake a b => exact absurd hc (by simp [resetsTick])
  | powerDown => exact execPowerDown_keeps (Keeps.refl _) h
  | supplyMonitorSample a b => exact execSupplyMonitorSample_keeps _ _ (Keeps.refl _) h
  | pmbusStatusPoll a b => exact execPmbusStatusPoll_keeps _ _ (Keeps.refl _) h
  | thermalSample a => exact execThermalSample_keeps _ (Keeps.refl _) h
  | thermalStageFall => exact execThermalStageFall_keeps (Keeps.refl _) h
  | thermalCritical => exact execThermalCritical_keeps (Keeps.refl _) h
  | avsSample a => exact execAvsSample_keeps _ (Keeps.refl _) h
  | avsRaiseAck => exact execAvsRaiseAck_keeps (Keeps.refl _) h
  | trimCmd a => exact execTrimCmd_keeps _ (Keeps.refl _) h
  | calibrationComplete a b => exact execCalibrationComplete_keeps _ _ (Keeps.refl _) h
  | trmTimeRead a => exact execTrmTimeRead_keeps _ (Keeps.refl _) h
  | laneRxSpanRead a => exact execLaneRxSpanRead_keeps _ (Keeps.refl _) h
  | laneFarSpanRead a => exact execLaneFarSpanRead_keeps _ (Keeps.refl _) h
  | ethLinkChange a b c d => exact execEthLinkChange_keeps _ _ _ _ (Keeps.refl _) h
  | debugCoreControl a b => exact execDebugCoreControl_keeps _ _ (Keeps.refl _) h

/-- A command to a block that stands still does nothing (R437, R442). -/
theorem exec_stopped (c : Instr) {s : State} (h : running s = false) (hn : needsRunning c = true) :
    exec c s = .next s := by
  have hl : ∀ f, live s f = .next s := fun f => by rw [live, h]; rfl
  cases c with
  | porstNAssert => exact (Bool.false_ne_true hn).elim
  | porstNRelease a b => exact (Bool.false_ne_true hn).elim
  | sysrstN => exact (Bool.false_ne_true hn).elim
  | pciePerstN => exact (Bool.false_ne_true hn).elim
  | pcieLinkUp a b => exact (Bool.false_ne_true hn).elim
  | railSequenceStep a => exact (Bool.false_ne_true hn).elim
  | granaryInitDone => show execGranaryInitDone s = _; unfold execGranaryInitDone; exact hl _
  | demalBootDone a b => show execDemalBootDone a b s = _; unfold execDemalBootDone; exact hl _
  | demalStall => show execDemalStall s = _; unfold execDemalStall; exact hl _
  | registerWrite a b => exact (Bool.false_ne_true hn).elim
  | tickRunStart => show execTickRunStart s = _; unfold execTickRunStart; exact hl _
  | tickRunStop => show execTickRunStop s = _; unfold execTickRunStop; exact hl _
  | tickTimebaseWrite a b => show execTickTimebaseWrite a b s = _; unfold execTickTimebaseWrite; exact hl _
  | guardPmWrite a => show execGuardPmWrite a s = _; unfold execGuardPmWrite; exact hl _
  | tickSeal a => show execTickSeal a s = _; unfold execTickSeal; exact hl _
  | huskVWrite a b => exact (Bool.false_ne_true hn).elim
  | huskKWrite a b => exact (Bool.false_ne_true hn).elim
  | huskPendingTimeout a => exact (Bool.false_ne_true hn).elim
  | timNowRead => show execTimNowRead s = _; unfold execTimNowRead; exact hl _
  | tckNRead => show execTckNRead s = _; unfold execTckNRead; exact hl _
  | timURead => show execTimURead s = _; unfold execTimURead; exact hl _
  | servoSample a => show execServoSample a s = _; unfold execServoSample; exact hl _
  | stepAccept a => show execStepAccept a s = _; unfold execStepAccept; exact hl _
  | timeSet a => show execTimeSet a s = _; unfold execTimeSet; exact hl _
  | freqWrite a b => show execFreqWrite a b s = _; unfold execFreqWrite; exact hl _
  | servoDisable => show execServoDisable s = _; unfold execServoDisable; exact hl _
  | holdoverTimeout => exact (Bool.false_ne_true hn).elim
  | captureEdge a b c => exact (Bool.false_ne_true hn).elim
  | captureFifoRead a => show execCaptureFifoRead a s = _; unfold execCaptureFifoRead; exact hl _
  | triggerArm a b => show execTriggerArm a b s = _; unfold execTriggerArm; exact hl _
  | triggerDisarm a b => show execTriggerDisarm a b s = _; unfold execTriggerDisarm; exact hl _
  | triggerFire a => exact (Bool.false_ne_true hn).elim
  | triggerPulseEnd a => exact (Bool.false_ne_true hn).elim
  | sheafSlotOpen a => show execSheafSlotOpen a s = _; unfold execSheafSlotOpen; exact hl _
  | sheafCancel a => show execSheafCancel a s = _; unfold execSheafCancel; exact hl _
  | sheafSlotEntryWrite a b c => show execSheafSlotEntryWrite a b c s = _; unfold execSheafSlotEntryWrite; exact hl _
  | sheafSubmit a => show execSheafSubmit a s = _; unfold execSheafSubmit; exact hl _
  | sheafCheckDone => show execSheafCheckDone s = _; unfold execSheafCheckDone; exact hl _
  | shfAppliedRead a => show execShfAppliedRead a s = _; unfold execShfAppliedRead; exact hl _
  | directEnter a b => show execDirectEnter a b s = _; unfold execDirectEnter; exact hl _
  | stDirectWrite a b => show execStDirectWrite a b s = _; unfold execStDirectWrite; exact hl _
  | sqDoorbell a b c d => show execSqDoorbell a b c d s = _; unfold execSqDoorbell; exact hl _
  | cqDoorbell a b c => show execCqDoorbell a b c s = _; unfold execCqDoorbell; exact hl _
  | eqDoorbell a b c => show execEqDoorbell a b c s = _; unfold execEqDoorbell; exact hl _
  | ringEnable a b => show execRingEnable a b s = _; unfold execRingEnable; exact hl _
  | ringDisable a b => show execRingDisable a b s = _; unfold execRingDisable; exact hl _
  | descriptorFetch a b c => show execDescriptorFetch a b c s = _; unfold execDescriptorFetch; exact hl _
  | completionWrite a b => show execCompletionWrite a b s = _; unfold execCompletionWrite; exact hl _
  | evtPinAck a => show execEvtPinAck a s = _; unfold execEvtPinAck; exact hl _
  | nop a => show execNop a s = _; unfold execNop; exact hl _
  | srcOpen a => show execSrcOpen a s = _; unfold execSrcOpen; exact hl _
  | srcClose a => show execSrcClose a s = _; unfold execSrcClose; exact hl _
  | srcMap a => show execSrcMap a s = _; unfold execSrcMap; exact hl _
  | framePost a => show execFramePost a s = _; unfold execFramePost; exact hl _
  | framePostCopyDone a => show execFramePostCopyDone a s = _; unfold execFramePostCopyDone; exact hl _
  | headCtl a => show execHeadCtl a s = _; unfold execHeadCtl; exact hl _
  | flowAdd a => show execFlowAdd a s = _; unfold execFlowAdd; exact hl _
  | flowDel a => show execFlowDel a s = _; unfold execFlowDel; exact hl _
  | encStart a => show execEncStart a s = _; unfold execEncStart; exact hl _
  | encStop a => show execEncStop a s = _; unfold execEncStop; exact hl _
  | chkJob a => show execChkJob a s = _; unfold execChkJob; exact hl _
  | chkJobComplete a => show execChkJobComplete a s = _; unfold execChkJobComplete; exact hl _
  | cpxJob a => show execCpxJob a s = _; unfold execCpxJob; exact hl _
  | cpxJobComplete a => show execCpxJobComplete a s = _; unfold execCpxJobComplete; exact hl _
  | snapshot a => show execSnapshot a s = _; unfold execSnapshot; exact hl _
  | snapshotComplete a => show execSnapshotComplete a s = _; unfold execSnapshotComplete; exact hl _
  | netTx a => show execNetTx a s = _; unfold execNetTx; exact hl _
  | netTxSent a b => show execNetTxSent a b s = _; unfold execNetTxSent; exact hl _
  | netRxPost a => show execNetRxPost a s = _; unfold execNetRxPost; exact hl _
  | keyConfig a => show execKeyConfig a s = _; unfold execKeyConfig; exact hl _
  | barrier a => show execBarrier a s = _; unfold execBarrier; exact hl _
  | ledgerRead a => show execLedgerRead a s = _; unfold execLedgerRead; exact hl _
  | trimRun a => show execTrimRun a s = _; unfold execTrimRun; exact hl _
  | unitDrainComplete a b => show execUnitDrainComplete a b s = _; unfold execUnitDrainComplete; exact hl _
  | laneEnable a b => show execLaneEnable a b s = _; unfold execLaneEnable; exact hl _
  | laneDisable a b => show execLaneDisable a b s = _; unfold execLaneDisable; exact hl _
  | quadPllLock a b => show execQuadPllLock a b s = _; unfold execQuadPllLock; exact hl _
  | cdrLock a => show execCdrLock a s = _; unfold execCdrLock; exact hl _
  | cdrLoss a => show execCdrLoss a s = _; unfold execCdrLoss; exact hl _
  | blindPeriodEnd a => show execBlindPeriodEnd a s = _; unfold execBlindPeriodEnd; exact hl _
  | blockTransmit a => show execBlockTransmit a s = _; unfold execBlockTransmit; exact hl _
  | blockReceive a b => show execBlockReceive a b s = _; unfold execBlockReceive; exact hl _
  | genlockTimeout a => show execGenlockTimeout a s = _; unfold execGenlockTimeout; exact hl _
  | spareSwitch a b => show execSpareSwitch a b s = _; unfold execSpareSwitch; exact hl _
  | spareCompareTimeout a => show execSpareCompareTimeout a s = _; unfold execSpareCompareTimeout; exact hl _
  | ethFrameReceive a b c => show execEthFrameReceive a b c s = _; unfold execEthFrameReceive; exact hl _
  | jitterDeadline a => show execJitterDeadline a s = _; unfold execJitterDeadline; exact hl _
  | pathSilentTimeout a b => show execPathSilentTimeout a b s = _; unfold execPathSilentTimeout; exact hl _
  | depacketise a => show execDepacketise a s = _; unfold execDepacketise; exact hl _
  | flowCountsRead a => show execFlowCountsRead a s = _; unfold execFlowCountsRead; exact hl _
  | srcRegEnable a b => show execSrcRegEnable a b s = _; unfold execSrcRegEnable; exact hl _
  | srcRegDisable a b => show execSrcRegDisable a b s = _; unfold execSrcRegDisable; exact hl _
  | rtcpMapCommit a b => show execRtcpMapCommit a b s = _; unfold execRtcpMapCommit; exact hl _
  | rtcpMapExpire a => show execRtcpMapExpire a s = _; unfold execRtcpMapExpire; exact hl _
  | decodePictureStart a => show execDecodePictureStart a s = _; unfold execDecodePictureStart; exact hl _
  | entropyParseDone a b => show execEntropyParseDone a b s = _; unfold execEntropyParseDone; exact hl _
  | decodePictureComplete a b => show execDecodePictureComplete a b s = _; unfold execDecodePictureComplete; exact hl _
  | decodeWorkExhausted a b => show execDecodeWorkExhausted a b s = _; unfold execDecodeWorkExhausted; exact hl _
  | vdcSlotCountsRead a => show execVdcSlotCountsRead a s = _; unfold execVdcSlotCountsRead; exact hl _
  | layerTouch a b c => show execLayerTouch a b c s = _; unfold execLayerTouch; exact hl _
  | headRegEnable a => show execHeadRegEnable a s = _; unfold execHeadRegEnable; exact hl _
  | headRegDisable a => show execHeadRegDisable a s = _; unfold execHeadRegDisable; exact hl _
  | pixelPllLock a => show execPixelPllLock a s = _; unfold execPixelPllLock; exact hl _
  | pixelPllUnlock a => show execPixelPllUnlock a s = _; unfold execPixelPllUnlock; exact hl _
  | pllLockTimeout a => show execPllLockTimeout a s = _; unfold execPllLockTimeout; exact hl _
  | prefetchStart a => show execPrefetchStart a s = _; unfold execPrefetchStart; exact hl _
  | activeScanStart a b => show execActiveScanStart a b s = _; unfold execActiveScanStart; exact hl _
  | scanLine a b => show execScanLine a b s = _; unfold execScanLine; exact hl _
  | fetchBurst a b c => show execFetchBurst a b c s = _; unfold execFetchBurst; exact hl _
  | activeScanCut a => show execActiveScanCut a s = _; unfold execActiveScanCut; exact hl _
  | frameComplete a => show execFrameComplete a s = _; unfold execFrameComplete; exact hl _
  | headStuckNoFrame a => show execHeadStuckNoFrame a s = _; unfold execHeadStuckNoFrame; exact hl _
  | writebackComplete a => show execWritebackComplete a s = _; unfold execWritebackComplete; exact hl _
  | headLastNRead a => show execHeadLastNRead a s = _; unfold execHeadLastNRead; exact hl _
  | headFirstNRead a => show execHeadFirstNRead a s = _; unfold execHeadFirstNRead; exact hl _
  | encRowStart a => show execEncRowStart a s = _; unfold execEncRowStart; exact hl _
  | encRowCoded a b => show execEncRowCoded a b s = _; unfold execEncRowCoded; exact hl _
  | encRecConsWrite a b => show execEncRecConsWrite a b s = _; unfold execEncRecConsWrite; exact hl _
  | encNextNRead a => show execEncNextNRead a s = _; unfold execEncNextNRead; exact hl _
  | dmcTrain a => show execDmcTrain a s = _; unfold execDmcTrain; exact hl _
  | dmcTrainDone a b c d => show execDmcTrainDone a b c d s = _; unfold execDmcTrainDone; exact hl _
  | dmcTrackRun a b => show execDmcTrackRun a b s = _; unfold execDmcTrackRun; exact hl _
  | refreshIssue a b => show execRefreshIssue a b s = _; unfold execRefreshIssue; exact hl _
  | refreshCatchupEnter a => show execRefreshCatchupEnter a s = _; unfold execRefreshCatchupEnter; exact hl _
  | refabComplete a => show execRefabComplete a s = _; unfold execRefabComplete; exact hl _
  | rowDisturbDetect a b c d e => show execRowDisturbDetect a b c d e s = _; unfold execRowDisturbDetect; exact hl _
  | rowDisturbThrottleEnd a => show execRowDisturbThrottleEnd a s = _; unfold execRowDisturbThrottleEnd; exact hl _
  | rdWindowReset a => show execRdWindowReset a s = _; unfold execRdWindowReset; exact hl _
  | selfRefreshIdleEntry a => show execSelfRefreshIdleEntry a s = _; unfold execSelfRefreshIdleEntry; exact hl _
  | selfRefreshExit a b c d => show execSelfRefreshExit a b c d s = _; unfold execSelfRefreshExit; exact hl _
  | busAccess a => exact (Bool.false_ne_true hn).elim
  | granaryScrub a => show execGranaryScrub a s = _; unfold execGranaryScrub; exact hl _
  | chkContextWrite a b c => show execChkContextWrite a b c s = _; unfold execChkContextWrite; exact hl _
  | cpxJournalWrite a b => show execCpxJournalWrite a b s = _; unfold execCpxJournalWrite; exact hl _
  | touchScanEnd a => show execTouchScanEnd a s = _; unfold execTouchScanEnd; exact hl _
  | keyScanProcess => show execKeyScanProcess s = _; unfold execKeyScanProcess; exact hl _
  | guardRegWrite a b => show execGuardRegWrite a b s = _; unfold execGuardRegWrite; exact hl _
  | guardSyncRead a => show execGuardSyncRead a s = _; unfold execGuardSyncRead; exact hl _
  | debugAccess a => exact (Bool.false_ne_true hn).elim
  | debugAuth a => exact (Bool.false_ne_true hn).elim
  | lcsRequest a => exact (Bool.false_ne_true hn).elim
  | lcsRequestDone a => exact (Bool.false_ne_true hn).elim
  | powerRequest a => show execPowerRequest a s = _; unfold execPowerRequest; exact hl _
  | keepWake a b => exact (Bool.false_ne_true hn).elim
  | powerDown => exact (Bool.false_ne_true hn).elim
  | supplyMonitorSample a b => show execSupplyMonitorSample a b s = _; unfold execSupplyMonitorSample; exact hl _
  | pmbusStatusPoll a b => show execPmbusStatusPoll a b s = _; unfold execPmbusStatusPoll; exact hl _
  | thermalSample a => show execThermalSample a s = _; unfold execThermalSample; exact hl _
  | thermalStageFall => show execThermalStageFall s = _; unfold execThermalStageFall; exact hl _
  | thermalCritical => show execThermalCritical s = _; unfold execThermalCritical; exact hl _
  | avsSample a => show execAvsSample a s = _; unfold execAvsSample; exact hl _
  | avsRaiseAck => show execAvsRaiseAck s = _; unfold execAvsRaiseAck; exact hl _
  | trimCmd a => show execTrimCmd a s = _; unfold execTrimCmd; exact hl _
  | calibrationComplete a b => show execCalibrationComplete a b s = _; unfold execCalibrationComplete; exact hl _
  | trmTimeRead a => exact (Bool.false_ne_true hn).elim
  | laneRxSpanRead a => show execLaneRxSpanRead a s = _; unfold execLaneRxSpanRead; exact hl _
  | laneFarSpanRead a => show execLaneFarSpanRead a s = _; unfold execLaneFarSpanRead; exact hl _
  | ethLinkChange a b c d => show execEthLinkChange a b c d s = _; unfold execEthLinkChange; exact hl _
  | debugCoreControl a b => show execDebugCoreControl a b s = _; unfold execDebugCoreControl; exact hl _

end Sys2Proof.Machine
end

