-- ==== Sys2Proof/Laws/Regs.lean ====
section
/-!
SUPPORT. Laws/Regs.lean: the laws of register reads and writes: a word written reads back, a field written reads back,
other fields and other registers read as before.
-/

namespace Sys2Proof.Machine

/-! ## Bit fields -/

theorem setBits_eq (w hi lo v : Nat) (h : lo ≤ hi) :
    setBits w hi lo v =
      w % 2 ^ lo + v % 2 ^ (hi + 1 - lo) * 2 ^ lo + w / 2 ^ (hi + 1) * 2 ^ (hi + 1) := by
  have hp : 2 ^ (hi + 1) = 2 ^ lo * 2 ^ (hi + 1 - lo) := by rw [← pow_add]; congr 1; omega
  have h1 := Nat.div_add_mod w (2 ^ lo)
  have h2 := Nat.div_add_mod (w / 2 ^ lo) (2 ^ (hi + 1 - lo))
  have h3 : w / 2 ^ (hi + 1) = w / 2 ^ lo / 2 ^ (hi + 1 - lo) := by rw [hp, Nat.div_div_eq_div_mul]
  rw [setBits, bits, h3, hp]
  generalize 2 ^ lo = p at *
  generalize 2 ^ (hi + 1 - lo) = q at *
  generalize w / p = x at *
  generalize x / q = y at *
  generalize x % q = z at *
  subst h2
  have : w = z * p + (w % p + y * (p * q)) := by
    calc w = p * (q * y + z) + w % p := h1.symm
      _ = z * p + (w % p + y * (p * q)) := by ring
  omega

theorem bits_lt (w hi lo : Nat) : bits w hi lo < 2 ^ (hi + 1 - lo) := Nat.mod_lt _ (Nat.two_pow_pos _)

/-- A field written reads back. -/
@[simp] theorem bits_setBits_same (w hi lo v : Nat) (h : lo ≤ hi) :
    bits (setBits w hi lo v) hi lo = v % 2 ^ (hi + 1 - lo) := by
  have hp : 2 ^ (hi + 1) = 2 ^ (hi + 1 - lo) * 2 ^ lo := by rw [← pow_add]; congr 1; omega
  have hm := Nat.mod_lt w (Nat.two_pow_pos lo)
  rw [setBits_eq w hi lo v h, bits, hp, ← mul_assoc, add_assoc, ← add_mul,
    Nat.add_mul_div_right _ _ (Nat.two_pow_pos lo), Nat.div_eq_of_lt hm, Nat.zero_add, Nat.add_mul_mod_self_right,
    Nat.mod_mod]

/-- A field below the one written keeps its value. -/
theorem bits_setBits_below (w hi lo v hi' lo' : Nat) (h : lo ≤ hi) (h' : hi' < lo) (hl : lo' ≤ hi') :
    bits (setBits w hi lo v) hi' lo' = bits w hi' lo' := by
  have e : ∀ x : Nat, bits x hi' lo' = x % 2 ^ (hi' + 1) / 2 ^ lo' := by
    intro x
    have hp : 2 ^ (hi' + 1) = 2 ^ lo' * 2 ^ (hi' + 1 - lo') := by rw [← pow_add]; congr 1; omega
    rw [bits, hp, Nat.mod_mul_right_div_self]
  have d1 : 2 ^ (hi' + 1) ∣ 2 ^ lo := pow_dvd_pow 2 (by omega)
  have d2 : 2 ^ (hi' + 1) ∣ 2 ^ (hi + 1) := pow_dvd_pow 2 (by omega)
  rw [e, e, setBits_eq w hi lo v h]
  congr 1
  rw [Nat.add_mod, Nat.add_mod (w % 2 ^ lo), Nat.mod_eq_zero_of_dvd (Dvd.dvd.mul_left d1 _),
    Nat.mod_eq_zero_of_dvd (Dvd.dvd.mul_left d2 _)]
  simp [Nat.mod_mod_of_dvd w d1]

/-- A field above the one written keeps its value. -/
theorem bits_setBits_above (w hi lo v hi' lo' : Nat) (h : lo ≤ hi) (h' : hi < lo') :
    bits (setBits w hi lo v) hi' lo' = bits w hi' lo' := by
  have hp : 2 ^ (hi + 1) = 2 ^ lo * 2 ^ (hi + 1 - lo) := by rw [← pow_add]; congr 1; omega
  have key : setBits w hi lo v / 2 ^ (hi + 1) = w / 2 ^ (hi + 1) := by
    rw [setBits_eq w hi lo v h, Nat.add_mul_div_right _ _ (Nat.two_pow_pos _), Nat.div_eq_of_lt, Nat.zero_add]
    have h1 := Nat.mod_lt w (Nat.two_pow_pos lo)
    have h2 := Nat.mod_lt v (Nat.two_pow_pos (hi + 1 - lo))
    rw [hp]
    calc w % 2 ^ lo + v % 2 ^ (hi + 1 - lo) * 2 ^ lo < 2 ^ lo + v % 2 ^ (hi + 1 - lo) * 2 ^ lo := by omega
      _ = (v % 2 ^ (hi + 1 - lo) + 1) * 2 ^ lo := by ring
      _ ≤ 2 ^ (hi + 1 - lo) * 2 ^ lo := Nat.mul_le_mul_right _ h2
      _ = 2 ^ lo * 2 ^ (hi + 1 - lo) := mul_comm _ _
  have hq : 2 ^ lo' = 2 ^ (hi + 1) * 2 ^ (lo' - (hi + 1)) := by rw [← pow_add]; congr 1; omega
  rw [bits, bits, hq, ← Nat.div_div_eq_div_mul, key, Nat.div_div_eq_div_mul]

theorem setBits_lt (w hi lo v : Nat) (h : lo ≤ hi) (hi32 : hi < 32) (hw : w < 2 ^ 32) : setBits w hi lo v < 2 ^ 32 := by
  have hp : 2 ^ (hi + 1) = 2 ^ lo * 2 ^ (hi + 1 - lo) := by rw [← pow_add]; congr 1; omega
  have key : setBits w hi lo v / 2 ^ 32 = w / 2 ^ 32 := by
    have a := bits_setBits_above w hi lo v (31 + 64) 32 h hi32
    have hq : (2 : Nat) ^ 32 = 2 ^ (hi + 1) * 2 ^ (32 - (hi + 1)) := by rw [← pow_add]; congr 1; omega
    rw [hq, ← Nat.div_div_eq_div_mul, ← Nat.div_div_eq_div_mul]
    congr 1
    rw [setBits_eq w hi lo v h, Nat.add_mul_div_right _ _ (Nat.two_pow_pos _), Nat.div_eq_of_lt, Nat.zero_add]
    have h1 := Nat.mod_lt w (Nat.two_pow_pos lo)
    have h2 := Nat.mod_lt v (Nat.two_pow_pos (hi + 1 - lo))
    rw [hp]
    calc w % 2 ^ lo + v % 2 ^ (hi + 1 - lo) * 2 ^ lo < 2 ^ lo + v % 2 ^ (hi + 1 - lo) * 2 ^ lo := by omega
      _ = (v % 2 ^ (hi + 1 - lo) + 1) * 2 ^ lo := by ring
      _ ≤ 2 ^ (hi + 1 - lo) * 2 ^ lo := Nat.mul_le_mul_right _ h2
      _ = 2 ^ lo * 2 ^ (hi + 1 - lo) := mul_comm _ _
  rw [Nat.div_eq_of_lt hw] at key
  exact Nat.lt_of_div_eq_zero (Nat.two_pow_pos 32) key

/-- A bit of a value is its one-bit field. -/
theorem bit_eq_bits (w i : Nat) : bit w i = decide (bits w i i = 1) := by
  rw [bit, bits, Nat.testBit_eq_decide_div_mod_eq, show i + 1 - i = 1 by omega, pow_one]

/-! ## Registers -/

theorem rd_lt (s : State) (off : Nat) : rd s off < 2 ^ 32 := (smGet regReset s.regs off).isLt

/-- A register written by the hardware reads as the value written, every other register as before. -/
theorem rd_wr (s : State) (off v o : Nat) : rd (wr s off v) o = if o = off then v % 2 ^ 32 else rd s o := by
  rw [rd, wr, smGet_smSet]
  split
  · simp
  · rfl

@[simp] theorem rd_wr_same (s : State) (off v : Nat) : rd (wr s off v) off = v % 2 ^ 32 := by simp [rd_wr]

theorem rd_wr_other (s : State) {off o : Nat} (v : Nat) (h : o ≠ off) : rd (wr s off v) o = rd s o := by
  simp [rd_wr, h]

/-- A write to a register is seen by nothing but its read. -/
theorem wr_rest (s : State) (off v : Nat) : wr s off v = { s with regs := (wr s off v).regs } := rfl

theorem rd_setFld (s : State) (off hi lo v o : Nat) (h : lo ≤ hi) (hi32 : hi < 32) :
    rd (setFld s off hi lo v) o = if o = off then setBits (rd s off) hi lo v else rd s o := by
  rw [setFld, rd_wr]
  split
  · exact Nat.mod_eq_of_lt (setBits_lt _ _ _ _ h hi32 (rd_lt s off))
  · rfl

theorem rd_setFld_other (s : State) {off o : Nat} (hi lo v : Nat) (h : o ≠ off) :
    rd (setFld s off hi lo v) o = rd s o := rd_wr_other s _ h

/-- A field written reads back; other fields of the register are kept. -/
theorem fld_setFld_same (s : State) (off hi lo v : Nat) (h : lo ≤ hi) (hi32 : hi < 32) :
    fld (setFld s off hi lo v) off hi lo = v % 2 ^ (hi + 1 - lo) := by
  rw [fld, rd_setFld s off hi lo v off h hi32, if_pos rfl, bits_setBits_same _ _ _ _ h]

theorem fld_setFld_above (s : State) (off hi lo v hi' lo' : Nat) (h : lo ≤ hi) (hi32 : hi < 32) (h' : hi < lo') :
    fld (setFld s off hi lo v) off hi' lo' = fld s off hi' lo' := by
  rw [fld, rd_setFld s off hi lo v off h hi32, if_pos rfl, bits_setBits_above _ _ _ _ _ _ h h', fld]

theorem fld_setFld_below (s : State) (off hi lo v hi' lo' : Nat) (h : lo ≤ hi) (hi32 : hi < 32) (h' : hi' < lo)
    (hl : lo' ≤ hi') : fld (setFld s off hi lo v) off hi' lo' = fld s off hi' lo' := by
  rw [fld, rd_setFld s off hi lo v off h hi32, if_pos rfl, bits_setBits_below _ _ _ _ _ _ h h' hl, fld]

theorem fld_setFld_other (s : State) {off o : Nat} (hi lo v hi' lo' : Nat) (h : o ≠ off) :
    fld (setFld s off hi lo v) o hi' lo' = fld s o hi' lo' := by
  rw [fld, rd_setFld_other s hi lo v h, fld]

theorem fld_wr_other (s : State) {off o : Nat} (v hi lo : Nat) (h : o ≠ off) : fld (wr s off v) o hi lo = fld s o hi lo := by
  rw [fld, rd_wr_other s v h, fld]

theorem flag_setFlag_same (s : State) (off i : Nat) (b : Bool) (h : i < 32) : flag (setFlag s off i b) off i = b := by
  have := fld_setFld_same s off i i (ofBool b) le_rfl h
  rw [flag, bit_eq_bits]
  rw [fld] at this
  rw [setFlag, this, show i + 1 - i = 1 by omega]
  cases b <;> decide

theorem flag_setFlag_other (s : State) {off o : Nat} (i j : Nat) (b : Bool) (h : o ≠ off) :
    flag (setFlag s off i b) o j = flag s o j := by
  rw [flag, setFlag, rd_setFld_other s i i _ h, flag]

/-- A counter register adds and wraps. -/
theorem rd_addReg (s : State) (off n o : Nat) :
    rd (addReg s off n) o = if o = off then (rd s off + n) % 2 ^ 32 else rd s o := by
  rw [addReg, rd_wr]

theorem rd_wr64 (s : State) (lo hi v o : Nat) :
    rd (wr64 s lo hi v) o = if o = hi then v / 2 ^ 32 % 2 ^ 32 else if o = lo then v % 2 ^ 32 else rd s o := by
  rw [wr64, rd_wr, rd_wr]

end Sys2Proof.Machine
end

