-- ==== Sys2Proof/Laws/Events.lean ====
section
/-!
SUPPORT. Laws/Events.lean: what the raising of an event may change (`EventsOnly`), said once of every operation it is
made of (R170 to R175).
-/

namespace Sys2Proof.Machine

theorem EventsOnly.refl (s : State) : EventsOnly s s := ⟨fun _ _ => rfl, rfl⟩

theorem EventsOnly.trans {a b c : State} (h : EventsOnly a b) (k : EventsOnly b c) : EventsOnly a c := by
  refine ⟨fun off ho => (k.regs off ho).trans (h.regs off ho), ?_⟩
  obtain ⟨-, hb⟩ := h
  obtain ⟨-, hc⟩ := k
  rw [hc, hb]

theorem EventsOnly.ite {a x y : State} {c : Prop} [Decidable c] (hx : EventsOnly a x) (hy : EventsOnly a y) :
    EventsOnly a (if c then x else y) := by
  split
  · exact hx
  · exact hy

theorem EventsOnly.foldl {a : State} {β : Type} {f : State → β → State} (l : List β) {s : State} (h : EventsOnly a s)
    (hf : ∀ t x, EventsOnly a t → EventsOnly a (f t x)) : EventsOnly a (l.foldl f s) := by
  induction l generalizing s with
  | nil => exact h
  | cons x l ih => exact ih (hf s x h)

variable {a s : State}

theorem EventsOnly.wr (off v : Nat) (ho : eventReg off = true) (h : EventsOnly a s) : EventsOnly a (wr s off v) := by
  refine h.trans ⟨fun o hn => rd_wr_other s v ?_, rfl⟩
  rintro rfl
  rw [ho] at hn
  cases hn

theorem EventsOnly.marked (x : SMap Nat) (h : EventsOnly a s) :
    EventsOnly a { s with rng := { s.rng with posted := x } } := h.trans ⟨fun _ _ => rfl, rfl⟩

theorem markOnce_events (code key : Nat) (h : EventsOnly a s) : EventsOnly a (markOnce code key s) :=
  h.trans ⟨fun _ _ => rfl, rfl⟩

theorem setPort_events (p : Nat) (x : PortSt) (h : EventsOnly a s) : EventsOnly a (setPort p x s) :=
  h.trans ⟨fun _ _ => rfl, rfl⟩

theorem b2Write_events (x : Nat) (bs : List Byte) (h : EventsOnly a s) : EventsOnly a (b2Write s x bs) :=
  h.trans ⟨fun _ _ => rfl, rfl⟩

theorem memStore_events (sp x : Nat) (bs : List Byte) (h : EventsOnly a s) : EventsOnly a (memStore s sp x bs) := by
  unfold memStore keepOld
  dsimp only
  split
  · exact h.trans ⟨fun _ _ => rfl, rfl⟩
  · exact h.trans ⟨fun _ _ => rfl, rfl⟩

theorem setDram_events (c : Nat) (x : DmcSt) (h : EventsOnly a s) : EventsOnly a (setDram c x s) :=
  h.trans ⟨fun _ _ => rfl, rfl⟩

theorem granaryHeal_events (x n : Nat) (h : EventsOnly a s) : EventsOnly a (granaryHeal x n s) :=
  h.trans ⟨fun _ _ => rfl, rfl⟩

theorem portCharge_events (p b : Nat) (urgent : Bool) (h : EventsOnly a s) : EventsOnly a (portCharge p b urgent s) :=
  setPort_events _ _ h

theorem eventReg_iff (off : Nat) :
    eventReg off = true ↔ (0x82800 ≤ off ∧ off < 0x82900 ∧ 0xC ≤ off % 0x40 ∧ off % 0x40 ≤ 0x14) ∨
      (0x90400 ≤ off ∧ off < 0x90840) ∨ off = 0xA1404 ∨ (0xA1410 ≤ off ∧ off ≤ 0xA1420) ∨ off = 0x500010 ∨ off = 0x500018 ∨
      (0x400000 ≤ off ∧ off < 0x480000 ∧ (off % 0x10000 = 0 ∨ off % 0x10000 = 0x14)) := by
  rw [eventReg]; exact decide_eq_true_iff

theorem eventReg_count {c : Nat} (h : c < 256) : eventReg (R.EVT_COUNT c) = true := by
  rw [eventReg_iff, R.EVT_COUNT]; omega

theorem eventReg_ring {e k : Nat} (h : e < 4) (hk : 0xC ≤ k ∧ k ≤ 0x14) : eventReg (ringBase (96 + e) + k) = true := by
  rw [eventReg_iff, ringBase, if_neg (by omega), if_neg (by omega)]; omega

theorem eventReg_pin {p : Nat} (h : p < 4) : eventReg (R.EVT_PIN_STATUS p) = true ∧ eventReg (R.EVT_PIN_COUNT p) = true := by
  rw [eventReg_iff, eventReg_iff, R.EVT_PIN_STATUS, R.EVT_PIN_COUNT]; omega

theorem eventReg_chan {c : Nat} (h : c < 8) :
    eventReg (R.DMC_CH_STATUS c) = true ∧ eventReg (R.DMC_CH_TRACKS c) = true := by
  rw [eventReg_iff, eventReg_iff, R.DMC_CH_STATUS, R.DMC_CH_TRACKS]; omega

theorem dmcChannels_le (p : Part) : Config.dmcChannels p ≤ 8 := by cases p <;> decide

theorem chanOf_lt (s : State) (x : Nat) : chanOf s x < 8 :=
  Nat.lt_of_lt_of_le (Nat.mod_lt _ (by cases s.part <;> decide)) (dmcChannels_le s.part)

/-- The channels that a span reaches exist. -/
theorem spanChannels_lt (s : State) (x n : Nat) {c : Nat} (h : c ∈ spanChannels s x n) : c < 8 := by
  unfold spanChannels at h
  split at h
  · exact Nat.lt_of_lt_of_le (List.mem_range.1 h) (dmcChannels_le s.part)
  · split at h
    · cases h
    · rw [List.mem_eraseDups, List.mem_map] at h
      obtain ⟨k, -, rfl⟩ := h
      exact chanOf_lt s _

theorem chanRequest_events {c : Nat} (hc : c < 8) (h : EventsOnly a s) : EventsOnly a (chanRequest c s) := by
  unfold chanRequest
  dsimp only
  split
  · exact setDram_events _ _ ((EventsOnly.ite (h.wr _ _ (eventReg_chan hc).2) h).wr _ _ (eventReg_chan hc).1)
  · exact setDram_events _ _ h

/-- A fold over things that have a property. -/
theorem EventsOnly.foldlMem {β : Type} {f : State → β → State} (l : List β) {p : β → Prop} (hp : ∀ x ∈ l, p x)
    (h : EventsOnly a s) (hf : ∀ t x, p x → EventsOnly a t → EventsOnly a (f t x)) : EventsOnly a (l.foldl f s) := by
  induction l generalizing s with
  | nil => exact h
  | cons x l ih => exact ih (fun y hy => hp y (.tail _ hy)) (hf s x (hp x (.head _)) h)

theorem cellarRequest_events (x n : Nat) (h : EventsOnly a s) : EventsOnly a (cellarRequest x n s) :=
  h.foldlMem _ (fun _ hc => spanChannels_lt s x n hc) (fun _ _ hc ht => chanRequest_events hc ht)

theorem portEnter_events (port sp : Nat) (urgent : Bool) (ps : List GPart) (h : EventsOnly a s) :
    EventsOnly a (portEnter port sp urgent ps s) :=
  EventsOnly.ite (EventsOnly.foldl _ (portCharge_events _ _ _ h) (fun _ _ ht => cellarRequest_events _ _ ht)) h

theorem msixSignal_events (v : Nat) (h : EventsOnly a s) : EventsOnly a (msixSignal v s) := by
  unfold msixSignal
  dsimp only
  split
  · exact b2Write_events _ _ h
  · exact EventsOnly.ite (memStore_events _ _ _ h) h

theorem pinRoute_events {p : Nat} (code : Nat) (hp : p < 4) (h : EventsOnly a s) : EventsOnly a (pinRoute p code s) := by
  have h1 : EventsOnly a (addReg s (R.EVT_PIN_COUNT p) 1) := h.wr _ _ (eventReg_pin hp).2
  exact EventsOnly.ite h1 (h1.wr _ _ (eventReg_pin hp).1)

theorem ringAdvance_events {e : Nat} (hu : e < 4) (h : EventsOnly a s) : EventsOnly a (ringAdvance (96 + e) s) := by
  have h1 : EventsOnly a (addFld s (ringIndex (96 + e)) 15 0 1) := h.wr _ _ (eventReg_ring hu (by decide))
  have h2 := h1.marked
  exact EventsOnly.ite (msixSignal_events _ (h2 _)) (h2 _)

theorem guardNote_events (sp : Nat) (write : Bool) (p : GPart) (h : EventsOnly a s) :
    EventsOnly a (guardNote s 5 sp write p) := by
  have h1 : EventsOnly a (addReg s (if write then R.GRD_DENIED_WRITES 5 else R.GRD_DENIED_READS 5) 1) :=
    h.wr _ _ (by cases write <;> decide)
  exact EventsOnly.ite h1 (((h1.wr _ _ (by decide)).wr _ _ (by decide)).wr _ _ (by decide) |>.wr _ _ (by decide))

variable {again : Ev → State → State}

theorem onceWith_events (key : Nat) (ev : Ev) (hc : ev.code < 256)
    (ha : ∀ ev s, ev.code < 256 → EventsOnly a s → EventsOnly a (again ev s)) (h : EventsOnly a s) :
    EventsOnly a (onceWith again key ev s) :=
  EventsOnly.ite (h.wr _ _ (eventReg_count hc)) (ha _ _ hc (markOnce_events _ _ h))

theorem guardDenials_events (sp : Nat) (write : Bool) (ps : List GPart)
    (ha : ∀ ev s, ev.code < 256 → EventsOnly a s → EventsOnly a (again ev s)) (h : EventsOnly a s) :
    EventsOnly a (guardDenials again 5 sp write ps s) := by
  refine EventsOnly.foldl _ h (fun t p ht => onceWith_events _ _ ?_ ha (guardNote_events _ _ _ ht))
  cases write <;> simp

theorem storeParts_events (sp x : Nat) (bs : List Byte) (ps : List GPart) (h : EventsOnly a s) :
    EventsOnly a (storeParts sp x bs ps s).1 := by
  induction ps generalizing s with
  | nil => exact h
  | cons p ps ih =>
    unfold storeParts
    split
    · split
      · exact ih (memStore_events _ _ _ h)
      · exact ih h
    · exact ih h

theorem dmaWriteWith_events (port sp x : Nat) (bs : List Byte)
    (ha : ∀ ev s, ev.code < 256 → EventsOnly a s → EventsOnly a (again ev s)) (h : EventsOnly a s) :
    EventsOnly a (dmaWriteWith again 5 port sp x bs s).1 := by
  have h1 := guardDenials_events sp true (guardParts s 5 sp x bs.length .write) ha h
  exact storeParts_events _ _ _ _ (portEnter_events _ _ _ _ h1)

theorem ringFaultWith_events {e : Nat} (addr : Nat) (hu : e < 4)
    (ha : ∀ ev s, ev.code < 256 → EventsOnly a s → EventsOnly a (again ev s)) (h : EventsOnly a s) :
    EventsOnly a (ringFaultWith again (96 + e) addr s) := by
  have h1 : EventsOnly a (setFlag s (ringStatus (96 + e)) 5 true) := h.wr _ _ (eventReg_ring hu (by decide))
  have h2 : EventsOnly a (setFld (setFlag s (ringStatus (96 + e)) 5 true) (ringStatus (96 + e)) 1 0 0) :=
    h1.wr _ _ (eventReg_ring hu (by decide))
  exact ha _ _ (by decide : (9 : Nat) < 256) (ha _ _ (by decide : (9 : Nat) < 256) (ha _ _ (by decide : (3 : Nat) < 256) h2))

theorem granaryErrorWith_events (w : Nat) (ha : ∀ ev s, ev.code < 256 → EventsOnly a s → EventsOnly a (again ev s))
    (h : EventsOnly a s) : EventsOnly a (granaryErrorWith again w s) :=
  ha _ _ (by decide : (0x9D : Nat) < 256) ((h.wr _ _ (by decide)).wr _ _ (by decide))

theorem ringCacheMet_events (u : Nat) (ha : ∀ ev s, ev.code < 256 → EventsOnly a s → EventsOnly a (again ev s))
    (h : EventsOnly a s) : EventsOnly a (ringCacheMet again u s) :=
  EventsOnly.foldl _ (granaryHeal_events _ _ h) (fun _ _ ht => granaryErrorWith_events _ ha ht)

theorem eqPostWith_events {e : Nat} (ev : Ev) (he : e < 4)
    (ha : ∀ ev s, ev.code < 256 → EventsOnly a s → EventsOnly a (again ev s)) (h : EventsOnly a s) :
    EventsOnly a (eqPostWith again e ev s) := by
  have hl : eventReg (R.RNG_EQ_LOST e) = true := by
    rw [eventReg_iff, R.RNG_EQ_LOST]; omega
  refine EventsOnly.ite (h.wr _ _ hl) ?_
  unfold eqWriteWith
  dsimp only
  have h1 := dmaWriteWith_events 18 (ringSpace s (96 + e))
    (ringAddr s (96 + e) (fld s (ringIndex (96 + e)) 15 0) 32)
    (wordBytes (eventWords s (ringPhase s (96 + e)) (ringPosted s (96 + e)) ev)) ha (ringCacheMet_events (96 + e) ha h)
  split
  · exact ringAdvance_events he h1
  · exact ringFaultWith_events _ he ha h1

theorem eventSignals_events (code : Nat) (h : EventsOnly a s) : EventsOnly a (eventSignals code s) := by
  unfold eventSignals
  dsimp only
  exact EventsOnly.ite (pinRoute_events _ (bits_lt _ 17 16) (EventsOnly.ite (msixSignal_events _ h) h))
    (EventsOnly.ite (msixSignal_events _ h) h)

theorem raiseFuel_events (n : Nat) (ev : Ev) (hc : ev.code < 256) (h : EventsOnly a s) :
    EventsOnly a (raiseFuel n ev s) := by
  induction n generalizing ev s with
  | zero => exact h.wr _ _ (eventReg_count hc)
  | succ n ih =>
    unfold raiseFuel
    have h1 : EventsOnly a (addReg s (R.EVT_COUNT ev.code) 1) := h.wr _ _ (eventReg_count hc)
    generalize addReg s (R.EVT_COUNT ev.code) 1 = s1 at h1
    exact eventSignals_events _
      (EventsOnly.ite (eqPostWith_events _ (bits_lt _ 13 12) (fun ev s hc hs => ih ev hc hs) h1) h1)

/-- Raising an event changes nothing but what belongs to events. -/
theorem raise_events (ev : Ev) (hc : ev.code < 256) (s : State) : EventsOnly s (raise ev s) :=
  raiseFuel_events 16 ev hc (EventsOnly.refl s)

theorem raiseOnce_events (key : Nat) (ev : Ev) (hc : ev.code < 256) (s : State) : EventsOnly s (raiseOnce key ev s) :=
  onceWith_events key ev hc (fun ev _ hc h => h.trans (raise_events ev hc _)) (EventsOnly.refl s)

/-- A register outside the events' own reads as before. -/
theorem rd_raise (ev : Ev) (hc : ev.code < 256) (s : State) {off : Nat} (ho : eventReg off = false) :
    rd (raise ev s) off = rd s off := (raise_events ev hc s).regs off ho

theorem rd_raiseOnce (key : Nat) (ev : Ev) (hc : ev.code < 256) (s : State) {off : Nat} (ho : eventReg off = false) :
    rd (raiseOnce key ev s) off = rd s off := (raiseOnce_events key ev hc s).regs off ho

/-! Every other field is the same after an event. -/

@[simp] theorem raise_pending (ev : Ev) (hc : ev.code < 256) (s : State) : (raise ev s).pending = s.pending := by
  rw [(raise_events ev hc s).rest]
@[simp] theorem raise_part (ev : Ev) (hc : ev.code < 256) (s : State) : (raise ev s).part = s.part := by
  rw [(raise_events ev hc s).rest]
@[simp] theorem raise_supply (ev : Ev) (hc : ev.code < 256) (s : State) : (raise ev s).supply = s.supply := by
  rw [(raise_events ev hc s).rest]
@[simp] theorem raise_porst (ev : Ev) (hc : ev.code < 256) (s : State) : (raise ev s).porst = s.porst := by
  rw [(raise_events ev hc s).rest]
@[simp] theorem raise_linkUp (ev : Ev) (hc : ev.code < 256) (s : State) : (raise ev s).linkUp = s.linkUp := by
  rw [(raise_events ev hc s).rest]
@[simp] theorem raise_latched (ev : Ev) (hc : ev.code < 256) (s : State) : (raise ev s).latched = s.latched := by
  rw [(raise_events ev hc s).rest]
@[simp] theorem raise_wide (ev : Ev) (hc : ev.code < 256) (s : State) : (raise ev s).wide = s.wide := by
  rw [(raise_events ev hc s).rest]
@[simp] theorem raise_clock (ev : Ev) (hc : ev.code < 256) (s : State) : (raise ev s).clock = s.clock := by
  rw [(raise_events ev hc s).rest]
@[simp] theorem raise_elapsed (ev : Ev) (hc : ev.code < 256) (s : State) : (raise ev s).elapsed = s.elapsed := by
  rw [(raise_events ev hc s).rest]
@[simp] theorem raise_updates (ev : Ev) (hc : ev.code < 256) (s : State) : (raise ev s).updates = s.updates := by
  rw [(raise_events ev hc s).rest]
@[simp] theorem raise_granary (ev : Ev) (hc : ev.code < 256) (s : State) : (raise ev s).granary = s.granary := by
  rw [(raise_events ev hc s).rest]
@[simp] theorem raise_losses (ev : Ev) (hc : ev.code < 256) (s : State) : (raise ev s).losses = s.losses := by
  rw [(raise_events ev hc s).rest]
@[simp] theorem raise_draws (ev : Ev) (hc : ev.code < 256) (s : State) : (raise ev s).draws = s.draws := by
  rw [(raise_events ev hc s).rest]
@[simp] theorem raise_husks (ev : Ev) (hc : ev.code < 256) (s : State) : (raise ev s).husks = s.husks := by
  rw [(raise_events ev hc s).rest]
@[simp] theorem raise_accepted (ev : Ev) (hc : ev.code < 256) (s : State) : (raise ev s).accepted = s.accepted := by
  rw [(raise_events ev hc s).rest]
@[simp] theorem raise_faults (ev : Ev) (hc : ev.code < 256) (s : State) : (raise ev s).faults = s.faults := by
  rw [(raise_events ev hc s).rest]
@[simp] theorem raise_mismatches (ev : Ev) (hc : ev.code < 256) (s : State) : (raise ev s).mismatches = s.mismatches := by
  rw [(raise_events ev hc s).rest]
@[simp] theorem raise_damage (ev : Ev) (hc : ev.code < 256) (s : State) : (raise ev s).damage = s.damage := by
  rw [(raise_events ev hc s).rest]
@[simp] theorem raise_chans (ev : Ev) (hc : ev.code < 256) (s : State) : (raise ev s).chans = s.chans := by
  rw [(raise_events ev hc s).rest]
@[simp] theorem raise_flows (ev : Ev) (hc : ev.code < 256) (s : State) : (raise ev s).flows = s.flows := by
  rw [(raise_events ev hc s).rest]
@[simp] theorem raise_engineCycles (ev : Ev) (hc : ev.code < 256) (s : State) : (raise ev s).engineCycles = s.engineCycles := by
  rw [(raise_events ev hc s).rest]
@[simp] theorem raise_macTx (ev : Ev) (hc : ev.code < 256) (s : State) : (raise ev s).macTx = s.macTx := by
  rw [(raise_events ev hc s).rest]
@[simp] theorem raise_layers (ev : Ev) (hc : ev.code < 256) (s : State) : (raise ev s).layers = s.layers := by
  rw [(raise_events ev hc s).rest]
@[simp] theorem raise_heads (ev : Ev) (hc : ev.code < 256) (s : State) : (raise ev s).heads = s.heads := by
  rw [(raise_events ev hc s).rest]
@[simp] theorem raise_lanes (ev : Ev) (hc : ev.code < 256) (s : State) : (raise ev s).lanes = s.lanes := by
  rw [(raise_events ev hc s).rest]
@[simp] theorem raise_shf (ev : Ev) (hc : ev.code < 256) (s : State) : (raise ev s).shf = s.shf := by
  rw [(raise_events ev hc s).rest]
@[simp] theorem raise_tim (ev : Ev) (hc : ev.code < 256) (s : State) : (raise ev s).tim = s.tim := by
  rw [(raise_events ev hc s).rest]
@[simp] theorem raise_flights (ev : Ev) (hc : ev.code < 256) (s : State) : (raise ev s).flights = s.flights := by
  rw [(raise_events ev hc s).rest]
@[simp] theorem raise_lcs (ev : Ev) (hc : ev.code < 256) (s : State) : (raise ev s).lcs = s.lcs := by
  rw [(raise_events ev hc s).rest]
@[simp] theorem raise_pwr (ev : Ev) (hc : ev.code < 256) (s : State) : (raise ev s).pwr = s.pwr := by
  rw [(raise_events ev hc s).rest]
@[simp] theorem raise_tch (ev : Ev) (hc : ev.code < 256) (s : State) : (raise ev s).tch = s.tch := by
  rw [(raise_events ev hc s).rest]
@[simp] theorem raise_encs (ev : Ev) (hc : ev.code < 256) (s : State) : (raise ev s).encs = s.encs := by
  rw [(raise_events ev hc s).rest]
@[simp] theorem raise_jobBytes (ev : Ev) (hc : ev.code < 256) (s : State) : (raise ev s).jobBytes = s.jobBytes := by
  rw [(raise_events ev hc s).rest]
@[simp] theorem raise_chkTurns (ev : Ev) (hc : ev.code < 256) (s : State) : (raise ev s).chkTurns = s.chkTurns := by
  rw [(raise_events ev hc s).rest]
@[simp] theorem raise_chkAt (ev : Ev) (hc : ev.code < 256) (s : State) : (raise ev s).chkAt = s.chkAt := by
  rw [(raise_events ev hc s).rest]
@[simp] theorem raise_response (ev : Ev) (hc : ev.code < 256) (s : State) : (raise ev s).response = s.response := by
  rw [(raise_events ev hc s).rest]
@[simp] theorem raise_debugResponse (ev : Ev) (hc : ev.code < 256) (s : State) : (raise ev s).debugResponse = s.debugResponse := by
  rw [(raise_events ev hc s).rest]
@[simp] theorem raise_rng_cmds (ev : Ev) (hc : ev.code < 256) (s : State) : (raise ev s).rng.cmds = s.rng.cmds := by
  rw [(raise_events ev hc s).rest]
@[simp] theorem raise_rng_lastServed (ev : Ev) (hc : ev.code < 256) (s : State) : (raise ev s).rng.lastServed = s.rng.lastServed := by
  rw [(raise_events ev hc s).rest]
@[simp] theorem raise_rng_offAt (ev : Ev) (hc : ev.code < 256) (s : State) : (raise ev s).rng.offAt = s.rng.offAt := by
  rw [(raise_events ev hc s).rest]
@[simp] theorem raise_cell_keepRetained (ev : Ev) (hc : ev.code < 256) (s : State) : (raise ev s).cell.keepRetained = s.cell.keepRetained := by
  rw [(raise_events ev hc s).rest]
@[simp] theorem raise_cell_scrubAt (ev : Ev) (hc : ev.code < 256) (s : State) : (raise ev s).cell.scrubAt = s.cell.scrubAt := by
  rw [(raise_events ev hc s).rest]
@[simp] theorem raise_cell_scrubFrom (ev : Ev) (hc : ev.code < 256) (s : State) : (raise ev s).cell.scrubFrom = s.cell.scrubFrom := by
  rw [(raise_events ev hc s).rest]
@[simp] theorem raise_cell_keepMask (ev : Ev) (hc : ev.code < 256) (s : State) : (raise ev s).cell.keepMask = s.cell.keepMask := by
  rw [(raise_events ev hc s).rest]
@[simp] theorem raise_cell_linkErrs (ev : Ev) (hc : ev.code < 256) (s : State) : (raise ev s).cell.linkErrs = s.cell.linkErrs := by
  rw [(raise_events ev hc s).rest]
@[simp] theorem raise_tck_next (ev : Ev) (hc : ev.code < 256) (s : State) : (raise ev s).tck.next = s.tck.next := by
  rw [(raise_events ev hc s).rest]
@[simp] theorem raise_tck_first (ev : Ev) (hc : ev.code < 256) (s : State) : (raise ev s).tck.first = s.tck.first := by
  rw [(raise_events ev hc s).rest]
@[simp] theorem raise_tck_everSealed (ev : Ev) (hc : ev.code < 256) (s : State) : (raise ev s).tck.everSealed = s.tck.everSealed := by
  rw [(raise_events ev hc s).rest]
@[simp] theorem raise_tck_lastN (ev : Ev) (hc : ev.code < 256) (s : State) : (raise ev s).tck.lastN = s.tck.lastN := by
  rw [(raise_events ev hc s).rest]
@[simp] theorem raise_tck_lastRebase (ev : Ev) (hc : ev.code < 256) (s : State) : (raise ev s).tck.lastRebase = s.tck.lastRebase := by
  rw [(raise_events ev hc s).rest]
@[simp] theorem raise_tck_lastT (ev : Ev) (hc : ev.code < 256) (s : State) : (raise ev s).tck.lastT = s.tck.lastT := by
  rw [(raise_events ev hc s).rest]
@[simp] theorem raise_tck_lastU (ev : Ev) (hc : ev.code < 256) (s : State) : (raise ev s).tck.lastU = s.tck.lastU := by
  rw [(raise_events ev hc s).rest]
@[simp] theorem raise_tck_entries (ev : Ev) (hc : ev.code < 256) (s : State) : (raise ev s).tck.entries = s.tck.entries := by
  rw [(raise_events ev hc s).rest]
@[simp] theorem raise_tck_engineLimit (ev : Ev) (hc : ev.code < 256) (s : State) : (raise ev s).tck.engineLimit = s.tck.engineLimit := by
  rw [(raise_events ev hc s).rest]
@[simp] theorem raise_tck_capStage (ev : Ev) (hc : ev.code < 256) (s : State) : (raise ev s).tck.capStage = s.tck.capStage := by
  rw [(raise_events ev hc s).rest]
@[simp] theorem raise_tck_faults (ev : Ev) (hc : ev.code < 256) (s : State) : (raise ev s).tck.faults = s.tck.faults := by
  rw [(raise_events ev hc s).rest]
@[simp] theorem raise_tck_totals (ev : Ev) (hc : ev.code < 256) (s : State) : (raise ev s).tck.totals = s.tck.totals := by
  rw [(raise_events ev hc s).rest]
@[simp] theorem raise_tck_beatMissed (ev : Ev) (hc : ev.code < 256) (s : State) : (raise ev s).tck.beatMissed = s.tck.beatMissed := by
  rw [(raise_events ev hc s).rest]

@[simp] theorem raiseOnce_pending (key : Nat) (ev : Ev) (hc : ev.code < 256) (s : State) : (raiseOnce key ev s).pending = s.pending := by
  rw [(raiseOnce_events key ev hc s).rest]
@[simp] theorem raiseOnce_part (key : Nat) (ev : Ev) (hc : ev.code < 256) (s : State) : (raiseOnce key ev s).part = s.part := by
  rw [(raiseOnce_events key ev hc s).rest]
@[simp] theorem raiseOnce_supply (key : Nat) (ev : Ev) (hc : ev.code < 256) (s : State) : (raiseOnce key ev s).supply = s.supply := by
  rw [(raiseOnce_events key ev hc s).rest]
@[simp] theorem raiseOnce_porst (key : Nat) (ev : Ev) (hc : ev.code < 256) (s : State) : (raiseOnce key ev s).porst = s.porst := by
  rw [(raiseOnce_events key ev hc s).rest]
@[simp] theorem raiseOnce_linkUp (key : Nat) (ev : Ev) (hc : ev.code < 256) (s : State) : (raiseOnce key ev s).linkUp = s.linkUp := by
  rw [(raiseOnce_events key ev hc s).rest]
@[simp] theorem raiseOnce_latched (key : Nat) (ev : Ev) (hc : ev.code < 256) (s : State) : (raiseOnce key ev s).latched = s.latched := by
  rw [(raiseOnce_events key ev hc s).rest]
@[simp] theorem raiseOnce_wide (key : Nat) (ev : Ev) (hc : ev.code < 256) (s : State) : (raiseOnce key ev s).wide = s.wide := by
  rw [(raiseOnce_events key ev hc s).rest]
@[simp] theorem raiseOnce_clock (key : Nat) (ev : Ev) (hc : ev.code < 256) (s : State) : (raiseOnce key ev s).clock = s.clock := by
  rw [(raiseOnce_events key ev hc s).rest]
@[simp] theorem raiseOnce_elapsed (key : Nat) (ev : Ev) (hc : ev.code < 256) (s : State) : (raiseOnce key ev s).elapsed = s.elapsed := by
  rw [(raiseOnce_events key ev hc s).rest]
@[simp] theorem raiseOnce_updates (key : Nat) (ev : Ev) (hc : ev.code < 256) (s : State) : (raiseOnce key ev s).updates = s.updates := by
  rw [(raiseOnce_events key ev hc s).rest]
@[simp] theorem raiseOnce_granary (key : Nat) (ev : Ev) (hc : ev.code < 256) (s : State) : (raiseOnce key ev s).granary = s.granary := by
  rw [(raiseOnce_events key ev hc s).rest]
@[simp] theorem raiseOnce_losses (key : Nat) (ev : Ev) (hc : ev.code < 256) (s : State) : (raiseOnce key ev s).losses = s.losses := by
  rw [(raiseOnce_events key ev hc s).rest]
@[simp] theorem raiseOnce_draws (key : Nat) (ev : Ev) (hc : ev.code < 256) (s : State) : (raiseOnce key ev s).draws = s.draws := by
  rw [(raiseOnce_events key ev hc s).rest]
@[simp] theorem raiseOnce_husks (key : Nat) (ev : Ev) (hc : ev.code < 256) (s : State) : (raiseOnce key ev s).husks = s.husks := by
  rw [(raiseOnce_events key ev hc s).rest]
@[simp] theorem raiseOnce_accepted (key : Nat) (ev : Ev) (hc : ev.code < 256) (s : State) : (raiseOnce key ev s).accepted = s.accepted := by
  rw [(raiseOnce_events key ev hc s).rest]
@[simp] theorem raiseOnce_faults (key : Nat) (ev : Ev) (hc : ev.code < 256) (s : State) : (raiseOnce key ev s).faults = s.faults := by
  rw [(raiseOnce_events key ev hc s).rest]
@[simp] theorem raiseOnce_mismatches (key : Nat) (ev : Ev) (hc : ev.code < 256) (s : State) : (raiseOnce key ev s).mismatches = s.mismatches := by
  rw [(raiseOnce_events key ev hc s).rest]
@[simp] theorem raiseOnce_damage (key : Nat) (ev : Ev) (hc : ev.code < 256) (s : State) : (raiseOnce key ev s).damage = s.damage := by
  rw [(raiseOnce_events key ev hc s).rest]
@[simp] theorem raiseOnce_chans (key : Nat) (ev : Ev) (hc : ev.code < 256) (s : State) : (raiseOnce key ev s).chans = s.chans := by
  rw [(raiseOnce_events key ev hc s).rest]
@[simp] theorem raiseOnce_flows (key : Nat) (ev : Ev) (hc : ev.code < 256) (s : State) : (raiseOnce key ev s).flows = s.flows := by
  rw [(raiseOnce_events key ev hc s).rest]
@[simp] theorem raiseOnce_engineCycles (key : Nat) (ev : Ev) (hc : ev.code < 256) (s : State) : (raiseOnce key ev s).engineCycles = s.engineCycles := by
  rw [(raiseOnce_events key ev hc s).rest]
@[simp] theorem raiseOnce_macTx (key : Nat) (ev : Ev) (hc : ev.code < 256) (s : State) : (raiseOnce key ev s).macTx = s.macTx := by
  rw [(raiseOnce_events key ev hc s).rest]
@[simp] theorem raiseOnce_layers (key : Nat) (ev : Ev) (hc : ev.code < 256) (s : State) : (raiseOnce key ev s).layers = s.layers := by
  rw [(raiseOnce_events key ev hc s).rest]
@[simp] theorem raiseOnce_heads (key : Nat) (ev : Ev) (hc : ev.code < 256) (s : State) : (raiseOnce key ev s).heads = s.heads := by
  rw [(raiseOnce_events key ev hc s).rest]
@[simp] theorem raiseOnce_lanes (key : Nat) (ev : Ev) (hc : ev.code < 256) (s : State) : (raiseOnce key ev s).lanes = s.lanes := by
  rw [(raiseOnce_events key ev hc s).rest]
@[simp] theorem raiseOnce_shf (key : Nat) (ev : Ev) (hc : ev.code < 256) (s : State) : (raiseOnce key ev s).shf = s.shf := by
  rw [(raiseOnce_events key ev hc s).rest]
@[simp] theorem raiseOnce_tim (key : Nat) (ev : Ev) (hc : ev.code < 256) (s : State) : (raiseOnce key ev s).tim = s.tim := by
  rw [(raiseOnce_events key ev hc s).rest]
@[simp] theorem raiseOnce_flights (key : Nat) (ev : Ev) (hc : ev.code < 256) (s : State) : (raiseOnce key ev s).flights = s.flights := by
  rw [(raiseOnce_events key ev hc s).rest]
@[simp] theorem raiseOnce_lcs (key : Nat) (ev : Ev) (hc : ev.code < 256) (s : State) : (raiseOnce key ev s).lcs = s.lcs := by
  rw [(raiseOnce_events key ev hc s).rest]
@[simp] theorem raiseOnce_pwr (key : Nat) (ev : Ev) (hc : ev.code < 256) (s : State) : (raiseOnce key ev s).pwr = s.pwr := by
  rw [(raiseOnce_events key ev hc s).rest]
@[simp] theorem raiseOnce_tch (key : Nat) (ev : Ev) (hc : ev.code < 256) (s : State) : (raiseOnce key ev s).tch = s.tch := by
  rw [(raiseOnce_events key ev hc s).rest]
@[simp] theorem raiseOnce_encs (key : Nat) (ev : Ev) (hc : ev.code < 256) (s : State) : (raiseOnce key ev s).encs = s.encs := by
  rw [(raiseOnce_events key ev hc s).rest]
@[simp] theorem raiseOnce_jobBytes (key : Nat) (ev : Ev) (hc : ev.code < 256) (s : State) : (raiseOnce key ev s).jobBytes = s.jobBytes := by
  rw [(raiseOnce_events key ev hc s).rest]
@[simp] theorem raiseOnce_chkTurns (key : Nat) (ev : Ev) (hc : ev.code < 256) (s : State) : (raiseOnce key ev s).chkTurns = s.chkTurns := by
  rw [(raiseOnce_events key ev hc s).rest]
@[simp] theorem raiseOnce_chkAt (key : Nat) (ev : Ev) (hc : ev.code < 256) (s : State) : (raiseOnce key ev s).chkAt = s.chkAt := by
  rw [(raiseOnce_events key ev hc s).rest]
@[simp] theorem raiseOnce_response (key : Nat) (ev : Ev) (hc : ev.code < 256) (s : State) : (raiseOnce key ev s).response = s.response := by
  rw [(raiseOnce_events key ev hc s).rest]
@[simp] theorem raiseOnce_debugResponse (key : Nat) (ev : Ev) (hc : ev.code < 256) (s : State) : (raiseOnce key ev s).debugResponse = s.debugResponse := by
  rw [(raiseOnce_events key ev hc s).rest]
@[simp] theorem raiseOnce_rng_cmds (key : Nat) (ev : Ev) (hc : ev.code < 256) (s : State) : (raiseOnce key ev s).rng.cmds = s.rng.cmds := by
  rw [(raiseOnce_events key ev hc s).rest]
@[simp] theorem raiseOnce_rng_lastServed (key : Nat) (ev : Ev) (hc : ev.code < 256) (s : State) : (raiseOnce key ev s).rng.lastServed = s.rng.lastServed := by
  rw [(raiseOnce_events key ev hc s).rest]
@[simp] theorem raiseOnce_rng_offAt (key : Nat) (ev : Ev) (hc : ev.code < 256) (s : State) : (raiseOnce key ev s).rng.offAt = s.rng.offAt := by
  rw [(raiseOnce_events key ev hc s).rest]
@[simp] theorem raiseOnce_cell_keepRetained (key : Nat) (ev : Ev) (hc : ev.code < 256) (s : State) : (raiseOnce key ev s).cell.keepRetained = s.cell.keepRetained := by
  rw [(raiseOnce_events key ev hc s).rest]
@[simp] theorem raiseOnce_cell_scrubAt (key : Nat) (ev : Ev) (hc : ev.code < 256) (s : State) : (raiseOnce key ev s).cell.scrubAt = s.cell.scrubAt := by
  rw [(raiseOnce_events key ev hc s).rest]
@[simp] theorem raiseOnce_cell_scrubFrom (key : Nat) (ev : Ev) (hc : ev.code < 256) (s : State) : (raiseOnce key ev s).cell.scrubFrom = s.cell.scrubFrom := by
  rw [(raiseOnce_events key ev hc s).rest]
@[simp] theorem raiseOnce_cell_keepMask (key : Nat) (ev : Ev) (hc : ev.code < 256) (s : State) : (raiseOnce key ev s).cell.keepMask = s.cell.keepMask := by
  rw [(raiseOnce_events key ev hc s).rest]
@[simp] theorem raiseOnce_cell_linkErrs (key : Nat) (ev : Ev) (hc : ev.code < 256) (s : State) : (raiseOnce key ev s).cell.linkErrs = s.cell.linkErrs := by
  rw [(raiseOnce_events key ev hc s).rest]
@[simp] theorem raiseOnce_tck_next (key : Nat) (ev : Ev) (hc : ev.code < 256) (s : State) : (raiseOnce key ev s).tck.next = s.tck.next := by
  rw [(raiseOnce_events key ev hc s).rest]
@[simp] theorem raiseOnce_tck_first (key : Nat) (ev : Ev) (hc : ev.code < 256) (s : State) : (raiseOnce key ev s).tck.first = s.tck.first := by
  rw [(raiseOnce_events key ev hc s).rest]
@[simp] theorem raiseOnce_tck_everSealed (key : Nat) (ev : Ev) (hc : ev.code < 256) (s : State) : (raiseOnce key ev s).tck.everSealed = s.tck.everSealed := by
  rw [(raiseOnce_events key ev hc s).rest]
@[simp] theorem raiseOnce_tck_lastN (key : Nat) (ev : Ev) (hc : ev.code < 256) (s : State) : (raiseOnce key ev s).tck.lastN = s.tck.lastN := by
  rw [(raiseOnce_events key ev hc s).rest]
@[simp] theorem raiseOnce_tck_lastRebase (key : Nat) (ev : Ev) (hc : ev.code < 256) (s : State) : (raiseOnce key ev s).tck.lastRebase = s.tck.lastRebase := by
  rw [(raiseOnce_events key ev hc s).rest]
@[simp] theorem raiseOnce_tck_lastT (key : Nat) (ev : Ev) (hc : ev.code < 256) (s : State) : (raiseOnce key ev s).tck.lastT = s.tck.lastT := by
  rw [(raiseOnce_events key ev hc s).rest]
@[simp] theorem raiseOnce_tck_lastU (key : Nat) (ev : Ev) (hc : ev.code < 256) (s : State) : (raiseOnce key ev s).tck.lastU = s.tck.lastU := by
  rw [(raiseOnce_events key ev hc s).rest]
@[simp] theorem raiseOnce_tck_entries (key : Nat) (ev : Ev) (hc : ev.code < 256) (s : State) : (raiseOnce key ev s).tck.entries = s.tck.entries := by
  rw [(raiseOnce_events key ev hc s).rest]
@[simp] theorem raiseOnce_tck_engineLimit (key : Nat) (ev : Ev) (hc : ev.code < 256) (s : State) : (raiseOnce key ev s).tck.engineLimit = s.tck.engineLimit := by
  rw [(raiseOnce_events key ev hc s).rest]
@[simp] theorem raiseOnce_tck_capStage (key : Nat) (ev : Ev) (hc : ev.code < 256) (s : State) : (raiseOnce key ev s).tck.capStage = s.tck.capStage := by
  rw [(raiseOnce_events key ev hc s).rest]
@[simp] theorem raiseOnce_tck_faults (key : Nat) (ev : Ev) (hc : ev.code < 256) (s : State) : (raiseOnce key ev s).tck.faults = s.tck.faults := by
  rw [(raiseOnce_events key ev hc s).rest]
@[simp] theorem raiseOnce_tck_totals (key : Nat) (ev : Ev) (hc : ev.code < 256) (s : State) : (raiseOnce key ev s).tck.totals = s.tck.totals := by
  rw [(raiseOnce_events key ev hc s).rest]
@[simp] theorem raiseOnce_tck_beatMissed (key : Nat) (ev : Ev) (hc : ev.code < 256) (s : State) : (raiseOnce key ev s).tck.beatMissed = s.tck.beatMissed := by
  rw [(raiseOnce_events key ev hc s).rest]

end Sys2Proof.Machine
end

