-- ==== Sys2Proof/Laws/OnlyRegs.lean ====
section
/-!
SUPPORT. Laws/OnlyRegs.lean: the calculus of `OnlyRegs`: what changes at most the registers that a predicate names.
-/

namespace Sys2Proof.Machine

variable {p : Nat → Bool} {a s : State}

theorem OnlyRegs.refl (s : State) : OnlyRegs p s s := ⟨fun _ _ => rfl, rfl⟩

theorem OnlyRegs.trans {a b c : State} (h : OnlyRegs p a b) (j : OnlyRegs p b c) : OnlyRegs p a c := by
  refine ⟨fun off ho => (j.regs off ho).trans (h.regs off ho), ?_⟩
  obtain ⟨-, hb⟩ := h
  obtain ⟨-, hc⟩ := j
  rw [hc, hb]

/-- More registers may change. -/
theorem OnlyRegs.mono {q : Nat → Bool} (h : OnlyRegs p a s) (hq : ∀ off, q off = false → p off = false) :
    OnlyRegs q a s := ⟨fun off ho => h.regs off (hq off ho), h.rest⟩

theorem OnlyRegs.wr (off v : Nat) (ho : p off = true) (h : OnlyRegs p a s) : OnlyRegs p a (wr s off v) := by
  refine h.trans ⟨fun o hn => rd_wr_other s v ?_, rfl⟩
  rintro rfl
  rw [ho] at hn
  cases hn

theorem OnlyRegs.setFld (off hi lo v : Nat) (ho : p off = true) (h : OnlyRegs p a s) :
    OnlyRegs p a (setFld s off hi lo v) := h.wr off _ ho

theorem OnlyRegs.setFlag (off i : Nat) (b : Bool) (ho : p off = true) (h : OnlyRegs p a s) :
    OnlyRegs p a (setFlag s off i b) := h.wr off _ ho

theorem OnlyRegs.addReg (off n : Nat) (ho : p off = true) (h : OnlyRegs p a s) : OnlyRegs p a (addReg s off n) :=
  h.wr off _ ho

theorem OnlyRegs.addFld (off hi lo n : Nat) (ho : p off = true) (h : OnlyRegs p a s) :
    OnlyRegs p a (addFld s off hi lo n) := h.wr off _ ho

theorem OnlyRegs.wr64 (lo hi v : Nat) (ho : p lo = true) (h' : p hi = true) (h : OnlyRegs p a s) :
    OnlyRegs p a (wr64 s lo hi v) := (h.wr lo _ ho).wr hi _ h'

theorem OnlyRegs.ite {x y : State} {c : Prop} [Decidable c] (hx : OnlyRegs p a x) (hy : OnlyRegs p a y) :
    OnlyRegs p a (if c then x else y) := by
  split
  · exact hx
  · exact hy

theorem OnlyRegs.foldl {β : Type} {f : State → β → State} (l : List β) (h : OnlyRegs p a s)
    (hf : ∀ t x, x ∈ l → OnlyRegs p a t → OnlyRegs p a (f t x)) : OnlyRegs p a (l.foldl f s) := by
  induction l generalizing s with
  | nil => exact h
  | cons x l ih => exact ih (hf s x List.mem_cons_self h) (fun t y hy => hf t y (List.mem_cons_of_mem _ hy))

end Sys2Proof.Machine
end

