-- ==== Sys2Proof/Laws/Seal.lean ====
section
/-!
SUPPORT. Laws/Seal.lean: what a seal leaves: its number and instant.
-/

namespace Sys2Proof.Machine

variable {a s : State}

theorem sealSettle_last (n t : Nat) (s : State) :
    (sealSettle n t s).tck.lastN = n ∧ (sealSettle n t s).tck.lastT = t := by
  have hb := sealBegin_last n t s
  have key : Keeps true (sealBegin n t s) (sealSettle n t s) := by
    unfold sealSettle
    have h1 := sheafStep_keeps n (sealBegin n t s).shf.order none false (Keeps.refl (k := true) (sealBegin n t s))
    generalize sealBegin n t s = b at h1 ⊢
    dsimp only
    generalize sheafStep n b.shf.order b none false = p at h1 ⊢
    obtain ⟨p, tag⟩ := p
    have h2 := sealLatch_keeps n b (sheafTimed b p) (sealPower_keeps h1)
    cases tag with
    | none => exact h2
    | some tag => exact sheafComplete_keeps _ _ h2
  exact ⟨(key.lastSeal rfl).1.trans hb.1, (key.lastSeal rfl).2.trans hb.2⟩

/-- After the seal of n at T_N = t, n is the last tick and t its instant (R35, R36). -/
theorem sealTick_last (n t : Nat) (o : SealObs) (s : State) :
    (sealTick n t o s).tck.lastN = n ∧ (sealTick n t o s).tck.lastT = t := by
  unfold sealTick
  dsimp only
  generalize engineTick _ = snap
  have hb := sealSettle_last n t snap
  generalize sealSettle n t snap = b at hb ⊢
  have h1 := sealCredits_keeps (sealJudge_keeps t snap (trackSeal_keeps (mr4Seal_keeps o.mr4 (Keeps.refl (k := true) b))))
  have h2 := sealClose_keeps n t (wbStopped snap (sealCredits (sealJudge t snap (trackSeal (mr4Seal o.mr4 b))))) snap h1
  exact ⟨(h2.lastSeal rfl).1.trans hb.1, (h2.lastSeal rfl).2.trans hb.2⟩

end Sys2Proof.Machine
end

