-- ==== Sys2Proof/Laws/State.lean ====
section
/-!
SUPPORT. Laws/State.lean: one lemma for every field of State and every operation that updates a part of it: the fields
that the operation does not write are the same.
-/

namespace Sys2Proof.Machine

/-! `wr` writes regs alone. -/

@[simp] theorem wr_pending (s : State) (off v : Nat) : (wr s off v).pending = s.pending := rfl
@[simp] theorem wr_part (s : State) (off v : Nat) : (wr s off v).part = s.part := rfl
@[simp] theorem wr_supply (s : State) (off v : Nat) : (wr s off v).supply = s.supply := rfl
@[simp] theorem wr_porst (s : State) (off v : Nat) : (wr s off v).porst = s.porst := rfl
@[simp] theorem wr_linkUp (s : State) (off v : Nat) : (wr s off v).linkUp = s.linkUp := rfl
@[simp] theorem wr_latched (s : State) (off v : Nat) : (wr s off v).latched = s.latched := rfl
@[simp] theorem wr_wide (s : State) (off v : Nat) : (wr s off v).wide = s.wide := rfl
@[simp] theorem wr_clock (s : State) (off v : Nat) : (wr s off v).clock = s.clock := rfl
@[simp] theorem wr_elapsed (s : State) (off v : Nat) : (wr s off v).elapsed = s.elapsed := rfl
@[simp] theorem wr_updates (s : State) (off v : Nat) : (wr s off v).updates = s.updates := rfl
@[simp] theorem wr_granary (s : State) (off v : Nat) : (wr s off v).granary = s.granary := rfl
@[simp] theorem wr_cellar (s : State) (off v : Nat) : (wr s off v).cellar = s.cellar := rfl
@[simp] theorem wr_losses (s : State) (off v : Nat) : (wr s off v).losses = s.losses := rfl
@[simp] theorem wr_host (s : State) (off v : Nat) : (wr s off v).host = s.host := rfl
@[simp] theorem wr_bar2 (s : State) (off v : Nat) : (wr s off v).bar2 = s.bar2 := rfl
@[simp] theorem wr_draws (s : State) (off v : Nat) : (wr s off v).draws = s.draws := rfl
@[simp] theorem wr_husks (s : State) (off v : Nat) : (wr s off v).husks = s.husks := rfl
@[simp] theorem wr_accepted (s : State) (off v : Nat) : (wr s off v).accepted = s.accepted := rfl
@[simp] theorem wr_faults (s : State) (off v : Nat) : (wr s off v).faults = s.faults := rfl
@[simp] theorem wr_mismatches (s : State) (off v : Nat) : (wr s off v).mismatches = s.mismatches := rfl
@[simp] theorem wr_damage (s : State) (off v : Nat) : (wr s off v).damage = s.damage := rfl
@[simp] theorem wr_chans (s : State) (off v : Nat) : (wr s off v).chans = s.chans := rfl
@[simp] theorem wr_flows (s : State) (off v : Nat) : (wr s off v).flows = s.flows := rfl
@[simp] theorem wr_engineCycles (s : State) (off v : Nat) : (wr s off v).engineCycles = s.engineCycles := rfl
@[simp] theorem wr_macTx (s : State) (off v : Nat) : (wr s off v).macTx = s.macTx := rfl
@[simp] theorem wr_layers (s : State) (off v : Nat) : (wr s off v).layers = s.layers := rfl
@[simp] theorem wr_heads (s : State) (off v : Nat) : (wr s off v).heads = s.heads := rfl
@[simp] theorem wr_lanes (s : State) (off v : Nat) : (wr s off v).lanes = s.lanes := rfl
@[simp] theorem wr_shf (s : State) (off v : Nat) : (wr s off v).shf = s.shf := rfl
@[simp] theorem wr_rng (s : State) (off v : Nat) : (wr s off v).rng = s.rng := rfl
@[simp] theorem wr_tim (s : State) (off v : Nat) : (wr s off v).tim = s.tim := rfl
@[simp] theorem wr_tck (s : State) (off v : Nat) : (wr s off v).tck = s.tck := rfl
@[simp] theorem wr_flights (s : State) (off v : Nat) : (wr s off v).flights = s.flights := rfl
@[simp] theorem wr_cell (s : State) (off v : Nat) : (wr s off v).cell = s.cell := rfl
@[simp] theorem wr_lcs (s : State) (off v : Nat) : (wr s off v).lcs = s.lcs := rfl
@[simp] theorem wr_pwr (s : State) (off v : Nat) : (wr s off v).pwr = s.pwr := rfl
@[simp] theorem wr_tch (s : State) (off v : Nat) : (wr s off v).tch = s.tch := rfl
@[simp] theorem wr_encs (s : State) (off v : Nat) : (wr s off v).encs = s.encs := rfl
@[simp] theorem wr_overwritten (s : State) (off v : Nat) : (wr s off v).overwritten = s.overwritten := rfl
@[simp] theorem wr_jobBytes (s : State) (off v : Nat) : (wr s off v).jobBytes = s.jobBytes := rfl
@[simp] theorem wr_chkTurns (s : State) (off v : Nat) : (wr s off v).chkTurns = s.chkTurns := rfl
@[simp] theorem wr_chkAt (s : State) (off v : Nat) : (wr s off v).chkAt = s.chkAt := rfl
@[simp] theorem wr_response (s : State) (off v : Nat) : (wr s off v).response = s.response := rfl
@[simp] theorem wr_debugResponse (s : State) (off v : Nat) : (wr s off v).debugResponse = s.debugResponse := rfl

/-! `lwr` writes latched alone. -/

@[simp] theorem lwr_pending (s : State) (off v : Nat) : (lwr s off v).pending = s.pending := rfl
@[simp] theorem lwr_part (s : State) (off v : Nat) : (lwr s off v).part = s.part := rfl
@[simp] theorem lwr_supply (s : State) (off v : Nat) : (lwr s off v).supply = s.supply := rfl
@[simp] theorem lwr_porst (s : State) (off v : Nat) : (lwr s off v).porst = s.porst := rfl
@[simp] theorem lwr_linkUp (s : State) (off v : Nat) : (lwr s off v).linkUp = s.linkUp := rfl
@[simp] theorem lwr_regs (s : State) (off v : Nat) : (lwr s off v).regs = s.regs := rfl
@[simp] theorem lwr_wide (s : State) (off v : Nat) : (lwr s off v).wide = s.wide := rfl
@[simp] theorem lwr_clock (s : State) (off v : Nat) : (lwr s off v).clock = s.clock := rfl
@[simp] theorem lwr_elapsed (s : State) (off v : Nat) : (lwr s off v).elapsed = s.elapsed := rfl
@[simp] theorem lwr_updates (s : State) (off v : Nat) : (lwr s off v).updates = s.updates := rfl
@[simp] theorem lwr_granary (s : State) (off v : Nat) : (lwr s off v).granary = s.granary := rfl
@[simp] theorem lwr_cellar (s : State) (off v : Nat) : (lwr s off v).cellar = s.cellar := rfl
@[simp] theorem lwr_losses (s : State) (off v : Nat) : (lwr s off v).losses = s.losses := rfl
@[simp] theorem lwr_host (s : State) (off v : Nat) : (lwr s off v).host = s.host := rfl
@[simp] theorem lwr_bar2 (s : State) (off v : Nat) : (lwr s off v).bar2 = s.bar2 := rfl
@[simp] theorem lwr_draws (s : State) (off v : Nat) : (lwr s off v).draws = s.draws := rfl
@[simp] theorem lwr_husks (s : State) (off v : Nat) : (lwr s off v).husks = s.husks := rfl
@[simp] theorem lwr_accepted (s : State) (off v : Nat) : (lwr s off v).accepted = s.accepted := rfl
@[simp] theorem lwr_faults (s : State) (off v : Nat) : (lwr s off v).faults = s.faults := rfl
@[simp] theorem lwr_mismatches (s : State) (off v : Nat) : (lwr s off v).mismatches = s.mismatches := rfl
@[simp] theorem lwr_damage (s : State) (off v : Nat) : (lwr s off v).damage = s.damage := rfl
@[simp] theorem lwr_chans (s : State) (off v : Nat) : (lwr s off v).chans = s.chans := rfl
@[simp] theorem lwr_flows (s : State) (off v : Nat) : (lwr s off v).flows = s.flows := rfl
@[simp] theorem lwr_engineCycles (s : State) (off v : Nat) : (lwr s off v).engineCycles = s.engineCycles := rfl
@[simp] theorem lwr_macTx (s : State) (off v : Nat) : (lwr s off v).macTx = s.macTx := rfl
@[simp] theorem lwr_layers (s : State) (off v : Nat) : (lwr s off v).layers = s.layers := rfl
@[simp] theorem lwr_heads (s : State) (off v : Nat) : (lwr s off v).heads = s.heads := rfl
@[simp] theorem lwr_lanes (s : State) (off v : Nat) : (lwr s off v).lanes = s.lanes := rfl
@[simp] theorem lwr_shf (s : State) (off v : Nat) : (lwr s off v).shf = s.shf := rfl
@[simp] theorem lwr_rng (s : State) (off v : Nat) : (lwr s off v).rng = s.rng := rfl
@[simp] theorem lwr_tim (s : State) (off v : Nat) : (lwr s off v).tim = s.tim := rfl
@[simp] theorem lwr_tck (s : State) (off v : Nat) : (lwr s off v).tck = s.tck := rfl
@[simp] theorem lwr_flights (s : State) (off v : Nat) : (lwr s off v).flights = s.flights := rfl
@[simp] theorem lwr_cell (s : State) (off v : Nat) : (lwr s off v).cell = s.cell := rfl
@[simp] theorem lwr_lcs (s : State) (off v : Nat) : (lwr s off v).lcs = s.lcs := rfl
@[simp] theorem lwr_pwr (s : State) (off v : Nat) : (lwr s off v).pwr = s.pwr := rfl
@[simp] theorem lwr_tch (s : State) (off v : Nat) : (lwr s off v).tch = s.tch := rfl
@[simp] theorem lwr_encs (s : State) (off v : Nat) : (lwr s off v).encs = s.encs := rfl
@[simp] theorem lwr_overwritten (s : State) (off v : Nat) : (lwr s off v).overwritten = s.overwritten := rfl
@[simp] theorem lwr_jobBytes (s : State) (off v : Nat) : (lwr s off v).jobBytes = s.jobBytes := rfl
@[simp] theorem lwr_chkTurns (s : State) (off v : Nat) : (lwr s off v).chkTurns = s.chkTurns := rfl
@[simp] theorem lwr_chkAt (s : State) (off v : Nat) : (lwr s off v).chkAt = s.chkAt := rfl
@[simp] theorem lwr_response (s : State) (off v : Nat) : (lwr s off v).response = s.response := rfl
@[simp] theorem lwr_debugResponse (s : State) (off v : Nat) : (lwr s off v).debugResponse = s.debugResponse := rfl

/-! `passUpdates` writes clock and elapsed and updates alone. -/

@[simp] theorem passUpdates_pending (n : Nat) (s : State) : (passUpdates n s).pending = s.pending := rfl
@[simp] theorem passUpdates_part (n : Nat) (s : State) : (passUpdates n s).part = s.part := rfl
@[simp] theorem passUpdates_supply (n : Nat) (s : State) : (passUpdates n s).supply = s.supply := rfl
@[simp] theorem passUpdates_porst (n : Nat) (s : State) : (passUpdates n s).porst = s.porst := rfl
@[simp] theorem passUpdates_linkUp (n : Nat) (s : State) : (passUpdates n s).linkUp = s.linkUp := rfl
@[simp] theorem passUpdates_regs (n : Nat) (s : State) : (passUpdates n s).regs = s.regs := rfl
@[simp] theorem passUpdates_latched (n : Nat) (s : State) : (passUpdates n s).latched = s.latched := rfl
@[simp] theorem passUpdates_wide (n : Nat) (s : State) : (passUpdates n s).wide = s.wide := rfl
@[simp] theorem passUpdates_granary (n : Nat) (s : State) : (passUpdates n s).granary = s.granary := rfl
@[simp] theorem passUpdates_cellar (n : Nat) (s : State) : (passUpdates n s).cellar = s.cellar := rfl
@[simp] theorem passUpdates_losses (n : Nat) (s : State) : (passUpdates n s).losses = s.losses := rfl
@[simp] theorem passUpdates_host (n : Nat) (s : State) : (passUpdates n s).host = s.host := rfl
@[simp] theorem passUpdates_bar2 (n : Nat) (s : State) : (passUpdates n s).bar2 = s.bar2 := rfl
@[simp] theorem passUpdates_draws (n : Nat) (s : State) : (passUpdates n s).draws = s.draws := rfl
@[simp] theorem passUpdates_husks (n : Nat) (s : State) : (passUpdates n s).husks = s.husks := rfl
@[simp] theorem passUpdates_accepted (n : Nat) (s : State) : (passUpdates n s).accepted = s.accepted := rfl
@[simp] theorem passUpdates_faults (n : Nat) (s : State) : (passUpdates n s).faults = s.faults := rfl
@[simp] theorem passUpdates_mismatches (n : Nat) (s : State) : (passUpdates n s).mismatches = s.mismatches := rfl
@[simp] theorem passUpdates_damage (n : Nat) (s : State) : (passUpdates n s).damage = s.damage := rfl
@[simp] theorem passUpdates_chans (n : Nat) (s : State) : (passUpdates n s).chans = s.chans := rfl
@[simp] theorem passUpdates_flows (n : Nat) (s : State) : (passUpdates n s).flows = s.flows := rfl
@[simp] theorem passUpdates_engineCycles (n : Nat) (s : State) : (passUpdates n s).engineCycles = s.engineCycles := rfl
@[simp] theorem passUpdates_macTx (n : Nat) (s : State) : (passUpdates n s).macTx = s.macTx := rfl
@[simp] theorem passUpdates_layers (n : Nat) (s : State) : (passUpdates n s).layers = s.layers := rfl
@[simp] theorem passUpdates_heads (n : Nat) (s : State) : (passUpdates n s).heads = s.heads := rfl
@[simp] theorem passUpdates_lanes (n : Nat) (s : State) : (passUpdates n s).lanes = s.lanes := rfl
@[simp] theorem passUpdates_shf (n : Nat) (s : State) : (passUpdates n s).shf = s.shf := rfl
@[simp] theorem passUpdates_rng (n : Nat) (s : State) : (passUpdates n s).rng = s.rng := rfl
@[simp] theorem passUpdates_tim (n : Nat) (s : State) : (passUpdates n s).tim = s.tim := rfl
@[simp] theorem passUpdates_tck (n : Nat) (s : State) : (passUpdates n s).tck = s.tck := rfl
@[simp] theorem passUpdates_flights (n : Nat) (s : State) : (passUpdates n s).flights = s.flights := rfl
@[simp] theorem passUpdates_cell (n : Nat) (s : State) : (passUpdates n s).cell = s.cell := rfl
@[simp] theorem passUpdates_lcs (n : Nat) (s : State) : (passUpdates n s).lcs = s.lcs := rfl
@[simp] theorem passUpdates_pwr (n : Nat) (s : State) : (passUpdates n s).pwr = s.pwr := rfl
@[simp] theorem passUpdates_tch (n : Nat) (s : State) : (passUpdates n s).tch = s.tch := rfl
@[simp] theorem passUpdates_encs (n : Nat) (s : State) : (passUpdates n s).encs = s.encs := rfl
@[simp] theorem passUpdates_overwritten (n : Nat) (s : State) : (passUpdates n s).overwritten = s.overwritten := rfl
@[simp] theorem passUpdates_jobBytes (n : Nat) (s : State) : (passUpdates n s).jobBytes = s.jobBytes := rfl
@[simp] theorem passUpdates_chkTurns (n : Nat) (s : State) : (passUpdates n s).chkTurns = s.chkTurns := rfl
@[simp] theorem passUpdates_chkAt (n : Nat) (s : State) : (passUpdates n s).chkAt = s.chkAt := rfl
@[simp] theorem passUpdates_response (n : Nat) (s : State) : (passUpdates n s).response = s.response := rfl
@[simp] theorem passUpdates_debugResponse (n : Nat) (s : State) : (passUpdates n s).debugResponse = s.debugResponse := rfl

/-! `gWrite` writes granary and cell alone. -/

@[simp] theorem gWrite_pending (s : State) (a : Nat) (bs : List Byte) : (gWrite s a bs).pending = s.pending := rfl
@[simp] theorem gWrite_part (s : State) (a : Nat) (bs : List Byte) : (gWrite s a bs).part = s.part := rfl
@[simp] theorem gWrite_supply (s : State) (a : Nat) (bs : List Byte) : (gWrite s a bs).supply = s.supply := rfl
@[simp] theorem gWrite_porst (s : State) (a : Nat) (bs : List Byte) : (gWrite s a bs).porst = s.porst := rfl
@[simp] theorem gWrite_linkUp (s : State) (a : Nat) (bs : List Byte) : (gWrite s a bs).linkUp = s.linkUp := rfl
@[simp] theorem gWrite_regs (s : State) (a : Nat) (bs : List Byte) : (gWrite s a bs).regs = s.regs := rfl
@[simp] theorem gWrite_latched (s : State) (a : Nat) (bs : List Byte) : (gWrite s a bs).latched = s.latched := rfl
@[simp] theorem gWrite_wide (s : State) (a : Nat) (bs : List Byte) : (gWrite s a bs).wide = s.wide := rfl
@[simp] theorem gWrite_clock (s : State) (a : Nat) (bs : List Byte) : (gWrite s a bs).clock = s.clock := rfl
@[simp] theorem gWrite_elapsed (s : State) (a : Nat) (bs : List Byte) : (gWrite s a bs).elapsed = s.elapsed := rfl
@[simp] theorem gWrite_updates (s : State) (a : Nat) (bs : List Byte) : (gWrite s a bs).updates = s.updates := rfl
@[simp] theorem gWrite_cellar (s : State) (a : Nat) (bs : List Byte) : (gWrite s a bs).cellar = s.cellar := rfl
@[simp] theorem gWrite_losses (s : State) (a : Nat) (bs : List Byte) : (gWrite s a bs).losses = s.losses := rfl
@[simp] theorem gWrite_host (s : State) (a : Nat) (bs : List Byte) : (gWrite s a bs).host = s.host := rfl
@[simp] theorem gWrite_bar2 (s : State) (a : Nat) (bs : List Byte) : (gWrite s a bs).bar2 = s.bar2 := rfl
@[simp] theorem gWrite_draws (s : State) (a : Nat) (bs : List Byte) : (gWrite s a bs).draws = s.draws := rfl
@[simp] theorem gWrite_husks (s : State) (a : Nat) (bs : List Byte) : (gWrite s a bs).husks = s.husks := rfl
@[simp] theorem gWrite_accepted (s : State) (a : Nat) (bs : List Byte) : (gWrite s a bs).accepted = s.accepted := rfl
@[simp] theorem gWrite_faults (s : State) (a : Nat) (bs : List Byte) : (gWrite s a bs).faults = s.faults := rfl
@[simp] theorem gWrite_mismatches (s : State) (a : Nat) (bs : List Byte) : (gWrite s a bs).mismatches = s.mismatches := rfl
@[simp] theorem gWrite_damage (s : State) (a : Nat) (bs : List Byte) : (gWrite s a bs).damage = s.damage := rfl
@[simp] theorem gWrite_chans (s : State) (a : Nat) (bs : List Byte) : (gWrite s a bs).chans = s.chans := rfl
@[simp] theorem gWrite_flows (s : State) (a : Nat) (bs : List Byte) : (gWrite s a bs).flows = s.flows := rfl
@[simp] theorem gWrite_engineCycles (s : State) (a : Nat) (bs : List Byte) : (gWrite s a bs).engineCycles = s.engineCycles := rfl
@[simp] theorem gWrite_macTx (s : State) (a : Nat) (bs : List Byte) : (gWrite s a bs).macTx = s.macTx := rfl
@[simp] theorem gWrite_layers (s : State) (a : Nat) (bs : List Byte) : (gWrite s a bs).layers = s.layers := rfl
@[simp] theorem gWrite_heads (s : State) (a : Nat) (bs : List Byte) : (gWrite s a bs).heads = s.heads := rfl
@[simp] theorem gWrite_lanes (s : State) (a : Nat) (bs : List Byte) : (gWrite s a bs).lanes = s.lanes := rfl
@[simp] theorem gWrite_shf (s : State) (a : Nat) (bs : List Byte) : (gWrite s a bs).shf = s.shf := rfl
@[simp] theorem gWrite_rng (s : State) (a : Nat) (bs : List Byte) : (gWrite s a bs).rng = s.rng := rfl
@[simp] theorem gWrite_tim (s : State) (a : Nat) (bs : List Byte) : (gWrite s a bs).tim = s.tim := rfl
@[simp] theorem gWrite_tck (s : State) (a : Nat) (bs : List Byte) : (gWrite s a bs).tck = s.tck := rfl
@[simp] theorem gWrite_flights (s : State) (a : Nat) (bs : List Byte) : (gWrite s a bs).flights = s.flights := rfl
@[simp] theorem gWrite_lcs (s : State) (a : Nat) (bs : List Byte) : (gWrite s a bs).lcs = s.lcs := rfl
@[simp] theorem gWrite_pwr (s : State) (a : Nat) (bs : List Byte) : (gWrite s a bs).pwr = s.pwr := rfl
@[simp] theorem gWrite_tch (s : State) (a : Nat) (bs : List Byte) : (gWrite s a bs).tch = s.tch := rfl
@[simp] theorem gWrite_encs (s : State) (a : Nat) (bs : List Byte) : (gWrite s a bs).encs = s.encs := rfl
@[simp] theorem gWrite_overwritten (s : State) (a : Nat) (bs : List Byte) : (gWrite s a bs).overwritten = s.overwritten := rfl
@[simp] theorem gWrite_jobBytes (s : State) (a : Nat) (bs : List Byte) : (gWrite s a bs).jobBytes = s.jobBytes := rfl
@[simp] theorem gWrite_chkTurns (s : State) (a : Nat) (bs : List Byte) : (gWrite s a bs).chkTurns = s.chkTurns := rfl
@[simp] theorem gWrite_chkAt (s : State) (a : Nat) (bs : List Byte) : (gWrite s a bs).chkAt = s.chkAt := rfl
@[simp] theorem gWrite_response (s : State) (a : Nat) (bs : List Byte) : (gWrite s a bs).response = s.response := rfl
@[simp] theorem gWrite_debugResponse (s : State) (a : Nat) (bs : List Byte) : (gWrite s a bs).debugResponse = s.debugResponse := rfl

/-! `b2Write` writes bar2 alone. -/

@[simp] theorem b2Write_pending (s : State) (a : Nat) (bs : List Byte) : (b2Write s a bs).pending = s.pending := rfl
@[simp] theorem b2Write_part (s : State) (a : Nat) (bs : List Byte) : (b2Write s a bs).part = s.part := rfl
@[simp] theorem b2Write_supply (s : State) (a : Nat) (bs : List Byte) : (b2Write s a bs).supply = s.supply := rfl
@[simp] theorem b2Write_porst (s : State) (a : Nat) (bs : List Byte) : (b2Write s a bs).porst = s.porst := rfl
@[simp] theorem b2Write_linkUp (s : State) (a : Nat) (bs : List Byte) : (b2Write s a bs).linkUp = s.linkUp := rfl
@[simp] theorem b2Write_regs (s : State) (a : Nat) (bs : List Byte) : (b2Write s a bs).regs = s.regs := rfl
@[simp] theorem b2Write_latched (s : State) (a : Nat) (bs : List Byte) : (b2Write s a bs).latched = s.latched := rfl
@[simp] theorem b2Write_wide (s : State) (a : Nat) (bs : List Byte) : (b2Write s a bs).wide = s.wide := rfl
@[simp] theorem b2Write_clock (s : State) (a : Nat) (bs : List Byte) : (b2Write s a bs).clock = s.clock := rfl
@[simp] theorem b2Write_elapsed (s : State) (a : Nat) (bs : List Byte) : (b2Write s a bs).elapsed = s.elapsed := rfl
@[simp] theorem b2Write_updates (s : State) (a : Nat) (bs : List Byte) : (b2Write s a bs).updates = s.updates := rfl
@[simp] theorem b2Write_granary (s : State) (a : Nat) (bs : List Byte) : (b2Write s a bs).granary = s.granary := rfl
@[simp] theorem b2Write_cellar (s : State) (a : Nat) (bs : List Byte) : (b2Write s a bs).cellar = s.cellar := rfl
@[simp] theorem b2Write_losses (s : State) (a : Nat) (bs : List Byte) : (b2Write s a bs).losses = s.losses := rfl
@[simp] theorem b2Write_host (s : State) (a : Nat) (bs : List Byte) : (b2Write s a bs).host = s.host := rfl
@[simp] theorem b2Write_draws (s : State) (a : Nat) (bs : List Byte) : (b2Write s a bs).draws = s.draws := rfl
@[simp] theorem b2Write_husks (s : State) (a : Nat) (bs : List Byte) : (b2Write s a bs).husks = s.husks := rfl
@[simp] theorem b2Write_accepted (s : State) (a : Nat) (bs : List Byte) : (b2Write s a bs).accepted = s.accepted := rfl
@[simp] theorem b2Write_faults (s : State) (a : Nat) (bs : List Byte) : (b2Write s a bs).faults = s.faults := rfl
@[simp] theorem b2Write_mismatches (s : State) (a : Nat) (bs : List Byte) : (b2Write s a bs).mismatches = s.mismatches := rfl
@[simp] theorem b2Write_damage (s : State) (a : Nat) (bs : List Byte) : (b2Write s a bs).damage = s.damage := rfl
@[simp] theorem b2Write_chans (s : State) (a : Nat) (bs : List Byte) : (b2Write s a bs).chans = s.chans := rfl
@[simp] theorem b2Write_flows (s : State) (a : Nat) (bs : List Byte) : (b2Write s a bs).flows = s.flows := rfl
@[simp] theorem b2Write_engineCycles (s : State) (a : Nat) (bs : List Byte) : (b2Write s a bs).engineCycles = s.engineCycles := rfl
@[simp] theorem b2Write_macTx (s : State) (a : Nat) (bs : List Byte) : (b2Write s a bs).macTx = s.macTx := rfl
@[simp] theorem b2Write_layers (s : State) (a : Nat) (bs : List Byte) : (b2Write s a bs).layers = s.layers := rfl
@[simp] theorem b2Write_heads (s : State) (a : Nat) (bs : List Byte) : (b2Write s a bs).heads = s.heads := rfl
@[simp] theorem b2Write_lanes (s : State) (a : Nat) (bs : List Byte) : (b2Write s a bs).lanes = s.lanes := rfl
@[simp] theorem b2Write_shf (s : State) (a : Nat) (bs : List Byte) : (b2Write s a bs).shf = s.shf := rfl
@[simp] theorem b2Write_rng (s : State) (a : Nat) (bs : List Byte) : (b2Write s a bs).rng = s.rng := rfl
@[simp] theorem b2Write_tim (s : State) (a : Nat) (bs : List Byte) : (b2Write s a bs).tim = s.tim := rfl
@[simp] theorem b2Write_tck (s : State) (a : Nat) (bs : List Byte) : (b2Write s a bs).tck = s.tck := rfl
@[simp] theorem b2Write_flights (s : State) (a : Nat) (bs : List Byte) : (b2Write s a bs).flights = s.flights := rfl
@[simp] theorem b2Write_cell (s : State) (a : Nat) (bs : List Byte) : (b2Write s a bs).cell = s.cell := rfl
@[simp] theorem b2Write_lcs (s : State) (a : Nat) (bs : List Byte) : (b2Write s a bs).lcs = s.lcs := rfl
@[simp] theorem b2Write_pwr (s : State) (a : Nat) (bs : List Byte) : (b2Write s a bs).pwr = s.pwr := rfl
@[simp] theorem b2Write_tch (s : State) (a : Nat) (bs : List Byte) : (b2Write s a bs).tch = s.tch := rfl
@[simp] theorem b2Write_encs (s : State) (a : Nat) (bs : List Byte) : (b2Write s a bs).encs = s.encs := rfl
@[simp] theorem b2Write_overwritten (s : State) (a : Nat) (bs : List Byte) : (b2Write s a bs).overwritten = s.overwritten := rfl
@[simp] theorem b2Write_jobBytes (s : State) (a : Nat) (bs : List Byte) : (b2Write s a bs).jobBytes = s.jobBytes := rfl
@[simp] theorem b2Write_chkTurns (s : State) (a : Nat) (bs : List Byte) : (b2Write s a bs).chkTurns = s.chkTurns := rfl
@[simp] theorem b2Write_chkAt (s : State) (a : Nat) (bs : List Byte) : (b2Write s a bs).chkAt = s.chkAt := rfl
@[simp] theorem b2Write_response (s : State) (a : Nat) (bs : List Byte) : (b2Write s a bs).response = s.response := rfl
@[simp] theorem b2Write_debugResponse (s : State) (a : Nat) (bs : List Byte) : (b2Write s a bs).debugResponse = s.debugResponse := rfl

/-! `markOnce` writes tck alone. -/

@[simp] theorem markOnce_pending (c k : Nat) (s : State) : (markOnce c k s).pending = s.pending := rfl
@[simp] theorem markOnce_part (c k : Nat) (s : State) : (markOnce c k s).part = s.part := rfl
@[simp] theorem markOnce_supply (c k : Nat) (s : State) : (markOnce c k s).supply = s.supply := rfl
@[simp] theorem markOnce_porst (c k : Nat) (s : State) : (markOnce c k s).porst = s.porst := rfl
@[simp] theorem markOnce_linkUp (c k : Nat) (s : State) : (markOnce c k s).linkUp = s.linkUp := rfl
@[simp] theorem markOnce_regs (c k : Nat) (s : State) : (markOnce c k s).regs = s.regs := rfl
@[simp] theorem markOnce_latched (c k : Nat) (s : State) : (markOnce c k s).latched = s.latched := rfl
@[simp] theorem markOnce_wide (c k : Nat) (s : State) : (markOnce c k s).wide = s.wide := rfl
@[simp] theorem markOnce_clock (c k : Nat) (s : State) : (markOnce c k s).clock = s.clock := rfl
@[simp] theorem markOnce_elapsed (c k : Nat) (s : State) : (markOnce c k s).elapsed = s.elapsed := rfl
@[simp] theorem markOnce_updates (c k : Nat) (s : State) : (markOnce c k s).updates = s.updates := rfl
@[simp] theorem markOnce_granary (c k : Nat) (s : State) : (markOnce c k s).granary = s.granary := rfl
@[simp] theorem markOnce_cellar (c k : Nat) (s : State) : (markOnce c k s).cellar = s.cellar := rfl
@[simp] theorem markOnce_losses (c k : Nat) (s : State) : (markOnce c k s).losses = s.losses := rfl
@[simp] theorem markOnce_host (c k : Nat) (s : State) : (markOnce c k s).host = s.host := rfl
@[simp] theorem markOnce_bar2 (c k : Nat) (s : State) : (markOnce c k s).bar2 = s.bar2 := rfl
@[simp] theorem markOnce_draws (c k : Nat) (s : State) : (markOnce c k s).draws = s.draws := rfl
@[simp] theorem markOnce_husks (c k : Nat) (s : State) : (markOnce c k s).husks = s.husks := rfl
@[simp] theorem markOnce_accepted (c k : Nat) (s : State) : (markOnce c k s).accepted = s.accepted := rfl
@[simp] theorem markOnce_faults (c k : Nat) (s : State) : (markOnce c k s).faults = s.faults := rfl
@[simp] theorem markOnce_mismatches (c k : Nat) (s : State) : (markOnce c k s).mismatches = s.mismatches := rfl
@[simp] theorem markOnce_damage (c k : Nat) (s : State) : (markOnce c k s).damage = s.damage := rfl
@[simp] theorem markOnce_chans (c k : Nat) (s : State) : (markOnce c k s).chans = s.chans := rfl
@[simp] theorem markOnce_flows (c k : Nat) (s : State) : (markOnce c k s).flows = s.flows := rfl
@[simp] theorem markOnce_engineCycles (c k : Nat) (s : State) : (markOnce c k s).engineCycles = s.engineCycles := rfl
@[simp] theorem markOnce_macTx (c k : Nat) (s : State) : (markOnce c k s).macTx = s.macTx := rfl
@[simp] theorem markOnce_layers (c k : Nat) (s : State) : (markOnce c k s).layers = s.layers := rfl
@[simp] theorem markOnce_heads (c k : Nat) (s : State) : (markOnce c k s).heads = s.heads := rfl
@[simp] theorem markOnce_lanes (c k : Nat) (s : State) : (markOnce c k s).lanes = s.lanes := rfl
@[simp] theorem markOnce_shf (c k : Nat) (s : State) : (markOnce c k s).shf = s.shf := rfl
@[simp] theorem markOnce_rng (c k : Nat) (s : State) : (markOnce c k s).rng = s.rng := rfl
@[simp] theorem markOnce_tim (c k : Nat) (s : State) : (markOnce c k s).tim = s.tim := rfl
@[simp] theorem markOnce_flights (c k : Nat) (s : State) : (markOnce c k s).flights = s.flights := rfl
@[simp] theorem markOnce_cell (c k : Nat) (s : State) : (markOnce c k s).cell = s.cell := rfl
@[simp] theorem markOnce_lcs (c k : Nat) (s : State) : (markOnce c k s).lcs = s.lcs := rfl
@[simp] theorem markOnce_pwr (c k : Nat) (s : State) : (markOnce c k s).pwr = s.pwr := rfl
@[simp] theorem markOnce_tch (c k : Nat) (s : State) : (markOnce c k s).tch = s.tch := rfl
@[simp] theorem markOnce_encs (c k : Nat) (s : State) : (markOnce c k s).encs = s.encs := rfl
@[simp] theorem markOnce_overwritten (c k : Nat) (s : State) : (markOnce c k s).overwritten = s.overwritten := rfl
@[simp] theorem markOnce_jobBytes (c k : Nat) (s : State) : (markOnce c k s).jobBytes = s.jobBytes := rfl
@[simp] theorem markOnce_chkTurns (c k : Nat) (s : State) : (markOnce c k s).chkTurns = s.chkTurns := rfl
@[simp] theorem markOnce_chkAt (c k : Nat) (s : State) : (markOnce c k s).chkAt = s.chkAt := rfl
@[simp] theorem markOnce_response (c k : Nat) (s : State) : (markOnce c k s).response = s.response := rfl
@[simp] theorem markOnce_debugResponse (c k : Nat) (s : State) : (markOnce c k s).debugResponse = s.debugResponse := rfl

/-! `setPort` writes cell alone. -/

@[simp] theorem setPort_pending (p : Nat) (x : PortSt) (s : State) : (setPort p x s).pending = s.pending := rfl
@[simp] theorem setPort_part (p : Nat) (x : PortSt) (s : State) : (setPort p x s).part = s.part := rfl
@[simp] theorem setPort_supply (p : Nat) (x : PortSt) (s : State) : (setPort p x s).supply = s.supply := rfl
@[simp] theorem setPort_porst (p : Nat) (x : PortSt) (s : State) : (setPort p x s).porst = s.porst := rfl
@[simp] theorem setPort_linkUp (p : Nat) (x : PortSt) (s : State) : (setPort p x s).linkUp = s.linkUp := rfl
@[simp] theorem setPort_regs (p : Nat) (x : PortSt) (s : State) : (setPort p x s).regs = s.regs := rfl
@[simp] theorem setPort_latched (p : Nat) (x : PortSt) (s : State) : (setPort p x s).latched = s.latched := rfl
@[simp] theorem setPort_wide (p : Nat) (x : PortSt) (s : State) : (setPort p x s).wide = s.wide := rfl
@[simp] theorem setPort_clock (p : Nat) (x : PortSt) (s : State) : (setPort p x s).clock = s.clock := rfl
@[simp] theorem setPort_elapsed (p : Nat) (x : PortSt) (s : State) : (setPort p x s).elapsed = s.elapsed := rfl
@[simp] theorem setPort_updates (p : Nat) (x : PortSt) (s : State) : (setPort p x s).updates = s.updates := rfl
@[simp] theorem setPort_granary (p : Nat) (x : PortSt) (s : State) : (setPort p x s).granary = s.granary := rfl
@[simp] theorem setPort_cellar (p : Nat) (x : PortSt) (s : State) : (setPort p x s).cellar = s.cellar := rfl
@[simp] theorem setPort_losses (p : Nat) (x : PortSt) (s : State) : (setPort p x s).losses = s.losses := rfl
@[simp] theorem setPort_host (p : Nat) (x : PortSt) (s : State) : (setPort p x s).host = s.host := rfl
@[simp] theorem setPort_bar2 (p : Nat) (x : PortSt) (s : State) : (setPort p x s).bar2 = s.bar2 := rfl
@[simp] theorem setPort_draws (p : Nat) (x : PortSt) (s : State) : (setPort p x s).draws = s.draws := rfl
@[simp] theorem setPort_husks (p : Nat) (x : PortSt) (s : State) : (setPort p x s).husks = s.husks := rfl
@[simp] theorem setPort_accepted (p : Nat) (x : PortSt) (s : State) : (setPort p x s).accepted = s.accepted := rfl
@[simp] theorem setPort_faults (p : Nat) (x : PortSt) (s : State) : (setPort p x s).faults = s.faults := rfl
@[simp] theorem setPort_mismatches (p : Nat) (x : PortSt) (s : State) : (setPort p x s).mismatches = s.mismatches := rfl
@[simp] theorem setPort_damage (p : Nat) (x : PortSt) (s : State) : (setPort p x s).damage = s.damage := rfl
@[simp] theorem setPort_chans (p : Nat) (x : PortSt) (s : State) : (setPort p x s).chans = s.chans := rfl
@[simp] theorem setPort_flows (p : Nat) (x : PortSt) (s : State) : (setPort p x s).flows = s.flows := rfl
@[simp] theorem setPort_engineCycles (p : Nat) (x : PortSt) (s : State) : (setPort p x s).engineCycles = s.engineCycles := rfl
@[simp] theorem setPort_macTx (p : Nat) (x : PortSt) (s : State) : (setPort p x s).macTx = s.macTx := rfl
@[simp] theorem setPort_layers (p : Nat) (x : PortSt) (s : State) : (setPort p x s).layers = s.layers := rfl
@[simp] theorem setPort_heads (p : Nat) (x : PortSt) (s : State) : (setPort p x s).heads = s.heads := rfl
@[simp] theorem setPort_lanes (p : Nat) (x : PortSt) (s : State) : (setPort p x s).lanes = s.lanes := rfl
@[simp] theorem setPort_shf (p : Nat) (x : PortSt) (s : State) : (setPort p x s).shf = s.shf := rfl
@[simp] theorem setPort_rng (p : Nat) (x : PortSt) (s : State) : (setPort p x s).rng = s.rng := rfl
@[simp] theorem setPort_tim (p : Nat) (x : PortSt) (s : State) : (setPort p x s).tim = s.tim := rfl
@[simp] theorem setPort_tck (p : Nat) (x : PortSt) (s : State) : (setPort p x s).tck = s.tck := rfl
@[simp] theorem setPort_flights (p : Nat) (x : PortSt) (s : State) : (setPort p x s).flights = s.flights := rfl
@[simp] theorem setPort_lcs (p : Nat) (x : PortSt) (s : State) : (setPort p x s).lcs = s.lcs := rfl
@[simp] theorem setPort_pwr (p : Nat) (x : PortSt) (s : State) : (setPort p x s).pwr = s.pwr := rfl
@[simp] theorem setPort_tch (p : Nat) (x : PortSt) (s : State) : (setPort p x s).tch = s.tch := rfl
@[simp] theorem setPort_encs (p : Nat) (x : PortSt) (s : State) : (setPort p x s).encs = s.encs := rfl
@[simp] theorem setPort_overwritten (p : Nat) (x : PortSt) (s : State) : (setPort p x s).overwritten = s.overwritten := rfl
@[simp] theorem setPort_jobBytes (p : Nat) (x : PortSt) (s : State) : (setPort p x s).jobBytes = s.jobBytes := rfl
@[simp] theorem setPort_chkTurns (p : Nat) (x : PortSt) (s : State) : (setPort p x s).chkTurns = s.chkTurns := rfl
@[simp] theorem setPort_chkAt (p : Nat) (x : PortSt) (s : State) : (setPort p x s).chkAt = s.chkAt := rfl
@[simp] theorem setPort_response (p : Nat) (x : PortSt) (s : State) : (setPort p x s).response = s.response := rfl
@[simp] theorem setPort_debugResponse (p : Nat) (x : PortSt) (s : State) : (setPort p x s).debugResponse = s.debugResponse := rfl

/-! `updCmd` writes rng alone. -/

@[simp] theorem updCmd_pending (tag : Nat) (f : Cmd → Cmd) (s : State) : (updCmd tag f s).pending = s.pending := rfl
@[simp] theorem updCmd_part (tag : Nat) (f : Cmd → Cmd) (s : State) : (updCmd tag f s).part = s.part := rfl
@[simp] theorem updCmd_supply (tag : Nat) (f : Cmd → Cmd) (s : State) : (updCmd tag f s).supply = s.supply := rfl
@[simp] theorem updCmd_porst (tag : Nat) (f : Cmd → Cmd) (s : State) : (updCmd tag f s).porst = s.porst := rfl
@[simp] theorem updCmd_linkUp (tag : Nat) (f : Cmd → Cmd) (s : State) : (updCmd tag f s).linkUp = s.linkUp := rfl
@[simp] theorem updCmd_regs (tag : Nat) (f : Cmd → Cmd) (s : State) : (updCmd tag f s).regs = s.regs := rfl
@[simp] theorem updCmd_latched (tag : Nat) (f : Cmd → Cmd) (s : State) : (updCmd tag f s).latched = s.latched := rfl
@[simp] theorem updCmd_wide (tag : Nat) (f : Cmd → Cmd) (s : State) : (updCmd tag f s).wide = s.wide := rfl
@[simp] theorem updCmd_clock (tag : Nat) (f : Cmd → Cmd) (s : State) : (updCmd tag f s).clock = s.clock := rfl
@[simp] theorem updCmd_elapsed (tag : Nat) (f : Cmd → Cmd) (s : State) : (updCmd tag f s).elapsed = s.elapsed := rfl
@[simp] theorem updCmd_updates (tag : Nat) (f : Cmd → Cmd) (s : State) : (updCmd tag f s).updates = s.updates := rfl
@[simp] theorem updCmd_granary (tag : Nat) (f : Cmd → Cmd) (s : State) : (updCmd tag f s).granary = s.granary := rfl
@[simp] theorem updCmd_cellar (tag : Nat) (f : Cmd → Cmd) (s : State) : (updCmd tag f s).cellar = s.cellar := rfl
@[simp] theorem updCmd_losses (tag : Nat) (f : Cmd → Cmd) (s : State) : (updCmd tag f s).losses = s.losses := rfl
@[simp] theorem updCmd_host (tag : Nat) (f : Cmd → Cmd) (s : State) : (updCmd tag f s).host = s.host := rfl
@[simp] theorem updCmd_bar2 (tag : Nat) (f : Cmd → Cmd) (s : State) : (updCmd tag f s).bar2 = s.bar2 := rfl
@[simp] theorem updCmd_draws (tag : Nat) (f : Cmd → Cmd) (s : State) : (updCmd tag f s).draws = s.draws := rfl
@[simp] theorem updCmd_husks (tag : Nat) (f : Cmd → Cmd) (s : State) : (updCmd tag f s).husks = s.husks := rfl
@[simp] theorem updCmd_accepted (tag : Nat) (f : Cmd → Cmd) (s : State) : (updCmd tag f s).accepted = s.accepted := rfl
@[simp] theorem updCmd_faults (tag : Nat) (f : Cmd → Cmd) (s : State) : (updCmd tag f s).faults = s.faults := rfl
@[simp] theorem updCmd_mismatches (tag : Nat) (f : Cmd → Cmd) (s : State) : (updCmd tag f s).mismatches = s.mismatches := rfl
@[simp] theorem updCmd_damage (tag : Nat) (f : Cmd → Cmd) (s : State) : (updCmd tag f s).damage = s.damage := rfl
@[simp] theorem updCmd_chans (tag : Nat) (f : Cmd → Cmd) (s : State) : (updCmd tag f s).chans = s.chans := rfl
@[simp] theorem updCmd_flows (tag : Nat) (f : Cmd → Cmd) (s : State) : (updCmd tag f s).flows = s.flows := rfl
@[simp] theorem updCmd_engineCycles (tag : Nat) (f : Cmd → Cmd) (s : State) : (updCmd tag f s).engineCycles = s.engineCycles := rfl
@[simp] theorem updCmd_macTx (tag : Nat) (f : Cmd → Cmd) (s : State) : (updCmd tag f s).macTx = s.macTx := rfl
@[simp] theorem updCmd_layers (tag : Nat) (f : Cmd → Cmd) (s : State) : (updCmd tag f s).layers = s.layers := rfl
@[simp] theorem updCmd_heads (tag : Nat) (f : Cmd → Cmd) (s : State) : (updCmd tag f s).heads = s.heads := rfl
@[simp] theorem updCmd_lanes (tag : Nat) (f : Cmd → Cmd) (s : State) : (updCmd tag f s).lanes = s.lanes := rfl
@[simp] theorem updCmd_shf (tag : Nat) (f : Cmd → Cmd) (s : State) : (updCmd tag f s).shf = s.shf := rfl
@[simp] theorem updCmd_tim (tag : Nat) (f : Cmd → Cmd) (s : State) : (updCmd tag f s).tim = s.tim := rfl
@[simp] theorem updCmd_tck (tag : Nat) (f : Cmd → Cmd) (s : State) : (updCmd tag f s).tck = s.tck := rfl
@[simp] theorem updCmd_flights (tag : Nat) (f : Cmd → Cmd) (s : State) : (updCmd tag f s).flights = s.flights := rfl
@[simp] theorem updCmd_cell (tag : Nat) (f : Cmd → Cmd) (s : State) : (updCmd tag f s).cell = s.cell := rfl
@[simp] theorem updCmd_lcs (tag : Nat) (f : Cmd → Cmd) (s : State) : (updCmd tag f s).lcs = s.lcs := rfl
@[simp] theorem updCmd_pwr (tag : Nat) (f : Cmd → Cmd) (s : State) : (updCmd tag f s).pwr = s.pwr := rfl
@[simp] theorem updCmd_tch (tag : Nat) (f : Cmd → Cmd) (s : State) : (updCmd tag f s).tch = s.tch := rfl
@[simp] theorem updCmd_encs (tag : Nat) (f : Cmd → Cmd) (s : State) : (updCmd tag f s).encs = s.encs := rfl
@[simp] theorem updCmd_overwritten (tag : Nat) (f : Cmd → Cmd) (s : State) : (updCmd tag f s).overwritten = s.overwritten := rfl
@[simp] theorem updCmd_jobBytes (tag : Nat) (f : Cmd → Cmd) (s : State) : (updCmd tag f s).jobBytes = s.jobBytes := rfl
@[simp] theorem updCmd_chkTurns (tag : Nat) (f : Cmd → Cmd) (s : State) : (updCmd tag f s).chkTurns = s.chkTurns := rfl
@[simp] theorem updCmd_chkAt (tag : Nat) (f : Cmd → Cmd) (s : State) : (updCmd tag f s).chkAt = s.chkAt := rfl
@[simp] theorem updCmd_response (tag : Nat) (f : Cmd → Cmd) (s : State) : (updCmd tag f s).response = s.response := rfl
@[simp] theorem updCmd_debugResponse (tag : Nat) (f : Cmd → Cmd) (s : State) : (updCmd tag f s).debugResponse = s.debugResponse := rfl

/-! `dropCmd` writes rng alone. -/

@[simp] theorem dropCmd_pending (tag : Nat) (s : State) : (dropCmd tag s).pending = s.pending := rfl
@[simp] theorem dropCmd_part (tag : Nat) (s : State) : (dropCmd tag s).part = s.part := rfl
@[simp] theorem dropCmd_supply (tag : Nat) (s : State) : (dropCmd tag s).supply = s.supply := rfl
@[simp] theorem dropCmd_porst (tag : Nat) (s : State) : (dropCmd tag s).porst = s.porst := rfl
@[simp] theorem dropCmd_linkUp (tag : Nat) (s : State) : (dropCmd tag s).linkUp = s.linkUp := rfl
@[simp] theorem dropCmd_regs (tag : Nat) (s : State) : (dropCmd tag s).regs = s.regs := rfl
@[simp] theorem dropCmd_latched (tag : Nat) (s : State) : (dropCmd tag s).latched = s.latched := rfl
@[simp] theorem dropCmd_wide (tag : Nat) (s : State) : (dropCmd tag s).wide = s.wide := rfl
@[simp] theorem dropCmd_clock (tag : Nat) (s : State) : (dropCmd tag s).clock = s.clock := rfl
@[simp] theorem dropCmd_elapsed (tag : Nat) (s : State) : (dropCmd tag s).elapsed = s.elapsed := rfl
@[simp] theorem dropCmd_updates (tag : Nat) (s : State) : (dropCmd tag s).updates = s.updates := rfl
@[simp] theorem dropCmd_granary (tag : Nat) (s : State) : (dropCmd tag s).granary = s.granary := rfl
@[simp] theorem dropCmd_cellar (tag : Nat) (s : State) : (dropCmd tag s).cellar = s.cellar := rfl
@[simp] theorem dropCmd_losses (tag : Nat) (s : State) : (dropCmd tag s).losses = s.losses := rfl
@[simp] theorem dropCmd_host (tag : Nat) (s : State) : (dropCmd tag s).host = s.host := rfl
@[simp] theorem dropCmd_bar2 (tag : Nat) (s : State) : (dropCmd tag s).bar2 = s.bar2 := rfl
@[simp] theorem dropCmd_draws (tag : Nat) (s : State) : (dropCmd tag s).draws = s.draws := rfl
@[simp] theorem dropCmd_husks (tag : Nat) (s : State) : (dropCmd tag s).husks = s.husks := rfl
@[simp] theorem dropCmd_accepted (tag : Nat) (s : State) : (dropCmd tag s).accepted = s.accepted := rfl
@[simp] theorem dropCmd_faults (tag : Nat) (s : State) : (dropCmd tag s).faults = s.faults := rfl
@[simp] theorem dropCmd_mismatches (tag : Nat) (s : State) : (dropCmd tag s).mismatches = s.mismatches := rfl
@[simp] theorem dropCmd_damage (tag : Nat) (s : State) : (dropCmd tag s).damage = s.damage := rfl
@[simp] theorem dropCmd_chans (tag : Nat) (s : State) : (dropCmd tag s).chans = s.chans := rfl
@[simp] theorem dropCmd_flows (tag : Nat) (s : State) : (dropCmd tag s).flows = s.flows := rfl
@[simp] theorem dropCmd_engineCycles (tag : Nat) (s : State) : (dropCmd tag s).engineCycles = s.engineCycles := rfl
@[simp] theorem dropCmd_macTx (tag : Nat) (s : State) : (dropCmd tag s).macTx = s.macTx := rfl
@[simp] theorem dropCmd_layers (tag : Nat) (s : State) : (dropCmd tag s).layers = s.layers := rfl
@[simp] theorem dropCmd_heads (tag : Nat) (s : State) : (dropCmd tag s).heads = s.heads := rfl
@[simp] theorem dropCmd_lanes (tag : Nat) (s : State) : (dropCmd tag s).lanes = s.lanes := rfl
@[simp] theorem dropCmd_shf (tag : Nat) (s : State) : (dropCmd tag s).shf = s.shf := rfl
@[simp] theorem dropCmd_tim (tag : Nat) (s : State) : (dropCmd tag s).tim = s.tim := rfl
@[simp] theorem dropCmd_tck (tag : Nat) (s : State) : (dropCmd tag s).tck = s.tck := rfl
@[simp] theorem dropCmd_flights (tag : Nat) (s : State) : (dropCmd tag s).flights = s.flights := rfl
@[simp] theorem dropCmd_cell (tag : Nat) (s : State) : (dropCmd tag s).cell = s.cell := rfl
@[simp] theorem dropCmd_lcs (tag : Nat) (s : State) : (dropCmd tag s).lcs = s.lcs := rfl
@[simp] theorem dropCmd_pwr (tag : Nat) (s : State) : (dropCmd tag s).pwr = s.pwr := rfl
@[simp] theorem dropCmd_tch (tag : Nat) (s : State) : (dropCmd tag s).tch = s.tch := rfl
@[simp] theorem dropCmd_encs (tag : Nat) (s : State) : (dropCmd tag s).encs = s.encs := rfl
@[simp] theorem dropCmd_overwritten (tag : Nat) (s : State) : (dropCmd tag s).overwritten = s.overwritten := rfl
@[simp] theorem dropCmd_jobBytes (tag : Nat) (s : State) : (dropCmd tag s).jobBytes = s.jobBytes := rfl
@[simp] theorem dropCmd_chkTurns (tag : Nat) (s : State) : (dropCmd tag s).chkTurns = s.chkTurns := rfl
@[simp] theorem dropCmd_chkAt (tag : Nat) (s : State) : (dropCmd tag s).chkAt = s.chkAt := rfl
@[simp] theorem dropCmd_response (tag : Nat) (s : State) : (dropCmd tag s).response = s.response := rfl
@[simp] theorem dropCmd_debugResponse (tag : Nat) (s : State) : (dropCmd tag s).debugResponse = s.debugResponse := rfl

/-! `setTrig` writes tim alone. -/

@[simp] theorem setTrig_pending (t : Nat) (x : TrigSt) (s : State) : (setTrig t x s).pending = s.pending := rfl
@[simp] theorem setTrig_part (t : Nat) (x : TrigSt) (s : State) : (setTrig t x s).part = s.part := rfl
@[simp] theorem setTrig_supply (t : Nat) (x : TrigSt) (s : State) : (setTrig t x s).supply = s.supply := rfl
@[simp] theorem setTrig_porst (t : Nat) (x : TrigSt) (s : State) : (setTrig t x s).porst = s.porst := rfl
@[simp] theorem setTrig_linkUp (t : Nat) (x : TrigSt) (s : State) : (setTrig t x s).linkUp = s.linkUp := rfl
@[simp] theorem setTrig_regs (t : Nat) (x : TrigSt) (s : State) : (setTrig t x s).regs = s.regs := rfl
@[simp] theorem setTrig_latched (t : Nat) (x : TrigSt) (s : State) : (setTrig t x s).latched = s.latched := rfl
@[simp] theorem setTrig_wide (t : Nat) (x : TrigSt) (s : State) : (setTrig t x s).wide = s.wide := rfl
@[simp] theorem setTrig_clock (t : Nat) (x : TrigSt) (s : State) : (setTrig t x s).clock = s.clock := rfl
@[simp] theorem setTrig_elapsed (t : Nat) (x : TrigSt) (s : State) : (setTrig t x s).elapsed = s.elapsed := rfl
@[simp] theorem setTrig_updates (t : Nat) (x : TrigSt) (s : State) : (setTrig t x s).updates = s.updates := rfl
@[simp] theorem setTrig_granary (t : Nat) (x : TrigSt) (s : State) : (setTrig t x s).granary = s.granary := rfl
@[simp] theorem setTrig_cellar (t : Nat) (x : TrigSt) (s : State) : (setTrig t x s).cellar = s.cellar := rfl
@[simp] theorem setTrig_losses (t : Nat) (x : TrigSt) (s : State) : (setTrig t x s).losses = s.losses := rfl
@[simp] theorem setTrig_host (t : Nat) (x : TrigSt) (s : State) : (setTrig t x s).host = s.host := rfl
@[simp] theorem setTrig_bar2 (t : Nat) (x : TrigSt) (s : State) : (setTrig t x s).bar2 = s.bar2 := rfl
@[simp] theorem setTrig_draws (t : Nat) (x : TrigSt) (s : State) : (setTrig t x s).draws = s.draws := rfl
@[simp] theorem setTrig_husks (t : Nat) (x : TrigSt) (s : State) : (setTrig t x s).husks = s.husks := rfl
@[simp] theorem setTrig_accepted (t : Nat) (x : TrigSt) (s : State) : (setTrig t x s).accepted = s.accepted := rfl
@[simp] theorem setTrig_faults (t : Nat) (x : TrigSt) (s : State) : (setTrig t x s).faults = s.faults := rfl
@[simp] theorem setTrig_mismatches (t : Nat) (x : TrigSt) (s : State) : (setTrig t x s).mismatches = s.mismatches := rfl
@[simp] theorem setTrig_damage (t : Nat) (x : TrigSt) (s : State) : (setTrig t x s).damage = s.damage := rfl
@[simp] theorem setTrig_chans (t : Nat) (x : TrigSt) (s : State) : (setTrig t x s).chans = s.chans := rfl
@[simp] theorem setTrig_flows (t : Nat) (x : TrigSt) (s : State) : (setTrig t x s).flows = s.flows := rfl
@[simp] theorem setTrig_engineCycles (t : Nat) (x : TrigSt) (s : State) : (setTrig t x s).engineCycles = s.engineCycles := rfl
@[simp] theorem setTrig_macTx (t : Nat) (x : TrigSt) (s : State) : (setTrig t x s).macTx = s.macTx := rfl
@[simp] theorem setTrig_layers (t : Nat) (x : TrigSt) (s : State) : (setTrig t x s).layers = s.layers := rfl
@[simp] theorem setTrig_heads (t : Nat) (x : TrigSt) (s : State) : (setTrig t x s).heads = s.heads := rfl
@[simp] theorem setTrig_lanes (t : Nat) (x : TrigSt) (s : State) : (setTrig t x s).lanes = s.lanes := rfl
@[simp] theorem setTrig_shf (t : Nat) (x : TrigSt) (s : State) : (setTrig t x s).shf = s.shf := rfl
@[simp] theorem setTrig_rng (t : Nat) (x : TrigSt) (s : State) : (setTrig t x s).rng = s.rng := rfl
@[simp] theorem setTrig_tck (t : Nat) (x : TrigSt) (s : State) : (setTrig t x s).tck = s.tck := rfl
@[simp] theorem setTrig_flights (t : Nat) (x : TrigSt) (s : State) : (setTrig t x s).flights = s.flights := rfl
@[simp] theorem setTrig_cell (t : Nat) (x : TrigSt) (s : State) : (setTrig t x s).cell = s.cell := rfl
@[simp] theorem setTrig_lcs (t : Nat) (x : TrigSt) (s : State) : (setTrig t x s).lcs = s.lcs := rfl
@[simp] theorem setTrig_pwr (t : Nat) (x : TrigSt) (s : State) : (setTrig t x s).pwr = s.pwr := rfl
@[simp] theorem setTrig_tch (t : Nat) (x : TrigSt) (s : State) : (setTrig t x s).tch = s.tch := rfl
@[simp] theorem setTrig_encs (t : Nat) (x : TrigSt) (s : State) : (setTrig t x s).encs = s.encs := rfl
@[simp] theorem setTrig_overwritten (t : Nat) (x : TrigSt) (s : State) : (setTrig t x s).overwritten = s.overwritten := rfl
@[simp] theorem setTrig_jobBytes (t : Nat) (x : TrigSt) (s : State) : (setTrig t x s).jobBytes = s.jobBytes := rfl
@[simp] theorem setTrig_chkTurns (t : Nat) (x : TrigSt) (s : State) : (setTrig t x s).chkTurns = s.chkTurns := rfl
@[simp] theorem setTrig_chkAt (t : Nat) (x : TrigSt) (s : State) : (setTrig t x s).chkAt = s.chkAt := rfl
@[simp] theorem setTrig_response (t : Nat) (x : TrigSt) (s : State) : (setTrig t x s).response = s.response := rfl
@[simp] theorem setTrig_debugResponse (t : Nat) (x : TrigSt) (s : State) : (setTrig t x s).debugResponse = s.debugResponse := rfl

/-! `setDram` writes cell alone. -/

@[simp] theorem setDram_pending (c : Nat) (x : DmcSt) (s : State) : (setDram c x s).pending = s.pending := rfl
@[simp] theorem setDram_part (c : Nat) (x : DmcSt) (s : State) : (setDram c x s).part = s.part := rfl
@[simp] theorem setDram_supply (c : Nat) (x : DmcSt) (s : State) : (setDram c x s).supply = s.supply := rfl
@[simp] theorem setDram_porst (c : Nat) (x : DmcSt) (s : State) : (setDram c x s).porst = s.porst := rfl
@[simp] theorem setDram_linkUp (c : Nat) (x : DmcSt) (s : State) : (setDram c x s).linkUp = s.linkUp := rfl
@[simp] theorem setDram_regs (c : Nat) (x : DmcSt) (s : State) : (setDram c x s).regs = s.regs := rfl
@[simp] theorem setDram_latched (c : Nat) (x : DmcSt) (s : State) : (setDram c x s).latched = s.latched := rfl
@[simp] theorem setDram_wide (c : Nat) (x : DmcSt) (s : State) : (setDram c x s).wide = s.wide := rfl
@[simp] theorem setDram_clock (c : Nat) (x : DmcSt) (s : State) : (setDram c x s).clock = s.clock := rfl
@[simp] theorem setDram_elapsed (c : Nat) (x : DmcSt) (s : State) : (setDram c x s).elapsed = s.elapsed := rfl
@[simp] theorem setDram_updates (c : Nat) (x : DmcSt) (s : State) : (setDram c x s).updates = s.updates := rfl
@[simp] theorem setDram_granary (c : Nat) (x : DmcSt) (s : State) : (setDram c x s).granary = s.granary := rfl
@[simp] theorem setDram_cellar (c : Nat) (x : DmcSt) (s : State) : (setDram c x s).cellar = s.cellar := rfl
@[simp] theorem setDram_losses (c : Nat) (x : DmcSt) (s : State) : (setDram c x s).losses = s.losses := rfl
@[simp] theorem setDram_host (c : Nat) (x : DmcSt) (s : State) : (setDram c x s).host = s.host := rfl
@[simp] theorem setDram_bar2 (c : Nat) (x : DmcSt) (s : State) : (setDram c x s).bar2 = s.bar2 := rfl
@[simp] theorem setDram_draws (c : Nat) (x : DmcSt) (s : State) : (setDram c x s).draws = s.draws := rfl
@[simp] theorem setDram_husks (c : Nat) (x : DmcSt) (s : State) : (setDram c x s).husks = s.husks := rfl
@[simp] theorem setDram_accepted (c : Nat) (x : DmcSt) (s : State) : (setDram c x s).accepted = s.accepted := rfl
@[simp] theorem setDram_faults (c : Nat) (x : DmcSt) (s : State) : (setDram c x s).faults = s.faults := rfl
@[simp] theorem setDram_mismatches (c : Nat) (x : DmcSt) (s : State) : (setDram c x s).mismatches = s.mismatches := rfl
@[simp] theorem setDram_damage (c : Nat) (x : DmcSt) (s : State) : (setDram c x s).damage = s.damage := rfl
@[simp] theorem setDram_chans (c : Nat) (x : DmcSt) (s : State) : (setDram c x s).chans = s.chans := rfl
@[simp] theorem setDram_flows (c : Nat) (x : DmcSt) (s : State) : (setDram c x s).flows = s.flows := rfl
@[simp] theorem setDram_engineCycles (c : Nat) (x : DmcSt) (s : State) : (setDram c x s).engineCycles = s.engineCycles := rfl
@[simp] theorem setDram_macTx (c : Nat) (x : DmcSt) (s : State) : (setDram c x s).macTx = s.macTx := rfl
@[simp] theorem setDram_layers (c : Nat) (x : DmcSt) (s : State) : (setDram c x s).layers = s.layers := rfl
@[simp] theorem setDram_heads (c : Nat) (x : DmcSt) (s : State) : (setDram c x s).heads = s.heads := rfl
@[simp] theorem setDram_lanes (c : Nat) (x : DmcSt) (s : State) : (setDram c x s).lanes = s.lanes := rfl
@[simp] theorem setDram_shf (c : Nat) (x : DmcSt) (s : State) : (setDram c x s).shf = s.shf := rfl
@[simp] theorem setDram_rng (c : Nat) (x : DmcSt) (s : State) : (setDram c x s).rng = s.rng := rfl
@[simp] theorem setDram_tim (c : Nat) (x : DmcSt) (s : State) : (setDram c x s).tim = s.tim := rfl
@[simp] theorem setDram_tck (c : Nat) (x : DmcSt) (s : State) : (setDram c x s).tck = s.tck := rfl
@[simp] theorem setDram_flights (c : Nat) (x : DmcSt) (s : State) : (setDram c x s).flights = s.flights := rfl
@[simp] theorem setDram_lcs (c : Nat) (x : DmcSt) (s : State) : (setDram c x s).lcs = s.lcs := rfl
@[simp] theorem setDram_pwr (c : Nat) (x : DmcSt) (s : State) : (setDram c x s).pwr = s.pwr := rfl
@[simp] theorem setDram_tch (c : Nat) (x : DmcSt) (s : State) : (setDram c x s).tch = s.tch := rfl
@[simp] theorem setDram_encs (c : Nat) (x : DmcSt) (s : State) : (setDram c x s).encs = s.encs := rfl
@[simp] theorem setDram_overwritten (c : Nat) (x : DmcSt) (s : State) : (setDram c x s).overwritten = s.overwritten := rfl
@[simp] theorem setDram_jobBytes (c : Nat) (x : DmcSt) (s : State) : (setDram c x s).jobBytes = s.jobBytes := rfl
@[simp] theorem setDram_chkTurns (c : Nat) (x : DmcSt) (s : State) : (setDram c x s).chkTurns = s.chkTurns := rfl
@[simp] theorem setDram_chkAt (c : Nat) (x : DmcSt) (s : State) : (setDram c x s).chkAt = s.chkAt := rfl
@[simp] theorem setDram_response (c : Nat) (x : DmcSt) (s : State) : (setDram c x s).response = s.response := rfl
@[simp] theorem setDram_debugResponse (c : Nat) (x : DmcSt) (s : State) : (setDram c x s).debugResponse = s.debugResponse := rfl

/-! `setChan` writes chans alone. -/

@[simp] theorem setChan_pending (c : Nat) (x : Chan) (s : State) : (setChan c x s).pending = s.pending := rfl
@[simp] theorem setChan_part (c : Nat) (x : Chan) (s : State) : (setChan c x s).part = s.part := rfl
@[simp] theorem setChan_supply (c : Nat) (x : Chan) (s : State) : (setChan c x s).supply = s.supply := rfl
@[simp] theorem setChan_porst (c : Nat) (x : Chan) (s : State) : (setChan c x s).porst = s.porst := rfl
@[simp] theorem setChan_linkUp (c : Nat) (x : Chan) (s : State) : (setChan c x s).linkUp = s.linkUp := rfl
@[simp] theorem setChan_regs (c : Nat) (x : Chan) (s : State) : (setChan c x s).regs = s.regs := rfl
@[simp] theorem setChan_latched (c : Nat) (x : Chan) (s : State) : (setChan c x s).latched = s.latched := rfl
@[simp] theorem setChan_wide (c : Nat) (x : Chan) (s : State) : (setChan c x s).wide = s.wide := rfl
@[simp] theorem setChan_clock (c : Nat) (x : Chan) (s : State) : (setChan c x s).clock = s.clock := rfl
@[simp] theorem setChan_elapsed (c : Nat) (x : Chan) (s : State) : (setChan c x s).elapsed = s.elapsed := rfl
@[simp] theorem setChan_updates (c : Nat) (x : Chan) (s : State) : (setChan c x s).updates = s.updates := rfl
@[simp] theorem setChan_granary (c : Nat) (x : Chan) (s : State) : (setChan c x s).granary = s.granary := rfl
@[simp] theorem setChan_cellar (c : Nat) (x : Chan) (s : State) : (setChan c x s).cellar = s.cellar := rfl
@[simp] theorem setChan_losses (c : Nat) (x : Chan) (s : State) : (setChan c x s).losses = s.losses := rfl
@[simp] theorem setChan_host (c : Nat) (x : Chan) (s : State) : (setChan c x s).host = s.host := rfl
@[simp] theorem setChan_bar2 (c : Nat) (x : Chan) (s : State) : (setChan c x s).bar2 = s.bar2 := rfl
@[simp] theorem setChan_draws (c : Nat) (x : Chan) (s : State) : (setChan c x s).draws = s.draws := rfl
@[simp] theorem setChan_husks (c : Nat) (x : Chan) (s : State) : (setChan c x s).husks = s.husks := rfl
@[simp] theorem setChan_accepted (c : Nat) (x : Chan) (s : State) : (setChan c x s).accepted = s.accepted := rfl
@[simp] theorem setChan_faults (c : Nat) (x : Chan) (s : State) : (setChan c x s).faults = s.faults := rfl
@[simp] theorem setChan_mismatches (c : Nat) (x : Chan) (s : State) : (setChan c x s).mismatches = s.mismatches := rfl
@[simp] theorem setChan_damage (c : Nat) (x : Chan) (s : State) : (setChan c x s).damage = s.damage := rfl
@[simp] theorem setChan_flows (c : Nat) (x : Chan) (s : State) : (setChan c x s).flows = s.flows := rfl
@[simp] theorem setChan_engineCycles (c : Nat) (x : Chan) (s : State) : (setChan c x s).engineCycles = s.engineCycles := rfl
@[simp] theorem setChan_macTx (c : Nat) (x : Chan) (s : State) : (setChan c x s).macTx = s.macTx := rfl
@[simp] theorem setChan_layers (c : Nat) (x : Chan) (s : State) : (setChan c x s).layers = s.layers := rfl
@[simp] theorem setChan_heads (c : Nat) (x : Chan) (s : State) : (setChan c x s).heads = s.heads := rfl
@[simp] theorem setChan_lanes (c : Nat) (x : Chan) (s : State) : (setChan c x s).lanes = s.lanes := rfl
@[simp] theorem setChan_shf (c : Nat) (x : Chan) (s : State) : (setChan c x s).shf = s.shf := rfl
@[simp] theorem setChan_rng (c : Nat) (x : Chan) (s : State) : (setChan c x s).rng = s.rng := rfl
@[simp] theorem setChan_tim (c : Nat) (x : Chan) (s : State) : (setChan c x s).tim = s.tim := rfl
@[simp] theorem setChan_tck (c : Nat) (x : Chan) (s : State) : (setChan c x s).tck = s.tck := rfl
@[simp] theorem setChan_flights (c : Nat) (x : Chan) (s : State) : (setChan c x s).flights = s.flights := rfl
@[simp] theorem setChan_cell (c : Nat) (x : Chan) (s : State) : (setChan c x s).cell = s.cell := rfl
@[simp] theorem setChan_lcs (c : Nat) (x : Chan) (s : State) : (setChan c x s).lcs = s.lcs := rfl
@[simp] theorem setChan_pwr (c : Nat) (x : Chan) (s : State) : (setChan c x s).pwr = s.pwr := rfl
@[simp] theorem setChan_tch (c : Nat) (x : Chan) (s : State) : (setChan c x s).tch = s.tch := rfl
@[simp] theorem setChan_encs (c : Nat) (x : Chan) (s : State) : (setChan c x s).encs = s.encs := rfl
@[simp] theorem setChan_overwritten (c : Nat) (x : Chan) (s : State) : (setChan c x s).overwritten = s.overwritten := rfl
@[simp] theorem setChan_jobBytes (c : Nat) (x : Chan) (s : State) : (setChan c x s).jobBytes = s.jobBytes := rfl
@[simp] theorem setChan_chkTurns (c : Nat) (x : Chan) (s : State) : (setChan c x s).chkTurns = s.chkTurns := rfl
@[simp] theorem setChan_chkAt (c : Nat) (x : Chan) (s : State) : (setChan c x s).chkAt = s.chkAt := rfl
@[simp] theorem setChan_response (c : Nat) (x : Chan) (s : State) : (setChan c x s).response = s.response := rfl
@[simp] theorem setChan_debugResponse (c : Nat) (x : Chan) (s : State) : (setChan c x s).debugResponse = s.debugResponse := rfl

/-! `setFlow` writes flows alone. -/

@[simp] theorem setFlow_pending (f : Nat) (x : Flow) (s : State) : (setFlow f x s).pending = s.pending := rfl
@[simp] theorem setFlow_part (f : Nat) (x : Flow) (s : State) : (setFlow f x s).part = s.part := rfl
@[simp] theorem setFlow_supply (f : Nat) (x : Flow) (s : State) : (setFlow f x s).supply = s.supply := rfl
@[simp] theorem setFlow_porst (f : Nat) (x : Flow) (s : State) : (setFlow f x s).porst = s.porst := rfl
@[simp] theorem setFlow_linkUp (f : Nat) (x : Flow) (s : State) : (setFlow f x s).linkUp = s.linkUp := rfl
@[simp] theorem setFlow_regs (f : Nat) (x : Flow) (s : State) : (setFlow f x s).regs = s.regs := rfl
@[simp] theorem setFlow_latched (f : Nat) (x : Flow) (s : State) : (setFlow f x s).latched = s.latched := rfl
@[simp] theorem setFlow_wide (f : Nat) (x : Flow) (s : State) : (setFlow f x s).wide = s.wide := rfl
@[simp] theorem setFlow_clock (f : Nat) (x : Flow) (s : State) : (setFlow f x s).clock = s.clock := rfl
@[simp] theorem setFlow_elapsed (f : Nat) (x : Flow) (s : State) : (setFlow f x s).elapsed = s.elapsed := rfl
@[simp] theorem setFlow_updates (f : Nat) (x : Flow) (s : State) : (setFlow f x s).updates = s.updates := rfl
@[simp] theorem setFlow_granary (f : Nat) (x : Flow) (s : State) : (setFlow f x s).granary = s.granary := rfl
@[simp] theorem setFlow_cellar (f : Nat) (x : Flow) (s : State) : (setFlow f x s).cellar = s.cellar := rfl
@[simp] theorem setFlow_losses (f : Nat) (x : Flow) (s : State) : (setFlow f x s).losses = s.losses := rfl
@[simp] theorem setFlow_host (f : Nat) (x : Flow) (s : State) : (setFlow f x s).host = s.host := rfl
@[simp] theorem setFlow_bar2 (f : Nat) (x : Flow) (s : State) : (setFlow f x s).bar2 = s.bar2 := rfl
@[simp] theorem setFlow_draws (f : Nat) (x : Flow) (s : State) : (setFlow f x s).draws = s.draws := rfl
@[simp] theorem setFlow_husks (f : Nat) (x : Flow) (s : State) : (setFlow f x s).husks = s.husks := rfl
@[simp] theorem setFlow_accepted (f : Nat) (x : Flow) (s : State) : (setFlow f x s).accepted = s.accepted := rfl
@[simp] theorem setFlow_faults (f : Nat) (x : Flow) (s : State) : (setFlow f x s).faults = s.faults := rfl
@[simp] theorem setFlow_mismatches (f : Nat) (x : Flow) (s : State) : (setFlow f x s).mismatches = s.mismatches := rfl
@[simp] theorem setFlow_damage (f : Nat) (x : Flow) (s : State) : (setFlow f x s).damage = s.damage := rfl
@[simp] theorem setFlow_chans (f : Nat) (x : Flow) (s : State) : (setFlow f x s).chans = s.chans := rfl
@[simp] theorem setFlow_engineCycles (f : Nat) (x : Flow) (s : State) : (setFlow f x s).engineCycles = s.engineCycles := rfl
@[simp] theorem setFlow_macTx (f : Nat) (x : Flow) (s : State) : (setFlow f x s).macTx = s.macTx := rfl
@[simp] theorem setFlow_layers (f : Nat) (x : Flow) (s : State) : (setFlow f x s).layers = s.layers := rfl
@[simp] theorem setFlow_heads (f : Nat) (x : Flow) (s : State) : (setFlow f x s).heads = s.heads := rfl
@[simp] theorem setFlow_lanes (f : Nat) (x : Flow) (s : State) : (setFlow f x s).lanes = s.lanes := rfl
@[simp] theorem setFlow_shf (f : Nat) (x : Flow) (s : State) : (setFlow f x s).shf = s.shf := rfl
@[simp] theorem setFlow_rng (f : Nat) (x : Flow) (s : State) : (setFlow f x s).rng = s.rng := rfl
@[simp] theorem setFlow_tim (f : Nat) (x : Flow) (s : State) : (setFlow f x s).tim = s.tim := rfl
@[simp] theorem setFlow_tck (f : Nat) (x : Flow) (s : State) : (setFlow f x s).tck = s.tck := rfl
@[simp] theorem setFlow_flights (f : Nat) (x : Flow) (s : State) : (setFlow f x s).flights = s.flights := rfl
@[simp] theorem setFlow_cell (f : Nat) (x : Flow) (s : State) : (setFlow f x s).cell = s.cell := rfl
@[simp] theorem setFlow_lcs (f : Nat) (x : Flow) (s : State) : (setFlow f x s).lcs = s.lcs := rfl
@[simp] theorem setFlow_pwr (f : Nat) (x : Flow) (s : State) : (setFlow f x s).pwr = s.pwr := rfl
@[simp] theorem setFlow_tch (f : Nat) (x : Flow) (s : State) : (setFlow f x s).tch = s.tch := rfl
@[simp] theorem setFlow_encs (f : Nat) (x : Flow) (s : State) : (setFlow f x s).encs = s.encs := rfl
@[simp] theorem setFlow_overwritten (f : Nat) (x : Flow) (s : State) : (setFlow f x s).overwritten = s.overwritten := rfl
@[simp] theorem setFlow_jobBytes (f : Nat) (x : Flow) (s : State) : (setFlow f x s).jobBytes = s.jobBytes := rfl
@[simp] theorem setFlow_chkTurns (f : Nat) (x : Flow) (s : State) : (setFlow f x s).chkTurns = s.chkTurns := rfl
@[simp] theorem setFlow_chkAt (f : Nat) (x : Flow) (s : State) : (setFlow f x s).chkAt = s.chkAt := rfl
@[simp] theorem setFlow_response (f : Nat) (x : Flow) (s : State) : (setFlow f x s).response = s.response := rfl
@[simp] theorem setFlow_debugResponse (f : Nat) (x : Flow) (s : State) : (setFlow f x s).debugResponse = s.debugResponse := rfl

/-! `setLayer` writes layers alone. -/

@[simp] theorem setLayer_pending (i : Nat) (x : Layer) (s : State) : (setLayer i x s).pending = s.pending := rfl
@[simp] theorem setLayer_part (i : Nat) (x : Layer) (s : State) : (setLayer i x s).part = s.part := rfl
@[simp] theorem setLayer_supply (i : Nat) (x : Layer) (s : State) : (setLayer i x s).supply = s.supply := rfl
@[simp] theorem setLayer_porst (i : Nat) (x : Layer) (s : State) : (setLayer i x s).porst = s.porst := rfl
@[simp] theorem setLayer_linkUp (i : Nat) (x : Layer) (s : State) : (setLayer i x s).linkUp = s.linkUp := rfl
@[simp] theorem setLayer_regs (i : Nat) (x : Layer) (s : State) : (setLayer i x s).regs = s.regs := rfl
@[simp] theorem setLayer_latched (i : Nat) (x : Layer) (s : State) : (setLayer i x s).latched = s.latched := rfl
@[simp] theorem setLayer_wide (i : Nat) (x : Layer) (s : State) : (setLayer i x s).wide = s.wide := rfl
@[simp] theorem setLayer_clock (i : Nat) (x : Layer) (s : State) : (setLayer i x s).clock = s.clock := rfl
@[simp] theorem setLayer_elapsed (i : Nat) (x : Layer) (s : State) : (setLayer i x s).elapsed = s.elapsed := rfl
@[simp] theorem setLayer_updates (i : Nat) (x : Layer) (s : State) : (setLayer i x s).updates = s.updates := rfl
@[simp] theorem setLayer_granary (i : Nat) (x : Layer) (s : State) : (setLayer i x s).granary = s.granary := rfl
@[simp] theorem setLayer_cellar (i : Nat) (x : Layer) (s : State) : (setLayer i x s).cellar = s.cellar := rfl
@[simp] theorem setLayer_losses (i : Nat) (x : Layer) (s : State) : (setLayer i x s).losses = s.losses := rfl
@[simp] theorem setLayer_host (i : Nat) (x : Layer) (s : State) : (setLayer i x s).host = s.host := rfl
@[simp] theorem setLayer_bar2 (i : Nat) (x : Layer) (s : State) : (setLayer i x s).bar2 = s.bar2 := rfl
@[simp] theorem setLayer_draws (i : Nat) (x : Layer) (s : State) : (setLayer i x s).draws = s.draws := rfl
@[simp] theorem setLayer_husks (i : Nat) (x : Layer) (s : State) : (setLayer i x s).husks = s.husks := rfl
@[simp] theorem setLayer_accepted (i : Nat) (x : Layer) (s : State) : (setLayer i x s).accepted = s.accepted := rfl
@[simp] theorem setLayer_faults (i : Nat) (x : Layer) (s : State) : (setLayer i x s).faults = s.faults := rfl
@[simp] theorem setLayer_mismatches (i : Nat) (x : Layer) (s : State) : (setLayer i x s).mismatches = s.mismatches := rfl
@[simp] theorem setLayer_damage (i : Nat) (x : Layer) (s : State) : (setLayer i x s).damage = s.damage := rfl
@[simp] theorem setLayer_chans (i : Nat) (x : Layer) (s : State) : (setLayer i x s).chans = s.chans := rfl
@[simp] theorem setLayer_flows (i : Nat) (x : Layer) (s : State) : (setLayer i x s).flows = s.flows := rfl
@[simp] theorem setLayer_engineCycles (i : Nat) (x : Layer) (s : State) : (setLayer i x s).engineCycles = s.engineCycles := rfl
@[simp] theorem setLayer_macTx (i : Nat) (x : Layer) (s : State) : (setLayer i x s).macTx = s.macTx := rfl
@[simp] theorem setLayer_heads (i : Nat) (x : Layer) (s : State) : (setLayer i x s).heads = s.heads := rfl
@[simp] theorem setLayer_lanes (i : Nat) (x : Layer) (s : State) : (setLayer i x s).lanes = s.lanes := rfl
@[simp] theorem setLayer_shf (i : Nat) (x : Layer) (s : State) : (setLayer i x s).shf = s.shf := rfl
@[simp] theorem setLayer_rng (i : Nat) (x : Layer) (s : State) : (setLayer i x s).rng = s.rng := rfl
@[simp] theorem setLayer_tim (i : Nat) (x : Layer) (s : State) : (setLayer i x s).tim = s.tim := rfl
@[simp] theorem setLayer_tck (i : Nat) (x : Layer) (s : State) : (setLayer i x s).tck = s.tck := rfl
@[simp] theorem setLayer_flights (i : Nat) (x : Layer) (s : State) : (setLayer i x s).flights = s.flights := rfl
@[simp] theorem setLayer_cell (i : Nat) (x : Layer) (s : State) : (setLayer i x s).cell = s.cell := rfl
@[simp] theorem setLayer_lcs (i : Nat) (x : Layer) (s : State) : (setLayer i x s).lcs = s.lcs := rfl
@[simp] theorem setLayer_pwr (i : Nat) (x : Layer) (s : State) : (setLayer i x s).pwr = s.pwr := rfl
@[simp] theorem setLayer_tch (i : Nat) (x : Layer) (s : State) : (setLayer i x s).tch = s.tch := rfl
@[simp] theorem setLayer_encs (i : Nat) (x : Layer) (s : State) : (setLayer i x s).encs = s.encs := rfl
@[simp] theorem setLayer_overwritten (i : Nat) (x : Layer) (s : State) : (setLayer i x s).overwritten = s.overwritten := rfl
@[simp] theorem setLayer_jobBytes (i : Nat) (x : Layer) (s : State) : (setLayer i x s).jobBytes = s.jobBytes := rfl
@[simp] theorem setLayer_chkTurns (i : Nat) (x : Layer) (s : State) : (setLayer i x s).chkTurns = s.chkTurns := rfl
@[simp] theorem setLayer_chkAt (i : Nat) (x : Layer) (s : State) : (setLayer i x s).chkAt = s.chkAt := rfl
@[simp] theorem setLayer_response (i : Nat) (x : Layer) (s : State) : (setLayer i x s).response = s.response := rfl
@[simp] theorem setLayer_debugResponse (i : Nat) (x : Layer) (s : State) : (setLayer i x s).debugResponse = s.debugResponse := rfl

/-! `setHead` writes heads alone. -/

@[simp] theorem setHead_pending (h : Nat) (x : Head) (s : State) : (setHead h x s).pending = s.pending := rfl
@[simp] theorem setHead_part (h : Nat) (x : Head) (s : State) : (setHead h x s).part = s.part := rfl
@[simp] theorem setHead_supply (h : Nat) (x : Head) (s : State) : (setHead h x s).supply = s.supply := rfl
@[simp] theorem setHead_porst (h : Nat) (x : Head) (s : State) : (setHead h x s).porst = s.porst := rfl
@[simp] theorem setHead_linkUp (h : Nat) (x : Head) (s : State) : (setHead h x s).linkUp = s.linkUp := rfl
@[simp] theorem setHead_regs (h : Nat) (x : Head) (s : State) : (setHead h x s).regs = s.regs := rfl
@[simp] theorem setHead_latched (h : Nat) (x : Head) (s : State) : (setHead h x s).latched = s.latched := rfl
@[simp] theorem setHead_wide (h : Nat) (x : Head) (s : State) : (setHead h x s).wide = s.wide := rfl
@[simp] theorem setHead_clock (h : Nat) (x : Head) (s : State) : (setHead h x s).clock = s.clock := rfl
@[simp] theorem setHead_elapsed (h : Nat) (x : Head) (s : State) : (setHead h x s).elapsed = s.elapsed := rfl
@[simp] theorem setHead_updates (h : Nat) (x : Head) (s : State) : (setHead h x s).updates = s.updates := rfl
@[simp] theorem setHead_granary (h : Nat) (x : Head) (s : State) : (setHead h x s).granary = s.granary := rfl
@[simp] theorem setHead_cellar (h : Nat) (x : Head) (s : State) : (setHead h x s).cellar = s.cellar := rfl
@[simp] theorem setHead_losses (h : Nat) (x : Head) (s : State) : (setHead h x s).losses = s.losses := rfl
@[simp] theorem setHead_host (h : Nat) (x : Head) (s : State) : (setHead h x s).host = s.host := rfl
@[simp] theorem setHead_bar2 (h : Nat) (x : Head) (s : State) : (setHead h x s).bar2 = s.bar2 := rfl
@[simp] theorem setHead_draws (h : Nat) (x : Head) (s : State) : (setHead h x s).draws = s.draws := rfl
@[simp] theorem setHead_husks (h : Nat) (x : Head) (s : State) : (setHead h x s).husks = s.husks := rfl
@[simp] theorem setHead_accepted (h : Nat) (x : Head) (s : State) : (setHead h x s).accepted = s.accepted := rfl
@[simp] theorem setHead_faults (h : Nat) (x : Head) (s : State) : (setHead h x s).faults = s.faults := rfl
@[simp] theorem setHead_mismatches (h : Nat) (x : Head) (s : State) : (setHead h x s).mismatches = s.mismatches := rfl
@[simp] theorem setHead_damage (h : Nat) (x : Head) (s : State) : (setHead h x s).damage = s.damage := rfl
@[simp] theorem setHead_chans (h : Nat) (x : Head) (s : State) : (setHead h x s).chans = s.chans := rfl
@[simp] theorem setHead_flows (h : Nat) (x : Head) (s : State) : (setHead h x s).flows = s.flows := rfl
@[simp] theorem setHead_engineCycles (h : Nat) (x : Head) (s : State) : (setHead h x s).engineCycles = s.engineCycles := rfl
@[simp] theorem setHead_macTx (h : Nat) (x : Head) (s : State) : (setHead h x s).macTx = s.macTx := rfl
@[simp] theorem setHead_layers (h : Nat) (x : Head) (s : State) : (setHead h x s).layers = s.layers := rfl
@[simp] theorem setHead_lanes (h : Nat) (x : Head) (s : State) : (setHead h x s).lanes = s.lanes := rfl
@[simp] theorem setHead_shf (h : Nat) (x : Head) (s : State) : (setHead h x s).shf = s.shf := rfl
@[simp] theorem setHead_rng (h : Nat) (x : Head) (s : State) : (setHead h x s).rng = s.rng := rfl
@[simp] theorem setHead_tim (h : Nat) (x : Head) (s : State) : (setHead h x s).tim = s.tim := rfl
@[simp] theorem setHead_tck (h : Nat) (x : Head) (s : State) : (setHead h x s).tck = s.tck := rfl
@[simp] theorem setHead_flights (h : Nat) (x : Head) (s : State) : (setHead h x s).flights = s.flights := rfl
@[simp] theorem setHead_cell (h : Nat) (x : Head) (s : State) : (setHead h x s).cell = s.cell := rfl
@[simp] theorem setHead_lcs (h : Nat) (x : Head) (s : State) : (setHead h x s).lcs = s.lcs := rfl
@[simp] theorem setHead_pwr (h : Nat) (x : Head) (s : State) : (setHead h x s).pwr = s.pwr := rfl
@[simp] theorem setHead_tch (h : Nat) (x : Head) (s : State) : (setHead h x s).tch = s.tch := rfl
@[simp] theorem setHead_encs (h : Nat) (x : Head) (s : State) : (setHead h x s).encs = s.encs := rfl
@[simp] theorem setHead_overwritten (h : Nat) (x : Head) (s : State) : (setHead h x s).overwritten = s.overwritten := rfl
@[simp] theorem setHead_jobBytes (h : Nat) (x : Head) (s : State) : (setHead h x s).jobBytes = s.jobBytes := rfl
@[simp] theorem setHead_chkTurns (h : Nat) (x : Head) (s : State) : (setHead h x s).chkTurns = s.chkTurns := rfl
@[simp] theorem setHead_chkAt (h : Nat) (x : Head) (s : State) : (setHead h x s).chkAt = s.chkAt := rfl
@[simp] theorem setHead_response (h : Nat) (x : Head) (s : State) : (setHead h x s).response = s.response := rfl
@[simp] theorem setHead_debugResponse (h : Nat) (x : Head) (s : State) : (setHead h x s).debugResponse = s.debugResponse := rfl

/-! `setLane` writes lanes alone. -/

@[simp] theorem setLane_pending (n : Nat) (x : LaneSt) (s : State) : (setLane n x s).pending = s.pending := rfl
@[simp] theorem setLane_part (n : Nat) (x : LaneSt) (s : State) : (setLane n x s).part = s.part := rfl
@[simp] theorem setLane_supply (n : Nat) (x : LaneSt) (s : State) : (setLane n x s).supply = s.supply := rfl
@[simp] theorem setLane_porst (n : Nat) (x : LaneSt) (s : State) : (setLane n x s).porst = s.porst := rfl
@[simp] theorem setLane_linkUp (n : Nat) (x : LaneSt) (s : State) : (setLane n x s).linkUp = s.linkUp := rfl
@[simp] theorem setLane_regs (n : Nat) (x : LaneSt) (s : State) : (setLane n x s).regs = s.regs := rfl
@[simp] theorem setLane_latched (n : Nat) (x : LaneSt) (s : State) : (setLane n x s).latched = s.latched := rfl
@[simp] theorem setLane_wide (n : Nat) (x : LaneSt) (s : State) : (setLane n x s).wide = s.wide := rfl
@[simp] theorem setLane_clock (n : Nat) (x : LaneSt) (s : State) : (setLane n x s).clock = s.clock := rfl
@[simp] theorem setLane_elapsed (n : Nat) (x : LaneSt) (s : State) : (setLane n x s).elapsed = s.elapsed := rfl
@[simp] theorem setLane_updates (n : Nat) (x : LaneSt) (s : State) : (setLane n x s).updates = s.updates := rfl
@[simp] theorem setLane_granary (n : Nat) (x : LaneSt) (s : State) : (setLane n x s).granary = s.granary := rfl
@[simp] theorem setLane_cellar (n : Nat) (x : LaneSt) (s : State) : (setLane n x s).cellar = s.cellar := rfl
@[simp] theorem setLane_losses (n : Nat) (x : LaneSt) (s : State) : (setLane n x s).losses = s.losses := rfl
@[simp] theorem setLane_host (n : Nat) (x : LaneSt) (s : State) : (setLane n x s).host = s.host := rfl
@[simp] theorem setLane_bar2 (n : Nat) (x : LaneSt) (s : State) : (setLane n x s).bar2 = s.bar2 := rfl
@[simp] theorem setLane_draws (n : Nat) (x : LaneSt) (s : State) : (setLane n x s).draws = s.draws := rfl
@[simp] theorem setLane_husks (n : Nat) (x : LaneSt) (s : State) : (setLane n x s).husks = s.husks := rfl
@[simp] theorem setLane_accepted (n : Nat) (x : LaneSt) (s : State) : (setLane n x s).accepted = s.accepted := rfl
@[simp] theorem setLane_faults (n : Nat) (x : LaneSt) (s : State) : (setLane n x s).faults = s.faults := rfl
@[simp] theorem setLane_mismatches (n : Nat) (x : LaneSt) (s : State) : (setLane n x s).mismatches = s.mismatches := rfl
@[simp] theorem setLane_damage (n : Nat) (x : LaneSt) (s : State) : (setLane n x s).damage = s.damage := rfl
@[simp] theorem setLane_chans (n : Nat) (x : LaneSt) (s : State) : (setLane n x s).chans = s.chans := rfl
@[simp] theorem setLane_flows (n : Nat) (x : LaneSt) (s : State) : (setLane n x s).flows = s.flows := rfl
@[simp] theorem setLane_engineCycles (n : Nat) (x : LaneSt) (s : State) : (setLane n x s).engineCycles = s.engineCycles := rfl
@[simp] theorem setLane_macTx (n : Nat) (x : LaneSt) (s : State) : (setLane n x s).macTx = s.macTx := rfl
@[simp] theorem setLane_layers (n : Nat) (x : LaneSt) (s : State) : (setLane n x s).layers = s.layers := rfl
@[simp] theorem setLane_heads (n : Nat) (x : LaneSt) (s : State) : (setLane n x s).heads = s.heads := rfl
@[simp] theorem setLane_shf (n : Nat) (x : LaneSt) (s : State) : (setLane n x s).shf = s.shf := rfl
@[simp] theorem setLane_rng (n : Nat) (x : LaneSt) (s : State) : (setLane n x s).rng = s.rng := rfl
@[simp] theorem setLane_tim (n : Nat) (x : LaneSt) (s : State) : (setLane n x s).tim = s.tim := rfl
@[simp] theorem setLane_tck (n : Nat) (x : LaneSt) (s : State) : (setLane n x s).tck = s.tck := rfl
@[simp] theorem setLane_flights (n : Nat) (x : LaneSt) (s : State) : (setLane n x s).flights = s.flights := rfl
@[simp] theorem setLane_cell (n : Nat) (x : LaneSt) (s : State) : (setLane n x s).cell = s.cell := rfl
@[simp] theorem setLane_lcs (n : Nat) (x : LaneSt) (s : State) : (setLane n x s).lcs = s.lcs := rfl
@[simp] theorem setLane_pwr (n : Nat) (x : LaneSt) (s : State) : (setLane n x s).pwr = s.pwr := rfl
@[simp] theorem setLane_tch (n : Nat) (x : LaneSt) (s : State) : (setLane n x s).tch = s.tch := rfl
@[simp] theorem setLane_encs (n : Nat) (x : LaneSt) (s : State) : (setLane n x s).encs = s.encs := rfl
@[simp] theorem setLane_overwritten (n : Nat) (x : LaneSt) (s : State) : (setLane n x s).overwritten = s.overwritten := rfl
@[simp] theorem setLane_jobBytes (n : Nat) (x : LaneSt) (s : State) : (setLane n x s).jobBytes = s.jobBytes := rfl
@[simp] theorem setLane_chkTurns (n : Nat) (x : LaneSt) (s : State) : (setLane n x s).chkTurns = s.chkTurns := rfl
@[simp] theorem setLane_chkAt (n : Nat) (x : LaneSt) (s : State) : (setLane n x s).chkAt = s.chkAt := rfl
@[simp] theorem setLane_response (n : Nat) (x : LaneSt) (s : State) : (setLane n x s).response = s.response := rfl
@[simp] theorem setLane_debugResponse (n : Nat) (x : LaneSt) (s : State) : (setLane n x s).debugResponse = s.debugResponse := rfl

/-! `setEnc` writes encs alone. -/

@[simp] theorem setEnc_pending (n : Nat) (x : EncSt) (s : State) : (setEnc n x s).pending = s.pending := rfl
@[simp] theorem setEnc_part (n : Nat) (x : EncSt) (s : State) : (setEnc n x s).part = s.part := rfl
@[simp] theorem setEnc_supply (n : Nat) (x : EncSt) (s : State) : (setEnc n x s).supply = s.supply := rfl
@[simp] theorem setEnc_porst (n : Nat) (x : EncSt) (s : State) : (setEnc n x s).porst = s.porst := rfl
@[simp] theorem setEnc_linkUp (n : Nat) (x : EncSt) (s : State) : (setEnc n x s).linkUp = s.linkUp := rfl
@[simp] theorem setEnc_regs (n : Nat) (x : EncSt) (s : State) : (setEnc n x s).regs = s.regs := rfl
@[simp] theorem setEnc_latched (n : Nat) (x : EncSt) (s : State) : (setEnc n x s).latched = s.latched := rfl
@[simp] theorem setEnc_wide (n : Nat) (x : EncSt) (s : State) : (setEnc n x s).wide = s.wide := rfl
@[simp] theorem setEnc_clock (n : Nat) (x : EncSt) (s : State) : (setEnc n x s).clock = s.clock := rfl
@[simp] theorem setEnc_elapsed (n : Nat) (x : EncSt) (s : State) : (setEnc n x s).elapsed = s.elapsed := rfl
@[simp] theorem setEnc_updates (n : Nat) (x : EncSt) (s : State) : (setEnc n x s).updates = s.updates := rfl
@[simp] theorem setEnc_granary (n : Nat) (x : EncSt) (s : State) : (setEnc n x s).granary = s.granary := rfl
@[simp] theorem setEnc_cellar (n : Nat) (x : EncSt) (s : State) : (setEnc n x s).cellar = s.cellar := rfl
@[simp] theorem setEnc_losses (n : Nat) (x : EncSt) (s : State) : (setEnc n x s).losses = s.losses := rfl
@[simp] theorem setEnc_host (n : Nat) (x : EncSt) (s : State) : (setEnc n x s).host = s.host := rfl
@[simp] theorem setEnc_bar2 (n : Nat) (x : EncSt) (s : State) : (setEnc n x s).bar2 = s.bar2 := rfl
@[simp] theorem setEnc_draws (n : Nat) (x : EncSt) (s : State) : (setEnc n x s).draws = s.draws := rfl
@[simp] theorem setEnc_husks (n : Nat) (x : EncSt) (s : State) : (setEnc n x s).husks = s.husks := rfl
@[simp] theorem setEnc_accepted (n : Nat) (x : EncSt) (s : State) : (setEnc n x s).accepted = s.accepted := rfl
@[simp] theorem setEnc_faults (n : Nat) (x : EncSt) (s : State) : (setEnc n x s).faults = s.faults := rfl
@[simp] theorem setEnc_mismatches (n : Nat) (x : EncSt) (s : State) : (setEnc n x s).mismatches = s.mismatches := rfl
@[simp] theorem setEnc_damage (n : Nat) (x : EncSt) (s : State) : (setEnc n x s).damage = s.damage := rfl
@[simp] theorem setEnc_chans (n : Nat) (x : EncSt) (s : State) : (setEnc n x s).chans = s.chans := rfl
@[simp] theorem setEnc_flows (n : Nat) (x : EncSt) (s : State) : (setEnc n x s).flows = s.flows := rfl
@[simp] theorem setEnc_engineCycles (n : Nat) (x : EncSt) (s : State) : (setEnc n x s).engineCycles = s.engineCycles := rfl
@[simp] theorem setEnc_macTx (n : Nat) (x : EncSt) (s : State) : (setEnc n x s).macTx = s.macTx := rfl
@[simp] theorem setEnc_layers (n : Nat) (x : EncSt) (s : State) : (setEnc n x s).layers = s.layers := rfl
@[simp] theorem setEnc_heads (n : Nat) (x : EncSt) (s : State) : (setEnc n x s).heads = s.heads := rfl
@[simp] theorem setEnc_lanes (n : Nat) (x : EncSt) (s : State) : (setEnc n x s).lanes = s.lanes := rfl
@[simp] theorem setEnc_shf (n : Nat) (x : EncSt) (s : State) : (setEnc n x s).shf = s.shf := rfl
@[simp] theorem setEnc_rng (n : Nat) (x : EncSt) (s : State) : (setEnc n x s).rng = s.rng := rfl
@[simp] theorem setEnc_tim (n : Nat) (x : EncSt) (s : State) : (setEnc n x s).tim = s.tim := rfl
@[simp] theorem setEnc_tck (n : Nat) (x : EncSt) (s : State) : (setEnc n x s).tck = s.tck := rfl
@[simp] theorem setEnc_flights (n : Nat) (x : EncSt) (s : State) : (setEnc n x s).flights = s.flights := rfl
@[simp] theorem setEnc_cell (n : Nat) (x : EncSt) (s : State) : (setEnc n x s).cell = s.cell := rfl
@[simp] theorem setEnc_lcs (n : Nat) (x : EncSt) (s : State) : (setEnc n x s).lcs = s.lcs := rfl
@[simp] theorem setEnc_pwr (n : Nat) (x : EncSt) (s : State) : (setEnc n x s).pwr = s.pwr := rfl
@[simp] theorem setEnc_tch (n : Nat) (x : EncSt) (s : State) : (setEnc n x s).tch = s.tch := rfl
@[simp] theorem setEnc_overwritten (n : Nat) (x : EncSt) (s : State) : (setEnc n x s).overwritten = s.overwritten := rfl
@[simp] theorem setEnc_jobBytes (n : Nat) (x : EncSt) (s : State) : (setEnc n x s).jobBytes = s.jobBytes := rfl
@[simp] theorem setEnc_chkTurns (n : Nat) (x : EncSt) (s : State) : (setEnc n x s).chkTurns = s.chkTurns := rfl
@[simp] theorem setEnc_chkAt (n : Nat) (x : EncSt) (s : State) : (setEnc n x s).chkAt = s.chkAt := rfl
@[simp] theorem setEnc_response (n : Nat) (x : EncSt) (s : State) : (setEnc n x s).response = s.response := rfl
@[simp] theorem setEnc_debugResponse (n : Nat) (x : EncSt) (s : State) : (setEnc n x s).debugResponse = s.debugResponse := rfl

/-! `setKey` writes tch alone. -/

@[simp] theorem setKey_pending (k : Nat) (x : KeySt) (s : State) : (setKey k x s).pending = s.pending := rfl
@[simp] theorem setKey_part (k : Nat) (x : KeySt) (s : State) : (setKey k x s).part = s.part := rfl
@[simp] theorem setKey_supply (k : Nat) (x : KeySt) (s : State) : (setKey k x s).supply = s.supply := rfl
@[simp] theorem setKey_porst (k : Nat) (x : KeySt) (s : State) : (setKey k x s).porst = s.porst := rfl
@[simp] theorem setKey_linkUp (k : Nat) (x : KeySt) (s : State) : (setKey k x s).linkUp = s.linkUp := rfl
@[simp] theorem setKey_regs (k : Nat) (x : KeySt) (s : State) : (setKey k x s).regs = s.regs := rfl
@[simp] theorem setKey_latched (k : Nat) (x : KeySt) (s : State) : (setKey k x s).latched = s.latched := rfl
@[simp] theorem setKey_wide (k : Nat) (x : KeySt) (s : State) : (setKey k x s).wide = s.wide := rfl
@[simp] theorem setKey_clock (k : Nat) (x : KeySt) (s : State) : (setKey k x s).clock = s.clock := rfl
@[simp] theorem setKey_elapsed (k : Nat) (x : KeySt) (s : State) : (setKey k x s).elapsed = s.elapsed := rfl
@[simp] theorem setKey_updates (k : Nat) (x : KeySt) (s : State) : (setKey k x s).updates = s.updates := rfl
@[simp] theorem setKey_granary (k : Nat) (x : KeySt) (s : State) : (setKey k x s).granary = s.granary := rfl
@[simp] theorem setKey_cellar (k : Nat) (x : KeySt) (s : State) : (setKey k x s).cellar = s.cellar := rfl
@[simp] theorem setKey_losses (k : Nat) (x : KeySt) (s : State) : (setKey k x s).losses = s.losses := rfl
@[simp] theorem setKey_host (k : Nat) (x : KeySt) (s : State) : (setKey k x s).host = s.host := rfl
@[simp] theorem setKey_bar2 (k : Nat) (x : KeySt) (s : State) : (setKey k x s).bar2 = s.bar2 := rfl
@[simp] theorem setKey_draws (k : Nat) (x : KeySt) (s : State) : (setKey k x s).draws = s.draws := rfl
@[simp] theorem setKey_husks (k : Nat) (x : KeySt) (s : State) : (setKey k x s).husks = s.husks := rfl
@[simp] theorem setKey_accepted (k : Nat) (x : KeySt) (s : State) : (setKey k x s).accepted = s.accepted := rfl
@[simp] theorem setKey_faults (k : Nat) (x : KeySt) (s : State) : (setKey k x s).faults = s.faults := rfl
@[simp] theorem setKey_mismatches (k : Nat) (x : KeySt) (s : State) : (setKey k x s).mismatches = s.mismatches := rfl
@[simp] theorem setKey_damage (k : Nat) (x : KeySt) (s : State) : (setKey k x s).damage = s.damage := rfl
@[simp] theorem setKey_chans (k : Nat) (x : KeySt) (s : State) : (setKey k x s).chans = s.chans := rfl
@[simp] theorem setKey_flows (k : Nat) (x : KeySt) (s : State) : (setKey k x s).flows = s.flows := rfl
@[simp] theorem setKey_engineCycles (k : Nat) (x : KeySt) (s : State) : (setKey k x s).engineCycles = s.engineCycles := rfl
@[simp] theorem setKey_macTx (k : Nat) (x : KeySt) (s : State) : (setKey k x s).macTx = s.macTx := rfl
@[simp] theorem setKey_layers (k : Nat) (x : KeySt) (s : State) : (setKey k x s).layers = s.layers := rfl
@[simp] theorem setKey_heads (k : Nat) (x : KeySt) (s : State) : (setKey k x s).heads = s.heads := rfl
@[simp] theorem setKey_lanes (k : Nat) (x : KeySt) (s : State) : (setKey k x s).lanes = s.lanes := rfl
@[simp] theorem setKey_shf (k : Nat) (x : KeySt) (s : State) : (setKey k x s).shf = s.shf := rfl
@[simp] theorem setKey_rng (k : Nat) (x : KeySt) (s : State) : (setKey k x s).rng = s.rng := rfl
@[simp] theorem setKey_tim (k : Nat) (x : KeySt) (s : State) : (setKey k x s).tim = s.tim := rfl
@[simp] theorem setKey_tck (k : Nat) (x : KeySt) (s : State) : (setKey k x s).tck = s.tck := rfl
@[simp] theorem setKey_flights (k : Nat) (x : KeySt) (s : State) : (setKey k x s).flights = s.flights := rfl
@[simp] theorem setKey_cell (k : Nat) (x : KeySt) (s : State) : (setKey k x s).cell = s.cell := rfl
@[simp] theorem setKey_lcs (k : Nat) (x : KeySt) (s : State) : (setKey k x s).lcs = s.lcs := rfl
@[simp] theorem setKey_pwr (k : Nat) (x : KeySt) (s : State) : (setKey k x s).pwr = s.pwr := rfl
@[simp] theorem setKey_encs (k : Nat) (x : KeySt) (s : State) : (setKey k x s).encs = s.encs := rfl
@[simp] theorem setKey_overwritten (k : Nat) (x : KeySt) (s : State) : (setKey k x s).overwritten = s.overwritten := rfl
@[simp] theorem setKey_jobBytes (k : Nat) (x : KeySt) (s : State) : (setKey k x s).jobBytes = s.jobBytes := rfl
@[simp] theorem setKey_chkTurns (k : Nat) (x : KeySt) (s : State) : (setKey k x s).chkTurns = s.chkTurns := rfl
@[simp] theorem setKey_chkAt (k : Nat) (x : KeySt) (s : State) : (setKey k x s).chkAt = s.chkAt := rfl
@[simp] theorem setKey_response (k : Nat) (x : KeySt) (s : State) : (setKey k x s).response = s.response := rfl
@[simp] theorem setKey_debugResponse (k : Nat) (x : KeySt) (s : State) : (setKey k x s).debugResponse = s.debugResponse := rfl

/-! `setKeySlot` writes lcs alone. -/

@[simp] theorem setKeySlot_pending (k : Nat) (x : KeySlot) (s : State) : (setKeySlot k x s).pending = s.pending := rfl
@[simp] theorem setKeySlot_part (k : Nat) (x : KeySlot) (s : State) : (setKeySlot k x s).part = s.part := rfl
@[simp] theorem setKeySlot_supply (k : Nat) (x : KeySlot) (s : State) : (setKeySlot k x s).supply = s.supply := rfl
@[simp] theorem setKeySlot_porst (k : Nat) (x : KeySlot) (s : State) : (setKeySlot k x s).porst = s.porst := rfl
@[simp] theorem setKeySlot_linkUp (k : Nat) (x : KeySlot) (s : State) : (setKeySlot k x s).linkUp = s.linkUp := rfl
@[simp] theorem setKeySlot_regs (k : Nat) (x : KeySlot) (s : State) : (setKeySlot k x s).regs = s.regs := rfl
@[simp] theorem setKeySlot_latched (k : Nat) (x : KeySlot) (s : State) : (setKeySlot k x s).latched = s.latched := rfl
@[simp] theorem setKeySlot_wide (k : Nat) (x : KeySlot) (s : State) : (setKeySlot k x s).wide = s.wide := rfl
@[simp] theorem setKeySlot_clock (k : Nat) (x : KeySlot) (s : State) : (setKeySlot k x s).clock = s.clock := rfl
@[simp] theorem setKeySlot_elapsed (k : Nat) (x : KeySlot) (s : State) : (setKeySlot k x s).elapsed = s.elapsed := rfl
@[simp] theorem setKeySlot_updates (k : Nat) (x : KeySlot) (s : State) : (setKeySlot k x s).updates = s.updates := rfl
@[simp] theorem setKeySlot_granary (k : Nat) (x : KeySlot) (s : State) : (setKeySlot k x s).granary = s.granary := rfl
@[simp] theorem setKeySlot_cellar (k : Nat) (x : KeySlot) (s : State) : (setKeySlot k x s).cellar = s.cellar := rfl
@[simp] theorem setKeySlot_losses (k : Nat) (x : KeySlot) (s : State) : (setKeySlot k x s).losses = s.losses := rfl
@[simp] theorem setKeySlot_host (k : Nat) (x : KeySlot) (s : State) : (setKeySlot k x s).host = s.host := rfl
@[simp] theorem setKeySlot_bar2 (k : Nat) (x : KeySlot) (s : State) : (setKeySlot k x s).bar2 = s.bar2 := rfl
@[simp] theorem setKeySlot_draws (k : Nat) (x : KeySlot) (s : State) : (setKeySlot k x s).draws = s.draws := rfl
@[simp] theorem setKeySlot_husks (k : Nat) (x : KeySlot) (s : State) : (setKeySlot k x s).husks = s.husks := rfl
@[simp] theorem setKeySlot_accepted (k : Nat) (x : KeySlot) (s : State) : (setKeySlot k x s).accepted = s.accepted := rfl
@[simp] theorem setKeySlot_faults (k : Nat) (x : KeySlot) (s : State) : (setKeySlot k x s).faults = s.faults := rfl
@[simp] theorem setKeySlot_mismatches (k : Nat) (x : KeySlot) (s : State) : (setKeySlot k x s).mismatches = s.mismatches := rfl
@[simp] theorem setKeySlot_damage (k : Nat) (x : KeySlot) (s : State) : (setKeySlot k x s).damage = s.damage := rfl
@[simp] theorem setKeySlot_chans (k : Nat) (x : KeySlot) (s : State) : (setKeySlot k x s).chans = s.chans := rfl
@[simp] theorem setKeySlot_flows (k : Nat) (x : KeySlot) (s : State) : (setKeySlot k x s).flows = s.flows := rfl
@[simp] theorem setKeySlot_engineCycles (k : Nat) (x : KeySlot) (s : State) : (setKeySlot k x s).engineCycles = s.engineCycles := rfl
@[simp] theorem setKeySlot_macTx (k : Nat) (x : KeySlot) (s : State) : (setKeySlot k x s).macTx = s.macTx := rfl
@[simp] theorem setKeySlot_layers (k : Nat) (x : KeySlot) (s : State) : (setKeySlot k x s).layers = s.layers := rfl
@[simp] theorem setKeySlot_heads (k : Nat) (x : KeySlot) (s : State) : (setKeySlot k x s).heads = s.heads := rfl
@[simp] theorem setKeySlot_lanes (k : Nat) (x : KeySlot) (s : State) : (setKeySlot k x s).lanes = s.lanes := rfl
@[simp] theorem setKeySlot_shf (k : Nat) (x : KeySlot) (s : State) : (setKeySlot k x s).shf = s.shf := rfl
@[simp] theorem setKeySlot_rng (k : Nat) (x : KeySlot) (s : State) : (setKeySlot k x s).rng = s.rng := rfl
@[simp] theorem setKeySlot_tim (k : Nat) (x : KeySlot) (s : State) : (setKeySlot k x s).tim = s.tim := rfl
@[simp] theorem setKeySlot_tck (k : Nat) (x : KeySlot) (s : State) : (setKeySlot k x s).tck = s.tck := rfl
@[simp] theorem setKeySlot_flights (k : Nat) (x : KeySlot) (s : State) : (setKeySlot k x s).flights = s.flights := rfl
@[simp] theorem setKeySlot_cell (k : Nat) (x : KeySlot) (s : State) : (setKeySlot k x s).cell = s.cell := rfl
@[simp] theorem setKeySlot_pwr (k : Nat) (x : KeySlot) (s : State) : (setKeySlot k x s).pwr = s.pwr := rfl
@[simp] theorem setKeySlot_tch (k : Nat) (x : KeySlot) (s : State) : (setKeySlot k x s).tch = s.tch := rfl
@[simp] theorem setKeySlot_encs (k : Nat) (x : KeySlot) (s : State) : (setKeySlot k x s).encs = s.encs := rfl
@[simp] theorem setKeySlot_overwritten (k : Nat) (x : KeySlot) (s : State) : (setKeySlot k x s).overwritten = s.overwritten := rfl
@[simp] theorem setKeySlot_jobBytes (k : Nat) (x : KeySlot) (s : State) : (setKeySlot k x s).jobBytes = s.jobBytes := rfl
@[simp] theorem setKeySlot_chkTurns (k : Nat) (x : KeySlot) (s : State) : (setKeySlot k x s).chkTurns = s.chkTurns := rfl
@[simp] theorem setKeySlot_chkAt (k : Nat) (x : KeySlot) (s : State) : (setKeySlot k x s).chkAt = s.chkAt := rfl
@[simp] theorem setKeySlot_response (k : Nat) (x : KeySlot) (s : State) : (setKeySlot k x s).response = s.response := rfl
@[simp] theorem setKeySlot_debugResponse (k : Nat) (x : KeySlot) (s : State) : (setKeySlot k x s).debugResponse = s.debugResponse := rfl

/-! `huskDrop` writes husks alone. -/

@[simp] theorem huskDrop_pending (off : Nat) (s : State) : (huskDrop off s).pending = s.pending := rfl
@[simp] theorem huskDrop_part (off : Nat) (s : State) : (huskDrop off s).part = s.part := rfl
@[simp] theorem huskDrop_supply (off : Nat) (s : State) : (huskDrop off s).supply = s.supply := rfl
@[simp] theorem huskDrop_porst (off : Nat) (s : State) : (huskDrop off s).porst = s.porst := rfl
@[simp] theorem huskDrop_linkUp (off : Nat) (s : State) : (huskDrop off s).linkUp = s.linkUp := rfl
@[simp] theorem huskDrop_regs (off : Nat) (s : State) : (huskDrop off s).regs = s.regs := rfl
@[simp] theorem huskDrop_latched (off : Nat) (s : State) : (huskDrop off s).latched = s.latched := rfl
@[simp] theorem huskDrop_wide (off : Nat) (s : State) : (huskDrop off s).wide = s.wide := rfl
@[simp] theorem huskDrop_clock (off : Nat) (s : State) : (huskDrop off s).clock = s.clock := rfl
@[simp] theorem huskDrop_elapsed (off : Nat) (s : State) : (huskDrop off s).elapsed = s.elapsed := rfl
@[simp] theorem huskDrop_updates (off : Nat) (s : State) : (huskDrop off s).updates = s.updates := rfl
@[simp] theorem huskDrop_granary (off : Nat) (s : State) : (huskDrop off s).granary = s.granary := rfl
@[simp] theorem huskDrop_cellar (off : Nat) (s : State) : (huskDrop off s).cellar = s.cellar := rfl
@[simp] theorem huskDrop_losses (off : Nat) (s : State) : (huskDrop off s).losses = s.losses := rfl
@[simp] theorem huskDrop_host (off : Nat) (s : State) : (huskDrop off s).host = s.host := rfl
@[simp] theorem huskDrop_bar2 (off : Nat) (s : State) : (huskDrop off s).bar2 = s.bar2 := rfl
@[simp] theorem huskDrop_draws (off : Nat) (s : State) : (huskDrop off s).draws = s.draws := rfl
@[simp] theorem huskDrop_accepted (off : Nat) (s : State) : (huskDrop off s).accepted = s.accepted := rfl
@[simp] theorem huskDrop_faults (off : Nat) (s : State) : (huskDrop off s).faults = s.faults := rfl
@[simp] theorem huskDrop_mismatches (off : Nat) (s : State) : (huskDrop off s).mismatches = s.mismatches := rfl
@[simp] theorem huskDrop_damage (off : Nat) (s : State) : (huskDrop off s).damage = s.damage := rfl
@[simp] theorem huskDrop_chans (off : Nat) (s : State) : (huskDrop off s).chans = s.chans := rfl
@[simp] theorem huskDrop_flows (off : Nat) (s : State) : (huskDrop off s).flows = s.flows := rfl
@[simp] theorem huskDrop_engineCycles (off : Nat) (s : State) : (huskDrop off s).engineCycles = s.engineCycles := rfl
@[simp] theorem huskDrop_macTx (off : Nat) (s : State) : (huskDrop off s).macTx = s.macTx := rfl
@[simp] theorem huskDrop_layers (off : Nat) (s : State) : (huskDrop off s).layers = s.layers := rfl
@[simp] theorem huskDrop_heads (off : Nat) (s : State) : (huskDrop off s).heads = s.heads := rfl
@[simp] theorem huskDrop_lanes (off : Nat) (s : State) : (huskDrop off s).lanes = s.lanes := rfl
@[simp] theorem huskDrop_shf (off : Nat) (s : State) : (huskDrop off s).shf = s.shf := rfl
@[simp] theorem huskDrop_rng (off : Nat) (s : State) : (huskDrop off s).rng = s.rng := rfl
@[simp] theorem huskDrop_tim (off : Nat) (s : State) : (huskDrop off s).tim = s.tim := rfl
@[simp] theorem huskDrop_tck (off : Nat) (s : State) : (huskDrop off s).tck = s.tck := rfl
@[simp] theorem huskDrop_flights (off : Nat) (s : State) : (huskDrop off s).flights = s.flights := rfl
@[simp] theorem huskDrop_cell (off : Nat) (s : State) : (huskDrop off s).cell = s.cell := rfl
@[simp] theorem huskDrop_lcs (off : Nat) (s : State) : (huskDrop off s).lcs = s.lcs := rfl
@[simp] theorem huskDrop_pwr (off : Nat) (s : State) : (huskDrop off s).pwr = s.pwr := rfl
@[simp] theorem huskDrop_tch (off : Nat) (s : State) : (huskDrop off s).tch = s.tch := rfl
@[simp] theorem huskDrop_encs (off : Nat) (s : State) : (huskDrop off s).encs = s.encs := rfl
@[simp] theorem huskDrop_overwritten (off : Nat) (s : State) : (huskDrop off s).overwritten = s.overwritten := rfl
@[simp] theorem huskDrop_jobBytes (off : Nat) (s : State) : (huskDrop off s).jobBytes = s.jobBytes := rfl
@[simp] theorem huskDrop_chkTurns (off : Nat) (s : State) : (huskDrop off s).chkTurns = s.chkTurns := rfl
@[simp] theorem huskDrop_chkAt (off : Nat) (s : State) : (huskDrop off s).chkAt = s.chkAt := rfl
@[simp] theorem huskDrop_response (off : Nat) (s : State) : (huskDrop off s).response = s.response := rfl
@[simp] theorem huskDrop_debugResponse (off : Nat) (s : State) : (huskDrop off s).debugResponse = s.debugResponse := rfl

/-! What the operations write. -/

@[simp] theorem wr_regs (s : State) (off v : Nat) : (wr s off v).regs = smSet regReset s.regs off (BitVec.ofNat 32 v) := rfl
@[simp] theorem passUpdates_elapsed (n : Nat) (s : State) : (passUpdates n s).elapsed = s.elapsed + n * inc s := rfl
@[simp] theorem passUpdates_clock (n : Nat) (s : State) : (passUpdates n s).clock = s.clock + n * inc s := rfl
@[simp] theorem passUpdates_updates (n : Nat) (s : State) : (passUpdates n s).updates = s.updates + n := rfl

/-! `setFld` writes regs alone. -/

@[simp] theorem setFld_pending (s : State) (off hi lo v : Nat) : (setFld s off hi lo v).pending = s.pending := rfl
@[simp] theorem setFld_part (s : State) (off hi lo v : Nat) : (setFld s off hi lo v).part = s.part := rfl
@[simp] theorem setFld_supply (s : State) (off hi lo v : Nat) : (setFld s off hi lo v).supply = s.supply := rfl
@[simp] theorem setFld_porst (s : State) (off hi lo v : Nat) : (setFld s off hi lo v).porst = s.porst := rfl
@[simp] theorem setFld_linkUp (s : State) (off hi lo v : Nat) : (setFld s off hi lo v).linkUp = s.linkUp := rfl
@[simp] theorem setFld_latched (s : State) (off hi lo v : Nat) : (setFld s off hi lo v).latched = s.latched := rfl
@[simp] theorem setFld_wide (s : State) (off hi lo v : Nat) : (setFld s off hi lo v).wide = s.wide := rfl
@[simp] theorem setFld_clock (s : State) (off hi lo v : Nat) : (setFld s off hi lo v).clock = s.clock := rfl
@[simp] theorem setFld_elapsed (s : State) (off hi lo v : Nat) : (setFld s off hi lo v).elapsed = s.elapsed := rfl
@[simp] theorem setFld_updates (s : State) (off hi lo v : Nat) : (setFld s off hi lo v).updates = s.updates := rfl
@[simp] theorem setFld_granary (s : State) (off hi lo v : Nat) : (setFld s off hi lo v).granary = s.granary := rfl
@[simp] theorem setFld_cellar (s : State) (off hi lo v : Nat) : (setFld s off hi lo v).cellar = s.cellar := rfl
@[simp] theorem setFld_losses (s : State) (off hi lo v : Nat) : (setFld s off hi lo v).losses = s.losses := rfl
@[simp] theorem setFld_host (s : State) (off hi lo v : Nat) : (setFld s off hi lo v).host = s.host := rfl
@[simp] theorem setFld_bar2 (s : State) (off hi lo v : Nat) : (setFld s off hi lo v).bar2 = s.bar2 := rfl
@[simp] theorem setFld_draws (s : State) (off hi lo v : Nat) : (setFld s off hi lo v).draws = s.draws := rfl
@[simp] theorem setFld_husks (s : State) (off hi lo v : Nat) : (setFld s off hi lo v).husks = s.husks := rfl
@[simp] theorem setFld_accepted (s : State) (off hi lo v : Nat) : (setFld s off hi lo v).accepted = s.accepted := rfl
@[simp] theorem setFld_faults (s : State) (off hi lo v : Nat) : (setFld s off hi lo v).faults = s.faults := rfl
@[simp] theorem setFld_mismatches (s : State) (off hi lo v : Nat) : (setFld s off hi lo v).mismatches = s.mismatches := rfl
@[simp] theorem setFld_damage (s : State) (off hi lo v : Nat) : (setFld s off hi lo v).damage = s.damage := rfl
@[simp] theorem setFld_chans (s : State) (off hi lo v : Nat) : (setFld s off hi lo v).chans = s.chans := rfl
@[simp] theorem setFld_flows (s : State) (off hi lo v : Nat) : (setFld s off hi lo v).flows = s.flows := rfl
@[simp] theorem setFld_engineCycles (s : State) (off hi lo v : Nat) : (setFld s off hi lo v).engineCycles = s.engineCycles := rfl
@[simp] theorem setFld_macTx (s : State) (off hi lo v : Nat) : (setFld s off hi lo v).macTx = s.macTx := rfl
@[simp] theorem setFld_layers (s : State) (off hi lo v : Nat) : (setFld s off hi lo v).layers = s.layers := rfl
@[simp] theorem setFld_heads (s : State) (off hi lo v : Nat) : (setFld s off hi lo v).heads = s.heads := rfl
@[simp] theorem setFld_lanes (s : State) (off hi lo v : Nat) : (setFld s off hi lo v).lanes = s.lanes := rfl
@[simp] theorem setFld_shf (s : State) (off hi lo v : Nat) : (setFld s off hi lo v).shf = s.shf := rfl
@[simp] theorem setFld_rng (s : State) (off hi lo v : Nat) : (setFld s off hi lo v).rng = s.rng := rfl
@[simp] theorem setFld_tim (s : State) (off hi lo v : Nat) : (setFld s off hi lo v).tim = s.tim := rfl
@[simp] theorem setFld_tck (s : State) (off hi lo v : Nat) : (setFld s off hi lo v).tck = s.tck := rfl
@[simp] theorem setFld_flights (s : State) (off hi lo v : Nat) : (setFld s off hi lo v).flights = s.flights := rfl
@[simp] theorem setFld_cell (s : State) (off hi lo v : Nat) : (setFld s off hi lo v).cell = s.cell := rfl
@[simp] theorem setFld_lcs (s : State) (off hi lo v : Nat) : (setFld s off hi lo v).lcs = s.lcs := rfl
@[simp] theorem setFld_pwr (s : State) (off hi lo v : Nat) : (setFld s off hi lo v).pwr = s.pwr := rfl
@[simp] theorem setFld_tch (s : State) (off hi lo v : Nat) : (setFld s off hi lo v).tch = s.tch := rfl
@[simp] theorem setFld_encs (s : State) (off hi lo v : Nat) : (setFld s off hi lo v).encs = s.encs := rfl
@[simp] theorem setFld_overwritten (s : State) (off hi lo v : Nat) : (setFld s off hi lo v).overwritten = s.overwritten := rfl
@[simp] theorem setFld_jobBytes (s : State) (off hi lo v : Nat) : (setFld s off hi lo v).jobBytes = s.jobBytes := rfl
@[simp] theorem setFld_chkTurns (s : State) (off hi lo v : Nat) : (setFld s off hi lo v).chkTurns = s.chkTurns := rfl
@[simp] theorem setFld_chkAt (s : State) (off hi lo v : Nat) : (setFld s off hi lo v).chkAt = s.chkAt := rfl
@[simp] theorem setFld_response (s : State) (off hi lo v : Nat) : (setFld s off hi lo v).response = s.response := rfl
@[simp] theorem setFld_debugResponse (s : State) (off hi lo v : Nat) : (setFld s off hi lo v).debugResponse = s.debugResponse := rfl

/-! `setFlag` writes regs alone. -/

@[simp] theorem setFlag_pending (s : State) (off i : Nat) (b : Bool) : (setFlag s off i b).pending = s.pending := rfl
@[simp] theorem setFlag_part (s : State) (off i : Nat) (b : Bool) : (setFlag s off i b).part = s.part := rfl
@[simp] theorem setFlag_supply (s : State) (off i : Nat) (b : Bool) : (setFlag s off i b).supply = s.supply := rfl
@[simp] theorem setFlag_porst (s : State) (off i : Nat) (b : Bool) : (setFlag s off i b).porst = s.porst := rfl
@[simp] theorem setFlag_linkUp (s : State) (off i : Nat) (b : Bool) : (setFlag s off i b).linkUp = s.linkUp := rfl
@[simp] theorem setFlag_latched (s : State) (off i : Nat) (b : Bool) : (setFlag s off i b).latched = s.latched := rfl
@[simp] theorem setFlag_wide (s : State) (off i : Nat) (b : Bool) : (setFlag s off i b).wide = s.wide := rfl
@[simp] theorem setFlag_clock (s : State) (off i : Nat) (b : Bool) : (setFlag s off i b).clock = s.clock := rfl
@[simp] theorem setFlag_elapsed (s : State) (off i : Nat) (b : Bool) : (setFlag s off i b).elapsed = s.elapsed := rfl
@[simp] theorem setFlag_updates (s : State) (off i : Nat) (b : Bool) : (setFlag s off i b).updates = s.updates := rfl
@[simp] theorem setFlag_granary (s : State) (off i : Nat) (b : Bool) : (setFlag s off i b).granary = s.granary := rfl
@[simp] theorem setFlag_cellar (s : State) (off i : Nat) (b : Bool) : (setFlag s off i b).cellar = s.cellar := rfl
@[simp] theorem setFlag_losses (s : State) (off i : Nat) (b : Bool) : (setFlag s off i b).losses = s.losses := rfl
@[simp] theorem setFlag_host (s : State) (off i : Nat) (b : Bool) : (setFlag s off i b).host = s.host := rfl
@[simp] theorem setFlag_bar2 (s : State) (off i : Nat) (b : Bool) : (setFlag s off i b).bar2 = s.bar2 := rfl
@[simp] theorem setFlag_draws (s : State) (off i : Nat) (b : Bool) : (setFlag s off i b).draws = s.draws := rfl
@[simp] theorem setFlag_husks (s : State) (off i : Nat) (b : Bool) : (setFlag s off i b).husks = s.husks := rfl
@[simp] theorem setFlag_accepted (s : State) (off i : Nat) (b : Bool) : (setFlag s off i b).accepted = s.accepted := rfl
@[simp] theorem setFlag_faults (s : State) (off i : Nat) (b : Bool) : (setFlag s off i b).faults = s.faults := rfl
@[simp] theorem setFlag_mismatches (s : State) (off i : Nat) (b : Bool) : (setFlag s off i b).mismatches = s.mismatches := rfl
@[simp] theorem setFlag_damage (s : State) (off i : Nat) (b : Bool) : (setFlag s off i b).damage = s.damage := rfl
@[simp] theorem setFlag_chans (s : State) (off i : Nat) (b : Bool) : (setFlag s off i b).chans = s.chans := rfl
@[simp] theorem setFlag_flows (s : State) (off i : Nat) (b : Bool) : (setFlag s off i b).flows = s.flows := rfl
@[simp] theorem setFlag_engineCycles (s : State) (off i : Nat) (b : Bool) : (setFlag s off i b).engineCycles = s.engineCycles := rfl
@[simp] theorem setFlag_macTx (s : State) (off i : Nat) (b : Bool) : (setFlag s off i b).macTx = s.macTx := rfl
@[simp] theorem setFlag_layers (s : State) (off i : Nat) (b : Bool) : (setFlag s off i b).layers = s.layers := rfl
@[simp] theorem setFlag_heads (s : State) (off i : Nat) (b : Bool) : (setFlag s off i b).heads = s.heads := rfl
@[simp] theorem setFlag_lanes (s : State) (off i : Nat) (b : Bool) : (setFlag s off i b).lanes = s.lanes := rfl
@[simp] theorem setFlag_shf (s : State) (off i : Nat) (b : Bool) : (setFlag s off i b).shf = s.shf := rfl
@[simp] theorem setFlag_rng (s : State) (off i : Nat) (b : Bool) : (setFlag s off i b).rng = s.rng := rfl
@[simp] theorem setFlag_tim (s : State) (off i : Nat) (b : Bool) : (setFlag s off i b).tim = s.tim := rfl
@[simp] theorem setFlag_tck (s : State) (off i : Nat) (b : Bool) : (setFlag s off i b).tck = s.tck := rfl
@[simp] theorem setFlag_flights (s : State) (off i : Nat) (b : Bool) : (setFlag s off i b).flights = s.flights := rfl
@[simp] theorem setFlag_cell (s : State) (off i : Nat) (b : Bool) : (setFlag s off i b).cell = s.cell := rfl
@[simp] theorem setFlag_lcs (s : State) (off i : Nat) (b : Bool) : (setFlag s off i b).lcs = s.lcs := rfl
@[simp] theorem setFlag_pwr (s : State) (off i : Nat) (b : Bool) : (setFlag s off i b).pwr = s.pwr := rfl
@[simp] theorem setFlag_tch (s : State) (off i : Nat) (b : Bool) : (setFlag s off i b).tch = s.tch := rfl
@[simp] theorem setFlag_encs (s : State) (off i : Nat) (b : Bool) : (setFlag s off i b).encs = s.encs := rfl
@[simp] theorem setFlag_overwritten (s : State) (off i : Nat) (b : Bool) : (setFlag s off i b).overwritten = s.overwritten := rfl
@[simp] theorem setFlag_jobBytes (s : State) (off i : Nat) (b : Bool) : (setFlag s off i b).jobBytes = s.jobBytes := rfl
@[simp] theorem setFlag_chkTurns (s : State) (off i : Nat) (b : Bool) : (setFlag s off i b).chkTurns = s.chkTurns := rfl
@[simp] theorem setFlag_chkAt (s : State) (off i : Nat) (b : Bool) : (setFlag s off i b).chkAt = s.chkAt := rfl
@[simp] theorem setFlag_response (s : State) (off i : Nat) (b : Bool) : (setFlag s off i b).response = s.response := rfl
@[simp] theorem setFlag_debugResponse (s : State) (off i : Nat) (b : Bool) : (setFlag s off i b).debugResponse = s.debugResponse := rfl

/-! `addReg` writes regs alone. -/

@[simp] theorem addReg_pending (s : State) (off n : Nat) : (addReg s off n).pending = s.pending := rfl
@[simp] theorem addReg_part (s : State) (off n : Nat) : (addReg s off n).part = s.part := rfl
@[simp] theorem addReg_supply (s : State) (off n : Nat) : (addReg s off n).supply = s.supply := rfl
@[simp] theorem addReg_porst (s : State) (off n : Nat) : (addReg s off n).porst = s.porst := rfl
@[simp] theorem addReg_linkUp (s : State) (off n : Nat) : (addReg s off n).linkUp = s.linkUp := rfl
@[simp] theorem addReg_latched (s : State) (off n : Nat) : (addReg s off n).latched = s.latched := rfl
@[simp] theorem addReg_wide (s : State) (off n : Nat) : (addReg s off n).wide = s.wide := rfl
@[simp] theorem addReg_clock (s : State) (off n : Nat) : (addReg s off n).clock = s.clock := rfl
@[simp] theorem addReg_elapsed (s : State) (off n : Nat) : (addReg s off n).elapsed = s.elapsed := rfl
@[simp] theorem addReg_updates (s : State) (off n : Nat) : (addReg s off n).updates = s.updates := rfl
@[simp] theorem addReg_granary (s : State) (off n : Nat) : (addReg s off n).granary = s.granary := rfl
@[simp] theorem addReg_cellar (s : State) (off n : Nat) : (addReg s off n).cellar = s.cellar := rfl
@[simp] theorem addReg_losses (s : State) (off n : Nat) : (addReg s off n).losses = s.losses := rfl
@[simp] theorem addReg_host (s : State) (off n : Nat) : (addReg s off n).host = s.host := rfl
@[simp] theorem addReg_bar2 (s : State) (off n : Nat) : (addReg s off n).bar2 = s.bar2 := rfl
@[simp] theorem addReg_draws (s : State) (off n : Nat) : (addReg s off n).draws = s.draws := rfl
@[simp] theorem addReg_husks (s : State) (off n : Nat) : (addReg s off n).husks = s.husks := rfl
@[simp] theorem addReg_accepted (s : State) (off n : Nat) : (addReg s off n).accepted = s.accepted := rfl
@[simp] theorem addReg_faults (s : State) (off n : Nat) : (addReg s off n).faults = s.faults := rfl
@[simp] theorem addReg_mismatches (s : State) (off n : Nat) : (addReg s off n).mismatches = s.mismatches := rfl
@[simp] theorem addReg_damage (s : State) (off n : Nat) : (addReg s off n).damage = s.damage := rfl
@[simp] theorem addReg_chans (s : State) (off n : Nat) : (addReg s off n).chans = s.chans := rfl
@[simp] theorem addReg_flows (s : State) (off n : Nat) : (addReg s off n).flows = s.flows := rfl
@[simp] theorem addReg_engineCycles (s : State) (off n : Nat) : (addReg s off n).engineCycles = s.engineCycles := rfl
@[simp] theorem addReg_macTx (s : State) (off n : Nat) : (addReg s off n).macTx = s.macTx := rfl
@[simp] theorem addReg_layers (s : State) (off n : Nat) : (addReg s off n).layers = s.layers := rfl
@[simp] theorem addReg_heads (s : State) (off n : Nat) : (addReg s off n).heads = s.heads := rfl
@[simp] theorem addReg_lanes (s : State) (off n : Nat) : (addReg s off n).lanes = s.lanes := rfl
@[simp] theorem addReg_shf (s : State) (off n : Nat) : (addReg s off n).shf = s.shf := rfl
@[simp] theorem addReg_rng (s : State) (off n : Nat) : (addReg s off n).rng = s.rng := rfl
@[simp] theorem addReg_tim (s : State) (off n : Nat) : (addReg s off n).tim = s.tim := rfl
@[simp] theorem addReg_tck (s : State) (off n : Nat) : (addReg s off n).tck = s.tck := rfl
@[simp] theorem addReg_flights (s : State) (off n : Nat) : (addReg s off n).flights = s.flights := rfl
@[simp] theorem addReg_cell (s : State) (off n : Nat) : (addReg s off n).cell = s.cell := rfl
@[simp] theorem addReg_lcs (s : State) (off n : Nat) : (addReg s off n).lcs = s.lcs := rfl
@[simp] theorem addReg_pwr (s : State) (off n : Nat) : (addReg s off n).pwr = s.pwr := rfl
@[simp] theorem addReg_tch (s : State) (off n : Nat) : (addReg s off n).tch = s.tch := rfl
@[simp] theorem addReg_encs (s : State) (off n : Nat) : (addReg s off n).encs = s.encs := rfl
@[simp] theorem addReg_overwritten (s : State) (off n : Nat) : (addReg s off n).overwritten = s.overwritten := rfl
@[simp] theorem addReg_jobBytes (s : State) (off n : Nat) : (addReg s off n).jobBytes = s.jobBytes := rfl
@[simp] theorem addReg_chkTurns (s : State) (off n : Nat) : (addReg s off n).chkTurns = s.chkTurns := rfl
@[simp] theorem addReg_chkAt (s : State) (off n : Nat) : (addReg s off n).chkAt = s.chkAt := rfl
@[simp] theorem addReg_response (s : State) (off n : Nat) : (addReg s off n).response = s.response := rfl
@[simp] theorem addReg_debugResponse (s : State) (off n : Nat) : (addReg s off n).debugResponse = s.debugResponse := rfl

/-! `addFld` writes regs alone. -/

@[simp] theorem addFld_pending (s : State) (off hi lo n : Nat) : (addFld s off hi lo n).pending = s.pending := rfl
@[simp] theorem addFld_part (s : State) (off hi lo n : Nat) : (addFld s off hi lo n).part = s.part := rfl
@[simp] theorem addFld_supply (s : State) (off hi lo n : Nat) : (addFld s off hi lo n).supply = s.supply := rfl
@[simp] theorem addFld_porst (s : State) (off hi lo n : Nat) : (addFld s off hi lo n).porst = s.porst := rfl
@[simp] theorem addFld_linkUp (s : State) (off hi lo n : Nat) : (addFld s off hi lo n).linkUp = s.linkUp := rfl
@[simp] theorem addFld_latched (s : State) (off hi lo n : Nat) : (addFld s off hi lo n).latched = s.latched := rfl
@[simp] theorem addFld_wide (s : State) (off hi lo n : Nat) : (addFld s off hi lo n).wide = s.wide := rfl
@[simp] theorem addFld_clock (s : State) (off hi lo n : Nat) : (addFld s off hi lo n).clock = s.clock := rfl
@[simp] theorem addFld_elapsed (s : State) (off hi lo n : Nat) : (addFld s off hi lo n).elapsed = s.elapsed := rfl
@[simp] theorem addFld_updates (s : State) (off hi lo n : Nat) : (addFld s off hi lo n).updates = s.updates := rfl
@[simp] theorem addFld_granary (s : State) (off hi lo n : Nat) : (addFld s off hi lo n).granary = s.granary := rfl
@[simp] theorem addFld_cellar (s : State) (off hi lo n : Nat) : (addFld s off hi lo n).cellar = s.cellar := rfl
@[simp] theorem addFld_losses (s : State) (off hi lo n : Nat) : (addFld s off hi lo n).losses = s.losses := rfl
@[simp] theorem addFld_host (s : State) (off hi lo n : Nat) : (addFld s off hi lo n).host = s.host := rfl
@[simp] theorem addFld_bar2 (s : State) (off hi lo n : Nat) : (addFld s off hi lo n).bar2 = s.bar2 := rfl
@[simp] theorem addFld_draws (s : State) (off hi lo n : Nat) : (addFld s off hi lo n).draws = s.draws := rfl
@[simp] theorem addFld_husks (s : State) (off hi lo n : Nat) : (addFld s off hi lo n).husks = s.husks := rfl
@[simp] theorem addFld_accepted (s : State) (off hi lo n : Nat) : (addFld s off hi lo n).accepted = s.accepted := rfl
@[simp] theorem addFld_faults (s : State) (off hi lo n : Nat) : (addFld s off hi lo n).faults = s.faults := rfl
@[simp] theorem addFld_mismatches (s : State) (off hi lo n : Nat) : (addFld s off hi lo n).mismatches = s.mismatches := rfl
@[simp] theorem addFld_damage (s : State) (off hi lo n : Nat) : (addFld s off hi lo n).damage = s.damage := rfl
@[simp] theorem addFld_chans (s : State) (off hi lo n : Nat) : (addFld s off hi lo n).chans = s.chans := rfl
@[simp] theorem addFld_flows (s : State) (off hi lo n : Nat) : (addFld s off hi lo n).flows = s.flows := rfl
@[simp] theorem addFld_engineCycles (s : State) (off hi lo n : Nat) : (addFld s off hi lo n).engineCycles = s.engineCycles := rfl
@[simp] theorem addFld_macTx (s : State) (off hi lo n : Nat) : (addFld s off hi lo n).macTx = s.macTx := rfl
@[simp] theorem addFld_layers (s : State) (off hi lo n : Nat) : (addFld s off hi lo n).layers = s.layers := rfl
@[simp] theorem addFld_heads (s : State) (off hi lo n : Nat) : (addFld s off hi lo n).heads = s.heads := rfl
@[simp] theorem addFld_lanes (s : State) (off hi lo n : Nat) : (addFld s off hi lo n).lanes = s.lanes := rfl
@[simp] theorem addFld_shf (s : State) (off hi lo n : Nat) : (addFld s off hi lo n).shf = s.shf := rfl
@[simp] theorem addFld_rng (s : State) (off hi lo n : Nat) : (addFld s off hi lo n).rng = s.rng := rfl
@[simp] theorem addFld_tim (s : State) (off hi lo n : Nat) : (addFld s off hi lo n).tim = s.tim := rfl
@[simp] theorem addFld_tck (s : State) (off hi lo n : Nat) : (addFld s off hi lo n).tck = s.tck := rfl
@[simp] theorem addFld_flights (s : State) (off hi lo n : Nat) : (addFld s off hi lo n).flights = s.flights := rfl
@[simp] theorem addFld_cell (s : State) (off hi lo n : Nat) : (addFld s off hi lo n).cell = s.cell := rfl
@[simp] theorem addFld_lcs (s : State) (off hi lo n : Nat) : (addFld s off hi lo n).lcs = s.lcs := rfl
@[simp] theorem addFld_pwr (s : State) (off hi lo n : Nat) : (addFld s off hi lo n).pwr = s.pwr := rfl
@[simp] theorem addFld_tch (s : State) (off hi lo n : Nat) : (addFld s off hi lo n).tch = s.tch := rfl
@[simp] theorem addFld_encs (s : State) (off hi lo n : Nat) : (addFld s off hi lo n).encs = s.encs := rfl
@[simp] theorem addFld_overwritten (s : State) (off hi lo n : Nat) : (addFld s off hi lo n).overwritten = s.overwritten := rfl
@[simp] theorem addFld_jobBytes (s : State) (off hi lo n : Nat) : (addFld s off hi lo n).jobBytes = s.jobBytes := rfl
@[simp] theorem addFld_chkTurns (s : State) (off hi lo n : Nat) : (addFld s off hi lo n).chkTurns = s.chkTurns := rfl
@[simp] theorem addFld_chkAt (s : State) (off hi lo n : Nat) : (addFld s off hi lo n).chkAt = s.chkAt := rfl
@[simp] theorem addFld_response (s : State) (off hi lo n : Nat) : (addFld s off hi lo n).response = s.response := rfl
@[simp] theorem addFld_debugResponse (s : State) (off hi lo n : Nat) : (addFld s off hi lo n).debugResponse = s.debugResponse := rfl

/-! `wr64` writes regs alone. -/

@[simp] theorem wr64_pending (s : State) (lo hi v : Nat) : (wr64 s lo hi v).pending = s.pending := rfl
@[simp] theorem wr64_part (s : State) (lo hi v : Nat) : (wr64 s lo hi v).part = s.part := rfl
@[simp] theorem wr64_supply (s : State) (lo hi v : Nat) : (wr64 s lo hi v).supply = s.supply := rfl
@[simp] theorem wr64_porst (s : State) (lo hi v : Nat) : (wr64 s lo hi v).porst = s.porst := rfl
@[simp] theorem wr64_linkUp (s : State) (lo hi v : Nat) : (wr64 s lo hi v).linkUp = s.linkUp := rfl
@[simp] theorem wr64_latched (s : State) (lo hi v : Nat) : (wr64 s lo hi v).latched = s.latched := rfl
@[simp] theorem wr64_wide (s : State) (lo hi v : Nat) : (wr64 s lo hi v).wide = s.wide := rfl
@[simp] theorem wr64_clock (s : State) (lo hi v : Nat) : (wr64 s lo hi v).clock = s.clock := rfl
@[simp] theorem wr64_elapsed (s : State) (lo hi v : Nat) : (wr64 s lo hi v).elapsed = s.elapsed := rfl
@[simp] theorem wr64_updates (s : State) (lo hi v : Nat) : (wr64 s lo hi v).updates = s.updates := rfl
@[simp] theorem wr64_granary (s : State) (lo hi v : Nat) : (wr64 s lo hi v).granary = s.granary := rfl
@[simp] theorem wr64_cellar (s : State) (lo hi v : Nat) : (wr64 s lo hi v).cellar = s.cellar := rfl
@[simp] theorem wr64_losses (s : State) (lo hi v : Nat) : (wr64 s lo hi v).losses = s.losses := rfl
@[simp] theorem wr64_host (s : State) (lo hi v : Nat) : (wr64 s lo hi v).host = s.host := rfl
@[simp] theorem wr64_bar2 (s : State) (lo hi v : Nat) : (wr64 s lo hi v).bar2 = s.bar2 := rfl
@[simp] theorem wr64_draws (s : State) (lo hi v : Nat) : (wr64 s lo hi v).draws = s.draws := rfl
@[simp] theorem wr64_husks (s : State) (lo hi v : Nat) : (wr64 s lo hi v).husks = s.husks := rfl
@[simp] theorem wr64_accepted (s : State) (lo hi v : Nat) : (wr64 s lo hi v).accepted = s.accepted := rfl
@[simp] theorem wr64_faults (s : State) (lo hi v : Nat) : (wr64 s lo hi v).faults = s.faults := rfl
@[simp] theorem wr64_mismatches (s : State) (lo hi v : Nat) : (wr64 s lo hi v).mismatches = s.mismatches := rfl
@[simp] theorem wr64_damage (s : State) (lo hi v : Nat) : (wr64 s lo hi v).damage = s.damage := rfl
@[simp] theorem wr64_chans (s : State) (lo hi v : Nat) : (wr64 s lo hi v).chans = s.chans := rfl
@[simp] theorem wr64_flows (s : State) (lo hi v : Nat) : (wr64 s lo hi v).flows = s.flows := rfl
@[simp] theorem wr64_engineCycles (s : State) (lo hi v : Nat) : (wr64 s lo hi v).engineCycles = s.engineCycles := rfl
@[simp] theorem wr64_macTx (s : State) (lo hi v : Nat) : (wr64 s lo hi v).macTx = s.macTx := rfl
@[simp] theorem wr64_layers (s : State) (lo hi v : Nat) : (wr64 s lo hi v).layers = s.layers := rfl
@[simp] theorem wr64_heads (s : State) (lo hi v : Nat) : (wr64 s lo hi v).heads = s.heads := rfl
@[simp] theorem wr64_lanes (s : State) (lo hi v : Nat) : (wr64 s lo hi v).lanes = s.lanes := rfl
@[simp] theorem wr64_shf (s : State) (lo hi v : Nat) : (wr64 s lo hi v).shf = s.shf := rfl
@[simp] theorem wr64_rng (s : State) (lo hi v : Nat) : (wr64 s lo hi v).rng = s.rng := rfl
@[simp] theorem wr64_tim (s : State) (lo hi v : Nat) : (wr64 s lo hi v).tim = s.tim := rfl
@[simp] theorem wr64_tck (s : State) (lo hi v : Nat) : (wr64 s lo hi v).tck = s.tck := rfl
@[simp] theorem wr64_flights (s : State) (lo hi v : Nat) : (wr64 s lo hi v).flights = s.flights := rfl
@[simp] theorem wr64_cell (s : State) (lo hi v : Nat) : (wr64 s lo hi v).cell = s.cell := rfl
@[simp] theorem wr64_lcs (s : State) (lo hi v : Nat) : (wr64 s lo hi v).lcs = s.lcs := rfl
@[simp] theorem wr64_pwr (s : State) (lo hi v : Nat) : (wr64 s lo hi v).pwr = s.pwr := rfl
@[simp] theorem wr64_tch (s : State) (lo hi v : Nat) : (wr64 s lo hi v).tch = s.tch := rfl
@[simp] theorem wr64_encs (s : State) (lo hi v : Nat) : (wr64 s lo hi v).encs = s.encs := rfl
@[simp] theorem wr64_overwritten (s : State) (lo hi v : Nat) : (wr64 s lo hi v).overwritten = s.overwritten := rfl
@[simp] theorem wr64_jobBytes (s : State) (lo hi v : Nat) : (wr64 s lo hi v).jobBytes = s.jobBytes := rfl
@[simp] theorem wr64_chkTurns (s : State) (lo hi v : Nat) : (wr64 s lo hi v).chkTurns = s.chkTurns := rfl
@[simp] theorem wr64_chkAt (s : State) (lo hi v : Nat) : (wr64 s lo hi v).chkAt = s.chkAt := rfl
@[simp] theorem wr64_response (s : State) (lo hi v : Nat) : (wr64 s lo hi v).response = s.response := rfl
@[simp] theorem wr64_debugResponse (s : State) (lo hi v : Nat) : (wr64 s lo hi v).debugResponse = s.debugResponse := rfl

end Sys2Proof.Machine
end

