-- ==== Sys2Proof/Machine/Balls.lean ====
section
/-!
DEFINITION. Machine/Balls.lean: the ball map of the package (R462 to R467). No command reads it: it is what a board
connects to.
-/

namespace Sys2Proof.Machine

/-- The supplies of a board (R445, R469). -/
inductive BoardSupply where
  | vss | vddCore | vddSram | vddAon | vddq | vdd2 | vddSd09 | vddSd12 | vddioS | vddioG | vddTch
deriving DecidableEq, Repr

/-- The signals of one ×16 half of a DRAM channel (R464); `neg` is the _c of a differential pair. -/
inductive DramPin where
  | dq (n : Nat) | dmi (n : Nat) | rdqs (n : Nat) (neg : Bool) | wck (n : Nat) (neg : Bool) | ck (neg : Bool)
  | ca (n : Nat) | cs (n : Nat)
deriving DecidableEq, Repr

/-- What a ball carries; `neg` is the N of a differential pair. -/
inductive Ball where
  | supply (v : BoardSupply)
  | laneTx (lane : Nat) (neg : Bool) | laneRx (lane : Nat) (neg : Bool) | quadRefclk (quad : Nat) (neg : Bool)
  | dram (chan : Nat) (halfB : Bool) (pin : DramPin) | chResetN (chan : Nat) | chZq (chan : Nat)
  | jtagTck | jtagTms | jtagTdi | jtagTdo | jtagTrstN | sysXi | sysXo | pmbScl | pmbSda | pmbAlertN
  | avsClk | avsMdata | avsSdata | spiClk | spiCsN | spiIo (n : Nat) | uartTx | uartRx
  | refv | agndRef | porstN | sysrstN | testen | tdP | tdN
  | headok (head : Nat) | gpio (n : Nat) | tsIn (n : Nat) | trigOut (n : Nat) | ppsIn | ppsOut | tickOut | intN (n : Nat)
  | key (n : Nat) | shld (n : Nat) | crefA | crefB
  | pcieTx (k : Nat) (neg : Bool) | pcieRx (k : Nat) (neg : Bool) | pcieRefclk (neg : Bool) | pciePerstN
deriving DecidableEq, Repr

/-- The letters of rows 1 to 19; rows 20 to 38 put A before them, rows 39 to 47 B (R462). -/
def rowLetters : List String :=
  ["A", "B", "C", "D", "E", "F", "G", "H", "J", "K", "L", "M", "N", "P", "T", "U", "V", "W", "Y"]

/-- The name of row i, 1 to 47 (R462). -/
def rowName (i : Nat) : String := ["", "A", "B"].getD ((i - 1) / 19) "" ++ rowLetters.getD ((i - 1) % 19) ""

/-- The name of a ball, as AE47 (R462). -/
def ballName (i j : Nat) : String := rowName i ++ toString j

/-- A ground ball. -/
def vssBall : Ball := .supply .vss

/-- The lane of its quad whose pair stands in slot s of row 2 to 4 or 6 to 8 (R463). -/
def slotLane (i s : Nat) : Nat := 3 * ((i - 2) % 4) + s

/-- Rows A to H, columns 4 to 43: the W-lanes (R463). -/
def laneBall (i j : Nat) : Ball :=
  let q := (j - 4) / 10
  let v := (j - 4) % 10
  if i = 1 ∨ i = 5 ∨ v % 3 = 0 then vssBall
  else
    let k := slotLane i ((v - 1) / 3)
    let neg := decide (v % 3 = 2)
    if k < 8 then (if i < 5 then .laneTx (8 * q + k) neg else .laneRx (8 * q + k) neg)
    else if i < 5 then .quadRefclk q neg
    else .supply .vddSd09

/-- Template row r of a DRAM half; none at ball X (R464). -/
def dramRow (r : Nat) : List (Option (DramPin ⊕ BoardSupply)) :=
  let s (p : DramPin) : Option (DramPin ⊕ BoardSupply) := some (.inl p)
  let v (p : BoardSupply) : Option (DramPin ⊕ BoardSupply) := some (.inr p)
  match r with
  | 1 => [s (.dq 0), s (.dq 1), v .vss, s (.dq 2), s (.dq 3), v .vddq, s (.dmi 0), s (.rdqs 0 false), s (.rdqs 0 true), v .vss,
      s (.wck 0 false), s (.wck 0 true), v .vss, s (.ca 0)]
  | 2 => [s (.dq 4), s (.dq 5), v .vss, s (.dq 6), s (.dq 7), v .vddq, v .vss, s (.dq 8), s (.dq 9), v .vddq, s (.dq 10),
      s (.dq 11), v .vss, s (.ca 1)]
  | 3 => [s (.dq 12), s (.dq 13), v .vss, s (.dq 14), s (.dq 15), v .vddq, s (.dmi 1), s (.rdqs 1 false), s (.rdqs 1 true),
      v .vss, s (.wck 1 false), s (.wck 1 true), v .vss, s (.ca 2)]
  | _ => [s (.ck false), s (.ck true), v .vss, s (.ca 3), s (.ca 4), v .vdd2, s (.ca 5), s (.ca 6), v .vss, s (.cs 0), s (.cs 1),
      v .vddq, none, v .vss]

/-- Rows J to BB, columns 1 to 14 and 34 to 47: the DRAM channels (R464). -/
def dramBall (i j : Nat) : Ball :=
  let u := if j < 15 then j else 48 - j
  let c := (i - 9) / 8 + (if j < 15 then 0 else 4)
  let b := (i - 9) % 8
  match (dramRow (b % 4 + 1)).getD (u - 1) none with
  | some (.inl p) => .dram c (decide (4 ≤ b)) p
  | some (.inr v) => .supply v
  | none => if b < 4 then .chResetN c else .chZq c

/-- Rows J to BB, columns 15 to 33: the core (R465). -/
def coreBall (i j : Nat) : Ball :=
  if i = 9 then .supply (if j % 2 = 1 then .vddSd09 else .vss)
  else if i = 10 then .supply (if j % 2 = 1 then .vddSd12 else .vss)
  else .supply (if (i + j) % 2 = 0 then .vss else if j ≤ 16 ∨ 32 ≤ j then .vddSram else .vddCore)

/-- The corner rows of rows A to H: columns 1 to 3 and 44 to 47 (R466). -/
def cornerRow (i : Nat) : List Ball :=
  let v : Ball := vssBall
  let io : Ball := .supply .vddioS
  let aon : Ball := .supply .vddAon
  match i with
  | 1 => [v, .jtagTck, v, v, .sysXi, .sysXo, v]
  | 2 => [.jtagTms, .jtagTdi, .jtagTdo, v, v, v, v]
  | 3 => [.jtagTrstN, io, v, .pmbScl, .pmbSda, .pmbAlertN, io]
  | 4 => [.spiClk, .spiCsN, .spiIo 0, .avsClk, .avsMdata, .avsSdata, v]
  | 5 => [.spiIo 1, .spiIo 2, .spiIo 3, aon, aon, aon, aon]
  | 6 => [.uartTx, .uartRx, io, .refv, .agndRef, v, v]
  | 7 => [.porstN, .sysrstN, .testen, .tdP, .tdN, v, v]
  | _ => [v, io, v, aon, v, aon, v]

/-- A PCIe pair of row BD or BG at column 37 + 3k (R467). -/
def pcieBall (f : Nat → Bool → Ball) (j : Nat) : Ball :=
  if j < 37 ∨ j % 3 = 0 then vssBall else f ((j - 37) / 3) (decide (j % 3 = 2))

/-- Rows BC to BJ (R467). -/
def southBall (i j : Nat) : Ball :=
  let g : Ball := if j % 2 = 1 ∧ 25 ≤ j ∧ j ≤ 35 then .supply .vddioG else vssBall
  match i with
  | 41 => if j ≤ 24 then .headok (j - 1) else g
  | 42 => if j ≤ 32 then .gpio (j - 1) else if j ≤ 35 then g else pcieBall .pcieTx j
  | 43 =>
    if j ≤ 16 then .tsIn (j - 1) else if j ≤ 24 then .trigOut (j - 17) else if j = 25 then .ppsIn else if j = 26 then .ppsOut
    else if j = 27 then .tickOut else if j ≤ 31 then .intN (j - 28) else g
  | 44 => if j % 2 = 0 ∧ j ≤ 35 then .supply .vddTch else vssBall
  | 45 => if j ≤ 32 then .key (31 + j) else pcieBall .pcieRx j
  | 46 => if j % 8 = 0 ∧ j ≤ 32 then .shld (j / 8 - 1) else vssBall
  | _ =>
    if j ≤ 32 then .key (j - 1) else if j = 34 then .crefA else if j = 35 then .crefB
    else if j = 37 ∨ j = 38 then .supply .vddSd09 else if j = 40 ∨ j = 41 then .pcieRefclk (decide (j = 41))
    else if j = 43 ∨ j = 44 then .supply .vddSd12 else if j = 46 then .pciePerstN else vssBall

/-- The ball of row i and column j, each 1 to 47 (R462). -/
def ballAt (i j : Nat) : Ball :=
  if i ≤ 8 then
    (if 4 ≤ j ∧ j ≤ 43 then laneBall i j else (cornerRow i).getD (if j < 4 then j - 1 else j - 41) vssBall)
  else if i ≤ 40 then (if 15 ≤ j ∧ j ≤ 33 then coreBall i j else dramBall i j)
  else southBall i j

end Sys2Proof.Machine
end

