-- ==== Sys2Proof/Machine/Pins.lean ====
section
/-!
DEFINITION. Machine/Pins.lean: the levels of the device's output pins as a function of its state (R99, R123, R126, R174,
R318, R353, R475, R476). No command reads them: they are what a board sees. Machine/Balls.lean says which ball carries which.
-/

namespace Sys2Proof.Machine

/-- An output pin: HEADOK[h], INT_N[p], TRIG_OUT[t], PPS_OUT, TICK_OUT, CH{c}_RESET_n of both halves, SHLD[d], the transmitter
of a W-lane, SPI_CS_n, UART_TX and JTAG_TDO. -/
inductive Pin where
  | headok (h : Fin 24)
  | intN (p : Fin 4)
  | trigOut (t : Fin 8)
  | ppsOut
  | tickOut
  | chReset (c : Fin 8)
  | shld (d : Fin 4)
  | laneTx (n : Fin 32)
  | spiCsN
  | uartTx
  | jtagTdo
deriving DecidableEq, Repr

/-- What an output shows: driven low, driven high, high-impedance (R475), or the waveform of keys in conversion at a
conversion frequency, in phase with them (R389, R390), the common-mode level of a transmitter, or a transmitter's blocks
(R183, R491). -/
inductive PinLevel where
  | low | high | highZ
  | waveform (freq : Nat) (keys : List Nat)
  | commonMode
  | blocks
deriving DecidableEq, Repr

/-- A driven output. -/
def driven (high : Bool) : PinLevel := if high then .high else .low

/-- The rail codes a pin needs (R445): VDDIO_G for the pins of bank G, VDDQ for the DRAM pins, VDD_TCH for the shield
drivers, VDD_SD09 and VDD_SD12 for the transmitters; none for bank S, whose VDDIO_S the board sequences. -/
def Pin.rails : Pin → List Nat
  | .chReset _ => [2]
  | .shld _ => [7]
  | .laneTx _ => [4, 5]
  | .spiCsN | .uartTx | .jtagTdo => []
  | _ => [6]

/-- Is the rail of a code powered: all are in RUN and QUIET; while the rails rise, those that are good; in KEEP, those that
the rail table does not mark as off there (R442, R445, R475). DEDUCED: log entry 79. -/
def railPowered (s : State) (code : Nat) : Bool :=
  match s.supply with
  | .off => false
  | .rising => s.pwr.good.contains code
  | .on => true
  | .keep => (s.pwr.rails.getD []).all (fun e => decide (e.code ≠ code) || !e.offInKeep)

/-- The frequency of the conversions of a scan in progress; which of the four a hopping scan has found quietest shows when it
ends, so that it is a free value until then (R390). DEDUCED: log entry 79. -/
def scanNow (q : TouchScan) : Nat := if q.hop then Config.freeNat q.at_ % 4 else q.freq

/-- The place in their slices of the keys that a scan converts at present (R389). -/
def keysNow (s : State) (q : TouchScan) : Option Nat :=
  let f := scanNow q
  let quiet := 256 * (if q.hop then freqNs 0 + freqNs 1 + freqNs 2 + freqNs 3 else freqNs f)
  let passed := (s.elapsed - q.at_) / nsUnit
  let first := quiet + 1024 * freqNs f
  if first ≤ passed ∧ passed < scanNs q.hop f then some ((passed - first) / (1024 * freqNs f)) else none

/-- What shield driver d shows: while SHIELD is 1 the waveform of the keys its slices, 2d and 2d + 1, convert, else low
(R389). DEDUCED: log entry 79. -/
def shieldDrives (s : State) (d : Nat) : PinLevel :=
  match (s.tch.scan.filter (fun _ => flag s R.TCH_CTRL 2)).bind (fun q => (keysNow s q).map (fun j => (q, j))) with
  | some (q, j) => .waveform (scanNow q) [16 * d + j, 16 * d + 8 + j]
  | none => .low

/-- The level an output is driven to while its bank is powered and the device is out of reset (R476); an absent DRAM
channel's pins and an absent lane's are not driven (R468). SPI_CS_n, UART_TX and JTAG_TDO show their idle levels.
DEDUCED: log entry 79. -/
def pinDrives (s : State) : Pin → PinLevel
  | .headok h => driven (flag s (R.WIN_LT_STATUS h.val) 0)
  | .intN p => driven (!flag s (R.EVT_PIN_STATUS p.val) 16)
  | .trigOut t => driven (trigLevel s t.val)
  | .ppsOut => driven (trigLevel s 8)
  | .tickOut => driven (trigLevel s 9)
  | .shld d => shieldDrives s d.val
  | .laneTx n =>
    if !unitPresent s.part .lane n.val ∨ s.supply = .keep then .highZ
    else if s.supply = .on ∧ (laneAt s n.val).nextAt.isSome then .blocks else .commonMode
  | .spiCsN | .uartTx => .high
  | .jtagTdo => .highZ
  | .chReset c => if unitPresent s.part .dmc c.val then driven (decide (chanState s c.val ≠ 0)) else .highZ

/-- The level of an output pin: high-impedance while PORST_n is low or the device or its bank is unpowered (R475).
DEDUCED: log entry 79. -/
def pinLevel (s : State) (p : Pin) : PinLevel :=
  if s.porst || decide (s.supply = .off) || !p.rails.all (railPowered s) then .highZ else pinDrives s p

end Sys2Proof.Machine
end

