-- ==== Sys2Proof/WellFormed.lean ====
section
/-!
DEFINITION. WellFormed.lean: which terms of Instr are commands the device's surroundings can give. The types of
Syntax.lean carry every bound that is a plain fact about one operand; what is left is checked here. No meaning needs
the check: exec answers every term.
-/

namespace Sys2Proof

/-- A BAR0 offset of a 32-bit register: word-aligned, below 0x0100_0000 (R10). -/
def regOffOk (off : Nat) : Bool := decide (off < 0x1000000 ∧ off % 4 = 0)

/-- A word offset of an HK pair's V or K word (R74); a pair stands on 8 bytes, V first. -/
def pairOffOk (off : Nat) : Bool := decide (off < 0x1000000 ∧ off % 8 = 0)

/-- Bytes at addresses of a 64-bit address space. -/
def cellsOk (m : Cells) : Bool := m.all (fun c => decide (c.1 < 2 ^ 64))

/-- The error of a stamp: at most 3.2 ns, in 2⁻³² ns (R121, R108). -/
def stampErrOk (e : Int) : Bool := decide (-13743895347 ≤ e ∧ e ≤ 13743895347)

/-- The bytes an access asks for: at least one, at most 4,096, at addresses of a 64-bit address space (R415). -/
def busOpOk (addr : Nat) (op : BusOp) : Bool :=
  let n := match op with
    | .read l | .fetch l => l.val
    | .write d | .atomic d => d.length
  decide (0 < n ∧ n ≤ 4096 ∧ addr + n ≤ 2 ^ 64)

/-- An access of a bus master. -/
def busReqOk (a : BusReq) : Bool := busOpOk a.addr a.op && cellsOk a.hm

/-- The sizes of an access unit's header values, and its frame_num (R244, R245, R258, R268). -/
def pictureOk (o : PictureStart) : Bool :=
  decide (0 < o.outW.val ∧ 0 < o.outH.val ∧ o.left.val + o.outW.val ≤ o.codedW.val ∧
    o.top.val + o.outH.val ≤ o.codedH.val ∧ o.frameNum < o.maxFrameNum)

/-- Bytes found in a host buffer: in Cellar or host memory, at addresses of a 64-bit address space (R275). -/
def mixOk (m : List (Nat × Nat × Byte)) : Bool := m.all (fun c => decide ((c.1 = 0 ∨ c.1 = 3) ∧ c.2.1 < 2 ^ 64))

/-- Bits that a receiver gets: some, and as many on the other slice of a rotation (R204, R214). -/
def rxOk (b : RxBlock) : Bool := decide (b.line ≠ [] ∧ (b.other = [] ∨ b.other.length = b.line.length))

/-- Is a term a command that can be given. -/
def wellFormed : Instr → Bool
  | .porstNRelease table _ => decide (table.length = 72)
  | .pcieLinkUp w g => decide ((w.val = 1 ∨ w.val = 2 ∨ w.val = 4) ∧ 1 ≤ g.val ∧ g.val ≤ 4)
  | .registerWrite off _ | .stDirectWrite off _ => regOffOk off
  | .huskVWrite off _ | .huskKWrite off _ | .huskPendingTimeout off => pairOffOk off
  | .guardRegWrite off _ => regOffOk off
  | .captureEdge _ _ err => stampErrOk err
  | .ethFrameReceive _ _ obs => stampErrOk obs.err
  | .netTxSent _ o => stampErrOk o.err
  | .sqDoorbell _ _ _ hm | .descriptorFetch _ hm _ | .layerTouch _ _ hm => cellsOk hm
  | .scanLine _ o => mixOk o.mix
  | .fetchBurst _ _ o => cellsOk o.hm
  | .unitDrainComplete kind unit =>
    decide (unit < (match kind.val with | 0 => 96 | 1 => 24 | 2 => 16 | _ => 100))
  | .blockReceive _ blk => rxOk blk
  | .decodePictureStart o => pictureOk o
  | .dmcTrainDone _ _ density _ => decide (density.val < 5)
  | .busAccess a => busReqOk a && decide (a.guard.val ≠ 27)
  | .debugAccess a => busReqOk a && decide (a.guard.val = 27)
  | .debugAuth sig => decide (sig.length = 192)
  | .touchScanEnd o => decide (o.keys.length = 64 ∧ o.refs.length = 9 ∧ o.quiet.length = 4)
      && o.quiet.all (fun q => decide (q.length = 9))
  | .thermalSample mc => decide (mc.length = 8)
  | _ => true

end Sys2Proof
end

