-- ==== Sys2Proof/Tests/Slice0.lean ====
section
/-!
SUPPORT. Tests/Slice0.lean: this model's own tests: terms that WellFormed refuses, words that decode, worked examples of the
specification, and for each statement states that meet its hypotheses, at boundary values where they have some. Each
test names the rule its expected values come from.
-/

open Sys2Proof Sys2Proof.Machine

set_option maxRecDepth 20000

namespace Sys2Proof.Tests

/-! ## Small states -/

/-- The state right after reset, powered and running. -/
def s0 : State := State.reset
/-- Registers by offset and value. -/
def put (l : List (Nat × Nat)) (s : State) : State := l.foldl (fun s p => wr s p.1 p.2) s
/-- A command in flight under tag 5, with an opcode and words by number. -/
def cmd (op : Nat) (ws : List (Nat × Nat)) : Cmd :=
  { tag := 5, sq := 0, index := 0,
    words := (List.range 16).map (fun i => BitVec.ofNat 32 (if i = 0 then op * 2 ^ 24 else
      ((ws.find? (fun p => p.1 = i)).map Prod.snd).getD 0)) }
/-- That command alone in flight. -/
def fly (c : Cmd) (s : State) : State := { s with rng := { s.rng with cmds := [c] } }
/-- It is in flight, found by its tag, carries its opcode and may execute. -/
def ready (c : Cmd) (op : Nat) (s : State) : Bool :=
  running s && decide (findCmd s 5 = some c) && decide (c.opcode = op) && mayExecute s.rng.cmds c
/-- It waits. -/
def waits (c : Cmd) (op : Nat) (s : State) : Bool :=
  running s && decide (findCmd s 5 = some c) && decide (c.opcode = op) && decide (c.phase = .waiting)
/-- The tick runs at 60 Hz with tick 10 next. -/
def ticking (s : State) : State :=
  put [(R.TCK_CTRL, 1), (R.TCK_PERIOD_NUM, 50000000), (R.TCK_PERIOD_DEN, 3)] { s with tck := { s.tck with next := some 10 } }
/-- A pending Husk value. -/
def held (off v : Nat) (s : State) : State := { s with husks := [{ off := off, v := BitVec.ofNat 32 v, until_ := 51200 }] }

/-! ## States that meet the hypotheses: the machine, resets, rails and the link -/

theorem witness_EveryStepAnswersNext :
    s0.pending = [] ∧ aonRunning s0 = true ∧ aonRunning { s0 with porst := true } = false ∧
    running { s0 with supply := .keep } = false ∧ needsRunning (.nop 0) = true ∧ ({ s0 with porst := true } : State).porst = true := by
  decide

theorem witness_StepKeepsMemoryCanonical : memWf s0 = true ∧ memWf (ticking s0) = true ∧
    (match step (ticking s0) with | .next t => memWf t | _ => false) = true := by decide

theorem witness_CommandsKeepIdentityAndTime : resetsTick (.nop 0) = false ∧
    (match exec (.tickTimebaseWrite 1 7) s0 with | .next t => decide (t.lcs.state = 1 ∧ t.tck.lastN = 0) | _ => false) = true := by
  decide

theorem witness_CommandsThatStoreNothingKeepMemories :
    storesNothing (.layerTouch 0 0 [(7, 1)]) = true ∧ storesNothing (.guardPmWrite 0) = true ∧ writesNoRegister (.barrier 0) = true ∧
    (7 : Nat) ∉ ([(8, 1)] : List (Nat × Nat)).map Prod.fst := by decide

theorem witness_CommandsKeepTheGranary : keepsGranary (.laneEnable 0 1) = true ∧ keepsGranary (.busAccess { guard := 0, space := 1, addr := 0, op := .read 1 }) = false := by
  decide

def fuses (k : Nat) : State := { s0 with porst := true, lcs := { s0.lcs with stateFuses := [(k, 0xFFFFFF)] } }

theorem witness_PorstResetsAndReleases :
    (fuses 3).porst = true ∧ fusedState (fuses 3) = 3 ∧ fusedState (fuses 4) = 4 ∧ fusedState (fuses 2) = 2 ∧
    fusedState { fuses 3 with lcs := { s0.lcs with stateFuses := [(3, 0x7FFFFF)] } } = 0 := by decide

def rail (code order : Nat) (keep : Bool) : RailEntry :=
  { order := order, delayMs := 2, vout := 800, code := code, avs := decide (code = 0), offInKeep := keep }
def keeps : State := { s0 with supply := .keep, pwr := { s0.pwr with rails := some [rail 0 1 true, rail 7 2 false], good := [0, 7] } }

theorem witness_SysrstAndWakeCauses :
    s0.porst = false ∧ s0.supply = .on ∧ aonReg R.WIN_WITNESS = false ∧ lcsKept R.WIN_WITNESS = false ∧
    ({ s0 with lcs := { s0.lcs with state := 2 } } : State).lcs.state = 2 ∧ keeps.supply = .keep ∧
    gpioWakes (put [(R.PWR_WAKE_GPIO, 2), (R.PWR_WAKE_POL, 2)] keeps) 2 = true ∧ gpioWakes keeps 2 = false ∧
    (∃ e ∈ keeps.pwr.rails.getD [], e.offInKeep = true) ∧
    (let s := put [(R.PWR_WAKE_AT_NS, 2 ^ 31)] keeps
     flag s R.PWR_WAKE_AT_NS 31 = true ∧ wakeAt s ≤ s.clock) ∧
    timeState s0 = 0 ∧ timeState (put [(R.TIM_STATUS, 1)] s0) ≠ 0 ∧ eventReg R.WIN_WITNESS = false := by decide

def rises (good : List Nat) (back : Bool) : State :=
  { s0 with supply := .rising, pwr := { s0.pwr with rails := some [rail 0 1 false, rail 7 2 false], good := good, fromKeep := back } }

theorem witness_RailsComeUpAndGoDown :
    (rises [] false).supply = .rising ∧ railsByBoard (rises [] false) = false ∧ railNext (rises [] false) 7 = none ∧
    railNext (rises [] false) 0 = some (rail 0 1 false) ∧
    railNext (rises [0] true) 7 = some (rail 7 2 false) ∧ (rises [0] true).pwr.fromKeep = true ∧
    (∀ f ∈ (rises [0] true).pwr.rails.getD [], f.code ∈ (rises [0] true).pwr.good ∨ f.code = 7) ∧
    (let s : State := { s0 with pwr := { s0.pwr with downAt := some 0 } }
     powered s = true ∧ s.pwr.downAt = some 0) ∧
    (let s : State := { s0 with pwr := { s0.pwr with critSince := some 0 } }
     running s = true ∧ s.pwr.critSince = some 0 ∧ s.pwr.downAt = none) := by decide

theorem witness_PcieLinkDownAndUp :
    running s0 = true ∧ ({ s0 with linkUp := true } : State).linkUp = true ∧ ({ s0 with linkUp := false } : State).linkUp = false := by
  decide

def image : List Byte := wordBytes [0x4C4D4544, 0x00010000, 4096, 0] ++ List.replicate (0x0F0 + 4096) 0
def booting : State := put [(R.SYS_DEMAL, 1), (R.GRN_STATUS, 1)] s0

theorem witness_DemalBootsAndStalls :
    flag s0 R.GRN_STATUS 0 = false ∧ flag booting R.GRN_STATUS 0 = true ∧ demalState booting = 1 ∧
    imageRuns booting image = true ∧ imageRuns booting [] = false ∧
    (let s : State := { put [(R.SYS_DEMAL, 2)] s0 with tck := { s0.tck with beatMissed := 8 } }
     demalState s = 2 ∧ 8 ≤ s.tck.beatMissed) ∧ ¬ (demalState s0 = 2 ∧ 8 ≤ s0.tck.beatMissed) := by decide

theorem witness_LifeCycleAndDebugPort :
    (let s := held R.LCS_REQ 0x102 s0
     powered s = true ∧ pairValue s R.LCS_REQ 0xFFFFFEFD = some 0x102 ∧ s.lcs.request = none) ∧
    (let s : State := { held R.LCS_REQ 0x102 s0 with lcs := { s0.lcs with request := some 1 } }
     pairValue s R.LCS_REQ 0xFFFFFEFD = some 0x102 ∧ s.lcs.request = some 1) ∧
    (let s : State := { s0 with lcs := { s0.lcs with state := 0, request := some 1 } }
     let s := gWrite s 0x01C40000 (wordBytes [0x5251434C, 1] ++ uidBytes)
     powered s = true ∧ s.lcs.request = some 1 ∧ reqOp 1 = 0 ∧ reqAllowed s 1 = true) ∧
    debugOpen s0 = true ∧ debugOpen { s0 with lcs := { s0.lcs with state := 3 } } = false := by decide

theorem witness_RailMonitoringSetsWarnAndFault :
    railNominal s0 1 = 800 ∧ outside 825 (railNominal s0 1) 3 = true ∧ outside 824 (railNominal s0 1) 3 = false ∧
    railOf keeps 0 = some (rail 0 1 true) ∧ keeps.pwr.downAt = none ∧ bits 0x20 5 2 ≠ 0 ∧ bits 0x2000 15 13 ≠ 0 := by decide

def sensed : State := { s0 with pwr := { s0.pwr with calibrated := List.range 8, lowSince := some 0 } }
def avs (l : List (Nat × Nat)) (run : Nat) : State :=
  put l { s0 with pwr := { s0.pwr with rails := some [rail 0 1 false], slackRun := run } }

theorem witness_ThermalAndVoltageLoops :
    (List.replicate 8 (150000 : Int)).length = 8 ∧
    (∀ i < 8, (-55000 : Int) ≤ (List.replicate 8 (150000 : Int)).getD i 0 ∧ (List.replicate 8 (150000 : Int)).getD i 0 ≤ 150000 ∧
      i ∈ sensed.pwr.calibrated ∧ calOf sensed (40 + i) = none) ∧
    sensed.pwr.lowSince = some 0 ∧ thermalStage (put [(R.PWR_STAGE, 0x10)] sensed) ≠ 0 ∧
    (let s := avs [(R.PWR_AVS_LIMITS, 800 * 2 ^ 16 + 700), (R.PWR_AVS_VOUT, 795), (R.PWR_AVS_MARGIN, 20)] 0
     (s.pwr.rails.getD []).any (·.avs) = true ∧ (19 : Int) < avsMargin s ∧ vOut s + 5 ≤ vMax s ∧ vMin s ≤ vOut s) ∧
    (let s := avs [(R.PWR_AVS_LIMITS, 800 * 2 ^ 16 + 700), (R.PWR_AVS_VOUT, 796), (R.PWR_AVS_MARGIN, 20)] 0
     (19 : Int) < avsMargin s ∧ vMax s < vOut s + 5) ∧
    (let s := avs [(R.PWR_AVS_LIMITS, 800 * 2 ^ 16 + 700), (R.PWR_AVS_VOUT, 705), (R.PWR_AVS_MARGIN, 20)] 19
     avsMargin s + 20 < (41 : Int) ∧ s.pwr.slackRun = 19 ∧ avsStage s = 0 ∧ vMin s + 5 ≤ vOut s ∧ vOut s ≤ vMax s + 5 ∧ fallWaits s = false ∧
     avsMargin s + 60 ≤ (80 : Int)) ∧
    (let s := avs [(R.PWR_AVS_LIMITS, 800 * 2 ^ 16 + 700), (R.PWR_AVS_VOUT, 705), (R.PWR_AVS_MARGIN, 20), (R.PWR_STAGE, 2)] 0
     fallWaits s = true ∧ (79 : Int) < avsMargin s + 60) := by
  decide

theorem witness_PowerRequestChangesState :
    (let s := held R.PWR_REQ 0 s0
     pairValue s R.PWR_REQ 0xFFFFFFFF = some 0 ∧ bits 0 1 0 = powerState s ∧ s.pwr.downAt = none) ∧
    (let s := held R.PWR_REQ 2 s0
     pairValue s R.PWR_REQ 0xFFFFFFFD = some 2 ∧ powerState s ≠ 2 ∧ keepReady s = true ∧ keepReady (ticking s) = false) ∧
    (let s := held R.PWR_REQ 3 s0
     pairValue s R.PWR_REQ 0xFFFFFFFC = some 3 ∧ powerState s ≠ 3) ∧
    (let s := held R.PWR_REQ 1 s0
     pairValue s R.PWR_REQ 0xFFFFFFFE = some 1 ∧ powerState s ≠ 1 ∧ tickRun s = false ∧ tickRun (ticking s) = true) := by decide

theorem witness_CalibrationStartsAndRecords :
    demalState (put [(R.SYS_DEMAL, 2)] s0) = 2 ∧ demalState s0 ≠ 2 ∧ bit 0x80000024 31 = true ∧
    calPresent s0.part (bits 0x80000024 6 0) = true ∧ calIn s0 (calGroup (bits 0x80000024 6 0)) = none ∧
    (let c := cmd 0x58 [(2, 35)]
     ready c 0x58 (fly c s0) = true ∧ bits (c.w 2) 6 0 < 36 ∧ bit (c.w 3) 0 = false ∧ calIn (fly c s0) (calGroup 35) = none) ∧
    (let s : State := { s0 with pwr := { s0.pwr with cals := [{ item := 31 }] } }
     calOf s 31 = some { item := 31 } ∧ laneOff s 31 = true) := by decide

/-! ## States that meet the hypotheses: the wall tick and network time -/

/-- A sound timebase at 60 Hz, tick stopped. -/
def sound : State := put [(R.TCK_PERIOD_NUM, 50000000), (R.TCK_PERIOD_DEN, 3)] s0

theorem witness_TickRunStartsAndStops :
    running sound = true ∧ tickRun sound = false ∧ timebaseValid sound = true ∧ timebaseValid (put [(R.TCK_PERIOD_DEN, 0)] s0) = false ∧
    tickRun (ticking s0) = true ∧ unitsOff (ticking s0) = true ∧ unitsOff (put [(R.HEAD_STATUS 0, 2)] (ticking s0)) = false := by
  decide

theorem witness_TimebaseHeldWhileRunning :
    running s0 = true ∧ tickRun (ticking s0) = true ∧ tickRun s0 = false := by decide

theorem witness_GuardPmClampsAndRecomputes : running (ticking s0) = true ∧ tickRun (ticking s0) = true := by decide

theorem witness_SealTakesNumberAndInstant :
    running (ticking s0) = true ∧ (ticking s0).tck.next = some 10 ∧ 0 < inc (ticking s0) ∧ s0.tck.next = none := by decide

theorem witness_ReadsLatchWholeValues :
    (let s : State := { s0 with lanes := [(3, { span := some { start := 1, last := 9, received := 8, lost := 1 } })] }
     running s = true ∧ (laneAt s 3).span = some { start := 1, last := 9, received := 8, lost := 1 }) ∧
    unitPresent s0.part .src 95 = true ∧
    (Instr.tckNRead, R.TCK_N_LO, R.TCK_N_HI) ∈ [(Instr.tckNRead, R.TCK_N_LO, R.TCK_N_HI)] := by decide

/-- SERVO_EN with a sample of 2 ns (R104: the offset in 2⁻¹⁶ ns) and a step limit of `lim` ns. -/
def sampled (lim : Nat) : State :=
  put [(R.TIM_CTRL, 1), (R.TIM_SRV_OFS_LO, 131072), (R.TIM_STEP_LIMIT, lim), (R.TIM_DELAY_MAX, 50), (R.TIM_SRV_DELAY, 50)] s0

theorem witness_ServoAndTimeStates :
    bit 0x80000000 31 = true ∧ flag s0 R.TIM_CTRL 0 = false ∧
    (let s := put [(R.TIM_SRV_DELAY, 51)] (sampled 2)
     flag s R.TIM_CTRL 0 = true ∧ rd s R.TIM_DELAY_MAX < rd s R.TIM_SRV_DELAY) ∧
    rd (sampled 2) R.TIM_SRV_DELAY ≤ rd (sampled 2) R.TIM_DELAY_MAX ∧
    fld (sampled 1) R.TIM_STEP_LIMIT 29 0 * 65536 < (servoTheta (sampled 1)).natAbs ∧
    (servoTheta (sampled 2)).natAbs ≤ fld (sampled 2) R.TIM_STEP_LIMIT 29 0 * 65536 ∧
    (let s := put [(R.TIM_STATUS, 1)] s0
     aonRunning s = true ∧ timeState s = 1 ∧ 0 < inc s) := by decide

/-- A pending refusal with PEND_ID 7, and STEP_ACCEPT's value written. -/
def refused (v : Nat) : State := put [(R.TIM_STATUS, 8), (R.TIM_PEND_ID, 7)] (held R.TIM_STEP_ACCEPT v s0)

theorem witness_ClockStepsAndTimeSet :
    pairValue (refused 7) R.TIM_STEP_ACCEPT 0xFFFFFFF8 = some 7 ∧ flag (refused 7) R.TIM_STATUS 3 = true ∧
    7 = fld (refused 7) R.TIM_PEND_ID 15 0 ∧ pairValue (refused 6) R.TIM_STEP_ACCEPT 0xFFFFFFF9 = some 6 ∧
    6 ≠ fld (refused 6) R.TIM_PEND_ID 15 0 ∧
    bit 1 0 = true ∧ timeState s0 = 0 ∧ flag s0 R.TIM_STATUS 3 = false ∧ (ticking s0).tck.next = some 10 := by decide

/-- Capture input 16 takes rising edges, with a queue and a last edge. -/
def edges (q : List (Nat × Bool)) (last : Option Nat) (at_ : Nat) : State :=
  put [(R.TIM_CAP_CTRL 16, 3)] { s0 with elapsed := at_, tim := { s0.tim with caps := [(16, { fifo := q, lastEdge := last })] } }

theorem witness_CapturesQueueAndRead :
    (let s := edges [(1, true), (2, true), (3, true)] (some 0) (16 * nsUnit)
     aonRunning s = true ∧ edgeSelected s 16 true = true ∧ edgeSelected s 16 false = false ∧ (capAt s 16).lastEdge = some 0 ∧
     0 + 16 * nsUnit ≤ s.elapsed ∧ (capAt s 16).fifo.length = 3 ∧ (capAt s 16).fifo = (1, true) :: [(2, true), (3, true)]) ∧
    (let s := edges [] (some 0) (16 * nsUnit - 1)
     s.elapsed < 0 + 16 * nsUnit ∧ (capAt s 16).fifo = []) ∧
    (capAt (edges [(1, true), (2, true), (3, true), (4, true)] none 0) 16).fifo.length = 4 := by decide

/-- Trigger 11 due to start at 5 µs, with a width and a period in ns. -/
def planned (t w p now : Nat) : State :=
  put [(R.TIM_TRIG_START_NS t, 5000), (R.TIM_TRIG_WIDTH_NS t, w), (R.TIM_TRIG_PERIOD_NS t, p), (R.TIM_TRIG_CTRL t, 0)]
    { s0 with clock := now * nsUnit }

theorem witness_TriggersFollowSchedule :
    (let s := planned 11 8 100 4999
     running s = true ∧ trigArmed s 11 = false ∧ trigValid s 11 = true ∧ s.clock < trigStart s 11 ∧
     trigNextAfter s 11 s.clock = 0 ∧ rd s (R.TIM_TRIG_COUNT 11) = 0) ∧
    trigStart (planned 0 8 100 5000) 0 ≤ (planned 0 8 100 5000).clock ∧
    trigValid (planned 0 7 100 0) 0 = false ∧ trigValid (planned 0 8 99 0) 0 = false ∧
    (let s := put [(R.TIM_TRIG_CTRL 8, 0x11)] (planned 8 8 100 0)
     aonRunning s = true ∧ trigArmed s 8 = true ∧ 0 < inc s) ∧
    trigArmed (put [(R.TIM_TRIG_CTRL 10, 0x11)] s0) 10 = true ∧ trigArmed (put [(R.TIM_TRIG_CTRL 11, 0x11)] s0) 11 = true ∧
    (let s : State := { s0 with tim := { s0.tim with trigs := [(0, { pulseEnd := some 9 })] } }
     (trigAt s 0).pulseEnd = some 9) := by decide

theorem witness_TouchFireDuringScanOverruns :
    (let q : TouchScan := { time := 0, at_ := 0, hop := false, freq := 0, cover := none }
     let s : State := put [(R.TIM_TRIG_CTRL 10, 0x11)] { s0 with tch := { s0.tch with scan := some q } }
     running s = true ∧ trigArmed s 10 = true ∧ s.tch.scan = some q) := by decide

/-! ## States that meet the hypotheses: registers, Husk pairs, sheaves, rings -/

theorem witness_RegisterWritesClampOrAreIgnored :
    regNamed s0 0x3FFFFC = none ∧ regNamed s0 2 = none ∧ running s0 = true ∧
    bits 0xFFFFFFFF 16 0 = 131071 ∧ max 60 (min 86400 131071) = 86400 := by decide

theorem witness_HuskPairsTakeEffectOrAreRejected :
    huskMask s0 0x60400 ≠ 0 ∧ huskPending s0 0x60400 = none ∧ 0x60000 ≤ 0x60400 ∧ 0x60400 < 0x70000 ∧
    (let s := held 0x60400 0x80000000 s0
     running s = true ∧ huskPending s 0x60400 = some { off := 0x60400, v := 0x80000000, until_ := 51200 } ∧ s.updates < 51200 ∧
     pairValue s 0x60400 0x7FFFFFFF = some 0x80000000 ∧ (0x80000000 : Word) ≠ 0x80000000 ^^^ 0xFFFFFFFF) := by decide

theorem witness_RtcpMappingValidForHold :
    pairValue (held (R.SRC_MAP_COMMIT 95) 1 s0) (R.SRC_MAP_COMMIT 95) 0xFFFFFFFE = some 1 ∧
    (let m : Mapping := { rtp := 1, time := 2, since := 0, ends := 5 }
     let s : State := { s0 with chans := [(95, { mappings := [m], mapLapsed := false })] }
     running s = true ∧ (chanAt s 95).mappings.head? = some m ∧ (chanAt s 95).mapLapsed = false ∧ 0 < inc s) := by decide

/-- Slot 7 in a state. -/
def slot7 (k : Nat) : State := put [(R.SHF_SLOT_STATE 7, k), (R.GRN_STATUS, 1)] s0

theorem witness_SheafSlotsOpenWriteCancel :
    running s0 = true ∧ shfState (slot7 0) 7 = 0 ∧ shfState (slot7 1) 7 = 1 ∧ flag (slot7 1) R.GRN_STATUS 0 = true ∧
    2 ≤ shfState (slot7 2) 7 ∧ 2 ≤ shfState (slot7 3) 7 ∧
    (let c := cmd 0x20 [(2, 7)]
     findCmd (fly c (slot7 2)) (smGet (fun _ => 0) [(7, 5)] 7) = some c) := by decide

/-- SHEAF_SUBMIT of slot 7 with a count, NOT_BEFORE and a target. -/
def submit (count : Nat) (nb : Bool) (n : Nat) : Cmd := cmd 0x20 [(2, if nb then 0x107 else 7), (3, count), (4, n)]
/-- A slot in CHECKING alone, with an expected CRC. -/
def checking (crc : Nat) : State :=
  let s := put [(R.SHF_SLOT_CRC 7, crc)] (slot7 2)
  { s with shf := { s.shf with order := [7], tags := [(7, 5)] } }

theorem witness_SheafSubmitAndCheck :
    ready (submit 4096 false 10) 0x20 (fly (submit 4096 false 10) (slot7 1)) = true ∧
    bits ((submit 4096 false 10).w 3) 12 0 ≤ 4096 ∧ bits ((submit 4096 false 10).w 3) 12 0 ≠ 0 ∧
    shfState (slot7 1) (bits ((submit 1 false 10).w 2) 2 0) = 1 ∧ shfState s0 (bits ((submit 1 false 10).w 2) 2 0) ≠ 1 ∧
    4096 < bits ((submit 4097 false 10).w 3) 12 0 ∧ bits ((submit 0 false 10).w 3) 12 0 = 0 ∧
    bits ((submit 1 true 10).w 2) 8 8 ≠ 0 ∧ bits ((submit 1 false 10).w 2) 8 8 = 0 ∧ tickRun (ticking s0) = true ∧
    tickInstant (ticking s0) 0 ≤ (ticking s0).clock ∧ (ticking s0).clock < tickInstant (ticking s0) 1 ∧
    (checking 0).shf.order.find? (fun j => decide (shfState (checking 0) j = 2)) = some 7 ∧
    (match sheafCheck (checking 1) 7 with | .error (r, i, d) => decide (r = 6 ∧ i = 0xFFFF ∧ d = 0) | _ => false) = true := by decide

theorem witness_SheafCheckPasses :
    (match sheafCheck (checking 0) 7 with | .ok vals => vals.isEmpty | _ => false) = true := by decide +kernel

theorem witness_DirectModeTakesWrites :
    running s0 = true ∧ (regRow? 0x60058).isSome = true ∧ unitPresent s0.part .none 0 = true ∧
    (regRow? 0x60058).any (fun (r, i) => decide (r.st ≠ 0) && decide (i = 0) && unitPresent s0.part r.unit (i / r.unitDiv)
      && decide (r.base ∉ [R.HEAD_H 0, R.HEAD_V 0, R.HEAD_MODE 0]) && decide ((directScope 0x60058 r).filter (inDirect s0) = none)
      && decide ((directScope 0x60058 r).filter (inDirect (put [(R.SHF_DIRECT_DEV, 1)] s0)) = some (2, 0))) = true := by decide

/-- SQ 0 (16 descriptors at 0x10000) RUNNING on CQ 0 (16 records), with an index register each. -/
def ringed (sq cq : Nat) : State :=
  put [(R.RNG_SQ_BASE_LO 0, 0x10000), (R.RNG_SQ_CFG 0, 0x04000001), (R.RNG_SQ_STATUS 0, 2), (R.RNG_SQ_INDEX 0, sq),
    (R.RNG_CQ_BASE_LO 0, 0x20000), (R.RNG_CQ_CFG 0, 0x04000001), (R.RNG_CQ_STATUS 0, 2), (R.RNG_CQ_INDEX 0, cq)] { s0 with linkUp := true }
/-- A ring OFF whose CFG write enables it. -/
def ringOff (base : Nat) : State := put [(R.RNG_EQ_BASE_LO 3, base), (R.EVT_CODE 9, 0), (R.EVT_CODE 3, 0)] s0

theorem witness_RingsTakeDoorbellsAndEnables :
    (Instr.sqDoorbell 0 0xFFF0000F false [], 0, hostStore [] (ringed 0 0)) ∈
      [(Instr.sqDoorbell 0 0xFFF0000F false [], 0, hostStore [] (ringed 0 0)), (.cqDoorbell 0 0 false, 64, ringed 0 0)] ∧
    bits 0xFFF0000F 31 16 = bits 0xFFF0000F 15 0 ^^^ 0xFFFF ∧ doorbellInRange (ringed 0 0) 0 15 = true ∧
    bits 0xFFEF0010 31 16 = bits 0xFFEF0010 15 0 ^^^ 0xFFFF ∧ doorbellInRange (ringed 0 0) 0 16 = false ∧
    bits 0xFFEE0010 31 16 ≠ bits 0xFFEE0010 15 0 ^^^ 0xFFFF ∧
    ringState (ringOff 0x1000) (ringNum (.eq 3)) = 0 ∧ flag (ringOff 0x1000) (R.EVT_CODE 9) 31 = false ∧
    flag (ringOff 0x1000) (R.EVT_CODE 3) 31 = false ∧ rd (ringOff 0x1000) (R.RNG_EQ_LOST 3) = 0 ∧
    ringValid (wr (ringOff 0x1000) (ringCfg 99) (setBits 0x04000001 0 0 1 &&& (ringCfgMask 99 + 1))) 99 = true ∧
    ringValid (wr (ringOff 0x1020) (ringCfg 99) (setBits 0x04000001 0 0 1 &&& (ringCfgMask 99 + 1))) 99 = false ∧
    ringState (ringed 0 0) 0 = 2 ∧ ringState (ringed 0 0) 64 = 2 ∧ cqNamed (ringed 0 0) 0 = true ∧
    cqNamed (put [(R.RNG_SQ_STATUS 0, 0)] (ringed 0 0)) 0 = false := by decide

/-- SQ 0 with one descriptor to fetch, whose first word is `w`. -/
def fetchable (w : Nat) : State := hostStore ((wordBytes (w :: List.replicate 15 0)).mapIdx (fun i b => (0x10000 + i, b))) (ringed 0x10000 0)
/-- The address at which the fetch's read fails. -/
def fetchBad (s : State) : Option Nat :=
  (dmaRead 5 18 (ringSpace s 0) (ringAddr s 0 0 64) 64 (noteLink [(ringAddr s 0 0 64, .clean)] s)).2.bad

theorem witness_DescriptorsAreFetchedInOrder :
    sqNext (ringed 0 0) = none ∧ sqNext (fetchable 0x01000000) = some 0 ∧ (fetchable 0x01000000).rng.cmds.length < 4096 ∧
    findCmd (fetchable 0x01000000) 4095 = none ∧ fetchBad (fetchable 0x01000000) = none ∧
    granaryBad (fetchable 0x01000000) (ringCache 0) 0x1000 = false ∧
    fetchBad (put [(R.GRD_CTRL 5, 0)] (fetchable 0x01000000)) = some 0x10000 ∧
    badDescriptor (cmd 0x01 []) = none ∧ absentUnit s0.part (cmd 0x01 []) = none ∧ badDescriptor (cmd 0x01 [(2, 1)]) = some 2 ∧
    badDescriptor (cmd 0x10 []) ≠ none ∧ absentUnit .krv3248 (cmd 0x11 [(2, 95)]) = some 95 := by decide

/-- The ring state of the witnesses with a command in flight that has come to a phase. -/
def phased (op : Nat) (ws : List (Nat × Nat)) (p : CmdPhase) : Cmd := { cmd op ws with phase := p }

theorem witness_CompletionsAndServiceCommands :
    (let c := phased 0x01 [] (.due stSuccess 0 0 0 none)
     let s := fly c (ringed 0 0)
     running s = true ∧ findCmd s 5 = some c ∧ c.sq < 64 ∧ flag s (R.RNG_SQ_CFG c.sq) 3 = false ∧ bit (c.w 0) 8 = false ∧
     64 + fld s (R.RNG_SQ_CFG c.sq) 20 16 = 64 ∧ ringState s 64 = 2 ∧ ringFree s 64 = 15 ∧
     (dmaWrite 5 18 (ringSpace s 64) (ringAddr s 64 (fld s (ringIndex 64) 15 0) 32)
       (wordBytes (completionWords (ringPhase s 64) c stSuccess (tickNow s).1 (tickNow s).2 0 0 0)) s).2 = none ∧
     granaryBad s (ringCache 64) 0x1000 = false) ∧
    ringFree (ringed 0 0x0001000F) 64 = 1 ∧ ringFree (ringed 0 0x0000000F) 64 = 0 ∧
    (let c : Cmd := { phased 0x01 [] (.due stSuccess 0 0 0 none) with words := [0x01000100] }
     bit (c.w 0) 8 = true ∧ findCmd (fly c s0) 5 = some c) ∧
    (let c := phased 0x48 [] .waiting
     barrierMet (fly c s0) c = true ∧ c.opcode = 0x48 ∧ findCmd (fly c s0) 5 = some c) ∧
    ready (cmd 0x01 []) 0x01 (fly (cmd 0x01 []) s0) = true ∧ ready (cmd 0x48 [(2, 2)]) 0x48 (fly (cmd 0x48 [(2, 2)]) s0) = true ∧
    ready (cmd 0x50 [(2, 2), (3, 63)]) 0x50 (fly (cmd 0x50 [(2, 2), (3, 63)]) s0) = true ∧
    (ledgerSides s0 2 63).all (·.ok) = true ∧ (ledgerSides s0 2 63).head?.isSome = true ∧
    ((ledgerSides (put [(R.RNG_SQ_ISSUED 63, 1)] s0) 2 63).find? (fun y => !y.ok)).isSome = true := by decide

theorem witness_DrainedUnitsReachOff :
    unitState s0 0 95 ≠ 3 ∧
    (let s := put [(R.SRC_STATE 95, 3), (R.VEN_STATE 15, 3), (R.RNG_SQ_STATUS 63, 3)] s0
     running s = true ∧ unitState s 0 95 = 3 ∧ (∀ k < 16, (slotAt s 95 k).state = 0) ∧ unitCmdsDone s 0 95 = true ∧
     unitState s 2 15 = 3 ∧ encIdle s 15 = true ∧ unitState s 3 63 = 3 ∧ ∀ c ∈ s.rng.cmds, c.sq ≠ 63) ∧
    (let s : State := { put [(R.HEAD_STATUS 23, 3)] s0 with heads := [(23, { disabling := true, sealedOff := true })] }
     unitState s 1 23 = 3 ∧ (headAt s 23).disabling = true ∧ (headAt s 23).sealedOff = true ∧ (headAt s 23).scan = none ∧
     ∀ p ∈ (headAt s 23).wbs, p.2.state ≠ 1 ∧ p.2.state ≠ 4) := by decide

/-! ## Sources and decode -/

/-- SRC_OPEN of channel 95 of a kind, 1920 by 1080 at 60 Hz and 10 Mbit/s, H.264 (R160). -/
def opens (kind : Nat) : Cmd :=
  cmd 0x10 [(2, kind * 65536 + 95), (3, 7), (4, 1080 * 65536 + 1920), (5, 60000), (6, 0x08000000), (7, 10000), (9, 4)]
/-- The tick runs and every engine has its limit. -/
def roomy : State := { put [(R.TCK_POOL_LIMIT 0, 50666665), (R.TCK_POOL_LIMIT 1, 101333330)] (ticking s0) with
  tck := { (ticking s0).tck with engineLimit := [12666666, 12666666, 12666666, 12666666] } }

theorem witness_SourcesOpenAndClose :
    ready (opens 0) 0x10 (fly (opens 0) roomy) = true ∧ bits ((opens 0).w 2) 15 0 = 95 ∧ unitState roomy 0 95 = 0 ∧
    tickRun roomy = true ∧ inputFits roomy 95 0 = true ∧ admitFails roomy (declCosts roomy 0 (opens 0).w) = none ∧
    (admitFails (ticking s0) (declCosts (ticking s0) 0 (opens 0).w)).isSome = true ∧ tickRun s0 = false ∧
    unitState (put [(R.SRC_STATE 95, 1)] s0) 0 95 = 1 ∧ unitState (put [(R.SRC_STATE 95, 2)] s0) 0 95 = 2 ∧
    ready (cmd 0x11 [(2, 95)]) 0x11 (fly (cmd 0x11 [(2, 95)]) s0) = true := by decide

/-- A declaration in the registers of channel 95. -/
def declared : State :=
  put [(R.SRC_DECL 95 0, 1080 * 65536 + 1920), (R.SRC_DECL 95 1, 60000), (R.SRC_DECL 95 2, 0x28000002), (R.SRC_DECL 95 6, 0x40), (R.SRC_DECL 95 5, 4),
    (R.SRC_SLOT_STRIDE 95, 0x00800000)] roomy

theorem witness_SourceChannelsBindAndEnable :
    running declared = true ∧ unitPresent declared.part .src 95 = true ∧ tickRun declared = true ∧ bits 0x21 5 4 = 2 ∧
    inputFits declared 95 2 = true ∧ admitFails declared (declCosts declared 2 (srcRegWord declared 95)) = none ∧
    badDeclaration 2 (srcRegWord declared 95) = none ∧ bits 0x31 5 4 = 3 ∧ tickRun s0 = false ∧
    inputFits (put [(R.SRC_INPUT 95, 0x60000000)] s0) 95 2 = false ∧ unitState (put [(R.SRC_STATE 95, 3)] s0) 0 95 = 3 ∧
    (let c := cmd 0x12 [(2, 95), (3, 1023)]
     ready c 0x12 (fly c s0) = true ∧ bits (c.w 2) 15 0 = 95 ∧ bits (c.w 3) 15 0 < 1024 ∧ inputTaken s0 95 (c.w 3) = false ∧
     flag s0 (R.SRC_STATE 95) 2 = false ∧ inputTaken (put [(R.SRC_INPUT 0, 0x200003FF)] s0) 95 (c.w 3) = true) := by decide

/-- A HOST channel 95 RUNNING on SQ 0 with a pool of 16 slots and credit for one frame, and a frame of 16 by 16 posted. -/
def hosted : State :=
  { put [(R.SRC_STATE 95, 0x26), (R.SRC_INPUT 95, 0xA0000000), (R.SRC_DECL 95 0, 16 * 65536 + 16), (R.SRC_DECL 95 5, 16),
      (R.SRC_DECL 95 6, 0x40), (R.DMC_STATUS, 1), (R.DMC_CAPACITY, 1)] (ticking s0) with linkUp := true, chans := [(95, { credit := 3 * 10 ^ 12 })] }
def post : Cmd := cmd 0x13 [(2, 95), (6, 4), (7, 4096), (12, 9)]

theorem witness_PostedFramesTakeSlots :
    ready post 0x13 (fly post hosted) = true ∧ bits (post.w 2) 15 0 = 95 ∧ unitState hosted 0 95 = 2 ∧ srcKind hosted 95 = 2 ∧
    flag hosted (R.SRC_INPUT 95) 29 = true ∧ fld hosted (R.SRC_INPUT 95) 31 30 = 2 ∧ fld hosted (R.SRC_INPUT 95) 15 0 = post.sq ∧
    quiet hosted = false ∧ frameShort hosted 95 (bits (post.w 6) 15 0 * 16) (post.w 7) = false ∧ creditLeft hosted 95 = true ∧
    freeSlot hosted 95 = some 0 ∧
    (let c : Cmd := { post with phase := .waiting, aux := [0] }
     let s := setSlot 95 0 { decoding := true, fmt := 0x40, width := 16, height := 16, pitch := 256 } hosted
     waits c 0x13 (fly c s) = true ∧ (copyFrame c 95 0 (noteLink [] (fly c s))).2 = none ∧
     (copyFrame c 95 0 (put [(R.GRD_CTRL 5, 0)] (noteLink [] (fly c s)))).2.isSome = true) := by decide

/-- A COMPRESSED channel 95 RUNNING with an access unit ready. -/
def coded : State :=
  { put [(R.SRC_STATE 95, 6), (R.SRC_DECL 95 0, 1080 * 65536 + 1920), (R.SRC_DECL 95 2, 0x081E4D00), (R.SRC_DECL 95 5, 4)]
      (ticking s0) with chans := [(95, { credit := 6 * 10 ^ 12, started := true, aus := [{ arrival := 1, rtp := 0, bytes := 9, losses := [] }] })] }
def start : PictureStart := { ch := 95, profile := 77 }
def inDecode (parsed : Bool) : State :=
  { coded with chans := [(95, { pic := some { slot := 15, ent := 3, pix := 7, parsed := parsed, au := { arrival := 1, rtp := 0, bytes := 9, losses := [] } },
                                entCredit := 5, pixCredit := 5 })] }

theorem witness_PicturesDecode :
    running coded = true ∧ quiet coded = false ∧ pictureReady coded 95 = true ∧ (chanAt coded 95).aus ≠ [] ∧
    (chanAt coded 95).started = true ∧ start.vcl = true ∧ start.rasl = false ∧ streamSupported (declCodec coded 95) start = true ∧ start.lost = false ∧
    paramCheck coded start = none ∧ idleEnt coded = some 0 ∧ idlePix coded = some 0 ∧ creditLeft coded 95 = true ∧
    freeSlot coded 95 = some 0 ∧ overtaken coded 95 = false ∧
    (∃ p, (chanAt (inDecode false) 95).pic = some p ∧ p.ent < 4 ∧ p.pix < 8 ∧ p.slot < 16 ∧ p.parsed = false) ∧
    (∃ p, (chanAt (inDecode true) 95).pic = some p ∧ p.parsed = true) ∧
    (5 : Nat) ≤ (chanAt (inDecode false) 95).entCredit ∧ (chanAt (inDecode false) 95).entCredit < 6 ∧
    (5 : Nat) ≤ (chanAt (inDecode true) 95).pixCredit ∧
    (chanAt (pageMoves 95 [] (noteLink [] (inDecode false))) 95).pic.any (fun q => !q.stalled && decide (q.slot = 15)) = true ∧
    (chanAt (pageMoves 95 (List.replicate 65 none) (noteLink [] (inDecode false))) 95).pic.any (fun q => q.stalled) = true := by
  refine ⟨by decide, by decide, by decide, by decide, by decide, by decide, by decide, by decide, by decide, by decide, by decide,
    by decide, by decide, by decide, by decide, ⟨_, rfl, by decide⟩, ⟨_, rfl, by decide⟩, by decide, by decide, by decide,
    by decide, by decide⟩

/-! ## The Vestibule and the network -/

/-- MAC 7 up, with `ctrl` in its CTRL. -/
def macOn (ctrl : Nat) : State := put [(R.ETH_STATUS 7, 1), (R.ETH_CTRL 7, ctrl)] s0
/-- A frame of `n` bytes with its FCS, of an Ethertype and a first word of payload, to address 01-00-00-00-00-01. -/
def ether (n t w : Nat) : List Byte :=
  let b := beBytes 6 0x010000000001 ++ beBytes 6 2 ++ beBytes 2 t ++ beBytes 2 w
  let f := b ++ List.replicate (n - 4 - b.length) 0
  f ++ ethFcs f

theorem witness_NetworkFramesAndFlowTable :
    running (macOn 0) = true ∧ macUp (macOn 0) 7 = true ∧ macMode (macOn 0) 7 ≠ 3 ∧
    fcsGood (ether 64 0x88B5 0) = true ∧ (ether 64 0x88B5 0).length = 64 ∧ (ether 63 0x88B5 0).length < 64 ∧
    fcsGood (ether 63 0x88B5 0) = true ∧ fcsGood ((ether 64 0x88B5 0).drop 1) = false ∧
    isPause (ether 64 0x8808 1) = true ∧ fcsGood (ether 64 0x8808 1) = true ∧ isPause (ether 64 0x88B5 0) = false ∧
    macAccepts (macOn 0) 7 (ether 64 0x88B5 0) = false ∧ macAccepts (macOn 1) 7 (ether 64 0x88B5 0) = true ∧
    classify (macOn 1) 7 (parseEth ((ether 64 0x88B5 0).take 60)) = .other ∧ postedBuffer (macOn 1) 0 = none ∧
    (let c := cmd 0x18 [(2, 1023), (3, 1)]
     ready c 0x18 (fly c s0) = true ∧ bits (c.w 2) 9 0 = 1023 ∧ bit (c.w 2) 16 = false ∧ (flowAt s0 1023).keyA = none) ∧
    (let c := cmd 0x18 [(2, 0x103FF), (3, 1)]
     ready c 0x18 (fly c s0) = true ∧ bit (c.w 2) 16 = true ∧ (flowAt s0 1023).keyB = none ∧ s0.flows = [] ∧
     (flowAt { s0 with flows := [(1023, { keyA := some (flowKey c) })] } 1023).keyA ≠ none) ∧
    (let c := cmd 0x19 [(2, 0x303FF)]
     ready c 0x19 (fly c s0) = true ∧ bit (c.w 2) 16 = true ∧ bit (c.w 2) 17 = true ∧ (flowAt s0 1023).chan = none ∧
     (let s := put [(R.SRC_STATE 95, 2)] { s0 with flows := [(1023, { chan := some 95 })] }
      (flowAt s 1023).chan = some 95 ∧ unitState s 0 95 ≠ 0)) ∧
    (let c := cmd 0x39 [(3, 1), (6, 9244)]
     ready c 0x39 (fly c s0) = true ∧ bit (c.w 3) 0 = true ∧ demalState s0 ≠ 2 ∧
     demalState (put [(R.SYS_DEMAL, 2)] s0) = 2 ∧ flag s0 (ringCfg c.sq) 1 = false) ∧
    (let c := cmd 0x38 [(2, 7), (6, 14)]
     ready c 0x38 (fly c (macOn 0)) = true ∧ macUp s0 (bits (c.w 2) 2 0) = false ∧
     (let d : Cmd := { c with phase := .waiting }
      let s : State := { macOn 0 with linkUp := true }
      waits d 0x38 (fly d s) = true ∧ macUp s (bits (d.w 2) 2 0) = true ∧ bits (d.w 7) 1 0 = 0 ∧
      (dmaRead 5 18 (if bit (d.w 7) 3 then spCellar else spHost) (d.w 4 + 2 ^ 32 * d.w 5) (bits (d.w 6) 13 0) (noteLink [] (fly d s))).2 =
        { data := List.replicate 14 0, bad := none } ∧
      (dmaRead 5 18 spHost (d.w 4) 14 (put [(R.GRD_CTRL 5, 0)] (fly d s))).2.bad = some 0)) := by decide

theorem witness_PacketBalanceKept :
    (∃ t, exec (.jitterDeadline 1023) s0 = .next t) ∧
    ∀ f, (flowAt s0 f).arrivedA + (flowAt s0 f).arrivedB = (flowAt s0 f).used + (flowAt s0 f).dup + (flowAt s0 f).late
      + (flowAt s0 f).malformed + (flowAt s0 f).held.length := ⟨⟨_, rfl⟩, fun _ => rfl⟩

/-- Flow 1023 on channel 95 holds packet 65,535 while it expects 65,534; path B accepted last. -/
def gap : State :=
  { s0 with flows := [(1023, { keyA := some [1], keyB := some [2], chan := some 95, next := some 65534, acceptB := 1, held := [
      { seq := 65535, rx := 0, at_ := 0, rtp := 0, marker := false, desc := 0, payload := [] }] })] }
/-- Channel 95 RUNNING with items the depacketiser has still to take, its ring filled to `n` bytes. -/
def depack (is : List BsItem) (n : Nat) : State :=
  { put [(R.SRC_STATE 95, 2)] s0 with chans := [(95, { released := is, aus := [{ arrival := 0, rtp := 0, bytes := n, losses := [] }] })] }
def onePacket : Pkt := { seq := 1, rx := 0, at_ := 0, rtp := 0, marker := true, desc := 0, payload := [0x65] }

theorem witness_FlowTimersAndDepacketise :
    running gap = true ∧ (flowAt gap 1023).chan = some 95 ∧ (flowAt gap 1023).held.map Pkt.seq = [65535] ∧
    (flowAt gap 1023).next = some 65534 ∧ 0 < inc gap ∧ (flowAt gap 1023).keyA ≠ none ∧ (flowAt gap 1023).keyB ≠ none ∧
    flag gap (R.VST_FLOW_STATE 1023) 28 = false ∧ (flowAt gap 1023).acceptA < (flowAt gap 1023).acceptB ∧
    (let s : State := { s0 with flows := [(0, { keyA := some [1], keyB := some [2], chan := some 0, acceptA := 1 })] }
     flag s (R.VST_FLOW_STATE 0) 27 = false ∧ (flowAt s 0).acceptB < (flowAt s 0).acceptA) ∧
    unitState (depack [.data onePacket] (ringBytes - 1)) 0 95 = 2 ∧
    (chanAt (depack [.data onePacket] (ringBytes - 1)) 95).released = .data onePacket :: [] ∧
    ringInUse (depack [.data onePacket] (ringBytes - 1)) 95 + onePacket.payload.length ≤ ringBytes ∧
    ringBytes < ringInUse (depack [.data onePacket] ringBytes) 95 + onePacket.payload.length ∧
    (chanAt (depack [.loss 3] 0) 95).released = [.loss 3] := by decide

/-! ## W-lanes -/

/-- Lane 31 in a state, in NGZ mode. -/
def lane31 (st : Nat) : State := put [(R.LANE_STATUS 31, st), (R.LANE_CTRL 31, 1)] s0
/-- A PLL of quad 3 with a frequency. -/
def plls (a b : Nat) : State := put [(R.QUAD_STATUS 3, a * 256 + b * 4096)] s0

theorem witness_LanesStartAndStop :
    running s0 = true ∧ unitPresent s0.part .lane 31 = true ∧ laneState s0 31 = 0 ∧ laneState (lane31 4) 31 ≠ 0 ∧
    bits 0x2D 3 1 = 6 ∧ bits 0x01 3 1 ≤ 3 ∧ pllFor s0 3 (pllCode 0 0) = some false ∧ pllFor (plls 2 0) 3 (pllCode 0 0) = some true ∧
    pllFor (plls 2 3) 3 (pllCode 0 0) = none ∧ bits 0x703 3 1 = 1 ∧ bits 0x703 10 8 = 7 ∧ macTaken s0 31 7 = false ∧
    macTaken (put [(R.LANE_STATUS 0, 1), (R.LANE_CTRL 0, 0x703)] s0) 31 7 = true ∧
    pllFreq (plls 0 3) 3 true ≠ 0 ∧ pllLocked (plls 0 3) 3 true = false := by decide

/-- Lane 31 up with a calibration at a phase. -/
def rotating (phase : Nat) (spare : Bool) : State :=
  { lane31 (if spare then 0x23 else 3) with pwr := { s0.pwr with cals := [{ item := 31, phase := phase }] },
                                              lanes := [(31, { blind := true })] }

theorem witness_LaneStatesAndSpareSlice :
    laneState (lane31 1) 31 = 1 ∧ laneState (lane31 2) 31 = 2 ∧ laneState (lane31 3) 31 = 3 ∧
    laneMode (put [(R.LANE_CTRL 31, 3)] (lane31 3)) 31 ≠ 0 ∧ laneState (put [(R.LANE_CTRL 31, 3)] (lane31 2)) 31 = 2 ∧
    laneState (put [(R.LANE_CTRL 31, 3)] (lane31 3)) 31 = 3 ∧ (laneAt (rotating 0 false) 31).blind = true ∧
    running (rotating 0 false) = true ∧ calOf (rotating 0 false) 31 = some { item := 31, phase := 0 } ∧
    flag (rotating 0 false) (R.LANE_STATUS 31) 5 = false ∧ calOf (rotating 2 true) 31 = some { item := 31, phase := 2 } ∧
    laneState (rotating 2 true) 31 ≠ 0 ∧ flag (rotating 2 true) (R.LANE_STATUS 31) 5 = true ∧
    spareReady (rotating 0 false) 31 { item := 31 } = false ∧ spareReady (rotating 0 false) 31 { item := 31, matchAt := some 0 } = true ∧
    spareReady (ticking (rotating 2 true)) 31 { item := 31, phase := 2, matchAt := some 1 } = true ∧
    spareReady (ticking (rotating 0 false)) 31 { item := 31, matchAt := some 0 } = false := by decide

/-- A valid header of an idle block with number 8 alone, and one with a wrong first byte, as they stand on the line. -/
def sound8 : List Bool := (stuff (false, 0) (msbBits 64 (blockHeader 0 0 8)) []).1.reverse
def wrong8 : List Bool := (stuff (false, 0) (msbBits 64 (blockHeader 0 0 8 - 2 ^ 56)) []).1.reverse
def taken (l : List Bool) : Nat := (takeBlock (false, 0) (l.take blockBits)).1
/-- Lane 31 in a state with its receive side. -/
def receiving (st : Nat) (x : LaneSt) : State := { lane31 st with lanes := [(31, x)] }

theorem witness_LanesSendAndReceiveBlocks :
    (laneAt (receiving 1 { nextAt := some 7 }) 31).nextAt = some 7 ∧ laneMode (lane31 3) 31 = 0 ∧ 0 < inc (lane31 3) ∧
    flag (lane31 3) (R.LANE_CTRL 31) 13 = false ∧ flag (lane31 3) (R.LANE_CTRL 31) 14 = false ∧
    headerValid (taken sound8) = true ∧ headerValid (taken wrong8) = false ∧ headerType (taken sound8) = 0 ∧
    headerSeq (taken sound8) = 8 ∧
    headerValid (takeBlock ((laneAt (receiving 2 {}) 31).rxBit, (laneAt (receiving 2 {}) 31).rxRun)
      (((laneAt (receiving 2 {}) 31).hunt ++ sound8).take 96)).1 = true ∧ 15 ≤ (laneAt (receiving 2 { valid := 15 }) 31).valid ∧
    (laneAt (receiving 2 { valid := 14 }) 31).valid < 15 ∧ laneState (receiving 2 {}) 31 = 2 ∧
    (let s := receiving 3 { span := some { start := 0, last := 7, received := 8, lost := 0 }, farAt := some 0, genlock := true,
                            window := [false, false, false] }
     laneState s 31 = 3 ∧ (laneAt s 31).held = none ∧ (laneAt s 31).span = some { start := 0, last := 7, received := 8, lost := 0 } ∧
     headerSeq (taken sound8) = (7 + 1) % 2 ^ 32 ∧ 3 ≤ ((laneAt s 31).window.take 63).count false ∧
     (laneAt s 31).farAt = some 0 ∧ (laneAt s 31).genlock = true) := by decide

/-! ## Heads -/

/-- The tick runs; head 23 in a state. -/
def headIn (st : Nat) (x : Head) : State := { put [(R.HEAD_STATUS 23, st)] (ticking s0) with heads := [(23, x)] }
/-- HEAD_CTL of head 23. -/
def headCtl (en : Nat) : Cmd := cmd 0x14 [(2, 23), (3, en)]
/-- Head 23 with timing that breaks R300 as latched. -/
def tight : State := { headIn 0 {} with latched := [(R.HEAD_V 23, 0x04380438)] }

theorem witness_HeadsAndPixelPlls :
    ready (headCtl 1) 0x14 (fly (headCtl 1) (headIn 0 {})) = true ∧ bits ((headCtl 1).w 2) 4 0 = 23 ∧ bit ((headCtl 1).w 3) 0 = true ∧
    bit ((headCtl 0).w 3) 0 = false ∧ (headAt (headIn 0 {}) 23).restart ≠ 2 ∧ unitState (headIn 0 {}) 1 23 = 0 ∧
    tickRun (headIn 0 {}) = true ∧ timingBad (headIn 0 {}) (lrd (headIn 0 {})) 23 = false ∧ timingBad tight (lrd tight) 23 = true ∧
    tickRun s0 = false ∧ unitState (headIn 1 {}) 1 23 = 1 ∧ unitState (headIn 2 {}) 1 23 = 2 ∧ unitState (headIn 3 {}) 1 23 = 3 ∧
    (headAt (headIn 2 {}) 23).disabling = false ∧ unitPresent s0.part .head 23 = true ∧
    (headAt (headIn 1 { pllOn := true }) 23).pllOn = true ∧ headLocked (headIn 1 { pllOn := true }) 23 = false ∧
    (headAt (headIn 1 { pllOn := true }) 23).lockLate = false ∧ headLocked (headIn 0xA {}) 23 = true ∧
    unitState (headIn 0xA {}) 1 23 = 2 ∧ unitState (headIn 9 {}) 1 23 ≠ 2 := by decide

/-- A frame of tick 9 in a phase of head 23, which runs. -/
def framed (sc : Scan) : State := headIn 0xA { scan := some sc }
def frame9 : Scan := { n := 9, t := 150000000 * nsUnit }

theorem witness_FramesBeginAndRunLineByLine :
    running (framed frame9) = true ∧ (headAt (framed frame9) 23).scan = some frame9 ∧ frame9.prefetch = false ∧
    frame9.active = false ∧ unitState (framed frame9) 1 23 = 2 ∧ leader (framed frame9) 23 = 23 ∧
    (let sc : Scan := { frame9 with active := true, line := 1079 }
     let s := framed sc
     sc.line < vActive s 23 ∧ sc.cut = false ∧ sc.ended = false ∧
     (cutInstant s 23).any (fun c => decide ((waitElapsed (lineAt s 23 sc sc.line) s).clock < c)) = true ∧
     sc.line < vActive (scene s 23) 23 ∧ (headAt { s with heads := [(23, { endAt := some 1 })] } 23).endAt.isSome = true) ∧
    (let sc : Scan := { frame9 with active := true, baseAt := 166600000 * nsUnit }
     let s := framed sc
     (cutInstant s 23).isSome = true ∧ cutsScan s 23 sc = true ∧ cutsScan s 23 { sc with baseAt := 0 } = false) ∧
    (let s : State := { framed { frame9 with prefetch := true } with latched := [(R.HEAD_L_SRC 23 15, 0x60000000)] }
     layerEnabled s 23 15 = true ∧ layerCovered s 23 15 = false ∧ (geo s 23 15).onLine (nextFetch s 23 15) = true ∧
     nextFetch s 23 15 < vActive s 23) := by decide

/-- The last frame of head 23 with a CRC register, after a run of frames with the same picture of a live layer. -/
def ending (crc run : Nat) : State :=
  let x : Head := { scan := some { frame9 with active := true, line := 1080, crc := crc }, lastCrc := some 0, run := run }
  { put [(R.WIN_L_CLASS 23 0, 1)] (headIn 0xA x) with latched := [(R.HEAD_L_SRC 23 0, 0x60000000)] }

theorem witness_FramesEndUnderTheWitness :
    (let s := ending 0xFFFFFFFF 1
     running s = true ∧ (headAt s 23).scan.any (fun sc => frameOver s 23 sc && frameQlive s 23 sc && decide (frameCrc sc = 0)) = true ∧
     (headGroup s 23).all (fun k => (headAt s k).scan.all (frameOver s k)) = true ∧ (headAt s 23).restart = 0 ∧
     unitState s 1 23 = 2 ∧ (headAt s 23).lastCrc = some 0 ∧ witnessN s ≤ (headAt s 23).run + 1) ∧
    (let f : WbFrame := { n := 9, cap := 0, done := 0 }
     (headAt (headIn 2 { wbPending := [(7, f)], wbOn := true }) 23).wbPending = [(7, f)] ∧
     wbKeeps (headAt (headIn 2 { wbPending := [(7, f)], wbOn := true }) 23) = true ∧
     wbKeeps (headAt (headIn 2 { wbPending := [(7, f)], wbOn := false }) 23) = false) ∧
    unitPresent s0.part .head 23 = true := by decide

/-! ## Encode -/

/-- ENC_START of session 15 on pipeline 1: head 23's writeback, H.264, 5,000 kbit/s, CPB of 1,000 kbit (R160), with the size and
the shortest ring of records. -/
def encode (size ring : Nat) : Cmd :=
  cmd 0x28 [(2, 0x1000F), (3, 0x20000017), (4, size), (5, 0x08006400), (6, 1), (7, 5000), (8, 1000), (9, 0x330A),
    (11, 0x00040000 + ring)]
/-- The tick runs and pipeline 1 has its limit. -/
def pipes : State := { put [(R.TCK_POOL_LIMIT 3, 12666666)] (ticking s0) with
  tck := { (ticking s0).tck with engineLimit := [0, 0, 12666666, 12666666] } }

theorem witness_EncodeSessionsStartAndStop :
    ready (encode 0x04380780 18) 0x28 (fly (encode 0x04380780 18) pipes) = true ∧ bits ((encode 0x04380780 18).w 2) 3 0 = 15 ∧
    unitState pipes 2 15 = 0 ∧ tickRun pipes = true ∧ encReason pipes (encode 0x04380780 18).w = none ∧
    encReason pipes (encode 0x0438003E 18).w = some 1 ∧ encReason pipes (encode 0x04380780 17).w = some 10 ∧
    admitFails pipes [(2 + bits ((encode 0x04380780 18).w 2) 16 16, encCost (encode 0x04380780 18).w)] = none ∧
    (admitFails (ticking s0) [(2 + bits ((encode 0x04380780 18).w 2) 16 16, encCost (encode 0x04380780 18).w)]).isSome = true ∧
    tickRun s0 = false ∧ unitState (put [(R.VEN_STATE 15, 1)] s0) 2 15 = 1 ∧ unitState (put [(R.VEN_STATE 15, 2)] s0) 2 15 = 2 ∧
    ready (cmd 0x29 [(2, 15)]) 0x29 (fly (cmd 0x29 [(2, 15)]) s0) = true := by decide

/-- Session 15 RUNNING on pipeline 1 with a picture and a ring of 2^k bytes, 64 by 64 in four rows. -/
def coding (k : Nat) (q : EncPic) : State :=
  let c := encode 0x00400040 k
  let s := put [(R.VEN_STATE 15, 6), (R.VEN_SRC 15, c.w 3), (R.VEN_SIZE 15, c.w 4), (R.VEN_CODEC 15, c.w 5), (R.VEN_MODE 15, 1),
    (R.VEN_BIT_RATE 15, c.w 7), (R.VEN_CPB_KBIT 15, 1000), (R.VEN_QP 15, c.w 9), (R.VEN_OUT_CFG 15, c.w 11)] (ticking s0)
  { s with encs := [(15, { pic := some q })] }
def picture : EncPic := { n := 9, t := 0, rebase := 0, deadline := 0 }

theorem witness_EncodeRowsAndRecords :
    (let s := coding 18 picture
     running s = true ∧ pipeBusy s 1 = false ∧ encChoice s 1 = some 15 ∧ (encAt s 15).pic = some picture ∧ picture.row = 0 ∧
     encSlices (encWord s 15) ≤ encFreeRecs s 15 ∧ 125 * rd s (R.VEN_CPB_KBIT 15) + 4096 ≤ encFreeData s 15) ∧
    (let s := coding 16 picture
     encFreeData s 15 < 125 * rd s (R.VEN_CPB_KBIT 15) + 4096 ∧
     floorFrom (encWord s 15) picture.idr picture.dueSet 0 / 8 + 4096 ≤ encFreeData s 15) ∧
    (let s := coding 12 picture
     encFreeData s 15 < min (125 * rd s (R.VEN_CPB_KBIT 15)) (floorFrom (encWord s 15) picture.idr picture.dueSet 0 / 8) + 4096) ∧
    (let q := { picture with row := 2, coding := true }
     let s := coding 18 q
     (List.range 16).find? (fun k => decide (encPipe s k = 1) && (encAt s k).pic.any EncPic.coding) = some 15 ∧
     q.row + 1 ≠ encRows (encWord s 15) ∧ ({ q with row := 3 } : EncPic).row + 1 = encRows (encWord s 15)) ∧
    doorbellSound 0xFFFB0004 = true ∧ doorbellSound 4 = false ∧
    (let s := put [(R.VEN_REC_INDEX 15, 4)] s0
     (bits 0xFFFB0004 15 0 + 65536 - fld s (R.VEN_REC_INDEX 15) 31 16) % 65536 ≤
       (fld s (R.VEN_REC_INDEX 15) 15 0 + 65536 - fld s (R.VEN_REC_INDEX 15) 31 16) % 65536 ∧
     (fld s (R.VEN_REC_INDEX 15) 15 0 + 65536 - fld s (R.VEN_REC_INDEX 15) 31 16) % 65536 < 5) := by decide

/-! ## Cellar and the Granary -/

/-- Channel 7 in a state, with its DRAM side. -/
def dram7 (st : Nat) (x : DmcSt) : State :=
  { put [(R.DMC_CH_STATUS 7, st), (R.DMC_STATUS, 4), (R.GRN_STATUS, 1)] s0 with elapsed := 10 ^ 22, cell := { s0.cell with chans := [(7, x)] } }

theorem witness_CellarTrainsAndTracks :
    running (dram7 1 {}) = true ∧ chanState (dram7 1 {}) 7 = 1 ∧ fld (dram7 1 {}) R.DMC_CFG 12 10 < 8 ∧
    (dramAt (dram7 1 { attempts := 1 }) 7).attempts < 2 ∧ 2 ≤ (dramAt (dram7 1 { attempts := 2 }) 7).attempts ∧
    geometryOk (dram7 1 {}) = true ∧ geometryOk (put [(R.DMC_CFG, 0x1200)] (dram7 1 {})) = false ∧
    trackDue (dram7 2 { trackOwed := true }) 7 = true ∧ (∀ d < 7, trackDue (dram7 2 { trackOwed := true }) d = false) ∧ (0x100, 0) ∉ (dram7 2 {}).tck.once ∧
    1 ≤ (dramAt (dram7 2 { failRow := 1 }) 7).failRow ∧ flag (dram7 2 {}) R.GRN_STATUS 0 = true ∧
    (∀ d < Config.dmcChannels (dram7 1 {}).part, d ≠ 7 →
      chanState (put ((List.range 7).map (fun k => (R.DMC_CH_STATUS k, 2))) (dram7 1 {})) d = 2) := by decide

theorem witness_CellarRefreshesAndRests :
    chanState (dram7 2 {}) 7 = 2 ∧ (dramAt (dram7 2 {}) 7).refab = false ∧ (dramAt (dram7 2 { refab := true }) 7).refab = true ∧
    chanCatchup (dram7 2 {}) 7 = false ∧
    (let s := dram7 2 { debt := 10 ^ 18, debtAt := 10 ^ 22 }
     refOver s 7 (refDebt s 7) = true) ∧
    (let s := dram7 2 { debtAt := 10 ^ 22 }
     refOver s 7 (refDebt s 7) = false) ∧
    (let s : State := { s0 with cell := { s0.cell with ports := [(23, { throttledUntil := some 9 })] } }
     (portAt s 23).throttledUntil = some 9) ∧
    (let x : DmcSt := { rowCounts := [(rowKey 0 15 262143, 4095)] }
     let s := dram7 2 x
     0 < ranksOf s ∧ fld s R.DMC_RD 15 0 ≤ smGet (fun _ => 0) (dramAt s 7).rowCounts (rowKey 0 15 262143) + 61441 ∧
     smGet (fun _ => 0) (dramAt s 7).rowCounts (rowKey 0 15 262143) + 1 < 65535 ∧ ranksOf s ≤ 1) ∧
    1 < ranksOf (put [(R.DMC_CFG, 0x200)] (dram7 2 {})) ∧ 1 < fld (put [(R.DMC_RD, 256)] (dram7 2 {})) R.DMC_RD 15 0 ∧
    flag (dram7 2 {}) R.DMC_STATUS 2 = true ∧ chanState (dram7 3 {}) 7 = 3 := by decide

/-! ## Check values, snapshots, compression, keys -/

/-- Cellar answers. -/
def stored : State := { put [(R.DMC_STATUS, 1), (R.DMC_CAPACITY, 1)] s0 with linkUp := true }
/-- CHK_JOB over `len` bytes of Cellar on context 63 (R371), at a phase with `n` bytes done. -/
def checkJob (flags len : Nat) : Cmd := cmd 0x30 [(2, 63), (3, 8 + flags), (6, len)]
def turning (len n : Nat) : Cmd := { checkJob 1 len with phase := .waiting, aux := [n, 0, 0] }
/-- That job's turn on engine 3 is next. -/
def onEngine (c : Cmd) (s : State) : State := { fly c s with chkTurns := [(3, [5])] }
/-- The read of a turn. -/
def turnRead (c : Cmd) (s : State) : MemRead :=
  (dmaRead 25 21 (if bit (c.w 3) 3 then spCellar else spHost) (c.w 4 + 2 ^ 32 * c.w 5 + c.aux.headD 0)
    (min 4096 (c.w 6 - c.aux.headD 0)) (noteLink [] (onEngine c s))).2
/-- A SNAPSHOT of head 23 that holds buffer 0, with `n` bytes done, and the head with a frame of `w` by one pixels there. -/
def shot (n : Nat) : Cmd := { cmd 0x32 [(2, 23)] with phase := .waiting, aux := [0, n] }
def shown (w : Nat) : State := { stored with heads := [(23, { wbs := [(0, { held := 1, width := w, height := 1 })] })] }

theorem witness_CheckJobsRun :
    ready (checkJob 1 4) 0x30 (fly (checkJob 1 4) stored) = true ∧ chkBusy (fly (checkJob 1 4) stored) 63 = false ∧
    (let w : Cmd := { checkJob 1 4 with tag := 4, phase := .waiting }
     let s : State := { stored with rng := { stored.rng with cmds := [w, checkJob 1 4] } }
     chkBusy s 63 = true ∧ findCmd s 5 = some (checkJob 1 4)) ∧
    (let c := turning 4100 4096
     let s := onEngine c stored
     waits c 0x30 s = true ∧ firstWaiting s.rng.cmds c = true ∧ turnsOf s 3 = 5 :: [] ∧ c.aux.headD 0 ≤ c.w 6 ∧
     min 4096 (c.w 6 - c.aux.headD 0) = 4 ∧ c.aux.headD 0 + 4 = c.w 6 ∧ turnRead c stored = { data := [0, 0, 0, 0], bad := none } ∧
     (turnRead c s0).bad.isSome = true ∧ chkInFlight s 63 = true) ∧
    (turning 4100 0).aux.headD 0 + 4096 < (turning 4100 0).w 6 ∧ chkInFlight s0 63 = false := by decide

theorem witness_SnapshotsAreChecked :
    (let s := onEngine (shot 0) (shown 1)
     waits (shot 0) 0x32 s = true ∧ firstWaiting s.rng.cmds (shot 0) = true ∧ (shot 0).aux = 0 :: 0 :: [] ∧ turnsOf s (23 % 4) = 5 :: [] ∧
     4 * (wbAt s 23 0).width * (wbAt s 23 0).height ≤ 0 + 4096 ∧ 0 + 4096 < 4 * (wbAt (shown 1025) 23 0).width * (wbAt (shown 1025) 23 0).height ∧
     (dmaRead 25 21 spCellar (wbAddr s 23 0) 4096 (noteLink [] s)).2.bad = none ∧
     (snapRows (wbAddr s 23 0 + 0x1000) (wbPitch (wbAt s 23 0).width) 1 1 s []).2 = { data := [0, 0, 0, 0], bad := none } ∧
     historyEntry s 23 0 = some 0 ∧ rd s (R.WIN_LT_HIST_CRC 23 0) ≠ crc32c [0, 0, 0, 0] ∧
     rd (put [(R.WIN_LT_HIST_CRC 23 0, crc32c [0, 0, 0, 0])] s) (R.WIN_LT_HIST_CRC 23 0) = crc32c [0, 0, 0, 0] ∧
     ready (cmd 0x32 [(2, 23)]) 0x32 (fly (cmd 0x32 [(2, 23)]) s) = true) := by decide

/-- CPX_JOB with an OP on context 3 over four bytes of Cellar, whose destination has room for `n`. -/
def squeeze (op n : Nat) (p : CmdPhase) : Cmd := { cmd 0x31 [(2, 3), (3, 0x10000 + op), (6, 4), (7, 4096), (9, n)] with phase := p }
/-- Context 3 in a role with an empty dictionary. -/
def role (r : Nat) : State := put [(R.CPX_STATE 3, r * 2 ^ 30 + 258), (R.CPX_RESET_AFTER 3, 0)] stored

theorem witness_CompressionJobsRun :
    ready (squeeze 0 9 .started) 0x31 (fly (squeeze 0 9 .started) (role 1)) = true ∧
    cpxBusy (fly (squeeze 0 9 .started) (role 1)) = false ∧ cpxFirst (fly (squeeze 0 9 .started) (role 1)) (squeeze 0 9 .started) = true ∧
    cpxBusy { role 1 with rng := { s0.rng with cmds := [{ squeeze 0 9 .waiting with tag := 4 }, squeeze 0 9 .started] } } = true ∧
    4 ≤ bits ((squeeze 4 9 .waiting).w 3) 2 0 ∧ bits ((squeeze 0 9 .waiting).w 3) 2 0 = 0 ∧ cpxRole (role 0) 3 ≠ 1 ∧
    bits ((squeeze 1 9 .waiting).w 3) 2 0 = 1 ∧ cpxRole (role 1) 3 ≠ 2 ∧ bits ((squeeze 2 9 .waiting).w 3) 2 0 = 2 ∧
    cpxRole (role 0) 3 = 0 ∧ bits ((squeeze 3 9 .waiting).w 3) 2 0 = 3 ∧ (squeeze 3 9 .waiting).w 6 < 266240 ∧
    (let c := squeeze 0 9 .waiting
     let s := fly c (role 1)
     waits c 0x31 s = true ∧ cpxRole s 3 = 1 ∧ cpxBad s 3 = false ∧ bit (c.w 3) 8 = false ∧ rd s (R.CPX_RESET_AFTER 3) = 0 ∧
     firstWaiting s.rng.cmds c = true ∧ (cpxRead c (c.w 6) (noteLink [] s)).2 = { data := [0, 0, 0, 0], bad := none } ∧
     (cpxRead c (c.w 6) (noteLink [(0, .uncorrected)] s)).2.bad = some 0 ∧
     (let done := Coder.encode 5 [0, 0, 0, 0] (cpxLoad s 3)
      done.bytes.length ≤ c.w 9 ∧ (squeeze 0 0 .waiting).w 9 < done.bytes.length ∧
      (cpxWrite c done.bytes (cpxRead c (c.w 6) (noteLink [] s)).1).2 = none)) ∧
    cpxInFlight s0 = false ∧ cpxInFlight (fly (squeeze 0 9 .waiting) s0) = true := by decide

/-- A scan, and key 63 with settings (T 8, H 2, ON 1, OFF 1), a count and a baseline, while Demal runs. -/
def scan1 : TouchScan := { time := 0, at_ := 0, hop := false, freq := 0, cover := none }
def key63 (x : KeySt) (raw : Nat) : State :=
  { put [(R.SYS_DEMAL, 2), (R.TCH_K_RAW 63, raw), (R.TCH_K_BASE 63, 100)] s0 with
    tch := { s0.tch with done := some scan1, taken := [5], keys := [(63, x)] } }
def cfg63 : KeyCfg := { en := true, hyst := 2 }

theorem witness_TouchScansMoveKeys :
    (let s : State := { s0 with tch := { s0.tch with scan := some scan1 } }
     running s = true ∧ s.tch.scan = some scan1 ∧ 0 < inc s) ∧
    demalState (key63 {} 0) = 2 ∧ (key63 {} 0).tch.done = some scan1 ∧ findCmd (fly (cmd 0x40 []) (key63 {} 0)) 5 = some (cmd 0x40 []) ∧
    5 ∈ (key63 {} 0).tch.taken ∧ (key63 {} 0).tch.panel.noiseAuto = false ∧ (key63 {} 0).tch.waiting = [] ∧
    (let x : KeySt := { cfg := cfg63, phase := 2 }
     let s := key63 x 108
     keyAt s 63 = x ∧ x.fresh = false ∧ x.cfg.en = true ∧ keyLevels { s.tch.panel with noise := false } x.cfg = (8, 2) ∧
     flag s (R.TCH_SLICE_STATUS (keySlice scan1 63)) 31 = false ∧ (8 : Int) ≤ keyDelta s 63 ∧ x.cfg.on ≤ x.onRun + 1 ∧
     keyDelta (key63 x 107) 63 < 8) ∧
    flag (put [(R.TCH_SLICE_STATUS 7, 2 ^ 31)] s0) (R.TCH_SLICE_STATUS (keySlice scan1 63)) 31 = true ∧
    (let x : KeySt := { cfg := { cfg63 with on := 2 }, phase := 2 }
     x.onRun + 1 < x.cfg.on) ∧
    keyDelta (key63 { cfg := cfg63, phase := 3 } 105) 63 < 8 - 2 ∧ (8 - 2 : Int) ≤ keyDelta (key63 { cfg := cfg63, phase := 3 } 106) 63 ∧
    scan1.at_ - 0 < cfg63.maxOn * secUnit := by decide

/-- KEY_CONFIG of key 63 with a threshold, and of the panel with a scan period in ms (R408). -/
def keySet (th : Nat) : Cmd := cmd 0x40 [(2, 63), (3, 0x80000000 + th), (4, 0x00080002), (5, 0x00080000), (6, 0x00020001), (7, 0x0101)]
def panelSet (ms : Nat) : Cmd := cmd 0x40 [(2, 0x10000), (3, ms), (4, 2), (5, 100), (6, 1)]

theorem witness_KeyConfigTakesEffect :
    ready (keySet 8) 0x40 (fly (keySet 8) s0) = true ∧ demalState s0 ≠ 2 ∧ demalState (put [(R.SYS_DEMAL, 2)] s0) = 2 ∧
    keyRange (keySet 8) = none ∧ keyRange (keySet 7) = some 3 ∧ keyRange (panelSet 2) = none ∧ keyRange (panelSet 1) = some 3 ∧
    bits ((keySet 8).w 2) 17 16 = 0 ∧ bits ((panelSet 2).w 2) 17 16 ≠ 0 ∧ s0.tch.scan = none ∧ s0.tch.done = none ∧
    (key63 {} 0).tch.done.isSome = true := by decide

/-! ## Guards and the debug port -/

theorem witness_GuardRegistersLockAndSync :
    flag s0 (R.GRD_CTRL 27) 3 = false ∧ flag (put [(R.GRD_CTRL 27, 15)] s0) (R.GRD_CTRL 27) 3 = true ∧
    flag s0 (R.GRD_R_CFG 27 15) 3 = false ∧ flag (put [(R.GRD_R_CFG 27 15, 8)] s0) (R.GRD_R_CFG 27 15) 3 = true ∧
    (let s : State := { put [(R.GRD_STATUS 27, 0x10000)] s0 with flights := [{ guard := 27, gen := 9, until_ := usUpdates 16 }] }
     ∀ f ∈ s.flights, f.until_ ≤ s.updates + usUpdates 16) ∧
    (let s : State := { s0 with flights := [{ guard := 27, gen := 9, until_ := usUpdates 16 + 1 }] }
     ∃ f ∈ s.flights, f.guard = 27 ∧ f.gen ≠ guardGen s 27 ∧ s.updates + usUpdates 16 < f.until_) := by decide

/-- A request of a guard's master. -/
def req (g : Fin 28) (sp : Fin 4) (a : Nat) (op : BusOp) : BusReq := { guard := g, space := sp, addr := a, op := op }
/-- The parts the guard makes of it. -/
def partsOf (q : BusReq) (s : State) : List GPart :=
  guardParts s q.guard.val q.space.val q.addr (opLen q.op) (opAcc q.guard.val q.op)
/-- One permitted part that is the whole access. -/
def onePart (q : BusReq) (s : State) : Bool :=
  match partsOf q s with
  | [p] => p.ok && decide (p.addr = q.addr ∧ p.len = opLen q.op)
  | _ => false

theorem witness_BusAndDebugAccessesAreChecked :
    (let q := req 5 3 16 (.read 4096)
     let s := put [(R.GRD_CTRL 5, 0)] stored
     powered s = true ∧ busReaches s q = true ∧ opWrites q.op = false ∧ ∀ p ∈ partsOf q s, p.ok = false) ∧
    (let q := req 5 0 16 (.write [1, 2])
     busReaches stored q = true ∧ onePart q stored = true ∧ q.space.val = spCellar ∧ memAnswers stored 0 16 2 = true) ∧
    (let q := req 5 3 16 (.read 4096)
     onePart q stored = true ∧ q.space.val = spHost ∧ memAnswers stored 3 16 4096 = true) ∧
    (let q := req 4 2 0x10 (.write [1, 2, 3, 4])
     busReaches stored q = true ∧ onePart q stored = true ∧ q.space.val = spRegs) ∧
    debugOpen { stored with lcs := { stored.lcs with state := 3 } } = false ∧ debugOpen stored = true ∧
    (let q := req 27 3 16 (.read 1)
     0 < opLen q.op ∧ onePart q stored = true) := by decide

/-! ## One step -/

/-- The state a command leaves. -/
def out (c : Instr) (s : State) : State := match exec c s with | .next t => t | _ => s

theorem witness_StepRunsFrontCommand :
    (step { s0 with pending := [.nop 0, .barrier 1] } matches .next _) = true ∧
    (match step { s0 with pending := [.nop 0, .barrier 1] } with | .next t => decide (t.pending = [.barrier 1]) | _ => false) = true := by
  decide

/-- No row of the table has bits: no word spells a command. -/
theorem test_no_word_spells_a_command : decodeTableWord 32 0 = none ∧ decodeTableWord 0 0 = none := by decide

/-! ## Terms that WellFormed refuses, check by check -/

theorem test_ill_formed_registers :
    wellFormed (.registerWrite 2 0) = false ∧ wellFormed (.registerWrite 0x1000000 0) = false ∧ wellFormed (.stDirectWrite 1 0) = false ∧
    wellFormed (.huskVWrite 4 0) = false ∧ wellFormed (.huskKWrite 0x1000000 0) = false ∧ wellFormed (.huskPendingTimeout 4) = false ∧
    wellFormed (.guardRegWrite 3 0) = false ∧ wellFormed (.registerWrite 0x60058 0) = true := by decide

theorem test_ill_formed_board :
    wellFormed (.pcieLinkUp 3 1) = false ∧ wellFormed (.pcieLinkUp 4 4) = true ∧ wellFormed (.thermalSample []) = false ∧
    wellFormed (.captureEdge 0 true 13743895348) = false ∧ wellFormed (.captureEdge 0 true 13743895347) = true ∧
    wellFormed (.netTxSent 0 ⟨-13743895348, []⟩) = false ∧ wellFormed (.ethFrameReceive 0 [] { err := 13743895348 }) = false ∧
    wellFormed (.unitDrainComplete 1 24) = false ∧ wellFormed (.unitDrainComplete 3 99) = true ∧ wellFormed (.blockReceive 0 {}) = false ∧
    wellFormed (.dmcTrainDone 0 0 5 false) = false ∧ wellFormed (.touchScanEnd {}) = false ∧ wellFormed (.debugAuth []) = false ∧
    wellFormed (.porstNRelease [] true) = false := by decide

theorem test_ill_formed_accesses :
    wellFormed (.busAccess (req 27 0 0 (.read 1))) = false ∧ wellFormed (.debugAccess (req 4 0 0 (.read 1))) = false ∧
    wellFormed (.busAccess (req 4 1 0 (.read 0))) = false ∧ wellFormed (.busAccess (req 4 1 (2 ^ 64 - 1) (.write [1, 2]))) = false ∧
    wellFormed (.sqDoorbell 0 0 false [(2 ^ 64, 0)]) = false ∧ wellFormed (.descriptorFetch 0 [(2 ^ 64, 0)] .clean) = false ∧
    wellFormed (.layerTouch 0 0 [(2 ^ 64, 0)]) = false ∧ wellFormed (.scanLine 0 { mix := [(0, 2 ^ 64, 0)] }) = false ∧
    wellFormed (.scanLine 0 { mix := [(1, 0, 0)] }) = false ∧
    wellFormed (.fetchBurst 0 0 { hm := [(2 ^ 64, 0)] }) = false ∧
    wellFormed (.decodePictureStart { ch := 0, left := 1 }) = false ∧ wellFormed (.decodePictureStart { ch := 0 }) = true := by decide

/-! ## Worked examples of the manual -/

/-- 01_device_map.md, 02_wall_tick.md, 09_decode.md, 10_composition.md, 15_console_keys.md: offsets of instances. -/
theorem test_instance_offsets :
    R.SRC_JITTER 17 = 0x181140 ∧ R.VDC_S_LAST_ERROR 17 = 0x2018E4 ∧ R.SRC_STATE 17 = 0x181104 ∧ R.HEAD_L_SRC 7 1 = 0x31E100 ∧ R.HEAD_H 6 = 0x318010 ∧
    R.HEAD_V 18 = 0x348014 ∧ R.EVT_CODE 0x26 = 0x90098 ∧ R.VEN_REC_CONS 1 = 0x241134 ∧ R.DMC_RETAIN = 0x408020 := by decide

/-- 02_wall_tick.md, example of R50: the pool table of the KRV-3296 at 60 Hz and GUARD_PM 50. -/
theorem test_pool_table :
    (let t := poolStep (ticking s0)
     (List.range 4).map (fun p => (rd t (R.TCK_POOL_CAP p), rd t (R.TCK_POOL_LIMIT p)))) =
      [(53333332, 50666665), (106666664, 101333330), (13333333, 12666666), (13333333, 12666666)] := by decide

/-- R22: T_N of tick 7 with PHASE 5 ns at 60 Hz: 5 ns + 7 · 50,000,000/3 ns. -/
theorem test_tick_instant :
    tickInstant (put [(R.TCK_PHASE_NS, 5)] (ticking s0)) 7 = 5 * nsUnit + 7 * 50000000 * 2 ^ 32 / 3 := by decide

/-- 04_network_time.md, example of R112: θ = +200 ns at I = FREQ = 5,120 and the default gains. -/
theorem test_servo_example :
    (let θ := 200 * 65536
     let t := out (.servoSample 0x80000000) (put [(R.TIM_CTRL, 1), (R.TIM_STATUS, 1), (R.TIM_INTEGRAL, 5120), (R.TIM_FREQ, 5120),
       (R.TIM_SRV_OFS_LO, θ)] s0)
     (sint 32 (rd t R.TIM_INTEGRAL), freqOf t, inc t, timeState t)) = (-10280, -46080, 6871946437, 1) := by decide

/-- 04_network_time.md, example of R116 to R119: the operator confirms a refused sample of −2,300,004 ns. -/
theorem test_step_accept_example :
    (let s := put [(R.TIM_STATUS, 0xA), (R.TIM_PEND_ID, 81), (R.TIM_PEND_OFS_LO, (2 ^ 64 - 2300004 * 65536) % 2 ^ 32),
       (R.TIM_PEND_OFS_HI, 2 ^ 32 - 36)] (held R.TIM_STEP_ACCEPT 0x51 s0)
     let t := out (.stepAccept 0xFFFFFFAE) s
     (decide (pendingOfs s = -2300004 * 65536), t.clock / nsUnit, flag t R.TIM_STATUS 3)) = (true, 2300004, false) := by decide

/-- 06_rings.md, example of R153: 0xFFED_0012 rings SQ 5 from index 0x000E. -/
theorem test_doorbell_example :
    (let s := put [(R.RNG_SQ_CFG 5, 0x06000001), (R.RNG_SQ_STATUS 5, 2), (R.RNG_SQ_INDEX 5, 0x000E000E)] s0
     rd (out (.sqDoorbell 5 0xFFED0012 false []) s) (R.RNG_SQ_INDEX 5)) = 0x0012000E := by decide

/-- 06_rings.md, example of R170: an EV_LAYER_CLASS record. -/
theorem test_event_record_example :
    eventWords { s0 with tck := { s0.tck with everSealed := true, lastN := 5000004 } } 1 41 { code := 0x24, unit := 0x64, sub := 0xA, a0 := 1 } =
      [0x8A006424, 0x004C4B44, 0, 0x29, 1, 0, 0, 0] := by decide

/-- 07_lanes_and_ngz.md, example of QUAD_q_STATUS: PLL B locks at 25.0 GHz beside PLL A at 25.78125 GHz. -/
theorem test_quad_example :
    (let s := out (.laneEnable 1 0x21) (put [(R.LANE_CTRL 0, 7), (R.LANE_STATUS 0, 1), (R.QUAD_STATUS 0, 0x10301)] s0)
     rd (out (.quadPllLock 0 true) s) (R.QUAD_STATUS 0)) = 0x00011303 := by decide

/-- 09_decode.md, example of R246: costs of a crane-room camera, and its slot (R257). -/
theorem test_decode_costs :
    entCost (ticking s0) 1 30000 8000 = 108889 ∧ pixCost (ticking s0) 1920 1080 8 30000 = 1054480 ∧
    decodePitch 1920 8 = 2048 ∧ decodeStride 1920 1080 8 = 3870720 := by decide

/-- 08_ingest.md, example of R226: what stays of the reorder window at 10.60 ms. -/
theorem test_jitter_example :
    (let s : State := { s0 with flows := [(17, { keyA := some [1], keyB := some [2], chan := some 17, next := some 5003, held := [
        { seq := 5004, rx := 0, at_ := 600000 * nsUnit, rtp := 0, marker := false, desc := 0, payload := [0x65] }] })] }
     let t := out (.jitterDeadline 17) s
     ((flowAt t 17).next, (flowAt t 17).held.length, (chanAt t 17).released.length)) = (some 5005, 0, 2) := by decide

/-- 11_heads.md, example of R299: a wall head runs at 594 MHz. -/
theorem test_pixel_clock_example :
    (let s : State := { ticking s0 with latched := [(R.HEAD_H 18, 0x11300F00), (R.HEAD_V 18, 0x08CA0870)] }
     (regRead (R.HEAD_PIXCLK 18) s).2) = 594000000 := by decide

/-- 12_encode.md, example of R323, and its record consumer write. -/
theorem test_encode_examples :
    encCost (encode 0x08701000 18).w = 12126000 ∧
    fld (out (.encRecConsWrite 1 0xFEDF0120) (put [(R.VEN_REC_INDEX 1, 0x0200)] s0)) (R.VEN_REC_INDEX 1) 31 16 = 0x0120 := by decide +kernel

/-- 05_sheaves.md, example of LINEBUF_SHORT: 1920 × 1080 scaled into 960 × 270 needs nine units. -/
theorem test_line_need_example : lineNeed 1920 1080 270 = 9 := by decide

/-- 14_checks_and_compression.md, table of R371: the check values over "123456789". -/
theorem test_check_values :
    (let bs : List Byte := [0x31, 0x32, 0x33, 0x34, 0x35, 0x36, 0x37, 0x38, 0x39]
     (List.range 4).map (fun a => chkRun (chkAlg a) (chkAlg a).init bs ^^^ (chkAlg a).xorout)) =
      [0xE3069283, 0xCBF43926, 0x29B1, 0x6C40DF5F0B497347] := by decide

/-- 14_checks_and_compression.md, example of R383: the codes of "ABABABA", and of "ABA" after it. -/
theorem test_compress_example :
    (let a := Coder.encode 8 [0x41, 0x42, 0x41, 0x42, 0x41, 0x42, 0x41] {}
     (a.bytes, a.e)) = ([0x41, 0x84, 0x08, 0x24, 0x18, 0x10], 261) := by decide

/-- 07_lanes_and_ngz.md, R186: a header carries its CRC, and another first byte is invalid (R192). -/
theorem test_header_valid : (headerValid (blockHeader 0 3 7), headerValid (blockHeader 7 0 7)) = (true, false) := by decide +kernel

/-- 15_console_keys.md, example: on the scan of 3,010 ms KEY[4] turns TOUCHED, with the time of the scan before. -/
theorem test_key_example :
    (let cfg : KeyCfg := { en := true, touchTh := 120, gloveTh := 120, hyst := 30, antiTh := 80, winHi := 2150, winLo := 1850, on := 2, off := 2 }
     let s : State := { put [(R.SYS_DEMAL, 2), (R.TCH_K_RAW 4, 2171), (R.TCH_K_BASE 4, 2003), (R.TCH_K_STATE 4, 2)] s0 with
       tch := { s0.tch with done := some { scan1 with time := 3010, at_ := 3010 },
                            keys := [(4, { cfg := cfg, phase := 2, onRun := 1, onAt := 3000 })] } }
     fld (out .keyScanProcess s) (R.TCH_K_STATE 4) 2 0) = 3 := by decide

/-- 18_pins_and_board.md, R475, R476 and R99: after reset HEADOK is low, INT_N high, TICK_OUT and CH_RESET_n low; with PORST_n low
every output is high-impedance; an interrupt pin that is asserted is low (R174). -/
theorem test_pins :
    (pinLevel s0 (.headok 3), pinLevel s0 (.intN 1), pinLevel s0 .tickOut, pinLevel s0 (.chReset 7)) = (.low, .high, .low, .low) ∧
    pinLevel { s0 with porst := true } (.intN 1) = .highZ ∧
    pinLevel (put [(R.EVT_PIN_STATUS 1, 2 ^ 16)] s0) (.intN 1) = .low ∧
    (pinLevel (put [(R.WIN_LT_STATUS 3, 1)] s0) (.headok 3), pinLevel { s0 with part := .krv3224 } (.chReset 7)) = (.high, .highZ) := by
  decide

/-- 18_pins_and_board.md, example of R467: L17_TXN is B29 and L17_RXP F28, the reference of QUAD[2] is D31 and D32, CH5B_CK_t is
AE47 and CH3_RESET_n AV13. -/
theorem test_balls :
    (ballName 2 29, ballAt 2 29) = ("B29", .laneTx 17 true) ∧ (ballName 6 28, ballAt 6 28) = ("F28", .laneRx 17 false) ∧
    (ballAt 4 31, ballAt 4 32) = (.quadRefclk 2 false, .quadRefclk 2 true) ∧
    (ballName 24 47, ballAt 24 47) = ("AE47", .dram 5 true (.ck false)) ∧
    (ballName 36 13, ballAt 36 13) = ("AV13", .chResetN 3) := by decide +kernel

end Sys2Proof.Tests
end

section
/-!
PROOFS. The software's stores into host memory before a command change host memory alone (R473).
-/

namespace Sys2Proof.Machine

theorem hostStore_rest (m : Cells) (s : State) :
    hostStore m s = { s with host := (hostStore m s).host, overwritten := (hostStore m s).overwritten } := by
  induction m generalizing s with
  | nil => rfl
  | cons c m ih =>
    obtain ⟨x, b⟩ := c
    rw [hostStore, ih]
    rfl

variable (m : Cells) (s : State)

@[simp] theorem hostStore_regs : (hostStore m s).regs = s.regs := by rw [hostStore_rest]
@[simp] theorem hostStore_rng : (hostStore m s).rng = s.rng := by rw [hostStore_rest]
@[simp] theorem hostStore_cell : (hostStore m s).cell = s.cell := by rw [hostStore_rest]
@[simp] theorem hostStore_clock : (hostStore m s).clock = s.clock := by rw [hostStore_rest]
@[simp] theorem hostStore_part : (hostStore m s).part = s.part := by rw [hostStore_rest]

end Sys2Proof.Machine
end

section
/-!
PROOFS. What the ring engine's own read of a descriptor keeps: the submission rings and the commands in flight. A corrected
or uncorrectable burst of Cellar counts in its channel (R366), so that `EventsOnly` says too much of such a read.
-/

namespace Sys2Proof.Machine

/-- The registers of the ring unit below the event rings, the commands in flight, the local clock and the part are the
same in two states. -/
structure SqKept (a b : State) : Prop where
  regs : ∀ off, 0x80000 ≤ off → off < 0x82800 → rd b off = rd a off
  cmds : b.rng.cmds = a.rng.cmds
  clock : b.clock = a.clock
  part : b.part = a.part

theorem SqKept.trans {a b c : State} (h : SqKept a b) (j : SqKept b c) : SqKept a c :=
  ⟨fun off lo hi => (j.regs off lo hi).trans (h.regs off lo hi), j.cmds.trans h.cmds, j.clock.trans h.clock,
    j.part.trans h.part⟩

theorem eventReg_sq {off : Nat} (lo : 0x80000 ≤ off) (hi : off < 0x82800) : eventReg off = false := by
  rw [← Bool.not_eq_true, eventReg_iff]
  omega

/-- Events reach no register of a submission ring (R170 to R175). -/
theorem EventsOnly.sqKept {a b : State} (h : EventsOnly a b) : SqKept a b := by
  refine ⟨fun off lo hi => h.regs off (eventReg_sq lo hi), ?_, ?_, ?_⟩ <;> rw [h.rest]

theorem hostStore_sqKept (m : Cells) (s : State) : SqKept s (hostStore m s) :=
  ⟨fun off _ _ => by simp [rd], by simp, by simp, by simp⟩

variable {a s : State}

theorem SqKept.wr {off : Nat} (v : Nat) (ho : 0x82800 ≤ off) (h : SqKept a s) : SqKept a (wr s off v) :=
  h.trans ⟨fun o _ hi => rd_wr_other s v (by omega), rfl, rfl, rfl⟩

theorem SqKept.noteLink (es : LinkErrs) (h : SqKept a s) : SqKept a (noteLink es s) :=
  ⟨h.regs, h.cmds, h.clock, h.part⟩

theorem SqKept.foldl {β : Type} {f : State → β → State} (l : List β) (h : SqKept a s)
    (hf : ∀ t x, SqKept a t → SqKept a (f t x)) : SqKept a (l.foldl f s) := by
  induction l generalizing s with
  | nil => exact h
  | cons x l ih => exact ih (hf s x h)

theorem cellarEcc_sqKept (x : Nat) (e : Ecc) (h : SqKept a s) : SqKept a (cellarEcc x e s) := by
  cases e with
  | clean => exact h
  | corrected =>
    have hc : 0x82800 ≤ R.DMC_CH_ECC_CORRECTED (chanOf s x) := by rw [R.DMC_CH_ECC_CORRECTED]; omega
    exact (h.wr _ hc).trans (raiseOnce_events _ _ (by decide : (0x9C : Nat) < 256) _).sqKept
  | uncorrected =>
    have hc : 0x82800 ≤ R.DMC_CH_ECC_UNCORRECTED (chanOf s x) := by rw [R.DMC_CH_ECC_UNCORRECTED]; omega
    exact (h.wr _ hc).trans (raise_events _ (by decide : (0x9D : Nat) < 256) _).sqKept

theorem linkRead_sqKept (x n : Nat) (h : SqKept a s) : SqKept a (linkRead x n s).1 :=
  (h.noteLink _).foldl _ (fun _ _ ht => cellarEcc_sqKept _ _ ht)

theorem readParts_sqKept (sp : Nat) (ps : List GPart) (h : SqKept a s) : SqKept a (readParts sp ps s).1 := by
  induction ps generalizing s with
  | nil => exact h
  | cons p ps ih =>
    unfold readParts
    dsimp only
    split
    · exact ih h
    · split
      · split
        · exact ih (linkRead_sqKept _ _ h)
        · exact ih (linkRead_sqKept _ _ h)
      · exact ih h

/-- A read of the ring engine, through guard 5 (R413). -/
theorem dmaRead_sqKept (port sp x n : Nat) (h : SqKept a s) : SqKept a (dmaRead 5 port sp x n s).1 := by
  have denied : EventsOnly s (guardDenials raise 5 sp false (guardParts s 5 sp x n .read) s) :=
    guardDenials_events _ _ _ (fun ev _ hc ht => ht.trans (raise_events ev hc _)) (EventsOnly.refl s)
  exact readParts_sqKept _ _ (h.trans (portEnter_events _ _ _ _ denied).sqKept)

end Sys2Proof.Machine
end

section
/-!
PROOFS. The pieces of a descriptor fetch: the SQ that is served (R157), the ring cache, the command that a fetched
descriptor becomes (R157, R159, R3) and the failed fetch (R168).
-/

namespace Sys2Proof.Machine

/-! ## The ring that is served -/

theorem sqNext_lt {s : State} {r : Nat} (h : sqNext s = some r) : r < 64 := by
  obtain ⟨p, -, hp⟩ := List.exists_of_findSome?_eq_some h
  obtain ⟨k, -, rfl⟩ := List.mem_map.1 (List.mem_of_find?_eq_some hp)
  exact Nat.mod_lt _ (by decide)

theorem ringBase_sq {r : Nat} (hr : r < 64) : ringBase r = 0x81000 + r * 0x40 := if_pos hr

/-- A register of the block of a submission ring lies below the event rings. -/
theorem SqKept.rd_sq {a b : State} (h : SqKept a b) {r k : Nat} (hr : r < 64) (hk : k < 0x40) :
    rd b (ringBase r + k) = rd a (ringBase r + k) := by
  refine h.regs _ ?_ ?_ <;> rw [ringBase_sq hr] <;> omega

theorem SqKept.fld_index {a b : State} (h : SqKept a b) {r : Nat} (hr : r < 64) (hi lo : Nat) :
    fld b (ringIndex r) hi lo = fld a (ringIndex r) hi lo := by
  rw [fld, fld, ringIndex, h.rd_sq hr (by decide)]

theorem SqKept.ringSpace {a b : State} (h : SqKept a b) {r : Nat} (hr : r < 64) : ringSpace b r = ringSpace a r := by
  rw [Machine.ringSpace, Machine.ringSpace, flag, flag, ringCfg, h.rd_sq hr (by decide)]

theorem SqKept.ringAddr {a b : State} (h : SqKept a b) {r : Nat} (hr : r < 64) (i n : Nat) :
    ringAddr b r i n = ringAddr a r i n := by
  have h0 := h.rd_sq hr (by decide : 0 < 0x40)
  rw [Nat.add_zero] at h0
  simp only [Machine.ringAddr, rd64, ringSize, fld, ringCfg, h0, h.rd_sq hr (by decide : 4 < 0x40),
    h.rd_sq hr (by decide : 8 < 0x40)]

/-! ## The ring cache -/

/-- A ring cache whose words are all sound is used without an effect. -/
theorem ringCacheMet_sound (again : Ev → State → State) (u : Nat) {s : State}
    (h : granaryBad s (ringCache u) 0x1000 = false) : ringCacheMet again u s = s := by
  rw [granaryBad, List.any_eq_false] at h
  have none_bad : granaryBadWords s (ringCache u) 0x1000 = [] := List.filter_eq_nil_iff.2 h
  have all_kept : s.cell.badWords.filter (fun w => decide (w + 8 ≤ ringCache u ∨ ringCache u + 0x1000 ≤ w)) =
      s.cell.badWords := by
    refine List.filter_eq_self.2 (fun w hw => decide_eq_true ?_)
    have := h w hw
    rw [decide_eq_true_iff] at this
    omega
  rw [ringCacheMet, none_bad, List.foldl_nil, granaryHeal, all_kept]

/-! ## The command that a descriptor becomes -/

/-- The command as it is fetched, before its descriptor is judged (R156). -/
def fetchedCmd (tag r : Nat) (bs : List Byte) (s : State) : Cmd :=
  { tag := tag, sq := r, index := fld s (ringIndex r) 15 0,
    words := (bytesToWords 16 bs).map (BitVec.ofNat 32), fetched := s.clock }

/-- The phase that the judgement of a descriptor gives its command (R159, R3). That malformed comes before absent is the
model's reading, log entry 14. -/
def judgedPhase (p : Part) (c : Cmd) : CmdPhase :=
  match badDescriptor c with
  | some i => .due stBadDescriptor i 0 0 none
  | none =>
    match absentUnit p c with
    | some u => .due stAbsentUnit u 0 0 none
    | none => .started

/-- The counts of a fetch: the fetch index, the tags issued and the commands in flight (R157, R58). -/
def fetchCounted (r : Nat) (s : State) : State :=
  addFld (addFld (addReg (addFld s (ringIndex r) 15 0 1) (R.RNG_SQ_ISSUED r) 1) (R.RNG_SQ_INFLIGHT r) 12 0 1)
    R.RNG_STATUS 12 0 1

theorem fetchCounted_part (r : Nat) (s : State) : (fetchCounted r s).part = s.part := by simp [fetchCounted]
theorem fetchCounted_rng (r : Nat) (s : State) : (fetchCounted r s).rng = s.rng := by simp [fetchCounted]

/-- The fetched command in flight, not yet judged, and its ring the last one served at its priority (R157). -/
def fetchQueued (tag r : Nat) (bs : List Byte) (s : State) : State :=
  let t := fetchCounted r s
  { t with rng := { t.rng with cmds := t.rng.cmds ++ [fetchedCmd tag r bs s],
                               lastServed := smSet (fun _ => 63) t.rng.lastServed (sqPrio t r) r } }

theorem judgedPhase_bad {p : Part} {c : Cmd} {i : Nat} (h : badDescriptor c = some i) :
    judgedPhase p c = .due stBadDescriptor i 0 0 none := by rw [judgedPhase, h]

theorem judgedPhase_absent {p : Part} {c : Cmd} {u : Nat} (h : badDescriptor c = none) (hu : absentUnit p c = some u) :
    judgedPhase p c = .due stAbsentUnit u 0 0 none := by rw [judgedPhase, h]; dsimp only; rw [hu]

theorem judgedPhase_sound {p : Part} {c : Cmd} (h : badDescriptor c = none) (hu : absentUnit p c = none) :
    judgedPhase p c = .started := by rw [judgedPhase, h]; dsimp only; rw [hu]

/-- A tag that is free belongs to no command. -/
theorem findCmd_eq_none_iff {s : State} {tag : Nat} : findCmd s tag = none ↔ ∀ d ∈ s.rng.cmds, d.tag ≠ tag := by
  simp [findCmd, List.find?_eq_none]

/-- Finishing the newest command leaves those before it alone. -/
theorem finish_cmds_last {s : State} {l : List Cmd} {c : Cmd} (hs : s.rng.cmds = l ++ [c]) (hl : ∀ d ∈ l, d.tag ≠ c.tag)
    (st r0 r1 r2 : Nat) :
    (finish c.tag st r0 r1 r2 s).rng.cmds = l ++ [{ c with phase := .due st r0 r1 r2 none }] := by
  have kept : l.map (fun d => if d.tag = c.tag then { d with phase := CmdPhase.due st r0 r1 r2 none } else d) = l :=
    (List.map_congr_left fun d hd => if_neg (hl d hd)).trans (List.map_id' l)
  simp [finish, updCmd, hs, kept]

variable (tag r : Nat) (bs : List Byte)

theorem cmdStart_bad {s : State} {i : Nat} (h : badDescriptor (fetchedCmd tag r bs s) = some i) :
    cmdStart tag r bs s = finish tag stBadDescriptor i 0 0 (fetchQueued tag r bs s) := by
  unfold fetchedCmd at h
  simp only [cmdStart, h]
  congr 1

theorem cmdStart_absent {s : State} {u : Nat} (h : badDescriptor (fetchedCmd tag r bs s) = none)
    (hu : absentUnit s.part (fetchedCmd tag r bs s) = some u) :
    cmdStart tag r bs s = finish tag stAbsentUnit u 0 0 (fetchQueued tag r bs s) := by
  rw [← fetchCounted_part r] at hu
  unfold fetchedCmd at h hu
  unfold fetchCounted at hu
  simp only [cmdStart, h, hu]
  congr 1

theorem cmdStart_sound {s : State} (h : badDescriptor (fetchedCmd tag r bs s) = none)
    (hu : absentUnit s.part (fetchedCmd tag r bs s) = none) : cmdStart tag r bs s = fetchQueued tag r bs s := by
  rw [← fetchCounted_part r] at hu
  unfold fetchedCmd at h hu
  unfold fetchCounted at hu
  simp only [cmdStart, h, hu]
  rfl

/-- The fetched command stands behind those in flight, in the phase of its judgement. -/
theorem cmdStart_cmds {s : State} (free : findCmd s tag = none) :
    (cmdStart tag r bs s).rng.cmds =
      s.rng.cmds ++ [{ fetchedCmd tag r bs s with phase := judgedPhase s.part (fetchedCmd tag r bs s) }] := by
  have others := findCmd_eq_none_iff.1 free
  have queued : (fetchQueued tag r bs s).rng.cmds = s.rng.cmds ++ [fetchedCmd tag r bs s] := by
    rw [fetchQueued, fetchCounted_rng]
  cases hb : badDescriptor (fetchedCmd tag r bs s) with
  | some i =>
    rw [cmdStart_bad tag r bs hb, judgedPhase_bad hb]
    exact finish_cmds_last queued others _ _ _ _
  | none =>
    cases hu : absentUnit s.part (fetchedCmd tag r bs s) with
    | some u =>
      rw [cmdStart_absent tag r bs hb hu, judgedPhase_absent hb hu]
      exact finish_cmds_last queued others _ _ _ _
    | none =>
      rw [cmdStart_sound tag r bs hb hu, judgedPhase_sound hb hu]
      exact queued

/-- The judgement changes no register. -/
theorem cmdStart_regs (s : State) : (cmdStart tag r bs s).regs = (fetchCounted r s).regs := by
  cases hb : badDescriptor (fetchedCmd tag r bs s) with
  | some i => rw [cmdStart_bad tag r bs hb]; rfl
  | none =>
    cases hu : absentUnit s.part (fetchedCmd tag r bs s) with
    | some u => rw [cmdStart_absent tag r bs hb hu]; rfl
    | none => rw [cmdStart_sound tag r bs hb hu]; rfl

theorem cmdStart_rd (s : State) (off : Nat) : rd (cmdStart tag r bs s) off = rd (fetchCounted r s) off := by
  rw [rd, cmdStart_regs, rd]

variable {r}

theorem fetchCounted_index (hr : r < 64) (s : State) :
    fld (fetchCounted r s) (ringIndex r) 15 0 = (fld s (ringIndex r) 15 0 + 1) % 2 ^ 16 := by
  have h1 : ringIndex r ≠ R.RNG_SQ_ISSUED r := by rw [ringIndex, ringBase_sq hr, R.RNG_SQ_ISSUED]; omega
  have h2 : ringIndex r ≠ R.RNG_SQ_INFLIGHT r := by rw [ringIndex, ringBase_sq hr, R.RNG_SQ_INFLIGHT]; omega
  have h3 : ringIndex r ≠ R.RNG_STATUS := by rw [ringIndex, ringBase_sq hr, R.RNG_STATUS]; omega
  calc fld (fetchCounted r s) (ringIndex r) 15 0
      = fld (addFld s (ringIndex r) 15 0 1) (ringIndex r) 15 0 := by
        rw [fetchCounted, addFld, fld_setFld_other _ _ _ _ _ _ h3, addFld, fld_setFld_other _ _ _ _ _ _ h2, addReg,
          fld_wr_other _ _ _ _ h1]
    _ = (fld s (ringIndex r) 15 0 + 1) % 2 ^ 16 := fld_setFld_same _ _ _ _ _ (by decide) (by decide)

theorem fetchCounted_issued (hr : r < 64) (s : State) :
    rd (fetchCounted r s) (R.RNG_SQ_ISSUED r) = (rd s (R.RNG_SQ_ISSUED r) + 1) % 2 ^ 32 := by
  have h1 : R.RNG_SQ_ISSUED r ≠ ringIndex r := by rw [ringIndex, ringBase_sq hr, R.RNG_SQ_ISSUED]; omega
  have h2 : R.RNG_SQ_ISSUED r ≠ R.RNG_SQ_INFLIGHT r := by rw [R.RNG_SQ_ISSUED, R.RNG_SQ_INFLIGHT]; omega
  have h3 : R.RNG_SQ_ISSUED r ≠ R.RNG_STATUS := by rw [R.RNG_SQ_ISSUED, R.RNG_STATUS]; omega
  rw [fetchCounted, addFld, rd_setFld_other _ _ _ _ h3, addFld, rd_setFld_other _ _ _ _ h2, rd_addReg, if_pos rfl,
    addFld, rd_setFld_other _ _ _ _ h1]

/-! ## A failed fetch -/

/-- A bit above the field written keeps its value. -/
theorem flag_setFld_above (s : State) (off v : Nat) {hi lo i : Nat} (h : lo ≤ hi) (hi32 : hi < 32) (above : hi < i) :
    flag (setFld s off hi lo v) off i = flag s off i := by
  rw [flag, flag, bit_eq_bits, bit_eq_bits, ← fld, ← fld, fld_setFld_above _ _ _ _ _ _ _ h hi32 above]

/-- A failed fetch leaves its SQ DRAINING with FAULT set, and the commands in flight alone (R168): that it takes no tag is the
model's reading, log entry 52. -/
theorem sqFault_drains (hr : r < 64) (x : Nat) (s : State) :
    ringState (sqFault r x s) r = 3 ∧ flag (sqFault r x s) (ringStatus r) 5 = true ∧
      (sqFault r x s).rng.cmds = s.rng.cmds := by
  have marked : SqKept (setFld (setFlag s (ringStatus r) 5 true) (ringStatus r) 1 0 3) (sqFault r x s) :=
    (raise_events _ (by decide : (9 : Nat) < 256) _).sqKept.trans (raise_events _ (by decide : (3 : Nat) < 256) _).sqKept
  have status := marked.rd_sq hr (by decide : 0xC < 0x40)
  refine ⟨?_, ?_, marked.cmds⟩
  · rw [ringState, fld, ringStatus, status]
    exact fld_setFld_same _ _ _ _ _ (by decide) (by decide)
  · rw [flag, ringStatus, status]
    exact (flag_setFld_above _ _ _ (by decide) (by decide) (by decide)).trans (flag_setFlag_same _ _ _ _ (by decide))

end Sys2Proof.Machine
end

section
/-!
PROOFS. A descriptor fetch as a whole (R157, R159, R168).
-/

namespace Sys2Proof.Machine

theorem exec_descriptorFetch (tag : Fin 4096) (hm : Cells) (ecc : Ecc) {s : State} (run : running s = true) :
    exec (.descriptorFetch tag hm ecc) s = .next (descriptorFetch tag.val ecc (hostStore hm s)) := by
  show execDescriptorFetch tag hm ecc s = _
  rw [execDescriptorFetch, live, if_pos run]

/-- With no SQ ready nothing is fetched. -/
theorem descriptorFetch_idle (tag : Nat) (ecc : Ecc) {s : State} (h : sqNext s = none) : descriptorFetch tag ecc s = s := by
  rw [descriptorFetch, h]

/-- With a ring to serve, a free tag and a sound ring cache, the outcome of the read decides. -/
theorem descriptorFetch_served {tag r : Nat} {ecc : Ecc} {s b : State} {o : MemRead} (served : sqNext s = some r)
    (room : s.rng.cmds.length < 4096) (free : findCmd s tag = none) (sound : granaryBad s (ringCache r) 0x1000 = false)
    (read : dmaRead 5 18 (ringSpace s r) (ringAddr s r (fld s (ringIndex r) 15 0) 64) 64
      (noteLink [(ringAddr s r (fld s (ringIndex r) 15 0) 64, ecc)] s) = (b, o)) :
    descriptorFetch tag ecc s =
      if o.bad.isSome ∨ ecc = .uncorrected then
        sqFault r (o.bad.getD (ringAddr s r (fld s (ringIndex r) 15 0) 64)) (noteLink [] b)
      else cmdStart tag r o.data (noteLink [] b) := by
  have no_tag : ¬ (findCmd s tag).isSome := by simp [free]
  unfold descriptorFetch
  rw [served]
  dsimp only
  rw [if_neg (Nat.not_le.2 room), if_neg no_tag, ringCacheMet_sound raise r sound, read]

/-- Settles O35: the read of the descriptor keeps the ring and the commands in flight, so that the new command is counted and
queued behind them, or the ring drains. -/
theorem descriptorsAreFetchedInOrder : Obligations.DescriptorsAreFetchedInOrder := by
  unfold Obligations.DescriptorsAreFetchedInOrder
  rintro tag hm ecc s a run rfl
  rw [exec_descriptorFetch tag hm ecc run]
  refine ⟨fun idle => by rw [descriptorFetch_idle _ _ idle], fun r b o served room free sound read => ?_⟩
  have hr := sqNext_lt served
  have stored := hostStore_sqKept hm s
  rw [← stored.ringSpace hr, ← stored.fld_index hr, ← stored.ringAddr hr] at read
  have fetched : SqKept s (noteLink [] b) := by
    have := dmaRead_sqKept 18 (ringSpace (hostStore hm s) r)
      (ringAddr (hostStore hm s) r (fld (hostStore hm s) (ringIndex r) 15 0) 64) 64
      (stored.noteLink [(ringAddr (hostStore hm s) r (fld (hostStore hm s) (ringIndex r) 15 0) 64, ecc)])
    rw [read] at this
    exact this.noteLink []
  rw [descriptorFetch_served served (by simpa using room) (by simpa [findCmd] using free)
    (by simpa [granaryBad] using sound) read]
  constructor
  · intro good clean
    rw [if_neg (by simp [good, clean])]
    generalize noteLink [] b = t at fetched
    have free' : findCmd t tag.val = none := by rw [findCmd, fetched.cmds]; exact free
    refine ⟨_, { fetchedCmd tag.val r o.data t with phase := judgedPhase t.part (fetchedCmd tag.val r o.data t) }, rfl,
      ?_, rfl, rfl, fetched.fld_index hr 15 0, rfl, fetched.clock, ?_, ?_, ?_, ?_, ?_⟩
    · rw [cmdStart_cmds _ _ _ free', fetched.cmds]
    · rw [← fetched.part]
      exact fun sane present => judgedPhase_sound sane present
    · exact fun i bad => judgedPhase_bad bad
    · rw [← fetched.part]
      exact fun u sane absent => judgedPhase_absent sane absent
    · rw [fld, cmdStart_rd, ← fld, fetchCounted_index hr, fetched.fld_index hr]
    · have issued : rd t (R.RNG_SQ_ISSUED r) = rd s (R.RNG_SQ_ISSUED r) :=
        fetched.regs _ (by rw [R.RNG_SQ_ISSUED]; omega) (by rw [R.RNG_SQ_ISSUED]; omega)
      rw [cmdStart_rd, fetchCounted_issued hr, issued]
  · intro failed
    rw [if_pos (failed.imp_left Option.isSome_iff_ne_none.2)]
    obtain ⟨drains, fault, cmds⟩ := sqFault_drains hr
      (o.bad.getD (ringAddr (hostStore hm s) r (fld (hostStore hm s) (ringIndex r) 15 0) 64)) (noteLink [] b)
    have status : R.RNG_SQ_STATUS r = ringStatus r := by rw [ringStatus, ringBase_sq hr, R.RNG_SQ_STATUS]; omega
    exact ⟨_, rfl, drains, status ▸ fault, cmds.trans fetched.cmds⟩

end Sys2Proof.Machine
end

section
/-!
PROOFS. What the Granary holds (R11), and how the state's own operations, branches and folds leave it: the reasoning rules
for the frame of the commands that store nothing there.
-/

namespace Sys2Proof.Machine

variable {s : State}

/-- The bytes that the Granary holds. The lemmas of Laws/State.lean on `State.granary` hold by `rfl`, which the kernel checks
by unfolding the operations; those on `granaryOf` are proved by rewriting, so that a long composition stays cheap. -/
def granaryOf (s : State) : SMap Byte := s.granary

theorem gRead_eq_of_granaryOf_eq {s t : State} (h : granaryOf t = granaryOf s) (a n : Nat) : gRead t a n = gRead s a n := by
  rw [gRead, gRead, ← granaryOf, h, granaryOf]

/-! ## Branches, folds and pairs -/

@[simp] theorem granaryOf_ite (c : Prop) [Decidable c] (x y : State) :
    granaryOf (if c then x else y) = if c then granaryOf x else granaryOf y := apply_ite granaryOf c x y

@[simp] theorem granaryOf_fst_ite {β : Type} (c : Prop) [Decidable c] (x y : State × β) :
    granaryOf (if c then x else y).1 = if c then granaryOf x.1 else granaryOf y.1 :=
  apply_ite (fun q => granaryOf q.1) c x y

@[simp] theorem granaryOf_fst_fst_ite {β γ : Type} (c : Prop) [Decidable c] (x y : (State × β) × γ) :
    granaryOf (if c then x else y).1.1 = if c then granaryOf x.1.1 else granaryOf y.1.1 :=
  apply_ite (fun q => granaryOf q.1.1) c x y

@[simp] theorem granaryOf_foldl {β : Type} {f : State → β → State} (hf : ∀ t x, granaryOf (f t x) = granaryOf t)
    (l : List β) (s : State) : granaryOf (l.foldl f s) = granaryOf s := by
  induction l generalizing s with
  | nil => rfl
  | cons x l ih => rw [List.foldl_cons, ih, hf]

/-- A fold that carries more than the state. -/
@[simp] theorem granaryOf_foldlPair {β γ : Type} {f : State × γ → β → State × γ}
    (hf : ∀ q x, granaryOf (f q x).1 = granaryOf q.1) (l : List β) (q : State × γ) :
    granaryOf (l.foldl f q).1 = granaryOf q.1 := by
  induction l generalizing q with
  | nil => rfl
  | cons x l ih => rw [List.foldl_cons, ih, hf]

/-- The state of a pair that a match has taken apart. -/
theorem granaryOf_fst {β : Type} {t : State} {b : β} {q : State × β} (e : q = (t, b)) :
    granaryOf t = granaryOf q.1 := by rw [e]

/-! ## Updates of the state's other fields -/

/-- A state that differs from `s` in any field but the Granary. -/
@[simp] theorem granaryOf_with
    (pending' : List Instr) (part' : Part) (supply' : Supply) (porst' : Bool) (linkUp' : Bool) (regs' : SMap Word)
    (latched' : SMap Word) (wide' : SMap Nat) (clock' : Nat) (elapsed' : Nat) (updates' : Nat) (cellar' : SMap Byte)
    (losses' : List (Nat × Nat × Nat)) (host' : SMap Byte) (overwritten' : List OldBytes) (bar2' : SMap Byte)
    (draws' : Nat) (husks' : List HuskPend) (accepted' : SMap (Option Nat)) (faults' : List (Nat × Nat))
    (mismatches' : List (Nat × Nat)) (damage' : SMap Nat) (chans' : SMap Chan) (flows' : SMap Flow)
    (engineCycles' : SMap Nat) (macTx' : SMap (List Byte)) (layers' : SMap Layer) (heads' : SMap Head)
    (lanes' : SMap LaneSt) (shf' : ShfSt) (rng' : RingSt) (tim' : TimeSt) (tck' : TickSt) (flights' : List Flight)
    (cell' : CellSt) (lcs' : LcsSt) (pwr' : PowerSt) (tch' : TouchSt) (encs' : SMap EncSt) (jobBytes' : SMap Nat)
    (chkTurns' : SMap (List Nat)) (chkAt' : SMap Nat) (response' : BusResp) (debugResponse' : BusResp) :
    granaryOf { s with
      pending := pending', part := part', supply := supply', porst := porst', linkUp := linkUp', regs := regs',
      latched := latched', wide := wide', clock := clock', elapsed := elapsed', updates := updates',
      cellar := cellar', losses := losses', host := host', overwritten := overwritten', bar2 := bar2',
      draws := draws', husks := husks', accepted := accepted', faults := faults', mismatches := mismatches',
      damage := damage', chans := chans', flows := flows', engineCycles := engineCycles', macTx := macTx',
      layers := layers', heads := heads', lanes := lanes', shf := shf', rng := rng', tim := tim', tck := tck',
      flights := flights', cell := cell', lcs := lcs', pwr := pwr', tch := tch', encs := encs',
      jobBytes := jobBytes', chkTurns := chkTurns', chkAt := chkAt', response := response',
      debugResponse := debugResponse' } = granaryOf s := by
  rw [granaryOf, granaryOf]

@[simp] theorem granaryOf_wr (off v : Nat) :
    granaryOf (wr s off v) = granaryOf s := by rw [granaryOf, wr_granary, granaryOf]
@[simp] theorem granaryOf_lwr (off v : Nat) :
    granaryOf (lwr s off v) = granaryOf s := by rw [granaryOf, lwr_granary, granaryOf]
@[simp] theorem granaryOf_setFld (off hi lo v : Nat) :
    granaryOf (setFld s off hi lo v) = granaryOf s := by rw [granaryOf, setFld_granary, granaryOf]
@[simp] theorem granaryOf_setFlag (off i : Nat) (b : Bool) :
    granaryOf (setFlag s off i b) = granaryOf s := by rw [granaryOf, setFlag_granary, granaryOf]
@[simp] theorem granaryOf_addReg (off n : Nat) :
    granaryOf (addReg s off n) = granaryOf s := by rw [granaryOf, addReg_granary, granaryOf]
@[simp] theorem granaryOf_addFld (off hi lo n : Nat) :
    granaryOf (addFld s off hi lo n) = granaryOf s := by rw [granaryOf, addFld_granary, granaryOf]
@[simp] theorem granaryOf_wr64 (lo hi v : Nat) :
    granaryOf (wr64 s lo hi v) = granaryOf s := by rw [granaryOf, wr64_granary, granaryOf]
@[simp] theorem granaryOf_passUpdates (n : Nat) :
    granaryOf (passUpdates n s) = granaryOf s := by rw [granaryOf, passUpdates_granary, granaryOf]
@[simp] theorem granaryOf_b2Write (x : Nat) (bs : List Byte) :
    granaryOf (b2Write s x bs) = granaryOf s := by rw [granaryOf, b2Write_granary, granaryOf]
@[simp] theorem granaryOf_markOnce (code key : Nat) :
    granaryOf (markOnce code key s) = granaryOf s := by rw [granaryOf, markOnce_granary, granaryOf]
@[simp] theorem granaryOf_setPort (p : Nat) (x : PortSt) :
    granaryOf (setPort p x s) = granaryOf s := by rw [granaryOf, setPort_granary, granaryOf]
@[simp] theorem granaryOf_setDram (c : Nat) (x : DmcSt) :
    granaryOf (setDram c x s) = granaryOf s := by rw [granaryOf, setDram_granary, granaryOf]
@[simp] theorem granaryOf_updCmd (tag : Nat) (f : Cmd → Cmd) :
    granaryOf (updCmd tag f s) = granaryOf s := by rw [granaryOf, updCmd_granary, granaryOf]
@[simp] theorem granaryOf_dropCmd (tag : Nat) :
    granaryOf (dropCmd tag s) = granaryOf s := by rw [granaryOf, dropCmd_granary, granaryOf]
@[simp] theorem granaryOf_huskDrop (off : Nat) :
    granaryOf (huskDrop off s) = granaryOf s := by rw [granaryOf, huskDrop_granary, granaryOf]
@[simp] theorem granaryOf_setChan (c : Nat) (x : Chan) :
    granaryOf (setChan c x s) = granaryOf s := by rw [granaryOf, setChan_granary, granaryOf]
@[simp] theorem granaryOf_setFlow (f : Nat) (x : Flow) :
    granaryOf (setFlow f x s) = granaryOf s := by rw [granaryOf, setFlow_granary, granaryOf]
@[simp] theorem granaryOf_setLane (n : Nat) (x : LaneSt) :
    granaryOf (setLane n x s) = granaryOf s := by rw [granaryOf, setLane_granary, granaryOf]
@[simp] theorem granaryOf_setLayer (i : Nat) (x : Layer) :
    granaryOf (setLayer i x s) = granaryOf s := by rw [granaryOf, setLayer_granary, granaryOf]
@[simp] theorem granaryOf_setTrig (t : Nat) (x : TrigSt) :
    granaryOf (setTrig t x s) = granaryOf s := by rw [granaryOf, setTrig_granary, granaryOf]
@[simp] theorem granaryOf_setHead (h : Nat) (x : Head) :
    granaryOf (setHead h x s) = granaryOf s := by rw [granaryOf, setHead_granary, granaryOf]
@[simp] theorem granaryOf_setEnc (n : Nat) (x : EncSt) :
    granaryOf (setEnc n x s) = granaryOf s := by rw [granaryOf, setEnc_granary, granaryOf]
@[simp] theorem granaryOf_setKeySlot (k : Nat) (x : KeySlot) :
    granaryOf (setKeySlot k x s) = granaryOf s := by rw [granaryOf, setKeySlot_granary, granaryOf]
@[simp] theorem granaryOf_setKey (k : Nat) (x : KeySt) :
    granaryOf (setKey k x s) = granaryOf s := by rw [granaryOf, setKey_granary, granaryOf]

end Sys2Proof.Machine
end

section
/-!
PROOFS. The shared operations leave the Granary as it is: a record of an event goes to Cellar or host memory (R172), a read of the
Granary that meets an uncorrectable word changes its marks and counters (R367).
-/

namespace Sys2Proof.Machine

variable {s : State}

/-! ## Registers, memories, events, units and commands in flight -/

@[simp] theorem granaryOf_wideSet (lo v : Nat) : granaryOf (wideSet lo v s) = granaryOf s := by simp [wideSet]
@[simp] theorem granaryOf_wideLatch (lo hi : Nat) : granaryOf (wideLatch lo hi s) = granaryOf s := by simp [wideLatch]
@[simp] theorem granaryOf_waitClock (t : Nat) : granaryOf (waitClock t s) = granaryOf s := by simp [waitClock]
@[simp] theorem granaryOf_waitElapsed (t : Nat) : granaryOf (waitElapsed t s) = granaryOf s := by simp [waitElapsed]
@[simp] theorem granaryOf_waitUpdates (u : Nat) : granaryOf (waitUpdates u s) = granaryOf s := by simp [waitUpdates]
@[simp] theorem granaryOf_keepOld (sp x n : Nat) : granaryOf (keepOld sp x n s) = granaryOf s := by simp [keepOld]
@[simp] theorem granaryOf_memStore (sp x : Nat) (bs : List Byte) :
    granaryOf (memStore s sp x bs) = granaryOf s := by simp [memStore]

@[simp] theorem granaryOf_hostStore (m : Cells) : granaryOf (hostStore m s) = granaryOf s := by
  induction m generalizing s with
  | nil => rfl
  | cons c m ih => rw [hostStore, ih, granaryOf_memStore]

@[simp] theorem granaryOf_guardNote (g sp : Nat) (write : Bool) (p : GPart) :
    granaryOf (guardNote s g sp write p) = granaryOf s := by simp [guardNote]
@[simp] theorem granaryOf_msixSignal (v : Nat) : granaryOf (msixSignal v s) = granaryOf s := by simp [msixSignal]
@[simp] theorem granaryOf_pinRoute (p code : Nat) : granaryOf (pinRoute p code s) = granaryOf s := by simp [pinRoute]

@[simp] theorem granaryOf_ringAdvance (u : Nat) : granaryOf (ringAdvance u s) = granaryOf s := by
  unfold ringAdvance
  dsimp only
  split <;> simp

@[simp] theorem granaryOf_onceWith {again : Ev → State → State} (key : Nat) (ev : Ev)
    (hagain : ∀ ev t, granaryOf (again ev t) = granaryOf t) :
    granaryOf (onceWith again key ev s) = granaryOf s := by simp [onceWith, hagain]

@[simp] theorem granaryOf_guardDenials {again : Ev → State → State} (g sp : Nat) (write : Bool) (ps : List GPart)
    (hagain : ∀ ev t, granaryOf (again ev t) = granaryOf t) :
    granaryOf (guardDenials again g sp write ps s) = granaryOf s := by simp [guardDenials, hagain]

@[simp] theorem granaryOf_portCharge (p b : Nat) (urgent : Bool) :
    granaryOf (portCharge p b urgent s) = granaryOf s := by simp [portCharge]
@[simp] theorem granaryOf_setChanState (c v : Nat) :
    granaryOf (setChanState c v s) = granaryOf s := by simp [setChanState]
@[simp] theorem granaryOf_chanRequest (c : Nat) : granaryOf (chanRequest c s) = granaryOf s := by simp [chanRequest]
@[simp] theorem granaryOf_cellarRequest (a n : Nat) :
    granaryOf (cellarRequest a n s) = granaryOf s := by simp [cellarRequest]
@[simp] theorem granaryOf_portEnter (port sp : Nat) (urgent : Bool) (ps : List GPart) :
    granaryOf (portEnter port sp urgent ps s) = granaryOf s := by simp [portEnter]

@[simp] theorem granaryOf_storeParts (sp x : Nat) (bs : List Byte) (ps : List GPart) :
    granaryOf (storeParts sp x bs ps s).1 = granaryOf s := by
  induction ps generalizing s with
  | nil => rfl
  | cons p ps ih =>
    unfold storeParts
    split
    · split <;> simp [ih]
    · exact ih

@[simp] theorem granaryOf_dmaWriteWith {again : Ev → State → State} (g port : Nat) (sp a : Nat) (bs : List Byte)
    (hagain : ∀ ev t, granaryOf (again ev t) = granaryOf t) :
    granaryOf (dmaWriteWith again g port sp a bs s).1 = granaryOf s := by simp [dmaWriteWith, hagain]

@[simp] theorem granaryOf_ringFaultWith {again : Ev → State → State} (u addr : Nat)
    (hagain : ∀ ev t, granaryOf (again ev t) = granaryOf t) :
    granaryOf (ringFaultWith again u addr s) = granaryOf s := by simp [ringFaultWith, hagain]

@[simp] theorem granaryOf_granaryHeal (a n : Nat) :
    granaryOf (granaryHeal a n s) = granaryOf s := by simp [granaryHeal]

@[simp] theorem granaryOf_granaryErrorWith {again : Ev → State → State} (w : Nat)
    (hagain : ∀ ev t, granaryOf (again ev t) = granaryOf t) :
    granaryOf (granaryErrorWith again w s) = granaryOf s := by simp [granaryErrorWith, hagain]

@[simp] theorem granaryOf_ringCacheMet {again : Ev → State → State} (u : Nat)
    (hagain : ∀ ev t, granaryOf (again ev t) = granaryOf t) :
    granaryOf (ringCacheMet again u s) = granaryOf s := by simp [ringCacheMet, hagain]

@[simp] theorem granaryOf_eqWriteWith {again : Ev → State → State} (e : Nat) (ev : Ev)
    (hagain : ∀ ev t, granaryOf (again ev t) = granaryOf t) :
    granaryOf (eqWriteWith again e ev s).1 = granaryOf s := by simp [eqWriteWith, hagain]

@[simp] theorem granaryOf_eqPostWith {again : Ev → State → State} (e : Nat) (ev : Ev)
    (hagain : ∀ ev t, granaryOf (again ev t) = granaryOf t) :
    granaryOf (eqPostWith again e ev s) = granaryOf s := by simp [eqPostWith, hagain]

@[simp] theorem granaryOf_eventSignals (code : Nat) :
    granaryOf (eventSignals code s) = granaryOf s := by simp [eventSignals]

@[simp] theorem granaryOf_raiseFuel (n : Nat) (ev : Ev) : granaryOf (raiseFuel n ev s) = granaryOf s := by
  induction n generalizing ev s with
  | zero => simp [raiseFuel]
  | succ n ih => simp [raiseFuel, granaryOf_eqPostWith (hagain := fun ev t => ih ev)]

@[simp] theorem granaryOf_raise (ev : Ev) : granaryOf (raise ev s) = granaryOf s := by simp [raise]
@[simp] theorem granaryOf_raiseOnce (key : Nat) (ev : Ev) :
    granaryOf (raiseOnce key ev s) = granaryOf s := by simp [raiseOnce]
@[simp] theorem granaryOf_raiseTotal (code unit : Nat) (first n : Nat) :
    granaryOf (raiseTotal code unit first n s) = granaryOf s := by simp [raiseTotal]
@[simp] theorem granaryOf_raiseTotals : granaryOf (raiseTotals s) = granaryOf s := by simp [raiseTotals]
@[simp] theorem granaryOf_granaryCorrected (a : Nat) :
    granaryOf (granaryCorrected a s) = granaryOf s := by simp [granaryCorrected]
@[simp] theorem granaryOf_granaryUncorrectable (a : Nat) :
    granaryOf (granaryUncorrectable a s) = granaryOf s := by simp [granaryUncorrectable]
@[simp] theorem granaryOf_granaryMet (a n : Nat) : granaryOf (granaryMet a n s) = granaryOf s := by simp [granaryMet]

@[simp] theorem granaryOf_cellarEcc (a : Nat) (e : Ecc) : granaryOf (cellarEcc a e s) = granaryOf s := by
  unfold cellarEcc
  split <;> simp

@[simp] theorem granaryOf_dmaWrite (g port : Nat) (sp a : Nat) (bs : List Byte) :
    granaryOf (dmaWrite g port sp a bs s).1 = granaryOf s := by simp [dmaWrite]
@[simp] theorem granaryOf_noteLink (es : LinkErrs) : granaryOf (noteLink es s) = granaryOf s := by simp [noteLink]
@[simp] theorem granaryOf_linked (es : LinkErrs) {f : State → State} (hf : ∀ t, granaryOf (f t) = granaryOf t) :
    granaryOf (linked es f s) = granaryOf s := by simp [linked, hf]
@[simp] theorem granaryOf_linkRead (a n : Nat) : granaryOf (linkRead a n s).1 = granaryOf s := by simp [linkRead]

@[simp] theorem granaryOf_readParts (sp : Nat) (ps : List GPart) :
    granaryOf (readParts sp ps s).1 = granaryOf s := by
  induction ps generalizing s with
  | nil => rfl
  | cons p ps ih =>
    unfold readParts
    dsimp only
    rw [ih]
    split
    · rfl
    · split
      · split <;> simp
      · rfl

@[simp] theorem granaryOf_dmaReadAs (urgent : Bool) (g port : Nat) (sp a n : Nat) :
    granaryOf (dmaReadAs urgent g port sp a n s).1 = granaryOf s := by simp [dmaReadAs]
@[simp] theorem granaryOf_dmaRead (g port : Nat) (sp a n : Nat) :
    granaryOf (dmaRead g port sp a n s).1 = granaryOf s := by simp [dmaRead]
@[simp] theorem granaryOf_genStep : granaryOf (genStep s) = granaryOf s := by simp [genStep]
@[simp] theorem granaryOf_noteOff (kind u : Nat) : granaryOf (noteOff kind u s) = granaryOf s := by simp [noteOff]

@[simp] theorem granaryOf_setUnitThen (kind u new : Nat) (queued : Bool) {f : State → State}
    (hf : ∀ t, granaryOf (f t) = granaryOf t) :
    granaryOf (setUnitThen kind u new queued f s) = granaryOf s := by simp [setUnitThen, hf]

@[simp] theorem granaryOf_setUnit (kind u new : Nat) (queued : Bool) :
    granaryOf (setUnit kind u new queued s) = granaryOf s := by simp [setUnit]
@[simp] theorem granaryOf_finish (tag status : Nat) (r0 r1 r2 : Nat) :
    granaryOf (finish tag status r0 r1 r2 s) = granaryOf s := by simp [finish]
@[simp] theorem granaryOf_finishNow (tag status : Nat) (r0 r1 r2 : Nat) :
    granaryOf (finishNow tag status r0 r1 r2 s) = granaryOf s := by simp [finishNow]
@[simp] theorem granaryOf_waitCmd (tag : Nat) (aux : List Nat) :
    granaryOf (waitCmd tag aux s) = granaryOf s := by simp [waitCmd]

@[simp] theorem granaryOf_onCmd (tag opcode : Nat) {f : Cmd → State → State}
    (hf : ∀ c t, granaryOf (f c t) = granaryOf t) :
    granaryOf (onCmd tag opcode s f) = granaryOf s := by
  unfold onCmd
  split <;> simp [hf]

@[simp] theorem granaryOf_onWaiting (tag opcode : Nat) {f : Cmd → State → State}
    (hf : ∀ c t, granaryOf (f c t) = granaryOf t) :
    granaryOf (onWaiting tag opcode s f) = granaryOf s := by
  unfold onWaiting
  split <;> simp [hf]

@[simp] theorem granaryOf_finishFault (c : Cmd) (a g : Nat) :
    granaryOf (finishFault c a g s) = granaryOf s := by simp [finishFault]

end Sys2Proof.Machine
end

section
/-!
PROOFS. HK pairs, the life cycle, Cellar, calibration and power leave the Granary as it is.
-/

namespace Sys2Proof.Machine

variable {s : State}

/-! ## HK pairs -/

@[simp] theorem granaryOf_huskStore (off v : Nat) : granaryOf (huskStore off v s) = granaryOf s := by simp [huskStore]
@[simp] theorem granaryOf_huskReject (cause off : Nat) :
    granaryOf (huskReject cause off s) = granaryOf s := by simp [huskReject]

@[simp] theorem granaryOf_huskExpire (off : Nat) : granaryOf (huskExpire off s) = granaryOf s := by
  unfold huskExpire
  split <;> simp

@[simp] theorem granaryOf_huskV (off v : Nat) : granaryOf (huskV off v s) = granaryOf s := by simp [huskV]

@[simp] theorem granaryOf_huskK (off k : Nat) {effect : Nat → State → State}
    (heffect : ∀ c t, granaryOf (effect c t) = granaryOf t) :
    granaryOf (huskK off k effect s) = granaryOf s := by
  unfold huskK
  split
  · rfl
  · dsimp only
    split <;> simp [heffect]

/-! ## Life cycle and Demal -/

@[simp] theorem granaryOf_renewNonce : granaryOf (renewNonce s) = granaryOf s := by simp [renewNonce]

@[simp] theorem granaryOf_reqBlow (v : Nat) (fuseOk : Bool) : granaryOf (reqBlow v fuseOk s) = granaryOf s := by
  unfold reqBlow
  (repeat' split) <;> simp

@[simp] theorem granaryOf_reqPending (v : Nat) : granaryOf (reqPending v s) = granaryOf s := by simp [reqPending]
@[simp] theorem granaryOf_reqReport (v result : Nat) :
    granaryOf (reqReport v result s) = granaryOf s := by simp [reqReport]
@[simp] theorem granaryOf_lcsEffect (v : Nat) : granaryOf (lcsEffect v s) = granaryOf s := by simp [lcsEffect]

@[simp] theorem granaryOf_lcsDone (v : Nat) (fuseOk : Bool) : granaryOf (lcsDone v fuseOk s) = granaryOf s := by
  simp only [lcsDone, granaryOf_renewNonce, granaryOf_ite, granaryOf_reqPending, granaryOf_reqReport,
    granaryOf_reqBlow, granaryOf_with, granaryOf_setFlag, ite_self]

@[simp] theorem granaryOf_keysOff : granaryOf (keysOff s) = granaryOf s := by simp [keysOff]
@[simp] theorem granaryOf_demalLeaves (new : Nat) :
    granaryOf (demalLeaves new s) = granaryOf s := by simp [demalLeaves]
@[simp] theorem granaryOf_setDemal (new : Nat) : granaryOf (setDemal new s) = granaryOf s := by simp [setDemal]
@[simp] theorem granaryOf_demalHalt : granaryOf (demalHalt s) = granaryOf s := by simp [demalHalt]

/-! ## Cellar and the scrubber -/

@[simp] theorem granaryOf_cellarLose (len mask : Nat) :
    granaryOf (cellarLose len mask s) = granaryOf s := by simp [cellarLose]
@[simp] theorem granaryOf_trainStart (c : Nat) : granaryOf (trainStart c s) = granaryOf s := by simp [trainStart]
@[simp] theorem granaryOf_dmcCtrlWrite (v : Nat) :
    granaryOf (dmcCtrlWrite v s) = granaryOf s := by simp [dmcCtrlWrite]
@[simp] theorem granaryOf_dmcReady : granaryOf (dmcReady s) = granaryOf s := by simp [dmcReady]
@[simp] theorem granaryOf_trainDone (c fail density : Nat) (rfm : Bool) :
    granaryOf (trainDone c fail density rfm s) = granaryOf s := by simp [trainDone]
@[simp] theorem granaryOf_setDebt (c d : Nat) : granaryOf (setDebt c d s) = granaryOf s := by simp [setDebt]
@[simp] theorem granaryOf_catchupEnter (c : Nat) :
    granaryOf (catchupEnter c s) = granaryOf s := by simp [catchupEnter]
@[simp] theorem granaryOf_catchupLeave (c d : Nat) :
    granaryOf (catchupLeave c d s) = granaryOf s := by simp [catchupLeave]
@[simp] theorem granaryOf_mr4Read (c v : Nat) : granaryOf (mr4Read c v s) = granaryOf s := by simp [mr4Read]
@[simp] theorem granaryOf_trackRun (c : Nat) (good : Bool) :
    granaryOf (trackRun c good s) = granaryOf s := by simp [trackRun]
@[simp] theorem granaryOf_portThrottle (p : Nat) :
    granaryOf (portThrottle p s) = granaryOf s := by simp [portThrottle]
@[simp] theorem granaryOf_rowDisturb (c rank : Nat) (bank row port : Nat) :
    granaryOf (rowDisturb c rank bank row port s) = granaryOf s := by simp [rowDisturb]
@[simp] theorem granaryOf_rowActivate (c rank : Nat) (bank row : Nat) (port acts : Nat) :
    granaryOf (rowActivate c rank bank row port acts s) = granaryOf s := by simp [rowActivate]
@[simp] theorem granaryOf_selfRefreshExit (c : Nat) (beforeE4 : Bool) (mr4 : Nat) (good : Bool) :
    granaryOf (selfRefreshExit c beforeE4 mr4 good s) = granaryOf s := by simp [selfRefreshExit]

/-! ## Calibration -/

@[simp] theorem granaryOf_spareShow : granaryOf (spareShow s) = granaryOf s := by
  refine granaryOf_foldl (fun t q => ?_) _ s
  split <;> simp

@[simp] theorem granaryOf_setCals (cs : List Cal) : granaryOf (setCals cs s) = granaryOf s := by simp [setCals]
@[simp] theorem granaryOf_updCal (i : Nat) (f : Cal → Cal) :
    granaryOf (updCal i f s) = granaryOf s := by simp [updCal]
@[simp] theorem granaryOf_calNoteFail (i cause : Nat) (quiet : Bool) :
    granaryOf (calNoteFail i cause quiet s) = granaryOf s := by simp [calNoteFail]
@[simp] theorem granaryOf_calNoteDone (i t : Nat) :
    granaryOf (calNoteDone i t s) = granaryOf s := by simp [calNoteDone]

@[simp] theorem granaryOf_calTell (tag : Option Nat) (i : Nat) (cause : Option Nat) :
    granaryOf (calTell tag i cause s) = granaryOf s := by
  unfold calTell
  dsimp only
  (repeat' split) <;> simp

@[simp] theorem granaryOf_calAdvance (i : Nat) : granaryOf (calAdvance i s) = granaryOf s := by
  unfold calAdvance
  (repeat' split) <;> simp

@[simp] theorem granaryOf_calSucceed (i t : Nat) : granaryOf (calSucceed i t s) = granaryOf s := by
  unfold calSucceed
  split <;> simp

@[simp] theorem granaryOf_setTrim (i v : Nat) : granaryOf (setTrim i v s) = granaryOf s := by simp [setTrim]
@[simp] theorem granaryOf_trimTake (i : Nat) : granaryOf (trimTake i s) = granaryOf s := by simp [trimTake]

@[simp] theorem granaryOf_trimRestore (i : Nat) : granaryOf (trimRestore i s) = granaryOf s := by
  unfold trimRestore
  split <;> simp

@[simp] theorem granaryOf_calFail (i cause : Nat) (quiet : Bool) :
    granaryOf (calFail i cause quiet s) = granaryOf s := by
  unfold calFail
  split <;> simp

@[simp] theorem granaryOf_calStartRun (tag : Option Nat) (items : List Nat) :
    granaryOf (calStartRun tag items s) = granaryOf s := by
  unfold calStartRun
  split <;> simp

@[simp] theorem granaryOf_trimAll (tag : Nat) (onlyDue : Bool) :
    granaryOf (trimAll tag onlyDue s) = granaryOf s := by
  unfold trimAll
  dsimp only
  split <;> simp

@[simp] theorem granaryOf_trimRun (c : Cmd) : granaryOf (trimRun c s) = granaryOf s := by simp [trimRun]
@[simp] theorem granaryOf_trmCmdWrite (v : Nat) : granaryOf (trmCmdWrite v s) = granaryOf s := by simp [trmCmdWrite]

@[simp] theorem granaryOf_calSchedule : granaryOf (calSchedule s) = granaryOf s := by
  unfold calSchedule
  split
  · dsimp only
    generalize hu : List.foldl _ s _ = u
    have quads : granaryOf u = granaryOf s := by
      rw [← hu, granaryOf_foldl]
      intro t q
      (repeat' split) <;> simp
    (repeat' split) <;> simp [quads]
  · rfl

@[simp] theorem granaryOf_calRefvFail (uv : Nat) : granaryOf (calRefvFail uv s) = granaryOf s := by
  unfold calRefvFail
  split <;> simp

@[simp] theorem granaryOf_calMeasured (i : Nat) (o : CalObs) :
    granaryOf (calMeasured i o s) = granaryOf s := by simp [calMeasured]
@[simp] theorem granaryOf_calAbortAll : granaryOf (calAbortAll s) = granaryOf s := by simp [calAbortAll]
@[simp] theorem granaryOf_calAbort (i : Nat) : granaryOf (calAbort i s) = granaryOf s := by simp [calAbort]

/-! ## Power, rails and temperatures -/

@[simp] theorem granaryOf_setPower (new : Nat) : granaryOf (setPower new s) = granaryOf s := by simp [setPower]
@[simp] theorem granaryOf_headokLow : granaryOf (headokLow s) = granaryOf s := by simp [headokLow]
@[simp] theorem granaryOf_powerDownBegin : granaryOf (powerDownBegin s) = granaryOf s := by simp [powerDownBegin]
@[simp] theorem granaryOf_keepEnter : granaryOf (keepEnter s) = granaryOf s := by simp [keepEnter]
@[simp] theorem granaryOf_railEvent (code : Nat) (monitor : Bool) :
    granaryOf (railEvent code monitor s) = granaryOf s := by simp [railEvent]
@[simp] theorem granaryOf_railWarn (code : Nat) (monitor : Bool) :
    granaryOf (railWarn code monitor s) = granaryOf s := by simp [railWarn]
@[simp] theorem granaryOf_railFault (code : Nat) (monitor : Bool) :
    granaryOf (railFault code monitor s) = granaryOf s := by simp [railFault]

@[simp] theorem granaryOf_monitorSample (r mv : Nat) : granaryOf (monitorSample r mv s) = granaryOf s := by
  unfold monitorSample
  dsimp only
  (repeat' split) <;> simp

@[simp] theorem granaryOf_applyStage : granaryOf (applyStage s) = granaryOf s := by simp [applyStage]
@[simp] theorem granaryOf_tempReading (i : Nat) (raw : Int) :
    granaryOf (tempReading i raw s) = granaryOf s := by simp [tempReading]
@[simp] theorem granaryOf_thermalSample (mc : List Int) :
    granaryOf (thermalSample mc s) = granaryOf s := by simp [thermalSample]
@[simp] theorem granaryOf_avsRaise : granaryOf (avsRaise s) = granaryOf s := by simp [avsRaise]
@[simp] theorem granaryOf_avsLower : granaryOf (avsLower s) = granaryOf s := by simp [avsLower]

@[simp] theorem granaryOf_avsSample (slacks : List Int) : granaryOf (avsSample slacks s) = granaryOf s := by
  unfold avsSample
  split <;> simp

end Sys2Proof.Machine
end

section
/-!
PROOFS. The rings and the tick unit leave the Granary as it is.
-/

namespace Sys2Proof.Machine

variable {s : State}

/-! ## Rings and completions -/

@[simp] theorem granaryOf_eqPostLost (e : Nat) : granaryOf (eqPostLost e s) = granaryOf s := by simp [eqPostLost]
@[simp] theorem granaryOf_ringStart (u : Nat) : granaryOf (ringStart u s) = granaryOf s := by simp [ringStart]
@[simp] theorem granaryOf_ringDrain (u : Nat) : granaryOf (ringDrain u s) = granaryOf s := by simp [ringDrain]
@[simp] theorem granaryOf_ringCfgKeep (u v : Nat) :
    granaryOf (ringCfgKeep u v s) = granaryOf s := by simp [ringCfgKeep]
@[simp] theorem granaryOf_ringCfgWrite (u v : Nat) :
    granaryOf (ringCfgWrite u v s) = granaryOf s := by simp [ringCfgWrite]
@[simp] theorem granaryOf_doorbell (u w : Nat) (narrow : Bool) :
    granaryOf (doorbell u w narrow s) = granaryOf s := by simp [doorbell]
@[simp] theorem granaryOf_sqFault (r addr : Nat) : granaryOf (sqFault r addr s) = granaryOf s := by simp [sqFault]

@[simp] theorem granaryOf_cmdStart (tag r : Nat) (bs : List Byte) :
    granaryOf (cmdStart tag r bs s) = granaryOf s := by
  unfold cmdStart
  dsimp only
  (repeat' split) <;> simp

@[simp] theorem granaryOf_descriptorFetch (tag : Nat) (ecc : Ecc) :
    granaryOf (descriptorFetch tag ecc s) = granaryOf s := by
  unfold descriptorFetch
  split <;> simp

@[simp] theorem granaryOf_releaseTag (c : Cmd) : granaryOf (releaseTag c s) = granaryOf s := by simp [releaseTag]

@[simp] theorem granaryOf_completionPost (c : Cmd) (status r0 : Nat) (r1 r2 : Nat) (tick : Nat × Nat)
    (linkOk : Bool) :
    granaryOf (completionPost c status r0 r1 r2 tick linkOk s) = granaryOf s := by simp [completionPost]

@[simp] theorem granaryOf_completionDue (c : Cmd) (status r0 : Nat) (r1 r2 : Nat) (tick : Option (Nat × Nat))
    (linkOk : Bool) :
    granaryOf (completionDue c status r0 r1 r2 tick linkOk s) = granaryOf s := by simp [completionDue]

@[simp] theorem granaryOf_finishWaiters (kind u : Nat) (purpose status : Nat) :
    granaryOf (finishWaiters kind u purpose status s) = granaryOf s := by simp [finishWaiters]

@[simp] theorem granaryOf_enableCmd (kind u : Nat) (c : Cmd) {start : Cmd → State → State}
    (hstart : ∀ c t, granaryOf (start c t) = granaryOf t) :
    granaryOf (enableCmd kind u c start s) = granaryOf s := by simp [enableCmd, hstart]

@[simp] theorem granaryOf_disableCmd (kind u : Nat) (c : Cmd) {drain : State → State}
    (hdrain : ∀ t, granaryOf (drain t) = granaryOf t) :
    granaryOf (disableCmd kind u c drain s) = granaryOf s := by simp [disableCmd, hdrain]

@[simp] theorem granaryOf_unitDrain (kind u : Nat) :
    granaryOf (unitDrain kind u s) = granaryOf s := by simp [unitDrain]
@[simp] theorem granaryOf_unitOff (kind u : Nat) : granaryOf (unitOff kind u s) = granaryOf s := by simp [unitOff]

@[simp] theorem granaryOf_runQueued (kind u : Nat) {start : Cmd → State → State}
    (hstart : ∀ c t, granaryOf (start c t) = granaryOf t) :
    granaryOf (runQueued kind u start s) = granaryOf s := by simp [runQueued, hstart]

/-! ## The wall tick and its pools -/

@[simp] theorem granaryOf_bumpGen : granaryOf (bumpGen s) = granaryOf s := by simp [bumpGen]
@[simp] theorem granaryOf_poolLimits : granaryOf (poolLimits s) = granaryOf s := by simp [poolLimits]
@[simp] theorem granaryOf_budgetShort : granaryOf (budgetShort s) = granaryOf s := by simp [budgetShort]
@[simp] theorem granaryOf_poolAdmit (kind unit : Nat) (costs : List (Nat × Nat)) :
    granaryOf (poolAdmit kind unit costs s) = granaryOf s := by simp [poolAdmit]
@[simp] theorem granaryOf_poolEmptied (p : Nat) : granaryOf (poolEmptied p s) = granaryOf s := by simp [poolEmptied]
@[simp] theorem granaryOf_uncommit (kind unit : Nat) :
    granaryOf (uncommit kind unit s) = granaryOf s := by simp [uncommit]
@[simp] theorem granaryOf_tickIgnored (why : Nat) :
    granaryOf (tickIgnored why s) = granaryOf s := by simp [tickIgnored]
@[simp] theorem granaryOf_tickStart : granaryOf (tickStart s) = granaryOf s := by simp [tickStart]
@[simp] theorem granaryOf_tickStop : granaryOf (tickStop s) = granaryOf s := by simp [tickStop]
@[simp] theorem granaryOf_timebaseWrite (reg v : Nat) :
    granaryOf (timebaseWrite reg v s) = granaryOf s := by simp [timebaseWrite]
@[simp] theorem granaryOf_guardPmWrite (v : Nat) :
    granaryOf (guardPmWrite v s) = granaryOf s := by simp [guardPmWrite]

@[simp] theorem granaryOf_tickStepped (old : Nat) : granaryOf (tickStepped old s) = granaryOf s := by
  unfold tickStepped
  split <;> simp

end Sys2Proof.Machine
end

section
/-!
PROOFS. The Vestibule, sources and ledgers leave the Granary as it is: payloads go to Cellar (R233), and what a packet descriptor
holds is in the state behind the registers.
-/

namespace Sys2Proof.Machine

variable {s : State}

/-! ## Channels and their slots -/

@[simp] theorem granaryOf_setSlot (c k : Nat) (x : Slot) :
    granaryOf (setSlot c k x s) = granaryOf s := by simp [setSlot]
@[simp] theorem granaryOf_updSlot (c k : Nat) (f : Slot → Slot) :
    granaryOf (updSlot c k f s) = granaryOf s := by simp [updSlot]
@[simp] theorem granaryOf_dropSlot (c k : Nat) : granaryOf (dropSlot c k s) = granaryOf s := by simp [dropSlot]
@[simp] theorem granaryOf_overDeclared (c check pool : Nat) :
    granaryOf (overDeclared c check pool s) = granaryOf s := by simp [overDeclared]

/-! ## The Vestibule -/

@[simp] theorem granaryOf_flowReset (f : Nat) : granaryOf (flowReset f s) = granaryOf s := by simp [flowReset]
@[simp] theorem granaryOf_flowBind (f c : Nat) : granaryOf (flowBind f c s) = granaryOf s := by simp [flowBind]
@[simp] theorem granaryOf_flowUnbind (f : Nat) : granaryOf (flowUnbind f s) = granaryOf s := by simp [flowUnbind]
@[simp] theorem granaryOf_release (c : Nat) (i : BsItem) :
    granaryOf (release c i s) = granaryOf s := by simp [release]
@[simp] theorem granaryOf_countMalformed (f : Nat) :
    granaryOf (countMalformed f s) = granaryOf s := by simp [countMalformed]
@[simp] theorem granaryOf_releasePacket (f c : Nat) (p : Pkt) :
    granaryOf (releasePacket f c p s) = granaryOf s := by simp [releasePacket]

@[simp] theorem granaryOf_releaseRun (f c : Nat) (ps : List Pkt) :
    granaryOf (releaseRun f c ps s) = granaryOf s := by
  induction ps generalizing s with
  | nil => rfl
  | cons p ps ih => simp [releaseRun, ih]

@[simp] theorem granaryOf_releaseAll (f c : Nat) : granaryOf (releaseAll f c s) = granaryOf s := by simp [releaseAll]
@[simp] theorem granaryOf_declareLost (f c n : Nat) :
    granaryOf (declareLost f c n s) = granaryOf s := by simp [declareLost]

@[simp] theorem granaryOf_advanceTo (f c target n : Nat) : granaryOf (advanceTo f c target n s) = granaryOf s := by
  induction n generalizing s with
  | zero => rfl
  | succ n ih => simp [advanceTo, ih]

@[simp] theorem granaryOf_countLate (f c n : Nat) (event : Bool) :
    granaryOf (countLate f c n event s) = granaryOf s := by simp [countLate]
@[simp] theorem granaryOf_vstWrite (a : Nat) (bs : List Byte) :
    granaryOf (vstWrite a bs s) = granaryOf s := by simp [vstWrite]
@[simp] theorem granaryOf_holdPacket (f c : Nat) (p : RtpPkt) (rx desc : Nat) :
    granaryOf (holdPacket f c p rx desc s) = granaryOf s := by simp [holdPacket]
@[simp] theorem granaryOf_reorderFull (f c : Nat) :
    granaryOf (reorderFull f c s) = granaryOf s := by simp [reorderFull]

@[simp] theorem granaryOf_acceptPacket (f c : Nat) (p : RtpPkt) (rx : Nat) {before : State → State}
    (hbefore : ∀ t, granaryOf (before t) = granaryOf t) :
    granaryOf (acceptPacket f c p rx before s) = granaryOf s := by
  unfold acceptPacket
  split <;> simp [hbefore]

@[simp] theorem granaryOf_flowRestart (f c : Nat) (p : RtpPkt) (rx : Nat) :
    granaryOf (flowRestart f c p rx s) = granaryOf s := by simp [flowRestart]
@[simp] theorem granaryOf_sequencePacket (f c : Nat) (p : RtpPkt) (rx : Nat) :
    granaryOf (sequencePacket f c p rx s) = granaryOf s := by simp [sequencePacket]
@[simp] theorem granaryOf_pathAccepts (f : Nat) (pathB : Bool) :
    granaryOf (pathAccepts f pathB s) = granaryOf s := by simp [pathAccepts]
@[simp] theorem granaryOf_latchSsrc (f : Nat) (u : UdpPkt) :
    granaryOf (latchSsrc f u s) = granaryOf s := by simp [latchSsrc]

@[simp] theorem granaryOf_flowPacket (f c : Nat) (pathB : Bool) (key : List Nat) (u : UdpPkt) (stamp : Nat) :
    granaryOf (flowPacket f c pathB key u stamp s) = granaryOf s := by
  unfold flowPacket
  dsimp only
  split <;> simp

@[simp] theorem granaryOf_rxPosted (q : Nat) (up : Bool) :
    granaryOf (rxPosted q up s) = granaryOf s := by simp [rxPosted]

@[simp] theorem granaryOf_rxDeliver (q cls mac : Nat) (flow : Option Nat) (f : List Byte) (rx : Nat) :
    granaryOf (rxDeliver q cls mac flow f rx s) = granaryOf s := by
  unfold rxDeliver
  split
  · simp
  · dsimp only
    split <;> next e => simp [granaryOf_fst e]

@[simp] theorem granaryOf_fecCount (m : Nat) (o : EthObs) :
    granaryOf (fecCount m o s) = granaryOf s := by simp [fecCount]

@[simp] theorem granaryOf_frameIn (m : Nat) (f : List Byte) (rx : Nat) :
    granaryOf (frameIn m f rx s) = granaryOf s := by
  unfold frameIn
  (repeat' split) <;> simp

@[simp] theorem granaryOf_ethReceive (m : Nat) (f : List Byte) (o : EthObs) :
    granaryOf (ethReceive m f o s) = granaryOf s := by simp [ethReceive]
@[simp] theorem granaryOf_reject (c : Cmd) (reason detail : Nat) :
    granaryOf (reject c reason detail s) = granaryOf s := by simp [reject]
@[simp] theorem granaryOf_flowAdd (c : Cmd) : granaryOf (flowAdd c s) = granaryOf s := by simp [flowAdd]
@[simp] theorem granaryOf_dropKey (f : Nat) (pathB : Bool) :
    granaryOf (dropKey f pathB s) = granaryOf s := by simp [dropKey]
@[simp] theorem granaryOf_inputClear (c : Nat) : granaryOf (inputClear c s) = granaryOf s := by simp [inputClear]

@[simp] theorem granaryOf_flowDel (c : Cmd) : granaryOf (flowDel c s) = granaryOf s := by
  unfold flowDel
  dsimp only
  split <;> simp

@[simp] theorem granaryOf_jitterRun (f c n : Nat) : granaryOf (jitterRun f c n s) = granaryOf s := by
  induction n generalizing s with
  | zero => rfl
  | succ n ih =>
    unfold jitterRun
    split <;> simp [ih]

@[simp] theorem granaryOf_ringCopy (c : Nat) (bs : List Byte) :
    granaryOf (ringCopy c bs s) = granaryOf s := by simp [ringCopy]
@[simp] theorem granaryOf_lossReport (c n : Nat) : granaryOf (lossReport c n s) = granaryOf s := by simp [lossReport]
@[simp] theorem granaryOf_depacketiseData (c : Nat) (p : Pkt) :
    granaryOf (depacketiseData c p s) = granaryOf s := by simp [depacketiseData]

@[simp] theorem granaryOf_depacketise (c : Nat) (is : List BsItem) :
    granaryOf (depacketise c is s) = granaryOf s := by
  induction is generalizing s with
  | nil => rfl
  | cons i is ih => cases i <;> simp [depacketise, ih]

@[simp] theorem granaryOf_netRxPost (c : Cmd) : granaryOf (netRxPost c s) = granaryOf s := by simp [netRxPost]

@[simp] theorem granaryOf_netTxSent (c : Cmd) (err : Int) : granaryOf (netTxSent c err s) = granaryOf s := by
  unfold netTxSent
  dsimp only
  split
  · simp
  · split
    next e => simp [granaryOf_fst e]
    next e => split <;> simp [granaryOf_fst e]

@[simp] theorem granaryOf_vstDrain (c : Nat) : granaryOf (vstDrain c s) = granaryOf s := by
  unfold vstDrain
  split <;> simp

@[simp] theorem granaryOf_vstWake : granaryOf (vstWake s) = granaryOf s := by
  refine granaryOf_foldl (fun t q => ?_) _ s
  dsimp only
  (repeat' split) <;> simp

/-! ## Sources -/

@[simp] theorem granaryOf_srcStart (c kind : Nat) (w : Nat → Nat) :
    granaryOf (srcStart c kind w s) = granaryOf s := by simp [srcStart]

@[simp] theorem granaryOf_srcOpen (c : Cmd) : granaryOf (srcOpen c s) = granaryOf s := by
  unfold srcOpen
  dsimp only
  (repeat' split) <;> simp

@[simp] theorem granaryOf_enableIgnored (kind u : Nat) (reg stickyBit off : Nat) :
    granaryOf (enableIgnored kind u reg stickyBit off s) = granaryOf s := by simp [enableIgnored]
@[simp] theorem granaryOf_srcRegEnable (c v : Nat) :
    granaryOf (srcRegEnable c v s) = granaryOf s := by simp [srcRegEnable]
@[simp] theorem granaryOf_updPic (c : Nat) (f : Pic → Pic) :
    granaryOf (updPic c f s) = granaryOf s := by simp [updPic]
@[simp] theorem granaryOf_pageGive (c : Nat) (p : Pic) :
    granaryOf (pageGive c p s) = granaryOf s := by simp [pageGive]

@[simp] theorem granaryOf_pageTake (c : Nat) : granaryOf (pageTake c s) = granaryOf s := by
  unfold pageTake
  split <;> simp

@[simp] theorem granaryOf_pagesServe : granaryOf (pagesServe s) = granaryOf s := by
  refine granaryOf_foldl (fun t e => ?_) _ s
  (repeat' split) <;> simp

@[simp] theorem granaryOf_pagesReturn (c n : Nat) : granaryOf (pagesReturn c n s) = granaryOf s := by
  unfold pagesReturn
  split <;> simp

@[simp] theorem granaryOf_stopPicture (c : Nat) : granaryOf (stopPicture c s) = granaryOf s := by
  unfold stopPicture
  split <;> simp

@[simp] theorem granaryOf_abortCopies (c : Nat) : granaryOf (abortCopies c s) = granaryOf s := by simp [abortCopies]

@[simp] theorem granaryOf_stopNative (c : Nat) : granaryOf (stopNative c s) = granaryOf s := by
  unfold stopNative
  dsimp only
  (repeat' split) <;> simp

@[simp] theorem granaryOf_srcDrain (c : Nat) : granaryOf (srcDrain c s) = granaryOf s := by simp [srcDrain]
@[simp] theorem granaryOf_srcRegDisable (c v : Nat) :
    granaryOf (srcRegDisable c v s) = granaryOf s := by simp [srcRegDisable]

@[simp] theorem granaryOf_flowGiveUp (c : Nat) : granaryOf (flowGiveUp c s) = granaryOf s := by
  unfold flowGiveUp
  split <;> simp

@[simp] theorem granaryOf_srcMap (c : Cmd) : granaryOf (srcMap c s) = granaryOf s := by simp [srcMap]
@[simp] theorem granaryOf_mapCommit (c v : Nat) : granaryOf (mapCommit c v s) = granaryOf s := by simp [mapCommit]

/-! ## Ledgers -/

@[simp] theorem granaryOf_ringsEmpty : granaryOf (ringsEmpty s) = granaryOf s := by simp [ringsEmpty]
@[simp] theorem granaryOf_ledgerEmpty (kind i : Nat) :
    granaryOf (ledgerEmpty kind i s) = granaryOf s := by simp [ledgerEmpty]
@[simp] theorem granaryOf_ledgerClear (kind i : Nat) :
    granaryOf (ledgerClear kind i s) = granaryOf s := by simp [ledgerClear]
@[simp] theorem granaryOf_ledgerRepair : granaryOf (ledgerRepair s) = granaryOf s := by simp [ledgerRepair]
@[simp] theorem granaryOf_ledgerRead (c : Cmd) : granaryOf (ledgerRead c s) = granaryOf s := by simp [ledgerRead]

end Sys2Proof.Machine
end

section
/-!
PROOFS. Network time and the W-lanes leave the Granary as it is.
-/

namespace Sys2Proof.Machine

variable {s : State}

/-! ## Network time -/

@[simp] theorem granaryOf_setTimeState (new : Nat) :
    granaryOf (setTimeState new s) = granaryOf s := by simp [setTimeState]
@[simp] theorem granaryOf_enterHoldover : granaryOf (enterHoldover s) = granaryOf s := by simp [enterHoldover]
@[simp] theorem granaryOf_servoRefuse (θ : Int) : granaryOf (servoRefuse θ s) = granaryOf s := by simp [servoRefuse]
@[simp] theorem granaryOf_servoWithdraw : granaryOf (servoWithdraw s) = granaryOf s := by simp [servoWithdraw]
@[simp] theorem granaryOf_servoAccept (θ : Int) : granaryOf (servoAccept θ s) = granaryOf s := by simp [servoAccept]
@[simp] theorem granaryOf_servoDiscard (θ : Int) :
    granaryOf (servoDiscard θ s) = granaryOf s := by simp [servoDiscard]
@[simp] theorem granaryOf_servoSample : granaryOf (servoSample s) = granaryOf s := by simp [servoSample]
@[simp] theorem granaryOf_servoOff : granaryOf (servoOff s) = granaryOf s := by simp [servoOff]
@[simp] theorem granaryOf_freqWrite (reg v : Nat) : granaryOf (freqWrite reg v s) = granaryOf s := by simp [freqWrite]
@[simp] theorem granaryOf_setCap (c : Nat) (x : CapSt) : granaryOf (setCap c x s) = granaryOf s := by simp [setCap]
@[simp] theorem granaryOf_captureEdge (c : Nat) (rising : Bool) (err : Int) :
    granaryOf (captureEdge c rising err s) = granaryOf s := by simp [captureEdge]
@[simp] theorem granaryOf_showStamp (c t : Nat) (rising : Bool) :
    granaryOf (showStamp c t rising s) = granaryOf s := by simp [showStamp]
@[simp] theorem granaryOf_trigClear (t v : Nat) : granaryOf (trigClear t v s) = granaryOf s := by simp [trigClear]
@[simp] theorem granaryOf_trigDisarm (t : Nat) : granaryOf (trigDisarm t s) = granaryOf s := by simp [trigDisarm]
@[simp] theorem granaryOf_trigArm (t : Nat) : granaryOf (trigArm t s) = granaryOf s := by simp [trigArm]
@[simp] theorem granaryOf_trigCtrlWrite (t v : Nat) :
    granaryOf (trigCtrlWrite t v s) = granaryOf s := by simp [trigCtrlWrite]
@[simp] theorem granaryOf_trigFires (t : Nat) : granaryOf (trigFires t s) = granaryOf s := by simp [trigFires]
@[simp] theorem granaryOf_trigReach (t : Nat) : granaryOf (trigReach t s) = granaryOf s := by simp [trigReach]
@[simp] theorem granaryOf_trigStepped (t : Nat) : granaryOf (trigStepped t s) = granaryOf s := by simp [trigStepped]
@[simp] theorem granaryOf_triggersStepped : granaryOf (triggersStepped s) = granaryOf s := by simp [triggersStepped]

/-! ## W-lanes -/

@[simp] theorem granaryOf_setPllFreq (q : Nat) (b : Bool) (v : Nat) :
    granaryOf (setPllFreq q b v s) = granaryOf s := by simp [setPllFreq]
@[simp] theorem granaryOf_pllRelease (q : Nat) (b : Bool) :
    granaryOf (pllRelease q b s) = granaryOf s := by simp [pllRelease]
@[simp] theorem granaryOf_spareReturn (n : Nat) (event : Bool) :
    granaryOf (spareReturn n event s) = granaryOf s := by simp [spareReturn]
@[simp] theorem granaryOf_ethLink (n : Nat) (up : Bool) :
    granaryOf (ethLink n up s) = granaryOf s := by simp [ethLink]
@[simp] theorem granaryOf_setLaneState (n new : Nat) :
    granaryOf (setLaneState n new s) = granaryOf s := by simp [setLaneState]
@[simp] theorem granaryOf_laneCtrlKeep (n v : Nat) :
    granaryOf (laneCtrlKeep n v s) = granaryOf s := by simp [laneCtrlKeep]

@[simp] theorem granaryOf_laneStart (n : Nat) (b : Bool) : granaryOf (laneStart n b s) = granaryOf s := by
  unfold laneStart
  dsimp only
  (repeat' split) <;> simp

@[simp] theorem granaryOf_laneEnable (n v : Nat) : granaryOf (laneEnable n v s) = granaryOf s := by
  unfold laneEnable
  dsimp only
  (repeat' split) <;> simp

@[simp] theorem granaryOf_laneStop (n : Nat) : granaryOf (laneStop n s) = granaryOf s := by simp [laneStop]
@[simp] theorem granaryOf_laneDisable (n v : Nat) :
    granaryOf (laneDisable n v s) = granaryOf s := by simp [laneDisable]
@[simp] theorem granaryOf_laneLeaveLost (n : Nat) :
    granaryOf (laneLeaveLost n s) = granaryOf s := by simp [laneLeaveLost]
@[simp] theorem granaryOf_retimeOmit (n : Nat) : granaryOf (retimeOmit n s) = granaryOf s := by simp [retimeOmit]
@[simp] theorem granaryOf_tileSamples (c k : Nat) (row from_ count : Nat) :
    granaryOf (tileSamples c k row from_ count s).1 = granaryOf s := by simp [tileSamples]

@[simp] theorem granaryOf_tileNext (t : TileTx) : granaryOf (tileNext t s).1 = granaryOf s := by
  unfold tileNext
  split <;> simp

@[simp] theorem granaryOf_nextBlock (n : Nat) : granaryOf (nextBlock n s).1 = granaryOf s := by
  unfold nextBlock
  dsimp only
  (repeat' split) <;> simp

@[simp] theorem granaryOf_sendOutcome (n : Nat) (b : TxBlk) (o : Option (Nat × List Bool × LineEnd)) :
    granaryOf (sendOutcome n b s o) = granaryOf s := by
  unfold sendOutcome
  split <;> simp

@[simp] theorem granaryOf_sendBlock (n : Nat) (b : TxBlk) :
    granaryOf (sendBlock n b s) = granaryOf s := by simp [sendBlock]

@[simp] theorem granaryOf_blockTransmit (n : Nat) : granaryOf (blockTransmit n s) = granaryOf s := by
  unfold blockTransmit
  split <;> simp

@[simp] theorem granaryOf_setGenlock (n : Nat) (g : Bool) :
    granaryOf (setGenlock n g s) = granaryOf s := by simp [setGenlock]

@[simp] theorem granaryOf_spareSwitch (n : Nat) (toSpare : Bool) :
    granaryOf (spareSwitch n toSpare s) = granaryOf s := by
  unfold spareSwitch
  split <;> simp

/-! ## Composition -/

@[simp] theorem granaryOf_setWb (h k : Nat) (x : WbBuf) : granaryOf (setWb h k x s) = granaryOf s := by simp [setWb]

end Sys2Proof.Machine
end

section
/-!
PROOFS. Decode, heads and encode leave the Granary as it is: they meet uncorrectable words there and mark them sound (R367).
-/

namespace Sys2Proof.Machine

variable {s : State}

/-! ## Inputs of encode sessions -/

@[simp] theorem granaryOf_encRelease (f : Sealed) : granaryOf (encRelease f s) = granaryOf s := by simp [encRelease]

@[simp] theorem granaryOf_encReleaseOpt (f : Option Sealed) : granaryOf (encReleaseOpt f s) = granaryOf s := by
  unfold encReleaseOpt
  split <;> simp

@[simp] theorem granaryOf_encBegin (n : Nat) (i : EncFollow) (follow cut : Bool) :
    granaryOf (encBegin n i follow cut s) = granaryOf s := by simp [encBegin]

@[simp] theorem granaryOf_encFollowStart (n : Nat) (cut : Bool) :
    granaryOf (encFollowStart n cut s) = granaryOf s := by
  unfold encFollowStart
  dsimp only
  split <;> simp

@[simp] theorem granaryOf_encNoScan (h m : Nat) : granaryOf (encNoScan h m s) = granaryOf s := by simp [encNoScan]
@[simp] theorem granaryOf_encLine (h m upto : Nat) : granaryOf (encLine h m upto s) = granaryOf s := by simp [encLine]

@[simp] theorem granaryOf_encWbFailed (h m : Nat) : granaryOf (encWbFailed h m s) = granaryOf s := by
  unfold encWbFailed
  dsimp only
  rw [granaryOf_foldl]
  · simp
  · intro t n
    (repeat' split) <;> simp

/-! ## Decode -/

@[simp] theorem granaryOf_decodeError (c seq : Nat) (e : Nat × Nat) :
    granaryOf (decodeError c seq e s) = granaryOf s := by simp [decodeError]
@[simp] theorem granaryOf_workExhausted (c pool : Nat) :
    granaryOf (workExhausted c pool s) = granaryOf s := by simp [workExhausted]
@[simp] theorem granaryOf_engineBusy (e n : Nat) : granaryOf (engineBusy e n s) = granaryOf s := by simp [engineBusy]

@[simp] theorem granaryOf_spendEnt (c n : Nat) : granaryOf (spendEnt c n s) = granaryOf s := by
  unfold spendEnt
  split <;> simp

@[simp] theorem granaryOf_parseStop (c seq : Nat) (cls unit : Nat) (q : ParseAt) :
    granaryOf (parseStop c seq cls unit q s).1 = granaryOf s := by simp [parseStop]
@[simp] theorem granaryOf_bitstreamRead (c ent : Nat) (au : Au) (off n : Nat) :
    granaryOf (bitstreamRead c ent au off n s).1 = granaryOf s := by simp [bitstreamRead]

@[simp] theorem granaryOf_parseSlice (c : Nat) (p : Pic) (seq codec : Nat) (baseline : Bool) (sl : SliceObs)
    (q : ParseAt) :
    granaryOf (parseSlice c p seq codec baseline sl s q).1 = granaryOf s := by
  unfold parseSlice
  split <;> simp

@[simp] theorem granaryOf_parseSlices (c : Nat) (p : Pic) (seq codec : Nat) (baseline : Bool) (ls : List SliceObs)
    (q : ParseAt) :
    granaryOf (parseSlices c p seq codec baseline ls s q).1 = granaryOf s := by
  induction ls generalizing s q with
  | nil =>
    unfold parseSlices
    (repeat' split) <;> simp
  | cons l ls ih => simp [parseSlices, ih]

@[simp] theorem granaryOf_pageMoves (c : Nat) (moves : List (Option (Fin 8))) :
    granaryOf (pageMoves c moves s) = granaryOf s := by
  refine granaryOf_foldl (fun t m => ?_) _ s
  (repeat' split) <;> simp

@[simp] theorem granaryOf_parseDone (c : Nat) (p : Pic) (o : ParseObs) :
    granaryOf (parseDone c p o s) = granaryOf s := by simp [parseDone]

/-! ## The reads and writes of an encode session -/

@[simp] theorem granaryOf_encRead (n sp : Nat) (a len : Nat) :
    granaryOf (encRead n sp a len s).1 = granaryOf s := by simp [encRead]

@[simp] theorem granaryOf_encReadRow (n : Nat) (p : PicSrc) (r : Nat) :
    granaryOf (encReadRow n p r s).1 = granaryOf s := by
  unfold encReadRow
  refine granaryOf_foldlPair (fun q span => ?_) _ _
  exact granaryOf_encRead ..

@[simp] theorem granaryOf_encReadRefs (n : Nat) (refs : List (Nat × Nat)) :
    granaryOf (encReadRefs n refs s).1 = granaryOf s := by
  unfold encReadRefs
  refine granaryOf_foldlPair (fun q r => ?_) _ _
  exact granaryOf_encRead ..

@[simp] theorem granaryOf_encCacheMet (n : Nat) (ws : List Nat) :
    granaryOf (encCacheMet n ws s) = granaryOf s := by simp [encCacheMet]
@[simp] theorem granaryOf_encWriteWork (n : Nat) :
    granaryOf (encWriteWork n s) = granaryOf s := by simp [encWriteWork]

/-! ## Heads -/

@[simp] theorem granaryOf_eachHead (hs : List Nat) {f : Nat → State → State}
    (hf : ∀ c t, granaryOf (f c t) = granaryOf t) :
    granaryOf (eachHead hs f s) = granaryOf s := granaryOf_foldl (fun t h => hf h t) hs s

@[simp] theorem granaryOf_headokUpdate (h : Nat) :
    granaryOf (headokUpdate h s) = granaryOf s := by simp [headokUpdate]
@[simp] theorem granaryOf_setHeadState (h new : Nat) :
    granaryOf (setHeadState h new s) = granaryOf s := by simp [setHeadState]
@[simp] theorem granaryOf_deferAbandon (h : Nat) :
    granaryOf (deferAbandon h s) = granaryOf s := by simp [deferAbandon]
@[simp] theorem granaryOf_pllStart (h : Nat) : granaryOf (pllStart h s) = granaryOf s := by simp [pllStart]

@[simp] theorem granaryOf_dropUnbegun (h : Nat) : granaryOf (dropUnbegun h s) = granaryOf s := by
  unfold dropUnbegun
  dsimp only
  split <;> simp

@[simp] theorem granaryOf_retimeHead (h : Nat) : granaryOf (retimeHead h s) = granaryOf s := by simp [retimeHead]
@[simp] theorem granaryOf_headsStepped : granaryOf (headsStepped s) = granaryOf s := by simp [headsStepped]
@[simp] theorem granaryOf_pllUnlock (h : Nat) : granaryOf (pllUnlock h s) = granaryOf s := by simp [pllUnlock]
@[simp] theorem granaryOf_headStart (h : Nat) : granaryOf (headStart h s) = granaryOf s := by simp [headStart]
@[simp] theorem granaryOf_headDrainOne (h : Nat) :
    granaryOf (headDrainOne h s) = granaryOf s := by simp [headDrainOne]
@[simp] theorem granaryOf_headDrain (h : Nat) : granaryOf (headDrain h s) = granaryOf s := by simp [headDrain]
@[simp] theorem granaryOf_headOpen (h : Nat) (c : Cmd) :
    granaryOf (headOpen h c s) = granaryOf s := by simp [headOpen]
@[simp] theorem granaryOf_headEnableCmd (h : Nat) (c : Cmd) :
    granaryOf (headEnableCmd h c s) = granaryOf s := by simp [headEnableCmd]
@[simp] theorem granaryOf_headDisableCmd (h : Nat) (c : Cmd) :
    granaryOf (headDisableCmd h c s) = granaryOf s := by simp [headDisableCmd]
@[simp] theorem granaryOf_headRegEnable (h : Nat) :
    granaryOf (headRegEnable h s) = granaryOf s := by simp [headRegEnable]
@[simp] theorem granaryOf_headRegDisable (h : Nat) :
    granaryOf (headRegDisable h s) = granaryOf s := by simp [headRegDisable]
@[simp] theorem granaryOf_updScan (h : Nat) (f : Scan → Scan) :
    granaryOf (updScan h f s) = granaryOf s := by simp [updScan]

@[simp] theorem granaryOf_updScene (h i : Nat) (f : Layer → Layer) : granaryOf (updScene h i f s) = granaryOf s := by
  unfold updScene
  split <;> simp

@[simp] theorem granaryOf_sceneWrite (h off v : Nat) : granaryOf (sceneWrite h off v s) = granaryOf s := by
  unfold sceneWrite
  split <;> simp

@[simp] theorem granaryOf_showLead (h lead : Nat) : granaryOf (showLead h lead s) = granaryOf s := by simp [showLead]

@[simp] theorem granaryOf_measureLead (h : Nat) : granaryOf (measureLead h s) = granaryOf s := by
  unfold measureLead
  split <;> simp

@[simp] theorem granaryOf_fetchRow (hd i row : Nat) (urgent : Bool) (qs : List (Nat × Nat × Nat)) :
    granaryOf (fetchRow hd i row urgent qs s) = granaryOf s := by
  induction qs generalizing s with
  | nil => rfl
  | cons q qs ih => simp [fetchRow, ih]

@[simp] theorem granaryOf_burstAddr (h l row : Nat) :
    granaryOf (burstAddr h l row s) = granaryOf s := by simp [burstAddr]
@[simp] theorem granaryOf_layerOvertake (h l y : Nat) :
    granaryOf (layerOvertake h l y s) = granaryOf s := by simp [layerOvertake]

@[simp] theorem granaryOf_fetchRows (h l : Nat) (g : Geo) (urgent : Bool) (sc : Scan) (y : Nat) (p : PicSrc)
    (new : List Nat) :
    granaryOf (fetchRows h l g urgent sc y p new s) = granaryOf s := by
  unfold fetchRows
  split <;> simp

@[simp] theorem granaryOf_fetchLine (h l : Nat) (sc : Scan) : granaryOf (fetchLine h l sc s) = granaryOf s := by
  unfold fetchLine
  dsimp only
  (repeat' split) <;> simp

@[simp] theorem granaryOf_wbComplete (h k : Nat) (f : WbFrame) :
    granaryOf (wbComplete h k f s) = granaryOf s := by simp [wbComplete]

@[simp] theorem granaryOf_rasterAnchor (h : Nat) : granaryOf (rasterAnchor h s) = granaryOf s := by
  unfold rasterAnchor
  split <;> simp

@[simp] theorem granaryOf_cutScan (h : Nat) : granaryOf (cutScan h s) = granaryOf s := by simp [cutScan]
@[simp] theorem granaryOf_headStuck (cause h : Nat) :
    granaryOf (headStuck cause h s) = granaryOf s := by simp [headStuck]
@[simp] theorem granaryOf_directTiming (h : Nat) :
    granaryOf (directTiming h s) = granaryOf s := by simp [directTiming]

/-! ## Encode sessions -/

@[simp] theorem granaryOf_encShowNext (n : Nat) : granaryOf (encShowNext n s) = granaryOf s := by
  unfold encShowNext
  split <;> simp

@[simp] theorem granaryOf_encEnter (n : Nat) (c : Cmd) (level : Nat) :
    granaryOf (encEnter n c level s) = granaryOf s := by simp [encEnter]

@[simp] theorem granaryOf_encStart (c : Cmd) : granaryOf (encStart c s) = granaryOf s := by
  unfold encStart
  dsimp only
  (repeat' split) <;> simp

@[simp] theorem granaryOf_encDrain (n : Nat) : granaryOf (encDrain n s) = granaryOf s := by
  unfold encDrain
  dsimp only
  split <;> simp

@[simp] theorem granaryOf_encWrite (n a : Nat) (bs : List Byte) :
    granaryOf (encWrite n a bs s) = granaryOf s := by simp [encWrite]
@[simp] theorem granaryOf_encShowFree (n : Nat) : granaryOf (encShowFree n s) = granaryOf s := by simp [encShowFree]
@[simp] theorem granaryOf_encData (n : Nat) (bs : List Byte) :
    granaryOf (encData n bs s) = granaryOf s := by simp [encData]
@[simp] theorem granaryOf_encRecord (n start : Nat) (words : List Nat) :
    granaryOf (encRecord n start words s) = granaryOf s := by simp [encRecord]
@[simp] theorem granaryOf_encEmit (n kind : Nat) (last : Bool) (fill : List Byte) (p : EncPic) :
    granaryOf (encEmit n kind last fill p s).1 = granaryOf s := by simp [encEmit]
@[simp] theorem granaryOf_encRecCons (n v : Nat) : granaryOf (encRecCons n v s) = granaryOf s := by simp [encRecCons]
@[simp] theorem granaryOf_outputFull (n : Nat) : granaryOf (outputFull n s) = granaryOf s := by simp [outputFull]
@[simp] theorem granaryOf_encRoom (n : Nat) (p : EncPic) :
    granaryOf (encRoom n p s) = granaryOf s := by simp [encRoom]
@[simp] theorem granaryOf_sweepStep (n : Nat) (p : EncPic) :
    granaryOf (sweepStep n p s) = granaryOf s := by simp [sweepStep]
@[simp] theorem granaryOf_encPictureDone (n : Nat) (p : EncPic) :
    granaryOf (encPictureDone n p s) = granaryOf s := by simp [encPictureDone]
@[simp] theorem granaryOf_overClamp (n : Nat) (p : EncPic) :
    granaryOf (overClamp n p s) = granaryOf s := by simp [overClamp]
@[simp] theorem granaryOf_encRowEnds (n : Nat) (p : EncPic) :
    granaryOf (encRowEnds n p s) = granaryOf s := by simp [encRowEnds]

@[simp] theorem granaryOf_encRowDone (n : Nat) (p : EncPic) (o : RowObs) :
    granaryOf (encRowDone n p o s) = granaryOf s := by
  unfold encRowDone
  dsimp only
  split <;> simp

@[simp] theorem granaryOf_encEnd (n : Nat) : granaryOf (encEnd n s) = granaryOf s := by simp [encEnd]

end Sys2Proof.Machine
end

section
/-!
PROOFS. Check values, layers, steps of the clock and keys leave the Granary as it is.
-/

namespace Sys2Proof.Machine

variable {s : State}

/-! ## Check values and snapshots -/

@[simp] theorem granaryOf_addBytes (key reg n : Nat) :
    granaryOf (addBytes key reg n s) = granaryOf s := by simp [addBytes]
@[simp] theorem granaryOf_setTurns (e : Nat) (ts : List Nat) :
    granaryOf (setTurns e ts s) = granaryOf s := by simp [setTurns]
@[simp] theorem granaryOf_joinTurns (e tag : Nat) : granaryOf (joinTurns e tag s) = granaryOf s := by simp [joinTurns]
@[simp] theorem granaryOf_chkSet (x alg v : Nat) : granaryOf (chkSet x alg v s) = granaryOf s := by simp [chkSet]
@[simp] theorem granaryOf_chkFinish (c : Cmd) : granaryOf (chkFinish c s) = granaryOf s := by simp [chkFinish]

@[simp] theorem granaryOf_chkTurn (c : Cmd) : granaryOf (chkTurn c s) = granaryOf s := by
  unfold chkTurn
  dsimp only
  split <;> simp

@[simp] theorem granaryOf_chkContext (x reg v : Nat) :
    granaryOf (chkContext x reg v s) = granaryOf s := by simp [chkContext]

@[simp] theorem granaryOf_snapRows (x pitch w rows : Nat) (acc : List Byte) :
    granaryOf (snapRows x pitch w rows s acc).1 = granaryOf s := by
  induction rows generalizing s x acc with
  | zero => rfl
  | succ rows ih => simp [snapRows, ih]

@[simp] theorem granaryOf_snapFinish (c : Cmd) (h k : Nat) (header : List Byte) (active : List Byte)
    (pixels : List Byte) :
    granaryOf (snapFinish c h k header active pixels s) = granaryOf s := by
  unfold snapFinish
  dsimp only
  (repeat' split) <;> simp

@[simp] theorem granaryOf_snapDone (c : Cmd) : granaryOf (snapDone c s) = granaryOf s := by
  unfold snapDone
  dsimp only
  (repeat' split) <;> simp

@[simp] theorem granaryOf_snapTurn (c : Cmd) : granaryOf (snapTurn c s) = granaryOf s := by simp [snapTurn]

@[simp] theorem granaryOf_engineTurn (e : Nat) : granaryOf (engineTurn e s) = granaryOf s := by
  unfold engineTurn
  dsimp only
  (repeat' split) <;> simp

@[simp] theorem granaryOf_engineUntil (e tag n : Nat) : granaryOf (engineUntil e tag n s) = granaryOf s := by
  induction n generalizing s with
  | zero => rfl
  | succ n ih => simp [engineUntil, ih]

@[simp] theorem granaryOf_engineEnd (e tag : Nat) : granaryOf (engineEnd e tag s) = granaryOf s := by simp [engineEnd]

/-! ## Compression -/

@[simp] theorem granaryOf_cpxJournalStore (hi : Bool) (v : Nat) :
    granaryOf (cpxJournalStore hi v s) = granaryOf s := by simp [cpxJournalStore]

/-! ## Husk faults and layers -/

@[simp] theorem granaryOf_huskRepairs (gone : Nat → Nat → Bool) :
    granaryOf (huskRepairs gone s) = granaryOf s := by simp [huskRepairs]
@[simp] theorem granaryOf_huskRepair (kind ix : Nat) :
    granaryOf (huskRepair kind ix s) = granaryOf s := by simp [huskRepair]
@[simp] theorem granaryOf_damageRepair (kind ix : Nat) :
    granaryOf (damageRepair kind ix s) = granaryOf s := by simp [damageRepair]
@[simp] theorem granaryOf_stIgnored (off : Nat) : granaryOf (stIgnored off s) = granaryOf s := by simp [stIgnored]
@[simp] theorem granaryOf_touchTake (h l : Nat) : granaryOf (touchTake h l s) = granaryOf s := by simp [touchTake]

/-! ## Steps of the clock -/

@[simp] theorem granaryOf_clockStep (t : Nat) : granaryOf (clockStep t s) = granaryOf s := by simp [clockStep]
@[simp] theorem granaryOf_timeSet : granaryOf (timeSet s) = granaryOf s := by simp [timeSet]

/-! ## Touch scans and keys -/

@[simp] theorem granaryOf_put (k : Nat) (x : KeySt) (es : List Ev) (p : Proc) :
    granaryOf (p.put k x es).1 = granaryOf p.1 := by rw [Proc.put, granaryOf_setKey]
@[simp] theorem granaryOf_forcedRelease (q : TouchScan) (k : Nat) (p : Proc) :
    granaryOf (forcedRelease q k p).1 = granaryOf p.1 := by simp [forcedRelease]
@[simp] theorem granaryOf_keyBegin (q : TouchScan) (p : Proc) (k : Nat) :
    granaryOf (keyBegin q p k).1 = granaryOf p.1 := by simp [keyBegin]
@[simp] theorem granaryOf_modeStep (p : Proc) : granaryOf (modeStep p).1 = granaryOf p.1 := by simp [modeStep]
@[simp] theorem granaryOf_keyStarting (k : Nat) (x : KeySt) (p : Proc) :
    granaryOf (keyStarting k x p).1 = granaryOf p.1 := by simp [keyStarting]
@[simp] theorem granaryOf_driftStep (k : Nat) (n : PanelSt) (t d : Int) (x : KeySt) :
    granaryOf (driftStep k n t d x s).1 = granaryOf s := by simp [driftStep]
@[simp] theorem granaryOf_keyReleased (q : TouchScan) (overMark : Bool) (k : Nat) (x : KeySt) (p : Proc) :
    granaryOf (keyReleased q overMark k x p).1 = granaryOf p.1 := by simp [keyReleased]
@[simp] theorem granaryOf_keyTouched (q : TouchScan) (k : Nat) (x : KeySt) (p : Proc) :
    granaryOf (keyTouched q k x p).1 = granaryOf p.1 := by simp [keyTouched]
@[simp] theorem granaryOf_keyStep (q : TouchScan) (guards overMark : Bool) (p : Proc) (k : Nat) :
    granaryOf (keyStep q guards overMark p k).1 = granaryOf p.1 := by simp [keyStep]
@[simp] theorem granaryOf_keyArbitrate (s0 : State) (q : TouchScan) (p : Proc) (k : Nat) :
    granaryOf (keyArbitrate s0 q p k).1 = granaryOf p.1 := by simp [keyArbitrate]
@[simp] theorem granaryOf_showKey (q : TouchScan) (k : Nat) :
    granaryOf (showKey q k s) = granaryOf s := by simp [showKey]
@[simp] theorem granaryOf_applyKey (c : Cmd) : granaryOf (applyKey c s) = granaryOf s := by simp [applyKey]
@[simp] theorem granaryOf_armScans (ms : Nat) : granaryOf (armScans ms s) = granaryOf s := by simp [armScans]
@[simp] theorem granaryOf_applyPanel (c : Cmd) : granaryOf (applyPanel c s) = granaryOf s := by simp [applyPanel]

@[simp] theorem granaryOf_applyWaiting : granaryOf (applyWaiting s) = granaryOf s := by
  unfold applyWaiting
  dsimp only
  rw [granaryOf_with, granaryOf_foldl]
  intro t i
  (repeat' split) <;> simp

@[simp] theorem granaryOf_scanSteps (q : TouchScan) : granaryOf (scanSteps q s).1 = granaryOf s := by simp [scanSteps]

@[simp] theorem granaryOf_processScan : granaryOf (processScan s) = granaryOf s := by
  unfold processScan
  split <;> simp

@[simp] theorem granaryOf_keyConfig (c : Cmd) : granaryOf (keyConfig c s) = granaryOf s := by
  unfold keyConfig
  dsimp only
  (repeat' split) <;> simp

@[simp] theorem granaryOf_showCover (c : Option Nat) : granaryOf (showCover c s) = granaryOf s := by simp [showCover]
@[simp] theorem granaryOf_touchStart : granaryOf (touchStart s) = granaryOf s := by simp [touchStart]
@[simp] theorem granaryOf_sliceEnd (o : TouchObs) (f i : Nat) :
    granaryOf (sliceEnd o f i s) = granaryOf s := by simp [sliceEnd]
@[simp] theorem granaryOf_keyRaw (o : TouchObs) (q : TouchScan) (k : Nat) :
    granaryOf (keyRaw o q k s) = granaryOf s := by simp [keyRaw]

@[simp] theorem granaryOf_touchEnd (q : TouchScan) (o : TouchObs) : granaryOf (touchEnd q o s) = granaryOf s := by
  unfold touchEnd
  split <;> simp

end Sys2Proof.Machine
end

section
/-!
PROOFS. Guards, sheaves, drains and the link leave the Granary as it is: the check of a sheaf reads its entries alone (R132).
-/

namespace Sys2Proof.Machine

variable {s : State}

/-! ## Guard registers -/

@[simp] theorem granaryOf_guardAccepted (g : Nat) :
    granaryOf (guardAccepted g s) = granaryOf s := by simp [guardAccepted]
@[simp] theorem granaryOf_guardIgnored (g : Nat) :
    granaryOf (guardIgnored g s) = granaryOf s := by simp [guardIgnored]
@[simp] theorem granaryOf_guardCtrlWrite (g v : Nat) :
    granaryOf (guardCtrlWrite g v s) = granaryOf s := by simp [guardCtrlWrite]
@[simp] theorem granaryOf_guardStatusWrite (g v : Nat) :
    granaryOf (guardStatusWrite g v s) = granaryOf s := by simp [guardStatusWrite]
@[simp] theorem granaryOf_guardRegionWrite (g r : Nat) (sub v : Nat) :
    granaryOf (guardRegionWrite g r sub v s) = granaryOf s := by simp [guardRegionWrite]
@[simp] theorem granaryOf_guardRegWrite (off v : Nat) :
    granaryOf (guardRegWrite off v s) = granaryOf s := by simp [guardRegWrite]

/-! ## What a pair does -/

@[simp] theorem granaryOf_powerTurn (want : Nat) : granaryOf (powerTurn want s) = granaryOf s := by simp [powerTurn]
@[simp] theorem granaryOf_powerEffect (v : Nat) : granaryOf (powerEffect v s) = granaryOf s := by simp [powerEffect]

/-! ## Sheaves and DIRECT mode -/

@[simp] theorem granaryOf_setShfState (k v : Nat) :
    granaryOf (setShfState k v s) = granaryOf s := by simp [setShfState]
@[simp] theorem granaryOf_sheafLast (k reason : Nat) (entry detail : Nat) :
    granaryOf (sheafLast k reason entry detail s) = granaryOf s := by simp [sheafLast]
@[simp] theorem granaryOf_sheafLeave (k : Nat) : granaryOf (sheafLeave k s) = granaryOf s := by simp [sheafLeave]
@[simp] theorem granaryOf_sheafReject (k reason : Nat) (entry detail : Nat) :
    granaryOf (sheafReject k reason entry detail s) = granaryOf s := by simp [sheafReject]

@[simp] theorem granaryOf_sheafCheckDone : granaryOf (sheafCheckDone s) = granaryOf s := by
  unfold sheafCheckDone
  dsimp only
  (repeat' split) <;> simp

@[simp] theorem granaryOf_sheafOpen (k : Nat) : granaryOf (sheafOpen k s) = granaryOf s := by simp [sheafOpen]
@[simp] theorem granaryOf_sheafCancel (k : Nat) : granaryOf (sheafCancel k s) = granaryOf s := by simp [sheafCancel]
@[simp] theorem granaryOf_sheafSubmit (c : Cmd) : granaryOf (sheafSubmit c s) = granaryOf s := by simp [sheafSubmit]
@[simp] theorem granaryOf_directEnter (reg v : Nat) :
    granaryOf (directEnter reg v s) = granaryOf s := by simp [directEnter]
@[simp] theorem granaryOf_directRaster (pair : Bool) (off h : Nat) :
    granaryOf (directRaster pair off h s) = granaryOf s := by simp [directRaster]
@[simp] theorem granaryOf_directEffect (r : RegRow) (off : Nat) :
    granaryOf (directEffect r off s) = granaryOf s := by simp [directEffect]

@[simp] theorem granaryOf_stDirectWrite (off v : Nat) : granaryOf (stDirectWrite off v s) = granaryOf s := by
  unfold stDirectWrite
  split <;> simp

/-! ## Seals -/

@[simp] theorem granaryOf_srcOff (c : Nat) : granaryOf (srcOff c s) = granaryOf s := by
  unfold srcOff
  dsimp only
  (repeat' split) <;> simp

@[simp] theorem granaryOf_headOff (h : Nat) : granaryOf (headOff h s) = granaryOf s := by simp [headOff]
@[simp] theorem granaryOf_encOff (n : Nat) : granaryOf (encOff n s) = granaryOf s := by simp [encOff]
@[simp] theorem granaryOf_ringOff (u : Nat) : granaryOf (ringOff u s) = granaryOf s := by simp [ringOff]
@[simp] theorem granaryOf_drainComplete (kind u : Nat) :
    granaryOf (drainComplete kind u s) = granaryOf s := by simp [drainComplete]

/-! ## Drains and the link -/

@[simp] theorem granaryOf_linkEvent (up width gen : Nat) :
    granaryOf (linkEvent up width gen s) = granaryOf s := by simp [linkEvent]

end Sys2Proof.Machine
end

section
/-!
PROOFS. The commands of `keepsGranary`, one after the other, and what a read of the Granary gives after them.
-/

namespace Sys2Proof.Machine

variable {s : State}

/-! ## Commands that answer a next state -/

theorem granaryOf_next {x post : State} (hx : granaryOf x = granaryOf s)
    (e : (Host.Outcome.next x : Host.Outcome State Fault Refusal) = .next post) : granaryOf post = granaryOf s := by
  cases e; exact hx

section
variable {f : State → State} {post : State} (hf : ∀ u, granaryOf (f u) = granaryOf u)
include hf

theorem granaryOf_live (e : live s f = .next post) : granaryOf post = granaryOf s :=
  granaryOf_next (by rw [granaryOf_ite, hf, ite_self]) e

theorem granaryOf_liveAon (e : liveAon s f = .next post) : granaryOf post = granaryOf s :=
  granaryOf_next (by rw [granaryOf_ite, hf, ite_self]) e

theorem granaryOf_livePair {off : Nat} (e : livePair off s f = .next post) : granaryOf post = granaryOf s :=
  granaryOf_next (by rw [granaryOf_ite, hf, ite_self]) e

theorem granaryOf_liveLcs (e : liveLcs s f = .next post) : granaryOf post = granaryOf s :=
  granaryOf_next (by rw [granaryOf_ite, hf, ite_self]) e

end

section
variable {post : State}

theorem granaryOf_execHuskPendingTimeout (off : Nat) (e : execHuskPendingTimeout off s = .next post) :
    granaryOf post = granaryOf s := by
  refine granaryOf_livePair (fun u => ?_) e
  split <;> simp

theorem granaryOf_execLcsRequestDone (fuseOk : Bool) (e : execLcsRequestDone fuseOk s = .next post) :
    granaryOf post = granaryOf s := by
  refine granaryOf_liveLcs (fun u => ?_) e
  split <;> simp

theorem granaryOf_execDebugCoreControl (core : Fin 4) (op : CoreOp)
    (e : execDebugCoreControl core op s = .next post) : granaryOf post = granaryOf s := by
  refine granaryOf_live (fun u => ?_) e
  dsimp only
  (repeat' split) <;> simp

theorem granaryOf_execRowDisturbThrottleEnd (port : Fin 24) (e : execRowDisturbThrottleEnd port s = .next post) :
    granaryOf post = granaryOf s := by
  refine granaryOf_live (fun u => ?_) e
  split <;> simp

theorem granaryOf_execGranaryScrub (ecc : Ecc) (e : execGranaryScrub ecc s = .next post) :
    granaryOf post = granaryOf s := by
  refine granaryOf_live (fun u => ?_) e
  dsimp only
  (repeat' split) <;> simp

theorem granaryOf_execCalibrationComplete (item : Fin 73) (o : CalObs)
    (e : execCalibrationComplete item o s = .next post) : granaryOf post = granaryOf s := by
  refine granaryOf_live (fun u => ?_) e
  split <;> simp

theorem granaryOf_execPowerDown (e : execPowerDown s = .next post) : granaryOf post = granaryOf s := by
  refine granaryOf_next ?_ e
  (repeat' split) <;> simp

theorem granaryOf_execThermalStageFall (e : execThermalStageFall s = .next post) : granaryOf post = granaryOf s := by
  refine granaryOf_live (fun u => ?_) e
  split
  · rfl
  · split
    · rfl
    · simp only [granaryOf_applyStage, granaryOf_with, granaryOf_setFld, granaryOf_waitElapsed]

theorem granaryOf_execThermalCritical (e : execThermalCritical s = .next post) : granaryOf post = granaryOf s := by
  refine granaryOf_live (fun u => ?_) e
  split <;> simp

theorem granaryOf_execCompletionWrite (tag : Fin 4096) (linkOk : Bool)
    (e : execCompletionWrite tag linkOk s = .next post) : granaryOf post = granaryOf s := by
  refine granaryOf_live (fun u => ?_) e
  (repeat' split) <;> simp

theorem granaryOf_execJitterDeadline (flow : Fin 1024) (e : execJitterDeadline flow s = .next post) :
    granaryOf post = granaryOf s := by
  refine granaryOf_live (fun u => ?_) e
  (repeat' split) <;> simp

theorem granaryOf_execPathSilentTimeout (flow : Fin 1024) (pathB : Bool)
    (e : execPathSilentTimeout flow pathB s = .next post) : granaryOf post = granaryOf s := by
  refine granaryOf_live (fun u => ?_) e
  dsimp only
  (repeat' split) <;> simp

theorem granaryOf_execRtcpMapExpire (ch : Fin 96) (e : execRtcpMapExpire ch s = .next post) :
    granaryOf post = granaryOf s := by
  refine granaryOf_live (fun u => ?_) e
  dsimp only
  (repeat' split) <;> simp

theorem granaryOf_execCaptureFifoRead (input : Fin 17) (e : execCaptureFifoRead input s = .next post) :
    granaryOf post = granaryOf s := by
  refine granaryOf_live (fun u => ?_) e
  dsimp only
  (repeat' split) <;> simp

theorem granaryOf_execTriggerPulseEnd (t : Fin 12) (e : execTriggerPulseEnd t s = .next post) :
    granaryOf post = granaryOf s := by
  refine granaryOf_liveAon (fun u => ?_) e
  split <;> simp

theorem granaryOf_execGenlockTimeout (n : Fin 32) (e : execGenlockTimeout n s = .next post) :
    granaryOf post = granaryOf s := by
  refine granaryOf_live (fun u => ?_) e
  split <;> simp

theorem granaryOf_execLaneRxSpanRead (n : Fin 32) (e : execLaneRxSpanRead n s = .next post) :
    granaryOf post = granaryOf s := by
  refine granaryOf_live (fun u => ?_) e
  split <;> simp

theorem granaryOf_execSpareCompareTimeout (n : Fin 32) (e : execSpareCompareTimeout n s = .next post) :
    granaryOf post = granaryOf s := by
  refine granaryOf_live (fun u => ?_) e
  split <;> simp

theorem granaryOf_execDecodeWorkExhausted (ch : Fin 96) (pix : Bool)
    (e : execDecodeWorkExhausted ch pix s = .next post) : granaryOf post = granaryOf s := by
  refine granaryOf_live (fun u => ?_) e
  dsimp only
  (repeat' split) <;> simp

theorem granaryOf_execEntropyParseDone (ch : Fin 96) (o : ParseObs) (e : execEntropyParseDone ch o s = .next post) :
    granaryOf post = granaryOf s := by
  refine granaryOf_live (fun v => granaryOf_linked _ fun u => ?_) e
  dsimp only
  (repeat' split) <;> simp

theorem granaryOf_execFetchBurst (h : Fin 24) (l : Fin 16) (o : BurstObs) (e : execFetchBurst h l o s = .next post) :
    granaryOf post = granaryOf s := by
  refine granaryOf_live (fun u => ?_) e
  dsimp only
  (repeat' split) <;> simp

theorem granaryOf_execWritebackComplete (h : Fin 24) (e : execWritebackComplete h s = .next post) :
    granaryOf post = granaryOf s := by
  refine granaryOf_live (fun u => ?_) e
  split <;> simp

theorem granaryOf_execPrefetchStart (h : Fin 24) (e : execPrefetchStart h s = .next post) :
    granaryOf post = granaryOf s := by
  refine granaryOf_live (fun u => ?_) e
  split <;> simp

theorem granaryOf_execActiveScanCut (h : Fin 24) (e : execActiveScanCut h s = .next post) :
    granaryOf post = granaryOf s := by
  refine granaryOf_live (fun u => ?_) e
  split <;> simp

theorem granaryOf_execEncRowStart (p : Fin 2) (e : execEncRowStart p s = .next post) :
    granaryOf post = granaryOf s := by
  refine granaryOf_live (fun u => ?_) e
  dsimp only
  (repeat' split) <;> simp

theorem granaryOf_execEncRowCoded (p : Fin 2) (o : RowObs) (e : execEncRowCoded p o s = .next post) :
    granaryOf post = granaryOf s := by
  refine granaryOf_live (fun v => granaryOf_linked _ fun u => ?_) e
  dsimp only
  (repeat' split) <;> simp

theorem granaryOf_execTouchScanEnd (o : TouchObs) (e : execTouchScanEnd o s = .next post) :
    granaryOf post = granaryOf s := by
  refine granaryOf_live (fun u => ?_) e
  split <;> simp

theorem granaryOf_execPciePerstN (e : execPciePerstN s = .next post) : granaryOf post = granaryOf s := by
  refine granaryOf_next ?_ e
  (repeat' split) <;> simp

theorem granaryOf_execPcieLinkUp (width : Fin 16) (gen : Fin 16) (e : execPcieLinkUp width gen s = .next post) :
    granaryOf post = granaryOf s := by
  refine granaryOf_next ?_ e
  split <;> simp

/-- The commands that store nothing in the Granary leave it as it is. -/
theorem exec_granaryOf (c : Instr) (kept : keepsGranary c = true) (e : exec c s = .next post) :
    granaryOf post = granaryOf s := by
  cases c with
  | huskPendingTimeout => exact granaryOf_execHuskPendingTimeout _ e
  | lcsRequestDone => exact granaryOf_execLcsRequestDone _ e
  | debugCoreControl => exact granaryOf_execDebugCoreControl _ _ e
  | rowDisturbThrottleEnd => exact granaryOf_execRowDisturbThrottleEnd _ e
  | granaryScrub => exact granaryOf_execGranaryScrub _ e
  | calibrationComplete => exact granaryOf_execCalibrationComplete _ _ e
  | powerDown => exact granaryOf_execPowerDown e
  | thermalStageFall => exact granaryOf_execThermalStageFall e
  | thermalCritical => exact granaryOf_execThermalCritical e
  | completionWrite => exact granaryOf_execCompletionWrite _ _ e
  | jitterDeadline => exact granaryOf_execJitterDeadline _ e
  | pathSilentTimeout => exact granaryOf_execPathSilentTimeout _ _ e
  | rtcpMapExpire => exact granaryOf_execRtcpMapExpire _ e
  | captureFifoRead => exact granaryOf_execCaptureFifoRead _ e
  | triggerPulseEnd => exact granaryOf_execTriggerPulseEnd _ e
  | genlockTimeout => exact granaryOf_execGenlockTimeout _ e
  | laneRxSpanRead => exact granaryOf_execLaneRxSpanRead _ e
  | spareCompareTimeout => exact granaryOf_execSpareCompareTimeout _ e
  | decodeWorkExhausted => exact granaryOf_execDecodeWorkExhausted _ _ e
  | entropyParseDone => exact granaryOf_execEntropyParseDone _ _ e
  | fetchBurst => exact granaryOf_execFetchBurst _ _ _ e
  | writebackComplete => exact granaryOf_execWritebackComplete _ e
  | prefetchStart => exact granaryOf_execPrefetchStart _ e
  | activeScanCut => exact granaryOf_execActiveScanCut _ e
  | encRowStart => exact granaryOf_execEncRowStart _ e
  | encRowCoded => exact granaryOf_execEncRowCoded _ _ e
  | touchScanEnd => exact granaryOf_execTouchScanEnd _ e
  | pciePerstN => exact granaryOf_execPciePerstN e
  | pcieLinkUp => exact granaryOf_execPcieLinkUp _ _ e
  | huskVWrite =>
    simp only [exec, execHuskVWrite] at e
    exact granaryOf_livePair (fun u => by simp) e
  | lcsRequest | debugAuth =>
    simp only [exec, execLcsRequest, execDebugAuth] at e
    exact granaryOf_liveLcs (fun u => by simp) e
  | demalStall =>
    simp only [exec, execDemalStall] at e
    exact granaryOf_live (fun u => by simp) e
  | dmcTrain | dmcTrainDone | refreshCatchupEnter | refreshIssue | refabComplete | dmcTrackRun
  | rowDisturbDetect | rdWindowReset | selfRefreshIdleEntry | selfRefreshExit =>
    simp only [exec, execDmcTrain, execDmcTrainDone, execRefreshCatchupEnter, execRefreshIssue, execRefabComplete,
      execDmcTrackRun, execRowDisturbDetect, execRdWindowReset, execSelfRefreshIdleEntry, execSelfRefreshExit] at e
    exact granaryOf_live (fun u => by simp) e
  | trimRun | trimCmd =>
    simp only [exec, execTrimRun, execTrimCmd] at e
    exact granaryOf_live (fun u => by simp) e
  | trmTimeRead =>
    simp only [exec, execTrmTimeRead] at e
    exact granaryOf_liveAon (fun u => by simp) e
  | supplyMonitorSample | pmbusStatusPoll | thermalSample | avsSample | avsRaiseAck =>
    simp only [exec, execSupplyMonitorSample, execPmbusStatusPoll, execThermalSample, execAvsSample,
      execAvsRaiseAck] at e
    exact granaryOf_live (fun u => by simp) e
  | ringEnable | ringDisable | sqDoorbell | cqDoorbell | eqDoorbell | descriptorFetch | nop | barrier
  | evtPinAck =>
    simp only [exec, execRingEnable, execRingDisable, execSqDoorbell, execCqDoorbell, execEqDoorbell,
      execDescriptorFetch, execNop, execBarrier, execEvtPinAck] at e
    exact granaryOf_live (fun u => by simp) e
  | tickRunStart | tickRunStop | tickTimebaseWrite | guardPmWrite | tckNRead =>
    simp only [exec, execTickRunStart, execTickRunStop, execTickTimebaseWrite, execGuardPmWrite, execTckNRead] at e
    exact granaryOf_live (fun u => by simp) e
  | ethFrameReceive | flowAdd | flowDel | flowCountsRead | depacketise | netRxPost | netTx | netTxSent =>
    simp only [exec, execEthFrameReceive, execFlowAdd, execFlowDel, execFlowCountsRead, execDepacketise,
      execNetRxPost, execNetTx, execNetTxSent] at e
    exact granaryOf_live (fun u => by simp) e
  | srcOpen | srcRegEnable | srcClose | srcRegDisable | srcMap | rtcpMapCommit | vdcSlotCountsRead =>
    simp only [exec, execSrcOpen, execSrcRegEnable, execSrcClose, execSrcRegDisable, execSrcMap, execRtcpMapCommit,
      execVdcSlotCountsRead] at e
    exact granaryOf_live (fun u => by simp) e
  | ledgerRead =>
    simp only [exec, execLedgerRead] at e
    exact granaryOf_live (fun u => by simp) e
  | servoSample | servoDisable | freqWrite | timNowRead | timURead | triggerArm | triggerDisarm =>
    simp only [exec, execServoSample, execServoDisable, execFreqWrite, execTimNowRead, execTimURead,
      execTriggerArm, execTriggerDisarm] at e
    exact granaryOf_live (fun u => by simp) e
  | holdoverTimeout | captureEdge =>
    simp only [exec, execHoldoverTimeout, execCaptureEdge] at e
    exact granaryOf_liveAon (fun u => by simp) e
  | laneEnable | laneDisable | quadPllLock | cdrLock | cdrLoss | ethLinkChange | blindPeriodEnd | blockTransmit
  | laneFarSpanRead | spareSwitch =>
    simp only [exec, execLaneEnable, execLaneDisable, execQuadPllLock, execCdrLock, execCdrLoss, execEthLinkChange,
      execBlindPeriodEnd, execBlockTransmit, execLaneFarSpanRead, execSpareSwitch] at e
    exact granaryOf_live (fun u => by simp) e
  | pixelPllLock | pixelPllUnlock | pllLockTimeout | headCtl | headRegEnable | headRegDisable
  | headStuckNoFrame | headLastNRead | headFirstNRead =>
    simp only [exec, execPixelPllLock, execPixelPllUnlock, execPllLockTimeout, execHeadCtl, execHeadRegEnable,
      execHeadRegDisable, execHeadStuckNoFrame, execHeadLastNRead, execHeadFirstNRead] at e
    exact granaryOf_live (fun u => by simp) e
  | encStart | encStop | encRecConsWrite | encNextNRead =>
    simp only [exec, execEncStart, execEncStop, execEncRecConsWrite, execEncNextNRead] at e
    exact granaryOf_live (fun u => by simp) e
  | chkJob | chkContextWrite | snapshot | chkJobComplete | snapshotComplete =>
    simp only [exec, execChkJob, execChkContextWrite, execSnapshot, execChkJobComplete, execSnapshotComplete] at e
    exact granaryOf_live (fun u => by simp) e
  | cpxJob | cpxJournalWrite =>
    simp only [exec, execCpxJob, execCpxJournalWrite] at e
    exact granaryOf_live (fun u => by simp) e
  | layerTouch =>
    simp only [exec, execLayerTouch] at e
    exact granaryOf_live (fun u => by simp) e
  | timeSet =>
    simp only [exec, execTimeSet] at e
    exact granaryOf_live (fun u => by simp) e
  | keyScanProcess | keyConfig =>
    simp only [exec, execKeyScanProcess, execKeyConfig] at e
    exact granaryOf_live (fun u => by simp) e
  | triggerFire =>
    simp only [exec, execTriggerFire] at e
    exact granaryOf_liveAon (fun u => by simp) e
  | guardRegWrite | guardSyncRead =>
    simp only [exec, execGuardRegWrite, execGuardSyncRead] at e
    exact granaryOf_live (fun u => by simp) e
  | powerRequest =>
    simp only [exec, execPowerRequest] at e
    exact granaryOf_live (fun u => by simp) e
  | sheafCheckDone | sheafSlotOpen | sheafCancel | sheafSubmit | shfAppliedRead | directEnter | stDirectWrite =>
    simp only [exec, execSheafCheckDone, execSheafSlotOpen, execSheafCancel, execSheafSubmit, execShfAppliedRead,
      execDirectEnter, execStDirectWrite] at e
    exact granaryOf_live (fun u => by simp) e
  | unitDrainComplete =>
    simp only [exec, execUnitDrainComplete] at e
    exact granaryOf_live (fun u => by simp) e
  | _ => cases kept

end

/-- Settles O7: no command of the list reaches a store to the Granary, so that a read of it gives the same bytes. -/
theorem commandsKeepTheGranary : Obligations.CommandsKeepTheGranary := by
  intro c s t kept e a n
  exact gRead_eq_of_granaryOf_eq (exec_granaryOf c kept e) a n

end Sys2Proof.Machine
end

section
/-!
PROOFS. SRC_MAP can raise an event: it gives up the channel's bound flow, whose held packets are released (R222), and a
packet whose descriptor holds an uncorrectable word of the Granary is reported (R226, R367).
-/

namespace Sys2Proof.Machine

/-- SRC_MAP of channel 0 to Vestibule flow 5, started under tag 0 (R161, R221). -/
def mapCommand : Cmd := { tag := 0, sq := 0, index := 0, words := [0x12000000, 0, 0, 5] }

/-- A packet held under descriptor 0. -/
def heldPacket : Pkt := { seq := 1, rx := 0, at_ := 0, rtp := 0, marker := true, desc := 0, payload := [0x65] }

/-- Channel 0 is RUNNING with flow 0 bound to it; the flow holds a packet, the first word of whose descriptor is
uncorrectable (R367); code 0x9D signals MSI-X vector 0, which is masked as after reset (R173). -/
def mapOverBadPacket : State :=
  { State.reset with
    regs := [(R.EVT_CODE 0x9D, 0x40000000), (R.SRC_STATE 0, 2)]
    flows := [(0, { chan := some 0, next := some 0, held := [heldPacket] })]
    cell := { badWords := [descAddr 0 0] }
    rng := { cmds := [mapCommand] } }

/-- The command reports the word, so that vector 0 becomes pending in the MSI-X table's pending bits. -/
theorem srcMap_mapOverBadPacket_bar2 : ∃ t, exec (.srcMap 0) mapOverBadPacket = .next t ∧ t.bar2 = [(0x9000, 1)] :=
  ⟨_, rfl, by decide⟩

/-- Refutes O6: SRC_MAP counts among the commands that raise no event, but one that meets an uncorrectable descriptor of a
held packet raises EV_ECC_UNCORRECTED, whose vector becomes pending in the MSI-X table. -/
theorem not_commandsThatStoreNothingKeepMemories : ¬ Obligations.CommandsThatStoreNothingKeepMemories := by
  unfold Obligations.CommandsThatStoreNothingKeepMemories
  rintro ⟨keeps, -⟩
  obtain ⟨t, run, pending⟩ := srcMap_mapOverBadPacket_bar2
  obtain ⟨-, -, kept, -, -⟩ := keeps (.srcMap 0) mapOverBadPacket t rfl run
  have empty : t.bar2 = [] := kept
  rw [pending] at empty
  exact List.cons_ne_nil _ _ empty

end Sys2Proof.Machine
end

section
/-!
PROOFS. Demal: how its state changes, what a change leaves unchanged, and that every key is OFF once it has left RUNNING
(R19, R21, R407, R435).
-/

namespace Sys2Proof.Machine

variable {s : State}

/-! ## Registers that no event reaches -/

theorem eventReg_low {off : Nat} (h : off < 0x82800) : eventReg off = false := by
  rw [← Bool.not_eq_true, eventReg_iff]; omega

theorem eventReg_touch {off : Nat} (lo : 0xA1424 ≤ off) (hi : off < 0x400000) : eventReg off = false := by
  rw [← Bool.not_eq_true, eventReg_iff]; omega

theorem fld_raise (ev : Ev) (hc : ev.code < 256) (s : State) {off : Nat} (ho : eventReg off = false) (hi lo : Nat) :
    fld (raise ev s) off hi lo = fld s off hi lo := by rw [fld, rd_raise ev hc s ho, fld]

theorem demalState_raise (ev : Ev) (hc : ev.code < 256) (s : State) : demalState (raise ev s) = demalState s :=
  fld_raise ev hc s (eventReg_low (by decide)) 3 0

/-! ## The change of SYS_DEMAL.STATE -/

theorem setDemal_of_not_running {new : Nat} (h : demalState s ≠ 2) :
    setDemal new s = raise { code := 5, sub := new } (setFld s R.SYS_DEMAL 3 0 new) := by
  rw [setDemal, if_neg (fun running => h running.1)]

theorem setDemal_of_leaving {new : Nat} (h : demalState s = 2) (hn : new ≠ 2) :
    setDemal new s = raise { code := 5, sub := new } (setFld (demalLeaves new s) R.SYS_DEMAL 3 0 new) := by
  rw [setDemal, if_pos ⟨h, hn⟩]

theorem demalState_setDemal {new : Nat} (hn : new < 16) (s : State) : demalState (setDemal new s) = new := by
  rw [setDemal, demalState_raise _ (show 5 < 256 by decide), demalState, fld_setFld_same _ _ _ _ _ (by decide) (by decide)]
  exact Nat.mod_eq_of_lt hn

/-- While Demal does not run, a change of its state touches nothing but its register and what an event may change. -/
theorem rd_setDemal_other {new off : Nat} (h : demalState s ≠ 2) (ho : eventReg off = false) (hd : off ≠ R.SYS_DEMAL) :
    rd (setDemal new s) off = rd s off := by
  rw [setDemal_of_not_running h, rd_raise _ (show 5 < 256 by decide) _ ho, rd_setFld_other _ _ _ _ hd]

theorem scrubAt_raise (ev : Ev) (hc : ev.code < 256) (s : State) : (raise ev s).cell.scrubAt = s.cell.scrubAt := by
  rw [(raise_events ev hc s).rest]

/-! ## The initialisation of the Granary -/

/-- The state in which the Granary has been initialised and the scrubber stands at its first word (R368, R369). -/
def granaryReady (s : State) : State :=
  setFlag { s with cell := { s.cell with scrubAt := 0, scrubFrom := s.elapsed } } R.GRN_STATUS 0 true

theorem exec_granaryInitDone (run : running s = true) (init : flag s R.GRN_STATUS 0 = false) :
    exec .granaryInitDone s =
      .next (if demalState s = 0 then setDemal 1 (granaryReady s) else granaryReady s) := by
  have state : demalState (granaryReady s) = demalState s := fld_setFld_other _ _ _ _ _ _ (by decide)
  show execGranaryInitDone s = _
  rw [execGranaryInitDone, live, if_pos run]
  simp only [init, Bool.false_eq_true, if_false]
  rw [← state]
  rfl

theorem flag_granaryReady (s : State) : flag (granaryReady s) R.GRN_STATUS 0 = true :=
  flag_setFlag_same _ _ _ _ (by decide)

theorem gRead_of_granary_nil (h : s.granary = []) (a n : Nat) : gRead s a n = List.replicate n 0 := by
  rw [gRead, h]
  induction n generalizing a with
  | zero => rfl
  | succ n ih => rw [smGetRange, ih, List.replicate_succ]; rfl

/-! ## The boot -/

theorem exec_demalBootDone (copyA copyB : List Byte) (run : running s = true) (verifying : demalState s = 1)
    (init : flag s R.GRN_STATUS 0 = true) :
    exec (.demalBootDone copyA copyB) s =
      .next (if imageRuns s copyA then demalLoad 0 copyA s
        else if imageRuns s copyB then demalLoad 1 copyB s else setDemal 3 s) := by
  show execDemalBootDone copyA copyB s = _
  rw [execDemalBootDone, live, if_pos run]
  simp [verifying, init]

/-- The state in which an image stands in the Hearth memory and Demal is about to run it (R435). -/
def demalLoaded (copy : Nat) (img : List Byte) (s : State) : State :=
  let k := imageKey s (bootSlots s) img
  let s := gWrite s 0x01C80000 ((img.drop 0x100).take (imageLen img))
  let s := setFld s R.SYS_DEMAL 31 16 (bits (ofLe ((img.drop 4).take 4)) 31 16)
  let s := wr s R.LCS_BOOT (k.getD 15 * 256 + ofBool (k.isSome && imageSigned img) * 16 + copy)
  { s with lcs := { s.lcs with demalEntry := ofLe ((img.drop 12).take 4) } }

theorem demalLoad_eq (copy : Nat) (img : List Byte) (s : State) : demalLoad copy img s = setDemal 2 (demalLoaded copy img s) := rfl

theorem bits_mod_of_lt (w hi lo : Nat) : bits w hi lo % 2 ^ (hi + 1 - lo) = bits w hi lo :=
  Nat.mod_eq_of_lt (bits_lt w hi lo)

theorem rd_withEntry (s : State) (e off : Nat) : rd { s with lcs := { s.lcs with demalEntry := e } } off = rd s off := rfl

theorem rd_gWrite (s : State) (a : Nat) (bs : List Byte) (off : Nat) : rd (gWrite s a bs) off = rd s off := rfl

theorem demalState_demalLoaded (copy : Nat) (img : List Byte) (s : State) :
    demalState (demalLoaded copy img s) = demalState s := by
  have boot : R.SYS_DEMAL ≠ R.LCS_BOOT := by decide
  rw [demalState, demalLoaded, fld, rd_withEntry, rd_wr_other _ _ boot, ← fld,
    fld_setFld_below _ _ _ _ _ _ _ (by decide) (by decide) (by decide) (by decide), fld, rd_gWrite, demalState, fld]

theorem version_demalLoaded (copy : Nat) (img : List Byte) (s : State) :
    fld (demalLoaded copy img s) R.SYS_DEMAL 31 16 = bits (ofLe ((img.drop 4).take 4)) 31 16 := by
  have boot : R.SYS_DEMAL ≠ R.LCS_BOOT := by decide
  rw [demalLoaded, fld, rd_withEntry, rd_wr_other _ _ boot, ← fld,
    fld_setFld_same _ _ _ _ _ (by decide) (by decide), bits_mod_of_lt]

theorem copy_demalLoaded {copy : Nat} (hc : copy < 2) (img : List Byte) (s : State) :
    fld (demalLoaded copy img s) R.LCS_BOOT 0 0 = copy := by
  rw [demalLoaded, fld, rd_withEntry, rd_wr_same]
  simp only [bits]
  omega

/-- A loaded image runs with what the load recorded: VERSION, LCS_BOOT, the entry and the bytes it stored (R435). -/
theorem demalLoad_spec {copy : Nat} (hc : copy < 2) (img : List Byte) (verifying : demalState s = 1) :
    demalState (demalLoad copy img s) = 2 ∧
      fld (demalLoad copy img s) R.SYS_DEMAL 31 16 = bits (ofLe ((img.drop 4).take 4)) 31 16 ∧
      fld (demalLoad copy img s) R.LCS_BOOT 0 0 = copy ∧
      (demalLoad copy img s).lcs.demalEntry = ofLe ((img.drop 12).take 4) ∧
      (demalLoad copy img s).granary = (gWrite s 0x01C80000 ((img.drop 0x100).take (imageLen img))).granary := by
  have stopped : demalState (demalLoaded copy img s) ≠ 2 := by rw [demalState_demalLoaded, verifying]; decide
  rw [demalLoad_eq]
  refine ⟨demalState_setDemal (by decide) _, ?_, ?_, ?_, ?_⟩
  · rw [setDemal_of_not_running stopped, fld_raise _ (show 5 < 256 by decide) _ (eventReg_low (by decide)),
      fld_setFld_above _ _ _ _ _ _ _ (by decide) (by decide) (by decide), version_demalLoaded]
  · rw [fld, rd_setDemal_other stopped (eventReg_low (by decide)) (by decide)]
    exact copy_demalLoaded hc img s
  · rw [setDemal_of_not_running stopped, raise_lcs _ (show 5 < 256 by decide)]
    rfl
  · exact granaryOf_setDemal 2

/-! ## Every key OFF -/

/-- Key k is OFF: its BASE, HELD and STATE read 0 (R407). -/
def keyIsOff (s : State) (k : Nat) : Prop :=
  rd s (R.TCH_K_BASE k) = 0 ∧ rd s (R.TCH_K_HELD k) = 0 ∧ fld s (R.TCH_K_STATE k) 2 0 = 0

/-- One key's registers are set to OFF. -/
def keyOff (s : State) (k : Nat) : State :=
  wr (wr (wr s (R.TCH_K_STATE k) (rd s (R.TCH_K_STATE k) &&& 0xFFF8)) (R.TCH_K_BASE k) 0) (R.TCH_K_HELD k) 0

theorem keyIsOff_of_rd_eq {t : State} {k : Nat} (off : keyIsOff s k)
    (h : ∀ o, 0xD0400 ≤ o → o < 0xD0410 + k * 0x10 → rd t o = rd s o) : keyIsOff t k := by
  obtain ⟨base, held, state⟩ := off
  refine ⟨?_, ?_, ?_⟩
  · rw [h _ (by unfold R.TCH_K_BASE; omega) (by unfold R.TCH_K_BASE; omega), base]
  · rw [h _ (by unfold R.TCH_K_HELD; omega) (by unfold R.TCH_K_HELD; omega), held]
  · rw [fld, h _ (by unfold R.TCH_K_STATE; omega) (by unfold R.TCH_K_STATE; omega), ← fld, state]

theorem bits_and_state (w : Nat) : bits ((w &&& 0xFFF8) % 2 ^ 32) 2 0 = 0 := by
  have low : (w &&& 0xFFF8) % 2 ^ 3 = 0 := by
    rw [Nat.and_mod_two_pow]
    exact Nat.and_zero _
  simp only [bits]
  omega

theorem keyIsOff_keyOff_same (s : State) (k : Nat) : keyIsOff (keyOff s k) k := by
  have baseHeld : R.TCH_K_BASE k ≠ R.TCH_K_HELD k := by unfold R.TCH_K_BASE R.TCH_K_HELD; omega
  have stateHeld : R.TCH_K_STATE k ≠ R.TCH_K_HELD k := by unfold R.TCH_K_STATE R.TCH_K_HELD; omega
  have stateBase : R.TCH_K_STATE k ≠ R.TCH_K_BASE k := by unfold R.TCH_K_STATE R.TCH_K_BASE; omega
  refine ⟨?_, ?_, ?_⟩
  · rw [keyOff, rd_wr_other _ _ baseHeld, rd_wr_same, Nat.zero_mod]
  · rw [keyOff, rd_wr_same, Nat.zero_mod]
  · rw [keyOff, fld, rd_wr_other _ _ stateHeld, rd_wr_other _ _ stateBase, rd_wr_same, bits_and_state]

theorem keyIsOff_keyOff {j : Nat} (k : Nat) (off : keyIsOff s j) : keyIsOff (keyOff s k) j := by
  obtain rfl | other := eq_or_ne k j
  · exact keyIsOff_keyOff_same s k
  · obtain ⟨base, held, state⟩ := off
    refine ⟨?_, ?_, ?_⟩
    · rw [← base, keyOff, rd_wr_other, rd_wr_other, rd_wr_other] <;>
        simp only [R.TCH_K_BASE, R.TCH_K_STATE, R.TCH_K_HELD] <;> omega
    · rw [← held, keyOff, rd_wr_other, rd_wr_other, rd_wr_other] <;>
        simp only [R.TCH_K_BASE, R.TCH_K_STATE, R.TCH_K_HELD] <;> omega
    · rw [keyOff, fld, rd_wr_other, rd_wr_other, rd_wr_other, ← fld, state] <;>
        simp only [R.TCH_K_BASE, R.TCH_K_STATE, R.TCH_K_HELD] <;> omega

theorem keyIsOff_foldl (l : List Nat) {j : Nat} (h : keyIsOff s j ∨ j ∈ l) : keyIsOff (l.foldl keyOff s) j := by
  induction l generalizing s with
  | nil => exact h.resolve_right (List.not_mem_nil)
  | cons k l ih =>
    refine ih ?_
    obtain off | here := h
    · exact .inl (keyIsOff_keyOff k off)
    · obtain rfl | later := List.mem_cons.mp here
      · exact .inl (keyIsOff_keyOff_same s j)
      · exact .inr later

theorem rd_keysOff (s : State) (off : Nat) : rd (keysOff s) off = rd ((List.range 64).foldl keyOff s) off := by
  rw [keysOff]
  generalize List.range 64 = l
  rfl

theorem keyIsOff_keysOff (s : State) {k : Nat} (hk : k < 64) : keyIsOff (keysOff s) k :=
  keyIsOff_of_rd_eq (keyIsOff_foldl (List.range 64) (.inr (List.mem_range.mpr hk))) fun o _ _ => rd_keysOff s o

theorem regs_foldl_finish (tags : List Nat) (st r0 r1 r2 : Nat) (s : State) :
    (tags.foldl (fun s t => finish t st r0 r1 r2 s) s).regs = s.regs := by
  induction tags generalizing s with
  | nil => rfl
  | cons tag tags ih => exact ih _

theorem rd_demalLeaves (new : Nat) (s : State) (off : Nat) : rd (demalLeaves new s) off = rd (keysOff s) off :=
  congrArg (fun m => (smGet regReset m off).toNat) (regs_foldl_finish _ _ _ _ _ (keysOff s))

/-- Once Demal has left RUNNING, every key is OFF (R407). -/
theorem keyIsOff_setDemal {new : Nat} (h : demalState s = 2) (hn : new ≠ 2) {k : Nat} (hk : k < 64) :
    keyIsOff (setDemal new s) k := by
  rw [setDemal_of_leaving h hn]
  refine keyIsOff_of_rd_eq (keyIsOff_keysOff s hk) fun o lo hi => ?_
  have notDemal : o ≠ R.SYS_DEMAL := by unfold R.SYS_DEMAL; omega
  rw [rd_raise _ (show 5 < 256 by decide) _ (eventReg_touch (by omega) (by omega)), rd_setFld_other _ _ _ _ notDemal,
    rd_demalLeaves]

/-! ## The stall -/

theorem exec_demalStall_of_stalled (run : running s = true) (stalled : demalState s = 2 ∧ 8 ≤ s.tck.beatMissed) :
    exec .demalStall s = .next (setDemal 4 (raise { code := 4, a0 := rd s R.SYS_DEMAL_BEAT } s)) := by
  show execDemalStall s = _
  rw [execDemalStall, live, if_pos run, if_pos stalled, demalHalt]

theorem exec_demalStall_of_not_stalled (run : running s = true) (h : ¬ (demalState s = 2 ∧ 8 ≤ s.tck.beatMissed)) :
    exec .demalStall s = .next s := by
  show execDemalStall s = _
  rw [execDemalStall, live, if_pos run, if_neg h]

/-! ## O12 -/

theorem granaryInitDone_starts (run : running s = true) (init : flag s R.GRN_STATUS 0 = false) :
    ∃ t, exec .granaryInitDone s = .next t ∧ flag t R.GRN_STATUS 0 = true ∧ t.granary = s.granary ∧
      (s.granary = [] → ∀ a n, gRead t a n = List.replicate n 0) ∧ t.cell.scrubAt = 0 ∧
      demalState t = (if demalState s = 0 then 1 else demalState s) := by
  refine ⟨_, exec_granaryInitDone run init, ?_⟩
  have state : demalState (granaryReady s) = demalState s := fld_setFld_other _ _ _ _ _ _ (by decide)
  have kept : (granaryReady s).granary = s.granary := rfl
  by_cases idle : demalState s = 0
  · have stopped : demalState (granaryReady s) ≠ 2 := by rw [state, idle]; decide
    have granary : (setDemal 1 (granaryReady s)).granary = s.granary := (granaryOf_setDemal 1).trans kept
    rw [if_pos idle, if_pos idle]
    refine ⟨?_, granary, fun empty => gRead_of_granary_nil (granary.trans empty), ?_, demalState_setDemal (by decide) _⟩
    · rw [flag, rd_setDemal_other stopped (by decide) (by decide)]
      exact flag_granaryReady s
    · rw [setDemal_of_not_running stopped, scrubAt_raise _ (show 5 < 256 by decide)]
      rfl
  · rw [if_neg idle, if_neg idle]
    exact ⟨flag_granaryReady s, kept, fun empty => gRead_of_granary_nil (kept.trans empty), rfl, state⟩

theorem granaryInitDone_once (run : running s = true) (init : flag s R.GRN_STATUS 0 = true) :
    exec .granaryInitDone s = .next s := by
  show execGranaryInitDone s = _
  rw [execGranaryInitDone, live, if_pos run, if_pos init]

theorem demalBootDone_rejects (copyA copyB : List Byte) (run : running s = true) (verifying : demalState s = 1)
    (init : flag s R.GRN_STATUS 0 = true) (failsA : imageRuns s copyA = false) (failsB : imageRuns s copyB = false) :
    ∃ t, exec (.demalBootDone copyA copyB) s = .next t ∧ demalState t = 3 ∧ t.granary = s.granary ∧ t.lcs = s.lcs := by
  have stopped : demalState s ≠ 2 := by rw [verifying]; decide
  refine ⟨setDemal 3 s, ?_, demalState_setDemal (by decide) s, granaryOf_setDemal 3, ?_⟩
  · rw [exec_demalBootDone copyA copyB run verifying init, failsA, failsB]
    rfl
  · rw [setDemal_of_not_running stopped, raise_lcs _ (show 5 < 256 by decide)]
    rfl

/-- Settles O12: the initialisation, the boot's outcomes and the stall, each by the equation of its instruction and by what
a change of SYS_DEMAL.STATE leaves unchanged. -/
theorem demalBootsAndStalls : Obligations.DemalBootsAndStalls := by
  unfold Obligations.DemalBootsAndStalls
  refine ⟨fun s run => ⟨granaryInitDone_starts run, granaryInitDone_once run⟩,
    fun copyA copyB s run verifying init => ⟨?_, demalBootDone_rejects copyA copyB run verifying init⟩,
    fun s run => ⟨fun state missed => ?_, exec_demalStall_of_not_stalled run⟩⟩
  · rintro img copy (⟨rfl, rfl, passes⟩ | ⟨rfl, rfl, fails, passes⟩)
    · refine ⟨demalLoad 0 img s, ?_, demalLoad_spec (by decide) img verifying⟩
      rw [exec_demalBootDone _ _ run verifying init, if_pos passes]
    · refine ⟨demalLoad 1 img s, ?_, demalLoad_spec (by decide) img verifying⟩
      rw [exec_demalBootDone _ _ run verifying init, if_neg (by rw [fails]; decide), if_pos passes]
  · have runs : demalState (raise { code := 4, a0 := rd s R.SYS_DEMAL_BEAT } s) = 2 :=
      (demalState_raise _ (show 4 < 256 by decide) s).trans state
    exact ⟨_, exec_demalStall_of_stalled run ⟨state, missed⟩, demalState_setDemal (by decide) _, ⟨_, rfl, rfl⟩,
      fun k hk => keyIsOff_setDemal runs (by decide) hk⟩

end Sys2Proof.Machine
end

section
/-!
PROOFS. What a reset by SYSRST_n and a wake from KEEP leave: the registers that each step of the reset writes, and the
rest of the state (R15, R118, R431, R434, R443, R472).
-/

namespace Sys2Proof.Machine

variable {p : Nat → Bool} {a s : State}

/-! ## What an abort of calibrations and the reset of their records may change -/

/-- Two states that differ at most in the registers that `p` names, in the values of wide register pairs and in the
settings of calibration items. -/
structure CalFrame (p : Nat → Bool) (a b : State) : Prop where
  regs : ∀ off, p off = false → rd b off = rd a off
  rest : b = { a with regs := b.regs, wide := b.wide, pwr := { a.pwr with trims := b.pwr.trims } }

theorem CalFrame.of_onlyRegs {b : State} (h : OnlyRegs p a b) : CalFrame p a b := by
  refine ⟨h.regs, ?_⟩
  obtain ⟨-, rest⟩ := h
  rw [rest]

theorem CalFrame.refl (s : State) : CalFrame p s s := ⟨fun _ _ => rfl, rfl⟩

theorem CalFrame.trans {a b c : State} (h : CalFrame p a b) (j : CalFrame p b c) : CalFrame p a c := by
  refine ⟨fun off ho => (j.regs off ho).trans (h.regs off ho), ?_⟩
  obtain ⟨-, hb⟩ := h
  obtain ⟨-, hc⟩ := j
  rw [hc, hb]

theorem CalFrame.foldl {β : Type} {f : State → β → State} (l : List β) (s : State)
    (hf : ∀ t x, x ∈ l → CalFrame p t (f t x)) : CalFrame p s (l.foldl f s) := by
  induction l generalizing s with
  | nil => exact .refl s
  | cons x l ih => exact (hf s x List.mem_cons_self).trans (ih _ fun t y hy => hf t y (List.mem_cons_of_mem _ hy))

/-- Every register but TIM_STATUS. -/
def notTimStatus (off : Nat) : Bool := decide (off ≠ R.TIM_STATUS)

theorem notTimStatus_trmInfo (i : Nat) : notTimStatus (R.TRM_INFO i) = true :=
  decide_eq_true (by unfold R.TRM_INFO R.TIM_STATUS; omega)

theorem notTimStatus_quadSpare (q : Nat) : notTimStatus (R.QUAD_SPARE q) = true :=
  decide_eq_true (by unfold R.QUAD_SPARE R.TIM_STATUS; omega)

theorem notTimStatus_trmStatus : notTimStatus R.TRM_STATUS = true := by decide

/-- An abort is recorded in TRM registers alone: no event (R457). -/
theorem calNoteFail_quiet_onlyRegs (i cause : Nat) (s : State) : OnlyRegs notTimStatus s (calNoteFail i cause true s) := by
  rw [calNoteFail, if_pos rfl]
  exact (((OnlyRegs.refl s).addFld _ _ _ _ (notTimStatus_trmInfo i)).setFld _ _ _ _ (notTimStatus_trmInfo i)).setFld _ _ _ _
    notTimStatus_trmStatus

theorem trimRestore_calFrame (i : Nat) (s : State) : CalFrame p s (trimRestore i s) := by
  rw [trimRestore]
  split
  · exact ⟨fun _ _ => rfl, rfl⟩
  · exact .refl s

theorem spareShow_onlyRegs (s : State) : OnlyRegs notTimStatus s (spareShow s) := by
  refine (OnlyRegs.refl s).foldl _ fun t q _ h => ?_
  split
  · exact (h.setFld _ _ _ _ (notTimStatus_quadSpare q)).setFlag _ _ _ (notTimStatus_quadSpare q)
  · exact h.setFlag _ _ _ (notTimStatus_quadSpare q)

/-- With the calibrations in progress replaced, only registers change besides. -/
theorem setCals_onlyRegs (cs : List Cal) (s : State) :
    OnlyRegs notTimStatus { s with pwr := { s.pwr with cals := cs } } (setCals cs s) := by
  rw [setCals]
  exact ((OnlyRegs.refl _).setFlag _ _ _ notTimStatus_trmStatus).trans (spareShow_onlyRegs _)

/-- An abort leaves the calibrations as they are until their list is emptied. -/
theorem abortFold_calFrame (s : State) :
    CalFrame notTimStatus s (s.pwr.cals.foldl (fun s c => calNoteFail c.item 5 true (trimRestore c.item s)) s) :=
  CalFrame.foldl _ s fun t c _ =>
    (trimRestore_calFrame c.item t).trans (.of_onlyRegs (calNoteFail_quiet_onlyRegs _ _ _))

theorem calAbortAll_onlyRegs (s : State) : OnlyRegs notTimStatus
    { s with wide := (calAbortAll s).wide, pwr := { s.pwr with cals := [], trims := (calAbortAll s).pwr.trims } }
    (calAbortAll s) := by
  have aborted := abortFold_calFrame s
  rw [calAbortAll]
  generalize s.pwr.cals.foldl _ s = u at aborted
  obtain ⟨regs, rest⟩ := setCals_onlyRegs [] u
  refine ⟨fun off ho => (regs off ho).trans (aborted.regs off ho), ?_⟩
  rw [rest, aborted.rest]

/-- The registers of the TRM block. -/
def trmReg (off : Nat) : Bool := decide (0x30000 ≤ off ∧ off < 0x40000)

theorem wideSet_calFrame {lo : Nat} (v : Nat) (s : State) (h : p lo = true) : CalFrame p s (wideSet lo v s) :=
  have latched : CalFrame p s { s with wide := smSet (fun _ => 0) s.wide lo v } := ⟨fun _ _ => rfl, rfl⟩
  latched.trans (.of_onlyRegs ((OnlyRegs.refl _).wr lo v h))

theorem trimRecordsReset_calFrame (s : State) : CalFrame trmReg s (trimRecordsReset s) := by
  rw [trimRecordsReset]
  refine CalFrame.foldl _ s fun t i hi => ?_
  have small : i < 73 := List.mem_range.mp hi
  have count : trmReg (R.TRM_COUNT i) = true := decide_eq_true (by unfold R.TRM_COUNT; omega)
  have low : trmReg (R.TRM_TIME_LO i) = true := decide_eq_true (by unfold R.TRM_TIME_LO; omega)
  have high : trmReg (R.TRM_TIME_HI i) = true := decide_eq_true (by unfold R.TRM_TIME_HI; omega)
  exact ((CalFrame.of_onlyRegs ((OnlyRegs.refl t).wr _ 0 count)).trans (wideSet_calFrame 0 _ low)).trans
    (.of_onlyRegs ((OnlyRegs.refl _).wr _ 0 high))

/-! ## The reset of the blocks -/

/-- A map of which only the keys that `p` names are kept reads elsewhere as an unlisted key. -/
theorem smGet_filter {α : Type} (d : Nat → α) (p : Nat → Bool) (m : SMap α) (k : Nat) :
    smGet d (m.filter fun e => p e.1) k = if p k then smGet d m k else d k := by
  induction m with
  | nil => simp [smGet]
  | cons e m ih =>
    obtain ⟨j, v⟩ := e
    by_cases hj : p j = true <;> by_cases hk : k = j
    · subst hk; simp [smGet, hj]
    · simp [smGet, hj, hk, ih]
    · subst hk; simpa [smGet, hj] using ih
    · simpa [smGet, hj, hk] using ih

theorem rd_domainsReset (s : State) (off : Nat) :
    rd (domainsReset s) off = if aonReg off || lcsKept off then rd s off else (regReset off).toNat := by
  rw [rd, domainsReset, smGet_filter _ fun off => aonReg off || lcsKept off]
  split
  · rfl
  · rfl

/-- The state before the time unit goes to FREE: calibrations are aborted, the blocks reset, Cellar's content lost. -/
def blocksReset (s : State) : State := cellarLose 0 0 (trimRecordsReset (domainsReset (calAbortAll s)))

theorem sysReset_eq (s : State) : sysReset s = deviceStart (timeReset (blocksReset s)) := rfl

theorem rd_cellarLose (len mask : Nat) (s : State) (off : Nat) : rd (cellarLose len mask s) off = rd s off := rfl

theorem rd_blocksReset {off : Nat} (ht : trmReg off = false) :
    rd (blocksReset s) off = if aonReg off || lcsKept off then rd (calAbortAll s) off else (regReset off).toNat := by
  rw [blocksReset, rd_cellarLose, (trimRecordsReset_calFrame _).regs off ht, rd_domainsReset]

theorem aonReg_of_trmReg {off : Nat} (h : trmReg off = true) : aonReg off = true := by
  obtain ⟨lo, hi⟩ := of_decide_eq_true h
  refine decide_eq_true (.inl ⟨by omega, by omega, ?_⟩)
  unfold R.TIM_TRIG_CTRL
  omega

theorem rd_blocksReset_of_not_kept {off : Nat} (ha : aonReg off = false) (hl : lcsKept off = false) :
    rd (blocksReset s) off = (regReset off).toNat := by
  have ht : trmReg off = false := by
    rw [← Bool.not_eq_true]
    intro h
    rw [aonReg_of_trmReg h] at ha
    cases ha
  rw [rd_blocksReset ht, ha, hl]
  rfl

theorem timeState_blocksReset (s : State) : timeState (blocksReset s) = timeState s := by
  rw [timeState, fld, rd_blocksReset (by decide), if_pos (by decide), (calAbortAll_onlyRegs s).regs _ (by decide)]
  rfl

theorem blocksReset_rest (s : State) :
    blocksReset s = { domainsReset s with
      regs := (blocksReset s).regs, wide := (blocksReset s).wide, cellar := (blocksReset s).cellar,
      losses := (blocksReset s).losses, draws := (blocksReset s).draws,
      pwr := { s.pwr with change := none, cals := [], trims := (blocksReset s).pwr.trims } } := by
  have aborted := (calAbortAll_onlyRegs s).rest
  have reset := (trimRecordsReset_calFrame (domainsReset (calAbortAll s))).rest
  rw [blocksReset]
  generalize trimRecordsReset (domainsReset (calAbortAll s)) = u at reset
  rw [cellarLose, reset, domainsReset, domainsReset, aborted]

/-! ## The time unit goes to FREE -/

/-- An event that only EQ 0 records is counted, and counted as lost while EQ 0 does not run (R172, R175). -/
theorem raise_of_ring_off {ev : Ev} (hc : ev.code < 256) (routed : rd s (R.EVT_CODE ev.code) = 0x80000000)
    (off : ringState s 96 = 0) :
    raise ev s = addReg (addReg s (R.EVT_COUNT ev.code) 1) (R.RNG_EQ_LOST 0) 1 := by
  have codeCount : R.EVT_CODE ev.code ≠ R.EVT_COUNT ev.code := by unfold R.EVT_CODE R.EVT_COUNT; omega
  have codeLost : R.EVT_CODE ev.code ≠ R.RNG_EQ_LOST 0 := by unfold R.EVT_CODE R.RNG_EQ_LOST; omega
  have ringCount : ringStatus 96 ≠ R.EVT_COUNT ev.code := by
    have base : ringStatus 96 = 0x8280C := by decide
    rw [base, R.EVT_COUNT]; omega
  have counted : rd (addReg s (R.EVT_COUNT ev.code) 1) (R.EVT_CODE ev.code) = 0x80000000 := by
    rw [rd_addReg, if_neg codeCount, routed]
  have lost : rd (addReg (addReg s (R.EVT_COUNT ev.code) 1) (R.RNG_EQ_LOST 0) 1) (R.EVT_CODE ev.code) = 0x80000000 := by
    rw [rd_addReg, if_neg codeLost, counted]
  have stopped : ringState (addReg s (R.EVT_COUNT ev.code) 1) (96 + 0) ≠ 2 := by
    rw [ringState, fld, rd_addReg, if_neg ringCount, ← fld, ← ringState, off]
    decide
  have eq : bits 0x80000000 13 12 = 0 := by decide
  have posts : bit 0x80000000 31 = true := by decide
  have msix : bit 0x80000000 30 = false := by decide
  have pin : bit 0x80000000 29 = false := by decide
  rw [raise, raiseFuel]
  simp only [counted, posts, eq, if_true, eqPostWith, if_pos (Or.inl stopped), eventSignals, lost, msix, pin,
    Bool.false_eq_true, if_false]

/-- Registers that the return of the time unit to FREE may write. -/
def timeResetReg (off : Nat) : Bool :=
  decide (off = R.TIM_STATUS ∨ off = R.TCK_STATUS ∨ off = R.EVT_COUNT 0x36 ∨ off = R.RNG_EQ_LOST 0)

/-- The state with both status registers showing FREE, before the event. -/
def shownFree (s : State) : State := setFld (setFld s R.TIM_STATUS 1 0 0) R.TCK_STATUS 3 2 0

theorem shownFree_onlyRegs (s : State) : OnlyRegs timeResetReg s (shownFree s) :=
  ((OnlyRegs.refl s).setFld _ _ _ _ (by decide)).setFld _ _ _ _ (by decide)

/-- A device whose events are routed as after reset, no event ring running. -/
structure EventsAsReset (s : State) : Prop where
  routed : rd s (R.EVT_CODE 0x36) = 0x80000000
  ring : ringState s 96 = 0
  count : rd s (R.EVT_COUNT 0x36) = 0

theorem setTimeState_free (ev : EventsAsReset s) (busy : timeState s ≠ 0) :
    setTimeState 0 s = addReg (addReg (shownFree s) (R.EVT_COUNT 0x36) 1) (R.RNG_EQ_LOST 0) 1 := by
  have shown := (shownFree_onlyRegs s).regs
  have routed : rd (shownFree s) (R.EVT_CODE 0x36) = 0x80000000 := (shown _ (by decide)).trans ev.routed
  have ring : ringState (shownFree s) 96 = 0 := (congrArg (bits · 1 0) (shown _ (by decide))).trans ev.ring
  rw [setTimeState, if_neg busy]
  exact raise_of_ring_off (show 0x36 < 256 by decide) routed ring

theorem setTimeState_same (free : timeState s = 0) : setTimeState 0 s = s := by rw [setTimeState, if_pos free]

theorem timeReset_onlyRegs (ev : EventsAsReset s) : OnlyRegs timeResetReg s (timeReset s) := by
  rw [timeReset]
  refine OnlyRegs.setFlag _ _ _ (by decide) ?_
  by_cases free : timeState s = 0
  · rw [setTimeState_same free]
    exact .refl s
  · rw [setTimeState_free ev free]
    exact ((shownFree_onlyRegs s).addReg _ _ (by decide)).addReg _ _ (by decide)

theorem timeState_timeReset (ev : EventsAsReset s) : timeState (timeReset s) = 0 := by
  rw [timeReset, setFlag, timeState, fld_setFld_below _ _ _ _ _ _ _ (by decide) (by decide) (by decide) (by decide)]
  by_cases free : timeState s = 0
  · rw [setTimeState_same free, ← timeState, free]
  · have other : rd (setTimeState 0 s) R.TIM_STATUS = rd (setFld s R.TIM_STATUS 1 0 0) R.TIM_STATUS := by
      rw [setTimeState_free ev free, rd_addReg, if_neg (by decide), rd_addReg, if_neg (by decide), shownFree,
        rd_setFld_other _ _ _ _ (by decide)]
    rw [fld, other, ← fld, fld_setFld_same _ _ _ _ _ (by decide) (by decide), Nat.zero_mod]

theorem count_timeReset (ev : EventsAsReset s) (busy : timeState s ≠ 0) : rd (timeReset s) (R.EVT_COUNT 0x36) = 1 := by
  rw [timeReset, setFlag, rd_setFld_other _ _ _ _ (by decide), setTimeState_free ev busy, rd_addReg, if_neg (by decide),
    rd_addReg, if_pos rfl, shownFree, rd_setFld_other _ _ _ _ (by decide), rd_setFld_other _ _ _ _ (by decide), ev.count,
    Nat.zero_add, Nat.mod_eq_of_lt (by decide)]

theorem rd_timeReset_free (free : timeState s = 0) {off : Nat} (ho : off ≠ R.TIM_STATUS) :
    rd (timeReset s) off = rd s off := by
  rw [timeReset, setFlag, rd_setFld_other _ _ _ _ ho, setTimeState_same free]

/-! ## The device starts -/

/-- Registers of the guards' window. -/
def guardReg (off : Nat) : Bool := decide (0xA0000 ≤ off ∧ off < 0xB0000)

/-- Region registers 14 and 15 of guard g, as SEALED locks them (R434). -/
def sealGuard (s : State) (g : Nat) : State :=
  wr (wr (wr (wr (wr (wr s (R.GRD_R_BASE_LO g 14) 0x01C00000) (R.GRD_R_BASE_HI g 14) 0) (R.GRD_R_CFG g 14) 0x80FE4A08)
    (R.GRD_R_BASE_LO g 15) 0x02000000) (R.GRD_R_BASE_HI g 15) 0) (R.GRD_R_CFG g 15) 0x80FF4A08

theorem sealedRegions_of_sealed (h : s.lcs.state = 2) : sealedRegions s = sealGuard (sealGuard s 4) 27 := by
  rw [sealedRegions, if_pos h]
  rfl

theorem sealedRegions_of_not_sealed (h : s.lcs.state ≠ 2) : sealedRegions s = s := by
  rw [sealedRegions, if_neg h]

theorem sealGuard_onlyRegs {g : Nat} (hg : g < 32) (s : State) : OnlyRegs guardReg s (sealGuard s g) := by
  have inWindow : ∀ {off}, 0xA0000 ≤ off → off < 0xB0000 → guardReg off = true := fun lo hi => decide_eq_true ⟨lo, hi⟩
  refine ((((((OnlyRegs.refl s).wr _ _ ?_).wr _ _ ?_).wr _ _ ?_).wr _ _ ?_).wr _ _ ?_).wr _ _ ?_ <;>
    refine inWindow ?_ ?_ <;> simp only [R.GRD_R_BASE_LO, R.GRD_R_BASE_HI, R.GRD_R_CFG] <;> omega

theorem sealedRegions_onlyRegs (s : State) : OnlyRegs guardReg s (sealedRegions s) := by
  by_cases h : s.lcs.state = 2
  · rw [sealedRegions_of_sealed h]
    exact (sealGuard_onlyRegs (by decide) s).trans (sealGuard_onlyRegs (by decide) _)
  · rw [sealedRegions_of_not_sealed h]
    exact .refl s

/-- Regions 14 and 15 of a guard lock the Hearth memory (R434). -/
def guardLocked (s : State) (g : Nat) : Prop :=
  rd s (R.GRD_R_BASE_LO g 14) = 0x01C00000 ∧ rd s (R.GRD_R_CFG g 14) = 0x80FE4A08 ∧
    rd s (R.GRD_R_BASE_LO g 15) = 0x02000000 ∧ rd s (R.GRD_R_CFG g 15) = 0x80FF4A08

theorem guardLocked_sealGuard (s : State) (g : Nat) : guardLocked (sealGuard s g) g := by
  simp +arith [guardLocked, sealGuard, rd_wr, R.GRD_R_BASE_LO, R.GRD_R_BASE_HI, R.GRD_R_CFG]

theorem guardLocked_sealGuard_other {g j : Nat} (h : g < j) (locked : guardLocked s g) : guardLocked (sealGuard s j) g := by
  have kept : ∀ off, 0xA01E0 + g * 0x400 ≤ off → off < 0xA0200 + g * 0x400 → rd (sealGuard s j) off = rd s off := by
    intro off lo hi
    rw [sealGuard, rd_wr_other, rd_wr_other, rd_wr_other, rd_wr_other, rd_wr_other, rd_wr_other] <;>
      simp only [R.GRD_R_BASE_LO, R.GRD_R_BASE_HI, R.GRD_R_CFG] <;> omega
  obtain ⟨low14, cfg14, low15, cfg15⟩ := locked
  refine ⟨?_, ?_, ?_, ?_⟩
  · rw [kept _ (by unfold R.GRD_R_BASE_LO; omega) (by unfold R.GRD_R_BASE_LO; omega), low14]
  · rw [kept _ (by unfold R.GRD_R_CFG; omega) (by unfold R.GRD_R_CFG; omega), cfg14]
  · rw [kept _ (by unfold R.GRD_R_BASE_LO; omega) (by unfold R.GRD_R_BASE_LO; omega), low15]
  · rw [kept _ (by unfold R.GRD_R_CFG; omega) (by unfold R.GRD_R_CFG; omega), cfg15]

theorem guardLocked_sealedRegions (h : s.lcs.state = 2) {g : Nat} (hg : g ∈ [4, 27]) : guardLocked (sealedRegions s) g := by
  rw [sealedRegions_of_sealed h]
  simp only [List.mem_cons, List.not_mem_nil, or_false] at hg
  obtain rfl | rfl := hg
  · exact guardLocked_sealGuard_other (by decide) (guardLocked_sealGuard s 4)
  · exact guardLocked_sealGuard _ 27

/-- Registers that the start of the device may write. -/
def startReg (off : Nat) : Bool := decide (off = R.PWR_STATUS ∨ off = R.TCK_STATUS) || guardReg off

/-- The state with the device shown in RUN, before the guards' regions are loaded. -/
def shownRunning (s : State) : State :=
  setFld (setFld s R.PWR_STATUS 1 0 0) R.TCK_STATUS 3 2 (timeState (setFld s R.PWR_STATUS 1 0 0))

theorem deviceStart_eq (s : State) : deviceStart s = sealedRegions (shownRunning s) := rfl

theorem shownRunning_onlyRegs (s : State) : OnlyRegs startReg s (shownRunning s) :=
  ((OnlyRegs.refl s).setFld R.PWR_STATUS _ _ _ (by decide)).setFld R.TCK_STATUS _ _ _ (by decide)

theorem shownRunning_lcs (s : State) : (shownRunning s).lcs = s.lcs := by rw [(shownRunning_onlyRegs s).rest]

theorem deviceStart_onlyRegs (s : State) : OnlyRegs startReg s (deviceStart s) := by
  rw [deviceStart_eq]
  exact (shownRunning_onlyRegs s).trans ((sealedRegions_onlyRegs _).mono fun off h => (Bool.or_eq_false_iff.mp h).2)

theorem rd_deviceStart_powerStatus (s : State) :
    rd (deviceStart s) R.PWR_STATUS = rd (setFld s R.PWR_STATUS 1 0 0) R.PWR_STATUS := by
  rw [deviceStart_eq, (sealedRegions_onlyRegs _).regs _ (by decide), shownRunning, rd_setFld_other _ _ _ _ (by decide)]

theorem powerState_deviceStart (s : State) : powerState (deviceStart s) = 0 := by
  rw [powerState, fld, rd_deviceStart_powerStatus, ← fld, fld_setFld_same _ _ _ _ _ (by decide) (by decide), Nat.zero_mod]

theorem wakeCause_deviceStart (s : State) : fld (deviceStart s) R.PWR_STATUS 19 18 = fld s R.PWR_STATUS 19 18 := by
  rw [fld, rd_deviceStart_powerStatus, ← fld, fld_setFld_above _ _ _ _ _ _ _ (by decide) (by decide) (by decide)]

/-- Outside SEALED the guards' registers are kept too. -/
theorem rd_deviceStart {off : Nat} (hp : off ≠ R.PWR_STATUS) (ht : off ≠ R.TCK_STATUS)
    (h : s.lcs.state ≠ 2 ∨ off < 0xA0000 ∨ 0xB0000 ≤ off) : rd (deviceStart s) off = rd s off := by
  by_cases notSealed : s.lcs.state = 2
  · refine (deviceStart_onlyRegs s).regs off ?_
    have window := h.resolve_left (fun h => h notSealed)
    refine Bool.or_eq_false_iff.mpr ⟨decide_eq_false (by tauto), decide_eq_false (by omega)⟩
  · have unlocked : (shownRunning s).lcs.state ≠ 2 := by rwa [shownRunning_lcs]
    rw [deviceStart_eq, sealedRegions_of_not_sealed unlocked, shownRunning, rd_setFld_other _ _ _ _ ht, rd_setFld_other _ _ _ _ hp]

theorem guardLocked_deviceStart (h : s.lcs.state = 2) {g : Nat} (hg : g ∈ [4, 27]) : guardLocked (deviceStart s) g := by
  rw [deviceStart_eq]
  exact guardLocked_sealedRegions (by rwa [shownRunning_lcs]) hg

/-! ## SYSRST_n in RUN or QUIET -/

theorem eventsAsReset_blocksReset (s : State) : EventsAsReset (blocksReset s) := by
  refine ⟨?_, ?_, ?_⟩
  · exact (rd_blocksReset_of_not_kept (by decide) (by decide)).trans (by decide)
  · have status : rd (blocksReset s) (ringStatus 96) = 0 :=
      (rd_blocksReset_of_not_kept (by decide) (by decide)).trans (by decide)
    rw [ringState, fld, status]
    rfl
  · exact (rd_blocksReset_of_not_kept (by decide) (by decide)).trans (by decide)

/-- Registers that the return to FREE and the start may write. -/
def resetWritesReg (off : Nat) : Bool := timeResetReg off || startReg off

theorem sysReset_onlyRegs (s : State) : OnlyRegs resetWritesReg (blocksReset s) (sysReset s) := by
  rw [sysReset_eq]
  exact ((timeReset_onlyRegs (eventsAsReset_blocksReset s)).mono fun off h => (Bool.or_eq_false_iff.mp h).1).trans
    ((deviceStart_onlyRegs _).mono fun off h => (Bool.or_eq_false_iff.mp h).2)

theorem timeReset_lcs (s : State) : (timeReset (blocksReset s)).lcs.state = s.lcs.state := by
  rw [(timeReset_onlyRegs (eventsAsReset_blocksReset s)).rest, blocksReset_rest]
  rfl

/-- But for registers, wide values, Cellar and the free draws, and the calibrations' settings, a reset leaves what
`domainsReset` does, with no calibration in progress. -/
theorem sysReset_rest (s : State) :
    sysReset s = { domainsReset s with
      regs := (sysReset s).regs, wide := (blocksReset s).wide, cellar := (blocksReset s).cellar,
      losses := (blocksReset s).losses, draws := (blocksReset s).draws,
      pwr := { s.pwr with change := none, cals := [], trims := (blocksReset s).pwr.trims } } := by
  obtain ⟨-, reset⟩ := sysReset_onlyRegs s
  have blocks := blocksReset_rest s
  rw [reset]
  generalize (sysReset s).regs = r
  generalize blocksReset s = u at blocks
  rw [blocks]

theorem powerState_sysReset (s : State) : powerState (sysReset s) = 0 := by
  rw [sysReset_eq, powerState_deviceStart]

theorem timeState_sysReset (s : State) : timeState (sysReset s) = 0 := by
  rw [timeState, sysReset_eq, fld, (deviceStart_onlyRegs _).regs _ (by decide), ← fld, ← timeState,
    timeState_timeReset (eventsAsReset_blocksReset s)]

theorem count_sysReset (busy : timeState s ≠ 0) : rd (sysReset s) (R.EVT_COUNT 0x36) = 1 := by
  rw [sysReset_eq, (deviceStart_onlyRegs _).regs _ (by decide)]
  exact count_timeReset (eventsAsReset_blocksReset s) (by rwa [timeState_blocksReset])

/-- The registers of the blocks that are reset read their reset values (R472). -/
theorem rd_sysReset {off : Nat} (ha : aonReg off = false) (hl : lcsKept off = false) (ht : off ≠ R.TCK_STATUS)
    (window : s.lcs.state ≠ 2 ∨ off < 0xA0000 ∨ 0xB0000 ≤ off) (event : timeState s = 0 ∨ eventReg off = false) :
    rd (sysReset s) off = (regReset off).toNat := by
  have notPower : off ≠ R.PWR_STATUS := by rintro rfl; exact absurd ha (by decide)
  have notTime : off ≠ R.TIM_STATUS := by rintro rfl; exact absurd ha (by decide)
  rw [sysReset_eq, rd_deviceStart notPower ht (by rwa [timeReset_lcs])]
  refine Eq.trans ?_ (rd_blocksReset_of_not_kept (s := s) ha hl)
  obtain free | quiet := event
  · exact rd_timeReset_free (by rwa [timeState_blocksReset]) notTime
  · have notCount : off ≠ R.EVT_COUNT 0x36 := by rintro rfl; exact absurd quiet (by decide)
    have notLost : off ≠ R.RNG_EQ_LOST 0 := by rintro rfl; exact absurd quiet (by decide)
    exact (timeReset_onlyRegs (eventsAsReset_blocksReset s)).regs off (decide_eq_false (by tauto))

theorem guardLocked_sysReset (h : s.lcs.state = 2) {g : Nat} (hg : g ∈ [4, 27]) : guardLocked (sysReset s) g := by
  rw [sysReset_eq]
  exact guardLocked_deviceStart (by rwa [timeReset_lcs]) hg

theorem exec_sysrstN_on (released : s.porst = false) (on : s.supply = .on) : exec .sysrstN s = .next (sysReset s) := by
  show execSysrstN s = _
  rw [execSysrstN, released, on]
  rfl

/-! ## The wake from KEEP -/

theorem rd_setDram (c : Nat) (x : DmcSt) (s : State) (off : Nat) : rd (setDram c x s) off = rd s off := rfl

theorem rd_trainStart_powerStatus (c : Nat) (s : State) : rd (trainStart c s) R.PWR_STATUS = rd s R.PWR_STATUS := by
  have other : R.PWR_STATUS ≠ R.DMC_CH_STATUS c := by unfold R.PWR_STATUS R.DMC_CH_STATUS; omega
  rw [trainStart]
  split
  · rw [rd_setDram, setChanState, rd_setFld_other _ _ _ _ other]
  · rfl

theorem rd_trainAll_powerStatus (cs : List Nat) (s : State) :
    rd (cs.foldl (fun s c => trainStart c s) s) R.PWR_STATUS = rd s R.PWR_STATUS := by
  induction cs generalizing s with
  | nil => rfl
  | cons c cs ih => exact (ih _).trans (rd_trainStart_powerStatus c s)

/-- The powered domain starts after KEEP: reset, the exit counted. -/
def keepExit (s : State) : State := deviceStart (addReg (domainsReset s) R.PWR_KEEP_COUNT 1)

theorem wakeCause_keepExit (s : State) : fld (keepExit s) R.PWR_STATUS 19 18 = fld s R.PWR_STATUS 19 18 := by
  rw [keepExit, wakeCause_deviceStart, fld, rd_addReg, if_neg (by decide), rd_domainsReset, if_pos (by decide), ← fld]

/-- The rails that come back last keep the cause recorded. -/
theorem wakeCause_railsGood (back : s.pwr.fromKeep = true) :
    fld (railsGood s) R.PWR_STATUS 19 18 = fld s R.PWR_STATUS 19 18 := by
  rw [railsGood]
  simp only [back, if_true]
  rw [fld, rd_trainAll_powerStatus]
  exact wakeCause_keepExit { s with supply := .on, pwr := { s.pwr with fromKeep := false } }

/-- Of the rails, those that KEEP left on are good, and their return is an exit from KEEP. -/
def keepRails (p : PowerSt) : PowerSt :=
  { p with fromKeep := true, good := ((p.rails.getD []).filter (fun e => !e.offInKeep)).map (fun e => e.code) }

/-- The state in which a wake cause is recorded and the rails come up. -/
def wakeBegun (cause : Nat) (s : State) : State :=
  { setFld s R.PWR_STATUS 19 18 cause with supply := .rising, pwr := keepRails s.pwr }

theorem wakeTake_eq (cause : Nat) (s : State) :
    wakeTake cause s = if railsDone (wakeBegun cause s) then railsGood (wakeBegun cause s) else wakeBegun cause s := by
  rw [wakeTake, wakeBegun, keepRails, ← setFld_pwr s R.PWR_STATUS 19 18 cause]

theorem rd_withSupply (s : State) (x : Supply) (q : PowerSt) (off : Nat) :
    rd { s with supply := x, pwr := q } off = rd s off := rfl

theorem wakeCause_wakeBegun {cause : Nat} (hc : cause < 4) (s : State) :
    fld (wakeBegun cause s) R.PWR_STATUS 19 18 = cause := by
  rw [wakeBegun, fld, rd_withSupply, ← fld, fld_setFld_same _ _ _ _ _ (by decide) (by decide)]
  exact Nat.mod_eq_of_lt hc

theorem wakeCause_wakeTake {cause : Nat} (hc : cause < 4) (s : State) :
    fld (wakeTake cause s) R.PWR_STATUS 19 18 = cause := by
  rw [wakeTake_eq]
  split
  · rw [wakeCause_railsGood rfl, wakeCause_wakeBegun hc]
  · exact wakeCause_wakeBegun hc s

/-- A rail that no entry left on in KEEP carries is not among those that are good. -/
theorem not_mem_keepRails_good {q : PowerSt} {e : RailEntry}
    (off : ∀ f ∈ q.rails.getD [], f.code = e.code → f.offInKeep = true) : e.code ∉ (keepRails q).good := by
  intro good
  obtain ⟨f, hf, code⟩ := List.mem_map.mp good
  obtain ⟨listed, on⟩ := List.mem_filter.mp hf
  rw [off f listed code] at on
  cases on

/-- While a rail of the table is missing, the rails are not done. -/
theorem railsDone_of_missing {e : RailEntry} (he : e ∈ s.pwr.rails.getD []) (missing : e.code ∉ s.pwr.good) :
    railsDone s = false := by
  have table : railsByBoard s = false := decide_eq_false (List.ne_nil_of_mem he)
  have left : e ∈ railsLeft s := List.mem_filter.mpr ⟨he, by simpa using missing⟩
  rw [railsDone, table]
  simpa using List.ne_nil_of_mem left

theorem wakeBegun_pwr (cause : Nat) (s : State) : (wakeBegun cause s).pwr = keepRails s.pwr := rfl

theorem wakeTake_rising (cause : Nat) (s : State) {e : RailEntry} (he : e ∈ s.pwr.rails.getD [])
    (off : ∀ f ∈ s.pwr.rails.getD [], f.code = e.code → f.offInKeep = true) :
    (wakeTake cause s).supply = .rising ∧ e.code ∉ (wakeTake cause s).pwr.good := by
  have missing := not_mem_keepRails_good off
  have notDone : railsDone (wakeBegun cause s) = false := by
    rw [← wakeBegun_pwr cause s] at missing
    exact railsDone_of_missing (by rwa [wakeBegun_pwr]) missing
  rw [wakeTake_eq, if_neg (by rw [notDone]; decide), wakeBegun_pwr]
  exact ⟨rfl, missing⟩

theorem exec_sysrstN_keep (released : s.porst = false) (keep : s.supply = .keep) :
    exec .sysrstN s = .next (wakeTake 3 s) := by
  show execSysrstN s = _
  rw [execSysrstN, released, keep]
  rfl

theorem exec_keepWake_gpio (gpio : Word) (keep : s.supply = .keep) (released : s.porst = false) :
    exec (.keepWake 1 gpio) s = .next (if gpioWakes s gpio.toNat then wakeTake 1 s else s) := by
  show execKeepWake 1 gpio s = _
  rw [execKeepWake, keep, released]
  rfl

theorem exec_keepWake_clock (gpio : Word) (keep : s.supply = .keep) (released : s.porst = false)
    (enabled : flag s R.PWR_WAKE_AT_NS 31 = true) (reached : wakeAt s ≤ s.clock) :
    exec (.keepWake 2 gpio) s = .next (wakeTake 2 s) := by
  have now : waitClock (wakeAt s) s = s := by rw [waitClock, if_pos (.inl reached)]
  show execKeepWake 2 gpio s = _
  rw [execKeepWake, keep, released, enabled, now, if_neg (Nat.not_lt.mpr reached)]
  rfl

theorem exec_keepWake_sysrst (gpio : Word) (keep : s.supply = .keep) (released : s.porst = false) :
    exec (.keepWake 3 gpio) s = .next (wakeTake 3 s) := by
  show execKeepWake 3 gpio s = _
  rw [execKeepWake, keep, released]
  rfl

/-! ## O9 -/

/-- Settles O9: the reset by its registers and by what it leaves of the rest of the state; the wake by its cause, which the
start of the powered domain leaves in PWR_STATUS. -/
theorem sysrstAndWakeCauses : Obligations.SysrstAndWakeCauses := by
  unfold Obligations.SysrstAndWakeCauses
  refine ⟨fun s released on => ⟨sysReset s, exec_sysrstN_on released on, ?_⟩,
    fun gpio s keep released => ⟨⟨wakeTake 3 s, ?_, exec_sysrstN_keep released keep, wakeCause_wakeTake (by decide) s⟩,
      fun wakes => ⟨wakeTake 1 s, ?_, wakeCause_wakeTake (by decide) s,
        fun e he _ off => wakeTake_rising 1 s he off⟩, fun sleeps => ?_,
      fun enabled reached => ⟨wakeTake 2 s, exec_keepWake_clock gpio keep released enabled reached,
        wakeCause_wakeTake (by decide) s⟩⟩⟩
  · have left := sysReset_rest s
    exact ⟨(congrArg State.supply left).trans on, congrArg State.linkUp left, congrArg State.granary left,
      congrArg State.rng left, congrArg State.chans left, congrArg State.heads left, congrArg State.lanes left,
      congrArg State.encs left, congrArg State.tck left, (congrArg State.clock left :), powerState_sysReset s,
      timeState_sysReset s, congrArg (·.pwr.cals) left, (congrArg (·.lcs.state) left :),
      (congrArg (·.lcs.slots) left :),
      fun off ha hl ht => rd_sysReset ha hl ht, count_sysReset, fun locks g hg => guardLocked_sysReset locks hg⟩
  · exact exec_keepWake_sysrst gpio keep released
  · rw [exec_keepWake_gpio gpio keep released, if_pos wakes]
  · rw [exec_keepWake_gpio gpio keep released, sleeps]
    rfl

end Sys2Proof.Machine
end

section
/-!
PROOFS. What the accesses of bus masters, the events they raise and the events counted over a tick may change: a frame
wider than `EventsOnly`, which speaks of guard 5 and the ring engine's records alone.
-/

namespace Sys2Proof.Machine

/-- The registers that an access or an event may change: those of `eventReg`, the guards' notes (R419), the counters of the
DRAM channels (R366) and of the Granary's corrected and uncorrectable words (R367). -/
def accessReg (off : Nat) : Bool :=
  decide ((0x82800 ≤ off ∧ off < 0x82900) ∨ (0x90400 ≤ off ∧ off < 0x90840) ∨ (0xA0000 ≤ off ∧ off < 0xB0000) ∨
    (0x400000 ≤ off ∧ off < 0x480000) ∨ (0x50000C ≤ off ∧ off < 0x50001C))

/-- Two states that differ at most in what accesses and events write: memories, the guards' and DRAM channels' state, the
rings' record counts, the marks and totals of the tick, and the registers of `accessReg`. -/
structure AccessOnly (a b : State) : Prop where
  regs : ∀ off, accessReg off = false → rd b off = rd a off
  rest : b = { a with regs := b.regs, host := b.host, cellar := b.cellar, overwritten := b.overwritten, bar2 := b.bar2,
                      rng := { a.rng with posted := b.rng.posted }, cell := b.cell,
                      tck := { a.tck with once := b.tck.once, totals := b.tck.totals } }

theorem accessReg_iff (off : Nat) :
    accessReg off = true ↔ (0x82800 ≤ off ∧ off < 0x82900) ∨ (0x90400 ≤ off ∧ off < 0x90840) ∨
      (0xA0000 ≤ off ∧ off < 0xB0000) ∨ (0x400000 ≤ off ∧ off < 0x480000) ∨ (0x50000C ≤ off ∧ off < 0x50001C) :=
  decide_eq_true_iff

theorem eventReg_of_accessReg {off : Nat} (h : accessReg off = false) : eventReg off = false := by
  rw [← Bool.not_eq_true, accessReg_iff] at h
  rw [← Bool.not_eq_true, eventReg_iff]
  omega

/-- No access reaches a register below the event rings. -/
theorem accessReg_low {off : Nat} (h : off < 0x82800) : accessReg off = false := by
  rw [← Bool.not_eq_true, accessReg_iff]
  omega

/-- No access reaches a register of the lanes, the Vestibule, sources, decode, encode or heads. -/
theorem accessReg_units {off : Nat} (lo : 0xB0000 ≤ off) (hi : off < 0x400000) : accessReg off = false := by
  rw [← Bool.not_eq_true, accessReg_iff]
  omega

theorem AccessOnly.refl (s : State) : AccessOnly s s := ⟨fun _ _ => rfl, rfl⟩

theorem AccessOnly.trans {a b c : State} (h : AccessOnly a b) (j : AccessOnly b c) : AccessOnly a c := by
  refine ⟨fun off ho => (j.regs off ho).trans (h.regs off ho), ?_⟩
  obtain ⟨-, hb⟩ := h
  obtain ⟨-, hc⟩ := j
  rw [hc, hb]

theorem EventsOnly.access {a b : State} (h : EventsOnly a b) : AccessOnly a b := by
  refine ⟨fun off ho => h.regs off (eventReg_of_accessReg ho), ?_⟩
  obtain ⟨-, hb⟩ := h
  rw [hb]

variable {a s : State}

/-! ## The fields that an access leaves -/

section fields

variable {b : State} (h : AccessOnly a b)
include h

theorem AccessOnly.flows : b.flows = a.flows := by rw [h.rest]
theorem AccessOnly.heads : b.heads = a.heads := by rw [h.rest]
theorem AccessOnly.layers : b.layers = a.layers := by rw [h.rest]
theorem AccessOnly.latched : b.latched = a.latched := by rw [h.rest]
theorem AccessOnly.chans : b.chans = a.chans := by rw [h.rest]
theorem AccessOnly.lanes : b.lanes = a.lanes := by rw [h.rest]
theorem AccessOnly.encs : b.encs = a.encs := by rw [h.rest]
theorem AccessOnly.tim : b.tim = a.tim := by rw [h.rest]
theorem AccessOnly.clock : b.clock = a.clock := by rw [h.rest]
theorem AccessOnly.elapsed : b.elapsed = a.elapsed := by rw [h.rest]
theorem AccessOnly.part : b.part = a.part := by rw [h.rest]
theorem AccessOnly.cmds : b.rng.cmds = a.rng.cmds := by rw [h.rest]
theorem AccessOnly.next : b.tck.next = a.tck.next := by rw [h.rest]
theorem AccessOnly.entries : b.tck.entries = a.tck.entries := by rw [h.rest]

end fields

/-! ## The operations -/

theorem AccessOnly.ite {x y : State} {c : Prop} [Decidable c] (hx : AccessOnly a x) (hy : AccessOnly a y) :
    AccessOnly a (if c then x else y) := by
  split
  · exact hx
  · exact hy

theorem AccessOnly.foldl {β : Type} {f : State → β → State} (l : List β) (h : AccessOnly a s)
    (hf : ∀ t x, AccessOnly a t → AccessOnly a (f t x)) : AccessOnly a (l.foldl f s) := by
  induction l generalizing s with
  | nil => exact h
  | cons x l ih => exact ih (hf s x h)

theorem AccessOnly.wr (off v : Nat) (ho : accessReg off = true) (h : AccessOnly a s) : AccessOnly a (wr s off v) := by
  refine h.trans ⟨fun o hn => rd_wr_other s v ?_, rfl⟩
  rintro rfl
  rw [ho] at hn
  cases hn

theorem AccessOnly.withCell (x : CellSt) (h : AccessOnly a s) : AccessOnly a { s with cell := x } :=
  h.trans ⟨fun _ _ => rfl, rfl⟩

theorem AccessOnly.withTotals (x : SMap (Nat × Nat)) (h : AccessOnly a s) :
    AccessOnly a { s with tck := { s.tck with totals := x } } := h.trans ⟨fun _ _ => rfl, rfl⟩

theorem AccessOnly.raise (ev : Ev) (hc : ev.code < 256) (h : AccessOnly a s) : AccessOnly a (raise ev s) :=
  h.trans (raise_events ev hc s).access

theorem AccessOnly.raiseOnce (key : Nat) (ev : Ev) (hc : ev.code < 256) (h : AccessOnly a s) :
    AccessOnly a (raiseOnce key ev s) := h.trans (raiseOnce_events key ev hc s).access

theorem AccessOnly.memStore (sp x : Nat) (bs : List Byte) (h : AccessOnly a s) : AccessOnly a (memStore s sp x bs) :=
  h.trans (memStore_events sp x bs (EventsOnly.refl s)).access

theorem hostStore_access (m : Cells) (s : State) : AccessOnly s (hostStore m s) := by
  induction m generalizing s with
  | nil => exact AccessOnly.refl s
  | cons c m ih => exact ((AccessOnly.refl s).memStore spHost c.1 [c.2]).trans (ih _)

theorem accessReg_guard {g k : Nat} (hg : g < 32) (hk : k < 0x400) : accessReg (0xA0000 + g * 0x400 + k) = true := by
  rw [accessReg_iff]
  omega

theorem guardNote_access {g : Nat} (hg : g < 32) (sp : Nat) (write : Bool) (p : GPart) (h : AccessOnly a s) :
    AccessOnly a (guardNote s g sp write p) := by
  have reg : ∀ {k : Nat}, k < 0x400 → accessReg (0xA0000 + k + g * 0x400) = true := fun hk => by
    rw [Nat.add_right_comm]
    exact accessReg_guard hg hk
  unfold guardNote
  dsimp only
  have counted : AccessOnly a (addReg s (if write then R.GRD_DENIED_WRITES g else R.GRD_DENIED_READS g) 1) := by
    cases write
    · exact h.wr _ _ (reg (k := 0x10) (by decide))
    · exact h.wr _ _ (reg (k := 0x14) (by decide))
  refine counted.ite ?_
  have noted := ((counted.wr (R.GRD_LAST_LO g) p.addr (reg (k := 0x18) (by decide))).wr (R.GRD_LAST_HI g) (p.addr / 2 ^ 32)
    (reg (k := 0x1C) (by decide))).wr (R.GRD_LAST_INFO g) (ofBool write * 256 + sp * 64 + p.region)
    (reg (k := 0x20) (by decide))
  exact noted.wr (R.GRD_STATUS g) _ (reg (k := 4) (by decide))

theorem guardDenials_access {g : Nat} (hg : g < 32) (sp : Nat) (write : Bool) (ps : List GPart) (h : AccessOnly a s) :
    AccessOnly a (guardDenials raise g sp write ps s) := by
  refine h.foldl _ (fun t p ht => (guardNote_access hg sp write p ht).raiseOnce _ _ ?_)
  cases write <;> simp

theorem portEnter_access (port sp : Nat) (urgent : Bool) (ps : List GPart) (h : AccessOnly a s) :
    AccessOnly a (portEnter port sp urgent ps s) := h.trans (portEnter_events port sp urgent ps (EventsOnly.refl s)).access

theorem storeParts_access (sp x : Nat) (bs : List Byte) (ps : List GPart) (h : AccessOnly a s) :
    AccessOnly a (storeParts sp x bs ps s).1 := h.trans (storeParts_events sp x bs ps (EventsOnly.refl s)).access

/-- A posted write of a bus master (R417). -/
theorem dmaWrite_access {g : Nat} (hg : g < 32) (port sp x : Nat) (bs : List Byte) (h : AccessOnly a s) :
    AccessOnly a (dmaWrite g port sp x bs s).1 :=
  storeParts_access sp x bs _ (portEnter_access port sp false _ (guardDenials_access hg sp true _ h))

theorem dmaWrite_access_of_eq {g port sp x : Nat} {bs : List Byte} {t : State} {o : Option Nat} (hg : g < 32)
    (e : dmaWrite g port sp x bs s = (t, o)) : AccessOnly s t := by
  have := dmaWrite_access hg port sp x bs (AccessOnly.refl s)
  rwa [e] at this

theorem granaryHeal_access (x n : Nat) (h : AccessOnly a s) : AccessOnly a (granaryHeal x n s) := h.withCell _

theorem granaryErrorWith_access (w : Nat) (h : AccessOnly a s) : AccessOnly a (granaryErrorWith raise w s) :=
  ((h.wr R.GRN_UNCORRECTED _ (by decide)).wr R.GRN_LAST_UE _ (by decide)).raise _ (by decide : (0x9D : Nat) < 256)

theorem granaryUncorrectable_access (x : Nat) (h : AccessOnly a s) : AccessOnly a (granaryUncorrectable x s) :=
  granaryErrorWith_access _ (h.withCell _)

theorem granaryMet_access (x n : Nat) (h : AccessOnly a s) : AccessOnly a (granaryMet x n s) :=
  h.foldl _ (fun _ _ ht => granaryErrorWith_access _ ht)

theorem accessReg_chan {c k : Nat} (hc : c < 8) (hk : k < 0x10000) : accessReg (0x400000 + k + c * 0x10000) = true := by
  rw [accessReg_iff]
  omega

theorem cellarEcc_access (x : Nat) (e : Ecc) (h : AccessOnly a s) : AccessOnly a (cellarEcc x e s) := by
  cases e with
  | clean => exact h
  | corrected =>
    exact (h.wr _ _ (accessReg_chan (k := 0x2C) (chanOf_lt s x) (by decide))).raiseOnce _ _ (by decide : (0x9C : Nat) < 256)
  | uncorrected =>
    exact (h.wr _ _ (accessReg_chan (k := 0x30) (chanOf_lt s x) (by decide))).raise _ (by decide : (0x9D : Nat) < 256)

theorem noteLink_access (es : LinkErrs) (h : AccessOnly a s) : AccessOnly a (noteLink es s) := h.withCell _

theorem linkRead_access (x n : Nat) (h : AccessOnly a s) : AccessOnly a (linkRead x n s).1 :=
  (noteLink_access _ h).foldl _ (fun _ _ ht => cellarEcc_access _ _ ht)

theorem readParts_access (sp : Nat) (ps : List GPart) (h : AccessOnly a s) : AccessOnly a (readParts sp ps s).1 := by
  induction ps generalizing s with
  | nil => exact h
  | cons p ps ih =>
    unfold readParts
    dsimp only
    split
    · exact ih h
    · split
      · split
        · exact ih (linkRead_access _ _ h)
        · exact ih (linkRead_access _ _ h)
      · exact ih h

/-- A read of a bus master (R416). -/
theorem dmaReadAs_access {g : Nat} (hg : g < 32) (urgent : Bool) (port sp x n : Nat) (h : AccessOnly a s) :
    AccessOnly a (dmaReadAs urgent g port sp x n s).1 :=
  readParts_access sp _ (portEnter_access port sp urgent _ (guardDenials_access hg sp false _ h))

theorem totalEvent_code (code unit first n : Nat) : (totalEvent code unit first n).code = code := by
  unfold totalEvent
  split <;> rfl

/-- An event counted over the tick (R226, R227, R235). -/
theorem raiseTotal_access {code : Nat} (hc : code < 256) (unit first n : Nat) (h : AccessOnly a s) :
    AccessOnly a (raiseTotal code unit first n s) := by
  unfold raiseTotal
  dsimp only
  refine (h.raiseOnce _ _ (by rwa [totalEvent_code])).ite ((h.ite (h.wr _ _ ?_)).withTotals _)
  rw [accessReg_iff, R.EVT_COUNT]
  omega

end Sys2Proof.Machine
end

section
/-!
PROOFS. The PACKET balance of a flow (R58, R230): what arrived on A and B is used, duplicate, late, malformed or held. An
operation of the Vestibule carries packets that it has still to account for, which `Owes` counts.
-/

namespace Sys2Proof.Machine

/-- The packets that a flow accounts for: used, duplicate, late, malformed, and held (R230). -/
def accounted (x : Flow) : Nat := x.used + x.dup + x.late + x.malformed + x.held.length

/-- `n` packets have arrived on flow `f` that no count holds yet; every other flow is in balance. -/
def Owes (f n : Nat) (s : State) : Prop :=
  ∀ g, (flowAt s g).arrivedA + (flowAt s g).arrivedB = accounted (flowAt s g) + if g = f then n else 0

variable {s t : State} {f c n : Nat}

theorem flowAt_setFlow (f : Nat) (x : Flow) (s : State) (g : Nat) :
    flowAt (setFlow f x s) g = if g = f then x else flowAt s g := smGet_smSet _ _ _ _ _

@[simp] theorem flowAt_setFlow_same (f : Nat) (x : Flow) (s : State) : flowAt (setFlow f x s) f = x := by
  rw [flowAt_setFlow, if_pos rfl]

theorem flowAt_of_flows_eq (h : t.flows = s.flows) (g : Nat) : flowAt t g = flowAt s g := by rw [flowAt, h, flowAt]

theorem Owes.of_flows_eq (h : t.flows = s.flows) (owes : Owes f n s) : Owes f n t := by
  intro g
  rw [flowAt_of_flows_eq h]
  exact owes g

theorem Owes.ite {p : Prop} [Decidable p] (hs : Owes f n s) (ht : Owes f n t) : Owes f n (if p then s else t) := by
  split
  · exact hs
  · exact ht

/-- With nothing owed every flow is in balance, whichever flow is named. -/
theorem Owes.zero (owes : Owes f 0 s) (f' : Nat) : Owes f' 0 s := by
  intro g
  have := owes g
  simpa using this

/-- A flow takes a new state: what it owes is what its own counts leave over. -/
theorem Owes.took {m : Nat} {x : Flow} (owes : Owes f n s)
    (hx : x.arrivedA + x.arrivedB + n + accounted (flowAt s f) =
      accounted x + m + ((flowAt s f).arrivedA + (flowAt s f).arrivedB)) : Owes f m (setFlow f x s) := by
  intro g
  have hg := owes g
  rw [flowAt_setFlow]
  split
  · next e =>
    rw [e, if_pos rfl] at hg
    omega
  · next e => rw [if_neg e] at hg; exact hg

/-- A flow takes a new state that accounts for as many packets. -/
theorem Owes.took_same {x : Flow} (owes : Owes f n s)
    (arrived : x.arrivedA + x.arrivedB = (flowAt s f).arrivedA + (flowAt s f).arrivedB)
    (same : accounted x = accounted (flowAt s f)) : Owes f n (setFlow f x s) :=
  owes.took (by omega)

theorem noteHist_counts (x : Flow) (first n : Nat) (got : Bool) :
    accounted (noteHist x first n got) = accounted x ∧ (noteHist x first n got).held = x.held ∧
      (noteHist x first n got).arrivedA = x.arrivedA ∧ (noteHist x first n got).arrivedB = x.arrivedB :=
  ⟨rfl, rfl, rfl, rfl⟩

/-! ## Counting a packet -/

theorem raiseOnce_owes (key : Nat) (ev : Ev) (hc : ev.code < 256) (owes : Owes f n s) :
    Owes f n (raiseOnce key ev s) := owes.of_flows_eq (raiseOnce_flows key ev hc s)

theorem release_owes (i : BsItem) (owes : Owes f n s) : Owes f n (release c i s) := owes.of_flows_eq rfl

theorem addReg_owes (off k : Nat) (owes : Owes f n s) : Owes f n (addReg s off k) := owes.of_flows_eq rfl

theorem wr_owes (off v : Nat) (owes : Owes f n s) : Owes f n (wr s off v) := owes.of_flows_eq rfl

theorem setFld_owes (off hi lo v : Nat) (owes : Owes f n s) : Owes f n (setFld s off hi lo v) := owes.of_flows_eq rfl

theorem setFlag_owes (off i : Nat) (b : Bool) (owes : Owes f n s) : Owes f n (setFlag s off i b) := owes.of_flows_eq rfl

theorem finish_owes (tag status r0 r1 r2 : Nat) (owes : Owes f n s) : Owes f n (finish tag status r0 r1 r2 s) :=
  owes.of_flows_eq rfl

/-- A malformed packet is accounted for (R224). -/
theorem countMalformed_owes (owes : Owes f (n + 1) s) : Owes f n (countMalformed f s) :=
  raiseOnce_owes f _ (by decide : (0x60 : Nat) < 256) (owes.took (by simp only [accounted]; omega))

theorem held_countMalformed (f : Nat) (s : State) : (flowAt (countMalformed f s) f).held = (flowAt s f).held := by
  rw [countMalformed, flowAt_of_flows_eq (raiseOnce_flows f _ (by decide : (0x60 : Nat) < 256) _), flowAt_setFlow_same]

/-- A late packet, or several, are accounted for (R225, R231). -/
theorem countLate_owes {k : Nat} (event : Bool) (owes : Owes f (n + k) s) : Owes f n (countLate f c k event s) := by
  unfold countLate
  split
  · next e => rwa [e] at owes
  · have counted : Owes f n (setFlow f { flowAt s f with late := (flowAt s f).late + k } s) :=
      owes.took (by simp only [accounted]; omega)
    dsimp only
    split
    · exact raiseOnce_owes c _ (by decide : (0x61 : Nat) < 256) counted
    · exact counted

theorem granaryMet_flows (a n : Nat) (s : State) : (granaryMet a n s).flows = s.flows :=
  (granaryMet_access a n (AccessOnly.refl s)).flows

/-- A packet that is held no longer is accounted for as used, or as malformed (R226, R367). -/
theorem releasePacket_owes (p : Pkt) (owes : Owes f (n + 1) s) : Owes f n (releasePacket f c p s) := by
  unfold releasePacket
  dsimp only
  split
  · exact release_owes _ (countMalformed_owes (owes.of_flows_eq (granaryMet_flows _ _ s)))
  · exact release_owes _ (owes.took (by simp only [accounted]; omega))

/-- A packet's release leaves what the flow still holds. -/
theorem held_releasePacket (f c : Nat) (p : Pkt) (s : State) :
    (flowAt (releasePacket f c p s) f).held = (flowAt s f).held := by
  have released : ∀ (i : BsItem) (t : State), flowAt (release c i t) f = flowAt t f := fun _ _ => rfl
  unfold releasePacket
  dsimp only
  split
  · rw [released, held_countMalformed]
    exact congrArg Flow.held (flowAt_of_flows_eq (granaryMet_flows _ _ s) f)
  · rw [released, flowAt_setFlow_same]

/-! ## Releasing held packets -/

/-- The contiguous held packets from NEXT are released, each accounted for (R225). -/
theorem releaseRun_owes (ps : List Pkt) (held : (flowAt s f).held = ps) (owes : Owes f n s) :
    Owes f n (releaseRun f c ps s) := by
  induction ps generalizing s with
  | nil => exact owes
  | cons p ps ih =>
    unfold releaseRun
    dsimp only
    split
    · have taken : Owes f (n + 1) (setFlow f (noteHist { flowAt s f with held := ps } p.seq 1 true) s) :=
        owes.took (by simp only [noteHist, accounted, held, List.length_cons]; omega)
      refine ih ?_ (releasePacket_owes p taken)
      rw [held_releasePacket, flowAt_setFlow_same]
      rfl
    · exact owes

/-- Packets in hand are released, each accounted for. -/
theorem foldl_releasePacket_owes (ps : List Pkt) (owes : Owes f (n + ps.length) s) :
    Owes f n (ps.foldl (fun s p => releasePacket f c p s) s) := by
  induction ps generalizing s with
  | nil => exact owes
  | cons p ps ih => exact ih (releasePacket_owes p (by rwa [List.length_cons, ← Nat.add_assoc] at owes))

/-- Every held packet is released (R222, R228). -/
theorem releaseAll_owes (owes : Owes f n s) : Owes f n (releaseAll f c s) :=
  foldl_releasePacket_owes _ (owes.took (by simp only [accounted, List.length_nil]; omega))

/-- Lost numbers are no packets (R226). -/
theorem declareLost_owes (k : Nat) (owes : Owes f n s) : Owes f n (declareLost f c k s) :=
  Owes.of_flows_eq (raiseTotal_access (by decide : (0x62 : Nat) < 256) c _ k (AccessOnly.refl _)).flows
    (addReg_owes _ _ (release_owes _ (owes.took_same rfl rfl)))

theorem advanceTo_owes (target fuel : Nat) (owes : Owes f n s) : Owes f n (advanceTo f c target fuel s) := by
  induction fuel generalizing s with
  | zero => exact owes
  | succ fuel ih =>
    unfold advanceTo
    dsimp only
    split
    · exact owes
    · exact ih (releaseRun_owes _ rfl (Owes.ite owes (declareLost_owes _ owes)))

/-- NEXT is declared lost while its deadline has passed (R226). -/
theorem jitterRun_owes (fuel : Nat) (owes : Owes f n s) : Owes f n (jitterRun f c fuel s) := by
  induction fuel generalizing s with
  | zero => exact owes
  | succ fuel ih =>
    unfold jitterRun
    split
    · exact Owes.ite (ih (releaseRun_owes _ rfl (Owes.ite owes (declareLost_owes _ owes)))) owes
    · exact owes

/-! ## A packet that arrives -/

theorem length_insertHeld (next : Nat) (p : Pkt) (qs : List Pkt) : (insertHeld next p qs).length = qs.length + 1 := by
  induction qs with
  | nil => rfl
  | cons q qs ih =>
    unfold insertHeld
    split
    · rfl
    · rw [List.length_cons, ih, List.length_cons]

theorem vstWrite_flows (a : Nat) (bs : List Byte) (s : State) : (vstWrite a bs s).flows = s.flows :=
  (dmaWrite_access (by decide : 24 < 32) 15 spCellar a bs (AccessOnly.refl s)).flows

/-- A packet that is held is accounted for (R225, R227). -/
theorem holdPacket_owes (p : RtpPkt) (rx desc : Nat) (owes : Owes f (n + 1) s) : Owes f n (holdPacket f c p rx desc s) := by
  unfold holdPacket
  refine releaseRun_owes _ rfl (Owes.of_flows_eq (vstWrite_flows _ _ _) (owes.took ?_))
  simp only [accounted, length_insertHeld]
  omega

/-- A packet without a free descriptor counts as late (R227). -/
theorem reorderFull_owes (owes : Owes f (n + 1) s) : Owes f n (reorderFull f c s) :=
  Owes.of_flows_eq (raiseTotal_access (by decide : (0x66 : Nat) < 256) c 0 1 (AccessOnly.refl _)).flows
    (countLate_owes false owes)

theorem acceptPacket_owes (p : RtpPkt) (rx : Nat) {before : State → State} (owes : Owes f (n + 1) s)
    (hbefore : Owes f (n + 1) (before s)) : Owes f n (acceptPacket f c p rx before s) := by
  unfold acceptPacket
  split
  · exact reorderFull_owes owes
  · exact holdPacket_owes p rx _ hbefore

/-- A restart (R228). -/
theorem flowRestart_owes (p : RtpPkt) (rx : Nat) (owes : Owes f (n + 1) s) : Owes f n (flowRestart f c p rx s) := by
  have emptied : Owes f (n + 1) (setFlow f { flowAt (release c (.loss 0) (releaseAll f c s)) f with
      next := some p.seq, hist := [], far := [] } (release c (.loss 0) (releaseAll f c s))) :=
    (release_owes _ (releaseAll_owes owes)).took_same rfl rfl
  exact acceptPacket_owes p rx (addReg_owes _ _ emptied) (addReg_owes _ _ emptied)

/-- A packet of a running flow is held, duplicate or late (R225). -/
theorem sequencePacket_owes (p : RtpPkt) (rx : Nat) (owes : Owes f (n + 1) s) : Owes f n (sequencePacket f c p rx s) := by
  have near : Owes f (n + 1) (setFlow f { flowAt s f with far := [] } s) := owes.took_same rfl rfl
  have dup : Owes f n (setFlow f { flowAt s f with far := [], dup := (flowAt s f).dup + 1 } s) :=
    owes.took (by simp only [accounted]; omega)
  unfold sequencePacket
  dsimp only
  split
  · split
    · exact dup
    · exact acceptPacket_owes p rx near near
  · split
    · exact acceptPacket_owes p rx near (advanceTo_owes _ _ near)
    · split
      · split
        · exact dup
        · exact countLate_owes true near
      · split
        · exact flowRestart_owes p rx owes
        · exact countLate_owes true (owes.took_same rfl rfl)

theorem latchSsrc_owes (u : UdpPkt) (owes : Owes f n s) : Owes f n (latchSsrc f u s) := by
  unfold latchSsrc
  dsimp only
  split
  · exact owes
  · exact wr_owes _ _ (owes.took_same rfl rfl)

theorem pathAccepts_owes (pathB : Bool) (owes : Owes f n s) : Owes f n (pathAccepts f pathB s) := by
  refine setFlag_owes _ _ _ (owes.took_same ?_ ?_) <;> cases pathB <;> rfl

/-- A packet of a bound flow counts as arrived, and is accounted for (R224, R225, R231, R441). -/
theorem flowPacket_owes (pathB : Bool) (key : List Nat) (u : UdpPkt) (stamp : Nat) (owes : Owes f n s) :
    Owes f n (flowPacket f c pathB key u stamp s) := by
  have arrived : ∀ x : Flow, x.arrivedA + x.arrivedB = (flowAt s f).arrivedA + (flowAt s f).arrivedB + 1 →
      accounted x = accounted (flowAt s f) → Owes f (n + 1) (latchSsrc f u (setFlow f x s)) :=
    fun x ha hx => latchSsrc_owes u (owes.took (by omega))
  have latched := arrived (if pathB then { flowAt s f with
        lastRx := flowStamp (flowAt s f) pathB stamp, lastB := pathB, arrivedB := (flowAt s f).arrivedB + 1 }
      else { flowAt s f with
        lastRx := flowStamp (flowAt s f) pathB stamp, lastB := pathB, arrivedA := (flowAt s f).arrivedA + 1 })
    (by cases pathB <;> simp <;> omega) (by cases pathB <;> rfl)
  unfold flowPacket
  dsimp only
  split
  · exact countMalformed_owes latched
  · have accepts := pathAccepts_owes pathB latched
    exact Owes.ite (countLate_owes true accepts) (Owes.ite (countLate_owes false accepts) (sequencePacket_owes _ _ accepts))

/-! ## Frames and the flow table -/

/-- Every flow is in balance (R58). -/
abbrev Balanced (s : State) : Prop := Owes 0 0 s

theorem balanced_iff : Balanced s ↔ ∀ f, (flowAt s f).arrivedA + (flowAt s f).arrivedB =
    (flowAt s f).used + (flowAt s f).dup + (flowAt s f).late + (flowAt s f).malformed + (flowAt s f).held.length :=
  forall_congr' fun f => by rw [accounted, ite_self, Nat.add_zero]

theorem rxDeliver_flows (q cls mac : Nat) (flow : Option Nat) (fr : List Byte) (rx : Nat) (s : State) :
    (rxDeliver q cls mac flow fr rx s).flows = s.flows := by
  unfold rxDeliver
  split
  · exact (raiseTotal_access (by decide : (0x65 : Nat) < 256) 0 0 1 (AccessOnly.refl _)).flows
  · next b _ =>
    have posted : (rxPosted q false s).flows = s.flows := by
      unfold rxPosted
      dsimp only
      split <;> exact setFld_flows _ _ _ _ _
    dsimp only
    split
    all_goals
      next e => exact (dmaWrite_access_of_eq (by decide) e).flows.trans posted

/-- A frame that the MAC passes on keeps every flow's balance (R218, R223). -/
theorem frameIn_balanced (m : Nat) (fr : List Byte) (rx : Nat) (balanced : Balanced s) : Balanced (frameIn m fr rx s) := by
  unfold frameIn
  split
  · exact balanced.of_flows_eq (rxDeliver_flows _ _ _ _ _ _ s)
  · exact balanced.of_flows_eq (rxDeliver_flows _ _ _ _ _ _ s)
  · exact balanced.of_flows_eq (rxDeliver_flows _ _ _ _ _ _ s)
  · exact balanced.of_flows_eq (rxDeliver_flows _ _ _ _ _ _ _)
  · split
    · split
      · exact addReg_owes _ _ balanced
      · exact (flowPacket_owes _ _ _ _ (balanced.zero _)).zero 0
    · exact addReg_owes _ _ balanced

theorem fecCount_flows (m : Nat) (o : EthObs) (s : State) : (fecCount m o s).flows = s.flows := by
  unfold fecCount
  dsimp only
  split
  · rfl
  · exact raiseOnce_flows m _ (by decide : (0x53 : Nat) < 256) _

/-- A frame that arrives keeps every flow's balance (R217). -/
theorem ethReceive_balanced (m : Nat) (fr : List Byte) (o : EthObs) (balanced : Balanced s) :
    Balanced (ethReceive m fr o s) := by
  have counted : Balanced (if macMode s m = 3 then fecCount m o s else s) :=
    Owes.ite (balanced.of_flows_eq (fecCount_flows m o s)) balanced
  unfold ethReceive
  dsimp only
  generalize (if macMode s m = 3 then fecCount m o s else s) = t at counted
  have tallied : ∀ off k, Balanced (addReg t off k) := fun off k => addReg_owes off k counted
  exact Owes.ite (tallied _ _) (Owes.ite (tallied _ _) (Owes.ite (tallied _ _) (Owes.ite (tallied _ _)
    (frameIn_balanced _ _ _ (tallied _ _)))))

/-- A flow changes in what no count depends on. -/
theorem Balanced.setFlow_same {x : Flow} (balanced : Balanced s) (f : Nat)
    (arrived : x.arrivedA + x.arrivedB = (flowAt s f).arrivedA + (flowAt s f).arrivedB)
    (same : accounted x = accounted (flowAt s f)) : Balanced (setFlow f x s) :=
  ((balanced.zero f).took_same arrived same).zero 0

theorem flowAdd_balanced (c : Cmd) (balanced : Balanced s) : Balanced (flowAdd c s) := by
  have keyed : ∀ (f : Nat) (b : Bool) (k : Option (List Nat)),
      Balanced (setFlow f (if b then { flowAt s f with keyB := k } else { flowAt s f with keyA := k }) s) := fun f b k =>
    balanced.setFlow_same f (by cases b <;> rfl) (by cases b <;> rfl)
  unfold flowAdd
  dsimp only
  refine Owes.ite (finish_owes _ _ _ _ _ balanced) (Owes.ite (finish_owes _ _ _ _ _ balanced)
    (finish_owes _ _ _ _ _ (Owes.ite ?_ ?_)))
  all_goals exact wr_owes _ _ (setFld_owes _ _ _ _ (setFlag_owes _ _ _ (keyed _ _ _)))

theorem dropKey_balanced (f : Nat) (pathB : Bool) (balanced : Balanced s) : Balanced (dropKey f pathB s) := by
  unfold dropKey
  dsimp only
  have dropped : Balanced (setFlow f (if pathB then { flowAt s f with keyB := none } else { flowAt s f with keyA := none }) s) :=
    balanced.setFlow_same f (by cases pathB <;> rfl) (by cases pathB <;> rfl)
  refine Owes.ite ?_ ?_
  all_goals exact wr_owes _ _ (setFld_owes _ _ _ _ (setFlag_owes _ _ _ (setFlag_owes _ _ _ dropped)))

theorem flowUnbind_balanced (f : Nat) (balanced : Balanced s) : Balanced (flowUnbind f s) :=
  setFld_owes _ _ _ _ (setFlag_owes _ _ _ (balanced.setFlow_same f rfl rfl))

theorem flowDel_balanced (c : Cmd) (balanced : Balanced s) : Balanced (flowDel c s) := by
  have drop : ∀ (p : Prop) [Decidable p] (f : Nat) (b : Bool) {t : State}, Balanced t →
      Balanced (if p then dropKey f b t else t) := fun _ _ f b _ h => Owes.ite (dropKey_balanced f b h) h
  have dropped := drop (bit (c.w 2) 17 = true) (bits (c.w 2) 9 0) true
    (drop (bit (c.w 2) 16 = true) (bits (c.w 2) 9 0) false balanced)
  unfold flowDel
  dsimp only
  refine Owes.ite (finish_owes _ _ _ _ _ balanced) (finish_owes _ _ _ _ _ ?_)
  split
  · exact Owes.ite (wr_owes _ _ (flowUnbind_balanced _ dropped)) dropped
  · exact dropped

theorem onCmd_balanced (tag opcode : Nat) {op : Cmd → State → State} (hop : ∀ c, Balanced s → Balanced (op c s))
    (balanced : Balanced s) : Balanced (onCmd tag opcode s op) := by
  unfold onCmd
  split
  · exact Owes.ite (hop _ balanced) balanced
  · exact balanced

theorem waitElapsed_flows (t : Nat) (s : State) : (waitElapsed t s).flows = s.flows := by
  unfold waitElapsed
  split <;> rfl

theorem live_balanced {op : State → State} (hop : Balanced s → Balanced (op s)) (balanced : Balanced s)
    (ht : live s op = .next t) : Balanced t := by
  injection ht with ht
  rw [← ht]
  exact Owes.ite (hop balanced) balanced

/-! ## O43 -/

theorem exec_ethFrameReceive_balanced (m : Fin 8) (fr : List Byte) (o : EthObs) (balanced : Balanced s)
    (ht : exec (.ethFrameReceive m fr o) s = .next t) : Balanced t :=
  live_balanced (fun h => Owes.ite (ethReceive_balanced _ _ _ h) h) balanced ht

theorem exec_jitterDeadline_balanced (f : Fin 1024) (balanced : Balanced s)
    (ht : exec (.jitterDeadline f) s = .next t) : Balanced t := by
  change execJitterDeadline f s = _ at ht
  unfold execJitterDeadline at ht
  refine live_balanced (fun h => ?_) balanced ht
  split
  · split
    · exact (jitterRun_owes 256 (Owes.of_flows_eq (waitElapsed_flows _ s) (h.zero _))).zero 0
    · exact h
  · exact h

theorem exec_pathSilentTimeout_balanced (f : Fin 1024) (b : Bool) (balanced : Balanced s)
    (ht : exec (.pathSilentTimeout f b) s = .next t) : Balanced t := by
  change execPathSilentTimeout f b s = _ at ht
  unfold execPathSilentTimeout at ht
  refine live_balanced (fun h => ?_) balanced ht
  dsimp only
  split
  · refine Owes.ite (h.of_flows_eq ?_) h
    rw [raise_flows _ (by decide : (0x63 : Nat) < 256), setFlag_flows, waitElapsed_flows]
  · exact h

/-- Settles O43: a packet counts as arrived and is then owed until one count or the held list takes it; every operation of
the five commands pays what it takes. -/
theorem packetBalanceKept : Obligations.PacketBalanceKept := by
  unfold Obligations.PacketBalanceKept
  intro c s t hc ht balanced
  rw [← balanced_iff] at balanced ⊢
  obtain ⟨m, fr, o, rfl⟩ | ⟨f, rfl⟩ | ⟨f, b, rfl⟩ | ⟨tag, rfl⟩ | ⟨tag, rfl⟩ := hc
  · exact exec_ethFrameReceive_balanced m fr o balanced ht
  · exact exec_jitterDeadline_balanced f balanced ht
  · exact exec_pathSilentTimeout_balanced f b balanced ht
  · exact live_balanced (op := fun s => onCmd tag.val 0x18 s flowAdd) (onCmd_balanced _ _ flowAdd_balanced) balanced ht
  · exact live_balanced (op := fun s => onCmd tag.val 0x19 s flowDel) (onCmd_balanced _ _ flowDel_balanced) balanced ht

end Sys2Proof.Machine
end

section
/-!
PROOFS. The wall tick's own registers: its timebase, RUN, GUARD_PM and the pools (R22 to R31, R48 to R50).
-/

namespace Sys2Proof.Machine

variable {s t : State}

/-- A command to a block that runs, while the device runs. -/
theorem live_running (run : running s = true) (f : State → State) : live s f = .next (f s) := by rw [live, if_pos run]

/-! ## Registers read alike, and registers written in turn -/

theorem fld_of_rd_eq {off : Nat} (h : rd t off = rd s off) (hi lo : Nat) : fld t off hi lo = fld s off hi lo := by
  rw [fld, h, fld]

theorem flag_of_rd_eq {off : Nat} (h : rd t off = rd s off) (i : Nat) : flag t off i = flag s off i := by rw [flag, h, flag]

theorem rd_wr_same_of_lt (s : State) (off : Nat) {v : Nat} (h : v < 2 ^ 32) : rd (wr s off v) off = v := by
  rw [rd_wr_same, Nat.mod_eq_of_lt h]

theorem bits_bits (w : Nat) (hi : Nat) : bits (bits w hi 0) hi 0 = bits w hi 0 := by
  rw [bits, pow_zero, Nat.div_one, Nat.mod_eq_of_lt (bits_lt w hi 0)]

theorem bits_lt_word (w : Nat) {hi lo : Nat} (h : hi < 32) : bits w hi lo < 2 ^ 32 :=
  Nat.lt_of_lt_of_le (bits_lt w hi lo) (Nat.pow_le_pow_right (by decide) (by omega))

theorem bits_mod_word (w lo : Nat) {hi : Nat} (h : hi < 32) (hl : lo ≤ hi) : bits (w % 2 ^ 32) hi lo = bits w hi lo := by
  have cut : ∀ x : Nat, bits x hi lo = x % 2 ^ (hi + 1) / 2 ^ lo := fun x => by
    rw [bits, show hi + 1 = lo + (hi + 1 - lo) by omega, pow_add, Nat.mod_mul_right_div_self, Nat.add_sub_cancel_left]
  rw [cut, cut, Nat.mod_mod_of_dvd _ (pow_dvd_pow 2 (by omega))]

/-- A field of a register written whole. -/
theorem fld_wr_same (s : State) (off v lo : Nat) {hi : Nat} (h : hi < 32) (hl : lo ≤ hi) :
    fld (wr s off v) off hi lo = bits v hi lo := by rw [fld, rd_wr_same, bits_mod_word v lo h hl]

section inTurn

variable {off : Nat → Nat} {v : State → Nat → Nat}

theorem rd_foldl_wr_other {o : Nat} (l : List Nat) (h : ∀ i ∈ l, o ≠ off i) (s : State) :
    rd (l.foldl (fun s i => wr s (off i) (v s i)) s) o = rd s o := by
  induction l generalizing s with
  | nil => rfl
  | cons i l ih =>
    rw [List.foldl_cons, ih (fun j hj => h j (.tail _ hj)), rd_wr_other s _ (h i (.head _))]

/-- Registers written in turn, each with a value that none of the others enters, read as written. -/
theorem rd_foldl_wr {l : List Nat} (nodup : l.Nodup) (inj : ∀ i j, off i = off j → i = j)
    (apart : ∀ s i x j, v (wr s (off i) x) j = v s j) {k : Nat} (hk : k ∈ l) (s : State) :
    rd (l.foldl (fun s i => wr s (off i) (v s i)) s) (off k) = v s k % 2 ^ 32 := by
  induction l generalizing s with
  | nil => cases hk
  | cons i l ih =>
    obtain ⟨fresh, nodup⟩ := List.nodup_cons.1 nodup
    rw [List.foldl_cons]
    by_cases e : k = i
    · have others : ∀ j ∈ l, off k ≠ off j := fun j hj same => fresh (e ▸ inj k j same ▸ hj)
      rw [rd_foldl_wr_other l others, e, rd_wr_same]
    · rw [ih nodup ((List.mem_cons.1 hk).resolve_left e), apart]

theorem foldl_wr_onlyRegs {p : Nat → Bool} (l : List Nat) (h : ∀ i ∈ l, p (off i) = true) (s : State) :
    OnlyRegs p s (l.foldl (fun s i => wr s (off i) (v s i)) s) :=
  OnlyRegs.foldl l (OnlyRegs.refl s) fun _ i hi ht => ht.wr _ _ (h i hi)

end inTurn

/-! ## The sheaf unit's generation (R138) and BUDGET_SHORT (R55) -/

/-- The registers of the sheaf unit. -/
def shfReg (off : Nat) : Bool := decide (0x70000 ≤ off ∧ off < 0x80000)

theorem genStep_onlyRegs (s : State) : OnlyRegs shfReg s (genStep s) := by
  have slot : ∀ k ∈ List.range 8, shfReg (R.SHF_SLOT_STATE k) = true := fun k hk => by
    have := List.mem_range.1 hk
    rw [shfReg, decide_eq_true_iff, R.SHF_SLOT_STATE]
    omega
  refine OnlyRegs.foldl _ ((OnlyRegs.refl s).addReg _ 1 (by decide)) (fun t k hk ht => ?_)
  exact (ht.setFld _ 1 0 2 (slot k hk)).ite ht

theorem rd_genStep (s : State) {off : Nat} (h : shfReg off = false) : rd (genStep s) off = rd s off :=
  (genStep_onlyRegs s).regs off h

theorem rd_budgetShort (s : State) {off : Nat} (h : off ≠ R.TCK_STATUS) : rd (budgetShort s) off = rd s off :=
  rd_setFld_other s _ _ _ h

/-! ## The timebase (R22, R29) -/

/-- EV_TICK_CFG_IGNORED leaves its sticky bit (R27, R29, R30). -/
theorem flag_tickIgnored {why : Nat} (h : why < 28) (s : State) : flag (tickIgnored why s) R.TCK_STATUS (4 + why) = true := by
  rw [tickIgnored, flag_of_rd_eq (rd_raise _ (by decide : (0x10 : Nat) < 256) _ (by decide)),
    flag_setFlag_same _ _ _ _ (by omega)]

theorem rd_tickIgnored (why : Nat) (s : State) {off : Nat} (he : eventReg off = false) (hs : off ≠ R.TCK_STATUS) :
    rd (tickIgnored why s) off = rd s off := by
  rw [tickIgnored, rd_raise _ (by decide : (0x10 : Nat) < 256) _ he, setFlag, rd_setFld_other _ _ _ _ hs]

theorem next_tickIgnored (why : Nat) (s : State) : (tickIgnored why s).tck.next = s.tck.next := by
  rw [tickIgnored, raise_tck_next _ (by decide : (0x10 : Nat) < 256), setFlag_tck]

theorem tickRun_tickIgnored (why : Nat) (s : State) : tickRun (tickIgnored why s) = tickRun s :=
  flag_of_rd_eq (rd_tickIgnored why s (by decide) (by decide)) 0

theorem timebaseWrite_held (reg v : Nat) (run : tickRun s = true) : timebaseWrite reg v s = tickIgnored 1 s := if_pos run

/-- Settles O19: while RUN is 1 the write is EV_TICK_CFG_IGNORED alone, while it is 0 it stores one register. -/
theorem timebaseHeldWhileRunning : Obligations.TimebaseHeldWhileRunning := by
  unfold Obligations.TimebaseHeldWhileRunning
  intro reg v s run
  have answer : exec (.tickTimebaseWrite reg v) s = .next (timebaseWrite reg.val v.toNat s) := live_running run _
  refine ⟨fun ticking => ?_, fun stopped => ⟨timebaseWrite reg.val v.toNat s, answer, ?_⟩⟩
  · rw [answer, timebaseWrite_held _ _ ticking]
    refine ⟨rfl, fun t ht => ?_⟩
    injection ht with ht
    rw [← ht]
    have kept : ∀ off, eventReg off = false → off ≠ R.TCK_STATUS → rd (tickIgnored 1 s) off = rd s off :=
      fun off he hs => rd_tickIgnored 1 s he hs
    simp only [tickNum, tickDen, tickPhase, fld, kept R.TCK_PERIOD_NUM (by decide) (by decide),
      kept R.TCK_PERIOD_DEN (by decide) (by decide), kept R.TCK_PHASE_NS (by decide) (by decide),
      kept R.TCK_PHASE_FRAC (by decide) (by decide), and_self]
  · have word : v.toNat < 4294967296 := v.isLt
    rw [timebaseWrite, if_neg (by simp [stopped])]
    fin_cases reg
    all_goals
      refine ⟨?_, ?_, ?_, ?_, (OnlyRegs.refl s).wr _ _ (by decide)⟩
      all_goals simp (disch := decide) [tickNum, tickDen, tickPhase, fld_wr_same, fld_wr_other, rd_wr_other, bits_bits, word]

/-! ## GUARD_PM (R49, R50) -/

theorem clampNat_eq {lo hi v : Nat} (h : lo ≤ hi) : clampNat lo hi v = max lo (min hi v) := by
  unfold clampNat
  split
  · omega
  · split <;> omega

theorem guardPm_wr (v : Nat) (s : State) :
    guardPm (wr s R.TCK_GUARD (clampNat 50 500 v)) = max 50 (min 500 v) := by
  rw [guardPm, fld, rd_wr_same, clampNat_eq (by decide), bits]
  omega

/-- The limits, written in turn. -/
def limitsWritten (s : State) : State :=
  (List.range 4).foldl (fun s p => wr s (R.TCK_POOL_LIMIT p) (guardLimit s (rd s (R.TCK_POOL_CAP p)))) s

theorem rd_withTck (s : State) (x : TickSt) (off : Nat) : rd { s with tck := x } off = rd s off := rfl

/-- Limits and engine limits follow the capacities (R49). -/
theorem poolLimits_eq (s : State) : ∃ lims, poolLimits s =
    { limitsWritten s with tck := { (limitsWritten s).tck with engineLimit := lims } } := ⟨_, rfl⟩

theorem rd_poolLimits (s : State) (off : Nat) : rd (poolLimits s) off = rd (limitsWritten s) off := by
  obtain ⟨lims, e⟩ := poolLimits_eq s
  rw [e, rd_withTck]

theorem limitsWritten_tck (s : State) : (limitsWritten s).tck = s.tck := by
  have written := foldl_wr_onlyRegs (p := fun _ => true) (off := R.TCK_POOL_LIMIT)
    (v := fun s p => guardLimit s (rd s (R.TCK_POOL_CAP p))) (List.range 4) (fun _ _ => rfl) s
  exact (congrArg State.tck written.rest :)

theorem poolLimits_entries (s : State) : (poolLimits s).tck.entries = s.tck.entries := by
  obtain ⟨lims, e⟩ := poolLimits_eq s
  rw [e]
  exact (congrArg TickSt.entries (limitsWritten_tck s) :)

theorem rd_poolLimits_other (s : State) {off : Nat} (h : ∀ p < 4, off ≠ R.TCK_POOL_LIMIT p) :
    rd (poolLimits s) off = rd s off := by
  rw [rd_poolLimits, limitsWritten, rd_foldl_wr_other _ (fun p hp => h p (List.mem_range.1 hp))]

theorem rd_poolLimits_limit (s : State) {p : Nat} (hp : p < 4) :
    rd (poolLimits s) (R.TCK_POOL_LIMIT p) = guardLimit s (rd s (R.TCK_POOL_CAP p)) % 2 ^ 32 := by
  rw [rd_poolLimits, limitsWritten]
  refine rd_foldl_wr (List.nodup_range) ?_ ?_ (List.mem_range.2 hp) s
  · intro i j e
    rw [R.TCK_POOL_LIMIT, R.TCK_POOL_LIMIT] at e
    omega
  · intro s i x j
    have guard : R.TCK_GUARD ≠ R.TCK_POOL_LIMIT i := by rw [R.TCK_GUARD, R.TCK_POOL_LIMIT]; omega
    have cap : R.TCK_POOL_CAP j ≠ R.TCK_POOL_LIMIT i := by rw [R.TCK_POOL_CAP, R.TCK_POOL_LIMIT]; omega
    rw [guardLimit, guardPm, fld_wr_other s x 9 0 guard, rd_wr_other s x cap]
    rfl

/-- A limit is no more than its capacity, so that it fits its register. -/
theorem guardLimit_lt (s : State) {cap : Nat} (h : cap < 2 ^ 32) : guardLimit s cap < 2 ^ 32 := by
  refine Nat.lt_of_le_of_lt ?_ h
  calc cap * (1000 - guardPm s) / 1000 ≤ cap * 1000 / 1000 := Nat.div_le_div_right (Nat.mul_le_mul_left _ (Nat.sub_le _ _))
    _ = cap := Nat.mul_div_cancel _ (by decide)

/-- Settles O20: the write stores the clamped value, and the limits are written from it and the capacities. -/
theorem guardPmClampsAndRecomputes : Obligations.GuardPmClampsAndRecomputes := by
  unfold Obligations.GuardPmClampsAndRecomputes
  intro v s run
  have stored := guardPm_wr (bits v.toNat 9 0) s
  have only : OnlyRegs (fun o => decide (o = R.TCK_GUARD)) s (wr s R.TCK_GUARD (clampNat 50 500 (bits v.toNat 9 0))) :=
    (OnlyRegs.refl s).wr _ _ (by decide)
  have answer : exec (.guardPmWrite v) s = .next (guardPmWrite v.toNat s) := live_running run _
  refine ⟨_, answer, ?_⟩
  rw [guardPmWrite]
  generalize wr s R.TCK_GUARD (clampNat 50 500 (bits v.toNat 9 0)) = u at stored only ⊢
  have kept : ∀ off, off ≠ R.TCK_GUARD → rd u off = rd s off := fun off h => only.regs off (decide_eq_false h)
  have entries : u.tck.entries = s.tck.entries := by rw [only.rest]
  have committed : ∀ p, R.TCK_POOL_COMMITTED p ≠ R.TCK_GUARD := fun p => by rw [R.TCK_POOL_COMMITTED, R.TCK_GUARD]; omega
  have cap : ∀ p, R.TCK_POOL_CAP p ≠ R.TCK_GUARD := fun p => by rw [R.TCK_POOL_CAP, R.TCK_GUARD]; omega
  have runs : tickRun u = tickRun s := flag_of_rd_eq (kept _ (by decide)) 0
  by_cases ticking : tickRun s = true
  · rw [if_pos (runs.trans ticking)]
    have guard : guardPm (poolLimits u) = guardPm u :=
      fld_of_rd_eq (rd_poolLimits_other u fun p _ => by rw [R.TCK_GUARD, R.TCK_POOL_LIMIT]; omega) 9 0
    refine ⟨guard.trans stored, (poolLimits_entries u).trans entries, fun p hp => ⟨?_, ?_⟩, fun _ p hp => ?_,
      fun stopped => absurd ticking (by simp [stopped])⟩
    · rw [rd_poolLimits_other u fun q _ => by rw [R.TCK_POOL_COMMITTED, R.TCK_POOL_LIMIT]; omega, kept _ (committed p)]
    · rw [rd_poolLimits_other u fun q _ => by rw [R.TCK_POOL_CAP, R.TCK_POOL_LIMIT]; omega, kept _ (cap p)]
    · rw [rd_poolLimits_limit u hp, Nat.mod_eq_of_lt (guardLimit_lt u (rd_lt u _)), guard, kept _ (cap p)]
      rfl
  · rw [if_neg (by rw [runs]; exact ticking)]
    exact ⟨stored, entries, fun p _ => ⟨kept _ (committed p), kept _ (cap p)⟩, fun h => absurd h ticking, fun _ => only⟩

/-! ## Starting the tick (R22, R24, R27, R28) -/

theorem ceilDiv_le_iff {a b n : Nat} (hb : 0 < b) : ceilDiv a b ≤ n ↔ a ≤ n * b := by
  rw [ceilDiv, ← Nat.lt_succ_iff, Nat.div_lt_iff_lt_mul hb, Nat.succ_mul]
  omega

/-- `tickFrom` is the first tick at or after a time (R22, R23). -/
theorem tickFrom_le_iff {x n : Nat} (num : 0 < tickNum s) (den : 0 < tickDen s) :
    tickFrom s x ≤ n ↔ x ≤ tickInstant s n := by
  unfold tickFrom tickInstant
  generalize tickPhase s = phase
  split
  · next early => exact ⟨fun _ => early.trans (Nat.le_add_right _ _), fun _ => Nat.zero_le _⟩
  · rw [ceilDiv_le_iff (by positivity), ← Nat.le_div_iff_mul_le den, Nat.sub_le_iff_le_add', Nat.mul_assoc]

/-- RUN is set with a timebase that keeps R24. -/
theorem tickStart_valid (stopped : tickRun s = false) (valid : timebaseValid s = true) :
    tickStart s = { setFlag s R.TCK_CTRL 0 true with tck := { s.tck with
      next := some (tickFrom s (s.clock + 100000 * nsUnit)), first := some (tickFrom s (s.clock + 100000 * nsUnit)),
      capStage := none } } := by
  rw [tickStart, stopped, valid]
  rfl

theorem tickRun_withTck (s : State) (x : TickSt) : tickRun { s with tck := x } = tickRun s :=
  flag_of_rd_eq (rd_withTck s x _) 0

theorem timebaseValid_pos (h : timebaseValid s = true) : 0 < tickNum s ∧ 0 < tickDen s := by
  obtain ⟨den, lo, -, -⟩ := of_decide_eq_true h
  omega

/-! ## Stopping the tick (R30, R49) -/

/-- The pools are without capacity. -/
def poolsCleared (s : State) : State :=
  (List.range 4).foldl (fun s p => wr (wr s (R.TCK_POOL_CAP p) 0) (R.TCK_POOL_LIMIT p) 0) s

theorem rd_foldl_clear {off : Nat} (l : List Nat)
    (h : rd s off = 0 ∨ ∃ p ∈ l, off = R.TCK_POOL_CAP p ∨ off = R.TCK_POOL_LIMIT p) :
    rd (l.foldl (fun s p => wr (wr s (R.TCK_POOL_CAP p) 0) (R.TCK_POOL_LIMIT p) 0) s) off = 0 := by
  induction l generalizing s with
  | nil => simpa using h
  | cons p l ih =>
    refine ih ?_
    rw [rd_wr, rd_wr]
    by_cases e : off = R.TCK_POOL_CAP p ∨ off = R.TCK_POOL_LIMIT p
    · left
      rcases e with e | e <;> simp [e]
    · rw [not_or] at e
      rcases h with h | ⟨q, hq, hoff⟩
      · left
        simp [h]
      · rcases List.mem_cons.1 hq with rfl | hq
        · exact absurd hoff (by simp [e])
        · exact .inr ⟨q, hq, hoff⟩

theorem rd_poolsCleared {p : Nat} (hp : p < 4) (s : State) :
    rd (poolsCleared s) (R.TCK_POOL_CAP p) = 0 ∧ rd (poolsCleared s) (R.TCK_POOL_LIMIT p) = 0 :=
  ⟨rd_foldl_clear _ (.inr ⟨p, List.mem_range.2 hp, .inl rfl⟩), rd_foldl_clear _ (.inr ⟨p, List.mem_range.2 hp, .inr rfl⟩)⟩

/-- No tick is to come. -/
def tickNone (s : State) : State :=
  { s with tck := { s.tck with next := none, first := none, capStage := none, engineLimit := [0, 0, 0, 0] } }

theorem rd_tickNone (s : State) (off : Nat) : rd (tickNone s) off = rd s off := rd_withTck s _ off

/-- The tick has stopped, but for SHF_GEN and BUDGET_SHORT. -/
def tickHalted (s : State) : State :=
  tickNone (poolsCleared (setFlag (setFlag (raiseTotals s) R.TCK_CTRL 0 false) R.TCK_STATUS 0 false))

theorem tickStop_halts (run : tickRun s = true) (off : unitsOff s = true) : ∃ u,
    (u = tickHalted s ∨ u = genStep (tickHalted s)) ∧ tickStop s = budgetShort u := by
  refine ⟨if (List.range 4).any (fun p => decide (rd (raiseTotals s) (R.TCK_POOL_CAP p) ≠ 0)) then genStep (tickHalted s)
    else tickHalted s, ?_, ?_⟩
  · split
    · exact .inr rfl
    · exact .inl rfl
  · rw [tickStop, run, off]
    rfl

theorem rd_tickStop (run : tickRun s = true) (off : unitsOff s = true) {o : Nat} (hs : shfReg o = false)
    (ht : o ≠ R.TCK_STATUS) : rd (tickStop s) o = rd (tickHalted s) o := by
  obtain ⟨u, hu, e⟩ := tickStop_halts run off
  rw [e, rd_budgetShort u ht]
  rcases hu with rfl | rfl
  · rfl
  · exact rd_genStep _ hs

theorem next_tickStop (run : tickRun s = true) (off : unitsOff s = true) : (tickStop s).tck.next = none := by
  obtain ⟨u, hu, e⟩ := tickStop_halts run off
  rw [e, budgetShort, setFlag_tck]
  rcases hu with rfl | rfl
  · rfl
  · rw [(genStep_onlyRegs (tickHalted s)).rest]
    rfl

/-- The registers of the pools. -/
def poolReg (off : Nat) : Bool := decide (0x50040 ≤ off ∧ off < 0x50080)

theorem poolsCleared_onlyRegs (s : State) : OnlyRegs poolReg s (poolsCleared s) := by
  refine OnlyRegs.foldl _ (OnlyRegs.refl s) fun t p hp ht => (ht.wr _ 0 ?_).wr _ 0 ?_
  all_goals
    have := List.mem_range.1 hp
    rw [poolReg, decide_eq_true_iff]
  · rw [R.TCK_POOL_CAP]; omega
  · rw [R.TCK_POOL_LIMIT]; omega

theorem tickRun_tickStop (run : tickRun s = true) (off : unitsOff s = true) : tickRun (tickStop s) = false := by
  have kept : rd (tickHalted s) R.TCK_CTRL =
      rd (setFlag (setFlag (raiseTotals s) R.TCK_CTRL 0 false) R.TCK_STATUS 0 false) R.TCK_CTRL := by
    rw [tickHalted, rd_tickNone, (poolsCleared_onlyRegs _).regs _ (by decide)]
  rw [tickRun, flag_of_rd_eq ((rd_tickStop run off (by decide) (by decide)).trans kept),
    flag_setFlag_other _ _ _ _ (by decide), flag_setFlag_same _ _ _ _ (by decide)]

/-- Settles O18. -/
theorem tickRunStartsAndStops : Obligations.TickRunStartsAndStops := by
  unfold Obligations.TickRunStartsAndStops
  intro s run
  have start : exec .tickRunStart s = .next (tickStart s) := live_running run _
  have stop : exec .tickRunStop s = .next (tickStop s) := live_running run _
  refine ⟨fun stopped valid => ?_, fun stopped broken => ⟨tickStart s, start, ?_⟩,
    fun ticking off => ⟨tickStop s, stop, tickRun_tickStop ticking off, next_tickStop ticking off, fun p hp => ?_⟩,
    fun ticking busy => ⟨tickStop s, stop, ?_⟩⟩
  · obtain ⟨num, den⟩ := timebaseValid_pos valid
    refine ⟨tickStart s, tickFrom s (s.clock + 100000 * nsUnit), start, ?_, ?_, (tickFrom_le_iff num den).1 le_rfl,
      fun m hm => Nat.lt_of_not_le fun h => absurd ((tickFrom_le_iff num den).2 h) (Nat.not_le.2 hm)⟩
    · rw [tickStart_valid stopped valid, tickRun_withTck, tickRun, flag_setFlag_same _ _ _ _ (by decide)]
    · rw [tickStart_valid stopped valid]
  · rw [tickStart, stopped, broken]
    exact ⟨(tickRun_tickIgnored 0 s).trans stopped, flag_tickIgnored (by decide) s, next_tickIgnored 0 s⟩
  · have cap := rd_tickStop ticking off (o := R.TCK_POOL_CAP p) (by rw [shfReg, decide_eq_false_iff_not, R.TCK_POOL_CAP]; omega)
      (by rw [R.TCK_POOL_CAP, R.TCK_STATUS]; omega)
    have limit := rd_tickStop ticking off (o := R.TCK_POOL_LIMIT p)
      (by rw [shfReg, decide_eq_false_iff_not, R.TCK_POOL_LIMIT]; omega) (by rw [R.TCK_POOL_LIMIT, R.TCK_STATUS]; omega)
    rw [cap, limit, tickHalted, rd_tickNone, rd_tickNone]
    exact rd_poolsCleared hp _
  · rw [tickStop, ticking, busy]
    exact ⟨(tickRun_tickIgnored 2 s).trans ticking, flag_tickIgnored (by decide) s, next_tickIgnored 2 s⟩

end Sys2Proof.Machine
end

section
/-!
PROOFS. Waiting for an instant (the model's log entry 4), and the instant of a seal (R22, R35, R36).
-/

namespace Sys2Proof.Machine

variable {s : State}

/-! ## Time passes -/

theorem le_add_ceilDiv_mul {t now step : Nat} (h : 0 < step) : t ≤ now + ceilDiv (t - now) step * step := by
  have := (ceilDiv_le_iff (a := t - now) (n := ceilDiv (t - now) step) h).1 le_rfl
  omega

/-- Where the clock runs, waiting reaches the instant. -/
theorem le_clock_waitClock {t : Nat} (h : 0 < inc s ∨ t ≤ s.clock) : t ≤ (waitClock t s).clock := by
  unfold waitClock
  split
  · next stays => exact stays.elim id fun still => h.resolve_left (by omega)
  · next moves => exact le_add_ceilDiv_mul (Nat.pos_of_ne_zero fun still => moves (.inr still))

theorem le_elapsed_waitElapsed {t : Nat} (h : 0 < inc s) : t ≤ (waitElapsed t s).elapsed := by
  unfold waitElapsed
  split
  · next stays => exact stays.resolve_right h.ne'
  · exact le_add_ceilDiv_mul h

/-- Time that passes changes the clocks alone. -/
theorem waitClock_rest (t : Nat) (s : State) : waitClock t s = { s with
    clock := (waitClock t s).clock, elapsed := (waitClock t s).elapsed, updates := (waitClock t s).updates } := by
  unfold waitClock
  split <;> rfl

theorem waitElapsed_rest (t : Nat) (s : State) : waitElapsed t s = { s with
    clock := (waitElapsed t s).clock, elapsed := (waitElapsed t s).elapsed, updates := (waitElapsed t s).updates } := by
  unfold waitElapsed
  split <;> rfl

/-! ## The seal -/

/-- The last thing a seal does is to note how long it took. -/
theorem sealTick_noted (n t : Nat) (o : SealObs) (s : State) : ∃ u,
    sealTick n t o s = wr u R.TCK_SEAL_MAX (max (rd u R.TCK_SEAL_MAX) o.durNs.val) := by
  unfold sealTick
  exact ⟨_, rfl⟩

theorem durNs_le_sealMax (n t : Nat) (o : SealObs) (s : State) : o.durNs.val ≤ rd (sealTick n t o s) R.TCK_SEAL_MAX := by
  obtain ⟨u, e⟩ := sealTick_noted n t o s
  have old := rd_lt u R.TCK_SEAL_MAX
  have dur := o.durNs.isLt
  rw [e, rd_wr_same_of_lt u _ (by omega)]
  exact Nat.le_max_right _ _

/-- The seal of the next tick at an instant that the clock reaches (R35). -/
theorem exec_tickSeal {n : Nat} (o : SealObs) (run : running s = true) (next : s.tck.next = some n)
    (reached : 0 < inc s ∨ tickInstant s n ≤ s.clock) :
    exec (.tickSeal o) s = .next (sealTick n (tickInstant s n) o (waitClock (tickInstant s n) s)) := by
  show execTickSeal o s = _
  rw [execTickSeal, live_running run, next]
  exact congrArg Host.Outcome.next (if_neg (Nat.not_lt.2 (le_clock_waitClock reached)))

/-- Settles O21: the seal of the next tick keeps its number and its T_N in step 1, and its length in TCK_SEAL_MAX last. -/
theorem sealTakesNumberAndInstant : Obligations.SealTakesNumberAndInstant := by
  unfold Obligations.SealTakesNumberAndInstant
  intro o s run
  refine ⟨fun n next reached => ⟨_, exec_tickSeal o run next reached, ?_, ?_, durNs_le_sealMax _ _ _ _⟩, fun idle => ?_⟩
  · exact (sealTick_last n _ o _).1
  · exact (sealTick_last n _ o _).2
  · show execTickSeal o s = _
    rw [execTickSeal, live_running run, idle]

end Sys2Proof.Machine
end

section
/-!
PROOFS. What the encode sessions that follow a head may change when a frame of the head begins, goes on, ends or fails
(R325 to R328): a session, the slot or the writeback buffer that it holds, and the sessions' own registers.
-/

namespace Sys2Proof.Machine

/-- The registers of the encode sessions. -/
def sessionReg (off : Nat) : Bool := decide (0x241000 ≤ off ∧ off < 0x242000)

/-- Two states that differ at most in what accesses and events write, in the encode sessions and their registers, in the
slots of channels, and in the writeback buffers of heads. -/
structure SessionWork (a b : State) : Prop where
  regs : ∀ off, accessReg off = false → sessionReg off = false → rd b off = rd a off
  head : ∀ h, headAt b h = { headAt a h with wbs := (headAt b h).wbs }
  rest : b = { a with regs := b.regs, host := b.host, cellar := b.cellar, overwritten := b.overwritten, bar2 := b.bar2,
                      rng := { a.rng with posted := b.rng.posted }, cell := b.cell, draws := b.draws, chans := b.chans,
                      heads := b.heads, encs := b.encs,
                      tck := { a.tck with once := b.tck.once, totals := b.tck.totals } }

theorem SessionWork.refl (s : State) : SessionWork s s := ⟨fun _ _ _ => rfl, fun _ => rfl, rfl⟩

theorem SessionWork.trans {a b c : State} (h : SessionWork a b) (j : SessionWork b c) : SessionWork a c := by
  refine ⟨fun off ha hs => (j.regs off ha hs).trans (h.regs off ha hs), fun k => ?_, ?_⟩
  · rw [j.head k, h.head k]
  · obtain ⟨-, -, hb⟩ := h
    obtain ⟨-, -, hc⟩ := j
    rw [hc, hb]

theorem headAt_of_heads_eq {s t : State} (h : t.heads = s.heads) (k : Nat) : headAt t k = headAt s k := by
  rw [headAt, h, headAt]

theorem AccessOnly.work {a b : State} (h : AccessOnly a b) : SessionWork a b := by
  refine ⟨fun off ho _ => h.regs off ho, fun k => by rw [headAt_of_heads_eq h.heads], ?_⟩
  obtain ⟨-, hb⟩ := h
  rw [hb]

section fields

variable {a b : State} (h : SessionWork a b)
include h

theorem SessionWork.clock : b.clock = a.clock := by rw [h.rest]
theorem SessionWork.elapsed : b.elapsed = a.elapsed := by rw [h.rest]
theorem SessionWork.latched : b.latched = a.latched := by rw [h.rest]
theorem SessionWork.layers : b.layers = a.layers := by rw [h.rest]
theorem SessionWork.lanes : b.lanes = a.lanes := by rw [h.rest]
theorem SessionWork.part : b.part = a.part := by rw [h.rest]
theorem SessionWork.next : b.tck.next = a.tck.next := by rw [h.rest]

theorem SessionWork.scan (k : Nat) : (headAt b k).scan = (headAt a k).scan := by rw [h.head]

end fields

variable {a s : State}

theorem SessionWork.ite {x y : State} {c : Prop} [Decidable c] (hx : SessionWork a x) (hy : SessionWork a y) :
    SessionWork a (if c then x else y) := by
  split
  · exact hx
  · exact hy

theorem SessionWork.foldlMem {β : Type} {f : State → β → State} (l : List β) (h : SessionWork a s)
    (hf : ∀ t x, x ∈ l → SessionWork a t → SessionWork a (f t x)) : SessionWork a (l.foldl f s) := by
  induction l generalizing s with
  | nil => exact h
  | cons x l ih => exact ih (hf s x (.head _) h) fun t y hy => hf t y (.tail _ hy)

/-! ## The operations -/

theorem headAt_setHead (h : Nat) (x : Head) (s : State) (k : Nat) :
    headAt (setHead h x s) k = if k = h then x else headAt s k := smGet_smSet _ _ _ _ _

@[simp] theorem headAt_setHead_same (h : Nat) (x : Head) (s : State) : headAt (setHead h x s) h = x := by
  rw [headAt_setHead, if_pos rfl]

theorem setEnc_work (n : Nat) (x : EncSt) (h : SessionWork a s) : SessionWork a (setEnc n x s) :=
  h.trans ⟨fun _ _ _ => rfl, fun _ => rfl, rfl⟩

theorem updSlot_work (c k : Nat) (f : Slot → Slot) (h : SessionWork a s) : SessionWork a (updSlot c k f s) :=
  h.trans ⟨fun _ _ _ => rfl, fun _ => rfl, rfl⟩

theorem setWb_work (h k : Nat) (x : WbBuf) (w : SessionWork a s) : SessionWork a (setWb h k x s) := by
  refine w.trans ⟨fun _ _ _ => rfl, fun j => ?_, rfl⟩
  unfold setWb
  dsimp only
  rw [headAt_setHead]
  split
  · next e => rw [e]
  · rfl

theorem sessionReg_of {n k : Nat} (hn : n < 16) (hk : k < 0x100) : sessionReg (0x241000 + k + n * 0x100) = true := by
  rw [sessionReg, decide_eq_true_iff]
  omega

theorem wr_work {off : Nat} (v : Nat) (ho : sessionReg off = true) (h : SessionWork a s) : SessionWork a (wr s off v) := by
  refine h.trans ⟨fun o _ hs => rd_wr_other s v ?_, fun _ => rfl, rfl⟩
  rintro rfl
  rw [ho] at hs
  cases hs

theorem encHold_work (f : Sealed) (h : SessionWork a s) : SessionWork a (encHold f s) :=
  (updSlot_work _ _ _ h).ite (setWb_work _ _ _ h)

theorem encReleaseOpt_work (f : Option Sealed) (h : SessionWork a s) : SessionWork a (encReleaseOpt f s) := by
  cases f with
  | none => exact h
  | some f => exact (updSlot_work _ _ _ h).ite (setWb_work _ _ _ h)

theorem encBegin_work (n : Nat) (i : EncFollow) (follow cut : Bool) (h : SessionWork a s) :
    SessionWork a (encBegin n i follow cut s) := by
  have drawn : SessionWork a { s with draws := s.draws + 1 } := h.trans ⟨fun _ _ _ => rfl, fun _ => rfl, rfl⟩
  exact setEnc_work _ _ drawn

theorem encFollowStart_work {n : Nat} (hn : n < 16) (cut : Bool) (h : SessionWork a s) :
    SessionWork a (encFollowStart n cut s) := by
  unfold encFollowStart
  dsimp only
  split
  · exact h
  · next i _ =>
    have taken := setEnc_work n { encAt s n with next := none } h
    exact (encReleaseOpt_work _ (wr_work _ (sessionReg_of (k := 0x64) hn (by decide)) taken)).ite
      (encBegin_work n i true cut taken)

theorem encFollowers_lt {h m n : Nat} (hn : n ∈ encFollowers s h m) : n < 16 := by
  rw [encFollowers, List.mem_filter] at hn
  exact List.mem_range.1 hn.1

theorem encNoScan_work (h m : Nat) (w : SessionWork a s) : SessionWork a (encNoScan h m s) :=
  w.foldlMem _ fun _ _ hn ht => (encFollowStart_work (encFollowers_lt hn) false ht).ite ht

theorem encLine_work (h m upto : Nat) (w : SessionWork a s) : SessionWork a (encLine h m upto s) :=
  w.foldlMem _ fun _ _ hn ht => (encFollowStart_work (encFollowers_lt hn) false ht).ite ht

theorem encWbFailed_work (h m : Nat) (w : SessionWork a s) : SessionWork a (encWbFailed h m s) := by
  have begun := w.foldlMem (encFollowers s h m) fun t n hn ht =>
    (encFollowStart_work (encFollowers_lt hn) true ht).ite (c := (encAt t n).next.any (fun i => i.held.isSome) = true) ht
  refine begun.foldlMem _ fun t n _ ht => ?_
  dsimp only
  split
  · exact (setEnc_work _ _ ht).ite ht
  · exact ht

theorem encScanBegin_work (h m : Nat) (buf : Option Nat) (failed : Bool) (cap : Int) (taints : Nat) (w : SessionWork a s) :
    SessionWork a (encScanBegin h m buf failed cap taints s) := by
  refine w.foldlMem _ fun t n hn ht => ?_
  have session := encFollowers_lt hn
  dsimp only
  split
  · exact (encHold_work _ (setEnc_work _ _ ht)).ite
      (encFollowStart_work session false (wr_work _ (sessionReg_of (k := 0x68) session (by decide)) ht))
  · exact encFollowStart_work session failed ht

end Sys2Proof.Machine
end

section
/-!
PROOFS. Steps of the local clock (R32, R116, R117, R125, R311): what the triggers and heads do after a step leaves the
clock, the next tick and the time unit's own registers.
-/

namespace Sys2Proof.Machine

variable {a s t : State}

/-- The local clock, the next tick to seal and the time unit's registers below its capture inputs are the same. -/
structure TimeKept (a b : State) : Prop where
  clock : b.clock = a.clock
  next : b.tck.next = a.tck.next
  regs : ∀ off, 0x40000 ≤ off → off < 0x40100 → rd b off = rd a off

theorem TimeKept.refl (s : State) : TimeKept s s := ⟨rfl, rfl, fun _ _ _ => rfl⟩

theorem TimeKept.trans {a b c : State} (h : TimeKept a b) (j : TimeKept b c) : TimeKept a c :=
  ⟨j.clock.trans h.clock, j.next.trans h.next, fun off lo hi => (j.regs off lo hi).trans (h.regs off lo hi)⟩

theorem SessionWork.timeKept {a b : State} (h : SessionWork a b) : TimeKept a b := by
  refine ⟨h.clock, h.next, fun off lo hi => h.regs off (accessReg_low (by omega)) ?_⟩
  rw [sessionReg, decide_eq_false_iff_not]
  omega

theorem TimeKept.ite {x y : State} {c : Prop} [Decidable c] (hx : TimeKept a x) (hy : TimeKept a y) :
    TimeKept a (if c then x else y) := by
  split
  · exact hx
  · exact hy

theorem TimeKept.foldl {β : Type} {f : State → β → State} (l : List β) (h : TimeKept a s)
    (hf : ∀ t x, TimeKept a t → TimeKept a (f t x)) : TimeKept a (l.foldl f s) := by
  induction l generalizing s with
  | nil => exact h
  | cons x l ih => exact ih (hf s x h)

section writes

variable (h : TimeKept a s)
include h

theorem TimeKept.raise (ev : Ev) (hc : ev.code < 256) : TimeKept a (raise ev s) :=
  h.trans (AccessOnly.raise ev hc (AccessOnly.refl s)).work.timeKept

theorem TimeKept.wr {off : Nat} (v : Nat) (ho : 0x40100 ≤ off) : TimeKept a (wr s off v) :=
  h.trans ⟨rfl, rfl, fun _ _ hi => rd_wr_other s v (by omega)⟩

theorem TimeKept.setFld {off : Nat} (hi lo v : Nat) (ho : 0x40100 ≤ off) : TimeKept a (setFld s off hi lo v) := h.wr _ ho

theorem TimeKept.setFlag {off : Nat} (i : Nat) (b : Bool) (ho : 0x40100 ≤ off) : TimeKept a (setFlag s off i b) := h.wr _ ho

theorem TimeKept.addReg {off : Nat} (n : Nat) (ho : 0x40100 ≤ off) : TimeKept a (addReg s off n) := h.wr _ ho

theorem TimeKept.setHead (k : Nat) (x : Head) : TimeKept a (setHead k x s) := h.trans ⟨rfl, rfl, fun _ _ _ => rfl⟩

theorem TimeKept.setTrig (k : Nat) (x : TrigSt) : TimeKept a (setTrig k x s) := h.trans ⟨rfl, rfl, fun _ _ _ => rfl⟩

theorem TimeKept.updCmd (tag : Nat) (f : Cmd → Cmd) : TimeKept a (updCmd tag f s) := h.trans ⟨rfl, rfl, fun _ _ _ => rfl⟩

theorem TimeKept.genStep : TimeKept a (genStep s) := by
  have only := genStep_onlyRegs s
  refine h.trans ⟨by rw [only.rest], by rw [only.rest], fun off _ hi => rd_genStep s ?_⟩
  rw [shfReg, decide_eq_false_iff_not]
  omega

end writes

/-! ## Triggers -/

theorem trigDisarm_timeKept (k : Nat) (h : TimeKept a s) : TimeKept a (trigDisarm k s) :=
  h.setFlag 4 false (by rw [R.TIM_TRIG_CTRL]; omega)

/-- A trigger computes its next instant afresh (R125). -/
theorem trigStepped_timeKept (k : Nat) (h : TimeKept a s) : TimeKept a (trigStepped k s) := by
  have missed : ∀ m : Nat, TimeKept a (if 0 < m then
      Machine.raise { code := 0x39, unit := k, a0 := m } (addFld s (R.TIM_TRIG_CTRL k) 31 8 m) else s) := fun m =>
    ((h.setFld _ _ _ (by rw [R.TIM_TRIG_CTRL]; omega)).raise _ (by decide : (0x39 : Nat) < 256)).ite h
  unfold trigStepped
  dsimp only
  refine h.ite (((missed _).setTrig _ _).ite (TimeKept.ite ?_ (trigDisarm_timeKept k (missed _))))
  exact trigDisarm_timeKept k ((missed _).setFlag _ _ (by rw [R.TIM_TRIG_CTRL]; omega))

theorem triggersStepped_timeKept (h : TimeKept a s) : TimeKept a (triggersStepped s) :=
  h.foldl _ fun _ _ ht => trigStepped_timeKept _ ht

/-! ## Heads -/

theorem deferAbandon_timeKept (k : Nat) (h : TimeKept a s) : TimeKept a (deferAbandon k s) := by
  have dropped : TimeKept a { s with shf := { s.shf with deferred := s.shf.deferred.filter (fun d => !d.2.2.2.contains k) } } :=
    h.trans ⟨rfl, rfl, fun _ _ _ => rfl⟩
  exact dropped.foldl _ fun _ _ ht => ht.updCmd _ _

theorem dropUnbegun_timeKept (k : Nat) (h : TimeKept a s) : TimeKept a (dropUnbegun k s) := by
  unfold dropUnbegun
  dsimp only
  split
  · exact h.ite ((h.setHead _ _).trans (encNoScan_work _ _ (SessionWork.refl _)).timeKept)
  · exact h

theorem pllStart_timeKept (k : Nat) (h : TimeKept a s) : TimeKept a (pllStart k s) :=
  (h.setFlag _ _ (by rw [R.HEAD_STATUS]; omega)).setHead _ _

theorem headokUpdate_timeKept (k : Nat) (h : TimeKept a s) : TimeKept a (headokUpdate k s) := by
  have reg : 0x40100 ≤ R.WIN_LT_STATUS k := by rw [R.WIN_LT_STATUS]; omega
  have shown := h.setFlag (off := R.WIN_LT_STATUS k) 0 (headokRule s k) reg
  exact ((shown.setFlag 1 false reg).raise _ (by decide : (0x27 : Nat) < 256)).ite shown

theorem finishWaiters_timeKept (kind u purpose status : Nat) (h : TimeKept a s) :
    TimeKept a (finishWaiters kind u purpose status s) := h.foldl _ fun _ _ ht => ht.updCmd _ _

theorem unitReg_high (kind u : Nat) : 0x40100 ≤ unitReg kind u := by
  unfold unitReg ringStatus ringBase
  rw [R.SRC_STATE, R.HEAD_STATUS, R.VEN_STATE]
  split_ifs <;> omega

theorem setUnit_timeKept (kind u new : Nat) (queued : Bool) (h : TimeKept a s) :
    TimeKept a (setUnit kind u new queued s) := by
  have reg := unitReg_high kind u
  have stepped : TimeKept a (if kind < 3 then genStep s else s) := h.genStep.ite h
  have moved := stepped.setFld 1 0 new reg
  have noted : ∀ {t : State}, TimeKept a t → TimeKept a (noteOff kind u t) := fun ht => ht.trans ⟨rfl, rfl, fun _ _ _ => rfl⟩
  exact ((noted moved).ite moved).raise _ (by decide : (9 : Nat) < 256)

theorem setHeadState_timeKept (k new : Nat) (h : TimeKept a s) : TimeKept a (setHeadState k new s) := by
  have reg : 0x40100 ≤ R.HEAD_CTRL k := by rw [R.HEAD_CTRL]; omega
  unfold setHeadState
  dsimp only
  refine h.ite (headokUpdate_timeKept _ ?_)
  have moved := setUnit_timeKept 1 k new (enableQueued s 1 k || decide ((headAt s k).restart ≠ 0 ∧ new = 3)) h
  have shown := ((finishWaiters_timeKept 1 k auxQueued stUnitState moved).ite
    (c := unitState s 1 k = 3 ∧ new ≠ 0) moved).setFlag (off := R.HEAD_CTRL k) 0 (decide (new = 1 ∨ new = 2)) reg
  exact (shown.setHead _ _).ite shown

/-- A re-time of a head (R311). -/
theorem retimeHead_timeKept (k : Nat) (h : TimeKept a s) : TimeKept a (retimeHead k s) := by
  have status : 0x40100 ≤ R.HEAD_STATUS k := by rw [R.HEAD_STATUS]; omega
  have retimes : 0x40100 ≤ R.HEAD_RETIMES k := by rw [R.HEAD_RETIMES]; omega
  refine TimeKept.raise (TimeKept.addReg (TimeKept.setFlag ?_ 4 true status) 1 retimes) _ (by decide : (0x86 : Nat) < 256)
  refine pllStart_timeKept k (setHeadState_timeKept k 1 (dropUnbegun_timeKept k ?_))
  exact (deferAbandon_timeKept k h).setHead k _

theorem headsStepped_timeKept (h : TimeKept a s) : TimeKept a (headsStepped s) :=
  h.foldl _ fun _ _ ht => ht.ite ((ht.setHead _ _).ite (retimeHead_timeKept _ ht))

/-! ## The tick after a step (R32, R33) -/

/-- T_N and the tick after a time rest on the timebase registers (R22, R23). -/
theorem tickAfter_congr (h : ∀ off, 0x50008 ≤ off → off < 0x50018 → rd t off = rd s off) (x : Nat) :
    tickAfter t x = tickAfter s x := by
  have num : tickNum t = tickNum s := h _ (by decide) (by decide)
  have den : tickDen t = tickDen s := fld_of_rd_eq (h _ (by decide) (by decide)) 15 0
  have phase : tickPhase t = tickPhase s := by
    rw [tickPhase, tickPhase, fld_of_rd_eq (h R.TCK_PHASE_NS (by decide) (by decide)),
      h R.TCK_PHASE_FRAC (by decide) (by decide)]
  rw [tickAfter, tickAfter, tickFrom, tickFrom, num, den, phase]

/-- A step of the clock changes the tick to come and the tick unit's own state. -/
theorem tickStepped_kept (old : Nat) (s : State) : ∃ x : TickSt, TimeKept { s with tck := x } (tickStepped old s) := by
  have skipped : 0x40100 ≤ R.TCK_SKIPPED := by decide
  have rebased : 0x40100 ≤ R.TCK_REBASE := by decide
  have tick : ∀ (x : TickSt) {u : State}, TimeKept s u → TimeKept { s with tck := x } { u with tck := x } :=
    fun x _ h => ⟨h.clock, rfl, h.regs⟩
  unfold tickStepped
  dsimp only
  split
  · cases s.tck.next with
    | none => exact ⟨s.tck, (TimeKept.refl s).raise _ (by decide : (0x11 : Nat) < 256)⟩
    | some n =>
      have moved := tick { s.tck with next := some (max n (tickAfter s s.clock)) }
        ((TimeKept.refl s).addReg (max n (tickAfter s s.clock) - n) skipped)
      exact ⟨_, moved.raise _ (by decide : (0x11 : Nat) < 256)⟩
  · exact ⟨_, (tick _ ((TimeKept.refl s).setFld 15 0 _ rebased)).raise _ (by decide : (0x11 : Nat) < 256)⟩

/-- After a forward step the next tick is no earlier than the first tick after the stepped time (R32). -/
theorem next_tickStepped {old n : Nat} (forward : old ≤ s.clock) (next : s.tck.next = some n) :
    (tickStepped old s).tck.next = some (max n (tickAfter s s.clock)) := by
  unfold tickStepped
  rw [if_pos (by omega), next]
  exact raise_tck_next _ (by decide : (0x11 : Nat) < 256) _

/-- A step of the local clock to a time: what follows it leaves the time (R32, R33, R125, R311). -/
theorem clockStep_kept (now : Nat) (s : State) : ∃ x : TickSt, TimeKept { s with clock := now, tck := x } (clockStep now s) := by
  obtain ⟨x, hx⟩ := tickStepped_kept s.clock { s with clock := now }
  exact ⟨x, headsStepped_timeKept (triggersStepped_timeKept hx)⟩

theorem clock_clockStep (now : Nat) (s : State) : (clockStep now s).clock = now :=
  have ⟨_, kept⟩ := clockStep_kept now s
  kept.clock

theorem rd_clockStep (now : Nat) (s : State) {off : Nat} (lo : 0x40000 ≤ off) (hi : off < 0x40100) :
    rd (clockStep now s) off = rd s off :=
  have ⟨_, kept⟩ := clockStep_kept now s
  kept.regs off lo hi

theorem next_clockStep {now n : Nat} (forward : s.clock ≤ now) (next : s.tck.next = some n) :
    (clockStep now s).tck.next = some (max n (tickAfter s now)) := by
  have after := headsStepped_timeKept (triggersStepped_timeKept (TimeKept.refl (tickStepped s.clock { s with clock := now })))
  refine after.next.trans ((next_tickStepped (s := { s with clock := now }) forward next).trans ?_)
  rw [tickAfter_congr (t := { s with clock := now }) (s := s) fun _ _ _ => rfl]

/-! ## STEP_ACCEPT (R74, R116) -/

/-- A K write that makes its pair take effect (R74). -/
theorem huskK_of_pairValue {off k v : Nat} (h : pairValue s off k = some v) (effect : Nat → State → State) :
    huskK off k effect s = effect v (huskDrop off s) := by
  unfold pairValue at h
  split at h
  · next p pending =>
    split at h
    · next sound =>
      obtain ⟨mask, fresh, complement⟩ := sound
      have kept : huskExpire off s = s := by
        rw [huskExpire, pending]
        exact if_neg (Nat.not_le.2 fresh)
      have value : p.v.toNat &&& huskMask s off = v := Option.some.inj h
      have dropped : huskMask (huskDrop off s) off = huskMask s off := rfl
      rw [huskK, if_neg mask]
      dsimp only
      rw [kept, pending]
      dsimp only
      rw [if_pos complement, dropped, value]
    · cases h
  · cases h

/-- The pair's value is stored, and counts in SHF_GEN (R138), before it takes effect. -/
def acceptStored (v : Nat) (s : State) : State :=
  huskStore R.TIM_STEP_ACCEPT v (genStep (huskDrop R.TIM_STEP_ACCEPT s))

theorem rd_acceptStored (v : Nat) (s : State) {off : Nat} (hs : shfReg off = false) (hv : off ≠ R.TIM_STEP_ACCEPT)
    (hk : off ≠ R.TIM_STEP_ACCEPT + 4) : rd (acceptStored v s) off = rd s off := by
  rw [acceptStored, huskStore, rd_wr_other _ _ hk, rd_wr_other _ _ hv, rd_genStep _ hs]
  rfl

theorem acceptStored_rest (v : Nat) (s : State) :
    (acceptStored v s).clock = s.clock ∧ (acceptStored v s).tck.next = s.tck.next := by
  have only := (genStep_onlyRegs (huskDrop R.TIM_STEP_ACCEPT s)).rest
  rw [acceptStored, huskStore, only]
  exact ⟨rfl, rfl⟩

theorem exec_stepAccept {k : Word} {v : Nat} (run : running s = true) (pair : pairValue s R.TIM_STEP_ACCEPT k.toNat = some v) :
    exec (.stepAccept k) s = .next (stepAccept v (huskDrop R.TIM_STEP_ACCEPT s)) := by
  show execStepAccept k s = _
  rw [execStepAccept, live_running run, huskK_of_pairValue pair]

/-- A bit of TIM_STATUS is set and an event raised: nothing else of the time unit's registers or of the tick's changes. -/
theorem rd_statusNoted (ev : Ev) (hc : ev.code < 256) (s : State) (i : Nat) (b : Bool) {off : Nat}
    (ho : eventReg off = false) (hs : off ≠ R.TIM_STATUS) :
    rd (raise ev (setFlag s R.TIM_STATUS i b)) off = rd s off :=
  (rd_raise ev hc _ ho).trans (rd_wr_other s _ hs)

theorem flag_statusNoted (ev : Ev) (hc : ev.code < 256) (s : State) {i : Nat} (hi : i < 32) (b : Bool) :
    flag (raise ev (setFlag s R.TIM_STATUS i b)) R.TIM_STATUS i = b :=
  (flag_of_rd_eq (rd_raise ev hc _ (by decide)) i).trans (flag_setFlag_same s R.TIM_STATUS i b hi)

theorem clock_statusNoted (ev : Ev) (hc : ev.code < 256) (s : State) (i : Nat) (b : Bool) :
    (raise ev (setFlag s R.TIM_STATUS i b)).clock = s.clock := raise_clock ev hc _

theorem next_statusNoted (ev : Ev) (hc : ev.code < 256) (s : State) (i : Nat) (b : Bool) :
    (raise ev (setFlag s R.TIM_STATUS i b)).tck.next = s.tck.next := raise_tck_next ev hc _

/-- The event of an accepted step (R116). -/
def stepEvent (s : State) : Ev :=
  { code := 0x33, a0 := uint 64 (pendingOfs s), a1 := uint 64 (pendingOfs s) / 2 ^ 32, a2 := fld s R.TIM_PEND_ID 15 0 }

/-- An accepted step, before the clock takes it: no step is pending. -/
def stepShown (v : Nat) (s : State) : State :=
  raise (stepEvent (acceptStored v s)) (setFlag (acceptStored v s) R.TIM_STATUS 3 false)

theorem fld_acceptStored_id (v : Nat) (s : State) :
    fld (acceptStored v s) R.TIM_PEND_ID 15 0 = fld s R.TIM_PEND_ID 15 0 :=
  fld_of_rd_eq (rd_acceptStored v s (by decide) (by decide) (by decide)) 15 0

theorem flag_acceptStored_pending (v : Nat) (s : State) : flag (acceptStored v s) R.TIM_STATUS 3 = flag s R.TIM_STATUS 3 :=
  flag_of_rd_eq (rd_acceptStored v s (by decide) (by decide) (by decide)) 3

theorem pendingOfs_acceptStored (v : Nat) (s : State) : pendingOfs (acceptStored v s) = pendingOfs s := by
  rw [pendingOfs, rd64, rd_acceptStored v s (by decide) (by decide) (by decide),
    rd_acceptStored v s (by decide) (by decide) (by decide), pendingOfs, rd64]

theorem stepAccept_current {v : Nat} (current : v = fld s R.TIM_PEND_ID 15 0) (pending : flag s R.TIM_STATUS 3 = true) :
    stepAccept v (huskDrop R.TIM_STEP_ACCEPT s) = clockStep ((s.clock : Int) - pendingOfs s * 65536).toNat (stepShown v s) := by
  have clock : (stepShown v s).clock = s.clock :=
    (clock_statusNoted (stepEvent _) (by decide : (0x33 : Nat) < 256) _ _ _).trans (acceptStored_rest v s).1
  have taken : (decide (v = fld (acceptStored v s) R.TIM_PEND_ID 15 0) && flag (acceptStored v s) R.TIM_STATUS 3) = true := by
    rw [fld_acceptStored_id, flag_acceptStored_pending, pending, decide_eq_true current]
    rfl
  rw [← clock, ← pendingOfs_acceptStored v s]
  exact if_pos taken

theorem stepAccept_stale {v : Nat} (stale : v ≠ fld s R.TIM_PEND_ID 15 0 ∨ flag s R.TIM_STATUS 3 = false) :
    stepAccept v (huskDrop R.TIM_STEP_ACCEPT s) = raise { code := 0x34, a0 := v, a1 := fld (acceptStored v s) R.TIM_PEND_ID 15 0 }
      (setFlag (acceptStored v s) R.TIM_STATUS 7 true) := by
  have refused : ¬ (decide (v = fld (acceptStored v s) R.TIM_PEND_ID 15 0) && flag (acceptStored v s) R.TIM_STATUS 3) = true := by
    rw [fld_acceptStored_id, flag_acceptStored_pending, Bool.and_eq_true, decide_eq_true_eq]
    rintro ⟨current, pending⟩
    rcases stale with stale | stale
    · exact stale current
    · rw [stale] at pending
      cases pending
  exact if_neg refused

theorem rd_stepShown (v : Nat) (s : State) {off : Nat} (he : eventReg off = false) (hs : off ≠ R.TIM_STATUS)
    (hg : shfReg off = false) (hv : off ≠ R.TIM_STEP_ACCEPT) (hk : off ≠ R.TIM_STEP_ACCEPT + 4) :
    rd (stepShown v s) off = rd s off :=
  (rd_statusNoted (stepEvent _) (by decide : (0x33 : Nat) < 256) _ _ _ he hs).trans (rd_acceptStored v s hg hv hk)

theorem clock_stepShown (v : Nat) (s : State) : (stepShown v s).clock = s.clock :=
  (clock_statusNoted (stepEvent _) (by decide : (0x33 : Nat) < 256) _ _ _).trans (acceptStored_rest v s).1

theorem next_stepShown (v : Nat) (s : State) : (stepShown v s).tck.next = s.tck.next :=
  (next_statusNoted (stepEvent _) (by decide : (0x33 : Nat) < 256) _ _ _).trans (acceptStored_rest v s).2

theorem tickAfter_stepShown (v : Nat) (s : State) (x : Nat) : tickAfter (stepShown v s) x = tickAfter s x := by
  refine tickAfter_congr (fun off lo hi => rd_stepShown v s ?_ ?_ ?_ ?_ ?_) x
  · rw [eventReg, decide_eq_false_iff_not]; omega
  · rw [R.TIM_STATUS]; omega
  · rw [shfReg, decide_eq_false_iff_not]; omega
  · rw [R.TIM_STEP_ACCEPT]; omega
  · rw [R.TIM_STEP_ACCEPT]; omega

/-! ## TIME_SET (R117) -/

theorem exec_timeSet {v : Word} (run : running s = true) (go : bit v.toNat 0 = true) :
    exec (.timeSet v) s = .next (timeSet s) := by
  show execTimeSet v s = _
  rw [execTimeSet, live_running run, if_pos go]

theorem timeSet_free (free : timeState s = 0) (idle : flag s R.TIM_STATUS 3 = false) :
    timeSet s = clockStep (mkTime (rd64 s R.TIM_SET_SEC_LO R.TIM_SET_SEC_HI) (min 999999999 (fld s R.TIM_SET_NS 29 0))
      (rd s R.TIM_SET_FRAC)) s := by
  rw [timeSet, free, idle]
  rfl

theorem timeSet_ignored (h : timeState s ≠ 0 ∨ flag s R.TIM_STATUS 3 = true) :
    timeSet s = raise { code := 0x35, sub := timeState s } (setFlag s R.TIM_STATUS 6 true) := by
  refine if_neg ?_
  rw [Bool.and_eq_true, decide_eq_true_eq, Bool.not_eq_true']
  rintro ⟨free, idle⟩
  rcases h with h | h
  · exact h free
  · rw [idle] at h
    cases h

/-- Settles O24: the time unit's registers and the tick to come survive what a step of the clock does to triggers and
heads. -/
theorem clockStepsAndTimeSet : Obligations.ClockStepsAndTimeSet := by
  refine ⟨fun k v s run pair => ⟨fun current pending => ?_, fun stale => ?_⟩,
    fun v s run go => ⟨fun free idle => ?_, fun h => ?_⟩⟩
  · have shown : ∀ {off : Nat}, 0x40000 ≤ off → off < 0x40100 → eventReg off = false → off ≠ R.TIM_STATUS → shfReg off = false →
        off ≠ R.TIM_STEP_ACCEPT → off ≠ R.TIM_STEP_ACCEPT + 4 →
        rd (clockStep ((s.clock : Int) - pendingOfs s * 65536).toNat (stepShown v s)) off = rd s off :=
      fun lo hi he hs hg hv hk => (rd_clockStep _ _ lo hi).trans (rd_stepShown v s he hs hg hv hk)
    refine ⟨_, (exec_stepAccept run pair).trans (congrArg _ (stepAccept_current current pending)), clock_clockStep _ _, ?_,
      shown (by decide) (by decide) (by decide) (by decide) (by decide) (by decide) (by decide),
      shown (by decide) (by decide) (by decide) (by decide) (by decide) (by decide) (by decide), fun n next forward => ?_⟩
    · exact (flag_of_rd_eq (rd_clockStep _ _ (by decide) (by decide)) 3).trans
        (flag_statusNoted (stepEvent _) (by decide : (0x33 : Nat) < 256) _ (by decide) false)
    · rw [clock_clockStep] at forward ⊢
      rw [next_clockStep (by rwa [clock_stepShown]) ((next_stepShown v s).trans next), tickAfter_stepShown]
  · refine ⟨_, (exec_stepAccept run pair).trans (congrArg _ (stepAccept_stale stale)), ?_,
      flag_statusNoted _ (by decide : (0x34 : Nat) < 256) _ (by decide) true, ?_⟩
    · exact (clock_statusNoted _ (by decide : (0x34 : Nat) < 256) _ _ _).trans (acceptStored_rest v s).1
    · exact (next_statusNoted _ (by decide : (0x34 : Nat) < 256) _ _ _).trans (acceptStored_rest v s).2
  · refine ⟨_, (exec_timeSet run go).trans (congrArg _ (timeSet_free free idle)), clock_clockStep _ _, fun n next forward => ?_⟩
    rw [clock_clockStep] at forward ⊢
    exact next_clockStep forward next
  · exact ⟨_, (exec_timeSet run go).trans (congrArg _ (timeSet_ignored h)),
      clock_statusNoted _ (by decide : (0x35 : Nat) < 256) _ _ _,
      flag_statusNoted _ (by decide : (0x35 : Nat) < 256) _ (by decide) true⟩

end Sys2Proof.Machine
end

section
/-!
PROOFS. A head's frame begins and runs (R45, R275, R302 to R307): what the operations of any head leave of one head's frame,
and the five commands.
-/

namespace Sys2Proof.Machine

/-! ## What every operation on heads leaves of a head -/

/-- Number, next line, active scan and start of a frame in scan. -/
def Scan.mark (q : Scan) : Nat × Nat × Bool × Nat := (q.n, q.line, q.active, q.baseAt)

/-- Two states in which a head's frame stands at the same place: its marks, the end of the frame before it, what its start
is computed from (R302), ADJ and POS of the head, and STATE and LOCKED of every head. -/
structure HeadView (h : Nat) (a b : State) : Prop where
  regs : ∀ off, off < 0x60000 ∨ off = R.HEAD_ADJ h ∨ off = R.HEAD_POS h → rd b off = rd a off
  status : ∀ j hi lo, j < 24 → lo ≤ hi → hi < 5 → fld b (R.HEAD_STATUS j) hi lo = fld a (R.HEAD_STATUS j) hi lo
  scan : (headAt b h).scan.map Scan.mark = (headAt a h).scan.map Scan.mark
  endAt : (headAt b h).endAt = (headAt a h).endAt
  phaseMove : (headAt b h).phaseMove = (headAt a h).phaseMove
  latched : b.latched = a.latched
  part : b.part = a.part
  clock : b.clock = a.clock
  elapsed : b.elapsed = a.elapsed

variable {a b s : State} {h k : Nat}

theorem HeadView.refl (h : Nat) (s : State) : HeadView h s s :=
  ⟨fun _ _ => rfl, fun _ _ _ _ _ _ => rfl, rfl, rfl, rfl, rfl, rfl, rfl, rfl⟩

theorem HeadView.trans {c : State} (v : HeadView h a b) (w : HeadView h b c) : HeadView h a c :=
  ⟨fun off ho => (w.regs off ho).trans (v.regs off ho),
    fun j hi lo hj hl hh => (w.status j hi lo hj hl hh).trans (v.status j hi lo hj hl hh), w.scan.trans v.scan,
    w.endAt.trans v.endAt, w.phaseMove.trans v.phaseMove, w.latched.trans v.latched, w.part.trans v.part,
    w.clock.trans v.clock, w.elapsed.trans v.elapsed⟩

theorem HeadView.ite {x y : State} {c : Prop} [Decidable c] (hx : HeadView h a x) (hy : HeadView h a y) :
    HeadView h a (if c then x else y) := by
  split
  · exact hx
  · exact hy

theorem HeadView.foldlMem {β : Type} {f : State → β → State} (l : List β) (v : HeadView h a s)
    (hf : ∀ t x, x ∈ l → HeadView h a t → HeadView h a (f t x)) : HeadView h a (l.foldl f s) := by
  induction l generalizing s with
  | nil => exact v
  | cons x l ih => exact ih (hf s x (.head _) v) fun t y hy => hf t y (.tail _ hy)

theorem SessionWork.view {a b : State} {h : Nat} (hh : h < 24) (w : SessionWork a b) : HeadView h a b := by
  have keeps : ∀ off, off < 0x60000 ∨ (0x300000 ≤ off ∧ off < 0x400000) → rd b off = rd a off := fun off ho => by
    refine w.regs off ?_ ?_
    · rcases ho with ho | ⟨lo, hi⟩
      · exact accessReg_low (by omega)
      · exact accessReg_units (by omega) hi
    · rw [sessionReg, decide_eq_false_iff_not]
      omega
  refine ⟨fun off ho => keeps off ?_, fun j hi lo hj _ _ => fld_of_rd_eq (keeps _ ?_) hi lo, by rw [w.scan], by rw [w.head],
    by rw [w.head], w.latched, w.part, w.clock, w.elapsed⟩
  · rw [R.HEAD_ADJ, R.HEAD_POS] at ho
    omega
  · rw [R.HEAD_STATUS]
    omega

/-- Registers of the lanes and heads that show no frame's place. -/
def noteReg (off : Nat) : Bool :=
  decide (0x60000 ≤ off ∧ (off < 0x300000 ∨ (off % 0x4000 ≠ 4 ∧ off % 0x4000 ≠ 0x24 ∧ off % 0x4000 ≠ 0x28)))

section operations

variable (w : HeadView h a s)
include w

theorem HeadView.wr {off : Nat} (v : Nat) (ho : noteReg off = true) : HeadView h a (wr s off v) := by
  rw [noteReg, decide_eq_true_iff] at ho
  refine w.trans ⟨fun o hr => rd_wr_other s v ?_, fun j hi lo _ _ _ => fld_wr_other s v hi lo ?_, rfl, rfl, rfl, rfl, rfl, rfl, rfl⟩
  · rw [R.HEAD_ADJ, R.HEAD_POS] at hr
    omega
  · rw [R.HEAD_STATUS]
    omega

/-- URGENT is a bit of HEAD_STATUS above STATE and LOCKED. -/
theorem HeadView.urgent (k : Nat) (b : Bool) : HeadView h a (setFlag s (R.HEAD_STATUS k) 5 b) := by
  refine w.trans ⟨fun o hr => rd_wr_other s _ ?_, fun j hi lo hj hl hh => ?_, rfl, rfl, rfl, rfl, rfl, rfl, rfl⟩
  · rw [R.HEAD_ADJ, R.HEAD_POS] at hr
    rw [R.HEAD_STATUS]
    omega
  · rcases eq_or_ne (R.HEAD_STATUS j) (R.HEAD_STATUS k) with same | other
    · rw [same]
      exact fld_setFld_below s _ 5 5 _ hi lo le_rfl (by decide) (by omega) hl
    · exact fld_setFld_other s 5 5 _ hi lo other

theorem HeadView.setHead {x : Head} (scan : x.scan.map Scan.mark = (headAt s k).scan.map Scan.mark)
    (endAt : x.endAt = (headAt s k).endAt) (move : x.phaseMove = (headAt s k).phaseMove) :
    HeadView h a (setHead k x s) := by
  refine w.trans ⟨fun _ _ => rfl, fun _ _ _ _ _ _ => rfl, ?_, ?_, ?_, rfl, rfl, rfl, rfl⟩
  all_goals
    rw [headAt_setHead]
    split
    · next e => rw [e]; assumption
    · rfl

theorem HeadView.setHead_ne (x : Head) (other : h ≠ k) : HeadView h a (Machine.setHead k x s) := by
  refine w.trans ⟨fun _ _ => rfl, fun _ _ _ _ _ _ => rfl, ?_, ?_, ?_, rfl, rfl, rfl, rfl⟩
  all_goals rw [headAt_setHead, if_neg other]

theorem HeadView.updScan (f : Scan → Scan) (mark : ∀ q, (f q).mark = q.mark) : HeadView h a (updScan k f s) := by
  refine w.setHead ?_ rfl rfl
  rw [Option.map_map]
  exact congrArg (fun g => Option.map g _) (funext mark)

theorem HeadView.setLane (n : Nat) (x : LaneSt) : HeadView h a (setLane n x s) :=
  w.trans ⟨fun _ _ => rfl, fun _ _ _ _ _ _ => rfl, rfl, rfl, rfl, rfl, rfl, rfl, rfl⟩

theorem HeadView.addReg {off : Nat} (n : Nat) (ho : noteReg off = true) : HeadView h a (addReg s off n) := w.wr _ ho

theorem HeadView.setFld {off : Nat} (hi lo v : Nat) (ho : noteReg off = true) : HeadView h a (setFld s off hi lo v) := w.wr _ ho

theorem HeadView.work (hh : h < 24) {t : State} (j : SessionWork s t) : HeadView h a t := w.trans (j.view hh)

end operations

/-! ## Lead, underruns and writeback -/

theorem noteReg_head {k r : Nat} (hr : r = 0x2C ∨ r = 0x54 ∨ r = 0x60 ∨ r = 0x64 ∨ r = 0x101C) :
    noteReg (0x300000 + r + k * 0x4000) = true := by
  rw [noteReg, decide_eq_true_iff]
  omega

theorem showLead_view (k n : Nat) (w : HeadView h a s) : HeadView h a (showLead k n s) := by
  have shown := w.setFld (off := R.HEAD_LEAD k) 3 0 n (noteReg_head (r := 0x2C) (by decide))
  unfold showLead
  dsimp only
  refine HeadView.ite ?_ (HeadView.ite ?_ shown)
  · refine HeadView.urgent ?_ k true
    refine shown.setHead (k := k) ?_ ?_ ?_
    all_goals rfl
  · refine HeadView.urgent (HeadView.addReg ?_ _ (noteReg_head (r := 0x60) (by decide))) k false
    refine shown.setHead (k := k) ?_ ?_ ?_
    all_goals rfl

theorem measureLead_view (k : Nat) (w : HeadView h a s) : HeadView h a (measureLead k s) := by
  unfold measureLead
  split
  · refine HeadView.ite (HeadView.updScan (showLead_view k _ w) _ ?_) (showLead_view k _ w)
    exact fun _ => rfl
  · exact showLead_view k _ w

theorem wbFail_view (hh : h < 24) (k n : Nat) (w : HeadView h a s) : HeadView h a (wbFail k n s) := by
  have counted := (w.updScan (k := k) (fun sc => { sc with wbFailed := true }) fun _ => rfl).addReg (off := R.HEAD_WB_FAILS k) 1
    (noteReg_head (r := 0x101C) (by decide))
  have raised := (AccessOnly.refl (addReg (updScan k (fun sc => { sc with wbFailed := true }) s) (R.HEAD_WB_FAILS k) 1)).raiseOnce
    k { code := 0x85, unit := k } (by decide : (0x85 : Nat) < 256)
  unfold wbFail
  exact counted.work hh (encWbFailed_work k n raised.work)

theorem wbWrite_work {k : Nat} (hk : k < 24) (x : Nat) (bs : List Byte) (w : SessionWork a s) :
    SessionWork a (wbWrite k x bs s) :=
  w.trans (dmaWrite_access (g := wbGuard k) (by rw [wbGuard]; omega) _ _ _ _ (AccessOnly.refl s)).work

theorem wbBegin_view (hh : h < 24) (hk : k < 24) (n : Nat) (w : HeadView h a s) : HeadView h a (wbBegin k n s) := by
  unfold wbBegin
  dsimp only
  refine w.ite ?_
  split
  · exact wbFail_view hh k n w
  · refine HeadView.work (HeadView.updScan (w.work hh (setWb_work _ _ _ (SessionWork.refl s))) _ ?_) hh
      (wbWrite_work hk _ _ (SessionWork.refl _))
    exact fun _ => rfl

theorem wbLine_view (hh : h < 24) (hk : k < 24) (sc : Scan) (ws : List Nat) (overflow : Bool) (acked : Nat)
    (w : HeadView h a s) : HeadView h a (wbLine k sc ws overflow acked s) := by
  unfold wbLine
  split
  · exact w
  · refine w.ite ((wbFail_view hh k _ w).ite (w.work hh (encLine_work _ _ _ (setWb_work _ _ _ ?_))))
    exact wbWrite_work hk _ _ (SessionWork.refl _)

theorem underrun_view (hh : h < 24) (k line pixel : Nat) (w : HeadView h a s) : HeadView h a (underrun k line pixel s) := by
  have counted := (w.updScan (k := k) (fun sc => { sc with torn := true, underran := true }) fun _ => rfl).addReg
    (off := R.HEAD_UNDERRUN_LINES k) 1 (noteReg_head (r := 0x54) (by decide))
  have noted := (counted.wr (off := R.HEAD_LAST_UNDERRUN k) (line * 2 ^ 16 + pixel) (noteReg_head (r := 0x64) (by decide))).ite
    (c := (!((headAt s k).scan.any Scan.underran)) = true) counted
  exact noted.work hh ((AccessOnly.refl _).raiseOnce _ _ (by decide : (0x81 : Nat) < 256)).work

theorem lineStoreMet_work (store : Option (Nat × Nat)) (s : State) : SessionWork s (lineStoreMet store s) := by
  cases store with
  | none => exact SessionWork.refl s
  | some q => exact (granaryHeal_access _ _ (granaryUncorrectable_access _ (AccessOnly.refl s))).work.ite (SessionWork.refl s)

theorem pushLine_view {lane : Nat} (hl : lane < 32) (k n line : Nat) (bodies : List (List Byte)) (w : HeadView h a s) :
    HeadView h a (pushLine lane k n line bodies s) := by
  refine (w.addReg (off := R.LANE_TX_SKIPPED lane) _ ?_).setLane lane _
  rw [noteReg, decide_eq_true_iff, R.LANE_TX_SKIPPED]
  omega

theorem lanesOf_lt {n : Nat} (hn : n ∈ lanesOf s k) : n < 32 := List.mem_range.1 (List.mem_filter.1 hn).1

/-! ## The heads that act together -/

theorem headGroup_split (s : State) (h : Nat) :
    ∃ pre post, headGroup s h = pre ++ h :: post ∧ (∀ k ∈ pre ++ post, k ≠ h ∧ k < h / 2 * 2 + 2) := by
  unfold headGroup
  split
  · rcases Nat.mod_two_eq_zero_or_one h with even | odd
    · have first : h / 2 * 2 = h := by omega
      refine ⟨[], [h + 1], by rw [first]; rfl, fun k hk => ?_⟩
      rw [List.mem_singleton.1 hk]
      omega
    · have second : h / 2 * 2 + 1 = h := by omega
      refine ⟨[h / 2 * 2], [], by rw [second]; rfl, fun k hk => ?_⟩
      rw [List.mem_singleton.1 hk]
      omega
  · exact ⟨[], [], rfl, fun k hk => absurd hk List.not_mem_nil⟩

/-- One head among those that act together: the others act before and after it. -/
theorem eachHead_split (f : Nat → State → State) {pre post : List Nat} (g : State) :
    eachHead (pre ++ h :: post) f g = eachHead post f (f h (eachHead pre f g)) := by
  rw [eachHead, List.foldl_append, List.foldl_cons]
  rfl

/-! ## Start of prefetch and of active scan -/

theorem scan_showLead (k n : Nat) (s : State) : (headAt (showLead k n s) h).scan = (headAt s h).scan := by
  have set : ∀ (x : Head) {u : State}, x.scan = (headAt s k).scan → u.heads = s.heads →
      (headAt (setHead k x u) h).scan = (headAt s h).scan := fun x u hx hu => by
    rw [headAt_setHead]
    split
    · next e => rw [hx, e]
    · rw [headAt_of_heads_eq hu]
  unfold showLead
  dsimp only
  split_ifs
  · exact set _ rfl rfl
  · exact set _ rfl rfl
  · rfl

theorem scan_updScan (f : Scan → Scan) (s : State) : (headAt (updScan h f s) h).scan = (headAt s h).scan.map f := by
  rw [updScan, headAt_setHead_same]

theorem elapsed_updScan (h : Nat) (f : Scan → Scan) (s : State) : (updScan h f s).elapsed = s.elapsed := rfl
theorem clock_updScan (h : Nat) (f : Scan → Scan) (s : State) : (updScan h f s).clock = s.clock := rfl
theorem rd_updScan (h : Nat) (f : Scan → Scan) (s : State) (off : Nat) : rd (updScan h f s) off = rd s off := rfl

theorem scan_measureLead_idle {sc : Scan} (scan : (headAt s h).scan = some sc) (idle : sc.active = false) :
    (headAt (measureLead h s) h).scan = some sc := by
  unfold measureLead
  rw [scan]
  dsimp only
  rw [if_neg (by rw [idle]; decide), scan_showLead, scan]

/-- A frame whose prefetch begins. -/
def Scan.prefetched (now : Nat) (q : Scan) : Scan := { q with prefetch := true, fetchAt := now }

/-- A head whose frame's prefetch has begun at an instant (R45). -/
def prefetchBegun (h t : Nat) (s : State) : State := updScan h (Scan.prefetched (waitClock t s).elapsed) (waitClock t s)

theorem exec_prefetchStart {h : Fin 24} {sc : Scan} (run : running s = true) (scan : (headAt s h.val).scan = some sc)
    (fresh : sc.prefetch = false) (idle : sc.active = false) (on : unitState s 1 h.val = 2) :
    exec (.prefetchStart h) s = .next (measureLead h.val (prefetchBegun h.val (scanInstant s h.val sc - 40000 * nsUnit) s)) := by
  show execPrefetchStart h s = _
  rw [execPrefetchStart, live_running run, scan]
  exact congrArg Host.Outcome.next (if_neg (by rw [fresh, idle, on]; decide))

theorem headAt_waitClock (t : Nat) (s : State) (h : Nat) : headAt (waitClock t s) h = headAt s h := by
  rw [waitClock_rest]
  rfl

theorem headAt_waitElapsed (t : Nat) (s : State) (h : Nat) : headAt (waitElapsed t s) h = headAt s h := by
  rw [waitElapsed_rest]
  rfl

/-- ADJ rests on what a head's view holds (R302). -/
theorem adjOf_view (hh : h < 24) (err : Int) (w : HeadView h a b) (ended : (headAt a h).endAt.isSome = true) :
    adjOf err b h = adjOf err a h := by
  have lead : leader b h = leader a h := by
    rw [leader, leader, paired, paired, lrd, lrd, w.latched, w.part]
  have lead24 : leader a h < 24 := by
    unfold leader
    split_ifs <;> omega
  have lat : ∀ off hi lo, lfld b off hi lo = lfld a off hi lo := fun off hi lo => by rw [lfld, lfld, lrd, lrd, w.latched]
  have across : hTotal b h = hTotal a h := by rw [hTotal, hTotal, lead, lat]
  have down : vTotal b h = vTotal a h := by rw [vTotal, vTotal, lead, lat]
  have high : vActive b h = vActive a h := by rw [vActive, vActive, lead, lat]
  have num : tickNum b = tickNum a := w.regs R.TCK_PERIOD_NUM (.inl (by decide))
  have den : tickDen b = tickDen a := fld_of_rd_eq (w.regs R.TCK_PERIOD_DEN (.inl (by decide))) 15 0
  have pixels : ∀ t, pixelsIn b h t = pixelsIn a h t := fun t => by rw [pixelsIn, pixelsIn, num, den, across, down]
  have locked : headLocked b (leader b h) = headLocked a (leader a h) := by
    rw [lead, headLocked, headLocked, flag, flag, bit_eq_bits, bit_eq_bits, ← fld, ← fld,
      w.status _ 3 3 lead24 le_rfl (by decide)]
  obtain ⟨e, he⟩ := Option.isSome_iff_exists.1 ended
  unfold adjOf
  dsimp only
  rw [locked, across, down, high, w.endAt, w.phaseMove, w.elapsed, he]
  simp only [pixels]

/-- A frame whose active scan begins, torn or not by a direct write (R146). -/
def Scan.begun (sc : Scan) (now : Nat) (torn : Bool) : Scan :=
  { sc with active := true, baseAt := now, fetchAt := if sc.prefetch then sc.fetchAt else now,
            timingTorn := sc.timingTorn || torn, uncertainFrom := if torn then some 0 else sc.uncertainFrom }

/-- A head whose frame's active scan has begun, with its count (R302). -/
def scanBegun (err : Int) (h : Nat) (sc : Scan) (s : State) : State :=
  let x := headAt s h
  let s' := setHead h { x with scan := some (sc.begun s.elapsed (x.directPll || x.directNext)), directNext := false, phaseMove := 0 }
    { s with draws := s.draws + 1 }
  wr (wr s' (R.HEAD_ADJ h) (uint 32 (adjOf err s h))) (R.HEAD_POS h) (2 ^ 31)

/-- After the count, the start of active scan keeps the frame's place. -/
theorem scanBegin_begun {sc : Scan} (hh : h < 24) (hk : k < 24) (err : Int) (scan : (headAt s k).scan = some sc)
    (idle : sc.active = false) (on : unitState s 1 k = 2) : HeadView h (scanBegun err k sc s) (scanBegin err k s) := by
  have begun := wbBegin_view hh hk sc.n (HeadView.refl h (scanBegun err k sc s))
  unfold scanBegin
  rw [scan]
  dsimp only
  rw [if_neg (by rw [idle, on]; decide)]
  exact measureLead_view k (begun.work hh (encScanBegin_work _ _ _ _ _ _ (SessionWork.refl _)))

theorem uint_lt (n : Nat) (i : Int) : uint n i < 2 ^ n := by
  have pos : (0 : Int) < ((2 ^ n : Nat) : Int) := by positivity
  have := Int.emod_lt_of_pos i pos
  rw [uint]
  omega

theorem adj_ne_pos (j k : Nat) : R.HEAD_ADJ j ≠ R.HEAD_POS k := by
  rw [R.HEAD_ADJ, R.HEAD_POS]
  omega

/-- Another head's active scan begins beside this one's frame. -/
theorem scanBegun_other (err : Int) (sc : Scan) (other : h ≠ k) (s : State) : HeadView h s (scanBegun err k sc s) := by
  have drawn : HeadView h s { s with draws := s.draws + 1 } :=
    ⟨fun _ _ => rfl, fun _ _ _ _ _ _ => rfl, rfl, rfl, rfl, rfl, rfl, rfl, rfl⟩
  have shown : ∀ (u : State) (adj : Nat), HeadView h u (wr (wr u (R.HEAD_ADJ k) adj) (R.HEAD_POS k) (2 ^ 31)) := fun u adj => by
    refine ⟨fun off ho => ?_, fun j hi lo _ _ _ => ?_, rfl, rfl, rfl, rfl, rfl, rfl, rfl⟩
    · rw [R.HEAD_ADJ, R.HEAD_POS] at ho
      refine (rd_wr_other _ _ ?_).trans (rd_wr_other _ _ ?_)
      · rw [R.HEAD_POS]; omega
      · rw [R.HEAD_ADJ]; omega
    · refine (fld_wr_other _ _ hi lo ?_).trans (fld_wr_other _ _ hi lo ?_)
      · rw [R.HEAD_STATUS, R.HEAD_POS]; omega
      · rw [R.HEAD_STATUS, R.HEAD_ADJ]; omega
  exact (drawn.setHead_ne _ other).trans (shown _ _)

theorem scanBegin_other (err : Int) (hh : h < 24) (hk : k < 24) (other : h ≠ k) (s : State) :
    HeadView h s (scanBegin err k s) := by
  cases scan : (headAt s k).scan with
  | none =>
    rw [scanBegin, scan]
    exact HeadView.refl h s
  | some sc =>
    by_cases stays : sc.active = true ∨ unitState s 1 k ≠ 2
    · rw [scanBegin, scan]
      dsimp only
      rw [if_pos stays]
      exact HeadView.refl h s
    · rw [not_or, Bool.not_eq_true, not_not] at stays
      exact (scanBegun_other err sc other s).trans (scanBegin_begun hh hk err scan stays.1 stays.2)

theorem eachHead_other (err : Int) (hh : h < 24) (l : List Nat) (other : ∀ k ∈ l, k ≠ h ∧ k < 24) (s : State) :
    HeadView h s (eachHead l (scanBegin err) s) :=
  (HeadView.refl h s).foldlMem l fun t k hk ht =>
    ht.trans (scanBegin_other err hh (other k hk).2 (Ne.symm (other k hk).1) t)

theorem HeadView.scan_some {sc : Scan} (w : HeadView h a b) (scan : (headAt a h).scan = some sc) :
    ∃ q, (headAt b h).scan = some q ∧ q.n = sc.n ∧ q.line = sc.line ∧ q.active = sc.active ∧ q.baseAt = sc.baseAt := by
  have same := w.scan
  rw [scan, Option.map_some, Option.map_eq_some_iff] at same
  obtain ⟨q, hq, mark⟩ := same
  rw [Scan.mark, Scan.mark, Prod.mk.injEq, Prod.mk.injEq, Prod.mk.injEq] at mark
  obtain ⟨hn, hl, ha, hb⟩ := mark
  exact ⟨q, hq, hn, hl, ha, hb⟩

theorem rd_scanBegun_adj (err : Int) (sc : Scan) (s : State) :
    rd (scanBegun err h sc s) (R.HEAD_ADJ h) = uint 32 (adjOf err s h) := by
  unfold scanBegun
  dsimp only
  rw [rd_wr_other _ _ (adj_ne_pos h h), rd_wr_same_of_lt _ _ (uint_lt 32 _)]

theorem scanBegun_scan (err : Int) (sc : Scan) (s : State) :
    ∃ q, (headAt (scanBegun err h sc s) h).scan = some q ∧ q.mark = (sc.n, sc.line, true, s.elapsed) :=
  ⟨sc.begun s.elapsed ((headAt s h).directPll || (headAt s h).directNext),
    congrArg Head.scan (headAt_setHead_same h { headAt s h with
      scan := some (sc.begun s.elapsed ((headAt s h).directPll || (headAt s h).directNext)), directNext := false, phaseMove := 0 }
      { s with draws := s.draws + 1 }), rfl⟩

theorem exec_activeScanStart {h : Fin 24} {lead : Scan} (err : Int) (run : running s = true)
    (scan : (headAt s (leader s h.val)).scan = some lead) (idle : lead.active = false) (on : unitState s 1 h.val = 2) :
    exec (.activeScanStart h err) s = .next (eachHead (headGroup s h.val) (scanBegin err)
      (waitClock (scanInstant s h.val lead) s)) := by
  show execActiveScanStart h err s = _
  rw [execActiveScanStart, live_running run, scan]
  exact congrArg Host.Outcome.next (if_neg (by rw [idle, on]; decide))

/-- Active scan of a head begins among the heads that act with it: its frame keeps number and line, begins where time then
stands, and its count is that of the instant (R302). -/
theorem eachHead_scanBegin {sc : Scan} (hh : h < 24) (err : Int) (group g : State) (scan : (headAt g h).scan = some sc)
    (idle : sc.active = false) (on : unitState g 1 h = 2) :
    ∃ q, (headAt (eachHead (headGroup group h) (scanBegin err) g) h).scan = some q ∧
      q.mark = (sc.n, sc.line, true, (eachHead (headGroup group h) (scanBegin err) g).elapsed) ∧
      (eachHead (headGroup group h) (scanBegin err) g).clock = g.clock ∧
      ((headAt g h).endAt.isSome = true →
        rd (eachHead (headGroup group h) (scanBegin err) g) (R.HEAD_ADJ h) = uint 32 (adjOf err g h)) := by
  obtain ⟨pre, post, split, others⟩ := headGroup_split group h
  have in24 : ∀ k ∈ pre ++ post, k ≠ h ∧ k < 24 := fun k hk => ⟨(others k hk).1, by have := (others k hk).2; omega⟩
  rw [split, eachHead_split]
  have before := eachHead_other err hh pre (fun k hk => in24 k (List.mem_append_left _ hk)) g
  obtain ⟨sc', scan', hn, hl, ha, -⟩ := before.scan_some scan
  have running' : unitState (eachHead pre (scanBegin err) g) 1 h = 2 := (before.status h 1 0 hh (by decide) (by decide)).trans on
  have own := scanBegin_begun hh hh err scan' (ha.trans idle) running'
  have after := own.trans (eachHead_other err hh post (fun k hk => in24 k (List.mem_append_right _ hk)) _)
  obtain ⟨q, hq, mark⟩ := scanBegun_scan (h := h) err sc' (eachHead pre (scanBegin err) g)
  have place := after.scan
  rw [hq, Option.map_some, mark, hn, hl, Option.map_eq_some_iff] at place
  obtain ⟨r, hr, shown⟩ := place
  refine ⟨r, hr, ?_, after.clock.trans before.clock, fun ended => ?_⟩
  · rw [shown, after.elapsed]
    rfl
  · rw [after.regs _ (.inr (.inl rfl)), rd_scanBegun_adj, adjOf_view hh err before ended]

/-! ## Lines and the cut -/

/-- A line is shown in POS, its event raised, and its line stores' words read (R303, R367). -/
def lineMet (h y : Nat) (o : ScanObs) (s : State) : State :=
  let s := setFld s (R.HEAD_POS h) 12 0 y
  let s := if flag s (R.HEAD_EVT_EN h) 1 && decide (fld s (R.HEAD_LINE_MATCH h) 12 0 = y) then
      raise { code := 0x83, unit := h, a0 := y } s
    else s
  lineStoreMet o.store s

/-- The underrun of a line, where it has one. -/
def lineUnder (h y : Nat) (under : Option Nat) (s : State) : State :=
  match under with
  | some x => underrun h y x s
  | none => s

/-- A line of a frame goes to writeback and to the lanes. -/
def lineSent (h : Nat) (sc : Scan) (o : ScanObs) (ws : List Nat) (fmt : Nat) (s : State) : State :=
  let s := wbLine h sc ws o.wbOverflow o.acked s
  (lanesOf s h).foldl (fun s n => pushLine n h sc.n sc.line (videoBodies h sc.n sc.line fmt (lineCrc ws) 64 0 ws) s) s

theorem scanLine_eq (h : Nat) (sc : Scan) (o : ScanObs) (s : State) : ∃ ws fmt under f,
    scanLine h sc o s = measureLead h (updScan h f (lineSent h sc o ws fmt (lineUnder h sc.line under (lineMet h sc.line o s)))) ∧
      ∀ q, (f q).line = sc.line + 1 ∧ (f q).n = q.n := by
  unfold scanLine
  extract_lets y s1 s2 s3 q under ws crcs s4 s5 s6 s7
  exact ⟨ws, outFmt q h, under, _, rfl, fun _ => ⟨rfl, rfl⟩⟩

theorem lineMet_view (hh : h < 24) (y : Nat) (o : ScanObs) (s : State) :
    HeadView h (setFld s (R.HEAD_POS h) 12 0 y) (lineMet h y o s) := by
  have raised := ((AccessOnly.refl (setFld s (R.HEAD_POS h) 12 0 y)).raise { code := 0x83, unit := h, a0 := y }
    (by decide : (0x83 : Nat) < 256)).work.view hh
  exact (raised.ite (HeadView.refl h _)).work hh (lineStoreMet_work o.store _)

theorem lineUnder_view (hh : h < 24) (y : Nat) (under : Option Nat) (w : HeadView h a s) :
    HeadView h a (lineUnder h y under s) := by
  cases under with
  | none => exact w
  | some x => exact underrun_view hh h y x w

theorem lineSent_view (hh : h < 24) (sc : Scan) (o : ScanObs) (ws : List Nat) (fmt : Nat) (w : HeadView h a s) :
    HeadView h a (lineSent h sc o ws fmt s) :=
  (wbLine_view hh hh sc ws _ _ w).foldlMem _ fun _ _ hn ht => pushLine_view (lanesOf_lt hn) _ _ _ _ ht

/-- A line's operations before the frame goes on to its next line. -/
theorem scanLine_place (hh : h < 24) (sc : Scan) (o : ScanObs) (s : State) : ∃ u f,
    scanLine h sc o s = measureLead h (updScan h f u) ∧ HeadView h (setFld s (R.HEAD_POS h) 12 0 sc.line) u ∧
      ∀ q, (f q).line = sc.line + 1 ∧ (f q).n = q.n := by
  obtain ⟨ws, fmt, under, f, eq, next⟩ := scanLine_eq h sc o s
  exact ⟨_, f, eq, lineSent_view hh sc o ws fmt (lineUnder_view hh sc.line under (lineMet_view hh sc.line o s)), next⟩

theorem cutInstant_waitElapsed (t : Nat) (s : State) (h : Nat) : cutInstant (waitElapsed t s) h = cutInstant s h := by
  rw [waitElapsed_rest]
  rfl

theorem exec_scanLine {h : Fin 24} {sc : Scan} (o : ScanObs) (run : running s = true) (scan : (headAt s h.val).scan = some sc)
    (on : sc.active = true) (uncut : sc.cut = false) (runs : sc.ended = false) (left : sc.line < vActive (scene s h.val) h.val)
    (early : ∀ c, cutInstant s h.val = some c → (waitElapsed (lineAt s h.val sc sc.line) s).clock < c) :
    exec (.scanLine h o) s = .next (scanLine h.val sc o (waitElapsed (lineAt s h.val sc sc.line) s)) := by
  have goes : (cutInstant s h.val).any (fun t => decide (t ≤ (waitElapsed (lineAt s h.val sc sc.line) s).clock)) = false := by
    cases hc : cutInstant s h.val with
    | none => rfl
    | some c => exact decide_eq_false (Nat.not_le.2 (early c hc))
  show execScanLine h o s = _
  rw [execScanLine, live_running run, scan]
  dsimp only
  rw [cutInstant_waitElapsed, on, uncut, runs, decide_eq_false (Nat.not_le.2 left), goes]
  rfl

theorem eachHead_cutScan (l : List Nat) (s : State) :
    eachHead l cutScan s = { s with heads := (eachHead l cutScan s).heads } := by
  induction l generalizing s with
  | nil => rfl
  | cons k l ih =>
    show eachHead l cutScan (cutScan k s) = { s with heads := (eachHead l cutScan (cutScan k s)).heads }
    rw [ih (cutScan k s)]
    rfl

theorem headAt_cutScan_other (other : k ≠ h) (s : State) : headAt (cutScan k s) h = headAt s h :=
  (headAt_setHead k _ s h).trans (if_neg (Ne.symm other))

theorem headAt_eachHead_cutScan (l : List Nat) (others : ∀ k ∈ l, k ≠ h) (s : State) :
    headAt (eachHead l cutScan s) h = headAt s h := by
  induction l generalizing s with
  | nil => rfl
  | cons k l ih => exact (ih (fun j hj => others j (.tail _ hj)) _).trans (headAt_cutScan_other (others k (.head _)) s)

/-- The heads that act together are cut at one instant (R303). -/
theorem scan_eachHead_cutScan {sc : Scan} (group g : State) (scan : (headAt g h).scan = some sc) :
    (headAt (eachHead (headGroup group h) cutScan g) h).scan =
      some { sc with cut := true, timingTorn := true, lastPix := g.elapsed } := by
  obtain ⟨pre, post, split, others⟩ := headGroup_split group h
  have same : (eachHead pre cutScan g).elapsed = g.elapsed := by rw [eachHead_cutScan]
  rw [split, eachHead_split, headAt_eachHead_cutScan post fun k hk => (others k (List.mem_append_right _ hk)).1]
  rw [cutScan, scan_updScan, headAt_eachHead_cutScan pre fun k hk => (others k (List.mem_append_left _ hk)).1, scan, same]
  rfl

/-! ## Fetch -/

theorem scene_cases (s : State) (h : Nat) : (∃ v, (headAt s h).scan.bind Scan.view = some v ∧
      scene s h = { s with regs := v.regs, latched := v.latched, layers := v.layers }) ∨
    ((headAt s h).scan.bind Scan.view = none ∧ scene s h = s) := by
  cases hv : (headAt s h).scan.bind Scan.view with
  | none => exact .inr ⟨rfl, by rw [scene, hv]⟩
  | some v => exact .inl ⟨v, rfl, by rw [scene, hv]⟩

/-- The layers that a head's frame reads rest on its scan and on the layers. -/
theorem layerAt_scene_congr {a b : State} (scan : (headAt b h).scan.bind Scan.view = (headAt a h).scan.bind Scan.view)
    (layers : b.layers = a.layers) (i : Nat) : layerAt (scene b h) i = layerAt (scene a h) i := by
  rw [scene, scene, scan]
  cases (headAt a h).scan.bind Scan.view with
  | none => rw [layerAt, layers, layerAt]
  | some v => rfl

theorem layerAt_setLayer_same (i : Nat) (x : Layer) (s : State) : layerAt (setLayer i x s) i = x := by
  rw [layerAt, setLayer, smGet_smSet, if_pos rfl]

/-- A layer changed where the frame in scan reads it reads as changed. -/
theorem layerAt_scene_updScene (h i : Nat) (f : Layer → Layer) (s : State) :
    layerAt (scene (updScene h i f s) h) i = f (layerAt (scene s h) i) := by
  rcases scene_cases s h with ⟨v, hv, shown⟩ | ⟨hv, shown⟩
  · obtain ⟨sc, scan, view⟩ := Option.bind_eq_some_iff.1 hv
    have changed : (headAt (updScene h i f s) h).scan.bind Scan.view =
        some { v with layers := smSet (fun _ => {}) v.layers i (f (smGet (fun _ => {}) v.layers i)) } := by
      rw [updScene, hv]
      dsimp only
      rw [scan_updScan, scan]
      rfl
    rw [shown, scene, changed, layerAt, smGet_smSet, if_pos rfl]
    rfl
  · have kept : updScene h i f s = setLayer i (f (layerAt s i)) s := by rw [updScene, hv]
    have plain : scene (setLayer i (f (layerAt s i)) s) h = setLayer i (f (layerAt s i)) s := by
      rw [scene]
      show (match (headAt s h).scan.bind Scan.view with | some v => _ | none => _) = _
      rw [hv]
    rw [kept, plain, layerAt_setLayer_same, shown]

theorem layers_showLead (k n : Nat) (s : State) : (showLead k n s).layers = s.layers := by
  unfold showLead
  dsimp only
  split_ifs <;> rfl

/-- Measuring the lead leaves the layers that a frame reads. -/
theorem layerAt_scene_measureLead (s : State) (i : Nat) :
    layerAt (scene (measureLead h s) h) i = layerAt (scene s h) i := by
  have led : ∀ n, layerAt (scene (showLead h n s) h) i = layerAt (scene s h) i := fun n =>
    layerAt_scene_congr (by rw [scan_showLead]) (layers_showLead h n s) i
  unfold measureLead
  split
  · next sc _ =>
    dsimp only
    split
    · rw [← led (headLead (scene s h) h sc)]
      refine layerAt_scene_congr ?_ ?_ i
      · rw [scan_updScan]
        cases (headAt (showLead h (headLead (scene s h) h sc) s) h).scan with
        | none => rfl
        | some q => rfl
      · rfl
    · exact led _
  · exact led _

/-- The work for a line ends with the line fetched. -/
theorem fetchLine_fetched {l : Nat} {sc : Scan} {q : State} (hq : q = scene s h) (on : (geo q h l).onLine (nextFetch q h l) = true)
    (low : nextFetch q h l < vActive q h) : ∃ u, fetchLine h l sc s =
      updScene h (16 * h + l) (fun x => { x with fetched := some (nextFetch q h l) }) u := by
  unfold fetchLine
  dsimp only
  rw [← hq, if_neg (by rw [on]; simpa using low)]
  exact ⟨_, rfl⟩

theorem scan_afterLine {sc : Scan} {f : Scan → Scan} (w : HeadView h a s) (scan : (headAt a h).scan = some sc)
    (next : ∀ q, (f q).line = sc.line + 1 ∧ (f q).n = q.n) :
    ∃ q, (headAt (measureLead h (updScan h f s)) h).scan = some q ∧ q.line = sc.line + 1 ∧ q.n = sc.n := by
  obtain ⟨q, hq, hn, -⟩ := w.scan_some scan
  have went : (headAt (updScan h f s) h).scan = some (f q) := by rw [scan_updScan, hq]; rfl
  obtain ⟨r, hr, rn, rl, -⟩ := (measureLead_view h (HeadView.refl h _)).scan_some went
  exact ⟨r, hr, rl.trans (next q).1, rn.trans ((next q).2.trans hn)⟩

/-- Other contents of host memory, and other link errors to come. -/
def withMem (x : Cells) (y : List OldBytes) (c : CellSt) (s : State) : State := { s with host := x, overwritten := y, cell := c }

theorem scene_withMem (x : Cells) (y : List OldBytes) (c : CellSt) (s : State) (h : Nat) :
    scene (withMem x y c s) h = withMem x y c (scene s h) := by
  rcases scene_cases s h with ⟨v, hv, shown⟩ | ⟨hv, shown⟩
  · rw [shown, scene]
    show (match (headAt s h).scan.bind Scan.view with | some v => _ | none => _) = _
    rw [hv]
    rfl
  · rw [shown, scene]
    show (match (headAt s h).scan.bind Scan.view with | some v => _ | none => _) = _
    rw [hv]

theorem layerEnabled_withMem (x : Cells) (y : List OldBytes) (c : CellSt) (s : State) (h l : Nat) :
    layerEnabled (withMem x y c s) h l = layerEnabled s h l := rfl
theorem layerCovered_withMem (x : Cells) (y : List OldBytes) (c : CellSt) (s : State) (h l : Nat) :
    layerCovered (withMem x y c s) h l = layerCovered s h l := rfl
theorem geo_withMem (x : Cells) (y : List OldBytes) (c : CellSt) (s : State) (h l : Nat) : geo (withMem x y c s) h l = geo s h l := rfl
theorem nextFetch_withMem (x : Cells) (y : List OldBytes) (c : CellSt) (s : State) (h l : Nat) :
    nextFetch (withMem x y c s) h l = nextFetch s h l := rfl
theorem vActive_withMem (x : Cells) (y : List OldBytes) (c : CellSt) (s : State) (h : Nat) : vActive (withMem x y c s) h = vActive s h := rfl

theorem hostStore_eq_withMem (m : Cells) (s : State) :
    hostStore m s = withMem (hostStore m s).host (hostStore m s).overwritten s.cell s := hostStore_rest m s

theorem exec_fetchBurst {h : Fin 24} {l : Fin 16} {sc : Scan} (o : BurstObs) (run : running s = true)
    (scan : (headAt s h.val).scan = some sc) (fetches : sc.prefetch = true ∨ sc.active = true)
    (on : layerEnabled (scene s h.val) h.val l.val = true) (seen : layerCovered (scene s h.val) h.val l.val = false) :
    exec (.fetchBurst h l o) s = .next (measureLead h.val (noteLink [] (fetchLine h.val l.val sc
      (withMem (hostStore o.hm s).host (hostStore o.hm s).overwritten { s.cell with linkErrs := o.ecc } s)))) := by
  have reads : (sc.prefetch || sc.active) = true := by simpa using fetches
  show execFetchBurst h l o s = _
  rw [execFetchBurst, live_running run, hostStore_eq_withMem]
  dsimp only
  rw [scene_withMem, layerEnabled_withMem, layerCovered_withMem, on, seen]
  show Host.Outcome.next (match (headAt s h.val).scan with | some sc => _ | none => _) = _
  rw [scan]
  dsimp only
  rw [if_pos (by rw [reads]; rfl)]
  rfl

theorem layerAt_scene_noteLink (es : LinkErrs) (s : State) (h i : Nat) :
    layerAt (scene (noteLink es s) h) i = layerAt (scene s h) i := layerAt_scene_congr (a := s) (b := noteLink es s) rfl rfl i

/-- The work for a line leaves the fetch unit past the line. -/
theorem fetched_fetchLine {l : Nat} (sc : Scan) {q : State} (hq : scene s h = q) (on : (geo q h l).onLine (nextFetch q h l) = true)
    (low : nextFetch q h l < vActive q h) :
    (layerAt (scene (fetchLine h l sc s) h) (16 * h + l)).fetched = some (nextFetch q h l) := by
  obtain ⟨u, eq⟩ := fetchLine_fetched (sc := sc) hq.symm on low
  rw [eq, layerAt_scene_updScene]

/-! ## The commands -/

variable {sc : Scan}

theorem prefetchStart_begins {h : Fin 24} (run : running s = true) (scan : (headAt s h.val).scan = some sc)
    (fresh : sc.prefetch = false) (idle : sc.active = false) (on : unitState s 1 h.val = 2) :
    ∃ t, exec (.prefetchStart h) s = .next t ∧
      (headAt t h.val).scan = some { sc with prefetch := true, fetchAt := t.elapsed } ∧
      (0 < inc s → scanInstant s h.val sc - 40000 * nsUnit ≤ t.clock) := by
  have begun : (headAt (prefetchBegun h.val (scanInstant s h.val sc - 40000 * nsUnit) s) h.val).scan = _ := scan_updScan _ _
  rw [headAt_waitClock, scan, Option.map_some] at begun
  have kept := measureLead_view h.val (HeadView.refl h.val (prefetchBegun h.val (scanInstant s h.val sc - 40000 * nsUnit) s))
  refine ⟨_, exec_prefetchStart run scan fresh idle on, ?_, fun moves => ?_⟩
  · rw [scan_measureLead_idle begun idle, kept.elapsed, prefetchBegun, elapsed_updScan, Scan.prefetched]
  · rw [kept.clock, prefetchBegun, clock_updScan]
    exact le_clock_waitClock (.inl moves)

theorem unitState_waitClock (t : Nat) (s : State) (kind u : Nat) : unitState (waitClock t s) kind u = unitState s kind u := by
  rw [waitClock_rest]
  rfl

theorem activeScanStart_begins {h : Fin 24} {lead : Scan} (err : Int) (run : running s = true)
    (scan : (headAt s h.val).scan = some sc) (idle : sc.active = false) (on : unitState s 1 h.val = 2)
    (leads : (headAt s (leader s h.val)).scan = some lead) (still : lead.active = false) :
    ∃ t q, exec (.activeScanStart h err) s = .next t ∧ (headAt t h.val).scan = some q ∧ q.active = true ∧ q.n = sc.n ∧
      q.line = sc.line ∧ q.baseAt = t.elapsed ∧ (0 < inc s → scanInstant s h.val lead ≤ t.clock) ∧
      ((headAt s h.val).endAt.isSome = true →
        rd t (R.HEAD_ADJ h.val) = uint 32 (adjOf err (waitClock (scanInstant s h.val lead) s) h.val)) := by
  have there : (headAt (waitClock (scanInstant s h.val lead) s) h.val).scan = some sc := by rw [headAt_waitClock, scan]
  obtain ⟨q, hq, mark, clock, adj⟩ := eachHead_scanBegin h.isLt err s _ there idle (by rw [unitState_waitClock, on])
  rw [Scan.mark, Prod.mk.injEq, Prod.mk.injEq, Prod.mk.injEq] at mark
  obtain ⟨hn, hl, ha, hb⟩ := mark
  refine ⟨_, q, exec_activeScanStart err run leads still on, hq, ha, hn, hl, hb, fun moves => ?_, fun ended => adj ?_⟩
  · rw [clock]
    exact le_clock_waitClock (.inl moves)
  · rwa [headAt_waitClock]

theorem headAt_setFld (s : State) (off hi lo v h : Nat) : headAt (setFld s off hi lo v) h = headAt s h := rfl

theorem scanLine_runs {h : Fin 24} (o : ScanObs) (run : running s = true) (scan : (headAt s h.val).scan = some sc)
    (on : sc.active = true) (uncut : sc.cut = false) (runs : sc.ended = false) (left : sc.line < vActive (scene s h.val) h.val)
    (early : ∀ c, cutInstant s h.val = some c → (waitElapsed (lineAt s h.val sc sc.line) s).clock < c) :
    ∃ t q, exec (.scanLine h o) s = .next t ∧ (headAt t h.val).scan = some q ∧ q.line = sc.line + 1 ∧ q.n = sc.n ∧
      fld t (R.HEAD_POS h.val) 12 0 = sc.line % 2 ^ 13 ∧ (0 < inc s → lineAt s h.val sc sc.line ≤ t.elapsed) := by
  obtain ⟨u, f, eq, place, next⟩ := scanLine_place h.isLt sc o (waitElapsed (lineAt s h.val sc sc.line) s)
  obtain ⟨q, hq, hl, hn⟩ := scan_afterLine (sc := sc) place (by rw [headAt_setFld, headAt_waitElapsed, scan]) next
  have after := measureLead_view h.val (HeadView.refl h.val (updScan h.val f u))
  refine ⟨_, q, (exec_scanLine o run scan on uncut runs left early).trans (congrArg _ eq), hq, hl, hn, ?_, fun moves => ?_⟩
  · have pos := after.regs (R.HEAD_POS h.val) (.inr (.inr rfl))
    rw [rd_updScan, place.regs _ (.inr (.inr rfl))] at pos
    rw [fld_of_rd_eq pos, fld_setFld_same _ _ 12 0 _ (by decide) (by decide)]
  · rw [after.elapsed, elapsed_updScan, place.elapsed, setFld_elapsed]
    exact le_elapsed_waitElapsed moves

theorem exec_activeScanCut {h : Fin 24} {c : Nat} (run : running s = true) (scan : (headAt s h.val).scan = some sc)
    (on : sc.active = true) (runs : sc.ended = false) (uncut : sc.cut = false) (cuts : cutInstant s h.val = some c) :
    exec (.activeScanCut h) s =
      .next (if cutsScan s h.val sc = true then eachHead (headGroup s h.val) cutScan (waitClock c s) else s) := by
  show execActiveScanCut h s = _
  rw [execActiveScanCut, live_running run, scan, cuts]
  dsimp only
  rw [on, runs, uncut]
  cases cutsScan s h.val sc <;> rfl

theorem activeScanCut_cuts {h : Fin 24} {c : Nat} (run : running s = true) (scan : (headAt s h.val).scan = some sc)
    (on : sc.active = true) (runs : sc.ended = false) (uncut : sc.cut = false) (cuts : cutInstant s h.val = some c)
    (ends : cutsScan s h.val sc = true) : ∃ t, exec (.activeScanCut h) s = .next t ∧
      (headAt t h.val).scan = some { sc with cut := true, timingTorn := true, lastPix := t.elapsed } ∧
      (0 < inc s → c ≤ t.clock) ∧ t.regs = s.regs := by
  have there : (headAt (waitClock c s) h.val).scan = some sc := by rw [headAt_waitClock, scan]
  have kept := eachHead_cutScan (headGroup s h.val) (waitClock c s)
  refine ⟨_, (exec_activeScanCut run scan on runs uncut cuts).trans (by rw [if_pos ends]), ?_, fun moves => ?_, ?_⟩
  · rw [scan_eachHead_cutScan s _ there, kept]
  · rw [kept]
    exact le_clock_waitClock (.inl moves)
  · rw [kept, waitClock_rest]

theorem fetchBurst_fetches {h : Fin 24} {l : Fin 16} (o : BurstObs) (run : running s = true)
    (scan : (headAt s h.val).scan = some sc) (reads : sc.prefetch = true ∨ sc.active = true)
    (enabled : layerEnabled (scene s h.val) h.val l.val = true) (seen : layerCovered (scene s h.val) h.val l.val = false)
    (onLine : (geo (scene s h.val) h.val l.val).onLine (nextFetch (scene s h.val) h.val l.val) = true)
    (low : nextFetch (scene s h.val) h.val l.val < vActive (scene s h.val) h.val) :
    ∃ t, exec (.fetchBurst h l o) s = .next t ∧
      (layerAt (scene t h.val) (16 * h.val + l.val)).fetched = some (nextFetch (scene s h.val) h.val l.val) := by
  refine ⟨_, exec_fetchBurst o run scan reads enabled seen, ?_⟩
  rw [layerAt_scene_measureLead, layerAt_scene_noteLink]
  refine (fetched_fetchLine sc (scene_withMem _ _ _ s h.val) ?_ ?_).trans ?_
  · rwa [geo_withMem, nextFetch_withMem]
  · rwa [nextFetch_withMem, vActive_withMem]
  · rw [nextFetch_withMem]

/-- Settles O49: what the frames and their lines do on the way keeps the frame's place, and a fetch unit's line is noted last. -/
theorem framesBeginAndRunLineByLine : Obligations.FramesBeginAndRunLineByLine := by
  intro h sc s run scan
  refine ⟨prefetchStart_begins run scan, fun err lead idle on => activeScanStart_begins err run scan idle on,
    fun o => scanLine_runs o run scan, fun c on runs uncut cuts =>
      ⟨activeScanCut_cuts run scan on runs uncut cuts, fun stays => ?_⟩, fun l o q reads hq => ?_⟩
  · rw [exec_activeScanCut run scan on runs uncut cuts, if_neg (by rw [stays]; decide)]
  · rw [hq]
    exact fetchBurst_fetches o run scan reads

end Sys2Proof.Machine
end

section
/-!
PROOFS. The commands that enable and disable a unit (R31, R51, R176, R178, R180): a command in flight, the unit's state and
the pools. The commands of sources and of encode sessions share these.
-/

namespace Sys2Proof.Machine

variable {a b s t : State}

/-! ## Commands in flight -/

/-- A command without the step it has come to. -/
def Cmd.bare (c : Cmd) : Cmd := { c with phase := .started, aux := [] }

/-- Two states in which the commands in flight differ at most in the step that they have come to. -/
def CmdsKept (a b : State) : Prop := b.rng.cmds.map Cmd.bare = a.rng.cmds.map Cmd.bare

theorem CmdsKept.refl (s : State) : CmdsKept s s := rfl

theorem CmdsKept.trans {c : State} (h : CmdsKept a b) (j : CmdsKept b c) : CmdsKept a c := Eq.trans j h

theorem CmdsKept.of_eq (h : b.rng.cmds = a.rng.cmds) : CmdsKept a b := congrArg (List.map Cmd.bare) h

theorem updCmd_cmdsKept (tag : Nat) {f : Cmd → Cmd} (same : ∀ c, (f c).bare = c.bare) (s : State) :
    CmdsKept s (updCmd tag f s) := by
  show (s.rng.cmds.map fun c => if c.tag = tag then f c else c).map Cmd.bare = s.rng.cmds.map Cmd.bare
  rw [List.map_map]
  refine List.map_congr_left fun c _ => ?_
  show (if c.tag = tag then f c else c).bare = c.bare
  split
  · exact same c
  · rfl

theorem CmdsKept.finish (h : CmdsKept a s) (tag status r0 r1 r2 : Nat) : CmdsKept a (finish tag status r0 r1 r2 s) :=
  h.trans (updCmd_cmdsKept tag (by exact fun _ => rfl) s)

theorem CmdsKept.foldl {β : Type} {f : State → β → State} (l : List β) (h : CmdsKept a s)
    (hf : ∀ t x, CmdsKept a t → CmdsKept a (f t x)) : CmdsKept a (l.foldl f s) := by
  induction l generalizing s with
  | nil => exact h
  | cons x l ih => exact ih (hf s x h)

theorem finishWaiters_cmdsKept (kind u purpose status : Nat) (s : State) : CmdsKept s (finishWaiters kind u purpose status s) :=
  (CmdsKept.refl s).foldl _ fun t d ht => ht.trans (updCmd_cmdsKept d.tag (by exact fun _ => rfl) t)

theorem findCmd_bare (s : State) (tag : Nat) :
    (s.rng.cmds.map Cmd.bare).find? (fun c => c.tag = tag) = (findCmd s tag).map Cmd.bare := List.find?_map

theorem CmdsKept.findCmd {c : Cmd} {tag : Nat} (h : CmdsKept a b) (found : findCmd a tag = some c) :
    ∃ d, Machine.findCmd b tag = some d ∧ d.bare = c.bare := by
  have same := findCmd_bare b tag
  rw [h, findCmd_bare, found, Option.map_some, eq_comm, Option.map_eq_some_iff] at same
  exact same

theorem tag_of_findCmd {c : Cmd} {tag : Nat} (found : findCmd s tag = some c) : c.tag = tag :=
  of_decide_eq_true (List.find?_some (p := fun c : Cmd => decide (c.tag = tag)) found)

theorem findCmd_updCmd {c : Cmd} {tag : Nat} {f : Cmd → Cmd} (same : ∀ c, (f c).tag = c.tag) (found : findCmd s tag = some c) :
    findCmd (updCmd tag f s) tag = some (f c) := by
  have kept : ((fun d : Cmd => decide (d.tag = tag)) ∘ fun d => if d.tag = tag then f d else d) = fun d => decide (d.tag = tag) := by
    funext d
    show decide ((if d.tag = tag then f d else d).tag = tag) = _
    split
    · rw [same]
    · rfl
  show (s.rng.cmds.map fun d => if d.tag = tag then f d else d).find? _ = _
  rw [List.find?_map, kept]
  show (findCmd s tag).map _ = _
  rw [found, Option.map_some, if_pos (tag_of_findCmd found)]

theorem findCmd_finish {c : Cmd} {tag : Nat} (found : findCmd s tag = some c) (status r0 r1 r2 : Nat) :
    findCmd (finish c.tag status r0 r1 r2 s) tag = some { c with phase := .due status r0 r1 r2 none } := by
  obtain rfl := tag_of_findCmd found
  exact findCmd_updCmd (by exact fun _ => rfl) found

/-- A command that waits has the step and the data that its rule gives it, whatever they were. -/
theorem findCmd_waitCmd {c : Cmd} {tag : Nat} (found : findCmd s tag = some c) (kept : CmdsKept s t) (aux : List Nat) :
    findCmd (waitCmd c.tag aux t) tag = some { c with phase := .waiting, aux := aux } := by
  obtain ⟨d, hd, same⟩ := kept.findCmd found
  obtain rfl := tag_of_findCmd found
  refine (findCmd_updCmd (by exact fun _ => rfl) hd).trans (congrArg some ?_)
  exact congrArg (fun e : Cmd => { e with phase := .waiting, aux := aux }) same

theorem onCmd_started {c : Cmd} {tag opcode : Nat} (found : findCmd s tag = some c) (may : mayExecute s.rng.cmds c = true)
    (op : c.opcode = opcode) (f : Cmd → State → State) : onCmd tag opcode s f = f c s := by
  rw [onCmd, found]
  exact if_pos ⟨op, may⟩

/-! ## Enable and disable -/

section enable

variable {kind u : Nat} {c : Cmd} {start : Cmd → State → State} {drain : State → State}

theorem enableCmd_off (off : unitState s kind u = 0) (ticks : tickRun s = true) : enableCmd kind u c start s = start c s := by
  have run : flag s R.TCK_CTRL 0 = true := ticks
  rw [enableCmd]
  rw [off, if_neg (by decide), if_neg (by decide), run, if_neg (by decide)]

theorem enableCmd_stopped (off : unitState s kind u = 0) (ticks : tickRun s = false) :
    enableCmd kind u c start s = finish c.tag stTickStopped 0 0 0 s := by
  have run : flag s R.TCK_CTRL 0 = false := ticks
  rw [enableCmd]
  rw [off, if_neg (by decide), if_neg (by decide), run]
  rfl

theorem enableCmd_on (on : unitState s kind u = 1 ∨ unitState s kind u = 2) :
    enableCmd kind u c start s = finish c.tag stUnitState (unitState s kind u) 0 0 s := by
  rw [enableCmd]
  rw [if_neg (by omega), if_pos (by omega)]

theorem enableCmd_draining (drains : unitState s kind u = 3) : enableCmd kind u c start s =
    if enableQueued s kind u then finish c.tag stUnitState 3 0 0 s else waitCmd c.tag [auxQueued] s := by
  rw [enableCmd]
  rw [if_pos drains, drains]

theorem disableCmd_off (off : unitState s kind u = 0) : disableCmd kind u c drain s =
    updCmd c.tag (fun c => { c with phase := .due stSuccess 1 0 0 (some (offTick s kind u)) }) s := by
  rw [disableCmd]
  rw [if_pos off]

theorem disableCmd_on (on : unitState s kind u = 1 ∨ unitState s kind u = 2) :
    disableCmd kind u c drain s = waitCmd c.tag [auxDisabling] (drain s) := by
  rw [disableCmd]
  rw [if_neg (by omega), if_neg (by omega)]

theorem findCmd_enableCmd_draining {tag : Nat} (found : findCmd s tag = some c) (drains : unitState s kind u = 3) :
    findCmd (enableCmd kind u c start s) tag = some (if enableQueued s kind u then { c with phase := .due stUnitState 3 0 0 none }
      else { c with phase := .waiting, aux := [auxQueued] }) := by
  rw [enableCmd_draining drains]
  split
  · exact findCmd_finish found _ _ _ _
  · exact findCmd_waitCmd found (CmdsKept.refl s) _

theorem regs_enableCmd_draining (drains : unitState s kind u = 3) : (enableCmd kind u c start s).regs = s.regs := by
  rw [enableCmd_draining drains]
  split <;> rfl

theorem findCmd_disableCmd_off {tag : Nat} (found : findCmd s tag = some c) (off : unitState s kind u = 0) :
    findCmd (disableCmd kind u c drain s) tag = some { c with phase := .due stSuccess 1 0 0 (some (offTick s kind u)) } := by
  rw [disableCmd_off off]
  obtain rfl := tag_of_findCmd found
  exact findCmd_updCmd (by exact fun _ => rfl) found

theorem regs_disableCmd_off (off : unitState s kind u = 0) : (disableCmd kind u c drain s).regs = s.regs := by
  rw [disableCmd_off off]
  rfl

end enable

/-! ## A unit's state -/

/-- What the state of a unit other than a ring may change beside its register: generation, events. -/
theorem setUnit_moved {kind : Nat} (u : Nat) {new : Nat} (hk : kind < 3) (hn : new ≠ 0) (queued : Bool) (s : State) : ∃ ev : Ev,
    ev.code < 256 ∧ setUnit kind u new queued s = raise ev (setFld (genStep s) (unitReg kind u) 1 0 new) := by
  refine ⟨{ code := 9, unit := u, sub := kind * 16 + unitState s kind u * 4 + new, a0 := ofBool queued }, (by decide : (9 : Nat) < 256), ?_⟩
  unfold setUnit setUnitThen
  dsimp only
  rw [if_pos hk, if_neg hn]

section setUnit

variable {kind u new : Nat} (hk : kind < 3) (hn : new ≠ 0) (queued : Bool) (s : State)
include hk hn

theorem rd_setUnit_other {off : Nat} (he : eventReg off = false) (hs : shfReg off = false) (other : off ≠ unitReg kind u) :
    rd (setUnit kind u new queued s) off = rd s off := by
  obtain ⟨ev, code, eq⟩ := setUnit_moved u hk hn queued s
  rw [eq, rd_raise ev code _ he, rd_setFld_other _ _ _ _ other, rd_genStep _ hs]

theorem fld_setUnit_above (he : eventReg (unitReg kind u) = false) (hs : shfReg (unitReg kind u) = false) (hi lo : Nat)
    (above : 1 < lo) : fld (setUnit kind u new queued s) (unitReg kind u) hi lo = fld s (unitReg kind u) hi lo := by
  obtain ⟨ev, code, eq⟩ := setUnit_moved u hk hn queued s
  rw [eq, fld_of_rd_eq (rd_raise ev code _ he), fld_setFld_above _ _ _ _ _ _ _ (by decide) (by decide) above,
    fld_of_rd_eq (rd_genStep _ hs)]

theorem unitState_setUnit (he : eventReg (unitReg kind u) = false) :
    unitState (setUnit kind u new queued s) kind u = new % 2 ^ 2 := by
  obtain ⟨ev, code, eq⟩ := setUnit_moved u hk hn queued s
  rw [unitState, eq, fld_of_rd_eq (rd_raise ev code _ he), fld_setFld_same _ _ _ _ _ (by decide) (by decide)]

theorem chans_setUnit : (setUnit kind u new queued s).chans = s.chans := by
  obtain ⟨ev, code, eq⟩ := setUnit_moved u hk hn queued s
  rw [eq, raise_chans ev code, setFld_chans, (genStep_onlyRegs s).rest]

theorem encs_setUnit : (setUnit kind u new queued s).encs = s.encs := by
  obtain ⟨ev, code, eq⟩ := setUnit_moved u hk hn queued s
  rw [eq, raise_encs ev code, setFld_encs, (genStep_onlyRegs s).rest]

theorem cmds_setUnit : (setUnit kind u new queued s).rng.cmds = s.rng.cmds := by
  obtain ⟨ev, code, eq⟩ := setUnit_moved u hk hn queued s
  rw [eq, raise_rng_cmds ev code, setFld_rng, (genStep_onlyRegs s).rest]

end setUnit

/-- A unit that drains. -/
theorem unitDrain_cmdsKept {kind u : Nat} (hk : kind < 3) (s : State) : CmdsKept s (unitDrain kind u s) :=
  (finishWaiters_cmdsKept kind u auxEnabling stSuccess s).trans (CmdsKept.of_eq (cmds_setUnit hk (by decide) _ _))

theorem unitState_unitDrain {kind u : Nat} (hk : kind < 3) (he : eventReg (unitReg kind u) = false) (s : State) :
    unitState (unitDrain kind u s) kind u = 3 := unitState_setUnit hk (by decide) _ _ he

theorem finishWaiters_rest (kind u purpose status : Nat) (s : State) : finishWaiters kind u purpose status s =
    { s with rng := (finishWaiters kind u purpose status s).rng } := by
  rw [finishWaiters]
  induction unitWaiters s kind u purpose generalizing s with
  | nil => rfl
  | cons d l ih =>
    rw [List.foldl_cons, ih]
    rfl

/-! ## Pools (R51) -/

/-- A session's cost is charged to a pool. -/
def poolCharge (kind unit : Nat) (q : Nat × Nat) (s : State) : State :=
  let s := addReg s (R.TCK_POOL_COMMITTED q.1) q.2
  let s := addFld s (R.TCK_POOL_SESSIONS q.1) 7 0 1
  { s with tck := { s.tck with entries := s.tck.entries ++ [{ pool := q.1, kind := kind, unit := unit, cost := q.2 }] } }

theorem poolAdmit_eq (kind unit : Nat) (costs : List (Nat × Nat)) (s : State) :
    poolAdmit kind unit costs s = genStep (costs.foldl (fun s q => poolCharge kind unit q s) s) := rfl

theorem rd_poolCharge_other (kind unit : Nat) (q : Nat × Nat) (s : State) {off : Nat} (hc : off ≠ R.TCK_POOL_COMMITTED q.1)
    (hs : off ≠ R.TCK_POOL_SESSIONS q.1) : rd (poolCharge kind unit q s) off = rd s off := by
  rw [poolCharge, rd_withTck, addFld, rd_setFld_other _ _ _ _ hs, addReg, rd_wr_other _ _ hc]

theorem rd_poolCharge_same (kind unit : Nat) (q : Nat × Nat) (s : State) :
    rd (poolCharge kind unit q s) (R.TCK_POOL_COMMITTED q.1) = (rd s (R.TCK_POOL_COMMITTED q.1) + q.2) % 2 ^ 32 := by
  have apart : R.TCK_POOL_COMMITTED q.1 ≠ R.TCK_POOL_SESSIONS q.1 := by
    rw [R.TCK_POOL_COMMITTED, R.TCK_POOL_SESSIONS]
    omega
  rw [poolCharge, rd_withTck, addFld, rd_setFld_other _ _ _ _ apart, rd_addReg, if_pos rfl]

theorem rd_foldl_poolCharge_other (kind unit : Nat) (costs : List (Nat × Nat)) (s : State) {off : Nat}
    (other : ∀ q ∈ costs, off ≠ R.TCK_POOL_COMMITTED q.1 ∧ off ≠ R.TCK_POOL_SESSIONS q.1) :
    rd (costs.foldl (fun s q => poolCharge kind unit q s) s) off = rd s off := by
  induction costs generalizing s with
  | nil => rfl
  | cons q l ih =>
    rw [List.foldl_cons, ih _ fun r hr => other r (.tail _ hr),
      rd_poolCharge_other kind unit q s (other q (.head _)).1 (other q (.head _)).2]

/-- The first pool of a session is charged its cost. -/
theorem rd_poolAdmit_first (kind unit p cost : Nat) (costs : List (Nat × Nat)) (s : State) (hp : p < 4)
    (other : ∀ q ∈ costs, q.1 ≠ p) : rd (poolAdmit kind unit ((p, cost) :: costs) s) (R.TCK_POOL_COMMITTED p) =
      (rd s (R.TCK_POOL_COMMITTED p) + cost) % 2 ^ 32 := by
  have tick : shfReg (R.TCK_POOL_COMMITTED p) = false := by
    rw [shfReg, decide_eq_false_iff_not, R.TCK_POOL_COMMITTED]
    omega
  rw [poolAdmit_eq, rd_genStep _ tick, List.foldl_cons, rd_foldl_poolCharge_other, rd_poolCharge_same kind unit (p, cost)]
  intro q hq
  have := other q hq
  rw [R.TCK_POOL_COMMITTED, R.TCK_POOL_COMMITTED, R.TCK_POOL_SESSIONS]
  omega

theorem poolCharge_rest (kind unit : Nat) (q : Nat × Nat) {x : State}
    (h : x = { s with regs := x.regs, tck := x.tck }) : poolCharge kind unit q x =
      { s with regs := (poolCharge kind unit q x).regs, tck := (poolCharge kind unit q x).tck } := by
  have own : poolCharge kind unit q x =
      { x with regs := (poolCharge kind unit q x).regs, tck := (poolCharge kind unit q x).tck } := rfl
  rw [own, h]

theorem poolAdmit_rest (kind unit : Nat) (costs : List (Nat × Nat)) (s : State) : poolAdmit kind unit costs s =
    { s with regs := (poolAdmit kind unit costs s).regs, tck := (poolAdmit kind unit costs s).tck } := by
  have charged : ∀ (l : List (Nat × Nat)) (x : State), x = { s with regs := x.regs, tck := x.tck } →
      l.foldl (fun s q => poolCharge kind unit q s) x = { s with
        regs := (l.foldl (fun s q => poolCharge kind unit q s) x).regs,
        tck := (l.foldl (fun s q => poolCharge kind unit q s) x).tck } := fun l => by
    induction l with
    | nil => exact fun _ h => h
    | cons q l ih => exact fun x h => ih _ (poolCharge_rest kind unit q h)
  have all := charged costs s rfl
  have only := (genStep_onlyRegs (costs.foldl (fun s q => poolCharge kind unit q s) s)).rest
  rw [poolAdmit_eq]
  generalize costs.foldl (fun s q => poolCharge kind unit q s) s = x at all only
  rw [only, all]

end Sys2Proof.Machine
end

section
/-!
PROOFS. SRC_OPEN and SRC_CLOSE (R51, R160, R176, R270): a channel opens under its declaration, and drains.
-/

namespace Sys2Proof.Machine

variable {a b s : State} {ch : Nat}

/-! ## Opening -/

/-- A channel's registers hold its kind, its source and the words 4 to 11 of its declaration. -/
def srcDeclared (c kind : Nat) (w : Nat → Nat) (s : State) : State :=
  let s := setFld s (R.SRC_CTRL c) 5 4 kind
  let s := setFlag (setFld s (R.SRC_STATE c) 5 4 kind) (R.SRC_STATE c) 2 true
  let s := wr s (R.SRC_SOURCE_ID c) (w 3)
  (List.range 8).foldl (fun s i => wr s (R.SRC_DECL c i) (w (4 + i))) s

/-- The registers that an opening channel sets after its declaration: the digest of the declaration, its pool, and those of
decode. -/
def afterDecl (off : Nat) : Bool :=
  decide ((0x60000 ≤ off ∧ off < 0x70000) ∨ (0x180000 ≤ off ∧ off < 0x190000 ∧ 0x30 ≤ off % 0x100) ∨
    (0x200000 ≤ off ∧ off < 0x240000))

/-- The pools are charged first. -/
def srcCharged (c kind : Nat) (w : Nat → Nat) (s : State) : State :=
  if declCosts s kind w = [] then s else poolAdmit 0 c (declCosts s kind w) s

theorem srcStart_eq (hc : ch < 96) (kind : Nat) (w : Nat → Nat) (s : State) : ∃ x u,
    srcStart ch kind w s = setUnit 0 ch 1 false (setChan ch x u) ∧ OnlyRegs afterDecl (srcDeclared ch kind w (srcCharged ch kind w s)) u := by
  have digest : afterDecl (R.WIN_S_DP_DECL ch) = true := by
    rw [afterDecl, decide_eq_true_iff, R.WIN_S_DP_DECL]; omega
  have decode : ∀ k < 0x80, afterDecl (0x201000 + k + ch * 0x80) = true := fun k hk => by
    rw [afterDecl, decide_eq_true_iff]; omega
  have pool : ∀ k, 0x30 ≤ k → k < 0x100 → afterDecl (0x180000 + k + ch * 0x100) = true := fun k lo hi => by
    rw [afterDecl, decide_eq_true_iff]; omega
  have counters : ∀ i ∈ List.range 9, afterDecl (R.VDC_S_DECODED ch + 4 * i) = true := fun i hi => by
    have := List.mem_range.1 hi
    rw [afterDecl, decide_eq_true_iff, R.VDC_S_DECODED]; omega
  unfold srcStart
  extract_lets costs s1 s2 s3 s4 s5 s6 s7 s8 s9 s10 x s11
  refine ⟨_, _, rfl, ?_⟩
  have pooled : OnlyRegs afterDecl s5 s6 := (((OnlyRegs.refl s5).wr _ _ (pool 0x30 (by decide) (by decide))).wr _ _
    (pool 0x34 (by decide) (by decide))).wr _ _ (pool 0x38 (by decide) (by decide))
  have costed : OnlyRegs afterDecl s5 s8 := ((pooled.wr _ _ digest).wr _ _ (decode 0x10 (by decide))).wr _ _ (decode 0x14 (by decide))
  have counted : OnlyRegs afterDecl s5 s9 := costed.trans (foldl_wr_onlyRegs _ counters s8)
  exact (((counted.wr _ _ (decode 0 (by decide))).wr _ _ (decode 4 (by decide))).wr _ _ (decode 8 (by decide))).wr _ _
    (decode 0xC (by decide))

/-- The registers that an opening channel sets for its declaration. -/
def declReg (off : Nat) : Bool := decide (0x180000 ≤ off ∧ off < 0x186000)

theorem srcDeclared_onlyRegs (hc : ch < 96) (kind : Nat) (w : Nat → Nat) (s : State) :
    OnlyRegs declReg s (srcDeclared ch kind w s) := by
  have src : ∀ k < 0x100, declReg (0x180000 + k + ch * 0x100) = true := fun k hk => by
    rw [declReg, decide_eq_true_iff]; omega
  have words : ∀ i ∈ List.range 8, declReg (R.SRC_DECL ch i) = true := fun i hi => by
    have := List.mem_range.1 hi
    rw [declReg, decide_eq_true_iff, R.SRC_DECL]; omega
  unfold srcDeclared
  extract_lets s1 s2 s3
  refine OnlyRegs.trans (b := s3) ?_ (foldl_wr_onlyRegs (off := fun i => R.SRC_DECL ch i) (v := fun _ i => w (4 + i)) _ words s3)
  exact ((((OnlyRegs.refl s).setFld _ _ _ _ (src 0 (by decide))).setFld _ _ _ _ (src 4 (by decide))).setFlag _ _ _
    (src 4 (by decide))).wr _ _ (src 8 (by decide))

theorem rd_srcDeclared_word (kind : Nat) (w : Nat → Nat) (s : State) {i : Nat} (hi : i < 8) :
    rd (srcDeclared ch kind w s) (R.SRC_DECL ch i) = w (4 + i) % 2 ^ 32 := by
  unfold srcDeclared
  exact rd_foldl_wr (off := fun i => R.SRC_DECL ch i) (v := fun _ i => w (4 + i)) List.nodup_range
    (fun i j same => by simp only [R.SRC_DECL] at same; omega) (fun _ _ _ _ => rfl) (List.mem_range.2 hi) _

theorem rd_srcDeclared_source (kind : Nat) (w : Nat → Nat) (s : State) :
    rd (srcDeclared ch kind w s) (R.SRC_SOURCE_ID ch) = w 3 % 2 ^ 32 := by
  refine (rd_foldl_wr_other _ (fun i _ => ?_) _).trans (rd_wr_same _ _ _)
  rw [R.SRC_SOURCE_ID, R.SRC_DECL]
  omega

theorem srcKind_srcDeclared (kind : Nat) (w : Nat → Nat) (s : State) : srcKind (srcDeclared ch kind w s) ch = kind % 2 ^ 2 := by
  have words : rd (srcDeclared ch kind w s) (R.SRC_STATE ch) =
      rd (wr (setFlag (setFld (setFld s (R.SRC_CTRL ch) 5 4 kind) (R.SRC_STATE ch) 5 4 kind) (R.SRC_STATE ch) 2 true)
        (R.SRC_SOURCE_ID ch) (w 3)) (R.SRC_STATE ch) := by
    refine rd_foldl_wr_other _ (fun i _ => ?_) _
    rw [R.SRC_STATE, R.SRC_DECL]
    omega
  rw [srcKind, fld_of_rd_eq words, fld_wr_other _ _ _ _ (by rw [R.SRC_STATE, R.SRC_SOURCE_ID]; omega), setFlag,
    fld_setFld_above _ _ 2 2 _ 5 4 le_rfl (by decide) (by decide), fld_setFld_same _ _ 5 4 _ (by decide) (by decide)]

/-- What an opening channel's registers read, by register. -/
theorem rd_srcStart (hc : ch < 96) (kind : Nat) (w : Nat → Nat) (s : State) {off : Nat} (ha : afterDecl off = false)
    (he : eventReg off = false) (hs : shfReg off = false) (other : off ≠ R.SRC_STATE ch) :
    rd (srcStart ch kind w s) off = rd (srcDeclared ch kind w (srcCharged ch kind w s)) off := by
  obtain ⟨x, u, eq, only⟩ := srcStart_eq hc kind w s
  rw [eq, rd_setUnit_other (kind := 0) (u := ch) (by decide) (by decide) _ _ he hs other]
  exact only.regs off ha

theorem srcReg_clear {off : Nat} (lo : 0x180000 ≤ off) (hi : off < 0x186000) (low : off % 0x100 < 0x30) :
    afterDecl off = false ∧ eventReg off = false ∧ shfReg off = false := by
  refine ⟨?_, eventReg_of_accessReg (accessReg_units (by omega) (by omega)), ?_⟩
  · rw [afterDecl, decide_eq_false_iff_not]
    omega
  · rw [shfReg, decide_eq_false_iff_not]
    omega

theorem srcState_quiet (hc : ch < 96) : afterDecl (R.SRC_STATE ch) = false ∧ eventReg (R.SRC_STATE ch) = false ∧
    shfReg (R.SRC_STATE ch) = false :=
  srcReg_clear (by rw [R.SRC_STATE]; omega) (by rw [R.SRC_STATE]; omega) (by rw [R.SRC_STATE]; omega)

theorem unitState_srcStart (hc : ch < 96) (kind : Nat) (w : Nat → Nat) (s : State) :
    unitState (srcStart ch kind w s) 0 ch = 1 := by
  obtain ⟨x, u, eq, -⟩ := srcStart_eq hc kind w s
  rw [eq]
  exact unitState_setUnit (by decide) (by decide) _ _ (srcState_quiet hc).2.1

theorem srcKind_srcStart (hc : ch < 96) (kind : Nat) (w : Nat → Nat) (s : State) :
    srcKind (srcStart ch kind w s) ch = kind % 2 ^ 2 := by
  obtain ⟨x, u, eq, only⟩ := srcStart_eq hc kind w s
  obtain ⟨after, event, shf⟩ := srcState_quiet hc
  rw [eq, srcKind]
  refine (fld_setUnit_above (u := ch) (by decide : 0 < 3) (by decide) _ _ event shf 5 4 (by decide)).trans ?_
  exact (fld_of_rd_eq (only.regs _ after) 5 4).trans (srcKind_srcDeclared kind w _)

theorem cmds_srcStart (hc : ch < 96) (kind : Nat) (w : Nat → Nat) (s : State) :
    (srcStart ch kind w s).rng.cmds = s.rng.cmds := by
  obtain ⟨x, u, eq, only⟩ := srcStart_eq hc kind w s
  have charged : (srcCharged ch kind w s).rng = s.rng := by
    unfold srcCharged
    split
    · rfl
    · rw [poolAdmit_rest]
  have declared : u.rng = (srcCharged ch kind w s).rng := by rw [only.rest, (srcDeclared_onlyRegs hc kind w _).rest]
  rw [eq, cmds_setUnit (by decide) (by decide)]
  show u.rng.cmds = _
  rw [declared, charged]

theorem declCosts_compressed (w : Nat → Nat) (s : State) : declCosts s 0 w = [(0, entCost s (bits (w 6) 7 0) (w 5) (w 7)),
    (1, pixCost s (bits (w 4) 15 0) (bits (w 4) 31 16) (bits (w 6) 27 24) (w 5))] := if_neg fun h => h rfl

/-- A compressed channel's entropy cost is charged to pool 0. -/
theorem rd_srcStart_committed (hc : ch < 96) (w : Nat → Nat) (s : State) :
    rd (srcStart ch 0 w s) (R.TCK_POOL_COMMITTED 0) =
      (rd s (R.TCK_POOL_COMMITTED 0) + entCost s (bits (w 6) 7 0) (w 5) (w 7)) % 2 ^ 32 := by
  rw [rd_srcStart hc 0 w s (by decide) (by decide) (by decide) (by rw [R.TCK_POOL_COMMITTED, R.SRC_STATE]; omega),
    (srcDeclared_onlyRegs hc 0 w _).regs _ (by decide), srcCharged, declCosts_compressed, if_neg (List.cons_ne_nil _ _)]
  exact rd_poolAdmit_first 0 ch 0 _ _ s (by decide) (by simp)

theorem Cmd.w_lt (c : Cmd) (i : Nat) : c.w i < 2 ^ 32 := BitVec.isLt _

theorem rd_srcStart_declared (hc : ch < 96) (kind : Nat) (c : Cmd) (s : State) :
    rd (srcStart ch kind c.w s) (R.SRC_SOURCE_ID ch) = c.w 3 ∧
      ∀ i < 8, rd (srcStart ch kind c.w s) (R.SRC_DECL ch i) = c.w (4 + i) := by
  constructor
  · obtain ⟨after, event, shf⟩ := srcReg_clear (off := R.SRC_SOURCE_ID ch) (by rw [R.SRC_SOURCE_ID]; omega)
      (by rw [R.SRC_SOURCE_ID]; omega) (by rw [R.SRC_SOURCE_ID]; omega)
    rw [rd_srcStart hc kind c.w s after event shf (by rw [R.SRC_SOURCE_ID, R.SRC_STATE]; omega), rd_srcDeclared_source,
      Nat.mod_eq_of_lt (c.w_lt 3)]
  · intro i hi
    obtain ⟨after, event, shf⟩ := srcReg_clear (off := R.SRC_DECL ch i) (by rw [R.SRC_DECL]; omega)
      (by rw [R.SRC_DECL]; omega) (by rw [R.SRC_DECL]; omega)
    rw [rd_srcStart hc kind c.w s after event shf (by rw [R.SRC_DECL, R.SRC_STATE]; omega), rd_srcDeclared_word kind _ _ hi,
      Nat.mod_eq_of_lt (c.w_lt _)]

/-! ## Draining -/

/-- Two states between which a channel that drains keeps its state, and takes up no picture; commands in flight differ at
most in the step that they have come to. -/
structure DrainKept (c : Nat) (a b : State) : Prop where
  state : rd b (R.SRC_STATE c) = rd a (R.SRC_STATE c)
  cmds : CmdsKept a b
  pic : (chanAt a c).pic = none → (chanAt b c).pic = none
  native : (chanAt a c).native = none → (chanAt b c).native = none

theorem DrainKept.refl (c : Nat) (s : State) : DrainKept c s s := ⟨rfl, CmdsKept.refl s, id, id⟩

theorem DrainKept.trans {x : State} (h : DrainKept ch a b) (j : DrainKept ch b x) : DrainKept ch a x :=
  ⟨j.state.trans h.state, h.cmds.trans j.cmds, fun p => j.pic (h.pic p), fun n => j.native (h.native n)⟩

theorem DrainKept.ite {x y : State} {p : Prop} [Decidable p] (hx : DrainKept ch a x) (hy : DrainKept ch a y) :
    DrainKept ch a (if p then x else y) := by
  split
  · exact hx
  · exact hy

theorem DrainKept.foldl {β : Type} {f : State → β → State} (l : List β) (h : DrainKept ch a s)
    (hf : ∀ t x, DrainKept ch a t → DrainKept ch a (f t x)) : DrainKept ch a (l.foldl f s) := by
  induction l generalizing s with
  | nil => exact h
  | cons x l ih => exact ih (hf s x h)

theorem chanAt_setChan (c : Nat) (x : Chan) (s : State) (k : Nat) :
    chanAt (setChan c x s) k = if k = c then x else chanAt s k := smGet_smSet _ _ _ _ _

theorem chanAt_setChan_same (c : Nat) (x : Chan) (s : State) : chanAt (setChan c x s) c = x := by
  rw [chanAt_setChan, if_pos rfl]

section drain

variable (h : DrainKept ch a s)
include h

theorem DrainKept.wr {off : Nat} (v : Nat) (ho : R.SRC_STATE ch ≠ off) : DrainKept ch a (wr s off v) :=
  h.trans ⟨rd_wr_other s v ho, CmdsKept.refl s, id, id⟩

theorem DrainKept.setFlag {off : Nat} (i : Nat) (b : Bool) (ho : R.SRC_STATE ch ≠ off) : DrainKept ch a (setFlag s off i b) :=
  h.wr _ ho

theorem DrainKept.setChan {c : Nat} {x : Chan} (pic : (chanAt s c).pic = none → x.pic = none)
    (native : (chanAt s c).native = none → x.native = none) : DrainKept ch a (setChan c x s) := by
  refine h.trans ⟨rfl, CmdsKept.refl s, fun p => ?_, fun n => ?_⟩
  · rw [chanAt_setChan]
    split
    · next e => exact pic (e ▸ p)
    · exact p
  · rw [chanAt_setChan]
    split
    · next e => exact native (e ▸ n)
    · exact n

theorem DrainKept.setSlot (c k : Nat) (x : Slot) : DrainKept ch a (setSlot c k x s) :=
  DrainKept.setChan h (by exact id) (by exact id)

theorem DrainKept.updPic (c : Nat) (f : Pic → Pic) : DrainKept ch a (updPic c f s) :=
  DrainKept.setChan h (fun p => by rw [p]; rfl) (by exact id)

end drain

theorem srcState_ne_vdc (hc : ch < 96) {off : Nat} (lo : 0x200000 ≤ off) : R.SRC_STATE ch ≠ off := by
  rw [R.SRC_STATE]
  omega

theorem pageGive_kept (hc : ch < 96) (c : Nat) (p : Pic) (h : DrainKept ch a s) : DrainKept ch a (pageGive c p s) :=
  have vdc := srcState_ne_vdc hc (off := R.VDC_COEF_PAGES) (by decide)
  DrainKept.updPic ((h.wr _ vdc).wr _ vdc) c _

theorem pagesServe_kept (hc : ch < 96) (h : DrainKept ch a s) : DrainKept ch a (pagesServe s) := by
  refine h.foldl _ fun t e ht => ?_
  split
  · split
    · exact (pageGive_kept hc _ _ ht).ite ht
    · exact ht
  · exact ht

theorem pagesReturn_kept (hc : ch < 96) (c n : Nat) (h : DrainKept ch a s) : DrainKept ch a (pagesReturn c n s) := by
  unfold pagesReturn
  split
  · exact pagesServe_kept hc ((h.wr _ (srcState_ne_vdc hc (by decide))).updPic c _)
  · exact h

/-- The picture in decode stops, and none is in decode (R270). -/
theorem stopPicture_kept (hc : ch < 96) (s : State) :
    DrainKept ch s (stopPicture ch s) ∧ (chanAt (stopPicture ch s) ch).pic = none := by
  have vdc := srcState_ne_vdc hc (off := R.VDC_STATUS) (by decide)
  unfold stopPicture
  split
  · next none => exact ⟨DrainKept.refl ch s, none⟩
  · next p _ =>
    have freed : DrainKept ch s (if p.parsed then s else setFlag s R.VDC_STATUS p.ent false) :=
      (DrainKept.refl ch s).ite ((DrainKept.refl ch s).wr _ vdc)
    refine ⟨DrainKept.setSlot (DrainKept.setChan ?_ (by exact fun _ => rfl) (by exact id)) ch p.slot {}, ?_⟩
    · exact pagesReturn_kept hc ch p.pages (DrainKept.updPic (freed.setFlag _ _ vdc) ch _)
    · rw [dropSlot, setSlot, chanAt_setChan_same, chanAt_setChan_same]

theorem abortCopies_kept (s : State) : DrainKept ch s (abortCopies ch s) := by
  refine (DrainKept.refl ch s).foldl _ fun t d ht => (ht.setSlot ch (d.aux.headD 0) {}).trans ?_
  exact ⟨rfl, (CmdsKept.refl _).finish _ _ _ _ _, id, id⟩

theorem stopNative_kept (s : State) : DrainKept ch s (stopNative ch s) ∧ (chanAt (stopNative ch s) ch).native = none := by
  unfold stopNative
  split
  · next none => exact ⟨DrainKept.refl ch s, none⟩
  · have ended : DrainKept ch s (setChan ch { chanAt s ch with native := none } s) :=
      DrainKept.setChan (DrainKept.refl ch s) (by exact id) (by exact fun _ => rfl)
    have stopped : (chanAt (setChan ch { chanAt s ch with native := none } s) ch).native = none := by
      rw [chanAt_setChan_same]
    dsimp only
    split
    · next k _ =>
      refine ⟨ended.trans (DrainKept.setSlot (DrainKept.refl ch _) ch k _), ?_⟩
      exact (DrainKept.setSlot (DrainKept.refl ch _) ch k _).native stopped
    · exact ⟨ended, stopped⟩

theorem vstDrain_kept (hc : ch < 96) (s : State) : DrainKept ch s (vstDrain ch s) := by
  have flow : ∀ {t : State} (f : Nat) (x : Flow), DrainKept ch s t → DrainKept ch s (setFlow f x t) := fun f x ht =>
    ht.trans ⟨rfl, CmdsKept.refl _, id, id⟩
  have event : ∀ {t : State} (key : Nat) (ev : Ev), ev.code < 256 → DrainKept ch s t → DrainKept ch s (raiseOnce key ev t) :=
    fun {t} key ev code ht => by
      have only := (AccessOnly.refl t).raiseOnce key ev code
      have chan : chanAt (raiseOnce key ev t) ch = chanAt t ch := by rw [chanAt, only.chans, chanAt]
      exact ht.trans ⟨rd_raiseOnce key ev code t (srcState_quiet hc).2.1, CmdsKept.of_eq only.cmds,
        fun p => by rw [chan, p], fun n => by rw [chan, n]⟩
  unfold vstDrain
  split
  · next f _ =>
    have dropped := flow f { flowAt s f with held := [] } (DrainKept.refl ch s)
    unfold countLate
    dsimp only
    refine dropped.ite ?_
    rw [if_pos rfl]
    exact event ch _ (by decide : (0x61 : Nat) < 256) (flow f _ dropped)
  · exact DrainKept.refl ch s

/-- A channel that drains: its picture and the frame that arrives stop (R176, R270). -/
theorem srcDrain_drains (hc : ch < 96) (s : State) : CmdsKept s (srcDrain ch s) ∧ unitState (srcDrain ch s) 0 ch = 3 ∧
    (chanAt (srcDrain ch s) ch).pic = none ∧ (chanAt (srcDrain ch s) ch).native = none := by
  obtain ⟨pictured, noPic⟩ := stopPicture_kept hc (unitDrain 0 ch s)
  have aborted := abortCopies_kept (ch := ch) (stopPicture ch (unitDrain 0 ch s))
  obtain ⟨ended, noNative⟩ := stopNative_kept (ch := ch) (abortCopies ch (stopPicture ch (unitDrain 0 ch s)))
  have drained := vstDrain_kept hc (stopNative ch (abortCopies ch (stopPicture ch (unitDrain 0 ch s))))
  have all := pictured.trans (aborted.trans (ended.trans drained))
  refine ⟨(unitDrain_cmdsKept (by decide) s).trans all.cmds, ?_, drained.pic (ended.pic (aborted.pic noPic)),
    drained.native noNative⟩
  exact (fld_of_rd_eq all.state 1 0).trans (unitState_unitDrain (kind := 0) (u := ch) (by decide) (srcState_quiet hc).2.1 s)

/-! ## The commands -/

section commands

variable {tag : Fin 4096} {c : Cmd} (run : running s = true) (found : findCmd s tag.val = some c)
  (may : mayExecute s.rng.cmds c = true)
include run found may

theorem exec_srcOpen (op : c.opcode = 0x10) :
    exec (.srcOpen tag) s = .next (enableCmd 0 (bits (c.w 2) 15 0) c srcOpen s) := by
  show execSrcOpen tag s = _
  rw [execSrcOpen, live_running run, onCmd_started found may op]

theorem exec_srcClose (op : c.opcode = 0x11) :
    exec (.srcClose tag) s = .next (disableCmd 0 (bits (c.w 2) 15 0) c (srcDrain (bits (c.w 2) 15 0)) s) := by
  show execSrcClose tag s = _
  rw [execSrcClose, live_running run, onCmd_started found may op]

end commands

theorem srcOpen_admitted {c : Cmd} (fits : inputFits s (bits (c.w 2) 15 0) (bits (c.w 2) 17 16) = true)
    (room : admitFails s (declCosts s (bits (c.w 2) 17 16) c.w) = none) : srcOpen c s =
      waitCmd c.tag [auxEnabling] (srcStart (bits (c.w 2) 15 0) (bits (c.w 2) 17 16) c.w s) := by
  rw [srcOpen]
  rw [fits, room]
  rfl

theorem srcOpen_full {c : Cmd} {p n : Nat} (fits : inputFits s (bits (c.w 2) 15 0) (bits (c.w 2) 17 16) = true)
    (full : admitFails s (declCosts s (bits (c.w 2) 17 16) c.w) = some (p, n)) :
    srcOpen c s = finish c.tag stBudget p n 0 s := by
  rw [srcOpen]
  rw [fits, full]
  rfl

theorem rd_waitCmd (tag : Nat) (aux : List Nat) (s : State) (off : Nat) : rd (waitCmd tag aux s) off = rd s off := rfl

theorem unitState_waitCmd (tag : Nat) (aux : List Nat) (s : State) (kind u : Nat) :
    unitState (waitCmd tag aux s) kind u = unitState s kind u := rfl

theorem chanAt_waitCmd (tag : Nat) (aux : List Nat) (s : State) (c : Nat) : chanAt (waitCmd tag aux s) c = chanAt s c := rfl

theorem srcKind_waitCmd (tag : Nat) (aux : List Nat) (s : State) (c : Nat) : srcKind (waitCmd tag aux s) c = srcKind s c := rfl

/-- Settles O38, by what each answer of an enable and of a disable does to the channel and to its command. -/
theorem sourcesOpenAndClose : Obligations.SourcesOpenAndClose := by
  intro tag c ch kind s run found may hch hkind small
  subst hch hkind
  refine ⟨fun op off => ⟨fun ticks fits room => ?_, fun ticks fits p n full => ?_, fun stops => ?_⟩, fun op on => ?_,
    fun op drains => ?_, fun op off => ?_, fun op on => ?_⟩
  · refine ⟨_, (exec_srcOpen run found may op).trans (congrArg _ ((enableCmd_off off ticks).trans (srcOpen_admitted fits room))),
      ?_, ?_, findCmd_waitCmd found (CmdsKept.of_eq (cmds_srcStart small _ _ s)) _, ?_, fun i hi => ?_, fun compressed => ?_⟩
    · rw [unitState_waitCmd, unitState_srcStart small]
    · rw [srcKind_waitCmd, srcKind_srcStart small, bits, Nat.mod_mod]
    · rw [rd_waitCmd, (rd_srcStart_declared small _ c s).1]
    · rw [rd_waitCmd, (rd_srcStart_declared small _ c s).2 i hi]
    · rw [rd_waitCmd, compressed, rd_srcStart_committed small]
  · refine ⟨_, (exec_srcOpen run found may op).trans (congrArg _ ((enableCmd_off off ticks).trans (srcOpen_full fits full))),
      rfl, findCmd_finish found _ _ _ _⟩
  · exact ⟨_, (exec_srcOpen run found may op).trans (congrArg _ (enableCmd_stopped off stops)), rfl, findCmd_finish found _ _ _ _⟩
  · exact ⟨_, (exec_srcOpen run found may op).trans (congrArg _ (enableCmd_on on)), rfl, findCmd_finish found _ _ _ _⟩
  · exact ⟨_, exec_srcOpen run found may op, regs_enableCmd_draining drains, findCmd_enableCmd_draining found drains⟩
  · exact ⟨_, exec_srcClose run found may op, regs_disableCmd_off off, findCmd_disableCmd_off found off⟩
  · obtain ⟨kept, state, pic, native⟩ := srcDrain_drains small s
    refine ⟨_, (exec_srcClose run found may op).trans (congrArg _ (disableCmd_on on)), ?_, ?_, ?_, findCmd_waitCmd found kept _⟩
    · rw [unitState_waitCmd, state]
    · rw [chanAt_waitCmd, pic]
    · rw [chanAt_waitCmd, native]

end Sys2Proof.Machine
end

section
/-!
PROOFS. ENC_START and ENC_STOP (R31, R180, R322 to R324, R347): a session enters STARTING with its declaration, and drains.
-/

namespace Sys2Proof.Machine

variable {a b s : State} {n : Nat} {c : Cmd}

/-! ## STARTING -/

/-- The registers of a session that ENC_START sets, by their place in its block. -/
def venWords : List Nat := [0x04, 0x08, 0x0C, 0x10, 0x14, 0x18, 0x1C, 0x20, 0x24, 0x28, 0x2C, 0x30, 0x38, 0x3C, 0x40, 0x44]

/-- What ENC_START sets them to (R321, R324). -/
def venWord (c : Cmd) (level k : Nat) : Nat :=
  match k with
  | 0x04 => c.w 3
  | 0x08 => c.w 4
  | 0x0C => setBits (c.w 5) 23 16 level
  | 0x10 => c.w 6
  | 0x14 => c.w 7
  | 0x18 => c.w 8
  | 0x1C => bits (c.w 9) 15 0
  | 0x20 => c.w 10
  | 0x24 => c.w 11
  | 0x28 => c.w 12
  | 0x2C => c.w 13
  | 0x30 => c.w 14
  | 0x3C => 2 ^ bits (c.w 11) 4 0
  | 0x44 => encCost c.w
  | _ => 0

/-- A register of a session's block. -/
def venReg (n k : Nat) : Nat := 0x241000 + k + n * 0x100

/-- The session's cost is charged, its pipeline noted. -/
def encCharged (n : Nat) (c : Cmd) (s : State) : State :=
  setFld (poolAdmit 2 n [(2 + bits (c.w 2) 16 16, encCost c.w)] s) (R.VEN_STATE n) 2 2 (bits (c.w 2) 16 16)

/-- The session's registers hold its declaration, and its counters 0. -/
def encDeclared (n : Nat) (c : Cmd) (level : Nat) (s : State) : State :=
  (List.range 10).foldl (fun s i => wr s (R.VEN_PICTURES n + 4 * i) 0)
    (venWords.foldl (fun s k => wr s (venReg n k) (venWord c level k)) (encCharged n c s))

theorem encEnter_eq (n : Nat) (c : Cmd) (level : Nat) (s : State) : encEnter n c level s =
    setUnit 2 n 1 false (encShowNext n (setEnc n { sliceRows := bits (c.w 9) 23 16 } (encDeclared n c level s))) := rfl

theorem venReg_clear (hn : n < 16) {k : Nat} (hk : k < 0x100) : eventReg (venReg n k) = false ∧ shfReg (venReg n k) = false := by
  refine ⟨eventReg_of_accessReg (accessReg_units ?_ ?_), ?_⟩
  · rw [venReg]; omega
  · rw [venReg]; omega
  · rw [shfReg, decide_eq_false_iff_not, venReg]
    omega

theorem rd_setEnc (n : Nat) (x : EncSt) (s : State) (off : Nat) : rd (setEnc n x s) off = rd s off := rfl

theorem rd_encShowNext (s : State) {off : Nat} (other : off ≠ R.VEN_NEXT_N_LO n) : rd (encShowNext n s) off = rd s off := by
  unfold encShowNext
  split
  · exact rd_wr_other _ _ other
  · rfl

theorem rd_encEnter (level : Nat) (s : State) {off : Nat} (he : eventReg off = false) (hs : shfReg off = false)
    (state : off ≠ R.VEN_STATE n) (next : off ≠ R.VEN_NEXT_N_LO n) :
    rd (encEnter n c level s) off = rd (encDeclared n c level s) off := by
  rw [encEnter_eq, rd_setUnit_other (kind := 2) (u := n) (by decide) (by decide) _ _ he hs state, rd_encShowNext _ next, rd_setEnc]

theorem rd_encDeclared_below (level : Nat) (s : State) {off : Nat} (counters : ∀ i < 10, off ≠ R.VEN_PICTURES n + 4 * i) :
    rd (encDeclared n c level s) off =
      rd (venWords.foldl (fun s k => wr s (venReg n k) (venWord c level k)) (encCharged n c s)) off :=
  rd_foldl_wr_other _ (fun i hi => counters i (List.mem_range.1 hi)) _

theorem venWords_lt {k : Nat} (hk : k ∈ venWords) : 4 ≤ k ∧ k < 0x48 :=
  (by decide : ∀ k ∈ venWords, 4 ≤ k ∧ k < 0x48) k hk

/-- A register that holds a word of the declaration. -/
theorem rd_encEnter_word (hn : n < 16) (level : Nat) (s : State) {k : Nat} (hk : k ∈ venWords) :
    rd (encEnter n c level s) (venReg n k) = venWord c level k % 2 ^ 32 := by
  have near := venWords_lt hk
  obtain ⟨event, shf⟩ := venReg_clear hn (k := k) (by omega)
  rw [rd_encEnter level s event shf (by rw [venReg, R.VEN_STATE]; omega) (by rw [venReg, R.VEN_NEXT_N_LO]; omega),
    rd_encDeclared_below level s fun i _ => by rw [venReg, R.VEN_PICTURES]; omega]
  exact rd_foldl_wr (off := venReg n) (v := fun _ => venWord c level) (by decide)
    (fun i j same => by rw [venReg, venReg] at same; omega) (fun _ _ _ _ => rfl) hk _

theorem rd_encEnter_pictures (hn : n < 16) (level : Nat) (s : State) : rd (encEnter n c level s) (R.VEN_PICTURES n) = 0 := by
  obtain ⟨event, shf⟩ := venReg_clear hn (k := 0x50) (by decide)
  refine (rd_encEnter (off := R.VEN_PICTURES n) level s event shf (by rw [R.VEN_PICTURES, R.VEN_STATE]; omega)
    (by rw [R.VEN_PICTURES, R.VEN_NEXT_N_LO]; omega)).trans ?_
  unfold encDeclared
  exact rd_foldl_wr (off := fun i => R.VEN_PICTURES n + 4 * i) (v := fun _ _ => 0) List.nodup_range
    (fun i j same => by omega) (fun _ _ _ _ => rfl) (List.mem_range.2 (by decide : 0 < 10)) _

theorem rd_encDeclared_other (level : Nat) (s : State) {off : Nat} (counters : ∀ i < 10, off ≠ R.VEN_PICTURES n + 4 * i)
    (words : ∀ k ∈ venWords, off ≠ venReg n k) : rd (encDeclared n c level s) off = rd (encCharged n c s) off :=
  (rd_encDeclared_below level s counters).trans (rd_foldl_wr_other _ words _)

theorem encPipe_encEnter (hn : n < 16) (level : Nat) (s : State) : encPipe (encEnter n c level s) n = bits (c.w 2) 16 16 := by
  obtain ⟨event, shf⟩ := venReg_clear hn (k := 0) (by decide)
  have written : rd (encDeclared n c level s) (R.VEN_STATE n) = rd (encCharged n c s) (R.VEN_STATE n) := by
    refine rd_encDeclared_other level s (fun i _ => ?_) fun k hk => ?_
    · rw [R.VEN_STATE, R.VEN_PICTURES]
      omega
    · have := venWords_lt hk
      rw [R.VEN_STATE, venReg]
      omega
  have moved := fld_setUnit_above (kind := 2) (u := n) (new := 1) (by decide) (by decide) false
    (encShowNext n (setEnc n { sliceRows := bits (c.w 9) 23 16 } (encDeclared n c level s))) event shf 2 2 (by decide)
  have apart : R.VEN_STATE n ≠ R.VEN_NEXT_N_LO n := by
    rw [R.VEN_STATE, R.VEN_NEXT_N_LO]
    omega
  have shown : rd (encShowNext n (setEnc n { sliceRows := bits (c.w 9) 23 16 } (encDeclared n c level s))) (R.VEN_STATE n) =
      rd (encCharged n c s) (R.VEN_STATE n) := by rw [rd_encShowNext _ apart, rd_setEnc, written]
  have state : unitReg 2 n = R.VEN_STATE n := rfl
  rw [state, fld_of_rd_eq shown, encCharged, fld_setFld_same _ _ 2 2 _ (by decide) (by decide),
    Nat.mod_eq_of_lt (bits_lt (c.w 2) 16 16)] at moved
  rw [encPipe, encEnter_eq, moved]

theorem unitState_encEnter (hn : n < 16) (level : Nat) (s : State) : unitState (encEnter n c level s) 2 n = 1 := by
  rw [encEnter_eq]
  exact unitState_setUnit (kind := 2) (u := n) (by decide) (by decide) _ _ (venReg_clear hn (k := 0) (by decide)).1

theorem rd_encEnter_committed (hn : n < 16) (level : Nat) (s : State) {p : Nat} (hp : p = 2 + bits (c.w 2) 16 16) :
    rd (encEnter n c level s) (R.TCK_POOL_COMMITTED p) = (rd s (R.TCK_POOL_COMMITTED p) + encCost c.w) % 2 ^ 32 := by
  have pipe : bits (c.w 2) 16 16 < 2 := bits_lt (c.w 2) 16 16
  have low : R.TCK_POOL_COMMITTED p < 0x50080 := by rw [R.TCK_POOL_COMMITTED]; omega
  rw [rd_encEnter level s (eventReg_of_accessReg (accessReg_low (by omega)))
      (by rw [shfReg, decide_eq_false_iff_not]; omega) (by rw [R.VEN_STATE]; omega) (by rw [R.VEN_NEXT_N_LO]; omega),
    rd_encDeclared_other level s (fun i _ => by rw [R.VEN_PICTURES]; omega) (fun k _ => by rw [venReg]; omega), encCharged,
    rd_setFld_other _ _ _ _ (by rw [R.VEN_STATE]; omega), ← hp]
  exact rd_poolAdmit_first 2 n p _ [] s (by omega) fun _ h => absurd h List.not_mem_nil

theorem encs_encShowNext (n : Nat) (s : State) : (encShowNext n s).encs = s.encs := by
  unfold encShowNext
  split <;> rfl

theorem encAt_encEnter (level : Nat) (s : State) : encAt (encEnter n c level s) n = { sliceRows := bits (c.w 9) 23 16 } := by
  rw [encAt, encEnter_eq, encs_setUnit (by decide) (by decide), encs_encShowNext]
  exact (smGet_smSet _ _ _ _ _).trans (if_pos rfl)

theorem foldl_wr_rng (off : Nat → Nat) (v : State → Nat → Nat) (l : List Nat) (s : State) :
    (l.foldl (fun s i => wr s (off i) (v s i)) s).rng = s.rng := by
  rw [(foldl_wr_onlyRegs (p := fun _ => true) l (fun _ _ => rfl) s).rest]

theorem rng_encShowNext (n : Nat) (s : State) : (encShowNext n s).rng = s.rng := by
  unfold encShowNext
  split <;> rfl

theorem cmds_encEnter (level : Nat) (s : State) : (encEnter n c level s).rng.cmds = s.rng.cmds := by
  have charged : (encCharged n c s).rng = s.rng := by
    rw [encCharged, setFld_rng, poolAdmit_rest]
  have declared : (encDeclared n c level s).rng = (encCharged n c s).rng :=
    (foldl_wr_rng (fun i => R.VEN_PICTURES n + 4 * i) (fun _ _ => 0) _ _).trans
      (foldl_wr_rng (venReg n) (fun _ => venWord c level) _ _)
  rw [encEnter_eq, cmds_setUnit (by decide) (by decide), rng_encShowNext]
  show (encDeclared n c level s).rng.cmds = _
  rw [declared, charged]

/-! ## DRAINING -/

theorem encReleaseOpt_leaves (f : Option Sealed) (s : State) :
    encReleaseOpt f s = { s with chans := (encReleaseOpt f s).chans, heads := (encReleaseOpt f s).heads } := by
  cases f with
  | none => rfl
  | some f =>
    rw [encReleaseOpt, encRelease]
    split <;> rfl

/-- A session that drains takes no further input, and keeps the picture in coding (R347). -/
theorem encDrain_drains (hn : n < 16) (s : State) : CmdsKept s (encDrain n s) ∧ unitState (encDrain n s) 2 n = 3 ∧
    (encAt (encDrain n s) n).next = none ∧ (encAt (encDrain n s) n).pic = (encAt s n).pic := by
  have kept := unitDrain_cmdsKept (kind := 2) (u := n) (by decide) s
  have state : unitState (unitDrain 2 n s) 2 n = 3 :=
    unitState_unitDrain (kind := 2) (u := n) (by decide) (venReg_clear hn (k := 0) (by decide)).1 s
  have same : encAt (unitDrain 2 n s) n = encAt s n := by
    rw [encAt, unitDrain, encs_setUnit (by decide) (by decide), finishWaiters_rest, encAt]
  unfold encDrain
  dsimp only
  split
  · next i _ =>
    rw [encReleaseOpt_leaves]
    have stopped : encAt (setEnc n { encAt (unitDrain 2 n s) n with next := none } (unitDrain 2 n s)) n =
        { encAt (unitDrain 2 n s) n with next := none } := (smGet_smSet _ _ _ _ _).trans (if_pos rfl)
    refine ⟨kept, state, (congrArg EncSt.next stopped).trans rfl, (congrArg EncSt.pic stopped).trans ?_⟩
    rw [same]
  · next none => exact ⟨kept, state, none, by rw [same]⟩

/-! ## The commands -/

section commands

variable {tag : Fin 4096} (run : running s = true) (found : findCmd s tag.val = some c)
  (may : mayExecute s.rng.cmds c = true)
include run found may

theorem exec_encStart (op : c.opcode = 0x28) :
    exec (.encStart tag) s = .next (enableCmd 2 (bits (c.w 2) 3 0) c encStart s) := by
  show execEncStart tag s = _
  rw [execEncStart, live_running run, onCmd_started found may op]

theorem exec_encStop (op : c.opcode = 0x29) :
    exec (.encStop tag) s = .next (disableCmd 2 (bits (c.w 2) 3 0) c (encDrain (bits (c.w 2) 3 0)) s) := by
  show execEncStop tag s = _
  rw [execEncStop, live_running run, onCmd_started found may op]

end commands

theorem encStart_rejected {r : Nat} (bad : encReason s c.w = some r) :
    encStart c s = finish c.tag stRejected (r * 2 ^ 16) 0 0 s := by
  rw [encStart, bad]
  rfl

theorem encStart_full {p short : Nat} (good : encReason s c.w = none)
    (full : admitFails s [(2 + bits (c.w 2) 16 16, encCost c.w)] = some (p, short)) :
    encStart c s = finish c.tag stBudget p short 0 s := by
  rw [encStart, good, full]

theorem encStart_admitted (good : encReason s c.w = none)
    (room : admitFails s [(2 + bits (c.w 2) 16 16, encCost c.w)] = none) : encStart c s =
      waitCmd c.tag [auxEnabling] (encEnter (bits (c.w 2) 3 0) c ((encLevel s c.w).getD 0) s) := by
  rw [encStart, good, room]

theorem encPipe_waitCmd (tag : Nat) (aux : List Nat) (s : State) (n : Nat) : encPipe (waitCmd tag aux s) n = encPipe s n := rfl

theorem encAt_waitCmd (tag : Nat) (aux : List Nat) (s : State) (n : Nat) : encAt (waitCmd tag aux s) n = encAt s n := rfl

/-- The registers of an admitted session. -/
theorem rd_encEnter_declared (hn : n < 16) (level : Nat) (s : State) :
    rd (encEnter n c level s) (R.VEN_SRC n) = c.w 3 ∧ rd (encEnter n c level s) (R.VEN_SIZE n) = c.w 4 ∧
      rd (encEnter n c level s) (R.VEN_MODE n) = c.w 6 ∧ rd (encEnter n c level s) (R.VEN_BIT_RATE n) = c.w 7 ∧
      rd (encEnter n c level s) (R.VEN_CPB_KBIT n) = c.w 8 ∧ rd (encEnter n c level s) (R.VEN_COST n) = encCost c.w % 2 ^ 32 ∧
      rd (encEnter n c level s) (R.VEN_PICTURES n) = 0 ∧ rd (encEnter n c level s) (R.VEN_DATA_FREE n) = 2 ^ bits (c.w 11) 4 0 := by
  have word : ∀ k ∈ venWords, venWord c level k < 2 ^ 32 → rd (encEnter n c level s) (venReg n k) = venWord c level k :=
    fun k hk lt => (rd_encEnter_word hn level s hk).trans (Nat.mod_eq_of_lt lt)
  have ring : 2 ^ bits (c.w 11) 4 0 < 2 ^ 32 := Nat.pow_lt_pow_right (by decide) (bits_lt (c.w 11) 4 0)
  exact ⟨word 0x04 (by decide) (c.w_lt 3), word 0x08 (by decide) (c.w_lt 4), word 0x10 (by decide) (c.w_lt 6),
    word 0x14 (by decide) (c.w_lt 7), word 0x18 (by decide) (c.w_lt 8), rd_encEnter_word hn level s (k := 0x44) (by decide),
    rd_encEnter_pictures hn level s, word 0x3C (by decide) ring⟩

/-- Settles O51, by what each answer of an enable and of a disable does to the session and to its command. -/
theorem encodeSessionsStartAndStop : Obligations.EncodeSessionsStartAndStop := by
  intro tag c n s run found may hn
  subst hn
  have small : bits (c.w 2) 3 0 < 16 := bits_lt (c.w 2) 3 0
  refine ⟨fun op off => ⟨fun ticks r bad => ?_, fun ticks good p short full => ?_, fun ticks good room => ?_, fun stops => ?_⟩,
    fun op on => ?_, fun op off => ?_, fun op drains => ?_, fun op on => ?_⟩
  · exact ⟨_, (exec_encStart run found may op).trans (congrArg _ ((enableCmd_off off ticks).trans (encStart_rejected bad))),
      rfl, findCmd_finish found _ _ _ _⟩
  · exact ⟨_, (exec_encStart run found may op).trans (congrArg _ ((enableCmd_off off ticks).trans (encStart_full good full))),
      rfl, findCmd_finish found _ _ _ _⟩
  · obtain ⟨src, size, mode, rate, cpb, cost, pictures, free⟩ :=
      rd_encEnter_declared (c := c) small ((encLevel s c.w).getD 0) s
    refine ⟨_, (exec_encStart run found may op).trans (congrArg _ ((enableCmd_off off ticks).trans (encStart_admitted good room))),
      ?_, ?_, findCmd_waitCmd found (CmdsKept.of_eq (cmds_encEnter _ s)) _, src, size, mode, rate, cpb, cost, pictures, free,
      ?_, ?_, ?_⟩
    · rw [unitState_waitCmd, unitState_encEnter small]
    · rw [encPipe_waitCmd, encPipe_encEnter small]
    · rw [encAt_waitCmd, encAt_encEnter]
    · rw [encAt_waitCmd, encAt_encEnter]
    · rw [rd_waitCmd, rd_encEnter_committed small _ s rfl]
  · exact ⟨_, (exec_encStart run found may op).trans (congrArg _ (enableCmd_stopped off stops)), rfl, findCmd_finish found _ _ _ _⟩
  · exact ⟨_, (exec_encStart run found may op).trans (congrArg _ (enableCmd_on on)), rfl, findCmd_finish found _ _ _ _⟩
  · exact ⟨_, exec_encStop run found may op, regs_disableCmd_off off, findCmd_disableCmd_off found off⟩
  · exact ⟨_, exec_encStart run found may op, regs_enableCmd_draining drains, findCmd_enableCmd_draining found drains⟩
  · obtain ⟨kept, state, next, pic⟩ := encDrain_drains small s
    refine ⟨_, (exec_encStop run found may op).trans (congrArg _ (disableCmd_on on)), ?_, ?_, ?_, _, findCmd_waitCmd found kept _,
      rfl, rfl⟩
    · rw [unitState_waitCmd, state]
    · rw [encAt_waitCmd, next]
    · rw [encAt_waitCmd, pic]

end Sys2Proof.Machine
end

section
/-!
PROOFS. The operations of video decode (R247, R253 to R269): what parsing, reconstruction and the decoded picture buffer
leave of a channel's picture, credits and counters.
-/

namespace Sys2Proof.Machine

variable {a b s : State} {c : Nat}

/-- Slot and engines of a picture, and whether it is parsed. -/
def Pic.engines (p : Pic) : Nat × Nat × Nat × Bool := (p.slot, p.ent, p.pix, p.parsed)

/-- The registers that show the engines' state, a channel's next SEQ, its decoded pictures and its rejections. -/
def pictureReg (c off : Nat) : Bool :=
  decide (off = R.VDC_STATUS ∨ off = R.VDC_S_NEXT_SEQ c ∨ off = R.VDC_S_DECODED c ∨ off = R.SRC_OVER_DECL c)

/-- A channel with the same access units and credits, and with its picture in the same slot and engines. -/
structure ChanKept (x y : Chan) : Prop where
  aus : y.aus = x.aus
  entCredit : y.entCredit = x.entCredit
  pixCredit : y.pixCredit = x.pixCredit
  pic : y.pic.map Pic.engines = x.pic.map Pic.engines

theorem ChanKept.refl (x : Chan) : ChanKept x x := ⟨rfl, rfl, rfl, rfl⟩

theorem ChanKept.trans {x y z : Chan} (h : ChanKept x y) (j : ChanKept y z) : ChanKept x z :=
  ⟨j.aus.trans h.aus, j.entCredit.trans h.entCredit, j.pixCredit.trans h.pixCredit, j.pic.trans h.pic⟩

/-- The picture in decode of a channel that keeps its engines. -/
theorem ChanKept.pic_some {p : Pic} {x y : Chan} (h : ChanKept x y) (pic : x.pic = some p) :
    ∃ q, y.pic = some q ∧ q.slot = p.slot ∧ q.ent = p.ent ∧ q.pix = p.pix ∧ q.parsed = p.parsed := by
  have same := h.pic
  rw [pic, Option.map_some, Option.map_eq_some_iff] at same
  obtain ⟨q, hq, engines⟩ := same
  rw [Pic.engines, Pic.engines, Prod.mk.injEq, Prod.mk.injEq, Prod.mk.injEq] at engines
  exact ⟨q, hq, engines⟩

theorem ChanKept.pic_none {x y : Chan} (h : ChanKept x y) (pic : x.pic = none) : y.pic = none := by
  have same := h.pic
  rwa [pic, Option.map_none, Option.map_eq_none_iff] at same

theorem ChanKept.lastPic (x : Chan) (v : Option (Nat × Nat)) : ChanKept x { x with lastPic := v } := ⟨rfl, rfl, rfl, rfl⟩

theorem ChanKept.lastTainted (x : Chan) (v : Bool) : ChanKept x { x with lastTainted := v } := ⟨rfl, rfl, rfl, rfl⟩

/-- Two states in which a channel keeps its access units, its credits and its picture's engines, and these registers their
values. -/
structure DecodeKept (c : Nat) (a b : State) : Prop where
  regs : ∀ off, pictureReg c off = true → rd b off = rd a off
  chan : ChanKept (chanAt a c) (chanAt b c)

theorem DecodeKept.refl (c : Nat) (s : State) : DecodeKept c s s := ⟨fun _ _ => rfl, ChanKept.refl _⟩

theorem DecodeKept.trans {x : State} (h : DecodeKept c a b) (j : DecodeKept c b x) : DecodeKept c a x :=
  ⟨fun off ho => (j.regs off ho).trans (h.regs off ho), h.chan.trans j.chan⟩

/-- The rest of the state does not count. -/
theorem DecodeKept.of_regs_chans {x y : State} (regs : y.regs = x.regs) (chans : y.chans = x.chans) : DecodeKept c x y := by
  have chan : chanAt y c = chanAt x c := by rw [chanAt, chans, chanAt]
  exact ⟨fun off _ => by rw [rd, regs, rd], by rw [chan]; exact ChanKept.refl _⟩

theorem DecodeKept.ite {x y : State} {p : Prop} [Decidable p] (hx : DecodeKept c a x) (hy : DecodeKept c a y) :
    DecodeKept c a (if p then x else y) := by
  split
  · exact hx
  · exact hy

theorem DecodeKept.foldl {β : Type} {f : State → β → State} (l : List β) (h : DecodeKept c a s)
    (hf : ∀ t x, DecodeKept c a t → DecodeKept c a (f t x)) : DecodeKept c a (l.foldl f s) := by
  induction l generalizing s with
  | nil => exact h
  | cons x l ih => exact ih (hf s x h)

theorem pictureReg_quiet (hc : c < 96) {off : Nat} (h : pictureReg c off = true) : accessReg off = false := by
  rw [pictureReg, decide_eq_true_iff, R.VDC_STATUS, R.VDC_S_NEXT_SEQ, R.VDC_S_DECODED, R.SRC_OVER_DECL] at h
  exact accessReg_units (by omega) (by omega)

theorem AccessOnly.decode (hc : c < 96) {a b : State} (h : AccessOnly a b) : DecodeKept c a b := by
  have chan : chanAt b c = chanAt a c := by rw [chanAt, h.chans, chanAt]
  exact ⟨fun off ho => h.regs off (pictureReg_quiet hc ho), by rw [chan]; exact ChanKept.refl _⟩

section operations

variable (h : DecodeKept c a s)
include h

theorem DecodeKept.access (hc : c < 96) {t : State} (j : AccessOnly s t) : DecodeKept c a t := h.trans (j.decode hc)

theorem DecodeKept.raiseOnce (hc : c < 96) (key : Nat) (ev : Ev) (code : ev.code < 256) : DecodeKept c a (raiseOnce key ev s) :=
  h.access hc ((AccessOnly.refl s).raiseOnce key ev code)

theorem DecodeKept.wr {off : Nat} (v : Nat) (ho : pictureReg c off = false) : DecodeKept c a (wr s off v) := by
  refine h.trans ⟨fun o hr => rd_wr_other s v ?_, ChanKept.refl _⟩
  rintro rfl
  rw [ho] at hr
  cases hr

theorem DecodeKept.addReg {off : Nat} (n : Nat) (ho : pictureReg c off = false) : DecodeKept c a (addReg s off n) := h.wr _ ho

theorem DecodeKept.setFld {off : Nat} (hi lo v : Nat) (ho : pictureReg c off = false) : DecodeKept c a (setFld s off hi lo v) :=
  h.wr _ ho

theorem DecodeKept.setChan {d : Nat} {x : Chan} (same : ChanKept (chanAt s d) x) : DecodeKept c a (setChan d x s) := by
  refine h.trans ⟨fun _ _ => rfl, ?_⟩
  rw [chanAt_setChan]
  split
  · next e => rwa [e]
  · exact ChanKept.refl _

theorem DecodeKept.setSlot (d k : Nat) (x : Slot) : DecodeKept c a (setSlot d k x s) :=
  DecodeKept.setChan h ⟨rfl, rfl, rfl, rfl⟩

theorem DecodeKept.updSlot (d k : Nat) (f : Slot → Slot) : DecodeKept c a (updSlot d k f s) := DecodeKept.setSlot h d k _

theorem DecodeKept.updPic (d : Nat) (f : Pic → Pic) (same : ∀ p, (f p).engines = p.engines) : DecodeKept c a (updPic d f s) := by
  refine DecodeKept.setChan h ⟨rfl, rfl, rfl, ?_⟩
  rw [Option.map_map]
  exact congrArg (fun g => Option.map g _) (funext same)

theorem DecodeKept.gWords (x : Nat) (ws : List Nat) : DecodeKept c a (gWords x ws s) :=
  h.trans (DecodeKept.of_regs_chans rfl rfl)

end operations

/-- A register of a channel's block of decode that shows no picture's count. -/
theorem pictureReg_vdc (hc : c < 96) {k : Nat} (hk : k < 0x80) (seq : k ≠ 0xC) (decoded : k ≠ 0x40) :
    pictureReg c (0x201000 + k + c * 0x80) = false := by
  rw [pictureReg, decide_eq_false_iff_not, R.VDC_STATUS, R.VDC_S_NEXT_SEQ, R.VDC_S_DECODED, R.SRC_OVER_DECL]
  omega

/-- The registers of the signatures (R70, R71) and of the coefficient buffer (R248). -/
theorem pictureReg_low (hc : c < 96) {off : Nat} (h : off < 0x180000 ∨ off = R.VDC_COEF_PAGES ∨ off = R.VDC_COEF_STALLS) :
    pictureReg c off = false := by
  rw [R.VDC_COEF_PAGES, R.VDC_COEF_STALLS] at h
  rw [pictureReg, decide_eq_false_iff_not, R.VDC_STATUS, R.VDC_S_NEXT_SEQ, R.VDC_S_DECODED, R.SRC_OVER_DECL]
  omega

/-! ## Coefficient pages (R248) -/

theorem pageGive_decode (hc : c < 96) (d : Nat) (p : Pic) (h : DecodeKept c a s) : DecodeKept c a (pageGive d p s) := by
  have pages : pictureReg c R.VDC_COEF_PAGES = false := pictureReg_low hc (.inr (.inl rfl))
  exact DecodeKept.updPic ((h.setFld _ _ _ pages).setFld _ _ _ pages) d _ (by exact fun _ => rfl)

theorem pageTake_decode (hc : c < 96) (d : Nat) (h : DecodeKept c a s) : DecodeKept c a (pageTake d s) := by
  unfold pageTake
  split
  · refine h.ite (DecodeKept.ite ?_ (pageGive_decode hc d _ h))
    exact DecodeKept.updPic (h.addReg 1 (pictureReg_low hc (.inr (.inr rfl)))) d _ (by exact fun _ => rfl)
  · exact h

theorem pagesServe_decode (hc : c < 96) (h : DecodeKept c a s) : DecodeKept c a (pagesServe s) := by
  refine h.foldl _ fun t e ht => ?_
  split
  · split
    · exact (pageGive_decode hc _ _ ht).ite ht
    · exact ht
  · exact ht

theorem pagesReturn_decode (hc : c < 96) (d n : Nat) (h : DecodeKept c a s) : DecodeKept c a (pagesReturn d n s) := by
  unfold pagesReturn
  split
  · refine pagesServe_decode hc (DecodeKept.updPic (h.setFld _ _ _ (pictureReg_low hc (.inr (.inl rfl)))) d _ ?_)
    exact fun _ => rfl
  · exact h

theorem pageMoves_decode (hc : c < 96) (d : Nat) (moves : List (Option (Fin 8))) (h : DecodeKept c a s) :
    DecodeKept c a (pageMoves d moves s) := by
  refine h.foldl _ fun t m ht => ?_
  split
  · exact pageTake_decode hc d ht
  · split
    · exact pagesReturn_decode hc _ 1 ht
    · exact ht

/-! ## Parsing (R263, R264) -/

theorem decodeError_decode (hc : c < 96) (seq : Nat) (e : Nat × Nat) (h : DecodeKept c a s) :
    DecodeKept c a (decodeError c seq e s) := by
  have vdc : ∀ k, k < 0x80 → k ≠ 0xC → k ≠ 0x40 → pictureReg c (0x201000 + k + c * 0x80) = false := fun k => pictureReg_vdc hc
  refine DecodeKept.raiseOnce ?_ hc c _ (by decide : (0x70 : Nat) < 256)
  exact ((h.addReg 1 (vdc 0x54 (by decide) (by decide) (by decide))).wr _ (vdc 0x64 (by decide) (by decide) (by decide))).wr _
    (vdc 0x68 (by decide) (by decide) (by decide))

theorem parseStop_decode (hc : c < 96) (seq cls unit : Nat) (q : ParseAt) (h : DecodeKept c a s) :
    DecodeKept c a (parseStop c seq cls unit q s).1 := decodeError_decode hc seq (cls, unit) h

theorem dmaRead_decode (hc : c < 96) {g : Nat} (hg : g < 32) (port sp x n : Nat) (h : DecodeKept c a s) :
    DecodeKept c a (dmaRead g port sp x n s).1 := h.access hc (dmaReadAs_access hg false port sp x n (AccessOnly.refl s))

theorem bitstreamRead_decode (hc : c < 96) {ent : Nat} (he : ent < 4) (au : Au) (off n : Nat) (h : DecodeKept c a s) :
    DecodeKept c a (bitstreamRead c ent au off n s).1 := by
  unfold bitstreamRead
  dsimp only
  split
  · exact dmaRead_decode hc (by omega) _ _ _ _ (dmaRead_decode hc (by omega) _ _ _ _ h)
  · exact dmaRead_decode hc (by omega) _ _ _ _ h

/-- A loss ahead of a slice stops the parsing, or does not. -/
theorem parseGap_decode (hc : c < 96) (seq : Nat) (gap : Bool) (q : ParseAt) (h : DecodeKept c a s) :
    DecodeKept c a (if gap then parseStop c seq 1 q.unit q s else (s, q)).1 := by
  split
  · exact parseStop_decode hc seq 1 q.unit q h
  · exact h

theorem parseSlice_decode (hc : c < 96) {p : Pic} (he : p.ent < 4) (seq codec : Nat) (baseline : Bool) (sl : SliceObs)
    (q : ParseAt) (h : DecodeKept c a s) : DecodeKept c a (parseSlice c p seq codec baseline sl s q).1 := by
  unfold parseSlice
  extract_lets st en gap n
  have read := bitstreamRead_decode hc he p.au q.pos (en - q.pos) h
  generalize bitstreamRead c p.ent p.au q.pos (en - q.pos) s = r at read
  obtain ⟨s1, failed⟩ := r
  dsimp only
  generalize (gap && !q.broken) = stops
  have ahead := parseGap_decode hc seq stops q read
  generalize (if stops = true then parseStop c seq 1 q.unit q s1 else (s1, q)) = r at ahead
  obtain ⟨s2, q2⟩ := r
  dsimp only
  split
  · exact ahead
  · split
    · exact parseStop_decode hc _ _ _ _ ahead
    · split
      · exact parseStop_decode hc _ _ _ _ ahead
      · split
        · exact parseStop_decode hc _ _ _ _ ahead
        · split
          · exact parseStop_decode hc _ _ _ _ ahead
          · exact ahead

theorem parseSlices_decode (hc : c < 96) {p : Pic} (he : p.ent < 4) (seq codec : Nat) (baseline : Bool) (sls : List SliceObs)
    (q : ParseAt) (h : DecodeKept c a s) : DecodeKept c a (parseSlices c p seq codec baseline sls s q).1 := by
  induction sls generalizing s q with
  | nil =>
    unfold parseSlices
    split
    · split
      · exact h
      · split
        · exact parseStop_decode hc _ _ _ _ h
        · exact parseStop_decode hc _ _ _ _ h
    · exact h
  | cons sl sls ih => exact ih _ (parseSlice_decode hc he seq codec baseline sl q h)

/-! ## The decoded picture buffer (R255, R256) -/

theorem completeRecord_decode (hc : c < 96) (k : Nat) (h : DecodeKept c a s) : DecodeKept c a (completeRecord c k s) := by
  have misfits := h.raiseOnce hc c { code := 0x21, unit := c, a0 := (slotAt s c k).height * 2 ^ 16 + (slotAt s c k).width }
    (by decide : (0x21 : Nat) < 256)
  unfold completeRecord
  generalize signature s c k = r
  obtain ⟨sig, misfit⟩ := r
  dsimp only
  have noted := misfits.ite (c := c) (p := misfit = true) h
  generalize (if misfit = true then raiseOnce c { code := 0x21, unit := c, a0 := (slotAt s c k).height * 2 ^ 16 + (slotAt s c k).width } s
    else s) = t at noted
  generalize runFields (chanAt t c).prev (slotAt s c k).cap sig = f
  obtain ⟨run, span, rep⟩ := f
  dsimp only
  refine DecodeKept.wr (DecodeKept.wr (DecodeKept.setChan (DecodeKept.setSlot (noted.gWords _ _) c k _) ?_) _ ?_) _ ?_
  · exact ⟨rfl, rfl, rfl, rfl⟩
  · exact pictureReg_low hc (.inl (by rw [R.WIN_S_SIG]; omega))
  · exact pictureReg_low hc (.inl (by rw [R.WIN_S_RUN]; omega))

theorem pictureOutput_decode (hc : c < 96) (k : Nat) (h : DecodeKept c a s) : DecodeKept c a (pictureOutput c k s) := by
  have vdc : ∀ k, k < 0x80 → k ≠ 0xC → k ≠ 0x40 → pictureReg c (0x201000 + k + c * 0x80) = false := fun k => pictureReg_vdc hc
  unfold pictureOutput
  extract_lets x s1 s2 tainted s3 s4 was y s5
  have done : DecodeKept c a s2 := completeRecord_decode hc k (h.setSlot c k _)
  have shown : DecodeKept c a s4 := (done.setFld (off := R.VDC_S_STATE c) _ _ _ (vdc 0 (by decide) (by decide) (by decide))).wr
    (off := R.VDC_S_GEOM c) _ (vdc 8 (by decide) (by decide) (by decide))
  have marked : DecodeKept c a s5 := DecodeKept.setChan shown (ChanKept.lastTainted _ _)
  exact h.ite (DecodeKept.ite (marked.addReg 1 (vdc 0x60 (by decide) (by decide) (by decide)))
    (DecodeKept.ite (marked.raiseOnce hc c _ (by decide : (0x73 : Nat) < 256)) marked))

theorem dropWaiting_decode (k : Nat) (h : DecodeKept c a s) : DecodeKept c a (dropWaiting c k s) :=
  DecodeKept.updSlot (h.gWords _ _) c k _

theorem bump_decode (hc : c < 96) (reorder : Nat) (latency : Option Nat) (full fuel : Nat) (h : DecodeKept c a s) :
    DecodeKept c a (bump c reorder latency full fuel s) := by
  induction fuel generalizing s with
  | zero => exact h
  | succ fuel ih =>
    rw [bump]
    split
    · split
      · exact ih (pictureOutput_decode hc _ h)
      · exact h
    · exact h

theorem keepRefs_decode (keep : List Int) (also : List Nat) (h : DecodeKept c a s) : DecodeKept c a (keepRefs c keep also s) :=
  h.foldl _ fun _ k ht => ht.ite (DecodeKept.updSlot ht c k _)

theorem sequenceBegin_decode (o : PictureStart) (h : DecodeKept o.ch.val a s) : DecodeKept o.ch.val a (sequenceBegin o s) := by
  have hc := o.ch.isLt
  unfold sequenceBegin
  dsimp only
  refine DecodeKept.setChan (keepRefs_decode [] [] (DecodeKept.ite ?_ ?_)) ⟨rfl, rfl, rfl, rfl⟩
  · exact h.foldl _ fun _ k ht => dropWaiting_decode k ht
  · exact bump_decode hc 0 none 17 16 h

theorem dpbComplete_decode (hc : c < 96) (p : Pic) (h : DecodeKept c a s) : DecodeKept c a (dpbComplete c p s) := by
  unfold dpbComplete
  extract_lets y s1 z s2 s3 s4 s5
  have waited : DecodeKept c a s1 := DecodeKept.ite (h.foldl _ fun _ k ht => ht.setSlot c k _) (h.gWords _ _)
  have held : DecodeKept c a s2 := waited.setSlot c p.slot _
  have kept : DecodeKept c a s3 := (keepRefs_decode p.keep [p.slot] held).ite held
  have bumped : DecodeKept c a s4 := bump_decode hc _ _ _ _ kept
  have settled : DecodeKept c a s5 := bumped.updSlot c p.slot _
  exact DecodeKept.setChan settled (ChanKept.lastPic _ _)

/-! ## Reconstruction (R257, R264 to R267) -/

theorem pixWrite_decode (hc : c < 96) {e : Nat} (he : e < 8) (x : Nat) (bs : List Byte) (h : DecodeKept c a s) :
    DecodeKept c a (pixWrite e x bs s) := h.access hc (dmaWrite_access (g := 10 + e / 2) (by omega) _ _ _ _ (AccessOnly.refl s))

theorem pixRead_decode (hc : c < 96) {e : Nat} (he : e < 8) (x n : Nat) (h : DecodeKept c a s) :
    DecodeKept c a (pixRead e x n s).1 := dmaRead_decode hc (by omega) _ _ _ _ h

/-- What reconstruction adds to a picture is what is concealed of it. -/
def PicSame (p q : Pic) : Prop := q = { p with conceal := q.conceal }

theorem PicSame.trans {p q r : Pic} (h : PicSame p q) (j : PicSame q r) : PicSame p r := by
  rw [PicSame] at *
  rw [j, h]

theorem PicSame.engines {p q : Pic} (h : PicSame p q) : q.engines = p.engines := by rw [h, Pic.engines, Pic.engines]

theorem PicSame.pix {p q : Pic} (h : PicSame p q) : q.pix = p.pix := by rw [h]

theorem pixelError_decode (hc : c < 96) (seq unit : Nat) (p : Pic) (h : DecodeKept c a s) :
    DecodeKept c a (pixelError c seq unit p s).1 ∧ PicSame p (pixelError c seq unit p s).2 :=
  ⟨decodeError_decode hc seq (0, unit) h, rfl⟩

theorem pixelReads_decode (hc : c < 96) (seq : Nat) (rs : List RefRead) {p : Pic} (he : p.pix < 8) (h : DecodeKept c a s) :
    DecodeKept c a (pixelReads c seq rs p s).1 ∧ PicSame p (pixelReads c seq rs p s).2 := by
  induction rs generalizing s p with
  | nil => exact ⟨h, rfl⟩
  | cons r rs ih =>
    rw [pixelReads]
    have read := pixRead_decode hc he (slotBase s c r.slot.val + r.off) r.len h
    generalize pixRead p.pix (slotBase s c r.slot.val + r.off) r.len s = m at read
    obtain ⟨s1, mem⟩ := m
    dsimp only
    split
    · obtain ⟨failed, same⟩ := pixelError_decode hc seq r.unit p read
      dsimp only at failed same ⊢
      generalize pixelError c seq r.unit p s1 = e at failed same
      obtain ⟨kept, rest⟩ := ih (p := e.2) (by rwa [same.pix]) failed
      exact ⟨kept, same.trans rest⟩
    · exact ih he read

theorem pixelGranary_decode (hc : c < 96) (seq : Nat) (ws : List (Nat × Nat)) (p : Pic) (h : DecodeKept c a s) :
    DecodeKept c a (pixelGranary c seq ws p s).1 ∧ PicSame p (pixelGranary c seq ws p s).2 := by
  induction ws generalizing s p with
  | nil => exact ⟨h, rfl⟩
  | cons w ws ih =>
    rw [pixelGranary]
    have met := granaryUncorrectable_access w.1 (AccessOnly.refl s)
    generalize granaryUncorrectable w.1 s = s1 at met
    dsimp only
    split
    · obtain ⟨failed, same⟩ := pixelError_decode hc seq w.2 p (h.access hc met)
      generalize pixelError c seq w.2 p s1 = e at failed same
      obtain ⟨kept, rest⟩ := ih e.2 failed
      exact ⟨kept, same.trans rest⟩
    · have healed : DecodeKept c a (granaryHeal w.1 1 s1) := h.access hc (granaryHeal_access w.1 1 met)
      exact ih p healed

theorem concealBytes_decode (hc : c < 96) {p : Pic} (he : p.pix < 8) (src : Option Nat) (fmt off n : Nat) (h : DecodeKept c a s) :
    DecodeKept c a (concealBytes c p src fmt off n s).1 := by
  cases src with
  | none => exact h
  | some k => exact pixRead_decode hc he _ _ h

theorem concealRow_decode (hc : c < 96) {p : Pic} (he : p.pix < 8) (src : Option Nat) (fmt off w : Nat) (us : List Nat)
    (row : List Byte) (h : DecodeKept c a s) : DecodeKept c a (concealRow c p src fmt off w us row s).1 := by
  induction us generalizing s row with
  | nil => exact h
  | cons u us ih => exact ih _ (concealBytes_decode hc he src fmt _ _ h)

theorem writeRows_decode (hc : c < 96) {p : Pic} (he : p.pix < 8) (src : Option Nat) (off bytes w k n y : Nat)
    (rows : List (List Byte)) (h : DecodeKept c a s) : DecodeKept c a (writeRows c p src off bytes w k n y rows s) := by
  induction n generalizing s y rows with
  | zero => exact h
  | succ n ih =>
    rw [writeRows]
    exact ih _ _ (pixWrite_decode hc he _ _ (concealRow_decode hc he src _ _ _ _ _ h))

theorem writePicture_decode (hc : c < 96) {p : Pic} (he : p.pix < 8) (o : DecodeObs) (h : DecodeKept c a s) :
    DecodeKept c a (writePicture c p o s) := by
  unfold writePicture
  dsimp only
  refine pixWrite_decode hc he _ _ (writeRows_decode hc ?_ _ _ _ _ _ _ _ _ (writeRows_decode hc he _ _ _ _ _ _ _ _ h))
  split <;> exact he

theorem pictureTaints_decode (p : Pic) (concealed : Nat) (h : DecodeKept c a s) :
    DecodeKept c a (pictureTaints c p concealed s) := by
  unfold pictureTaints
  dsimp only
  exact DecodeKept.setChan (h.setSlot c p.slot _) ⟨rfl, rfl, rfl, rfl⟩

theorem damageEvents_decode (hc : c < 96) (seq concealed : Nat) (p : Pic) (h : DecodeKept c a s) :
    DecodeKept c a (damageEvents c seq concealed p s) := by
  have vdc : ∀ k, k < 0x80 → k ≠ 0xC → k ≠ 0x40 → pictureReg c (0x201000 + k + c * 0x80) = false := fun k => pictureReg_vdc hc
  have counted := (h.addReg (off := R.VDC_S_CONCEALED_UNITS c) concealed (vdc 0x58 (by decide) (by decide) (by decide))).raiseOnce hc c
    { code := 0x71, unit := c, a0 := seq, a1 := concealed } (by decide : (0x71 : Nat) < 256)
  have told := h.ite (p := concealed = 0) counted
  unfold damageEvents
  dsimp only
  split
  · exact (told.addReg (off := R.VDC_S_SUBST c) 1 (vdc 0x5C (by decide) (by decide) (by decide))).raiseOnce hc c _
      (by decide : (0x72 : Nat) < 256)
  · exact told

end Sys2Proof.Machine
end

section
/-!
PROOFS. Pictures in decode (R54, R247 to R249, R254, R256, R260, R270): start, end of parsing, rejection, completion.
-/

namespace Sys2Proof.Machine

variable {a b s : State} {c : Nat} {p : Pic}

/-! ## Flags of the engines -/

/-- A flag below one that is set or cleared. -/
theorem flag_setFlag_below (s : State) (off : Nat) {i j : Nat} (b : Bool) (hi : i < 32) (below : j < i) :
    flag (setFlag s off i b) off j = flag s off j := by
  rw [flag, flag, bit_eq_bits, bit_eq_bits, ← fld, ← fld, setFlag, fld_setFld_below s off i i _ j j le_rfl hi below le_rfl]

theorem pictureReg_status (c : Nat) : pictureReg c R.VDC_STATUS = true := decide_eq_true (.inl rfl)
theorem pictureReg_seq (c : Nat) : pictureReg c (R.VDC_S_NEXT_SEQ c) = true := decide_eq_true (.inr (.inl rfl))
theorem pictureReg_decoded (c : Nat) : pictureReg c (R.VDC_S_DECODED c) = true := decide_eq_true (.inr (.inr (.inl rfl)))
theorem pictureReg_over (c : Nat) : pictureReg c (R.SRC_OVER_DECL c) = true := decide_eq_true (.inr (.inr (.inr rfl)))

theorem DecodeKept.status (h : DecodeKept c a b) (i : Nat) : flag b R.VDC_STATUS i = flag a R.VDC_STATUS i :=
  flag_of_rd_eq (h.regs _ (pictureReg_status c)) i

/-! ## A picture stops (R54, R270) -/

theorem slotAt_setSlot_same (c k : Nat) (x : Slot) (s : State) : slotAt (setSlot c k x s) c k = x := by
  rw [slotAt, setSlot, chanAt_setChan_same]
  exact (smGet_smSet _ _ _ _ _).trans (if_pos rfl)

theorem rd_setChan (c : Nat) (x : Chan) (s : State) (off : Nat) : rd (setChan c x s) off = rd s off := rfl

theorem rd_dropSlot (c k : Nat) (s : State) (off : Nat) : rd (dropSlot c k s) off = rd s off := rfl

/-- The engines of a picture that stops become idle before its pages return. -/
def enginesIdle (p : Pic) (s : State) : State :=
  setFlag (if p.parsed then s else setFlag s R.VDC_STATUS p.ent false) R.VDC_STATUS (4 + p.pix) false

/-- Its pages return. -/
def pagesBack (c : Nat) (p : Pic) (s : State) : State :=
  pagesReturn c p.pages (updPic c (fun q => { q with stalled := false }) (enginesIdle p s))

theorem stopPicture_eq (pic : (chanAt s c).pic = some p) : stopPicture c s =
    dropSlot c p.slot (setChan c { chanAt (pagesBack c p s) c with pic := none } (pagesBack c p s)) := by
  rw [stopPicture, pic]
  rfl

theorem pagesBack_decode (hc : c < 96) (p : Pic) (s : State) : DecodeKept c (enginesIdle p s) (pagesBack c p s) :=
  pagesReturn_decode hc c p.pages (DecodeKept.updPic (DecodeKept.refl c _) c _ (by exact fun _ => rfl))

theorem chanAt_setSlot (c k : Nat) (x : Slot) (s : State) :
    chanAt (setSlot c k x s) c = { chanAt s c with slots := smSet (fun _ => {}) (chanAt s c).slots k x } :=
  chanAt_setChan_same _ _ _

theorem pic_stopPicture (pic : (chanAt s c).pic = some p) : (chanAt (stopPicture c s) c).pic = none := by
  rw [stopPicture_eq pic, dropSlot, chanAt_setSlot, chanAt_setChan_same]

theorem slotAt_stopPicture (pic : (chanAt s c).pic = some p) : slotAt (stopPicture c s) c p.slot = {} := by
  rw [stopPicture_eq pic, dropSlot, slotAt_setSlot_same]

theorem rd_enginesIdle (p : Pic) (s : State) {off : Nat} (h : off ≠ R.VDC_STATUS) : rd (enginesIdle p s) off = rd s off := by
  unfold enginesIdle
  refine (rd_wr_other _ _ h).trans ?_
  split
  · rfl
  · exact rd_wr_other _ _ h

theorem rd_stopPicture (hc : c < 96) (pic : (chanAt s c).pic = some p) {off : Nat} (ho : pictureReg c off = true) :
    rd (stopPicture c s) off = rd (enginesIdle p s) off := by
  rw [stopPicture_eq pic, rd_dropSlot, rd_setChan, (pagesBack_decode hc p s).regs off ho]

/-- A picture's engines are idle once it has stopped (R270). -/
theorem flag_stopPicture (hc : c < 96) (pic : (chanAt s c).pic = some p) (he : p.ent < 4) (hp : p.pix < 8) :
    flag (stopPicture c s) R.VDC_STATUS (4 + p.pix) = false ∧
      (p.parsed = false → flag (stopPicture c s) R.VDC_STATUS p.ent = false) := by
  have same := fun i => flag_of_rd_eq (rd_stopPicture hc pic (pictureReg_status c)) i
  refine ⟨(same _).trans (flag_setFlag_same _ _ _ _ (by omega)), fun parsing => (same _).trans ?_⟩
  rw [enginesIdle, flag_setFlag_below _ _ _ (by omega) (by omega), parsing, if_neg (by decide),
    flag_setFlag_same _ _ _ _ (by omega)]

/-- What a rejection for work beyond the credit counts (R54). -/
theorem overDeclared_counts (hc : c < 96) (check pool : Nat) (s : State) :
    chanAt (overDeclared c check pool s) c = chanAt s c ∧
      rd (overDeclared c check pool s) (R.SRC_OVER_DECL c) = (rd s (R.SRC_OVER_DECL c) + 1) % 2 ^ 32 := by
  have told := (AccessOnly.refl (addReg s (R.SRC_OVER_DECL c) 1)).raiseOnce c
    { code := 0x14, unit := c, sub := check, a0 := pool } (by decide : (0x14 : Nat) < 256)
  unfold overDeclared
  constructor
  · rw [chanAt, told.chans]
    rfl
  · rw [told.regs _ (pictureReg_quiet hc (pictureReg_over c)), rd_addReg, if_pos rfl]

/-- A picture whose work exceeds the credit is rejected: it stops, its slot is FREE, its channel is tainted (R54). -/
theorem workExhausted_rejects (hc : c < 96) (pic : (chanAt s c).pic = some p) (he : p.ent < 4) (hp : p.pix < 8) (pool : Nat) :
    (chanAt (workExhausted c pool s) c).pic = none ∧ (chanAt (workExhausted c pool s) c).overTaint = true ∧
      slotAt (workExhausted c pool s) c p.slot = {} ∧ flag (workExhausted c pool s) R.VDC_STATUS (4 + p.pix) = false ∧
      (p.parsed = false → flag (workExhausted c pool s) R.VDC_STATUS p.ent = false) ∧
      (pool = 0 → (chanAt (workExhausted c pool s) c).entCredit = 0) ∧
      rd (workExhausted c pool s) (R.SRC_OVER_DECL c) = (rd s (R.SRC_OVER_DECL c) + 1) % 2 ^ 32 := by
  obtain ⟨chan, counted⟩ := overDeclared_counts hc 3 pool s
  have held : (chanAt (overDeclared c 3 pool s) c).pic = some p := by rw [chan, pic]
  obtain ⟨pixIdle, entIdle⟩ := flag_stopPicture hc held he hp
  have stopped := pic_stopPicture held
  have freed := slotAt_stopPicture held
  have counts := rd_stopPicture hc held (pictureReg_over c)
  rw [rd_enginesIdle p _ (by rw [R.SRC_OVER_DECL, R.VDC_STATUS]; omega), counted] at counts
  unfold workExhausted
  generalize stopPicture c (overDeclared c 3 pool s) = t at *
  dsimp only
  rw [slotAt] at freed ⊢
  rw [chanAt_setChan_same]
  refine ⟨?_, ?_, ?_, pixIdle, entIdle, fun zero => ?_, counts⟩
  · split <;> exact stopped
  · split <;> rfl
  · split <;> exact freed
  · rw [if_pos zero]

/-! ## Cycles are spent (R54) -/

theorem spendEnt_within {n : Nat} (pic : (chanAt s c).pic = some p) (parsing : p.parsed = false)
    (covered : n ≤ (chanAt s c).entCredit) : spendEnt c n s =
      setChan c { chanAt s c with entCredit := (chanAt s c).entCredit - n, pic := some { p with cost := p.cost + n } }
        (engineBusy p.ent n s) := by
  rw [spendEnt, pic]
  dsimp only
  rw [if_neg (by rw [parsing]; decide)]
  exact if_neg (Nat.not_lt.2 covered)

theorem spendEnt_beyond {n : Nat} (pic : (chanAt s c).pic = some p) (parsing : p.parsed = false)
    (short : (chanAt s c).entCredit < n) : spendEnt c n s = workExhausted c 0 (engineBusy p.ent n s) := by
  rw [spendEnt, pic]
  dsimp only
  rw [if_neg (by rw [parsing]; decide)]
  exact if_pos short

theorem spendPix_within {n : Nat} (pic : (chanAt s c).pic = some p) (covered : n ≤ (chanAt s c).pixCredit) :
    spendPix c n s = setChan c { chanAt s c with pixCredit := (chanAt s c).pixCredit - n } (engineBusy (4 + p.pix) n s) := by
  rw [spendPix, pic]
  exact if_neg (Nat.not_lt.2 covered)

theorem chanAt_engineBusy (e n : Nat) (s : State) (c : Nat) : chanAt (engineBusy e n s) c = chanAt s c := rfl

theorem rd_engineBusy (e n : Nat) (s : State) (off : Nat) : rd (engineBusy e n s) off = rd s off := rfl

/-! ## The end of parsing (R247, R248) -/

/-- The picture, if it is still in decode, is parsed. -/
def parseEnd (c : Nat) (o : ParseObs) (s : State) : State :=
  match (chanAt s c).pic with
  | some p => parseDone c p o s
  | none => s

theorem parseEnd_held (o : ParseObs) (pic : (chanAt s c).pic = some p) : parseEnd c o s = parseDone c p o s := by
  rw [parseEnd, pic]

theorem parseEnd_none (o : ParseObs) (pic : (chanAt s c).pic = none) : parseEnd c o s = s := by
  rw [parseEnd, pic]

theorem chanAt_noteLink (es : LinkErrs) (s : State) (c : Nat) : chanAt (noteLink es s) c = chanAt s c := rfl

theorem exec_entropyParseDone {ch : Fin 96} (o : ParseObs) (run : running s = true) (pic : (chanAt s ch.val).pic = some p)
    (parsing : p.parsed = false) (ha : a = pageMoves ch.val o.pages (noteLink o.links s)) : exec (.entropyParseDone ch o) s =
      .next (noteLink [] (if (chanAt a ch.val).pic.any (fun p => p.stalled) then a
        else parseEnd ch.val o (spendEnt ch.val o.cycles a))) := by
  have there : (chanAt (noteLink o.links s) ch.val).pic = some p := pic
  show execEntropyParseDone ch o s = _
  rw [execEntropyParseDone, live_running run, linked]
  dsimp only
  rw [there]
  dsimp only
  rw [if_neg (by rw [parsing]; decide), ← ha]
  rfl

/-- Parsing ends: the picture is parsed and its entropy engine idle (R247). -/
theorem parseDone_ends (hc : c < 96) (pic : (chanAt s c).pic = some p) (he : p.ent < 4) (o : ParseObs) :
    ∃ r, (chanAt (parseDone c p o s) c).pic = some r ∧ r.parsed = true ∧ r.slot = p.slot ∧
      (chanAt (parseDone c p o s) c).entCredit = (chanAt s c).entCredit ∧
      flag (parseDone c p o s) R.VDC_STATUS p.ent = false := by
  have parsed := parseSlices_decode hc he (slotAt s c p.slot).seq (declCodec s c) p.baseline o.slices {} (DecodeKept.refl c s)
  unfold parseDone
  extract_lets codec
  generalize parseSlices c p (slotAt s c p.slot).seq codec p.baseline o.slices s {} = m at parsed
  obtain ⟨u, q⟩ := m
  obtain ⟨r, hr, slot, -⟩ := parsed.chan.pic_some pic
  dsimp only at hr ⊢
  have flagged : chanAt (setFlag u R.VDC_STATUS p.ent false) c = chanAt u c := rfl
  rw [updPic, chanAt_setChan_same, flagged, hr]
  exact ⟨_, rfl, rfl, slot, parsed.chan.entCredit, flag_setFlag_same u _ _ _ (by omega)⟩

/-! ## Completion (R247, R256) -/

theorem exec_decodePictureComplete {ch : Fin 96} (o : DecodeObs) (run : running s = true)
    (pic : (chanAt s ch.val).pic = some p) (parsed : p.parsed = true) (covered : o.cycles ≤ (chanAt s ch.val).pixCredit) :
    exec (.decodePictureComplete ch o) s = .next (noteLink [] (pictureComplete ch.val p o
      (setChan ch.val { chanAt s ch.val with pixCredit := (chanAt s ch.val).pixCredit - o.cycles }
        (engineBusy (4 + p.pix) o.cycles (noteLink o.links s))))) := by
  have spent := spendPix_within (s := noteLink o.links s) pic covered
  rw [chanAt_noteLink] at spent
  show execDecodePictureComplete ch o s = _
  rw [execDecodePictureComplete, live_running run, linked]
  dsimp only
  rw [chanAt_noteLink, pic]
  dsimp only
  rw [if_neg (by rw [parsed]; decide), spent, chanAt_setChan_same]
  dsimp only
  rw [pic]

/-- A reconstructed picture is written, with its taints, counts and events. -/
def pictureWritten (c : Nat) (p : Pic) (o : DecodeObs) (seq : Nat) (s : State) : State :=
  damageEvents c seq p.conceal.length p (pictureTaints c p p.conceal.length (writePicture c p o s))

/-- Its pixel engine is idle, and it counts as decoded. -/
def pictureCounted (c : Nat) (p : Pic) (s : State) : State :=
  addReg (addReg (pagesReturn c p.pages (setFlag s R.VDC_STATUS (4 + p.pix) false)) (R.VDC_S_DECODED c) 1) R.VDC_PICTURES 1

/-- The decoded picture buffer takes it. -/
def pictureEnds (c : Nat) (p : Pic) (s : State) : State :=
  dpbComplete c p (setChan c { chanAt (pictureCounted c p s) c with pic := none } (pictureCounted c p s))

theorem pictureWritten_decode (hc : c < 96) {q : Pic} (hq : q.pix < 8) (o : DecodeObs) (seq : Nat) (h : DecodeKept c a s) :
    DecodeKept c a (pictureWritten c q o seq s) :=
  damageEvents_decode hc seq _ q (pictureTaints_decode q _ (writePicture_decode hc hq o h))

theorem pictureComplete_eq (hc : c < 96) (hp : p.pix < 8) (o : DecodeObs) (s : State) : ∃ q u,
    pictureComplete c p o s = pictureEnds c q u ∧ q.pix = p.pix ∧ DecodeKept c s u := by
  obtain ⟨reads, readSame⟩ := pixelReads_decode hc (slotAt s c p.slot).seq o.reads hp (DecodeKept.refl c s)
  unfold pictureComplete
  extract_lets seq
  generalize pixelReads c seq o.reads p s = m at reads readSame
  obtain ⟨s1, p1⟩ := m
  obtain ⟨met, metSame⟩ := pixelGranary_decode hc seq o.granary p1 reads
  dsimp only at met metSame ⊢
  generalize pixelGranary c seq o.granary p1 s1 = m at met metSame
  obtain ⟨s2, p2⟩ := m
  have engine : p2.pix = p.pix := metSame.pix.trans readSame.pix
  refine ⟨{ p2 with conceal := (List.range p2.total).filter (fun u => p2.conceal.contains u) },
    pictureWritten c { p2 with conceal := (List.range p2.total).filter (fun u => p2.conceal.contains u) } o seq s2, rfl, engine,
    pictureWritten_decode hc ?_ o seq met⟩
  show p2.pix < 8
  rwa [engine]

/-- A picture completes: none is in decode, its pixel engine is idle and it counts as decoded (R247, R256). -/
theorem pictureEnds_completes (hc : c < 96) (hp : p.pix < 8) (s : State) :
    (chanAt (pictureEnds c p s) c).pic = none ∧ flag (pictureEnds c p s) R.VDC_STATUS (4 + p.pix) = false ∧
      (chanAt (pictureEnds c p s) c).pixCredit = (chanAt s c).pixCredit ∧
      rd (pictureEnds c p s) (R.VDC_S_DECODED c) = (rd s (R.VDC_S_DECODED c) + 1) % 2 ^ 32 := by
  have pages := pagesReturn_decode hc c p.pages (DecodeKept.refl c (setFlag s R.VDC_STATUS (4 + p.pix) false))
  have taken := dpbComplete_decode hc p (DecodeKept.refl c
    (setChan c { chanAt (pictureCounted c p s) c with pic := none } (pictureCounted c p s)))
  have decoded : R.VDC_S_DECODED c ≠ R.VDC_PICTURES := by rw [R.VDC_S_DECODED, R.VDC_PICTURES]; omega
  have status : R.VDC_STATUS ≠ R.VDC_S_DECODED c := by rw [R.VDC_S_DECODED, R.VDC_STATUS]; omega
  have credit : (chanAt (pictureCounted c p s) c).pixCredit = (chanAt s c).pixCredit := pages.chan.pixCredit
  refine ⟨taken.chan.pic_none (by rw [chanAt_setChan_same]), ?_, ?_, ?_⟩
  · rw [pictureEnds, taken.status, flag_of_rd_eq (rd_setChan _ _ _ _), pictureCounted, flag, rd_addReg, if_neg (by decide),
      rd_addReg, if_neg status, ← flag, pages.status, flag_setFlag_same _ _ _ _ (by omega)]
  · rw [pictureEnds, taken.chan.pixCredit, chanAt_setChan_same, credit]
  · rw [pictureEnds, taken.regs _ (pictureReg_decoded c), rd_setChan, pictureCounted, rd_addReg, if_neg decoded, rd_addReg,
      if_pos rfl, pages.regs _ (pictureReg_decoded c), setFlag, rd_setFld_other _ _ _ _ (Ne.symm status)]

/-! ## The start of a picture (R247, R249, R254) -/

/-- Two states that differ at most in a channel's start state. -/
structure StartKept (c : Nat) (a b : State) : Prop where
  rest : b = { a with chans := b.chans }
  others : ∀ d, d ≠ c → chanAt b d = chanAt a d
  own : ∃ x y z, chanAt b c = { chanAt a c with started := x, atStart := y, skipRasl := z }

theorem StartKept.refl (c : Nat) (s : State) : StartKept c s s := ⟨rfl, fun _ _ => rfl, _, _, _, rfl⟩

theorem StartKept.setChan {x : Chan} (h : StartKept c a s)
    (own : ∃ u v w, x = { chanAt s c with started := u, atStart := v, skipRasl := w }) : StartKept c a (setChan c x s) := by
  obtain ⟨rest, others, u, v, w, chan⟩ := h
  obtain ⟨u', v', w', hx⟩ := own
  refine ⟨?_, fun d hd => ?_, u', v', w', ?_⟩
  · rw [rest]
    rfl
  · rw [chanAt_setChan, if_neg hd, others d hd]
  · rw [chanAt_setChan_same, hx, chan]

theorem startDecode_kept (c : Nat) (s : State) : StartKept c s (startDecode c s) := by
  unfold startDecode
  dsimp only
  split
  · exact StartKept.refl c s
  · exact (StartKept.refl c s).setChan ⟨_, _, _, rfl⟩

theorem noteIrap_kept (o : PictureStart) (h : StartKept o.ch.val a s) : StartKept o.ch.val a (noteIrap o s) := by
  unfold noteIrap
  split
  · exact h
  · exact h.setChan ⟨_, _, _, rfl⟩

section started

variable (h : StartKept c a b)
include h

theorem StartKept.slotAt (k : Nat) : slotAt b c k = slotAt a c k := by
  obtain ⟨-, -, u, v, w, chan⟩ := h
  rw [Machine.slotAt, chan, Machine.slotAt]

theorem StartKept.aus : (chanAt b c).aus = (chanAt a c).aus := by
  obtain ⟨-, -, u, v, w, chan⟩ := h
  rw [chan]

theorem StartKept.rd (off : Nat) : rd b off = rd a off := by
  obtain ⟨rest, -⟩ := h
  rw [rest]
  rfl

theorem StartKept.freeSlot : freeSlot b c = freeSlot a c := by
  have size : poolSize b c = poolSize a c := fld_of_rd_eq (h.rd _) 4 0
  have slots : ∀ k, slotState b c k = slotState a c k := fun k => congrArg Slot.state (h.slotAt k)
  rw [Machine.freeSlot, Machine.freeSlot, size]
  simp only [slots]

theorem StartKept.creditLeft : creditLeft b c = creditLeft a c := by
  have unit : frameUnit b = frameUnit a := by rw [frameUnit, frameUnit, tickDen, tickDen, fld_of_rd_eq (h.rd _)]
  obtain ⟨-, -, u, v, w, chan⟩ := h
  rw [Machine.creditLeft, Machine.creditLeft, unit, chan]

theorem StartKept.idle : idleEnt b = idleEnt a ∧ idlePix b = idlePix a := by
  obtain ⟨rest, -⟩ := h
  rw [rest]
  exact ⟨rfl, rfl⟩

/-- No other channel's picture goes first that did not before (R249). -/
theorem StartKept.overtaken : overtaken b c = overtaken a c := by
  have at_ : readyAt b c = readyAt a c := by rw [readyAt, readyAt, h.aus]
  have state : ∀ d, unitState b 0 d = unitState a 0 d := fun d => fld_of_rd_eq (h.rd _) 1 0
  have kind : ∀ d, srcKind b d = srcKind a d := fun d => fld_of_rd_eq (h.rd _) 5 4
  have size : ∀ d, poolSize b d = poolSize a d := fun d => fld_of_rd_eq (h.rd _) 4 0
  rw [Machine.overtaken, Machine.overtaken, at_]
  congr 1
  funext d
  by_cases same : d = c
  · rw [decide_eq_false (not_not.2 same)]
    rfl
  · have chan := h.others d same
    have slots : ∀ k, slotState b d k = slotState a d k := fun k => by rw [slotState, slotState, Machine.slotAt, Machine.slotAt, chan]
    have free : Machine.freeSlot b d = Machine.freeSlot a d := by
      rw [Machine.freeSlot, Machine.freeSlot, size]
      simp only [slots]
    have ready : pictureReady b d = pictureReady a d := by rw [pictureReady, pictureReady, state, kind, chan]
    have arrival : readyAt b d = readyAt a d := by rw [readyAt, readyAt, chan]
    rw [free, ready, arrival, chan]

end started

theorem StartKept.paramCheck {o : PictureStart} (h : StartKept o.ch.val a b) : paramCheck b o = paramCheck a o := by
  obtain ⟨rest, -⟩ := h
  rw [rest]
  rfl

/-- The next picture of a supported stream starts on the engines and in the slot that were free (R247, R249). -/
theorem decodeNext_starts {o : PictureStart} {au : Au} {e k q : Nat} (vcl : o.vcl = true) (kept : o.lost = false)
    (known : streamSupported (declCodec s o.ch.val) o = true)
    (starts : (chanAt s o.ch.val).started = false → startPicture o = true)
    (shown : (chanAt s o.ch.val).started = true → o.rasl = false ∨ (chanAt s o.ch.val).skipRasl = false)
    (declared : paramCheck s o = none) (ent : idleEnt s = some e) (pix : idlePix s = some q)
    (credit : creditLeft s o.ch.val = true) (slot : freeSlot s o.ch.val = some k) (first : overtaken s o.ch.val = false) :
    ∃ u, StartKept o.ch.val s u ∧ decodeNext o au s = pictureBegin o au e q k u := by
  have same := noteIrap_kept o (startDecode_kept o.ch.val s)
  refine ⟨_, same, ?_⟩
  have here : ¬ (!(chanAt s o.ch.val).started && !startPicture o) = true := by
    cases hs : (chanAt s o.ch.val).started with
    | true => exact Bool.false_ne_true
    | false => rw [starts hs]; exact Bool.false_ne_true
  have drawn : ¬ ((chanAt s o.ch.val).started && o.rasl && (chanAt s o.ch.val).skipRasl) = true := by
    cases hs : (chanAt s o.ch.val).started with
    | false => exact Bool.false_ne_true
    | true =>
      rcases shown hs with rasl | skip
      · rw [rasl]; exact Bool.false_ne_true
      · rw [skip, Bool.and_false]; exact Bool.false_ne_true
  unfold decodeNext
  dsimp only
  rw [known, if_neg (by rw [Bool.not_true, Bool.and_false]; decide), if_neg here, if_neg (by rw [vcl]; decide), if_neg drawn,
    if_neg (by rw [kept]; decide), pictureNext]
  rw [same.paramCheck, declared]
  dsimp only
  rw [same.freeSlot, slot]
  dsimp only
  rw [same.idle.1, same.idle.2, ent, pix]
  dsimp only
  rw [same.overtaken, first, if_neg (by decide), same.creditLeft, credit, if_neg (by decide)]

theorem dpbBegin_decode {o : PictureStart} (p : Pic) (h : DecodeKept o.ch.val a s) :
    DecodeKept o.ch.val a (dpbBegin o p s).1 ∧ (dpbBegin o p s).2.engines = p.engines := by
  have begun : DecodeKept o.ch.val a (if beginsSequence s o then sequenceBegin o s else s) := (sequenceBegin_decode o h).ite h
  exact ⟨(bump_decode o.ch.isLt _ _ _ _ (keepRefs_decode _ _ begun)).ite begun, rfl⟩

theorem noteRecovery_decode (o : PictureStart) (seq codec : Nat) (h : DecodeKept o.ch.val a s) :
    DecodeKept o.ch.val a (noteRecovery o seq codec s) := DecodeKept.setChan h ⟨rfl, rfl, rfl, rfl⟩

theorem spendFrame_decode (h : DecodeKept c a s) : DecodeKept c a (spendFrame c s) := DecodeKept.setChan h ⟨rfl, rfl, rfl, rfl⟩

theorem timeDisagree_access (c arrival : Nat) (sei rtcp : Option Nat) (s : State) :
    AccessOnly s (timeDisagree c arrival sei rtcp s) := (AccessOnly.refl s).raiseOnce _ _ (by decide : (0x20 : Nat) < 256)

/-- A picture takes its SEQ and its access unit. -/
def pictureTaken (c : Nat) (s : State) : State := auDone c (takeSeq c (spendFrame c s))

theorem pictureTaken_takes (c : Nat) (s : State) : (chanAt (pictureTaken c s) c).aus = (chanAt s c).aus.drop 1 ∧
    rd (pictureTaken c s) (R.VDC_S_NEXT_SEQ c) = (rd s (R.VDC_S_NEXT_SEQ c) + 1) % 2 ^ 32 := by
  constructor
  · rw [pictureTaken, auDone, chanAt_setChan_same]
    exact congrArg (List.drop 1) (spendFrame_decode (DecodeKept.refl c s)).chan.aus
  · refine (rd_addReg (spendFrame c s) (R.VDC_S_NEXT_SEQ c) 1 (R.VDC_S_NEXT_SEQ c)).trans ?_
    rw [if_pos rfl]
    rfl

/-- A picture's engines become busy (R247). -/
def enginesBusy (c ent pix fmt : Nat) (s : State) : State :=
  wr (setFlag (setFlag s R.VDC_STATUS ent true) R.VDC_STATUS (4 + pix) true) (R.VDC_S_FORMAT c) fmt

theorem chanAt_enginesBusy (c ent pix fmt : Nat) (s : State) (d : Nat) : chanAt (enginesBusy c ent pix fmt s) d = chanAt s d := rfl

theorem rd_enginesBusy (c ent pix fmt : Nat) (s : State) :
    rd (enginesBusy c ent pix fmt s) (R.VDC_S_NEXT_SEQ c) = rd s (R.VDC_S_NEXT_SEQ c) := by
  have status : R.VDC_S_NEXT_SEQ c ≠ R.VDC_STATUS := by rw [R.VDC_S_NEXT_SEQ, R.VDC_STATUS]; omega
  have format : R.VDC_S_NEXT_SEQ c ≠ R.VDC_S_FORMAT c := by rw [R.VDC_S_NEXT_SEQ, R.VDC_S_FORMAT]; omega
  rw [enginesBusy, rd_wr_other _ _ format, setFlag, rd_setFld_other _ _ _ _ status, setFlag, rd_setFld_other _ _ _ _ status]

theorem flag_enginesBusy (c : Nat) {ent pix : Nat} (fmt : Nat) (he : ent < 4) (hp : pix < 8) (s : State) :
    flag (enginesBusy c ent pix fmt s) R.VDC_STATUS ent = true ∧ flag (enginesBusy c ent pix fmt s) R.VDC_STATUS (4 + pix) = true := by
  have apart : R.VDC_STATUS ≠ R.VDC_S_FORMAT c := by rw [R.VDC_STATUS, R.VDC_S_FORMAT]; omega
  rw [enginesBusy, flag_of_rd_eq (rd_wr_other _ _ apart), flag_of_rd_eq (rd_wr_other _ _ apart)]
  refine ⟨?_, flag_setFlag_same _ _ _ _ (by omega)⟩
  rw [flag_setFlag_below _ _ _ (by omega) (by omega), flag_setFlag_same _ _ _ _ (by omega)]

/-- A picture's slot is taken and its header written (R258). -/
def slotHeaded (c pix k : Nat) (x : Slot) (ids : List Nat) (header : List Byte) (s : State) : State :=
  pixWrite pix (slotBase (takeSlot c k x ids s) c k) header (takeSlot c k x ids s)

theorem slotHeaded_takes (hc : c < 96) {pix : Nat} (hp : pix < 8) (k : Nat) (x : Slot) (ids : List Nat) (header : List Byte)
    (s : State) : chanAt (slotHeaded c pix k x ids header s) c =
        { chanAt s c with slots := smSet (fun _ => {}) (chanAt s c).slots k x } ∧
      rd (slotHeaded c pix k x ids header s) (R.VDC_S_NEXT_SEQ c) = rd s (R.VDC_S_NEXT_SEQ c) := by
  have frames : R.VDC_S_NEXT_SEQ c ≠ R.SRC_FRAMES c := by rw [R.VDC_S_NEXT_SEQ, R.SRC_FRAMES]; omega
  have taken : chanAt (takeSlot c k x ids s) c = { chanAt s c with slots := smSet (fun _ => {}) (chanAt s c).slots k x } :=
    chanAt_setSlot c k x s
  have counted : rd (takeSlot c k x ids s) (R.VDC_S_NEXT_SEQ c) = rd s (R.VDC_S_NEXT_SEQ c) := rd_wr_other _ _ frames
  unfold slotHeaded
  generalize takeSlot c k x ids s = u at taken counted
  have wrote : AccessOnly u (pixWrite pix (slotBase u c k) header u) :=
    dmaWrite_access (g := 10 + pix / 2) (by omega) _ _ _ _ (AccessOnly.refl u)
  constructor
  · rw [chanAt, wrote.chans, ← chanAt, taken]
  · rw [wrote.regs _ (pictureReg_quiet hc (pictureReg_seq c)), counted]

/-- Its slot's header is written, its engines become busy, and it is in decode (R247, R258). -/
def pictureOn (c ent pix k : Nat) (x : Slot) (ids : List Nat) (header : List Byte) (p : Pic) (s : State) : State :=
  let s := enginesBusy c ent pix x.fmt (slotHeaded c pix k x ids header s)
  setChan c { chanAt s c with pic := some p } s

theorem pictureOn_shows (hc : c < 96) {ent pix : Nat} (he : ent < 4) (hp : pix < 8) (k : Nat) (x : Slot) (ids : List Nat)
    (header : List Byte) (p : Pic) (s : State) :
    (chanAt (pictureOn c ent pix k x ids header p s) c).pic = some p ∧
      (chanAt (pictureOn c ent pix k x ids header p s) c).aus = (chanAt s c).aus ∧
      flag (pictureOn c ent pix k x ids header p s) R.VDC_STATUS ent = true ∧
      flag (pictureOn c ent pix k x ids header p s) R.VDC_STATUS (4 + pix) = true ∧
      slotAt (pictureOn c ent pix k x ids header p s) c k = x ∧
      rd (pictureOn c ent pix k x ids header p s) (R.VDC_S_NEXT_SEQ c) = rd s (R.VDC_S_NEXT_SEQ c) := by
  obtain ⟨chan, seq⟩ := slotHeaded_takes hc hp k x ids header s
  unfold pictureOn
  generalize slotHeaded c pix k x ids header s = u at chan seq
  obtain ⟨ent', pix'⟩ := flag_enginesBusy c x.fmt he hp u
  dsimp only
  rw [slotAt, chanAt_setChan_same, rd_setChan, flag_of_rd_eq (rd_setChan _ _ _ _), flag_of_rd_eq (rd_setChan _ _ _ _),
    chanAt_enginesBusy, chan, rd_enginesBusy, seq]
  exact ⟨rfl, rfl, ent', pix', (smGet_smSet _ _ _ _ _).trans (if_pos rfl), rfl⟩

/-- A picture in its slot and on its engines, before its references are known. -/
def pictureFresh (o : PictureStart) (au : Au) (ent pix k : Nat) (s : State) : Pic :=
  { slot := k, ent := ent, pix := pix, irap := o.irap.isSome, au := au, unit := unitSize (declCodec s o.ch.val) o
    across := ceilDiv o.codedW.val (unitSize (declCodec s o.ch.val) o)
    total := ceilDiv o.codedW.val (unitSize (declCodec s o.ch.val) o) * ceilDiv o.codedH.val (unitSize (declCodec s o.ch.val) o)
    mono := decide (o.chroma.val = 0), baseline := decide (declCodec s o.ch.val = 0 ∧ o.profile.toNat = 66) }

/-- A picture's content time, by its stream's SEI and its channel's RTCP (R66, R67). -/
def pictureTime (o : PictureStart) (au : Au) (s : State) : CapTime :=
  capCompressed s o.ch.val au.arrival (seiTime o.sei) (rtcpTime s o.ch.val au.arrival au.rtp)

/-- The start of a picture after the decoded picture buffer has made room: its access unit and SEQ are taken. -/
def pictureNoted (o : PictureStart) (au : Au) (s t : State) : State :=
  let u := pictureTaken o.ch.val (noteRecovery o (nextSeq s o.ch.val) (declCodec t o.ch.val) t)
  if (pictureTime o au s).disagree then
    timeDisagree o.ch.val au.arrival (seiTime o.sei) (rtcpTime s o.ch.val au.arrival au.rtp) u
  else u

/-- Its slot. -/
def pictureHeld (o : PictureStart) (au : Au) (s : State) : Slot :=
  pictureSlot s o (nextSeq s o.ch.val) au.arrival (pictureTime o au s)

theorem pictureBegin_eq (o : PictureStart) (au : Au) (ent pix k : Nat) (s : State) : ∃ ids header,
    pictureBegin o au ent pix k s = pictureOn o.ch.val ent pix k (pictureHeld o au s) ids header
      (dpbBegin o (pictureFresh o au ent pix k s) s).2 (pictureNoted o au s (dpbBegin o (pictureFresh o au ent pix k s) s).1) :=
  ⟨_, _, rfl⟩

theorem pictureNoted_access (o : PictureStart) (au : Au) (s t : State) : AccessOnly
    (pictureTaken o.ch.val (noteRecovery o (nextSeq s o.ch.val) (declCodec t o.ch.val) t)) (pictureNoted o au s t) :=
  (timeDisagree_access _ _ _ _ _).ite (AccessOnly.refl _)

/-- A picture starts on two engines in a slot, under the next SEQ (R247, R249, R258). -/
theorem pictureBegin_shows {o : PictureStart} {au au' : Au} {aus : List Au} {e q k : Nat} (he : e < 4) (hq : q < 8)
    (ready : (chanAt s o.ch.val).aus = au' :: aus) :
    ∃ p, (chanAt (pictureBegin o au e q k s) o.ch.val).pic = some p ∧ p.slot = k ∧ p.ent = e ∧ p.pix = q ∧ p.parsed = false ∧
      (chanAt (pictureBegin o au e q k s) o.ch.val).aus = aus ∧ flag (pictureBegin o au e q k s) R.VDC_STATUS e = true ∧
      flag (pictureBegin o au e q k s) R.VDC_STATUS (4 + q) = true ∧
      (slotAt (pictureBegin o au e q k s) o.ch.val k).decoding = true ∧
      (slotAt (pictureBegin o au e q k s) o.ch.val k).seq = rd s (R.VDC_S_NEXT_SEQ o.ch.val) ∧
      rd (pictureBegin o au e q k s) (R.VDC_S_NEXT_SEQ o.ch.val) = (rd s (R.VDC_S_NEXT_SEQ o.ch.val) + 1) % 2 ^ 32 := by
  obtain ⟨ids, header, eq⟩ := pictureBegin_eq o au e q k s
  obtain ⟨room, engines⟩ := dpbBegin_decode (pictureFresh o au e q k s) (DecodeKept.refl o.ch.val s)
  rw [eq]
  generalize dpbBegin o (pictureFresh o au e q k s) s = m at room engines
  obtain ⟨t, p⟩ := m
  dsimp only at room engines ⊢
  have kept := noteRecovery_decode o (nextSeq s o.ch.val) (declCodec t o.ch.val) room
  have told := pictureNoted_access o au s t
  obtain ⟨aus', seq⟩ := pictureTaken_takes o.ch.val (noteRecovery o (nextSeq s o.ch.val) (declCodec t o.ch.val) t)
  obtain ⟨pic, left, busy, busy', slot, next⟩ := pictureOn_shows o.ch.isLt he hq k (pictureHeld o au s) ids header p (pictureNoted o au s t)
  have chan : chanAt (pictureNoted o au s t) o.ch.val = chanAt (pictureTaken o.ch.val (noteRecovery o (nextSeq s o.ch.val)
      (declCodec t o.ch.val) t)) o.ch.val := by rw [chanAt, told.chans, chanAt]
  rw [Pic.engines, Prod.mk.injEq, Prod.mk.injEq, Prod.mk.injEq] at engines
  obtain ⟨inSlot, onEnt, onPix, parsing⟩ := engines
  refine ⟨p, pic, inSlot, onEnt, onPix, parsing, ?_, busy, busy', ?_, ?_, ?_⟩
  · rw [left, chan, aus', kept.chan.aus, ready]
    rfl
  · rw [slot]
    rfl
  · rw [slot]
    rfl
  · rw [next, told.regs _ (pictureReg_quiet o.ch.isLt (pictureReg_seq _)), seq, kept.regs _ (pictureReg_seq _)]

theorem idleEnt_lt {e : Nat} (h : idleEnt s = some e) : e < 4 := by
  have small : Config.entropyEngines s.part ≤ 4 := by cases s.part <;> decide
  exact Nat.lt_of_lt_of_le (List.mem_range.1 (List.mem_of_find?_eq_some h)) small

theorem idlePix_lt {e : Nat} (h : idlePix s = some e) : e < 8 := by
  have small : Config.pixelEngines s.part ≤ 8 := by cases s.part <;> decide
  exact Nat.lt_of_lt_of_le (List.mem_range.1 (List.mem_of_find?_eq_some h)) small

theorem exec_decodePictureStart {o : PictureStart} {au : Au} {aus : List Au} (run : running s = true) (awake : quiet s = false)
    (ready : pictureReady s o.ch.val = true) (queued : (chanAt s o.ch.val).aus = au :: aus) :
    exec (.decodePictureStart o) s = .next (decodeNext o au s) := by
  show execDecodePictureStart o s = _
  rw [execDecodePictureStart, live_running run]
  dsimp only
  rw [awake, ready, queued]
  rfl

theorem exec_decodeWorkExhausted {ch : Fin 96} (pix : Bool) (run : running s = true) (pic : (chanAt s ch.val).pic = some p)
    (works : p.parsed = false ∨ pix = true) : ∃ pool e n,
      exec (.decodeWorkExhausted ch pix) s = .next (workExhausted ch.val pool (engineBusy e n s)) := by
  have goes : ¬ (p.parsed && !pix) = true := by
    rcases works with parsing | pixel
    · rw [parsing]; exact Bool.false_ne_true
    · rw [pixel, Bool.not_true, Bool.and_false]; exact Bool.false_ne_true
  have meaning : exec (.decodeWorkExhausted ch pix) s = .next (if pix then
      workExhausted ch.val 1 (engineBusy (4 + p.pix) (chanAt s ch.val).pixCredit s)
    else workExhausted ch.val 0 (engineBusy p.ent (chanAt s ch.val).entCredit s)) := by
    show execDecodeWorkExhausted ch pix s = _
    rw [execDecodeWorkExhausted, live_running run]
    dsimp only
    rw [pic]
    dsimp only
    rw [if_neg goes]
  cases pix with
  | true => exact ⟨1, _, _, meaning⟩
  | false => exact ⟨0, _, _, meaning⟩

theorem rd_noteLink (es : LinkErrs) (s : State) (off : Nat) : rd (noteLink es s) off = rd s off := rfl
theorem flag_noteLink (es : LinkErrs) (s : State) (off i : Nat) : flag (noteLink es s) off i = flag s off i := rfl
theorem slotAt_noteLink (es : LinkErrs) (s : State) (c k : Nat) : slotAt (noteLink es s) c k = slotAt s c k := rfl

section parsing

variable {ch : Fin 96} (o : ParseObs) {q : Pic} (run : running s = true) (pic : (chanAt s ch.val).pic = some p)
  (parsing : p.parsed = false) (ha : a = pageMoves ch.val o.pages (noteLink o.links s))
  (taken : DecodeKept ch.val s a) (now : (chanAt a ch.val).pic = some q) (ent : q.ent = p.ent) (parsing' : q.parsed = false)
  (he : p.ent < 4)
include run pic parsing ha taken now ent parsing' he

/-- The engine's cycles are within the credit: parsing ends (R247). -/
theorem entropyParseDone_ends (slot : q.slot = p.slot) (free : q.stalled = false)
    (covered : o.cycles ≤ (chanAt s ch.val).entCredit) : ∃ t r, exec (.entropyParseDone ch o) s = .next t ∧
      (chanAt t ch.val).pic = some r ∧ r.parsed = true ∧ r.slot = p.slot ∧
      (chanAt t ch.val).entCredit = (chanAt s ch.val).entCredit - o.cycles ∧ flag t R.VDC_STATUS p.ent = false := by
  have spent := spendEnt_within now parsing' (n := o.cycles) (by rwa [taken.chan.entCredit])
  have there : (chanAt (spendEnt ch.val o.cycles a) ch.val).pic = some { q with cost := q.cost + o.cycles } := by
    rw [spent, chanAt_setChan_same]
  obtain ⟨r, hr, parsed, inSlot, credit, idle⟩ :=
    parseDone_ends ch.isLt there (by show q.ent < 4; rwa [ent]) o
  have ends : exec (.entropyParseDone ch o) s = .next (noteLink [] (parseDone ch.val { q with cost := q.cost + o.cycles } o
      (spendEnt ch.val o.cycles a))) := by
    rw [exec_entropyParseDone o run pic parsing ha, if_neg (by rw [now, Option.any_some, free]; decide), parseEnd_held o there]
  refine ⟨_, r, ends, hr, parsed, inSlot.trans slot, ?_, ?_⟩
  · rw [chanAt_noteLink, credit, spent, chanAt_setChan_same, taken.chan.entCredit]
  · rw [flag_noteLink, ← ent]
    exact idle

/-- The engine's cycles are beyond the credit: the picture is rejected (R54). -/
theorem entropyParseDone_rejects (slot : q.slot = p.slot) (pix : q.pix = p.pix) (hp : p.pix < 8) (free : q.stalled = false)
    (short : (chanAt s ch.val).entCredit < o.cycles) : ∃ t, exec (.entropyParseDone ch o) s = .next t ∧
      (chanAt t ch.val).pic = none ∧ (chanAt t ch.val).overTaint = true ∧ (chanAt t ch.val).entCredit = 0 ∧
      slotAt t ch.val p.slot = {} ∧ flag t R.VDC_STATUS p.ent = false := by
  have spent := spendEnt_beyond now parsing' (n := o.cycles) (by rwa [taken.chan.entCredit])
  have there : (chanAt (engineBusy q.ent o.cycles a) ch.val).pic = some q := now
  obtain ⟨none, taint, freed, -, idle, credit, -⟩ :=
    workExhausted_rejects ch.isLt there (by rwa [ent]) (by rwa [pix]) 0
  have ends : exec (.entropyParseDone ch o) s = .next (noteLink [] (workExhausted ch.val 0 (engineBusy q.ent o.cycles a))) := by
    rw [exec_entropyParseDone o run pic parsing ha, if_neg (by rw [now, Option.any_some, free]; decide), spent,
      parseEnd_none o none]
  refine ⟨_, ends, none, taint, credit rfl, ?_, ?_⟩
  · rw [slotAt_noteLink, ← slot, freed]
  · rw [flag_noteLink, ← ent]
    exact idle parsing'

end parsing

/-- Settles O41, by the start of a picture, the end of its parsing, its rejection and its completion. -/
theorem picturesDecode : Obligations.PicturesDecode := by
  refine ⟨fun o au aus e p k s run awake ready queued vcl kept known starts shown declared ent pix credit slot first => ?_,
    fun ch p s run pic he hp _ => ⟨fun o a parsing ha => ?_, fun pixel works => ?_, fun o parsed covered => ?_⟩⟩
  · obtain ⟨u, same, eq⟩ := decodeNext_starts (au := au) vcl kept known starts shown declared ent pix credit slot first
    obtain ⟨q, shows⟩ := pictureBegin_shows (au := au) (k := k) (idleEnt_lt ent) (idlePix_lt pix) (same.aus.trans queued)
    rw [same.rd] at shows
    exact ⟨_, q, (exec_decodePictureStart run awake ready queued).trans (congrArg _ eq), shows⟩
  · have linked : DecodeKept ch.val s (noteLink o.links s) := DecodeKept.of_regs_chans rfl rfl
    have taken : DecodeKept ch.val s a := ha ▸ pageMoves_decode ch.isLt ch.val o.pages linked
    obtain ⟨q, now, inSlot, onEnt, onPix, parses⟩ := taken.chan.pic_some pic
    have parsing' := parses.trans parsing
    refine ⟨q, now, inSlot, fun stalls => ?_,
      entropyParseDone_ends o run pic parsing ha taken now onEnt parsing' he inSlot,
      entropyParseDone_rejects o run pic parsing ha taken now onEnt parsing' he inSlot onPix hp⟩
    rw [exec_entropyParseDone o run pic parsing ha, now, Option.any_some, stalls, if_pos rfl]
  · obtain ⟨pool, engine, n, eq⟩ := exec_decodeWorkExhausted pixel run pic works
    have there : (chanAt (engineBusy engine n s) ch.val).pic = some p := pic
    obtain ⟨none, taint, freed, idle, -, -, counted⟩ := workExhausted_rejects ch.isLt there he hp pool
    exact ⟨_, eq, none, taint, freed, idle, counted⟩
  · obtain ⟨q, u, eq, engine, kept⟩ := pictureComplete_eq ch.isLt hp o (setChan ch.val { chanAt s ch.val with
      pixCredit := (chanAt s ch.val).pixCredit - o.cycles } (engineBusy (4 + p.pix) o.cycles (noteLink o.links s)))
    obtain ⟨none, idle, credit, counted⟩ := pictureEnds_completes ch.isLt (p := q) (by rwa [engine]) u
    refine ⟨noteLink [] (pictureEnds ch.val q u), (exec_decodePictureComplete o run pic parsed covered).trans (by rw [eq]),
      ?_, ?_, ?_, ?_⟩
    · rw [chanAt_noteLink, none]
    · rw [flag_noteLink, ← engine, idle]
    · rw [chanAt_noteLink, credit, kept.chan.pixCredit, chanAt_setChan_same]
    · rw [rd_noteLink, counted, kept.regs _ (pictureReg_decoded _), rd_setChan, rd_engineBusy, rd_noteLink]

end Sys2Proof.Machine
end

section
/-!
PROOFS. HK pairs (R73, R74): what a V word, a K word and the end of 51,200 counter updates do with a pair's slot.
-/

namespace Sys2Proof.Machine

variable {s : State} {off : Nat} {p : HuskPend}

theorem livePair_running (run : running s = true) (f : State → State) : livePair off s f = .next (f s) := by
  rw [running, Bool.and_eq_true] at run
  rw [livePair, run.1, run.2]
  rfl

/-! ## The slot of a pair -/

theorem huskPending_congr {t : State} (h : t.husks = s.husks) (off : Nat) : huskPending t off = huskPending s off := by
  rw [huskPending, h, huskPending]

theorem huskPending_huskDrop (off : Nat) (s : State) : huskPending (huskDrop off s) off = none := by
  refine List.find?_eq_none.2 fun q hq => ?_
  simpa using (List.mem_filter.1 hq).2

/-- A V word goes into the slot of its pair (R74). -/
def huskHold (off v : Nat) (s : State) : State :=
  { s with husks := s.husks ++ [{ off := off, v := BitVec.ofNat 32 v, until_ := s.updates + huskLife }] }

theorem huskPending_huskHold (v : Nat) (empty : huskPending s off = none) : huskPending (huskHold off v s) off =
    some { off := off, v := BitVec.ofNat 32 v, until_ := s.updates + huskLife } := by
  rw [huskPending, huskHold, List.find?_append, ← huskPending, empty, Option.none_or, List.find?_singleton]
  exact if_pos (decide_eq_true rfl)

/-- Before its 51,200 counter updates have passed a held value stays. -/
theorem huskExpire_fresh (fresh : ∀ p, huskPending s off = some p → s.updates < p.until_) : huskExpire off s = s := by
  unfold huskExpire
  split
  · next p held => exact if_neg (Nat.not_le.2 (fresh p held))
  · rfl

theorem huskExpire_due (held : huskPending s off = some p) (due : p.until_ ≤ s.updates) :
    huskExpire off s = huskReject 3 off (huskDrop off s) := by
  rw [huskExpire, held]
  exact if_pos due

/-! ## A rejection -/

/-- A rejected pair shows its cause and offset; other registers that no event reaches stay. -/
theorem rd_huskReject_other (cause off : Nat) (s : State) {o : Nat} (ho : eventReg o = false) (status : o ≠ R.WIN_STATUS)
    (reject : o ≠ R.WIN_HUSK_REJECT) : rd (huskReject cause off s) o = rd s o :=
  (rd_raise _ (by decide : (0x22 : Nat) < 256) _ ho).trans ((rd_wr_other _ _ reject).trans (rd_setFld_other s 0 0 _ status))

theorem rd_huskReject {cause : Nat} (hc : cause < 4) (off : Nat) (s : State) :
    rd (huskReject cause off s) R.WIN_HUSK_REJECT = cause * 2 ^ 30 + off % 2 ^ 24 :=
  (rd_raise _ (by decide : (0x22 : Nat) < 256) _ (by decide)).trans (rd_wr_same_of_lt _ _ (by omega))

theorem flag_huskReject (cause off : Nat) (s : State) : flag (huskReject cause off s) R.WIN_STATUS 0 = true := by
  have shown : rd (huskReject cause off s) R.WIN_STATUS = rd (setFlag s R.WIN_STATUS 0 true) R.WIN_STATUS :=
    (rd_raise _ (by decide : (0x22 : Nat) < 256) _ (by decide)).trans (rd_wr_other _ _ (by decide))
  rw [flag_of_rd_eq shown, flag_setFlag_same _ _ _ _ (by decide)]

theorem husks_huskReject (cause off : Nat) (s : State) : (huskReject cause off s).husks = s.husks := by
  rw [huskReject, raise_husks _ (by decide : (0x22 : Nat) < 256), wr_husks, setFlag_husks]

theorem accepted_huskReject (cause off : Nat) (s : State) : (huskReject cause off s).accepted = s.accepted := by
  rw [huskReject, raise_accepted _ (by decide : (0x22 : Nat) < 256), wr_accepted, setFlag_accepted]

theorem updates_huskReject (cause off : Nat) (s : State) : (huskReject cause off s).updates = s.updates := by
  rw [huskReject, raise_updates _ (by decide : (0x22 : Nat) < 256), wr_updates, setFlag_updates]

/-- Every rejection of a pair empties its slot. -/
theorem huskPending_dropped (cause off : Nat) (s : State) :
    huskPending (huskReject cause off (huskDrop off s)) off = none :=
  (huskPending_congr (husks_huskReject _ _ _) off).trans (huskPending_huskDrop off s)

/-! ## The V word -/

theorem huskV_empty (mask : huskMask s off ≠ 0) (empty : huskPending s off = none) (v : Nat) :
    huskV off v s = huskHold off v s := by
  have stays : huskExpire off s = s := huskExpire_fresh fun p held => absurd (empty.symm.trans held) (by simp)
  rw [huskV, if_neg mask]
  dsimp only
  rw [stays, empty]
  rfl

theorem huskV_replaces (mask : huskMask s off ≠ 0) (held : huskPending s off = some p) (fresh : s.updates < p.until_)
    (v : Nat) : huskV off v s = huskHold off v (huskReject 2 off (huskDrop off s)) := by
  have stays : huskExpire off s = s := huskExpire_fresh fun q hq => Option.some.inj (held.symm.trans hq) ▸ fresh
  rw [huskV, if_neg mask]
  dsimp only
  rw [stays, held]
  rfl

theorem huskVWrite_replaces (run : running s = true) (mask : huskMask s off ≠ 0) (held : huskPending s off = some p)
    (fresh : s.updates < p.until_) (v : Word) : ∃ t, exec (.huskVWrite off v) s = .next t ∧
      huskPending t off = some { off := off, v := v, until_ := s.updates + 51200 } ∧ flag t R.WIN_STATUS 0 = true ∧
      rd t R.WIN_HUSK_REJECT = 2 * 2 ^ 30 + off % 2 ^ 24 ∧
      (∀ o, eventReg o = false → o ≠ R.WIN_STATUS → o ≠ R.WIN_HUSK_REJECT → rd t o = rd s o) := by
  refine ⟨huskHold off v.toNat (huskReject 2 off (huskDrop off s)),
    (livePair_running run _).trans (congrArg _ (huskV_replaces mask held fresh _)), ?_,
    flag_huskReject 2 off (huskDrop off s), rd_huskReject (by decide) off (huskDrop off s),
    fun o ho status reject => rd_huskReject_other 2 off (huskDrop off s) ho status reject⟩
  rw [huskPending_huskHold _ (huskPending_dropped 2 off s), BitVec.ofNat_toNat, BitVec.setWidth_eq, updates_huskReject]
  rfl

/-! ## The K word -/

/-- A WIN pair waits for step 3 of the next seal. -/
theorem huskEffect_win (lo : 0x60000 ≤ off) (hi : off < 0x70000) (v : Nat) : huskEffect off v = winAccept off v := by
  funext s
  have commit : isMapCommit off = false := by
    rw [isMapCommit, inArray, decide_eq_false (by omega : ¬ 0x180068 ≤ off)]
    rfl
  have pair : isMapPair off = false := by
    rw [isMapPair, inArray, decide_eq_false (by omega : ¬ 0x302000 ≤ off)]
    rfl
  rw [huskEffect, if_neg (by rw [R.LCS_REQ]; omega), if_neg (by rw [R.PWR_REQ]; omega),
    if_neg (by rw [R.TIM_STEP_ACCEPT]; omega), commit, pair]
  rfl

theorem huskSound_iff (v k : Word) : huskSound v.toNat k.toNat = true ↔ k = v ^^^ 0xFFFFFFFF := by
  rw [huskSound, decide_eq_true_iff, complement, Nat.mod_eq_of_lt v.isLt, Nat.mod_eq_of_lt k.isLt, ← BitVec.toNat_inj,
    BitVec.toNat_xor]
  rfl

theorem huskK_mismatch {k : Nat} (mask : huskMask s off ≠ 0) (held : huskPending s off = some p) (fresh : s.updates < p.until_)
    (unsound : huskSound p.v.toNat k = false) (effect : Nat → State → State) :
    huskK off k effect s = huskReject 0 off (huskDrop off s) := by
  have stays : huskExpire off s = s := huskExpire_fresh fun q hq => Option.some.inj (held.symm.trans hq) ▸ fresh
  rw [huskK, if_neg mask]
  dsimp only
  rw [stays, held]
  dsimp only
  rw [unsound]
  rfl

theorem huskK_orphan (mask : huskMask s off ≠ 0) (empty : huskPending s off = none) (k : Nat) (effect : Nat → State → State) :
    huskK off k effect s = huskReject 1 off s := by
  have stays : huskExpire off s = s := huskExpire_fresh fun p held => absurd (empty.symm.trans held) (by simp)
  rw [huskK, if_neg mask]
  dsimp only
  rw [stays, empty]

theorem huskKWrite_accepts {k : Word} {v : Nat} (run : running s = true) (lo : 0x60000 ≤ off) (hi : off < 0x70000)
    (pair : pairValue s off k.toNat = some v) : ∃ t, exec (.huskKWrite off k) s = .next t ∧
      smGet (fun _ => none) t.accepted off = some v ∧ huskPending t off = none ∧ t.regs = s.regs := by
  refine ⟨winAccept off v (huskDrop off s), (livePair_running run _).trans (congrArg _ ?_), ?_, huskPending_huskDrop off s, rfl⟩
  · rw [huskK_of_pairValue pair, huskEffect_win lo hi]
  · exact smGet_smSet_same (fun _ => none) s.accepted off (some v)

theorem huskKWrite_mismatches {k : Word} (run : running s = true) (mask : huskMask s off ≠ 0)
    (held : huskPending s off = some p) (fresh : s.updates < p.until_) (other : k ≠ p.v ^^^ 0xFFFFFFFF) :
    ∃ t, exec (.huskKWrite off k) s = .next t ∧ huskPending t off = none ∧ t.accepted = s.accepted ∧
      flag t R.WIN_STATUS 0 = true ∧ rd t R.WIN_HUSK_REJECT = off % 2 ^ 24 := by
  have unsound : huskSound p.v.toNat k.toNat = false := Bool.eq_false_iff.2 fun sound => other ((huskSound_iff _ _).1 sound)
  exact ⟨_, (livePair_running run _).trans (congrArg _ (huskK_mismatch mask held fresh unsound _)),
    huskPending_dropped 0 off s, accepted_huskReject _ _ _, flag_huskReject _ _ _,
    (rd_huskReject (by decide) off _).trans (by omega)⟩

theorem huskKWrite_orphaned (run : running s = true) (mask : huskMask s off ≠ 0) (empty : huskPending s off = none) (k : Word) :
    ∃ t, exec (.huskKWrite off k) s = .next t ∧ huskPending t off = none ∧ t.accepted = s.accepted ∧
      flag t R.WIN_STATUS 0 = true ∧ rd t R.WIN_HUSK_REJECT = 2 ^ 30 + off % 2 ^ 24 :=
  ⟨_, (livePair_running run _).trans (congrArg _ (huskK_orphan mask empty _ _)),
    (huskPending_congr (husks_huskReject _ _ _) off).trans empty, accepted_huskReject _ _ _, flag_huskReject _ _ _,
    (rd_huskReject (by decide) off _).trans (by omega)⟩

/-! ## The end of the 51,200 counter updates -/

theorem le_updates_waitUpdates (u : Nat) (s : State) : u ≤ (waitUpdates u s).updates := by
  show u ≤ s.updates + (u - s.updates)
  omega

theorem exec_huskPendingTimeout (run : running s = true) (held : huskPending s off = some p) :
    exec (.huskPendingTimeout off) s = .next (huskReject 3 off (huskDrop off (waitUpdates p.until_ s))) := by
  show execHuskPendingTimeout off s = _
  rw [execHuskPendingTimeout, livePair_running run, held]
  exact congrArg _ (huskExpire_due (s := waitUpdates p.until_ s) held (le_updates_waitUpdates p.until_ s))

theorem huskPendingTimeout_discards (run : running s = true) (held : huskPending s off = some p) :
    ∃ t, exec (.huskPendingTimeout off) s = .next t ∧ huskPending t off = none ∧ p.until_ ≤ t.updates ∧
      t.accepted = s.accepted ∧ flag t R.WIN_STATUS 0 = true ∧ rd t R.WIN_HUSK_REJECT = 3 * 2 ^ 30 + off % 2 ^ 24 := by
  refine ⟨_, exec_huskPendingTimeout run held, huskPending_dropped 3 off (waitUpdates p.until_ s), ?_,
    accepted_huskReject _ _ _, flag_huskReject _ _ _, rd_huskReject (by decide) off _⟩
  rw [updates_huskReject]
  exact le_updates_waitUpdates p.until_ s

/-- Settles O29, by what each of the three writes does with the slot of its pair. -/
theorem huskPairsTakeEffectOrAreRejected : Obligations.HuskPairsTakeEffectOrAreRejected := by
  refine ⟨fun off v s run mask => ⟨fun empty => ?_, fun p held fresh => huskVWrite_replaces run mask held fresh v⟩,
    fun off k s run lo hi mask => ⟨fun v pair => huskKWrite_accepts run lo hi pair,
      fun p held fresh other => huskKWrite_mismatches run mask held fresh other,
      fun empty => huskKWrite_orphaned run mask empty k⟩,
    fun off p s run held => huskPendingTimeout_discards run held⟩
  refine (livePair_running run _).trans (congrArg _ ((huskV_empty mask empty _).trans ?_))
  rw [huskHold, BitVec.ofNat_toNat, BitVec.setWidth_eq]
  rfl

end Sys2Proof.Machine
end

section
/-!
PROOFS. What the operations of every head leave of one head: Lintel's registers (R94 to R102), its count of frames, its frame in
scan and its witness restart.
-/

namespace Sys2Proof.Machine

variable {a b s : State} {h k : Nat} {own : Bool}

/-- Lintel's registers of a head, and the head's count of frames. -/
def witnessReg (h off : Nat) : Bool :=
  decide ((0x66000 + h * 0x100 ≤ off ∧ off < 0x66100 + h * 0x100) ∨ off = R.HEAD_FRAMES h)

/-- Two states in which a head shows the same of its frames and has the same frame in scan; `own` allows a step of the head's
own witness restart, which LT_STATUS shows (R98). -/
structure WitnessKept (own : Bool) (h : Nat) (a b : State) : Prop where
  regs : ∀ off, witnessReg h off = true → (own = true → off ≠ R.WIN_LT_STATUS h) → rd b off = rd a off
  wide : wideGet b (R.HEAD_LAST_N_LO h) = wideGet a (R.HEAD_LAST_N_LO h)
  scan : (headAt b h).scan = (headAt a h).scan
  restart : own = false → (headAt b h).restart = (headAt a h).restart
  elapsed : b.elapsed = a.elapsed

theorem WitnessKept.refl (own : Bool) (h : Nat) (s : State) : WitnessKept own h s s :=
  ⟨fun _ _ _ => rfl, rfl, rfl, fun _ => rfl, rfl⟩

theorem WitnessKept.trans {c : State} (v : WitnessKept own h a b) (w : WitnessKept own h b c) : WitnessKept own h a c :=
  ⟨fun off ho hs => (w.regs off ho hs).trans (v.regs off ho hs), w.wide.trans v.wide, w.scan.trans v.scan,
    fun ho => (w.restart ho).trans (v.restart ho), w.elapsed.trans v.elapsed⟩

theorem WitnessKept.mono (w : WitnessKept false h a b) : WitnessKept own h a b :=
  ⟨fun off ho _ => w.regs off ho (fun e => by cases e), w.wide, w.scan, fun _ => w.restart rfl, w.elapsed⟩

theorem WitnessKept.ite {x y : State} {c : Prop} [Decidable c] (hx : WitnessKept own h a x) (hy : WitnessKept own h a y) :
    WitnessKept own h a (if c then x else y) := by
  split
  · exact hx
  · exact hy

theorem WitnessKept.foldlMem {β : Type} {f : State → β → State} (l : List β) (w : WitnessKept own h a s)
    (hf : ∀ t x, x ∈ l → WitnessKept own h a t → WitnessKept own h a (f t x)) : WitnessKept own h a (l.foldl f s) := by
  induction l generalizing s with
  | nil => exact w
  | cons x l ih => exact ih (hf s x (.head _) w) fun t y hy => hf t y (.tail _ hy)

theorem WitnessKept.of_fields (regs : ∀ off, witnessReg h off = true → rd b off = rd a off) (wide : b.wide = a.wide)
    (heads : b.heads = a.heads) (elapsed : b.elapsed = a.elapsed) : WitnessKept own h a b := by
  have head : headAt b h = headAt a h := headAt_of_heads_eq heads h
  exact ⟨fun off ho _ => regs off ho, by rw [wideGet, wide, wideGet], by rw [head], fun _ => by rw [head], elapsed⟩

theorem SessionWork.witness (hh : h < 24) (w : SessionWork a b) : WitnessKept own h a b := by
  refine ⟨fun off ho _ => w.regs off ?_ ?_, by rw [wideGet, w.rest, wideGet], w.scan h, fun _ => by rw [w.head h], w.elapsed⟩
  all_goals rw [witnessReg, decide_eq_true_iff, R.HEAD_FRAMES] at ho
  · rcases ho with lintel | count
    · exact accessReg_low (by omega)
    · exact accessReg_units (by omega) (by omega)
  · rw [sessionReg, decide_eq_false_iff_not]
    omega

/-- A register of any head but its count of frames. -/
theorem witnessReg_head (hh : h < 24) {k r : Nat} (count : r ≠ 0x68) (hr : r < 0x4000) :
    witnessReg h (0x300000 + r + k * 0x4000) = false := by
  rw [witnessReg, decide_eq_false_iff_not, R.HEAD_FRAMES]
  omega

/-- Another head's register of Lintel. -/
theorem witnessReg_lintel (hk : k < 24) (other : k ≠ h) {r : Nat} (hr : r < 0x100) :
    witnessReg h (0x66000 + r + k * 0x100) = false := by
  rw [witnessReg, decide_eq_false_iff_not, R.HEAD_FRAMES]
  omega

section writes

variable (w : WitnessKept own h a s)
include w

theorem WitnessKept.wr {off : Nat} (v : Nat) (ho : witnessReg h off = false) : WitnessKept own h a (wr s off v) := by
  refine w.trans ⟨fun o hr _ => rd_wr_other s v ?_, rfl, rfl, fun _ => rfl, rfl⟩
  rintro rfl
  rw [ho] at hr
  cases hr

theorem WitnessKept.setFld {off : Nat} (hi lo v : Nat) (ho : witnessReg h off = false) :
    WitnessKept own h a (setFld s off hi lo v) := w.wr _ ho

theorem WitnessKept.setFlag {off : Nat} (i : Nat) (x : Bool) (ho : witnessReg h off = false) :
    WitnessKept own h a (setFlag s off i x) := w.wr _ ho

theorem WitnessKept.addReg {off : Nat} (n : Nat) (ho : witnessReg h off = false) : WitnessKept own h a (addReg s off n) := w.wr _ ho

/-- LT_STATUS of a head: another's, or the head's own in its restart. -/
theorem WitnessKept.status (i : Nat) (x : Bool) (hk : k < 24) (other : own = true ∨ k ≠ h) :
    WitnessKept own h a (Machine.setFlag s (R.WIN_LT_STATUS k) i x) := by
  refine w.trans ⟨fun o hr mine => rd_wr_other s _ ?_, rfl, rfl, fun _ => rfl, rfl⟩
  rintro rfl
  rcases eq_or_ne k h with rfl | apart
  · exact mine (other.resolve_right (· rfl)) rfl
  · have none := witnessReg_lintel hk apart (r := 0) (by decide)
    rw [R.WIN_LT_STATUS, none] at hr
    cases hr

theorem WitnessKept.setHead {x : Head} (scan : x.scan = (headAt s k).scan)
    (restart : (own = true ∨ k ≠ h) ∨ x.restart = (headAt s k).restart) : WitnessKept own h a (Machine.setHead k x s) := by
  refine w.trans ⟨fun _ _ _ => rfl, rfl, ?_, fun mine => ?_, rfl⟩
  all_goals rw [headAt_setHead]; split
  · next e => rw [scan, e]
  · rfl
  · next e => exact (restart.resolve_left (by simp [mine, e])).trans (by rw [e])
  · rfl

theorem WitnessKept.setHead_ne (x : Head) (other : k ≠ h) : WitnessKept own h a (Machine.setHead k x s) := by
  refine w.trans ⟨fun _ _ _ => rfl, rfl, ?_, fun _ => ?_, rfl⟩
  all_goals rw [headAt_setHead, if_neg (Ne.symm other)]

theorem WitnessKept.work (hh : h < 24) {t : State} (j : SessionWork s t) : WitnessKept own h a t := w.trans (j.witness hh)

theorem WitnessKept.raise (hh : h < 24) (ev : Ev) (hc : ev.code < 256) : WitnessKept own h a (raise ev s) :=
  w.work hh ((AccessOnly.refl s).raise ev hc).work

end writes

/-! ## Lead -/

theorem showLead_witness (hh : h < 24) (k n : Nat) (w : WitnessKept own h a s) : WitnessKept own h a (showLead k n s) := by
  have shown := w.setFld (off := R.HEAD_LEAD k) 3 0 n (witnessReg_head hh (r := 0x2C) (by decide) (by decide))
  have status : witnessReg h (R.HEAD_STATUS k) = false := witnessReg_head hh (r := 4) (by decide) (by decide)
  unfold showLead
  dsimp only
  refine WitnessKept.ite ?_ (WitnessKept.ite ?_ shown)
  · refine WitnessKept.setFlag (shown.setHead (k := k) ?_ (.inr ?_)) 5 true status
    all_goals rfl
  · refine WitnessKept.setFlag (WitnessKept.addReg (shown.setHead (k := k) ?_ (.inr ?_)) _
      (witnessReg_head hh (r := 0x60) (by decide) (by decide))) 5 false status
    all_goals rfl

/-- The lead of another head, or of a head without a frame, is measured. -/
theorem measureLead_witness (hh : h < 24) (idle : k ≠ h ∨ (headAt s k).scan = none) (w : WitnessKept own h a s) :
    WitnessKept own h a (measureLead k s) := by
  unfold measureLead
  split
  · next sc scan =>
    have other : k ≠ h := idle.resolve_right (by rw [scan]; simp)
    exact ((showLead_witness hh k _ w).setHead_ne _ other).ite (showLead_witness hh k _ w)
  · exact showLead_witness hh k _ w

/-! ## HEADOK and the restart (R98, R99) -/

theorem headokUpdate_witness (hh : h < 24) (hk : k < 24) (other : own = true ∨ k ≠ h) (w : WitnessKept own h a s) :
    WitnessKept own h a (headokUpdate k s) := by
  have shown := w.status 0 (headokRule s k) hk other
  exact ((shown.status 1 false hk other).raise hh _ (by decide : (0x27 : Nat) < 256)).ite shown

theorem headStuck_witness (hh : h < 24) (cause : Nat) (hk : k < 24) (other : own = true ∨ k ≠ h) (w : WitnessKept own h a s) :
    WitnessKept own h a (headStuck cause k s) := by
  have stuck := ((w.setHead (k := k) (x := { headAt s k with restart := 1 }) rfl (.inl other)).status 1 true hk other).status 2 true
    hk other
  exact (headokUpdate_witness hh hk other ((stuck.status 3 true hk other).ite stuck)).raise hh _ (by decide : (0x26 : Nat) < 256)

/-! ## A re-time (R311) -/

/-- Commands in flight that are changed in turn: the rings' state alone changes. -/
theorem foldl_updCmd_rest {β : Type} (tag : β → Nat) (f : β → Cmd → Cmd) (l : List β) (s : State) :
    l.foldl (fun s d => updCmd (tag d) (f d) s) s =
      { s with rng := (l.foldl (fun s d => updCmd (tag d) (f d) s) s).rng } := by
  induction l generalizing s with
  | nil => rfl
  | cons d l ih => exact ih (updCmd (tag d) (f d) s)

theorem deferAbandon_rest (k : Nat) (s : State) :
    deferAbandon k s = { s with shf := (deferAbandon k s).shf, rng := (deferAbandon k s).rng } := by
  unfold deferAbandon
  dsimp only
  rw [foldl_updCmd_rest]

theorem deferAbandon_witness (k : Nat) (w : WitnessKept own h a s) : WitnessKept own h a (deferAbandon k s) := by
  rw [deferAbandon_rest]
  exact w.trans (.of_fields (fun _ _ => rfl) rfl rfl rfl)

theorem dropUnbegun_witness (hh : h < 24) (idle : k ≠ h ∨ (headAt s k).scan = none) (w : WitnessKept own h a s) :
    WitnessKept own h a (dropUnbegun k s) := by
  unfold dropUnbegun
  dsimp only
  split
  · next sc scan =>
    have other : k ≠ h := idle.resolve_right (by rw [scan]; simp)
    exact w.ite ((w.setHead_ne _ other).work hh (encNoScan_work _ _ (SessionWork.refl _)))
  · exact w

theorem finishWaiters_witness (kind u purpose status : Nat) (w : WitnessKept own h a s) :
    WitnessKept own h a (finishWaiters kind u purpose status s) := by
  rw [finishWaiters_rest]
  exact w.trans (.of_fields (fun _ _ => rfl) rfl rfl rfl)

theorem genStep_witness (hh : h < 24) (w : WitnessKept own h a s) : WitnessKept own h a (genStep s) := by
  have only := (genStep_onlyRegs s).rest
  refine w.trans (.of_fields (fun off ho => rd_genStep s ?_) (by rw [only]) (by rw [only]) (by rw [only]))
  rw [witnessReg, decide_eq_true_iff, R.HEAD_FRAMES] at ho
  rw [shfReg, decide_eq_false_iff_not]
  omega

theorem setUnit_witness (hh : h < 24) (k : Nat) {new : Nat} (on : new ≠ 0) (queued : Bool) (w : WitnessKept own h a s) :
    WitnessKept own h a (setUnit 1 k new queued s) := by
  obtain ⟨ev, code, eq⟩ := setUnit_moved k (by decide : 1 < 3) on queued s
  rw [eq]
  exact ((genStep_witness hh w).setFld 1 0 new (witnessReg_head hh (r := 4) (by decide) (by decide))).raise hh ev code

/-- A head that goes to STARTING, before HEADOK follows (R176, R178). -/
def headStarting (k : Nat) (s : State) : State :=
  let t := setUnit 1 k 1 (enableQueued s 1 k || decide ((headAt s k).restart ≠ 0 ∧ 1 = 3)) s
  setFlag (if unitState s 1 k = 3 ∧ 1 ≠ 0 then finishWaiters 1 k auxQueued stUnitState t else t) (R.HEAD_CTRL k) 0 true

theorem setHeadState_starting (k : Nat) (s : State) :
    setHeadState k 1 s = if unitState s 1 k = 1 then s else headokUpdate k (headStarting k s) := rfl

theorem headStarting_witness (hh : h < 24) (k : Nat) (w : WitnessKept own h a s) : WitnessKept own h a (headStarting k s) := by
  have moved := setUnit_witness hh k (by decide : 1 ≠ 0)
    (enableQueued s 1 k || decide ((headAt s k).restart ≠ 0 ∧ 1 = 3)) w
  exact WitnessKept.setFlag ((finishWaiters_witness 1 k auxQueued stUnitState moved).ite moved) 0 true
    (witnessReg_head hh (r := 0) (by decide) (by decide))

theorem setHeadState_witness (hh : h < 24) (hk : k < 24) (other : own = true ∨ k ≠ h) (w : WitnessKept own h a s) :
    WitnessKept own h a (setHeadState k 1 s) := by
  rw [setHeadState_starting]
  exact w.ite (headokUpdate_witness hh hk other (headStarting_witness hh k w))

/-- A head's re-time gives up what it had under way. -/
def retimeCleared (k : Nat) (s : State) : State :=
  setHead k { headAt (deferAbandon k s) k with restart := 0, stepPending := false, directPll := false, directNext := false,
                                               endAt := none, phaseMove := 0, retimeAt := (deferAbandon k s).elapsed }
    (deferAbandon k s)

/-- A head that is STARTING again waits for its PLL. -/
def retimeStarted (k : Nat) (s : State) : State :=
  raise { code := 0x86, unit := k, sub := 0, a0 := 0 }
    (addReg (setFlag (pllStart k s) (R.HEAD_STATUS k) 4 true) (R.HEAD_RETIMES k) 1)

theorem retimeHead_eq (k : Nat) (s : State) :
    retimeHead k s = retimeStarted k (setHeadState k 1 (dropUnbegun k (retimeCleared k s))) := rfl

theorem retimeCleared_witness (k : Nat) (other : own = true ∨ k ≠ h) (w : WitnessKept own h a s) :
    WitnessKept own h a (retimeCleared k s) :=
  (deferAbandon_witness k w).setHead rfl (.inl other)

theorem retimeStarted_witness (hh : h < 24) (k : Nat) (w : WitnessKept own h a s) : WitnessKept own h a (retimeStarted k s) := by
  have status : witnessReg h (R.HEAD_STATUS k) = false := witnessReg_head hh (r := 4) (by decide) (by decide)
  have started : WitnessKept own h a (pllStart k s) := (w.setFlag 3 false status).setHead (k := k) rfl (.inr rfl)
  exact ((started.setFlag 4 true status).addReg 1 (witnessReg_head hh (r := 0x48) (by decide) (by decide))).raise hh _
    (by decide : (0x86 : Nat) < 256)

theorem scan_retimeCleared (k : Nat) (s : State) : (headAt (retimeCleared k s) k).scan = (headAt s k).scan := by
  rw [retimeCleared, headAt_setHead_same, deferAbandon_rest]
  rfl

/-- Another head re-times, or a head does that has no frame in scan. -/
theorem retimeHead_witness (hh : h < 24) (hk : k < 24) (other : own = true ∨ k ≠ h) (idle : k ≠ h ∨ (headAt s k).scan = none)
    (w : WitnessKept own h a s) : WitnessKept own h a (retimeHead k s) := by
  rw [retimeHead_eq]
  refine retimeStarted_witness hh k (setHeadState_witness hh hk other (dropUnbegun_witness hh ?_ (retimeCleared_witness k other w)))
  rwa [scan_retimeCleared]

end Sys2Proof.Machine
end

section
/-!
PROOFS. The end of a head's frame (R94 to R99, R102, R308): what Lintel and the head show of it, and what the end of another
head's frame leaves.
-/

namespace Sys2Proof.Machine

variable {a b s : State} {h k : Nat} {own : Bool} {sc : Scan}

/-! ## Lintel's registers -/

/-- Lintel's registers of a head: all of them, the frame history with LT_LAST_N, and the layer CRCs. -/
def lintelReg (h off : Nat) : Bool := decide (0x66000 + h * 0x100 ≤ off ∧ off < 0x66100 + h * 0x100)
def historyReg (h off : Nat) : Bool := decide (0x66008 + h * 0x100 ≤ off ∧ off < 0x66090 + h * 0x100)
def layerCrcReg (h off : Nat) : Bool := decide (0x66090 + h * 0x100 ≤ off ∧ off < 0x66100 + h * 0x100)

theorem lintelReg_status (h : Nat) : lintelReg h (R.WIN_LT_STATUS h) = true := by
  rw [lintelReg, decide_eq_true_iff, R.WIN_LT_STATUS]
  omega

theorem historyReg_crc (h : Nat) {j : Nat} (hj : j < 16) : historyReg h (R.WIN_LT_HIST_CRC h j) = true := by
  rw [historyReg, decide_eq_true_iff, R.WIN_LT_HIST_CRC]
  omega

theorem historyReg_info (h : Nat) {j : Nat} (hj : j < 16) : historyReg h (R.WIN_LT_HIST_INFO h j) = true := by
  rw [historyReg, decide_eq_true_iff, R.WIN_LT_HIST_INFO]
  omega

theorem lintelShift_onlyRegs (h n crc flags : Nat) (s : State) : OnlyRegs (historyReg h) s (lintelShift h n crc flags s) := by
  have last : historyReg h (R.WIN_LT_LAST_N h) = true := by
    rw [historyReg, decide_eq_true_iff, R.WIN_LT_LAST_N]
    omega
  refine OnlyRegs.wr _ _ last (OnlyRegs.wr _ _ (historyReg_info h (by decide)) (OnlyRegs.wr _ _ (historyReg_crc h (by decide)) ?_))
  refine (OnlyRegs.refl s).foldl _ fun t i hi ht => ?_
  have small := List.mem_range.1 hi
  exact (ht.wr _ _ (historyReg_crc h (by omega))).wr _ _ (historyReg_info h (by omega))

theorem rd_lintelShift_last (h n crc flags : Nat) (s : State) :
    rd (lintelShift h n crc flags s) (R.WIN_LT_LAST_N h) = n % 2 ^ 32 := by
  unfold lintelShift
  dsimp only
  exact rd_wr_same_of_lt _ _ (Nat.mod_lt _ (by decide))

theorem rd_lintelShift_crc (h n crc flags : Nat) (s : State) :
    rd (lintelShift h n crc flags s) (R.WIN_LT_HIST_CRC h 0) = crc % 2 ^ 32 := by
  unfold lintelShift
  dsimp only
  rw [rd_wr_other, rd_wr_other, rd_wr_same]
  · rw [R.WIN_LT_HIST_CRC, R.WIN_LT_HIST_INFO]
    omega
  · rw [R.WIN_LT_HIST_CRC, R.WIN_LT_LAST_N]
    omega

/-- Lintel shows the layer CRCs of a frame (R94). -/
def layerCrcsShown (h : Nat) (layers : List Nat) (s : State) : State :=
  (List.range 16).foldl (fun s l => wr s (R.WIN_LT_LAYER_CRC h l) (layers.getD l 0)) s

/-- The frame history with the witness's run (R96, R102). -/
def historyShown (h n crc flags : Nat) (s : State) : State :=
  setFld (lintelShift h n crc flags s) (R.WIN_LT_STATUS h) 19 16 (min 15 (headAt (lintelShift h n crc flags s) h).run)

/-- Lintel shows a frame. -/
def lintelShown (h n crc flags : Nat) (layers : List Nat) (s : State) : State :=
  layerCrcsShown h layers (historyShown h n crc flags s)

theorem layerCrcs_onlyRegs (h : Nat) (layers : List Nat) (s : State) :
    OnlyRegs (layerCrcReg h) s (layerCrcsShown h layers s) := by
  refine (OnlyRegs.refl s).foldl _ fun t l hl ht => ht.wr _ _ ?_
  have := List.mem_range.1 hl
  rw [layerCrcReg, decide_eq_true_iff, R.WIN_LT_LAYER_CRC]
  omega

theorem lintelShown_onlyRegs (h n crc flags : Nat) (layers : List Nat) (s : State) :
    OnlyRegs (lintelReg h) s (lintelShown h n crc flags layers s) := by
  have outside : ∀ p : Nat → Bool, (∀ off, p off = true → lintelReg h off = true) →
      ∀ off, lintelReg h off = false → p off = false := fun p all off out =>
    Bool.eq_false_iff.2 fun yes => Bool.false_ne_true (out.symm.trans (all off yes))
  have history : ∀ off, historyReg h off = true → lintelReg h off = true := fun off yes => by
    rw [historyReg, decide_eq_true_iff] at yes
    rw [lintelReg, decide_eq_true_iff]
    omega
  have crcs : ∀ off, layerCrcReg h off = true → lintelReg h off = true := fun off yes => by
    rw [layerCrcReg, decide_eq_true_iff] at yes
    rw [lintelReg, decide_eq_true_iff]
    omega
  exact (((lintelShift_onlyRegs h n crc flags s).mono (outside _ history)).setFld (R.WIN_LT_STATUS h) 19 16 _
    (lintelReg_status h)).trans ((layerCrcs_onlyRegs h layers (historyShown h n crc flags s)).mono (outside _ crcs))

/-- The history is as the shift leaves it. -/
theorem rd_lintelShown (n crc flags : Nat) (layers : List Nat) (s : State) {off : Nat} (ho : historyReg h off = true) :
    rd (lintelShown h n crc flags layers s) off = rd (lintelShift h n crc flags s) off := by
  rw [historyReg, decide_eq_true_iff] at ho
  refine ((layerCrcs_onlyRegs h layers (historyShown h n crc flags s)).regs off ?_).trans (rd_setFld_other _ _ _ _ ?_)
  · rw [layerCrcReg, decide_eq_false_iff_not]
    omega
  · rw [R.WIN_LT_STATUS]
    omega

/-- HEADOK and STUCK are as they were. -/
theorem flag_lintelShown (n crc flags : Nat) (layers : List Nat) (s : State) {i : Nat} (hi : i < 16) :
    flag (lintelShown h n crc flags layers s) (R.WIN_LT_STATUS h) i = flag s (R.WIN_LT_STATUS h) i := by
  refine (flag_of_rd_eq ((layerCrcs_onlyRegs h layers (historyShown h n crc flags s)).regs (R.WIN_LT_STATUS h) ?_) i).trans ?_
  · rw [layerCrcReg, decide_eq_false_iff_not, R.WIN_LT_STATUS]
    omega
  · have shifted : rd (lintelShift h n crc flags s) (R.WIN_LT_STATUS h) = rd s (R.WIN_LT_STATUS h) :=
      (lintelShift_onlyRegs h n crc flags s).regs _ ?_
    · rw [historyShown, flag, bit_eq_bits, ← fld, fld_setFld_below _ _ _ _ _ _ _ (by decide) (by decide) hi le_rfl, fld,
        ← bit_eq_bits, ← flag, flag_of_rd_eq shifted]
    rw [historyReg, decide_eq_false_iff_not, R.WIN_LT_STATUS]
    omega

/-! ## The head's own registers -/

/-- The head shows a frame: number, flags and count (R308). -/
def headShown (h : Nat) (sc : Scan) (s : State) : State :=
  let s := wideSet (R.HEAD_LAST_N_LO h) sc.n s
  let s := wr s (R.HEAD_LAST_FLAGS h) (ofBool sc.cut * 4 + ofBool sc.timingTorn * 2 + ofBool sc.torn)
  addReg s (R.HEAD_FRAMES h) 1

theorem rd_wideSet_other (s : State) {lo off : Nat} (v : Nat) (ho : off ≠ lo) : rd (wideSet lo v s) off = rd s off :=
  rd_wr_other _ _ ho

theorem rd_headShown_count (h : Nat) (sc : Scan) (s : State) :
    rd (headShown h sc s) (R.HEAD_FRAMES h) = (rd s (R.HEAD_FRAMES h) + 1) % 2 ^ 32 := by
  unfold headShown
  dsimp only
  rw [rd_addReg, if_pos rfl, rd_wr_other, rd_wideSet_other]
  · rw [R.HEAD_FRAMES, R.HEAD_LAST_N_LO]
    omega
  · rw [R.HEAD_FRAMES, R.HEAD_LAST_FLAGS]
    omega

theorem rd_headShown_low (h : Nat) (sc : Scan) (s : State) {off : Nat} (ho : off < 0x300000) :
    rd (headShown h sc s) off = rd s off := by
  unfold headShown
  dsimp only
  rw [rd_addReg, if_neg, rd_wr_other, rd_wideSet_other]
  · rw [R.HEAD_LAST_N_LO]
    omega
  · rw [R.HEAD_LAST_FLAGS]
    omega
  · rw [R.HEAD_FRAMES]
    omega

theorem wideGet_headShown (h : Nat) (sc : Scan) (s : State) : wideGet (headShown h sc s) (R.HEAD_LAST_N_LO h) = sc.n :=
  smGet_smSet_same _ s.wide _ _

/-! ## What else happens -/

/-- A frame that ends counts, and goes to the lanes, to writeback and to the event rings (R197, R294, R308). -/
def frameTold (h : Nat) (sc : Scan) (q : State) (crc : Nat) (layers : List Nat) (s : State) : State :=
  let s := if sc.torn then addReg s (R.HEAD_TORN_FRAMES h) 1 else s
  let s := if sc.underran then addReg s (R.HEAD_UNDERRUN_FRAMES h) 1 else s
  let s := setFld s (R.HEAD_LEAD h) 19 16 sc.minLead
  let s := if sc.timingTorn then raise { code := 0x87, unit := h } (addReg s (R.HEAD_TIMING_TORN_FRAMES h) 1) else s
  let s := (lanesOf s h).foldl (fun s n => pushTrailer n h sc.n (trailerOf s q h sc crc layers) s) s
  let s := wbEnd h sc s
  let s := if flag s (R.HEAD_EVT_EN h) 2 then raise { code := 0x84, unit := h, a0 := crc } s else s
  if flag s (R.HEAD_EVT_EN h) 0 then raise { code := 0x82, unit := h } s else s

theorem pushTrailer_witness (lane k n : Nat) (words : List Nat) (w : WitnessKept own h a s) :
    WitnessKept own h a (pushTrailer lane k n words s) := w.trans (.of_fields (fun _ _ => rfl) rfl rfl rfl)

theorem wbEnd_witness (hh : h < 24) (k : Nat) (sc : Scan) (w : WitnessKept own h a s) : WitnessKept own h a (wbEnd k sc s) := by
  unfold wbEnd
  split
  · exact w
  · refine (w.work hh (setWb_work _ _ _ (SessionWork.refl s))).ite (WitnessKept.setHead ?_ ?_ (.inr ?_))
    · exact w.trans (.of_fields (fun _ _ => rfl) rfl rfl rfl)
    all_goals rfl

theorem frameTold_witness (hh : h < 24) (k : Nat) (sc : Scan) (q : State) (crc : Nat) (layers : List Nat)
    (w : WitnessKept own h a s) : WitnessKept own h a (frameTold k sc q crc layers s) := by
  unfold frameTold
  extract_lets s1 s2 s3 s4 s5 s6 s7
  have torn : WitnessKept own h a s1 :=
    (w.addReg (off := R.HEAD_TORN_FRAMES k) 1 (witnessReg_head hh (r := 0x58) (by decide) (by decide))).ite w
  have under : WitnessKept own h a s2 :=
    (torn.addReg (off := R.HEAD_UNDERRUN_FRAMES k) 1 (witnessReg_head hh (r := 0x50) (by decide) (by decide))).ite torn
  have lead : WitnessKept own h a s3 :=
    under.setFld (off := R.HEAD_LEAD k) 19 16 sc.minLead (witnessReg_head hh (r := 0x2C) (by decide) (by decide))
  have timing : WitnessKept own h a s4 :=
    ((lead.addReg (off := R.HEAD_TIMING_TORN_FRAMES k) 1 (witnessReg_head hh (r := 0x5C) (by decide) (by decide))).raise hh _
      (by decide : (0x87 : Nat) < 256)).ite lead
  have sent : WitnessKept own h a s5 := timing.foldlMem _ fun t n _ ht => pushTrailer_witness n k sc.n _ ht
  have written : WitnessKept own h a s6 := wbEnd_witness hh k sc sent
  have crcTold : WitnessKept own h a s7 := (written.raise hh _ (by decide : (0x84 : Nat) < 256)).ite written
  exact (crcTold.raise hh _ (by decide : (0x82 : Nat) < 256)).ite crcTold

/-- The head has no frame in scan. -/
def frameClosed (h endAt : Nat) (s : State) : State :=
  measureLead h (setHead h { headAt s h with scan := none, endAt := if unitState s 1 h = 2 then some endAt else none } s)

/-- A step of the clock that has waited for the end of the frame re-times the head (R311). -/
def frameRetimed (h : Nat) (s : State) : State :=
  if (headAt s h).stepPending && mayRetime s h then retimeHead h s else s

/-- What follows once Lintel and the head have shown the frame. -/
def frameLeft (h : Nat) (sc : Scan) (q : State) (crc : Nat) (layers : List Nat) (endAt : Nat) (s : State) : State :=
  frameRetimed h (frameClosed h endAt (frameTold h sc q crc layers s))

/-- The cut that the end of a frame may still meet (R303) leaves its number and CRC. -/
theorem cutLate_fields (sc : Scan) (s : State) (h : Nat) :
    (sc.cutLate s h).n = sc.n ∧ frameCrc (sc.cutLate s h) = frameCrc sc := by
  unfold Scan.cutLate
  split
  · exact ⟨rfl, rfl⟩
  · exact ⟨rfl, rfl⟩

theorem frameEnd_eq (scan : (headAt s h).scan = some sc) : ∃ flags layers endAt, frameEnd h s =
    frameLeft h (sc.cutLate s h) (scene s h) (frameCrc (sc.cutLate s h)) layers endAt (headShown h (sc.cutLate s h)
      (lintelShown h (sc.cutLate s h).n (frameCrc (sc.cutLate s h)) flags layers (headokUpdate h s))) := by
  unfold frameEnd
  rw [scan]
  dsimp -zeta only
  extract_lets endAt x q crc layers s1 ok flags
  exact ⟨flags, layers, endAt, rfl⟩

/-! ## Another head's frame -/

theorem lintelShown_witness (hk : k < 24) (other : k ≠ h) (n crc flags : Nat) (layers : List Nat)
    (w : WitnessKept own h a s) : WitnessKept own h a (lintelShown k n crc flags layers s) := by
  have only := lintelShown_onlyRegs k n crc flags layers s
  refine w.trans (.of_fields (fun off ho => only.regs off ?_) (by rw [only.rest]) (by rw [only.rest]) (by rw [only.rest]))
  rw [witnessReg, decide_eq_true_iff, R.HEAD_FRAMES] at ho
  rw [lintelReg, decide_eq_false_iff_not]
  omega

theorem headShown_witness (hh : h < 24) (other : k ≠ h) (sc : Scan) (w : WitnessKept own h a s) :
    WitnessKept own h a (headShown k sc s) := by
  have count : witnessReg h (R.HEAD_FRAMES k) = false := by
    rw [witnessReg, decide_eq_false_iff_not, R.HEAD_FRAMES, R.HEAD_FRAMES]
    omega
  have numbered : WitnessKept own h a { s with wide := smSet (fun _ => 0) s.wide (R.HEAD_LAST_N_LO k) sc.n } := by
    refine w.trans ⟨fun _ _ _ => rfl, smGet_smSet_other _ _ _ ?_, rfl, fun _ => rfl, rfl⟩
    rw [R.HEAD_LAST_N_LO, R.HEAD_LAST_N_LO]
    omega
  exact ((numbered.wr (off := R.HEAD_LAST_N_LO k) _ (witnessReg_head hh (r := 0x30) (by decide) (by decide))).wr
    (off := R.HEAD_LAST_FLAGS k) _ (witnessReg_head hh (r := 0x38) (by decide) (by decide))).addReg 1 count

theorem frameLeft_witness (hh : h < 24) (hk : k < 24) (other : k ≠ h) (sc : Scan) (q : State) (crc : Nat) (layers : List Nat)
    (endAt : Nat) (w : WitnessKept own h a s) : WitnessKept own h a (frameLeft k sc q crc layers endAt s) := by
  have closed : WitnessKept own h a (frameClosed k endAt (frameTold k sc q crc layers s)) :=
    measureLead_witness hh (.inl other) ((frameTold_witness hh k sc q crc layers w).setHead_ne _ other)
  exact (retimeHead_witness hh hk (.inr other) (.inl other) closed).ite closed

theorem frameEnd_witness (hh : h < 24) (hk : k < 24) (other : k ≠ h) (w : WitnessKept own h a s) :
    WitnessKept own h a (frameEnd k s) := by
  cases scan : (headAt s k).scan with
  | none =>
    rw [frameEnd, scan]
    exact w
  | some sc =>
    obtain ⟨flags, layers, endAt, eq⟩ := frameEnd_eq scan
    rw [eq]
    exact frameLeft_witness hh hk other _ _ _ _ _ (headShown_witness hh other _ (lintelShown_witness hk other _ _ _ _
      (headokUpdate_witness hh hk (.inr other) w)))

/-! ## The head's own frame -/

/-- STUCK is set and HEADOK is low (R98, R99). -/
def StuckShown (h : Nat) (s : State) : Prop :=
  flag s (R.WIN_LT_STATUS h) 1 = true ∧ flag s (R.WIN_LT_STATUS h) 0 = false

theorem StuckShown.of_rd {t : State} (stuck : StuckShown h s) (same : rd t (R.WIN_LT_STATUS h) = rd s (R.WIN_LT_STATUS h)) :
    StuckShown h t := ⟨(flag_of_rd_eq same 1).trans stuck.1, (flag_of_rd_eq same 0).trans stuck.2⟩

theorem WitnessKept.lintel (w : WitnessKept false h a b) {off : Nat} (ho : lintelReg h off = true) : rd b off = rd a off := by
  refine w.regs off ?_ fun e => by cases e
  rw [lintelReg, decide_eq_true_iff] at ho
  exact decide_eq_true (.inl ho)

theorem WitnessKept.stuck (w : WitnessKept false h a b) (stuck : StuckShown h a) : StuckShown h b :=
  stuck.of_rd (w.lintel (lintelReg_status h))

/-- Where HEADOK has to be low, STUCK stays as it is. -/
theorem headokUpdate_low (low : headokRule s h = false) : headokUpdate h s = setFlag s (R.WIN_LT_STATUS h) 0 false := by
  rw [headokUpdate, low]
  rfl

theorem headokUpdate_stuck (low : headokRule s h = false) (stuck : flag s (R.WIN_LT_STATUS h) 1 = true) :
    StuckShown h (headokUpdate h s) := by
  rw [headokUpdate_low low]
  exact ⟨(flag_setFld_above s _ _ le_rfl (by decide) (by decide)).trans stuck, flag_setFlag_same _ _ _ _ (by decide)⟩

theorem headokRule_restart (restart : (headAt s h).restart = 1) : headokRule s h = false := by
  have off : ¬ (unitState s 1 h = 2 ∧ witnessN s ≤ (headAt s h).frames ∧ (headAt s h).restart = 0) := fun ⟨_, _, zero⟩ => by
    rw [restart] at zero
    cases zero
  rw [headokRule, decide_eq_false off]
  rfl

theorem headokRule_starting (starting : unitState s 1 h = 1) : headokRule s h = false := by
  have off : ¬ (unitState s 1 h = 2 ∧ witnessN s ≤ (headAt s h).frames ∧ (headAt s h).restart = 0) := fun ⟨on, _, _⟩ => by
    rw [starting] at on
    cases on
  rw [headokRule, decide_eq_false off]
  rfl

theorem unitState_headStarting (hh : h < 24) (s : State) : unitState (headStarting h s) 1 h = 1 := by
  have status : eventReg (unitReg 1 h) = false := by
    show eventReg (R.HEAD_STATUS h) = false
    rw [← Bool.not_eq_true, eventReg_iff, R.HEAD_STATUS]
    omega
  have moved := unitState_setUnit (by decide : 1 < 3) (by decide : 1 ≠ 0)
    (enableQueued s 1 h || decide ((headAt s h).restart ≠ 0 ∧ 1 = 3)) s status
  have apart : unitReg 1 h ≠ R.HEAD_CTRL h := by
    show R.HEAD_STATUS h ≠ R.HEAD_CTRL h
    rw [R.HEAD_STATUS, R.HEAD_CTRL]
    omega
  unfold headStarting
  dsimp only
  rw [unitState, setFlag, fld_setFld_other _ _ _ _ _ _ apart]
  split
  · rw [finishWaiters_rest]
    exact moved
  · exact moved

theorem setHeadState_stuck (hh : h < 24) (stuck : StuckShown h s) : StuckShown h (setHeadState h 1 s) := by
  rw [setHeadState_starting]
  split
  · exact stuck
  · exact headokUpdate_stuck (headokRule_starting (unitState_headStarting hh s))
      ((headStarting_witness hh h (WitnessKept.refl false h s)).stuck stuck).1

theorem dropUnbegun_idle (idle : (headAt s h).scan = none) : dropUnbegun h s = s := by
  rw [dropUnbegun, idle]

theorem rd_retimeCleared (h : Nat) (s : State) (off : Nat) : rd (retimeCleared h s) off = rd s off := by
  rw [retimeCleared, deferAbandon_rest]
  rfl

theorem retimeHead_stuck (hh : h < 24) (idle : (headAt s h).scan = none) (stuck : StuckShown h s) :
    StuckShown h (retimeHead h s) := by
  rw [retimeHead_eq, dropUnbegun_idle ((scan_retimeCleared h s).trans idle)]
  exact (retimeStarted_witness hh h (WitnessKept.refl false h _)).stuck
    (setHeadState_stuck hh (stuck.of_rd (rd_retimeCleared h s _)))

/-- A head whose frame is closed has none in scan; else it is as before. -/
theorem frameClosed_closes (hh : h < 24) (endAt : Nat) (s : State) : ∃ x, x.scan = none ∧ x.restart = (headAt s h).restart ∧
    WitnessKept false h (setHead h x s) (frameClosed h endAt s) := by
  refine ⟨{ headAt s h with scan := none, endAt := if unitState s 1 h = 2 then some endAt else none }, rfl, rfl, ?_⟩
  refine measureLead_witness hh (.inr ?_) (WitnessKept.refl false h _)
  rw [headAt_setHead_same]

/-- What Lintel and the head have shown of a frame stays, and the head has no frame in scan. -/
structure FrameEnded (h : Nat) (a b : State) : Prop where
  regs : ∀ off, witnessReg h off = true → off ≠ R.WIN_LT_STATUS h → rd b off = rd a off
  wide : wideGet b (R.HEAD_LAST_N_LO h) = wideGet a (R.HEAD_LAST_N_LO h)
  scan : (headAt b h).scan = none
  elapsed : b.elapsed = a.elapsed
  stuck : StuckShown h a → StuckShown h b

theorem FrameEnded.andThen {c : State} (e : FrameEnded h a b) (w : WitnessKept false h b c) : FrameEnded h a c :=
  ⟨fun off ho hs => (w.regs off ho fun _ => hs).trans (e.regs off ho hs), w.wide.trans e.wide, w.scan.trans e.scan,
    w.elapsed.trans e.elapsed, fun stuck => w.stuck (e.stuck stuck)⟩

theorem frameLeft_ended (hh : h < 24) (sc : Scan) (q : State) (crc : Nat) (layers : List Nat) (endAt : Nat) (s : State) :
    FrameEnded h s (frameLeft h sc q crc layers endAt s) := by
  have told := frameTold_witness hh h sc q crc layers (WitnessKept.refl false h s)
  obtain ⟨x, none, -, kept⟩ := frameClosed_closes hh endAt (frameTold h sc q crc layers s)
  have gone : (headAt (setHead h x (frameTold h sc q crc layers s)) h).scan = Option.none := by rw [headAt_setHead_same, none]
  have closed : FrameEnded h s (frameClosed h endAt (frameTold h sc q crc layers s)) :=
    FrameEnded.andThen (b := setHead h x (frameTold h sc q crc layers s))
      ⟨fun off ho hs => told.regs off ho fun _ => hs, told.wide, gone, told.elapsed, fun stuck => told.stuck stuck⟩ kept
  unfold frameLeft frameRetimed
  split
  · have retimed := retimeHead_witness hh hh (own := true) (.inl rfl) (.inr closed.scan) (WitnessKept.refl true h _)
    exact ⟨fun off ho hs => (retimed.regs off ho fun _ => hs).trans (closed.regs off ho hs), retimed.wide.trans closed.wide,
      retimed.scan.trans closed.scan, retimed.elapsed.trans closed.elapsed,
      fun stuck => retimeHead_stuck hh closed.scan (closed.stuck stuck)⟩
  · exact closed

end Sys2Proof.Machine
end

section
/-!
PROOFS. The end of a frame under the witness, and HEAD_STUCK (R94 to R99, R102, R308): the two commands.
-/

namespace Sys2Proof.Machine

variable {a b s : State} {h k : Nat} {sc : Scan}

/-! ## The witness (R96 to R98) -/

/-- A frame in scan of a head counts in its witness. -/
def frameWitnessed (k : Nat) (s : State) : State :=
  match (headAt s k).scan with
  | some q => witnessFrame k q s
  | none => s

theorem frameWitnessed_rest (k : Nat) (s : State) : frameWitnessed k s = { s with heads := (frameWitnessed k s).heads } := by
  unfold frameWitnessed
  split
  · rfl
  · rfl

theorem frameWitnessed_witness (k : Nat) (s : State) : WitnessKept false h s (frameWitnessed k s) := by
  unfold frameWitnessed
  split
  · exact (WitnessKept.refl false h s).setHead rfl (.inr rfl)
  · exact WitnessKept.refl false h s

theorem headAt_frameWitnessed_other (other : k ≠ h) (s : State) : headAt (frameWitnessed k s) h = headAt s h := by
  unfold frameWitnessed
  split
  · exact (headAt_setHead k _ s h).trans (if_neg (Ne.symm other))
  · rfl

theorem eachHead_frameWitnessed_rest (l : List Nat) (s : State) :
    eachHead l frameWitnessed s = { s with heads := (eachHead l frameWitnessed s).heads } := by
  induction l generalizing s with
  | nil => rfl
  | cons k l ih =>
    show eachHead l frameWitnessed (frameWitnessed k s) = { s with heads := (eachHead l frameWitnessed (frameWitnessed k s)).heads }
    rw [ih (frameWitnessed k s), frameWitnessed_rest]

theorem headAt_eachHead_frameWitnessed (l : List Nat) (others : ∀ k ∈ l, k ≠ h) (s : State) :
    headAt (eachHead l frameWitnessed s) h = headAt s h := by
  induction l generalizing s with
  | nil => rfl
  | cons k l ih => exact (ih (fun j hj => others j (.tail _ hj)) _).trans (headAt_frameWitnessed_other (others k (.head _)) s)

/-- QLIVE rests on the registers that the frame is composed from, and so on the head and the registers alone. -/
theorem frameQlive_scene_congr (head : headAt b h = headAt a h) (regs : b.regs = a.regs) (sc : Scan) :
    frameQlive (scene b h) h sc = frameQlive (scene a h) h sc := by
  have same : (scene b h).regs = (scene a h).regs := by
    rw [scene, scene, head]
    cases (headAt a h).scan.bind Scan.view with
    | none => exact regs
    | some v => rfl
  have shown : ∀ off, rd (scene b h) off = rd (scene a h) off := fun off => by rw [rd, same, rd]
  refine congrArg (sc.uncertainFrom.isNone && (List.range 16).any ·) (funext fun l => ?_)
  rw [layerClass, layerCovered, fld_of_rd_eq (shown _), flag_of_rd_eq (shown _), ← layerClass, ← layerCovered]

/-- A QLIVE frame that repeats the picture before it lengthens the head's run. -/
theorem run_frameWitnessed (scan : (headAt s h).scan = some sc) (qlive : frameQlive (scene s h) h sc = true)
    (repeats : (headAt s h).lastCrc = some (frameCrc sc)) : (headAt (frameWitnessed h s) h).run = (headAt s h).run + 1 := by
  unfold frameWitnessed witnessFrame
  rw [scan]
  dsimp only
  rw [headAt_setHead_same, qlive]
  exact if_pos repeats

theorem run_eachHead_frameWitnessed (group g : State) (scan : (headAt g h).scan = some sc)
    (qlive : frameQlive (scene g h) h sc = true) (repeats : (headAt g h).lastCrc = some (frameCrc sc)) :
    (headAt (eachHead (headGroup group h) frameWitnessed g) h).run = (headAt g h).run + 1 := by
  obtain ⟨pre, post, split, others⟩ := headGroup_split group h
  have before := headAt_eachHead_frameWitnessed pre (fun k hk => (others k (List.mem_append_left _ hk)).1) g
  have regs : (eachHead pre frameWitnessed g).regs = g.regs := by rw [eachHead_frameWitnessed_rest]
  rw [split, eachHead_split, headAt_eachHead_frameWitnessed post fun k hk => (others k (List.mem_append_right _ hk)).1,
    run_frameWitnessed (before ▸ scan) ((frameQlive_scene_congr before regs sc).trans qlive) (before ▸ repeats), before]

/-! ## The heads that act together -/

/-- What the part of every head of a list leaves of a head, the parts of all of them leave. -/
theorem eachHead_witness {f : Nat → State → State} {own : Bool} (l : List Nat) (s : State)
    (kept : ∀ k ∈ l, ∀ t, WitnessKept own h a t → WitnessKept own h a (f k t)) (w : WitnessKept own h a s) :
    WitnessKept own h a (eachHead l f s) :=
  w.foldlMem l fun t k hk ht => kept k hk t ht

/-- The head's own part comes between those of the others. -/
theorem eachHead_headGroup (hh : h < 24) (f : Nat → State → State)
    (other : ∀ k, k < 24 → k ≠ h → ∀ t, WitnessKept false h t (f k t)) (group s : State) :
    ∃ u, WitnessKept false h s u ∧ WitnessKept false h (f h u) (eachHead (headGroup group h) f s) := by
  obtain ⟨pre, post, split, others⟩ := headGroup_split group h
  have aside : ∀ l : List Nat, (∀ k ∈ l, k ∈ pre ++ post) → ∀ t, WitnessKept false h t (eachHead l f t) := fun l sub t =>
    eachHead_witness l t (fun k hk u hu => hu.trans (other k (by have := (others k (sub k hk)).2; omega) (others k (sub k hk)).1 u))
      (WitnessKept.refl false h t)
  rw [split]
  exact ⟨eachHead pre f s, aside pre (fun k hk => List.mem_append_left _ hk) s,
    by rw [eachHead_split]; exact aside post (fun k hk => List.mem_append_right _ hk) _⟩

/-! ## HEAD_STUCK (R97, R98) -/

/-- A head that is declared stuck, before HEADOK follows. -/
def stuckDeclared (cause h : Nat) (s : State) : State :=
  let s := setHead h { headAt s h with restart := 1 } s
  let s := setFlag (setFlag s (R.WIN_LT_STATUS h) 1 true) (R.WIN_LT_STATUS h) 2 true
  if cause = 1 then setFlag s (R.WIN_LT_STATUS h) 3 true else s

theorem headStuck_eq (cause h : Nat) (s : State) :
    headStuck cause h s = raise { code := 0x26, unit := h, sub := cause } (headokUpdate h (stuckDeclared cause h s)) := rfl

theorem headAt_stuckDeclared (cause h : Nat) (s : State) : (headAt (stuckDeclared cause h s) h).restart = 1 := by
  have declared : (headAt (setHead h { headAt s h with restart := 1 } s) h).restart = 1 := by rw [headAt_setHead_same]
  unfold stuckDeclared
  dsimp only
  split
  · exact declared
  · exact declared

theorem flag_stuckDeclared (cause h : Nat) (s : State) : flag (stuckDeclared cause h s) (R.WIN_LT_STATUS h) 1 = true := by
  have set : ∀ t, flag (setFlag (setFlag t (R.WIN_LT_STATUS h) 1 true) (R.WIN_LT_STATUS h) 2 true) (R.WIN_LT_STATUS h) 1 = true :=
    fun t => (flag_setFlag_below _ _ true (by decide) (by decide)).trans (flag_setFlag_same _ _ _ _ (by decide))
  unfold stuckDeclared
  dsimp only
  split
  · exact (flag_setFlag_below _ _ true (by decide) (by decide)).trans (set _)
  · exact set _

/-- NO_FRAME is shown beside STUCK. -/
theorem flag_stuckDeclared_noFrame (h : Nat) (s : State) : flag (stuckDeclared 1 h s) (R.WIN_LT_STATUS h) 3 = true :=
  flag_setFlag_same _ _ _ _ (by decide)

theorem headStuck_kept (hh : h < 24) (cause : Nat) (s : State) :
    WitnessKept false h (setFlag (stuckDeclared cause h s) (R.WIN_LT_STATUS h) 0 false) (headStuck cause h s) := by
  rw [headStuck_eq, headokUpdate_low (headokRule_restart (headAt_stuckDeclared cause h s))]
  exact (WitnessKept.refl false h _).raise hh _ (by decide : (0x26 : Nat) < 256)

theorem headStuck_stuck (hh : h < 24) (cause : Nat) (s : State) :
    (headAt (headStuck cause h s) h).restart = 1 ∧ StuckShown h (headStuck cause h s) := by
  have kept := headStuck_kept hh cause s
  refine ⟨(kept.restart rfl).trans (headAt_stuckDeclared cause h s), kept.stuck ⟨?_, flag_setFlag_same _ _ _ _ (by decide)⟩⟩
  exact (flag_setFld_above _ _ _ le_rfl (by decide) (by decide)).trans (flag_stuckDeclared cause h s)

/-- The heads of a group are declared stuck. -/
theorem eachHead_headStuck (hh : h < 24) (cause : Nat) (group s : State) :
    (headAt (eachHead (headGroup group h) (headStuck cause) s) h).restart = 1 ∧
      StuckShown h (eachHead (headGroup group h) (headStuck cause) s) ∧
      (cause = 1 → flag (eachHead (headGroup group h) (headStuck cause) s) (R.WIN_LT_STATUS h) 3 = true) := by
  obtain ⟨u, -, after⟩ := eachHead_headGroup hh (headStuck cause)
    (fun k hk other t => headStuck_witness hh cause hk (.inr other) (WitnessKept.refl false h t)) group s
  obtain ⟨restart, stuck⟩ := headStuck_stuck hh cause u
  refine ⟨(after.restart rfl).trans restart, after.stuck stuck, ?_⟩
  rintro rfl
  rw [flag_of_rd_eq (after.lintel (lintelReg_status h)), flag_of_rd_eq ((headStuck_kept hh 1 u).lintel (lintelReg_status h))]
  exact (flag_setFld_above _ _ _ le_rfl (by decide) (by decide)).trans (flag_stuckDeclared_noFrame h u)

theorem eachHead_headStuck_witness (hh : h < 24) (cause : Nat) (group s : State) :
    WitnessKept true h s (eachHead (headGroup group h) (headStuck cause) s) := by
  refine eachHead_witness _ s (fun k hk t ht => headStuck_witness hh cause ?_ (.inl rfl) ht) (WitnessKept.refl true h s)
  obtain ⟨pre, post, split, others⟩ := headGroup_split group h
  rw [split, List.mem_append, List.mem_cons] at hk
  rcases hk with hk | rfl | hk
  · have := (others k (List.mem_append_left _ hk)).2
    omega
  · exact hh
  · have := (others k (List.mem_append_right _ hk)).2
    omega

theorem exec_headStuckNoFrame {h : Fin 24} (run : running s = true) (on : unitState s 1 h.val = 2)
    (calm : (headAt s h.val).restart = 0) : ∃ group, exec (.headStuckNoFrame h) s = .next (eachHead (headGroup group h.val)
      (headStuck 1) (waitElapsed ((headAt s h.val).frameAt + 2 * tickNum s * nsUnit / tickDen s) s)) := by
  refine ⟨waitElapsed ((headAt s h.val).frameAt + 2 * tickNum s * nsUnit / tickDen s) s, ?_⟩
  show execHeadStuckNoFrame h s = _
  rw [execHeadStuckNoFrame, live_running run]
  exact congrArg Host.Outcome.next (if_neg (by rw [on, calm]; decide))

theorem headStuckNoFrame_declares {h : Fin 24} (run : running s = true) (on : unitState s 1 h.val = 2)
    (calm : (headAt s h.val).restart = 0) : ∃ t, exec (.headStuckNoFrame h) s = .next t ∧
      (headAt t h.val).restart = 1 ∧ flag t (R.WIN_LT_STATUS h.val) 0 = false ∧ flag t (R.WIN_LT_STATUS h.val) 1 = true ∧
      flag t (R.WIN_LT_STATUS h.val) 3 = true ∧
      (0 < inc s → (headAt s h.val).frameAt + 2 * tickNum s * nsUnit / tickDen s ≤ t.elapsed) := by
  obtain ⟨group, eq⟩ := exec_headStuckNoFrame run on calm
  obtain ⟨restart, ⟨stuck, low⟩, noFrame⟩ := eachHead_headStuck h.isLt 1 group
    (waitElapsed ((headAt s h.val).frameAt + 2 * tickNum s * nsUnit / tickDen s) s)
  refine ⟨_, eq, restart, low, stuck, noFrame rfl, fun moves => ?_⟩
  rw [(eachHead_headStuck_witness h.isLt 1 group _).elapsed]
  exact le_elapsed_waitElapsed moves

/-! ## The end of a frame (R94, R95, R102, R308) -/

/-- Lintel's part before HEADOK and the TRAILER follow: a head whose run has reached WITNESS_N is stuck (R97). -/
def groupStuck (hs : List Nat) (s : State) : Bool :=
  hs.any (fun k => decide (unitState s 1 k = 2 ∧ (headAt s k).restart = 0 ∧ witnessN s ≤ (headAt s k).run))
def frameJudged (hs : List Nat) (s : State) : State :=
  if groupStuck hs (eachHead hs frameWitnessed s) then eachHead hs (headStuck 0) (eachHead hs frameWitnessed s)
  else eachHead hs frameWitnessed s

theorem exec_frameComplete {h : Fin 24} (run : running s = true) (scan : (headAt s h.val).scan = some sc)
    (ended : frameOver s h.val sc = true)
    (all : (headGroup s h.val).all (fun k => (headAt s k).scan.all (frameOver s k)) = true) :
    exec (.frameComplete h) s =
      .next (eachHead (headGroup s h.val) frameEnd (frameJudged (headGroup s h.val) (waitElapsed sc.lastPix s))) := by
  show execFrameComplete h s = _
  rw [execFrameComplete, live_running run, scan]
  exact congrArg Host.Outcome.next (if_neg (by rw [ended, all]; decide))

theorem frameJudged_witness (hh : h < 24) (group s : State) :
    WitnessKept true h s (frameJudged (headGroup group h) s) := by
  have witnessed : WitnessKept true h s (eachHead (headGroup group h) frameWitnessed s) :=
    eachHead_witness _ s (fun k _ t ht => ht.trans (frameWitnessed_witness k t).mono) (WitnessKept.refl true h s)
  exact (witnessed.trans (eachHead_headStuck_witness hh 0 group _)).ite witnessed

theorem self_mem_headGroup (s : State) (h : Nat) : h ∈ headGroup s h := by
  obtain ⟨pre, post, split, -⟩ := headGroup_split s h
  rw [split]
  exact List.mem_append_right _ (.head _)

/-- A RUNNING head that repeats a QLIVE picture for the WITNESS_N-th frame is declared stuck. -/
theorem frameJudged_stuck (hh : h < 24) (group : State) {g : State} (scan : (headAt g h).scan = some sc) (on : unitState g 1 h = 2)
    (calm : (headAt g h).restart = 0) (qlive : frameQlive (scene g h) h sc = true)
    (repeats : (headAt g h).lastCrc = some (frameCrc sc)) (long : witnessN g ≤ (headAt g h).run + 1) :
    (headAt (frameJudged (headGroup group h) g) h).restart = 1 ∧ StuckShown h (frameJudged (headGroup group h) g) := by
  have rest := eachHead_frameWitnessed_rest (headGroup group h) g
  have kept : WitnessKept false h g (eachHead (headGroup group h) frameWitnessed g) :=
    eachHead_witness _ g (fun k _ t ht => ht.trans (frameWitnessed_witness k t)) (WitnessKept.refl false h g)
  have running : unitState (eachHead (headGroup group h) frameWitnessed g) 1 h = 2 := by rw [rest]; exact on
  have limit : witnessN (eachHead (headGroup group h) frameWitnessed g) = witnessN g := by rw [rest]; rfl
  have stuck : groupStuck (headGroup group h) (eachHead (headGroup group h) frameWitnessed g) = true := by
    refine List.any_eq_true.2 ⟨h, self_mem_headGroup group h, decide_eq_true ⟨running, (kept.restart rfl).trans calm, ?_⟩⟩
    rw [limit, run_eachHead_frameWitnessed group g scan qlive repeats]
    exact long
  obtain ⟨restart, shown, -⟩ := eachHead_headStuck hh 0 group (eachHead (headGroup group h) frameWitnessed g)
  rw [frameJudged, if_pos stuck]
  exact ⟨restart, shown⟩

/-- What the end of a head's own frame shows. -/
structure FrameShown (h : Nat) (sc : Scan) (a b : State) : Prop where
  scan : (headAt b h).scan = none
  count : rd b (R.HEAD_FRAMES h) = (rd a (R.HEAD_FRAMES h) + 1) % 2 ^ 32
  last : rd b (R.WIN_LT_LAST_N h) = sc.n % 2 ^ 32
  crc : rd b (R.WIN_LT_HIST_CRC h 0) = frameCrc sc % 2 ^ 32
  wide : wideGet b (R.HEAD_LAST_N_LO h) = sc.n
  elapsed : b.elapsed = a.elapsed

theorem witnessReg_history {off : Nat} (ho : historyReg h off = true) : witnessReg h off = true ∧ off ≠ R.WIN_LT_STATUS h := by
  rw [historyReg, decide_eq_true_iff] at ho
  rw [witnessReg, decide_eq_true_iff, R.WIN_LT_STATUS]
  omega

theorem historyReg_last (h : Nat) : historyReg h (R.WIN_LT_LAST_N h) = true := by
  rw [historyReg, decide_eq_true_iff, R.WIN_LT_LAST_N]
  omega

theorem count_ne_status (h : Nat) (hh : h < 24) : R.HEAD_FRAMES h ≠ R.WIN_LT_STATUS h := by
  rw [R.HEAD_FRAMES, R.WIN_LT_STATUS]
  omega

theorem frameEnd_shows (hh : h < 24) (scan : (headAt s h).scan = some sc) : FrameShown h sc s (frameEnd h s) := by
  obtain ⟨flags, layers, endAt, eq⟩ := frameEnd_eq scan
  obtain ⟨number, crc⟩ := cutLate_fields sc s h
  generalize sc.cutLate s h = x at eq number crc
  have count : witnessReg h (R.HEAD_FRAMES h) = true := decide_eq_true (.inr rfl)
  have health : WitnessKept true h s (headokUpdate h s) := headokUpdate_witness hh hh (.inl rfl) (WitnessKept.refl true h s)
  have lintel := lintelShown_onlyRegs h x.n (frameCrc x) flags layers (headokUpdate h s)
  have ended := frameLeft_ended hh x (scene s h) (frameCrc x) layers endAt
    (headShown h x (lintelShown h x.n (frameCrc x) flags layers (headokUpdate h s)))
  have history : ∀ off, historyReg h off = true →
      rd (frameEnd h s) off = rd (lintelShift h x.n (frameCrc x) flags (headokUpdate h s)) off := fun off ho => by
    obtain ⟨shows, other⟩ := witnessReg_history ho
    have low : off < 0x300000 := by
      rw [historyReg, decide_eq_true_iff] at ho
      omega
    rw [eq, ended.regs off shows other, rd_headShown_low _ _ _ low, rd_lintelShown _ _ _ _ _ ho]
  refine ⟨by rw [eq]; exact ended.scan, ?_, ?_, ?_, ?_, ?_⟩
  · rw [eq, ended.regs _ count (count_ne_status h hh), rd_headShown_count, lintel.regs,
      health.regs _ count fun _ => count_ne_status h hh]
    rw [lintelReg, decide_eq_false_iff_not, R.HEAD_FRAMES]
    omega
  · rw [history _ (historyReg_last h), rd_lintelShift_last, number]
  · rw [history _ (historyReg_crc h (by decide)), rd_lintelShift_crc, crc]
  · rw [eq, ended.wide, wideGet_headShown, number]
  · have shown : (headShown h x (lintelShown h x.n (frameCrc x) flags layers (headokUpdate h s))).elapsed =
        (headokUpdate h s).elapsed := by
      rw [lintel.rest]
      rfl
    rw [eq, ended.elapsed, shown, health.elapsed]

/-- In its witness restart a head's frame ends with STUCK set and HEADOK low. -/
theorem frameEnd_stuck (hh : h < 24) (scan : (headAt s h).scan = some sc) (restart : (headAt s h).restart = 1)
    (stuck : StuckShown h s) : StuckShown h (frameEnd h s) := by
  obtain ⟨flags, layers, endAt, eq⟩ := frameEnd_eq scan
  have low := headokUpdate_stuck (headokRule_restart restart) stuck.1
  rw [eq]
  refine (frameLeft_ended hh _ _ _ _ _ _).stuck (StuckShown.of_rd ?_ (rd_headShown_low _ _ _ ?_))
  · exact ⟨(flag_lintelShown _ _ _ _ _ (by decide)).trans low.1, (flag_lintelShown _ _ _ _ _ (by decide)).trans low.2⟩
  · rw [R.WIN_LT_STATUS]
    omega

theorem frameComplete_ends {h : Fin 24} (run : running s = true) (scan : (headAt s h.val).scan = some sc)
    (ended : frameOver s h.val sc = true)
    (all : (headGroup s h.val).all (fun k => (headAt s k).scan.all (frameOver s k)) = true) :
    ∃ t, exec (.frameComplete h) s = .next t ∧ FrameShown h.val sc (waitElapsed sc.lastPix s) t ∧
      (unitState s 1 h.val = 2 → (headAt s h.val).restart = 0 → frameQlive (scene s h.val) h.val sc = true →
        (headAt s h.val).lastCrc = some (frameCrc sc) → witnessN s ≤ (headAt s h.val).run + 1 → StuckShown h.val t) := by
  have hh := h.isLt
  generalize waits : waitElapsed sc.lastPix s = g
  have head : headAt g h.val = headAt s h.val := by rw [← waits, headAt_waitElapsed]
  have regs : g.regs = s.regs := by rw [← waits, waitElapsed_rest]
  have latched : g.latched = s.latched := by rw [← waits, waitElapsed_rest]
  have judged := frameJudged_witness hh s g
  obtain ⟨u, before, after⟩ := eachHead_headGroup hh frameEnd
    (fun k hk other t => frameEnd_witness hh hk other (WitnessKept.refl false h.val t)) s (frameJudged (headGroup s h.val) g)
  have there : (headAt u h.val).scan = some sc := by rw [before.scan, judged.scan, head, scan]
  have shows := frameEnd_shows hh there
  have count : witnessReg h.val (R.HEAD_FRAMES h.val) = true := decide_eq_true (.inr rfl)
  have seen : ∀ {off : Nat}, historyReg h.val off = true → _ := fun {off} ho =>
    after.regs off (witnessReg_history ho).1 fun _ => (witnessReg_history ho).2
  refine ⟨_, (exec_frameComplete run scan ended all).trans (by rw [waits]), ⟨after.scan.trans shows.scan, ?_,
    (seen (historyReg_last _)).trans shows.last, (seen (historyReg_crc _ (by decide))).trans shows.crc, after.wide.trans shows.wide,
    after.elapsed.trans (shows.elapsed.trans (before.elapsed.trans judged.elapsed))⟩, fun on calm qlive repeats long => ?_⟩
  · rw [after.regs _ count fun _ => count_ne_status _ hh, shows.count, before.regs _ count fun _ => count_ne_status _ hh,
      judged.regs _ count fun _ => count_ne_status _ hh]
  · have limit : witnessN g = witnessN s := by rw [witnessN, witnessN, lfld, lfld, lrd, lrd, latched]
    have runs : unitState g 1 h.val = 2 := by rw [← on, unitState, unitState, fld, fld, rd, rd, regs]
    obtain ⟨restart, stuck⟩ := frameJudged_stuck hh s (g := g) (by rw [head, scan]) runs (by rw [head, calm])
      (by rw [frameQlive_scene_congr head regs, qlive]) (by rw [head, repeats]) (by rw [limit, head]; exact long)
    exact after.stuck (frameEnd_stuck hh there ((before.restart rfl).trans restart) (before.stuck stuck))

end Sys2Proof.Machine
end

section
/-!
PROOFS. The completion of a writeback frame (R294, R296, R310, R328) and touches of host layers (R275); with the end of a frame
and HEAD_STUCK these settle O50.
-/

namespace Sys2Proof.Machine

variable {a b s : State} {h k : Nat}

/-! ## What the sessions that follow a head leave of its buffers (R325 to R328) -/

/-- Two states that differ at most in what the sessions that follow a frame go on with: registers but their counts of skipped
frames, and writeback buffers but for the sessions that hold them. -/
structure FollowKept (a b : State) : Prop where
  regs : ∀ off, (∀ n < 16, off ≠ R.VEN_SKIPPED_LATE n) → rd b off = rd a off
  buffer : ∀ h k, wbAt b h k = { wbAt a h k with held := (wbAt b h k).held }
  pending : ∀ h, (headAt b h).wbPending = (headAt a h).wbPending

theorem FollowKept.refl (s : State) : FollowKept s s := ⟨fun _ _ => rfl, fun _ _ => rfl, fun _ => rfl⟩

theorem FollowKept.trans {c : State} (v : FollowKept a b) (w : FollowKept b c) : FollowKept a c := by
  refine ⟨fun off ho => (w.regs off ho).trans (v.regs off ho), fun h k => ?_, fun h => (w.pending h).trans (v.pending h)⟩
  rw [w.buffer h k, v.buffer h k]

theorem FollowKept.ite {x y : State} {c : Prop} [Decidable c] (hx : FollowKept a x) (hy : FollowKept a y) :
    FollowKept a (if c then x else y) := by
  split
  · exact hx
  · exact hy

theorem FollowKept.foldlMem {β : Type} {f : State → β → State} (l : List β) (w : FollowKept a s)
    (hf : ∀ t x, x ∈ l → FollowKept a t → FollowKept a (f t x)) : FollowKept a (l.foldl f s) := by
  induction l generalizing s with
  | nil => exact w
  | cons x l ih => exact ih (hf s x (.head _) w) fun t y hy => hf t y (.tail _ hy)

theorem FollowKept.of_heads (regs : b.regs = a.regs) (heads : b.heads = a.heads) : FollowKept a b := by
  have head : ∀ h, headAt b h = headAt a h := headAt_of_heads_eq heads
  exact ⟨fun off _ => by rw [rd, regs, rd], fun h k => by rw [wbAt, wbAt, head], fun h => by rw [head]⟩

theorem wbAt_setWb (h k : Nat) (x : WbBuf) (s : State) (i j : Nat) :
    wbAt (setWb h k x s) i j = if i = h ∧ j = k then x else wbAt s i j := by
  rw [wbAt, setWb, headAt_setHead]
  by_cases same : i = h
  · subst same
    rw [if_pos rfl, smGet_smSet]
    simp only [true_and]
    rfl
  · rw [if_neg same, if_neg fun both => same both.1, wbAt]

theorem wbPending_setWb (h k : Nat) (x : WbBuf) (s : State) (i : Nat) :
    (headAt (setWb h k x s) i).wbPending = (headAt s i).wbPending := by
  rw [setWb, headAt_setHead]
  split
  · next e => rw [e]
  · rfl

/-- A session lets go of a frame. -/
theorem encReleaseOpt_follow (f : Option Sealed) (w : FollowKept a s) : FollowKept a (encReleaseOpt f s) := by
  cases f with
  | none => exact w
  | some f =>
    have slot : FollowKept a (updSlot f.unit f.slot (fun x => { x with enc := x.enc - 1 }) s) := w.trans (.of_heads rfl rfl)
    refine slot.ite (c := f.kind = 0) (w.trans ⟨fun _ _ => rfl, fun h k => ?_, wbPending_setWb f.unit f.slot _ s⟩)
    rw [wbAt_setWb]
    split
    · next e => rw [e.1, e.2]
    · rfl

theorem encFollowStart_follow {n : Nat} (hn : n < 16) (cut : Bool) (w : FollowKept a s) :
    FollowKept a (encFollowStart n cut s) := by
  unfold encFollowStart
  dsimp only
  split
  · exact w
  · next i _ =>
    have skipped : FollowKept a (addReg (setEnc n { encAt s n with next := none } s) (R.VEN_SKIPPED_LATE n) 1) :=
      w.trans ⟨fun off ho => rd_wr_other _ _ (ho n hn), fun _ _ => rfl, fun _ => rfl⟩
    exact (encReleaseOpt_follow _ skipped).ite (w.trans (.of_heads rfl rfl))

theorem encLine_follow (h m upto : Nat) (w : FollowKept a s) : FollowKept a (encLine h m upto s) :=
  w.foldlMem _ fun _ _ hn ht => (encFollowStart_follow (encFollowers_lt hn) false ht).ite ht

theorem encWbFailed_follow (h m : Nat) (w : FollowKept a s) : FollowKept a (encWbFailed h m s) := by
  have begun := w.foldlMem (encFollowers s h m) fun t n hn ht =>
    (encFollowStart_follow (encFollowers_lt hn) true ht).ite (c := (encAt t n).next.any (fun i => i.held.isSome) = true) ht
  refine begun.foldlMem _ fun t n _ ht => ?_
  dsimp only
  split
  · next p _ =>
    have coded : FollowKept a (setEnc n { encAt t n with pic := some { p with cut := true, floorAll := true } } t) :=
      ht.trans (.of_heads rfl rfl)
    exact coded.ite ht
  · exact ht

/-! ## WRITEBACK_COMPLETE (R294, R296, R310) -/

/-- No buffer is retained. -/
def noneKept (m : SMap WbBuf) : SMap WbBuf := m.foldl (fun m q => smSet (fun _ => {}) m q.1 { q.2 with kept := false }) m

theorem kept_foldl_cleared (j : Nat) (l m : SMap WbBuf) (cleared : (smGet (fun _ => {}) m j).kept = false ∨ ∃ q ∈ l, q.1 = j) :
    (smGet (fun _ => {}) (l.foldl (fun m q => smSet (fun _ => {}) m q.1 { q.2 with kept := false }) m) j).kept = false := by
  induction l generalizing m with
  | nil => exact cleared.resolve_right fun ⟨q, hq, _⟩ => List.not_mem_nil hq
  | cons p l ih =>
    refine ih _ ?_
    rw [smGet_smSet]
    split
    · exact .inl rfl
    · next apart =>
      refine cleared.imp id fun ⟨q, hq, e⟩ => ⟨q, (List.mem_cons.1 hq).resolve_left ?_, e⟩
      rintro rfl
      exact apart e.symm

/-- A listed key is a member, and another reads as the default. -/
theorem smGet_default_or_mem {α : Type} (d : Nat → α) (m : SMap α) (j : Nat) : smGet d m j = d j ∨ ∃ q ∈ m, q.1 = j := by
  induction m with
  | nil => exact .inl rfl
  | cons p m ih =>
    by_cases e : j = p.1
    · exact .inr ⟨p, .head _, e.symm⟩
    · refine ih.imp (fun absent => (if_neg e).trans absent) fun ⟨q, hq, he⟩ => ⟨q, .tail _ hq, he⟩

theorem kept_noneKept (m : SMap WbBuf) (j : Nat) : (smGet (fun _ => {}) (noneKept m) j).kept = false :=
  kept_foldl_cleared j m m ((smGet_default_or_mem _ m j).imp (fun absent => by rw [absent]) id)

/-- The buffer of a frame whose last write is acknowledged. -/
def wbAcked (keep : Bool) (f : WbFrame) (now : Nat) (b : WbBuf) : WbBuf :=
  { b with writing := false, acked := b.lines, kept := keep, frame := if keep then some { f with done := now } else none }

/-- A head's buffers with the frame in buffer k in the place of the retained one, or its buffer FREE. -/
def wbsTaken (x : Head) (k : Nat) (b : WbBuf) : SMap WbBuf :=
  smSet (fun _ => {}) (if wbKeeps x then noneKept x.wbs else x.wbs) k b
def wbTaken (h k : Nat) (f : WbFrame) (s : State) : State :=
  let x := headAt s h
  setHead h { x with wbs := wbsTaken x k (wbAcked (wbKeeps x) f s.clock (wbAt s h k)) } s

theorem wbComplete_eq (h k : Nat) (f : WbFrame) (s : State) : wbComplete h k f s =
    if (wbAt s h k).lines < (wbAt s h k).height then encWbFailed h f.n (encLine h f.n (wbAt s h k).lines (wbTaken h k f s))
    else encLine h f.n (wbAt s h k).lines (wbTaken h k f s) := rfl

theorem wbComplete_follow (h k : Nat) (f : WbFrame) (s : State) : FollowKept (wbTaken h k f s) (wbComplete h k f s) := by
  have lines := encLine_follow h f.n (wbAt s h k).lines (FollowKept.refl (wbTaken h k f s))
  rw [wbComplete_eq]
  exact (encWbFailed_follow h f.n lines).ite lines

theorem wbAt_wbTaken (h k : Nat) (f : WbFrame) (s : State) (j : Nat) : wbAt (wbTaken h k f s) h j =
    if j = k then wbAcked (wbKeeps (headAt s h)) f s.clock (wbAt s h k)
    else smGet (fun _ => {}) (if wbKeeps (headAt s h) then noneKept (headAt s h).wbs else (headAt s h).wbs) j := by
  rw [wbAt, wbTaken, headAt_setHead_same, wbsTaken, smGet_smSet]

theorem exec_writebackComplete {h : Fin 24} {k : Nat} {f : WbFrame} {rest : List (Nat × WbFrame)} (run : running s = true)
    (waits : (headAt s h.val).wbPending = (k, f) :: rest) : exec (.writebackComplete h) s =
      .next (wbComplete h.val k f (setHead h.val { headAt s h.val with wbPending := rest } s)) := by
  show execWritebackComplete h s = _
  rw [execWritebackComplete, live_running run, waits]

theorem writebackComplete_completes {h : Fin 24} {k : Nat} {f : WbFrame} {rest : List (Nat × WbFrame)} (run : running s = true)
    (waits : (headAt s h.val).wbPending = (k, f) :: rest) :
    ∃ t, exec (.writebackComplete h) s = .next t ∧ (headAt t h.val).wbPending = rest ∧
      (∀ off, (∀ n < 16, off ≠ R.VEN_SKIPPED_LATE n) → rd t off = rd s off) ∧
      (wbAt t h.val k).writing = false ∧ (wbAt t h.val k).kept = wbKeeps (headAt s h.val) ∧
      (wbAt t h.val k).frame = (if wbKeeps (headAt s h.val) then some { f with done := s.clock } else none) ∧
      (wbKeeps (headAt s h.val) = true → ∀ j, j ≠ k → (wbAt t h.val j).kept = false) ∧
      (wbKeeps (headAt s h.val) = false → ∀ j, j ≠ k → (wbAt t h.val j).kept = (wbAt s h.val j).kept ∧
        (wbAt t h.val j).frame = (wbAt s h.val j).frame ∧ (wbAt t h.val j).writing = (wbAt s h.val j).writing) := by
  have head : headAt (setHead h.val { headAt s h.val with wbPending := rest } s) h.val =
      { headAt s h.val with wbPending := rest } := headAt_setHead_same _ _ _
  have kept := wbComplete_follow h.val k f (setHead h.val { headAt s h.val with wbPending := rest } s)
  have taken := wbAt_wbTaken h.val k f (setHead h.val { headAt s h.val with wbPending := rest } s)
  rw [wbAt, head] at taken
  have own := (kept.buffer h.val k).trans (by rw [taken k, if_pos rfl])
  refine ⟨_, exec_writebackComplete run waits, ?_, fun off ho => kept.regs off ho, by rw [own]; rfl, by rw [own]; rfl,
    by rw [own]; rfl, fun keeps j other => ?_, fun frees j other => ?_⟩
  · rw [kept.pending, wbTaken, headAt_setHead_same, head]
  · rw [kept.buffer, taken j, if_neg other]
    have keeps' : wbKeeps { headAt s h.val with wbPending := rest } = true := keeps
    rw [if_pos keeps']
    exact kept_noneKept _ _
  · have frees' : wbKeeps { headAt s h.val with wbPending := rest } = false := frees
    have same := kept.buffer h.val j
    rw [taken j, if_neg other, frees'] at same
    rw [same]
    exact ⟨rfl, rfl, rfl⟩

/-! ## LAYER_TOUCH (R275) -/

theorem hostStore_layers (m : Cells) (s : State) : (hostStore m s).layers = s.layers := by rw [hostStore_rest]

theorem exec_layerTouch {h : Fin 24} (l : Fin 16) (hm : Cells) (run : running s = true)
    (there : unitPresent s.part .head h.val = true) :
    exec (.layerTouch h l hm) s = .next (touchTake h.val l.val (hostStore hm s)) := by
  show execLayerTouch h l hm s = _
  rw [execLayerTouch, live_running run]
  exact congrArg Host.Outcome.next (if_pos (by rw [hostStore_part, there]))

/-- A touch keeps the local time, once an update, beside that of the touch before it. -/
theorem touchTake_takes (h l : Nat) (s : State) :
    (layerAt (touchTake h l s) (16 * h + l)).touches.head? = some s.clock ∧
      (layerAt (touchTake h l s) (16 * h + l)).touches.tail.head? = (if (layerAt s (16 * h + l)).touches.head? = some s.clock
        then (layerAt s (16 * h + l)).touches.tail.head? else (layerAt s (16 * h + l)).touches.head?) ∧
      (touchTake h l s).regs = s.regs := by
  unfold touchTake
  dsimp only
  split
  · next again => exact ⟨again, rfl, rfl⟩
  · rw [layerAt_setLayer_same]
    refine ⟨rfl, ?_, rfl⟩
    cases (layerAt s (16 * h + l)).touches with
    | nil => rfl
    | cons x xs => rfl

theorem layerTouch_takes {h : Fin 24} (l : Fin 16) (hm : Cells) (run : running s = true)
    (there : unitPresent s.part .head h.val = true) :
    ∃ t, exec (.layerTouch h l hm) s = .next t ∧ (layerAt t (16 * h.val + l.val)).touches.head? = some s.clock ∧
      (layerAt t (16 * h.val + l.val)).touches.tail.head? = (if (layerAt s (16 * h.val + l.val)).touches.head? = some s.clock
        then (layerAt s (16 * h.val + l.val)).touches.tail.head? else (layerAt s (16 * h.val + l.val)).touches.head?) ∧
      t.regs = s.regs := by
  have takes := touchTake_takes h.val l.val (hostStore hm s)
  have layer : layerAt (hostStore hm s) (16 * h.val + l.val) = layerAt s (16 * h.val + l.val) := by
    rw [layerAt, hostStore_layers, layerAt]
  rw [layer, hostStore_clock, hostStore_regs] at takes
  exact ⟨_, exec_layerTouch l hm run there, takes⟩

/-- Settles O50, by the end of a frame, HEAD_STUCK without a frame, the completion of a writeback frame, and a touch. -/
theorem framesEndUnderTheWitness : Obligations.FramesEndUnderTheWitness := by
  refine ⟨fun h s run => ⟨fun sc scan ended all => ?_, headStuckNoFrame_declares run⟩,
    fun h k f rest s run waits => writebackComplete_completes run waits, fun h l hm s run there => layerTouch_takes l hm run there⟩
  obtain ⟨t, eq, shown, stuck⟩ := frameComplete_ends run scan ended all
  refine ⟨t, eq, shown.scan, ?_, shown.last, shown.crc, shown.wide, fun moves => ?_, stuck⟩
  · rw [shown.count, waitElapsed_rest]
    rfl
  · rw [shown.elapsed]
    exact le_elapsed_waitElapsed moves

end Sys2Proof.Machine
end

section
/-!
PROOFS. Every command answers a next state, an idle block lets time pass, and a block that stands still does nothing (R104;
log entries 2 and 3).
-/

namespace Sys2Proof.Machine

variable {s : State}

/-! ## Every command answers -/

/-- The meaning of every command is a next state: `live`, `liveAon`, `livePair`, `liveLcs` or `.next` itself stands at its head. -/
theorem exec_answers (c : Instr) (s : State) : ∃ t, exec c s = .next t := by
  cases c <;> exact ⟨_, rfl⟩

/-! ## An idle block -/

theorem step_idle (idle : s.pending = []) : step s = .next (if aonRunning s then passUpdates 1 s else s) := by
  rw [step, idle]

theorem passUpdates_one (s : State) : passUpdates 1 s =
    { s with clock := s.clock + inc s, elapsed := s.elapsed + inc s, updates := s.updates + 1 } := by
  rw [passUpdates, Nat.one_mul]

/-! ## PORST_n low -/

section porstLow

variable (low : s.porst = true)
include low

theorem powered_of_porst : powered s = false := by rw [powered, low, Bool.not_true, Bool.and_false]

theorem running_of_porst : running s = false := by rw [running, powered_of_porst low, Bool.false_and]

theorem not_powered_of_porst : ¬ powered s = true := Bool.eq_false_iff.1 (powered_of_porst low)

theorem unpowered_of_porst : (!powered s) = true := by rw [powered_of_porst low, Bool.not_false]

/-- What a command asks for beside power makes no difference. -/
theorem not_powered_and_of_porst (also : Bool) : ¬ (powered s && also) = true := by
  rw [powered_of_porst low, Bool.false_and]
  exact Bool.false_ne_true

theorem not_aonRunning_of_porst : ¬ aonRunning s = true := by
  rw [aonRunning, low, Bool.not_true, Bool.and_false]
  exact Bool.false_ne_true

theorem execPcieLinkUp_of_porst (width gen : Fin 16) : execPcieLinkUp width gen s = .next s := by
  rw [execPcieLinkUp, unpowered_of_porst low, Bool.true_or, Bool.true_or, if_pos rfl]

theorem execPowerDown_of_porst : execPowerDown s = .next s := by
  rw [execPowerDown]
  cases s.pwr.downAt with
  | none => rfl
  | some t => exact congrArg Host.Outcome.next (if_neg (not_powered_of_porst low))

/-- While PORST_n is low no command but its own two does anything: the blocks that run while the device is powered stand
still, and each of the others looks at the supply or at PORST_n itself. -/
theorem exec_of_porst (c : Instr) (ha : c ≠ .porstNAssert) (hr : ∀ table g, c ≠ .porstNRelease table g) :
    exec c s = .next s := by
  by_cases needs : needsRunning c = true
  · exact exec_stopped c (running_of_porst low) needs
  cases c
  case porstNAssert => exact absurd rfl ha
  case porstNRelease table g => exact absurd rfl (hr table g)
  case sysrstN => exact congrArg Host.Outcome.next (if_pos low)
  case pciePerstN => exact congrArg Host.Outcome.next (if_pos (unpowered_of_porst low))
  case pcieLinkUp width gen => exact execPcieLinkUp_of_porst low width gen
  case railSequenceStep | keepWake => exact congrArg Host.Outcome.next (if_pos (.inr low))
  case powerDown => exact execPowerDown_of_porst low
  case holdoverTimeout | captureEdge | triggerFire | triggerPulseEnd | trmTimeRead =>
    exact congrArg Host.Outcome.next (if_neg (not_aonRunning_of_porst low))
  case huskVWrite | huskKWrite | huskPendingTimeout | busAccess =>
    exact congrArg Host.Outcome.next (if_neg (not_powered_and_of_porst low _))
  case lcsRequest | lcsRequestDone | debugAuth | registerWrite =>
    exact congrArg Host.Outcome.next (if_neg (not_powered_of_porst low))
  case debugAccess => exact congrArg Host.Outcome.next (if_pos (.inl (unpowered_of_porst low)))
  all_goals exact absurd rfl needs

end porstLow

/-- Settles O2, by what an idle block does, what `running` guards, and what PORST_n holds still. -/
theorem everyStepAnswersNext : Obligations.EveryStepAnswersNext := by
  unfold Obligations.EveryStepAnswersNext
  refine ⟨exec_answers, fun s idle => ⟨fun on => ?_, fun off => ?_⟩, fun c s stands needs => exec_stopped c stands needs,
    fun c s low ha hr => exec_of_porst low c ha hr⟩
  · rw [step_idle idle, if_pos on, passUpdates_one]
  · rw [step_idle idle, off]; rfl

end Sys2Proof.Machine
end

section
/-!
PROOFS. Reads that latch: register pairs, the local time and the bound U (R106, R119), and the counts of a lane's span and far
end (R206, R207), of a flow (R230) and of a channel's readers (R260).
-/

namespace Sys2Proof.Machine

variable {s : State}

/-! ## Register pairs -/

theorem aonRunning_of_running (run : running s = true) : aonRunning s = true := by
  rw [running, powered, Bool.and_eq_true, Bool.and_eq_true, decide_eq_true_eq] at run
  obtain ⟨⟨on, high⟩, -⟩ := run
  rw [aonRunning, on, high]
  rfl

/-- A command to a block of the always-on domain, while that runs. -/
theorem liveAon_running (aon : aonRunning s = true) (f : State → State) : liveAon s f = .next (f s) := by
  rw [liveAon, if_pos aon]

/-- A pair written reads as the low 64 bits of the value. -/
theorem rd64_wr64 (s : State) {lo hi : Nat} (v : Nat) (apart : lo ≠ hi) : rd64 (wr64 s lo hi v) lo hi = v % 2 ^ 64 := by
  rw [rd64, rd_wr64, rd_wr64, if_neg apart, if_pos rfl, if_pos rfl]
  exact (Nat.mod_mul (a := 2 ^ 32) (b := 2 ^ 32)).symm

/-- The read of a lower half, by the command `c`, shows the whole value in the pair and changes nothing else. -/
theorem read_latches {c : Instr} {lo hi : Nat} (meaning : exec c s = .next (wideLatch lo hi s)) (apart : lo ≠ hi) :
    ∃ t, exec c s = .next t ∧ rd64 t lo hi = wideGet s lo % 2 ^ 64 ∧
      OnlyRegs (fun o => decide (o = lo ∨ o = hi)) s t :=
  ⟨_, meaning, rd64_wr64 s _ apart,
    (OnlyRegs.refl s).wr64 lo hi _ (decide_eq_true (.inl rfl)) (decide_eq_true (.inr rfl))⟩

theorem appliedPair_apart (i : Nat) : R.SHF_SLOT_APPLIED_LO i ≠ R.SHF_SLOT_APPLIED_HI i := by
  rw [R.SHF_SLOT_APPLIED_LO, R.SHF_SLOT_APPLIED_HI]; omega
theorem nextPair_apart (i : Nat) : R.VEN_NEXT_N_LO i ≠ R.VEN_NEXT_N_HI i := by
  rw [R.VEN_NEXT_N_LO, R.VEN_NEXT_N_HI]; omega
theorem lastPair_apart (i : Nat) : R.HEAD_LAST_N_LO i ≠ R.HEAD_LAST_N_HI i := by
  rw [R.HEAD_LAST_N_LO, R.HEAD_LAST_N_HI]; omega
theorem firstPair_apart (i : Nat) : R.HEAD_FIRST_N_LO i ≠ R.HEAD_FIRST_N_HI i := by
  rw [R.HEAD_FIRST_N_LO, R.HEAD_FIRST_N_HI]; omega
theorem calTimePair_apart (i : Nat) : R.TRM_TIME_LO i ≠ R.TRM_TIME_HI i := by
  rw [R.TRM_TIME_LO, R.TRM_TIME_HI]; omega

/-! ## The local time and the bound U -/

theorem timeNs_lt (t : Nat) : timeNs t < 2 ^ 32 := by
  have : t % secUnit < secUnit := Nat.mod_lt _ (by decide)
  rw [timeNs, Nat.div_lt_iff_lt_mul (by decide)]
  exact this.trans (by decide)

theorem timeFrac_lt (t : Nat) : timeFrac t < 2 ^ 32 := Nat.mod_lt _ (by decide)

/-- The registers that show the local time, as a read of TIM_NOW_SEC_LO leaves them. -/
def nowShown (s : State) : State :=
  wr (wr (wr64 s R.TIM_NOW_SEC_LO R.TIM_NOW_SEC_HI (timeSec s.clock)) R.TIM_NOW_NS (timeNs s.clock)) R.TIM_NOW_FRAC
    (timeFrac s.clock)

theorem exec_timNowRead (run : running s = true) : exec .timNowRead s = .next (nowShown s) :=
  congrArg Host.Outcome.next (if_pos run)

theorem rd64_nowShown (s : State) :
    rd64 (nowShown s) R.TIM_NOW_SEC_LO R.TIM_NOW_SEC_HI = s.clock / (1000000000 * 2 ^ 32) % 2 ^ 64 := by
  have kept : ∀ off, off ≠ R.TIM_NOW_NS → off ≠ R.TIM_NOW_FRAC →
      rd (nowShown s) off = rd (wr64 s R.TIM_NOW_SEC_LO R.TIM_NOW_SEC_HI (timeSec s.clock)) off := fun off ns frac =>
    (rd_wr_other _ _ frac).trans (rd_wr_other _ _ ns)
  rw [rd64, kept _ (by decide) (by decide), kept _ (by decide) (by decide), ← rd64, rd64_wr64 _ _ (by decide), timeSec, secUnit]

theorem ns_nowShown (s : State) : rd (nowShown s) R.TIM_NOW_NS = s.clock % (1000000000 * 2 ^ 32) / 2 ^ 32 := by
  rw [nowShown, rd_wr_other _ _ (by decide), rd_wr_same_of_lt _ _ (timeNs_lt _), timeNs, secUnit, nsUnit]

theorem frac_nowShown (s : State) : rd (nowShown s) R.TIM_NOW_FRAC = s.clock % 2 ^ 32 := by
  rw [nowShown, rd_wr_same_of_lt _ _ (timeFrac_lt _), timeFrac, nsUnit]

theorem nowShown_onlyRegs (s : State) :
    OnlyRegs (fun o => [R.TIM_NOW_SEC_LO, R.TIM_NOW_SEC_HI, R.TIM_NOW_NS, R.TIM_NOW_FRAC].contains o) s (nowShown s) :=
  (((OnlyRegs.refl s).wr64 _ _ _ (by decide) (by decide)).wr _ _ (by decide)).wr _ _ (by decide)

/-- U is held to 48 bits. -/
theorem uBound_lt (s : State) : uBound s < 2 ^ 64 := by
  unfold uBound
  split
  · decide
  · split <;> exact (Nat.min_le_right _ _).trans_lt (by decide)

theorem timURead_shows (run : running s = true) : ∃ t, exec .timURead s = .next t ∧ rd64 t R.TIM_U_LO R.TIM_U_HI = uBound s ∧
    OnlyRegs (fun o => [R.TIM_U_LO, R.TIM_U_HI].contains o) s t := by
  refine ⟨_, congrArg Host.Outcome.next (if_pos run), ?_, (OnlyRegs.refl s).wr64 _ _ _ (by decide) (by decide)⟩
  rw [rd64_wr64 _ _ (by decide), Nat.mod_eq_of_lt (uBound_lt s)]

/-! ## Groups of counts -/

theorem laneRxSpanRead_shows {n : Fin 32} {p : Span} (run : running s = true) (span : (laneAt s n.val).span = some p) :
    ∃ t, exec (.laneRxSpanRead n) s = .next t ∧ rd t (R.LANE_RX_SEQ_LAST n.val) = p.last % 2 ^ 32 ∧
      rd t (R.LANE_RX_RECEIVED n.val) = p.received % 2 ^ 32 ∧ rd t (R.LANE_RX_LOST n.val) = p.lost % 2 ^ 32 := by
  refine ⟨wr (wr (wr s (R.LANE_RX_SEQ_LAST n.val) p.last) (R.LANE_RX_RECEIVED n.val) p.received) (R.LANE_RX_LOST n.val) p.lost,
    ?_, ?_⟩
  · show execLaneRxSpanRead n s = _
    rw [execLaneRxSpanRead, live_running run, span]
  · simp [rd_wr, R.LANE_RX_SEQ_LAST, R.LANE_RX_RECEIVED, R.LANE_RX_LOST]

theorem laneFarSpanRead_shows (n : Fin 32) (run : running s = true) :
    ∃ t, exec (.laneFarSpanRead n) s = .next t ∧ rd t (R.LANE_FAR_SEQ_LAST n.val) = (laneAt s n.val).far.last % 2 ^ 32 ∧
      rd t (R.LANE_FAR_RECEIVED n.val) = (laneAt s n.val).far.received % 2 ^ 32 ∧
      rd t (R.LANE_FAR_LOST n.val) = (laneAt s n.val).far.lost % 2 ^ 32 := by
  refine ⟨_, congrArg Host.Outcome.next (if_pos run), ?_⟩
  simp [rd_wr, R.LANE_FAR_SEQ_LAST, R.LANE_FAR_RECEIVED, R.LANE_FAR_LOST]

theorem flowCountsRead_shows (f : Fin 1024) (run : running s = true) :
    ∃ t, exec (.flowCountsRead f) s = .next t ∧
      rd t (R.VST_FLOW_ARRIVED_A f.val) = (flowAt s f.val).arrivedA % 2 ^ 32 ∧
      rd t (R.VST_FLOW_ARRIVED_B f.val) = (flowAt s f.val).arrivedB % 2 ^ 32 ∧
      rd t (R.VST_FLOW_USED f.val) = (flowAt s f.val).used % 2 ^ 32 ∧ rd t (R.VST_FLOW_DUP f.val) = (flowAt s f.val).dup % 2 ^ 32 ∧
      rd t (R.VST_FLOW_LATE f.val) = (flowAt s f.val).late % 2 ^ 32 ∧
      rd t (R.VST_FLOW_MALFORMED f.val) = (flowAt s f.val).malformed % 2 ^ 32 ∧
      rd t (R.VST_FLOW_HELD f.val) = (flowAt s f.val).held.length % 2 ^ 32 := by
  refine ⟨_, congrArg Host.Outcome.next (if_pos run), ?_⟩
  simp [rd_wr, R.VST_FLOW_ARRIVED_A, R.VST_FLOW_ARRIVED_B, R.VST_FLOW_USED, R.VST_FLOW_DUP, R.VST_FLOW_LATE,
    R.VST_FLOW_MALFORMED, R.VST_FLOW_HELD]

theorem vdcSlotCountsRead_shows {c : Fin 96} (run : running s = true) (there : unitPresent s.part .src c.val = true) :
    ∃ t, exec (.vdcSlotCountsRead c) s = .next t ∧ rd t (R.VDC_S_READERS c.val) = readerSum s c.val % 2 ^ 32 ∧
      OnlyRegs (fun o => decide (o = R.VDC_S_READERS c.val)) s t :=
  ⟨_, (live_running run _).trans (congrArg Host.Outcome.next (if_pos there)), rd_wr_same _ _ _,
    (OnlyRegs.refl s).wr _ _ (decide_eq_true rfl)⟩

/-- Settles O22: each pair's read is one latch of its whole value, and each group's read writes its registers at once. -/
theorem readsLatchWholeValues : Obligations.ReadsLatchWholeValues := by
  unfold Obligations.ReadsLatchWholeValues
  refine ⟨fun slot n h item s run c lo hi named => ?_, fun s run => ⟨?_, timURead_shows run⟩,
    fun s run => ⟨fun n p => laneRxSpanRead_shows run, fun n => laneFarSpanRead_shows n run, fun f => flowCountsRead_shows f run,
      fun c => vdcSlotCountsRead_shows run⟩⟩
  · simp only [List.mem_cons, Prod.mk.injEq, List.not_mem_nil, or_false] at named
    obtain ⟨rfl, rfl, rfl⟩ | ⟨rfl, rfl, rfl⟩ | ⟨rfl, rfl, rfl⟩ | ⟨rfl, rfl, rfl⟩ | ⟨rfl, rfl, rfl⟩ | ⟨rfl, rfl, rfl⟩ := named
    · exact read_latches (live_running run _) (by decide)
    · exact read_latches (live_running run _) (appliedPair_apart _)
    · exact read_latches (live_running run _) (nextPair_apart _)
    · exact read_latches (live_running run _) (lastPair_apart _)
    · exact read_latches (live_running run _) (firstPair_apart _)
    · exact read_latches (liveAon_running (aonRunning_of_running run) _) (calTimePair_apart _)
  · exact ⟨_, exec_timNowRead run, rd64_nowShown s, ns_nowShown s, frac_nowShown s, nowShown_onlyRegs s⟩

end Sys2Proof.Machine
end

section
/-!
PROOFS. Two's complement patterns of signed values, and values held within bounds (R105, R112, R114).
-/

namespace Sys2Proof.Machine

theorem natCast_two_pow {n : Nat} (pos : 0 < n) : ((2 ^ n : Nat) : Int) = 2 * 2 ^ (n - 1) := by
  rw [mul_pow_sub_one pos.ne', Nat.cast_pow, Nat.cast_ofNat]

/-- A signed value that n bits hold reads back from its pattern. -/
theorem sint_uint {n : Nat} {x : Int} (pos : 0 < n) (low : -2 ^ (n - 1) ≤ x) (high : x < 2 ^ (n - 1)) : sint n (uint n x) = x := by
  have whole := natCast_two_pow pos
  have half : ((2 ^ (n - 1) : Nat) : Int) = 2 ^ (n - 1) := by rw [Nat.cast_pow, Nat.cast_ofNat]
  rw [sint, Nat.mod_eq_of_lt (uint_lt n x)]
  rcases le_or_gt 0 x with h | h
  · have pattern : ((uint n x : Nat) : Int) = x := by
      rw [uint, Int.emod_eq_of_lt h (by omega), Int.toNat_of_nonneg h]
    rw [if_pos (by omega), pattern]
  · have pattern : ((uint n x : Nat) : Int) = x + ((2 ^ n : Nat) : Int) := by
      rw [uint, ← Int.add_emod_right, Int.emod_eq_of_lt (by omega) (by omega), Int.toNat_of_nonneg (by omega)]
    rw [if_neg (by omega), pattern, Int.add_sub_cancel]

/-- The value of an n-bit pattern lies within the bounds of n bits. -/
theorem sint_bounds {n : Nat} (v : Nat) (pos : 0 < n) : -2 ^ (n - 1) ≤ sint n v ∧ sint n v < 2 ^ (n - 1) := by
  have whole := natCast_two_pow pos
  have half : ((2 ^ (n - 1) : Nat) : Int) = 2 ^ (n - 1) := by rw [Nat.cast_pow, Nat.cast_ofNat]
  have within : v % 2 ^ n < 2 ^ n := Nat.mod_lt _ (Nat.two_pow_pos n)
  unfold sint
  split <;> omega

theorem clampInt_eq {lo hi : Int} (v : Int) (h : lo ≤ hi) : clampInt lo hi v = max lo (min hi v) := by
  unfold clampInt
  split
  · omega
  · split <;> omega

/-- A bound on either side of 0 moves a value towards 0 alone. -/
theorem clampInt_within {m v low high : Int} (hm : 0 ≤ m) (hl : low ≤ v) (hh : v < high) (h0 : low ≤ 0) (h1 : 0 < high) :
    low ≤ clampInt (-m) m v ∧ clampInt (-m) m v < high := by
  rw [clampInt_eq v (by omega)]
  omega

end Sys2Proof.Machine
end

section
/-!
PROOFS. The states of the time unit (R118), the servo (R111 to R115), and the writes of FREQ and INC_NOM (R105, R113).
-/

namespace Sys2Proof.Machine

variable {s t : State}

/-! ## The state shown in TIM_STATUS -/

theorem timeState_of_rd_eq (h : rd t R.TIM_STATUS = rd s R.TIM_STATUS) : timeState t = timeState s := fld_of_rd_eq h 1 0

theorem timeState_setFlag (s : State) {i : Nat} (b : Bool) (above : 1 < i) (hi : i < 32) :
    timeState (setFlag s R.TIM_STATUS i b) = timeState s :=
  fld_setFld_below s _ i i _ 1 0 le_rfl hi above (by decide)

theorem timeState_statusNoted (ev : Ev) (hc : ev.code < 256) (s : State) {i : Nat} (b : Bool) (above : 1 < i) (hi : i < 32) :
    timeState (raise ev (setFlag s R.TIM_STATUS i b)) = timeState s :=
  (timeState_of_rd_eq (rd_raise ev hc _ (by decide))).trans (timeState_setFlag s b above hi)

theorem flag_setFlag_above (s : State) (off : Nat) {i j : Nat} (b : Bool) (above : i < j) (hi : i < 32) :
    flag (setFlag s off i b) off j = flag s off j := flag_setFld_above s off _ le_rfl hi above

/-- Both status registers show a state. -/
def stateShown (new : Nat) (s : State) : State := setFld (setFld s R.TIM_STATUS 1 0 new) R.TCK_STATUS 3 2 new

/-- EV_TIME_STATE (R118). -/
def stateEvent (old new : Nat) (s : State) : Ev := { code := 0x36, sub := old * 4 + new, a0 := uBound s, a1 := uBound s / 2 ^ 32 }

theorem setTimeState_eq (new : Nat) (s : State) : setTimeState new s =
    if timeState s = new then s else raise (stateEvent (timeState s) new (stateShown new s)) (stateShown new s) := rfl

theorem rd_stateShown (new : Nat) (s : State) {off : Nat} (hs : off ≠ R.TIM_STATUS) (ht : off ≠ R.TCK_STATUS) :
    rd (stateShown new s) off = rd s off := (rd_setFld_other _ _ _ _ ht).trans (rd_setFld_other _ _ _ _ hs)

theorem status_stateShown (new : Nat) (s : State) :
    rd (stateShown new s) R.TIM_STATUS = rd (setFld s R.TIM_STATUS 1 0 new) R.TIM_STATUS :=
  rd_setFld_other _ _ _ _ (by decide)

/-- A change of state writes the two status registers, and what its event writes. -/
theorem rd_setTimeState (new : Nat) (s : State) {off : Nat} (he : eventReg off = false) (hs : off ≠ R.TIM_STATUS)
    (ht : off ≠ R.TCK_STATUS) : rd (setTimeState new s) off = rd s off := by
  rw [setTimeState_eq]
  split
  · rfl
  · rw [rd_raise _ (show 0x36 < 256 by decide) _ he, rd_stateShown new s hs ht]

theorem timeState_setTimeState {new : Nat} (s : State) (h : new < 4) : timeState (setTimeState new s) = new := by
  rw [setTimeState_eq]
  split
  · assumption
  · rw [timeState_of_rd_eq (rd_raise _ (show 0x36 < 256 by decide) _ (by decide)), timeState_of_rd_eq (status_stateShown new s),
      timeState, fld_setFld_same _ _ _ _ _ (by decide) (by decide)]
    exact Nat.mod_eq_of_lt h

/-- The sticky bits of TIM_STATUS outlast a change of state. -/
theorem flag_setTimeState (new : Nat) (s : State) {i : Nat} (above : 1 < i) :
    flag (setTimeState new s) R.TIM_STATUS i = flag s R.TIM_STATUS i := by
  rw [setTimeState_eq]
  split
  · rfl
  · rw [flag_of_rd_eq (rd_raise _ (show 0x36 < 256 by decide) _ (by decide)), flag_of_rd_eq (status_stateShown new s),
      flag_setFld_above _ _ _ (by decide) (by decide) above]

/-- The clocks and the time unit's state behind its registers are the same. -/
structure ClockKept (a b : State) : Prop where
  clock : b.clock = a.clock
  elapsed : b.elapsed = a.elapsed
  tim : b.tim = a.tim

theorem ClockKept.trans {a b c : State} (h : ClockKept a b) (j : ClockKept b c) : ClockKept a c :=
  ⟨j.clock.trans h.clock, j.elapsed.trans h.elapsed, j.tim.trans h.tim⟩

theorem raise_clockKept (ev : Ev) (hc : ev.code < 256) (s : State) : ClockKept s (raise ev s) :=
  ⟨raise_clock ev hc s, raise_elapsed ev hc s, raise_tim ev hc s⟩

theorem setTimeState_clockKept (new : Nat) (s : State) : ClockKept s (setTimeState new s) := by
  rw [setTimeState_eq]
  split
  · exact ⟨rfl, rfl, rfl⟩
  · have shown : ClockKept s (stateShown new s) := ⟨rfl, rfl, rfl⟩
    exact shown.trans (raise_clockKept (stateEvent _ new _) (show 0x36 < 256 by decide) _)

/-! ## HOLDOVER (R118, R119) -/

/-- FREQ moves to the integral, and the growth of U counts from now, before the state is shown. -/
def holdoverBegun (s : State) : State :=
  { wr s R.TIM_FREQ (uint 32 (clampInt (-fmaxOf s) (fmaxOf s) (clampInt (freqOf s - rd s R.TIM_SLEW) (freqOf s + rd s R.TIM_SLEW)
      (sint 32 (rd s R.TIM_INTEGRAL))))) with tim := { s.tim with holdAt := s.elapsed } }

theorem enterHoldover_eq (s : State) : enterHoldover s = setTimeState 2 (holdoverBegun s) := rfl

theorem rd_holdoverBegun (s : State) {off : Nat} (hf : off ≠ R.TIM_FREQ) : rd (holdoverBegun s) off = rd s off :=
  rd_wr_other s _ hf

/-- The registers that a time unit entering HOLDOVER may change, the event's apart. -/
theorem rd_enterHoldover (s : State) {off : Nat} (he : eventReg off = false) (hs : off ≠ R.TIM_STATUS) (ht : off ≠ R.TCK_STATUS)
    (hf : off ≠ R.TIM_FREQ) : rd (enterHoldover s) off = rd s off :=
  (rd_setTimeState 2 _ he hs ht).trans (rd_holdoverBegun s hf)

theorem timeState_enterHoldover (s : State) : timeState (enterHoldover s) = 2 := timeState_setTimeState _ (by decide)

theorem flag_enterHoldover (s : State) {i : Nat} (above : 1 < i) :
    flag (enterHoldover s) R.TIM_STATUS i = flag s R.TIM_STATUS i :=
  (flag_setTimeState 2 _ above).trans (flag_of_rd_eq (rd_holdoverBegun s (by decide)) i)

theorem enterHoldover_clocks (s : State) : (enterHoldover s).clock = s.clock ∧ (enterHoldover s).elapsed = s.elapsed ∧
    (enterHoldover s).tim.holdAt = s.elapsed := by
  obtain ⟨clock, elapsed, tim⟩ := setTimeState_clockKept 2 (holdoverBegun s)
  rw [enterHoldover_eq, clock, elapsed, tim]
  simp only [holdoverBegun, wr_clock, wr_elapsed, and_self]

/-- HOLD_TIMEOUT after the last accepted sample a LOCKED unit enters HOLDOVER. -/
theorem holdoverTimeout_holds (aon : aonRunning s = true) (locked : timeState s = 1) :
    ∃ t, exec .holdoverTimeout s = .next t ∧ timeState t = 2 ∧ t.tim.holdAt = t.elapsed ∧
      (0 < inc s → s.tim.acceptAt + holdTimeout s ≤ t.elapsed) := by
  obtain ⟨-, elapsed, holdAt⟩ := enterHoldover_clocks (waitElapsed (s.tim.acceptAt + holdTimeout s) s)
  refine ⟨_, (liveAon_running aon _).trans (congrArg Host.Outcome.next (if_pos locked)), timeState_enterHoldover _,
    holdAt.trans elapsed.symm, fun moves => ?_⟩
  rw [elapsed]
  exact le_elapsed_waitElapsed moves

/-! ## The servo's samples (R111) -/

/-- A sample written with GO = 1 while SERVO_EN is 1. -/
theorem exec_servoSample {v : Word} (run : running s = true) (go : bit v.toNat 31 = true) :
    exec (.servoSample v) s = .next (servoSample s) := by
  show execServoSample v s = _
  rw [execServoSample, live_running run, if_pos go]

theorem servoSample_off (off : flag s R.TIM_CTRL 0 = false) : servoSample s = s :=
  if_pos (by rw [off, Bool.not_false])

theorem servoSample_on (on : flag s R.TIM_CTRL 0 = true) : servoSample s =
    if rd s R.TIM_DELAY_MAX < rd s R.TIM_SRV_DELAY then servoDiscard (servoTheta s) s
    else if fld s R.TIM_STEP_LIMIT 29 0 * 65536 < (servoTheta s).natAbs then servoRefuse (servoTheta s) s
    else servoAccept (servoTheta s) s :=
  if_neg (by rw [on, Bool.not_true]; exact Bool.false_ne_true)

/-- A discarded sample is counted, with DELAY's sticky bit, and moves nothing (R111). -/
theorem servoDiscard_counts (θ : Int) (s : State) :
    rd (servoDiscard θ s) R.TIM_DISCARD_COUNT = (rd s R.TIM_DISCARD_COUNT + 1) % 2 ^ 32 ∧
      flag (servoDiscard θ s) R.TIM_STATUS 5 = true ∧ rd (servoDiscard θ s) R.TIM_FREQ = rd s R.TIM_FREQ ∧
      (servoDiscard θ s).clock = s.clock ∧ timeState (servoDiscard θ s) = timeState s := by
  have code : (0x30 : Nat) < 256 := by decide
  refine ⟨?_, flag_statusNoted _ code _ (by decide) true, ?_, clock_statusNoted _ code _ _ _, ?_⟩
  · exact (rd_statusNoted _ code _ _ _ (by decide) (by decide)).trans ((rd_addReg _ _ _ _).trans (if_pos rfl))
  · exact (rd_statusNoted _ code _ _ _ (by decide) (by decide)).trans ((rd_addReg _ _ _ _).trans (if_neg (by decide)))
  · exact (timeState_statusNoted _ code _ true (by decide) (by decide)).trans
      (timeState_of_rd_eq ((rd_addReg _ _ _ _).trans (if_neg (by decide))))

/-! ## A refused sample (R114, R118) -/

/-- θ pends under the next ID. -/
def refusalPended (θ : Int) (s : State) : State :=
  addFld (wr64 s R.TIM_PEND_OFS_LO R.TIM_PEND_OFS_HI (uint 64 θ)) R.TIM_PEND_ID 15 0 1

/-- A refusal as it stands in the registers: pending, noted in TIM_STATUS and counted. -/
def refusalCounted (θ : Int) (s : State) : State :=
  addReg (setFlag (setFlag (refusalPended θ s) R.TIM_STATUS 3 true) R.TIM_STATUS 4 true) R.TIM_REFUSED_COUNT 1

/-- The event of a refusal (R114). -/
def refusalEvent (θ : Int) (s : State) : Ev :=
  { code := 0x31, a0 := uint 64 θ, a1 := uint 64 θ / 2 ^ 32, a2 := rd s R.TIM_PEND_ID }

/-- A refusal, its event raised, before LOCKED is left. -/
def refusalRaised (θ : Int) (s : State) : State := raise (refusalEvent θ (refusalCounted θ s)) (refusalCounted θ s)

theorem servoRefuse_eq (θ : Int) (s : State) : servoRefuse θ s =
    if timeState (refusalRaised θ s) = 1 then enterHoldover (refusalRaised θ s) else refusalRaised θ s := rfl

theorem rd_refusalRaised (θ : Int) (s : State) {off : Nat} (he : eventReg off = false) :
    rd (refusalRaised θ s) off = rd (refusalCounted θ s) off := rd_raise _ (show 0x31 < 256 by decide) _ he

theorem rd_refusalCounted (θ : Int) (s : State) {off : Nat} (hs : off ≠ R.TIM_STATUS) (hc : off ≠ R.TIM_REFUSED_COUNT) :
    rd (refusalCounted θ s) off = rd (refusalPended θ s) off := by
  rw [refusalCounted, rd_addReg, if_neg hc, setFlag, rd_setFld_other _ _ _ _ hs, setFlag, rd_setFld_other _ _ _ _ hs]

theorem rd_refusalPended (θ : Int) (s : State) {off : Nat} (hl : off ≠ R.TIM_PEND_OFS_LO) (hh : off ≠ R.TIM_PEND_OFS_HI)
    (hi : off ≠ R.TIM_PEND_ID) : rd (refusalPended θ s) off = rd s off := by
  rw [refusalPended, addFld, rd_setFld_other _ _ _ _ hi, rd_wr64, if_neg hh, if_neg hl]

theorem status_refusalCounted (θ : Int) (s : State) : rd (refusalCounted θ s) R.TIM_STATUS =
    rd (setFlag (setFlag (refusalPended θ s) R.TIM_STATUS 3 true) R.TIM_STATUS 4 true) R.TIM_STATUS :=
  (rd_addReg _ _ _ _).trans (if_neg (by decide))

theorem timeState_refusalRaised (θ : Int) (s : State) : timeState (refusalRaised θ s) = timeState s := by
  rw [timeState_of_rd_eq (rd_refusalRaised θ s (by decide)), timeState_of_rd_eq (status_refusalCounted θ s),
    timeState_setFlag _ _ (by decide) (by decide), timeState_setFlag _ _ (by decide) (by decide),
    timeState_of_rd_eq (rd_refusalPended θ s (by decide) (by decide) (by decide))]

theorem flag_refusalRaised (θ : Int) (s : State) :
    flag (refusalRaised θ s) R.TIM_STATUS 3 = true ∧ flag (refusalRaised θ s) R.TIM_STATUS 4 = true := by
  have status := (rd_refusalRaised θ s (off := R.TIM_STATUS) (by decide)).trans (status_refusalCounted θ s)
  rw [flag_of_rd_eq status, flag_of_rd_eq status, flag_setFlag_below _ _ _ (by decide) (by decide),
    flag_setFlag_same _ _ _ _ (by decide), flag_setFlag_same _ _ _ _ (by decide)]
  exact ⟨rfl, rfl⟩

theorem refusedCount_refusalRaised (θ : Int) (s : State) :
    rd (refusalRaised θ s) R.TIM_REFUSED_COUNT = (rd s R.TIM_REFUSED_COUNT + 1) % 2 ^ 32 := by
  rw [rd_refusalRaised θ s (by decide), refusalCounted, rd_addReg, if_pos rfl, setFlag, rd_setFld_other _ _ _ _ (by decide),
    setFlag, rd_setFld_other _ _ _ _ (by decide), rd_refusalPended θ s (by decide) (by decide) (by decide)]

theorem pendId_refusalRaised (θ : Int) (s : State) :
    fld (refusalRaised θ s) R.TIM_PEND_ID 15 0 = (fld s R.TIM_PEND_ID 15 0 + 1) % 2 ^ 16 := by
  rw [fld_of_rd_eq (rd_refusalRaised θ s (by decide)), fld_of_rd_eq (rd_refusalCounted θ s (by decide) (by decide)),
    refusalPended, addFld, fld_setFld_same _ _ _ _ _ (by decide) (by decide),
    fld_of_rd_eq ((rd_wr64 _ _ _ _ _).trans ((if_neg (by decide)).trans (if_neg (by decide))))]

/-- The 64 bits of the pending pair hold θ as the sample gave it. -/
theorem pendingOfs_refusalRaised (s : State) : pendingOfs (refusalRaised (servoTheta s) s) = servoTheta s := by
  have kept : ∀ {off : Nat}, eventReg off = false → off ≠ R.TIM_STATUS → off ≠ R.TIM_REFUSED_COUNT → off ≠ R.TIM_PEND_ID →
      rd (refusalRaised (servoTheta s) s) off =
        rd (wr64 s R.TIM_PEND_OFS_LO R.TIM_PEND_OFS_HI (uint 64 (servoTheta s))) off := fun he hs hc hi =>
    ((rd_refusalRaised _ s he).trans (rd_refusalCounted _ s hs hc)).trans (rd_setFld_other _ _ _ _ hi)
  obtain ⟨low, high⟩ := sint_bounds (rd64 s R.TIM_SRV_OFS_LO R.TIM_SRV_OFS_HI) (n := 64) (by decide)
  rw [pendingOfs, rd64, kept (by decide) (by decide) (by decide) (by decide), kept (by decide) (by decide) (by decide) (by decide),
    ← rd64, rd64_wr64 _ _ (by decide), Nat.mod_eq_of_lt (uint_lt 64 _)]
  exact sint_uint (by decide) low high

theorem clock_refusalRaised (θ : Int) (s : State) : (refusalRaised θ s).clock = s.clock := by
  rw [refusalRaised, raise_clock _ (show 0x31 < 256 by decide), refusalCounted, addReg_clock, setFlag_clock, setFlag_clock,
    refusalPended, addFld_clock, wr64_clock]

theorem freq_refusalRaised (θ : Int) (s : State) : rd (refusalRaised θ s) R.TIM_FREQ = rd s R.TIM_FREQ := by
  rw [rd_refusalRaised θ s (by decide), rd_refusalCounted θ s (by decide) (by decide),
    rd_refusalPended θ s (by decide) (by decide) (by decide)]

/-- Whether or not LOCKED is left, the refusal's own registers and the clock stand. -/
theorem servoRefuse_kept (θ : Int) (s : State) :
    (∀ {off : Nat}, eventReg off = false → off ≠ R.TIM_STATUS → off ≠ R.TCK_STATUS → off ≠ R.TIM_FREQ →
      rd (servoRefuse θ s) off = rd (refusalRaised θ s) off) ∧
    (∀ {i : Nat}, 1 < i → flag (servoRefuse θ s) R.TIM_STATUS i = flag (refusalRaised θ s) R.TIM_STATUS i) ∧
    (servoRefuse θ s).clock = (refusalRaised θ s).clock := by
  rw [servoRefuse_eq]
  split
  · exact ⟨fun he hs ht hf => rd_enterHoldover _ he hs ht hf, fun above => flag_enterHoldover _ above, (enterHoldover_clocks _).1⟩
  · exact ⟨fun _ _ _ _ => rfl, fun _ => rfl, rfl⟩

/-- A refused sample pends with its θ under the next ID and is counted; the clock is left alone (R114). -/
theorem servoRefuse_pends (s : State) :
    rd (servoRefuse (servoTheta s) s) R.TIM_REFUSED_COUNT = (rd s R.TIM_REFUSED_COUNT + 1) % 2 ^ 32 ∧
    flag (servoRefuse (servoTheta s) s) R.TIM_STATUS 3 = true ∧ flag (servoRefuse (servoTheta s) s) R.TIM_STATUS 4 = true ∧
    fld (servoRefuse (servoTheta s) s) R.TIM_PEND_ID 15 0 = (fld s R.TIM_PEND_ID 15 0 + 1) % 2 ^ 16 ∧
    pendingOfs (servoRefuse (servoTheta s) s) = servoTheta s ∧ (servoRefuse (servoTheta s) s).clock = s.clock := by
  obtain ⟨kept, flags, clock⟩ := servoRefuse_kept (servoTheta s) s
  obtain ⟨pending, refused⟩ := flag_refusalRaised (servoTheta s) s
  refine ⟨?_, (flags (by decide)).trans pending, (flags (by decide)).trans refused, ?_, ?_, clock.trans (clock_refusalRaised _ s)⟩
  · exact (kept (by decide) (by decide) (by decide) (by decide)).trans (refusedCount_refusalRaised _ s)
  · exact (fld_of_rd_eq (kept (by decide) (by decide) (by decide) (by decide)) 15 0).trans (pendId_refusalRaised _ s)
  · rw [pendingOfs, rd64, kept (by decide) (by decide) (by decide) (by decide), kept (by decide) (by decide) (by decide) (by decide),
      ← rd64, ← pendingOfs, pendingOfs_refusalRaised]

theorem timeState_servoRefuse (θ : Int) (s : State) :
    timeState (servoRefuse θ s) = if timeState s = 1 then 2 else timeState s := by
  rw [servoRefuse_eq, timeState_refusalRaised]
  split
  · exact timeState_enterHoldover _
  · exact timeState_refusalRaised θ s

theorem freq_servoRefuse (θ : Int) {s : State} (unlocked : timeState s ≠ 1) :
    rd (servoRefuse θ s) R.TIM_FREQ = rd s R.TIM_FREQ := by
  rw [servoRefuse_eq, timeState_refusalRaised, if_neg unlocked, freq_refusalRaised]

/-! ## An accepted sample (R112, R115) -/

theorem rd_withTim (s : State) (x : TimeSt) (off : Nat) : rd { s with tim := x } off = rd s off := rfl

/-- An accepted sample under the servo's law, before a pending refusal is withdrawn. -/
def sampleTaken (θ : Int) (s : State) : State :=
  { wr (wr (wr s R.TIM_INTEGRAL (uint 32 (servoLaw s θ).1)) R.TIM_FREQ (uint 32 (servoLaw s θ).2)) R.TIM_LAST_OFS
      (uint 32 (clampInt (-2147483648) 2147483647 (Int.tdiv θ 65536))) with
    tim := { s.tim with lastOfs := ceilDiv θ.natAbs 65536, acceptAt := s.elapsed } }

theorem servoAccept_eq (θ : Int) (s : State) : servoAccept θ s = setTimeState 1 (servoWithdraw (sampleTaken θ s)) := by
  unfold servoAccept sampleTaken
  generalize servoLaw s θ = law
  rfl

theorem rd_sampleTaken (θ : Int) (s : State) (off : Nat) : rd (sampleTaken θ s) off =
    rd (wr (wr (wr s R.TIM_INTEGRAL (uint 32 (servoLaw s θ).1)) R.TIM_FREQ (uint 32 (servoLaw s θ).2)) R.TIM_LAST_OFS
      (uint 32 (clampInt (-2147483648) 2147483647 (Int.tdiv θ 65536)))) off := rd_withTim _ _ off

theorem clock_sampleTaken (θ : Int) (s : State) : (sampleTaken θ s).clock = s.clock := by simp only [sampleTaken, wr_clock]

theorem lastOfs_sampleTaken (θ : Int) (s : State) : (sampleTaken θ s).tim.lastOfs = ceilDiv θ.natAbs 65536 := by
  rw [sampleTaken]

theorem servoWithdraw_kept (s : State) : ClockKept s (servoWithdraw s) ∧ flag (servoWithdraw s) R.TIM_STATUS 3 = false ∧
    (∀ {off : Nat}, eventReg off = false → off ≠ R.TIM_STATUS → rd (servoWithdraw s) off = rd s off) := by
  have code : (0x32 : Nat) < 256 := by decide
  unfold servoWithdraw
  split
  · have cleared : ClockKept s (setFlag s R.TIM_STATUS 3 false) := ⟨rfl, rfl, rfl⟩
    exact ⟨cleared.trans (raise_clockKept _ code _), flag_statusNoted _ code s (by decide) false,
      fun he hs => rd_statusNoted _ code s 3 false he hs⟩
  · next idle => exact ⟨⟨rfl, rfl, rfl⟩, Bool.eq_false_iff.2 idle, fun _ _ => rfl⟩

/-- An accepted sample follows the law, withdraws a pending refusal and shows LOCKED (R112, R115, R118). -/
theorem servoAccept_follows (θ : Int) (s : State) :
    rd (servoAccept θ s) R.TIM_INTEGRAL = uint 32 (servoLaw s θ).1 ∧ rd (servoAccept θ s) R.TIM_FREQ = uint 32 (servoLaw s θ).2 ∧
      (servoAccept θ s).tim.lastOfs = ceilDiv θ.natAbs 65536 ∧ flag (servoAccept θ s) R.TIM_STATUS 3 = false ∧
      timeState (servoAccept θ s) = 1 ∧ (servoAccept θ s).clock = s.clock := by
  obtain ⟨withdrawn, idle, regs⟩ := servoWithdraw_kept (sampleTaken θ s)
  have kept := withdrawn.trans (setTimeState_clockKept 1 _)
  have shown : ∀ {off : Nat}, eventReg off = false → off ≠ R.TIM_STATUS → off ≠ R.TCK_STATUS →
      rd (setTimeState 1 (servoWithdraw (sampleTaken θ s))) off = rd (sampleTaken θ s) off := fun he hs ht =>
    (rd_setTimeState 1 _ he hs ht).trans (regs he hs)
  rw [servoAccept_eq, kept.clock, kept.tim, lastOfs_sampleTaken, clock_sampleTaken, flag_setTimeState 1 _ (by decide), idle]
  refine ⟨?_, ?_, rfl, rfl, timeState_setTimeState _ (by decide), rfl⟩
  · rw [shown (by decide) (by decide) (by decide), rd_sampleTaken, rd_wr_other _ _ (by decide), rd_wr_other _ _ (by decide),
      rd_wr_same_of_lt _ _ (uint_lt 32 _)]
  · rw [shown (by decide) (by decide) (by decide), rd_sampleTaken, rd_wr_other _ _ (by decide),
      rd_wr_same_of_lt _ _ (uint_lt 32 _)]

/-! ## FREQ, INC_NOM and SERVO_EN (R105, R113) -/

theorem freqWrite_held (reg v : Nat) (on : flag s R.TIM_CTRL 0 = true) : freqWrite reg v s = s := if_pos on

theorem freqWrite_off (reg v : Nat) (off : flag s R.TIM_CTRL 0 = false) : freqWrite reg v s =
    if reg = 0 then wr s R.TIM_FREQ (uint 32 (clampInt (-fmaxOf s) (fmaxOf s) (sint 32 v)))
    else if reg = 1 then wr s R.TIM_INC_NOM_LO v else wr s R.TIM_INC_NOM_HI (bits v 3 0) :=
  if_neg (by rw [off]; exact Bool.false_ne_true)

theorem freqOf_of_rd_eq (h : rd t R.TIM_FREQ = rd s R.TIM_FREQ) : freqOf t = freqOf s := by rw [freqOf, h, freqOf]

theorem incNom_of_rd_eq (lo : rd t R.TIM_INC_NOM_LO = rd s R.TIM_INC_NOM_LO) (hi : rd t R.TIM_INC_NOM_HI = rd s R.TIM_INC_NOM_HI) :
    incNom t = incNom s := by rw [incNom, lo, fld_of_rd_eq hi, incNom]

/-- FREQ as written reads back within ±FMAX. -/
theorem freqOf_freqWritten (v : Nat) (s : State) :
    freqOf (wr s R.TIM_FREQ (uint 32 (clampInt (-fmaxOf s) (fmaxOf s) (sint 32 v)))) =
      max (-fmaxOf s) (min (fmaxOf s) (sint 32 v)) := by
  have fmax : 0 ≤ fmaxOf s := Int.natCast_nonneg _
  obtain ⟨low, high⟩ := sint_bounds (n := 32) v (by decide)
  obtain ⟨low, high⟩ := clampInt_within fmax low high (by decide) (by decide)
  rw [freqOf, rd_wr_same_of_lt _ _ (uint_lt 32 _), sint_uint (by decide) low high, clampInt_eq _ (by omega)]

/-- While SERVO_EN is 0 each of the three writes sets its own register. -/
theorem freqWrite_sets (reg : Fin 3) (v : Word) (off : flag s R.TIM_CTRL 0 = false) :
    (reg.val = 0 → freqOf (freqWrite reg.val v.toNat s) = max (-fmaxOf s) (min (fmaxOf s) (sint 32 v.toNat)) ∧
      incNom (freqWrite reg.val v.toNat s) = incNom s) ∧
    (reg.val = 1 → incNom (freqWrite reg.val v.toNat s) = v.toNat + 2 ^ 32 * fld s R.TIM_INC_NOM_HI 3 0 ∧
      freqOf (freqWrite reg.val v.toNat s) = freqOf s) ∧
    (reg.val = 2 → incNom (freqWrite reg.val v.toNat s) = rd s R.TIM_INC_NOM_LO + 2 ^ 32 * bits v.toNat 3 0 ∧
      freqOf (freqWrite reg.val v.toNat s) = freqOf s) := by
  rw [freqWrite_off _ _ off]
  refine ⟨fun is => ?_, fun is => ?_, fun is => ?_⟩ <;> rw [is]
  · exact ⟨freqOf_freqWritten _ s, incNom_of_rd_eq (rd_wr_other _ _ (by decide)) (rd_wr_other _ _ (by decide))⟩
  · refine ⟨?_, freqOf_of_rd_eq (rd_wr_other _ _ (by decide))⟩
    rw [if_neg (by decide), if_pos rfl, incNom, rd_wr_same_of_lt _ _ v.isLt, fld_wr_other _ _ _ _ (by decide)]
  · refine ⟨?_, freqOf_of_rd_eq (rd_wr_other _ _ (by decide))⟩
    rw [if_neg (by decide), if_neg (by decide), incNom, rd_wr_other _ _ (by decide), fld,
      rd_wr_same_of_lt _ _ (bits_lt_word _ (by decide)), bits_bits]

/-- Clearing SERVO_EN keeps FREQ, zeroes I and returns to FREE. -/
theorem servoOff_frees (s : State) : flag (servoOff s) R.TIM_CTRL 0 = false ∧ rd (servoOff s) R.TIM_FREQ = rd s R.TIM_FREQ ∧
    rd (servoOff s) R.TIM_INTEGRAL = 0 ∧ timeState (servoOff s) = 0 ∧ flag (servoOff s) R.TIM_STATUS 3 = false := by
  have regs : ∀ {off : Nat}, eventReg off = false → off ≠ R.TIM_STATUS → off ≠ R.TCK_STATUS →
      rd (servoOff s) off = rd (wr (setFlag s R.TIM_CTRL 0 false) R.TIM_INTEGRAL 0) off := fun he hs ht =>
    (rd_setTimeState 0 _ he hs ht).trans (rd_setFld_other _ _ _ _ hs)
  refine ⟨?_, ?_, ?_, timeState_setTimeState _ (by decide),
    (flag_setTimeState 0 _ (by decide)).trans (flag_setFlag_same _ _ _ _ (by decide))⟩
  · rw [flag_of_rd_eq (regs (by decide) (by decide) (by decide)), flag_of_rd_eq (rd_wr_other _ _ (by decide)),
      flag_setFlag_same _ _ _ _ (by decide)]
  · rw [regs (by decide) (by decide) (by decide), rd_wr_other _ _ (by decide), setFlag, rd_setFld_other _ _ _ _ (by decide)]
  · rw [regs (by decide) (by decide) (by decide), rd_wr_same, Nat.zero_mod]

/-- Settles O23: the three answers to a sample in R111's order, and what each of the other commands leaves of FREQ, INC_NOM and
the state. -/
theorem servoAndTimeStates : Obligations.ServoAndTimeStates := by
  unfold Obligations.ServoAndTimeStates
  refine ⟨fun v s run go => ⟨fun off => ?_, fun on long => ?_, fun on short beyond => ?_, fun on short within e i f he hi hf => ?_⟩,
    fun reg v s run => ⟨fun on => ?_, fun off => ⟨_, live_running run _, freqWrite_sets reg v off⟩⟩,
    fun s run => ⟨_, live_running run _, servoOff_frees s⟩, fun s aon locked => holdoverTimeout_holds aon locked⟩
  · rw [exec_servoSample run go, servoSample_off off]
  · have sample : servoSample s = servoDiscard (servoTheta s) s := (servoSample_on on).trans (if_pos long)
    exact ⟨_, (exec_servoSample run go).trans (congrArg _ sample), servoDiscard_counts _ s⟩
  · have sample : servoSample s = servoRefuse (servoTheta s) s :=
      (servoSample_on on).trans ((if_neg (Nat.not_lt.2 short)).trans (if_pos beyond))
    obtain ⟨count, pending, refused, id, ofs, clock⟩ := servoRefuse_pends s
    exact ⟨_, (exec_servoSample run go).trans (congrArg _ sample), count, pending, refused, id, ofs, clock,
      freq_servoRefuse _, timeState_servoRefuse _ s⟩
  · have sample : servoSample s = servoAccept (servoTheta s) s :=
      (servoSample_on on).trans ((if_neg (Nat.not_lt.2 short)).trans (if_neg (Nat.not_lt.2 within)))
    subst he hi hf
    exact ⟨_, (exec_servoSample run go).trans (congrArg _ sample), servoAccept_follows _ s⟩
  · exact (live_running run _).trans (congrArg Host.Outcome.next (freqWrite_held _ _ on))

end Sys2Proof.Machine
end

section
/-!
PROOFS. Capture inputs: an edge is stamped, or counted as lost, and a read takes the oldest stamp (R121, R122).
-/

namespace Sys2Proof.Machine

variable {s : State} {c : Nat}

/-! ## A capture input's queue and registers -/

theorem capStatus_plain (hc : c < 17) : eventReg (R.TIM_CAP_STATUS c) = false := by
  rw [eventReg, decide_eq_false_iff_not, R.TIM_CAP_STATUS]
  omega

theorem capAt_of_tim_eq {t : State} (h : t.tim = s.tim) (c : Nat) : capAt t c = capAt s c := by rw [capAt, h, capAt]

theorem capAt_setCap_same (c : Nat) (x : CapSt) (s : State) : capAt (setCap c x s) c = x := by
  rw [setCap, capAt, setFld_tim, smGet_smSet_same]

/-- The queue's length is shown below the count of lost edges. -/
theorem lost_setCap (c : Nat) (x : CapSt) (s : State) :
    fld (setCap c x s) (R.TIM_CAP_STATUS c) 31 16 = fld s (R.TIM_CAP_STATUS c) 31 16 :=
  (fld_setFld_above _ _ _ _ _ _ _ (by decide) (by decide) (by decide)).trans (fld_of_rd_eq (rd_withTim s _ _) _ _)

/-- An edge is counted as lost, and the queue stays. -/
theorem lostCounted (c : Nat) (s : State) :
    capAt (addFld s (R.TIM_CAP_STATUS c) 31 16 1) c = capAt s c ∧
      fld (addFld s (R.TIM_CAP_STATUS c) 31 16 1) (R.TIM_CAP_STATUS c) 31 16 =
        (fld s (R.TIM_CAP_STATUS c) 31 16 + 1) % 2 ^ 16 :=
  ⟨capAt_of_tim_eq (addFld_tim _ _ _ _ _) c, fld_setFld_same _ _ _ _ _ (by decide) (by decide)⟩

/-! ## An edge -/

/-- The stamp of an edge, its error held to ±3.2 ns (R121). -/
def edgeStamp (err : Int) (s : State) : Nat := ((s.clock : Int) + clampInt (-stampError) stampError err).toNat

/-- EV_CAPTURE_LOST with the count of lost edges (R122). -/
def captureLost (c : Nat) (s : State) : Ev := { code := 0x37, unit := c, a0 := fld s (R.TIM_CAP_STATUS c) 31 16 }

/-- No edge was stamped in the last 16 ns. -/
def EdgeApart (s : State) (c : Nat) : Prop := ∀ x, (capAt s c).lastEdge = some x → x + 16 * nsUnit ≤ s.elapsed

theorem captureEdge_close {x : Nat} (rising : Bool) (err : Int) (last : (capAt s c).lastEdge = some x)
    (near : s.elapsed < x + 16 * nsUnit) : captureEdge c rising err s = addFld s (R.TIM_CAP_STATUS c) 31 16 1 := by
  unfold captureEdge
  dsimp only
  rw [last]
  exact if_pos (decide_eq_true near)

theorem captureEdge_apart (rising : Bool) (err : Int) (apart : EdgeApart s c) : captureEdge c rising err s =
    if 4 ≤ (capAt s c).fifo.length then
      raiseOnce c (captureLost c (addFld s (R.TIM_CAP_STATUS c) 31 16 1)) (addFld s (R.TIM_CAP_STATUS c) 31 16 1)
    else setCap c { fifo := (capAt s c).fifo ++ [(edgeStamp err s, rising)], lastEdge := some s.elapsed } s := by
  unfold captureEdge captureLost edgeStamp
  dsimp only
  rw [if_neg]
  cases last : (capAt s c).lastEdge with
  | none => exact Bool.false_ne_true
  | some x => exact Bool.eq_false_iff.1 (decide_eq_false (Nat.not_lt.2 (apart x last)))

theorem exec_captureEdge {c : Fin 17} {rising : Bool} (err : Int) (aon : aonRunning s = true)
    (selected : edgeSelected s c.val rising = true) :
    exec (.captureEdge c rising err) s = .next (captureEdge c.val rising err s) := by
  show execCaptureEdge c rising err s = _
  rw [execCaptureEdge, liveAon_running aon, if_pos selected]

/-- An edge that is not selected does nothing. -/
theorem exec_captureEdge_unselected {c : Fin 17} {rising : Bool} (err : Int) (aon : aonRunning s = true)
    (unselected : edgeSelected s c.val rising = false) : exec (.captureEdge c rising err) s = .next s := by
  show execCaptureEdge c rising err s = _
  rw [execCaptureEdge, liveAon_running aon, unselected]
  rfl

theorem edgeStamp_bounds (err : Int) (s : State) :
    (edgeStamp err s : Int) ≤ s.clock + 13743895347 ∧ (s.clock : Int) ≤ edgeStamp err s + 13743895347 := by
  have bound : stampError = 13743895347 := rfl
  rw [edgeStamp, clampInt_eq err (by omega), bound]
  omega

/-- A selected edge neither close to the last nor before a full queue is stamped at the queue's end (R121). -/
theorem captureEdge_stamps (rising : Bool) (err : Int) (apart : EdgeApart s c) (room : (capAt s c).fifo.length < 4) :
    (capAt (captureEdge c rising err s) c).fifo = (capAt s c).fifo ++ [(edgeStamp err s, rising)] ∧
      fld (captureEdge c rising err s) (R.TIM_CAP_STATUS c) 31 16 = fld s (R.TIM_CAP_STATUS c) 31 16 := by
  rw [captureEdge_apart rising err apart, if_neg (by omega), capAt_setCap_same, lost_setCap]
  exact ⟨rfl, rfl⟩

/-- A selected edge too close to the last, or before a full queue, is counted as lost (R121, R122). -/
theorem captureEdge_loses (hc : c < 17) (rising : Bool) (err : Int)
    (lost : (∃ x, (capAt s c).lastEdge = some x ∧ s.elapsed < x + 16 * nsUnit) ∨ 4 ≤ (capAt s c).fifo.length) :
    (capAt (captureEdge c rising err s) c).fifo = (capAt s c).fifo ∧
      fld (captureEdge c rising err s) (R.TIM_CAP_STATUS c) 31 16 = (fld s (R.TIM_CAP_STATUS c) 31 16 + 1) % 2 ^ 16 := by
  obtain ⟨kept, counted⟩ := lostCounted c s
  by_cases close : ∃ x, (capAt s c).lastEdge = some x ∧ s.elapsed < x + 16 * nsUnit
  · obtain ⟨x, last, near⟩ := close
    rw [captureEdge_close rising err last near, kept, counted]
    exact ⟨rfl, rfl⟩
  · have apart : EdgeApart s c := fun x last => Nat.not_lt.1 fun near => close ⟨x, last, near⟩
    have code : (0x37 : Nat) < 256 := by decide
    rw [captureEdge_apart rising err apart, if_pos (lost.resolve_left close),
      fld_of_rd_eq (rd_raiseOnce c _ code _ (capStatus_plain hc)), counted, capAt_of_tim_eq (raiseOnce_tim c _ code _), kept]
    exact ⟨rfl, rfl⟩

/-! ## A read of the queue -/

/-- The registers of an input that show a stamp. -/
def stampShown (c t : Nat) (s : State) : State :=
  wr (wr (wr64 s (R.TIM_CAP_SEC_LO c) (R.TIM_CAP_SEC_HI c) (timeSec t)) (R.TIM_CAP_NS c) (timeNs t)) (R.TIM_CAP_FRAC c) (timeFrac t)

theorem showStamp_eq (c t : Nat) (rising : Bool) (s : State) :
    showStamp c t rising s = setFlag (stampShown c t s) (R.TIM_CAP_STATUS c) 3 rising := rfl

/-- Seconds, nanoseconds and fraction of a stamp, read apart. -/
theorem rd_stampShown (c t : Nat) (s : State) :
    rd (stampShown c t s) (R.TIM_CAP_SEC_LO c) = timeSec t % 2 ^ 32 ∧
      rd (stampShown c t s) (R.TIM_CAP_SEC_HI c) = timeSec t / 2 ^ 32 % 2 ^ 32 ∧
      rd (stampShown c t s) (R.TIM_CAP_NS c) = timeNs t % 2 ^ 32 ∧ rd (stampShown c t s) (R.TIM_CAP_FRAC c) = timeFrac t % 2 ^ 32 := by
  simp [stampShown, rd_wr, rd_wr64, R.TIM_CAP_SEC_LO, R.TIM_CAP_SEC_HI, R.TIM_CAP_NS, R.TIM_CAP_FRAC]

/-- None of the four is the status register, where POL stands. -/
theorem stampRegs_apart (c : Nat) : R.TIM_CAP_SEC_LO c ≠ R.TIM_CAP_STATUS c ∧ R.TIM_CAP_SEC_HI c ≠ R.TIM_CAP_STATUS c ∧
    R.TIM_CAP_NS c ≠ R.TIM_CAP_STATUS c ∧ R.TIM_CAP_FRAC c ≠ R.TIM_CAP_STATUS c := by
  simp [R.TIM_CAP_STATUS, R.TIM_CAP_SEC_LO, R.TIM_CAP_SEC_HI, R.TIM_CAP_NS, R.TIM_CAP_FRAC]

/-- A stamp as an input's registers show it. -/
theorem showStamp_shows (c t : Nat) (rising : Bool) (s : State) :
    rd64 (showStamp c t rising s) (R.TIM_CAP_SEC_LO c) (R.TIM_CAP_SEC_HI c) = timeSec t % 2 ^ 64 ∧
      rd (showStamp c t rising s) (R.TIM_CAP_NS c) = timeNs t ∧ rd (showStamp c t rising s) (R.TIM_CAP_FRAC c) = timeFrac t ∧
      flag (showStamp c t rising s) (R.TIM_CAP_STATUS c) 3 = rising := by
  obtain ⟨lo, hi, ns, frac⟩ := rd_stampShown c t s
  obtain ⟨lo', hi', ns', frac'⟩ := stampRegs_apart c
  rw [showStamp_eq, flag_setFlag_same _ _ _ _ (by decide), rd64, setFlag, rd_setFld_other _ _ _ _ lo',
    rd_setFld_other _ _ _ _ hi', rd_setFld_other _ _ _ _ ns', rd_setFld_other _ _ _ _ frac', lo, hi, ns, frac,
    Nat.mod_eq_of_lt (timeNs_lt t), Nat.mod_eq_of_lt (timeFrac_lt t)]
  exact ⟨(Nat.mod_mul (a := 2 ^ 32) (b := 2 ^ 32)).symm, rfl, rfl, rfl⟩

theorem capAt_showStamp (c t : Nat) (rising : Bool) (s : State) (j : Nat) : capAt (showStamp c t rising s) j = capAt s j := by
  refine capAt_of_tim_eq ?_ j
  rw [showStamp_eq, setFlag_tim, stampShown, wr_tim, wr_tim, wr64_tim]

theorem exec_captureFifoRead_empty {c : Fin 17} (run : running s = true) (empty : (capAt s c.val).fifo = []) :
    exec (.captureFifoRead c) s = .next (showStamp c.val 0 (flag s (R.TIM_CAP_STATUS c.val) 3) s) := by
  show execCaptureFifoRead c s = _
  rw [execCaptureFifoRead, live_running run]
  dsimp only
  rw [empty]

theorem exec_captureFifoRead {c : Fin 17} {x : Nat} {pol : Bool} {rest : List (Nat × Bool)} (run : running s = true)
    (oldest : (capAt s c.val).fifo = (x, pol) :: rest) : exec (.captureFifoRead c) s =
      .next (showStamp c.val x pol (setCap c.val { capAt s c.val with fifo := rest } s)) := by
  show execCaptureFifoRead c s = _
  rw [execCaptureFifoRead, live_running run]
  dsimp only
  rw [oldest]

/-- Settles O25, by the three fates of an edge and the two answers of a read. -/
theorem capturesQueueAndRead : Obligations.CapturesQueueAndRead := by
  unfold Obligations.CapturesQueueAndRead
  refine ⟨fun c rising err s aon => ⟨exec_captureEdge_unselected err aon, fun selected apart room => ?_, fun selected lost => ?_⟩,
    fun c s run => ⟨fun empty => ?_, fun x pol rest oldest => ?_⟩⟩
  · obtain ⟨queued, count⟩ := captureEdge_stamps rising err apart room
    obtain ⟨early, late⟩ := edgeStamp_bounds err s
    exact ⟨_, _, exec_captureEdge err aon selected, queued, early, late, count⟩
  · exact ⟨_, exec_captureEdge err aon selected, captureEdge_loses c.isLt rising err lost⟩
  · obtain ⟨sec, ns, frac, -⟩ := showStamp_shows c.val 0 (flag s (R.TIM_CAP_STATUS c.val) 3) s
    exact ⟨_, exec_captureFifoRead_empty run empty, sec, ns, frac⟩
  · obtain ⟨sec, ns, frac, shown⟩ := showStamp_shows c.val x pol (setCap c.val { capAt s c.val with fifo := rest } s)
    refine ⟨_, exec_captureFifoRead run oldest, sec, ns, frac, shown, ?_⟩
    rw [capAt_showStamp, capAt_setCap_same]

end Sys2Proof.Machine
end

section
/-!
PROOFS. Triggers: their registers, the write of CTRL (R124), the fire of an armed trigger and the end of its pulse (R123).
-/

namespace Sys2Proof.Machine

variable {s u : State} {t : Nat}

/-! ## A trigger's state -/

theorem trigAt_setTrig (t : Nat) (x : TrigSt) (s : State) (j : Nat) :
    trigAt (setTrig t x s) j = if j = t then x else trigAt s j := by
  rw [trigAt, setTrig, smGet_smSet, trigAt]

theorem trigAt_setTrig_same (t : Nat) (x : TrigSt) (s : State) : trigAt (setTrig t x s) t = x := by
  rw [trigAt_setTrig, if_pos rfl]

theorem trigAt_of_tim_eq (h : u.tim = s.tim) (t : Nat) : trigAt u t = trigAt s t := by rw [trigAt, h, trigAt]

theorem rd_setTrig (t : Nat) (x : TrigSt) (s : State) (off : Nat) : rd (setTrig t x s) off = rd s off := rd_withTim s _ off

theorem trigArmed_of_rd_eq (h : rd u (R.TIM_TRIG_CTRL t) = rd s (R.TIM_TRIG_CTRL t)) : trigArmed u t = trigArmed s t :=
  flag_of_rd_eq h 4

theorem trigArmed_setTrig (j : Nat) (x : TrigSt) (s : State) (t : Nat) : trigArmed (setTrig j x s) t = trigArmed s t :=
  trigArmed_of_rd_eq (rd_setTrig j x s _)

theorem trigArmed_setArmed (t : Nat) (b : Bool) (s : State) : trigArmed (setFlag s (R.TIM_TRIG_CTRL t) 4 b) t = b :=
  flag_setFlag_same s _ 4 b (by decide)

theorem trigCtrl_plain (ht : t < 12) : eventReg (R.TIM_TRIG_CTRL t) = false := by
  rw [eventReg, decide_eq_false_iff_not, R.TIM_TRIG_CTRL]
  omega

/-- Two states that differ at most in CTRL of trigger t, whose pulses and next instants are the same. -/
abbrev CtrlOnly (t : Nat) (a b : State) : Prop := OnlyRegs (fun o => decide (o = R.TIM_TRIG_CTRL t)) a b

section ctrlOnly

variable (h : CtrlOnly t s u)
include h

theorem CtrlOnly.rd_eq {off : Nat} (other : off ≠ R.TIM_TRIG_CTRL t) : rd u off = rd s off := h.regs off (decide_eq_false other)

theorem CtrlOnly.bit_set (i : Nat) (b : Bool) : CtrlOnly t s (setFlag u (R.TIM_TRIG_CTRL t) i b) :=
  OnlyRegs.setFlag _ _ _ (decide_eq_true rfl) h

theorem CtrlOnly.field_set (hi lo v : Nat) : CtrlOnly t s (setFld u (R.TIM_TRIG_CTRL t) hi lo v) :=
  OnlyRegs.setFld _ _ _ _ (decide_eq_true rfl) h

theorem CtrlOnly.clock_eq : u.clock = s.clock := by rw [h.rest]

theorem CtrlOnly.trig_eq (j : Nat) : trigAt u j = trigAt s j := trigAt_of_tim_eq (by rw [h.rest]) j

/-- The schedule stands in other registers than CTRL. -/
theorem CtrlOnly.start_eq : trigStart u t = trigStart s t := by
  have secLo := h.rd_eq (off := R.TIM_TRIG_START_SEC_LO t) (by simp [R.TIM_TRIG_START_SEC_LO, R.TIM_TRIG_CTRL])
  have secHi := h.rd_eq (off := R.TIM_TRIG_START_SEC_HI t) (by simp [R.TIM_TRIG_START_SEC_HI, R.TIM_TRIG_CTRL])
  have ns := h.rd_eq (off := R.TIM_TRIG_START_NS t) (by simp [R.TIM_TRIG_START_NS, R.TIM_TRIG_CTRL])
  have frac := h.rd_eq (off := R.TIM_TRIG_START_FRAC t) (by simp [R.TIM_TRIG_START_FRAC, R.TIM_TRIG_CTRL])
  rw [trigStart, rd64, secLo, secHi, fld_of_rd_eq ns, frac, ← rd64, ← trigStart]

theorem CtrlOnly.period_eq : trigPeriod u t = trigPeriod s t := by
  have ns := h.rd_eq (off := R.TIM_TRIG_PERIOD_NS t) (by simp [R.TIM_TRIG_PERIOD_NS, R.TIM_TRIG_CTRL])
  have frac := h.rd_eq (off := R.TIM_TRIG_PERIOD_FRAC t) (by simp [R.TIM_TRIG_PERIOD_FRAC, R.TIM_TRIG_CTRL])
  rw [trigPeriod, ns, frac, ← trigPeriod]

theorem CtrlOnly.width_eq : trigWidth u t = trigWidth s t := by
  rw [trigWidth, h.rd_eq (by simp [R.TIM_TRIG_WIDTH_NS, R.TIM_TRIG_CTRL]), ← trigWidth]

theorem CtrlOnly.count_eq : rd u (R.TIM_TRIG_COUNT t) = rd s (R.TIM_TRIG_COUNT t) :=
  h.rd_eq (by simp [R.TIM_TRIG_COUNT, R.TIM_TRIG_CTRL])

theorem CtrlOnly.next_eq (now : Nat) : trigNextAfter u t now = trigNextAfter s t now := by
  rw [trigNextAfter, h.start_eq, h.period_eq, ← trigNextAfter]

theorem CtrlOnly.valid_eq (plain : t ≠ 9) : trigValid u t = trigValid s t := by
  rw [trigValid, trigValid, if_neg plain, if_neg plain, h.period_eq, h.width_eq]

end ctrlOnly

/-! ## A schedule's instants -/

theorem trigPeriod_pos (plain : t ≠ 9) (valid : trigValid s t = true) : 0 < trigPeriod s t := by
  rw [trigValid, if_neg plain, decide_eq_true_eq] at valid
  obtain ⟨narrow, wide, -⟩ := valid
  rw [nsUnit] at wide
  omega

/-- The next instant is the first one later than now. -/
theorem trigNextAfter_first (pos : 0 < trigPeriod s t) (now : Nat) :
    now < trigInstant s t (trigNextAfter s t now) ∧ ∀ j < trigNextAfter s t now, trigInstant s t j ≤ now := by
  unfold trigNextAfter
  split
  · next early => exact ⟨by rw [trigInstant]; omega, fun j hj => absurd hj (Nat.not_lt_zero j)⟩
  · next due =>
    have passed := Nat.div_mul_le_self (now - trigStart s t) (trigPeriod s t)
    have coming := Nat.lt_div_mul_add (a := now - trigStart s t) pos
    refine ⟨?_, fun j hj => ?_⟩
    · rw [trigInstant, Nat.add_mul, Nat.one_mul]
      omega
    · have upto := Nat.mul_le_mul_right (trigPeriod s t) (Nat.le_of_lt_succ hj)
      rw [trigInstant]
      omega

/-! ## The write of CTRL (R124) -/

theorem trigClear_ctrlOnly (t v : Nat) (s : State) : CtrlOnly t s (trigClear t v s) := by
  have refl : CtrlOnly t s s := OnlyRegs.refl s
  have seventh : CtrlOnly t s (if bit v 7 then setFlag s (R.TIM_TRIG_CTRL t) 7 false else s) := (refl.bit_set 7 false).ite refl
  have sixth := (seventh.bit_set 6 false).ite seventh (c := bit v 6 = true)
  exact (CtrlOnly.bit_set sixth 5 false).ite sixth

/-- The sticky bits stand above ARMED. -/
theorem trigArmed_setSticky (t : Nat) (s : State) {i : Nat} (b : Bool) (above : 4 < i) (hi : i < 32) :
    trigArmed (setFlag s (R.TIM_TRIG_CTRL t) i b) t = trigArmed s t := flag_setFlag_below s _ b hi above

theorem trigArmed_trigClear (t v : Nat) (s : State) : trigArmed (trigClear t v s) t = trigArmed s t := by
  have sticky : ∀ (c : Prop) [Decidable c] (u : State) (i : Nat), 4 < i → i < 32 →
      trigArmed (if c then setFlag u (R.TIM_TRIG_CTRL t) i false else u) t = trigArmed u t := fun c _ u i above hi => by
    rw [apply_ite (trigArmed · t), trigArmed_setSticky t u _ above hi, ite_self]
  exact (sticky _ _ 5 (by decide) (by decide)).trans ((sticky _ _ 6 (by decide) (by decide)).trans
    (sticky _ _ 7 (by decide) (by decide)))

/-- CTRL as written to a trigger that is not armed, or with ARM = 0: the sticky bits clear, MODE, POL and ARM are stored. -/
def ctrlStored (t v : Nat) (s : State) : State :=
  setFlag (setFld (trigClear t v s) (R.TIM_TRIG_CTRL t) 2 1 (bits v 2 1)) (R.TIM_TRIG_CTRL t) 0 (bit v 0)

theorem ctrlStored_ctrlOnly (t v : Nat) (s : State) : CtrlOnly t s (ctrlStored t v s) :=
  CtrlOnly.bit_set (CtrlOnly.field_set (trigClear_ctrlOnly t v s) 2 1 _) 0 _

theorem trigArmed_modeStored (t v : Nat) (s : State) :
    trigArmed (setFld (trigClear t v s) (R.TIM_TRIG_CTRL t) 2 1 (bits v 2 1)) t = trigArmed s t :=
  (flag_setFld_above _ _ _ (by decide) (by decide) (by decide)).trans (trigArmed_trigClear t v s)

theorem trigArmed_ctrlStored (t v : Nat) (s : State) : trigArmed (ctrlStored t v s) t = trigArmed s t :=
  (flag_setFlag_above _ _ _ (by decide) (by decide)).trans (trigArmed_modeStored t v s)

/-- Bit 2 is the upper bit of the field 2:1. -/
theorem bit_two_eq (w : Nat) : bit w 2 = decide (bits w 2 1 / 2 = 1) := by
  rw [bit_eq_bits, bits, bits, decide_eq_decide]
  omega

/-- MODE as written. -/
theorem oneShot_ctrlStored (t v : Nat) (s : State) : trigOneShot (ctrlStored t v s) t = !bit v 2 := by
  have field : fld (setFld (trigClear t v s) (R.TIM_TRIG_CTRL t) 2 1 (bits v 2 1)) (R.TIM_TRIG_CTRL t) 2 1 = bits v 2 1 :=
    (fld_setFld_same _ _ _ _ _ (by decide) (by decide)).trans (bits_mod_of_lt v 2 1)
  rw [trigOneShot, ctrlStored, flag_setFlag_above _ _ _ (by decide) (by decide), flag, bit_two_eq, ← fld, field, ← bit_two_eq]

theorem trigHas_ctrlStored (t v : Nat) (s : State) (k : Nat) : trigHas (ctrlStored t v s) t k =
    if bit v 2 then decide (rd s (R.TIM_TRIG_COUNT t) = 0 ∨ k < rd s (R.TIM_TRIG_COUNT t)) else decide (k = 0) := by
  rw [trigHas, oneShot_ctrlStored, (ctrlStored_ctrlOnly t v s).count_eq]
  cases bit v 2 <;> rfl

theorem trigCtrlWrite_eq {v : Nat} (stores : trigArmed s t = false ∨ bit v 0 = false) : trigCtrlWrite t v s =
    if bit v 0 then (if trigArmed s t then ctrlStored t v s else trigArm t (ctrlStored t v s))
    else setTrig t { trigAt (ctrlStored t v s) t with pulseEnd := none } (trigDisarm t (ctrlStored t v s)) := by
  have stored : (trigArmed (trigClear t v s) t && bit v 0) = false := by
    rw [trigArmed_trigClear]
    rcases stores with idle | off
    · rw [idle, Bool.false_and]
    · rw [off, Bool.and_false]
  unfold trigCtrlWrite
  dsimp only
  rw [stored, if_neg Bool.false_ne_true, trigArmed_modeStored, ctrlStored]

theorem trigCtrlWrite_arm {v : Nat} (idle : trigArmed s t = false) (arm : bit v 0 = true) :
    trigCtrlWrite t v s = trigArm t (ctrlStored t v s) := by
  rw [trigCtrlWrite_eq (.inl idle), if_pos arm, if_neg (Bool.eq_false_iff.1 idle)]

theorem trigCtrlWrite_disarm {v : Nat} (off : bit v 0 = false) : trigCtrlWrite t v s =
    setTrig t { trigAt (ctrlStored t v s) t with pulseEnd := none } (trigDisarm t (ctrlStored t v s)) := by
  rw [trigCtrlWrite_eq (.inr off), if_neg (Bool.eq_false_iff.1 off)]

/-! ## Arming (R123, R124) -/

theorem trigArm_bad (bad : trigValid s t = false) :
    trigArm t s = raise { code := 0x38, unit := t } (setFlag s (R.TIM_TRIG_CTRL t) 7 true) := by
  unfold trigArm
  dsimp only
  rw [bad, Bool.not_false, if_pos rfl]

theorem trigArm_valid (plain : t ≠ 9) (valid : trigValid s t = true) : trigArm t s =
    if trigHas s t (trigNextAfter s t s.clock) then
      setTrig t { trigAt s t with next := trigNextAfter s t s.clock } (setFlag s (R.TIM_TRIG_CTRL t) 4 true)
    else if trigOneShot s t then setFlag s (R.TIM_TRIG_CTRL t) 5 true else s := by
  unfold trigArm
  dsimp only
  rw [valid, Bool.not_true, if_neg Bool.false_ne_true, if_neg plain]

/-- The value that a TRIGGER_ARM writes: ARM set, the rest as given. -/
theorem bit_arm (v : Nat) : bit (setBits v 0 0 1) 0 = true := by
  rw [bit_eq_bits, bits_setBits_same _ _ _ _ le_rfl]
  rfl

theorem bit_disarm (v : Nat) : bit (setBits v 0 0 0) 0 = false := by
  rw [bit_eq_bits, bits_setBits_same _ _ _ _ le_rfl]
  rfl

theorem mode_arm (v : Nat) : bit (setBits v 0 0 1) 2 = bit v 2 := by
  rw [bit_eq_bits, bits_setBits_above _ _ _ _ _ _ le_rfl (by decide), ← bit_eq_bits]

theorem exec_triggerArm {t : Fin 12} (v : Word) (run : running s = true) (idle : trigArmed s t.val = false) :
    exec (.triggerArm t v) s = .next (trigArm t.val (ctrlStored t.val (setBits v.toNat 0 0 1) s)) := by
  show execTriggerArm t v s = _
  rw [execTriggerArm, live_running run, trigCtrlWrite_arm idle (bit_arm _)]

theorem exec_triggerDisarm {t : Fin 12} (v : Word) (run : running s = true) : exec (.triggerDisarm t v) s =
    .next (setTrig t.val { trigAt (ctrlStored t.val (setBits v.toNat 0 0 0) s) t.val with pulseEnd := none }
      (trigDisarm t.val (ctrlStored t.val (setBits v.toNat 0 0 0) s))) := by
  show execTriggerDisarm t v s = _
  rw [execTriggerDisarm, live_running run, trigCtrlWrite_disarm (bit_disarm _)]

/-- A sound schedule with an instant to come: the trigger is armed at the first of them. -/
theorem triggerArm_arms {t : Fin 12} {v : Word} (run : running s = true) (plain : t.val ≠ 9) (idle : trigArmed s t.val = false)
    (valid : trigValid s t.val = true)
    (coming : if bit v.toNat 2 then rd s (R.TIM_TRIG_COUNT t.val) = 0 ∨
      trigNextAfter s t.val s.clock < rd s (R.TIM_TRIG_COUNT t.val) else s.clock < trigStart s t.val) :
    ∃ u, exec (.triggerArm t v) s = .next u ∧ trigArmed u t.val = true ∧
      s.clock < trigInstant s t.val (trigAt u t.val).next ∧ ∀ j < (trigAt u t.val).next, trigInstant s t.val j ≤ s.clock := by
  have only := ctrlStored_ctrlOnly t.val (setBits v.toNat 0 0 1) s
  have has : trigHas (ctrlStored t.val (setBits v.toNat 0 0 1) s) t.val (trigNextAfter s t.val s.clock) = true := by
    rw [trigHas_ctrlStored, mode_arm]
    split at coming
    · next series => rw [if_pos series, decide_eq_true coming]
    · next once => rw [if_neg once, trigNextAfter, if_pos coming]; rfl
  refine ⟨_, exec_triggerArm v run idle, ?_⟩
  rw [trigArm_valid plain ((only.valid_eq plain).trans valid), only.clock_eq, only.next_eq, if_pos has, trigAt_setTrig_same,
    trigArmed_setTrig, trigArmed_setArmed]
  exact ⟨rfl, trigNextAfter_first (trigPeriod_pos plain valid) s.clock⟩

/-- A one-shot whose instant is past is missed. -/
theorem triggerArm_misses {t : Fin 12} {v : Word} (run : running s = true) (plain : t.val ≠ 9) (idle : trigArmed s t.val = false)
    (valid : trigValid s t.val = true) (once : bit v.toNat 2 = false) (past : trigStart s t.val ≤ s.clock) :
    ∃ u, exec (.triggerArm t v) s = .next u ∧ trigArmed u t.val = false ∧ flag u (R.TIM_TRIG_CTRL t.val) 5 = true := by
  have only := ctrlStored_ctrlOnly t.val (setBits v.toNat 0 0 1) s
  have none_ : ¬ trigHas (ctrlStored t.val (setBits v.toNat 0 0 1) s) t.val (trigNextAfter s t.val s.clock) = true := by
    rw [trigHas_ctrlStored, mode_arm, once, if_neg Bool.false_ne_true, trigNextAfter, if_neg (Nat.not_lt.2 past),
      decide_eq_true_eq]
    exact Nat.succ_ne_zero _
  have shot : trigOneShot (ctrlStored t.val (setBits v.toNat 0 0 1) s) t.val = true := by
    rw [oneShot_ctrlStored, mode_arm, once, Bool.not_false]
  refine ⟨_, exec_triggerArm v run idle, ?_⟩
  rw [trigArm_valid plain ((only.valid_eq plain).trans valid), only.clock_eq, only.next_eq, if_neg none_, if_pos shot,
    trigArmed_setSticky _ _ _ (by decide) (by decide), trigArmed_ctrlStored]
  exact ⟨idle, flag_setFlag_same _ _ _ _ (by decide)⟩

/-- A schedule that breaks R123 is not armed. -/
theorem triggerArm_refuses {t : Fin 12} {v : Word} (run : running s = true) (plain : t.val ≠ 9) (idle : trigArmed s t.val = false)
    (bad : trigValid s t.val = false) :
    ∃ u, exec (.triggerArm t v) s = .next u ∧ trigArmed u t.val = false ∧ flag u (R.TIM_TRIG_CTRL t.val) 7 = true := by
  have only := ctrlStored_ctrlOnly t.val (setBits v.toNat 0 0 1) s
  have event := rd_raise { code := 0x38, unit := t.val } (show 0x38 < 256 by decide)
    (setFlag (ctrlStored t.val (setBits v.toNat 0 0 1) s) (R.TIM_TRIG_CTRL t.val) 7 true) (trigCtrl_plain t.isLt)
  refine ⟨_, exec_triggerArm v run idle, ?_⟩
  rw [trigArm_bad ((only.valid_eq plain).trans bad), trigArmed_of_rd_eq event, flag_of_rd_eq event,
    trigArmed_setSticky _ _ _ (by decide) (by decide), trigArmed_ctrlStored]
  exact ⟨idle, flag_setFlag_same _ _ _ _ (by decide)⟩

/-- ARM = 0 disarms at once and cuts a pulse short; no other trigger changes. -/
theorem triggerDisarm_disarms (t : Fin 12) (v : Word) (run : running s = true) :
    ∃ u, exec (.triggerDisarm t v) s = .next u ∧ trigArmed u t.val = false ∧ (trigAt u t.val).pulseEnd = none ∧
      ∀ j, j ≠ t.val → trigAt u j = trigAt s j := by
  have only : CtrlOnly t.val s (trigDisarm t.val (ctrlStored t.val (setBits v.toNat 0 0 0) s)) :=
    (ctrlStored_ctrlOnly t.val (setBits v.toNat 0 0 0) s).bit_set 4 false
  refine ⟨_, exec_triggerDisarm v run, ?_, ?_, fun j other => ?_⟩
  · rw [trigArmed_setTrig, trigDisarm, trigArmed_setArmed]
  · rw [trigAt_setTrig_same]
  · rw [trigAt_setTrig, if_neg other, only.trig_eq]

/-! ## Firing (R123) -/

theorem rd_waitClock (x : Nat) (s : State) (off : Nat) : rd (waitClock x s) off = rd s off := by rw [rd, waitClock_rest, rd]

/-- The instant of trigger t has come, and it has fired: its output is active and FIRED counts. -/
def trigFired (t : Nat) (s : State) : State := trigFires t (waitClock (trigInstant s t (trigAt s t).next) s)

/-- The trigger's next instant is that of index k. -/
def nextSet (t k : Nat) (s : State) : State := setTrig t { trigAt s t with next := k } s

theorem rd_nextSet (t k : Nat) (s : State) (off : Nat) : rd (nextSet t k s) off = rd s off := rd_setTrig t _ s off

theorem clock_nextSet (t k : Nat) (s : State) : (nextSet t k s).clock = s.clock := setTrig_clock t _ s

theorem pulseEnd_nextSet (t k : Nat) (s : State) : (trigAt (nextSet t k s) t).pulseEnd = (trigAt s t).pulseEnd := by
  rw [nextSet, trigAt_setTrig_same]

theorem trigReach_eq (t : Nat) (s : State) : trigReach t s =
    if trigHas (trigFired t s) t ((trigAt s t).next + 1) then nextSet t ((trigAt s t).next + 1) (trigFired t s)
    else trigDisarm t (trigFired t s) := rfl

theorem rd_trigFired (t : Nat) (s : State) (off : Nat) : rd (trigFired t s) off =
    if off = R.TIM_TRIG_FIRED t then (rd s (R.TIM_TRIG_FIRED t) + 1) % 2 ^ 32 else rd s off := by
  rw [trigFired, trigFires, rd_setTrig, rd_addReg, rd_waitClock, rd_waitClock]

theorem ctrl_trigFired (t : Nat) (s : State) : rd (trigFired t s) (R.TIM_TRIG_CTRL t) = rd s (R.TIM_TRIG_CTRL t) := by
  rw [rd_trigFired, if_neg (by simp [R.TIM_TRIG_CTRL, R.TIM_TRIG_FIRED])]

theorem count_trigFired (t : Nat) (s : State) : rd (trigFired t s) (R.TIM_TRIG_COUNT t) = rd s (R.TIM_TRIG_COUNT t) := by
  rw [rd_trigFired, if_neg (by simp [R.TIM_TRIG_COUNT, R.TIM_TRIG_FIRED])]

theorem trigHas_trigFired (t : Nat) (s : State) (k : Nat) : trigHas (trigFired t s) t k = trigHas s t k := by
  rw [trigHas, trigOneShot, flag_of_rd_eq (ctrl_trigFired t s), count_trigFired, ← trigOneShot, ← trigHas]

theorem clock_trigFired (t : Nat) (s : State) :
    (trigFired t s).clock = (waitClock (trigInstant s t (trigAt s t).next) s).clock := by
  rw [trigFired, trigFires, setTrig_clock, addReg_clock]

theorem pulse_trigFired (t : Nat) (s : State) :
    (trigAt (trigFired t s) t).pulseEnd = some ((trigFired t s).clock + trigWidth s t) := by
  rw [clock_trigFired, trigFired, trigFires, trigAt_setTrig_same, trigWidth, rd_waitClock, ← trigWidth]

/-- What a fire leaves, whether or not the series goes on. -/
theorem trigReach_fires (armed : trigArmed s t = true) :
    rd (trigReach t s) (R.TIM_TRIG_FIRED t) = (rd s (R.TIM_TRIG_FIRED t) + 1) % 2 ^ 32 ∧
      (trigReach t s).clock = (trigFired t s).clock ∧ (trigAt (trigReach t s) t).pulseEnd = (trigAt (trigFired t s) t).pulseEnd ∧
      trigArmed (trigReach t s) t = trigHas s t ((trigAt s t).next + 1) := by
  have fired : rd (trigFired t s) (R.TIM_TRIG_FIRED t) = (rd s (R.TIM_TRIG_FIRED t) + 1) % 2 ^ 32 := by
    rw [rd_trigFired, if_pos rfl]
  rw [trigReach_eq, trigHas_trigFired]
  split
  · next more =>
    rw [rd_nextSet, fired, clock_nextSet, pulseEnd_nextSet, trigArmed_of_rd_eq (rd_nextSet t _ _ _),
      trigArmed_of_rd_eq (ctrl_trigFired t s), armed, more]
    exact ⟨rfl, rfl, rfl, rfl⟩
  · next last =>
    have ctrl : CtrlOnly t (trigFired t s) (trigDisarm t (trigFired t s)) := CtrlOnly.bit_set (OnlyRegs.refl _) 4 false
    rw [ctrl.rd_eq (by simp [R.TIM_TRIG_CTRL, R.TIM_TRIG_FIRED]), ctrl.clock_eq, ctrl.trig_eq, trigDisarm, trigArmed_setArmed,
      Bool.eq_false_iff.2 last]
    exact ⟨fired, rfl, rfl, rfl⟩

/-- The meaning of a fire: the touch scan and the scheduled calibration need a device that runs. -/
theorem exec_triggerFire {t : Fin 12} (aon : aonRunning s = true) (plain : t.val ≠ 9) (armed : trigArmed s t.val = true)
    (awake : t.val < 9 ∨ running s = true) : exec (.triggerFire t) s =
      .next (if t.val = 10 then touchStart (trigReach t.val s) else if t.val = 11 then calSchedule (trigReach t.val s)
        else trigReach t.val s) := by
  have fires : ¬ (decide (t.val = 9) || !trigArmed s t.val || (decide (9 < t.val) && !running s)) = true := by
    rw [armed, decide_eq_false plain]
    rcases awake with low | run
    · rw [decide_eq_false (Nat.not_lt.2 low.le), Bool.false_and]
      decide
    · rw [run, Bool.not_true, Bool.and_false]
      decide
  show execTriggerFire t s = _
  rw [execTriggerFire, liveAon_running aon, if_neg fires]

/-- Settles O26, by the answers to an arming, the fire of an armed trigger, and the end of its pulse. -/
theorem triggersFollowSchedule : Obligations.TriggersFollowSchedule := by
  unfold Obligations.TriggersFollowSchedule
  refine ⟨fun t v s run plain idle => ⟨fun valid coming => triggerArm_arms run plain idle valid coming,
      fun valid once past => triggerArm_misses run plain idle valid once past, fun bad => triggerArm_refuses run plain idle bad⟩,
    fun t v s run => triggerDisarm_disarms t v run, fun t s aon low armed => ?_,
    fun s run => ⟨fun armed => ?_, fun armed => ?_⟩, fun t e s aon pulse => ?_⟩
  · obtain ⟨fired, clock, pulse, next⟩ := trigReach_fires armed
    have fire := exec_triggerFire aon (by omega) armed (.inl low)
    rw [if_neg (by omega), if_neg (by omega)] at fire
    refine ⟨_, fire, fired, fun moves => ?_, pulse.trans ?_, next⟩
    · rw [clock, clock_trigFired]
      exact le_clock_waitClock (.inl moves)
    · rw [pulse_trigFired, clock]
  · exact (exec_triggerFire (t := 10) (aonRunning_of_running run) (by decide) armed (.inr run)).trans
      (congrArg Host.Outcome.next (if_pos rfl))
  · exact (exec_triggerFire (t := 11) (aonRunning_of_running run) (by decide) armed (.inr run)).trans
      (congrArg Host.Outcome.next ((if_neg (by decide)).trans (if_pos rfl)))
  · refine ⟨setTrig t.val { trigAt (waitClock e s) t.val with pulseEnd := none } (waitClock e s), ?_, ?_, fun moves => ?_⟩
    · show execTriggerPulseEnd t s = _
      rw [execTriggerPulseEnd, liveAon_running aon, pulse]
    · rw [trigAt_setTrig_same]
    · rw [setTrig_clock]
      exact le_clock_waitClock (.inl moves)

end Sys2Proof.Machine
end

section
/-!
PROOFS. The slots of the sheaf unit: a slot's state and submitted fields, what SHF_GEN's count and the result shown in
SHF_LAST leave of it, and what the end of a sheaf does with its slot and its command (R131, R138 to R141).
-/

namespace Sys2Proof.Machine

variable {s t : State}

/-! ## A slot's state -/

theorem shfState_of_rd_eq {k : Nat} (h : rd t (R.SHF_SLOT_STATE k) = rd s (R.SHF_SLOT_STATE k)) : shfState t k = shfState s k :=
  fld_of_rd_eq h 1 0

theorem shfState_setShfState (k : Nat) {v : Nat} (hv : v < 4) (s : State) : shfState (setShfState k v s) k = v :=
  (fld_setFld_same s _ 1 0 v (by decide) (by decide)).trans (Nat.mod_eq_of_lt hv)

/-- The sheaf unit's other registers stand below the slots'. -/
theorem ne_slotState_of_lt {off : Nat} (h : off < 0x70100) (k : Nat) : R.SHF_SLOT_STATE k ≠ off := by
  rw [R.SHF_SLOT_STATE]
  omega

theorem rd_setShfState_other {k off : Nat} (v : Nat) (s : State) (h : off ≠ R.SHF_SLOT_STATE k) :
    rd (setShfState k v s) off = rd s off := rd_setFld_other s 1 0 v h

/-! ## A slot's submitted fields (R131, R132) -/

/-- The submitted fields of a slot are written: COUNT with MODE, CRC, and TARGET. -/
def slotSet (k count crc target : Nat) (s : State) : State :=
  wr64 (wr (wr s (R.SHF_SLOT_COUNT k) count) (R.SHF_SLOT_CRC k) crc) (R.SHF_SLOT_TARGET_LO k) (R.SHF_SLOT_TARGET_HI k) target

/-- The registers of a slot that an OPEN and a submission write. -/
def slotReg (k off : Nat) : Bool :=
  [R.SHF_SLOT_STATE k, R.SHF_SLOT_COUNT k, R.SHF_SLOT_CRC k, R.SHF_SLOT_TARGET_LO k, R.SHF_SLOT_TARGET_HI k].contains off

theorem slotReg_low {off : Nat} (h : off < 0x70100) (k : Nat) : slotReg k off = false := by
  have apart : off ≠ R.SHF_SLOT_STATE k ∧ off ≠ R.SHF_SLOT_COUNT k ∧ off ≠ R.SHF_SLOT_CRC k ∧
      off ≠ R.SHF_SLOT_TARGET_LO k ∧ off ≠ R.SHF_SLOT_TARGET_HI k := by
    rw [R.SHF_SLOT_STATE, R.SHF_SLOT_COUNT, R.SHF_SLOT_CRC, R.SHF_SLOT_TARGET_LO, R.SHF_SLOT_TARGET_HI]
    omega
  simpa [slotReg] using apart

/-- A slot takes a state and submitted fields. -/
theorem slotSet_slot (k count crc target state : Nat) (s : State) :
    OnlyRegs (slotReg k) s (setShfState k state (slotSet k count crc target s)) := by
  have fields := ((OnlyRegs.refl s).wr (R.SHF_SLOT_COUNT k) count (by simp [slotReg])).wr (p := slotReg k)
    (R.SHF_SLOT_CRC k) crc (by simp [slotReg])
  exact (fields.wr64 _ _ target (by simp [slotReg]) (by simp [slotReg])).setFld _ 1 0 state (by simp [slotReg])

theorem rd_slotSet_count (k count crc target state : Nat) (s : State) :
    rd (setShfState k state (slotSet k count crc target s)) (R.SHF_SLOT_COUNT k) = count % 2 ^ 32 := by
  rw [rd_setShfState_other _ _ (by simp [R.SHF_SLOT_COUNT, R.SHF_SLOT_STATE]), slotSet, rd_wr64,
    if_neg (by simp [R.SHF_SLOT_COUNT, R.SHF_SLOT_TARGET_HI]), if_neg (by simp [R.SHF_SLOT_COUNT, R.SHF_SLOT_TARGET_LO]),
    rd_wr_other _ _ (by simp [R.SHF_SLOT_COUNT, R.SHF_SLOT_CRC]), rd_wr_same]

theorem rd_slotSet_crc (k count crc target state : Nat) (s : State) :
    rd (setShfState k state (slotSet k count crc target s)) (R.SHF_SLOT_CRC k) = crc % 2 ^ 32 := by
  rw [rd_setShfState_other _ _ (by simp [R.SHF_SLOT_CRC, R.SHF_SLOT_STATE]), slotSet, rd_wr64,
    if_neg (by simp [R.SHF_SLOT_CRC, R.SHF_SLOT_TARGET_HI]), if_neg (by simp [R.SHF_SLOT_CRC, R.SHF_SLOT_TARGET_LO]),
    rd_wr_same]

theorem shfTarget_slotSet (k count crc target state : Nat) (s : State) :
    shfTarget (setShfState k state (slotSet k count crc target s)) k = target % 2 ^ 64 := by
  have lo : R.SHF_SLOT_TARGET_LO k ≠ R.SHF_SLOT_STATE k := by simp [R.SHF_SLOT_TARGET_LO, R.SHF_SLOT_STATE]
  have hi : R.SHF_SLOT_TARGET_HI k ≠ R.SHF_SLOT_STATE k := by simp [R.SHF_SLOT_TARGET_HI, R.SHF_SLOT_STATE]
  rw [shfTarget, rd64, rd_setShfState_other _ _ lo, rd_setShfState_other _ _ hi, ← rd64]
  exact rd64_wr64 _ target (by simp [R.SHF_SLOT_TARGET_LO, R.SHF_SLOT_TARGET_HI])

/-! ## What a change of registers leaves of the commands in flight -/

section onlyRegs

variable {p : Nat → Bool} (h : OnlyRegs p s t)
include h

theorem OnlyRegs.findCmd_eq (tag : Nat) : findCmd t tag = findCmd s tag := by rw [h.rest, findCmd, findCmd]

theorem OnlyRegs.tickNow_eq : tickNow t = tickNow s := by rw [h.rest, tickNow, tickNow]

theorem OnlyRegs.shf_eq : t.shf = s.shf := by rw [h.rest]

end onlyRegs

theorem findCmd_finishNow {c : Cmd} {tag : Nat} (found : findCmd s tag = some c) (status r0 r1 r2 : Nat) :
    findCmd (finishNow tag status r0 r1 r2 s) tag = some { c with phase := .due status r0 r1 r2 (some (tickNow s)) } :=
  findCmd_updCmd (by exact fun _ => rfl) found

theorem rd_finishNow (tag status r0 r1 r2 : Nat) (s : State) (off : Nat) :
    rd (finishNow tag status r0 r1 r2 s) off = rd s off := rfl

theorem shf_finishNow (tag status r0 r1 r2 : Nat) (s : State) : (finishNow tag status r0 r1 r2 s).shf = s.shf := rfl

/-! ## SHF_GEN (R138) -/

/-- The registers that a count of SHF_GEN may change: itself and the states of the slots. -/
def genReg (off : Nat) : Bool := (R.SHF_GEN :: (List.range 8).map R.SHF_SLOT_STATE).contains off

theorem genReg_slotState {k : Nat} (hk : k ∈ List.range 8) : genReg (R.SHF_SLOT_STATE k) = true :=
  List.contains_iff_mem.2 (.tail _ (List.mem_map_of_mem hk))

theorem genStep_gen (s : State) : OnlyRegs genReg s (genStep s) :=
  OnlyRegs.foldl _ ((OnlyRegs.refl s).addReg R.SHF_GEN 1 (by decide)) fun _ _ hk ht =>
    (ht.setFld _ 1 0 2 (genReg_slotState hk)).ite ht

/-- A slot that is not PENDING keeps its state. -/
theorem shfState_genStep {k : Nat} (settled : shfState s k ≠ 3) : shfState (genStep s) k = shfState s k := by
  refine List.foldlRecOn (motive := fun t => shfState t k = shfState s k) (List.range 8) _ ?_ fun t kept j _ => ?_
  · exact fld_wr_other s _ 1 0 (ne_slotState_of_lt (by decide) k)
  · split
    · next pending =>
      have other : R.SHF_SLOT_STATE k ≠ R.SHF_SLOT_STATE j := fun same => settled (by
        rw [← kept, shfState, same, pending])
      exact (fld_setFld_other t 1 0 2 1 0 other).trans kept
    · exact kept

/-! ## The result shown (R141) -/

/-- The registers that show how the last sheaf ended. -/
def lastReg (off : Nat) : Bool := [R.SHF_LAST, R.SHF_LAST_DETAIL, R.SHF_REJECT_COUNT].contains off

theorem lastReg_high {off : Nat} (h : 0x70100 ≤ off) : lastReg off = false := by
  have apart : off ≠ R.SHF_LAST ∧ off ≠ R.SHF_LAST_DETAIL ∧ off ≠ R.SHF_REJECT_COUNT := by
    rw [R.SHF_LAST, R.SHF_LAST_DETAIL, R.SHF_REJECT_COUNT]
    omega
  simpa [lastReg] using apart

theorem lastReg_slotState (k : Nat) : lastReg (R.SHF_SLOT_STATE k) = false :=
  lastReg_high (by rw [R.SHF_SLOT_STATE]; omega)

theorem sheafLast_last (k reason entry detail : Nat) (s : State) : OnlyRegs lastReg s (sheafLast k reason entry detail s) := by
  have shown := ((OnlyRegs.refl s).wr R.SHF_LAST (2 ^ 31 + k * 2 ^ 28 + reason * 2 ^ 16 + entry) (by decide)).wr
    (p := lastReg) R.SHF_LAST_DETAIL detail (by decide)
  exact shown.ite (shown.addReg R.SHF_REJECT_COUNT 1 (by decide))

theorem shfState_sheafLast (k reason entry detail : Nat) (s : State) (j : Nat) :
    shfState (sheafLast k reason entry detail s) j = shfState s j :=
  shfState_of_rd_eq ((sheafLast_last k reason entry detail s).regs _ (lastReg_slotState j))

/-- A cancelled sheaf is shown and not counted. -/
theorem sheafLast_cancelled (k entry detail : Nat) (s : State) : sheafLast k 20 entry detail s =
    wr (wr s R.SHF_LAST (2 ^ 31 + k * 2 ^ 28 + 20 * 2 ^ 16 + entry)) R.SHF_LAST_DETAIL detail := by
  rw [sheafLast, if_pos (.inr rfl)]

/-! ## The end of a sheaf (R138, R139) -/

theorem shfState_sheafLeave (k : Nat) (s : State) : shfState (sheafLeave k s) k = 0 := shfState_setShfState k (by decide) _

/-- A slot's sheaf has ended with a reason, and SHF_GEN has still to count it. -/
def sheafEnded (k reason entry detail : Nat) (s : State) : State :=
  finishNow (smGet (fun _ => 0) s.shf.tags k) stRejected (reason * 2 ^ 16 + entry) detail 0
    (sheafLast k reason entry detail (sheafLeave k s))

variable {k reason entry detail : Nat}

theorem sheafReject_eq : sheafReject k reason entry detail s =
    if decide (shfState s k = 3) then genStep (sheafEnded k reason entry detail s)
    else sheafEnded k reason entry detail s := rfl

theorem sheafReject_gen (k reason entry detail : Nat) (s : State) :
    OnlyRegs genReg (sheafEnded k reason entry detail s) (sheafReject k reason entry detail s) :=
  (genStep_gen _).ite (OnlyRegs.refl _)

theorem rd_sheafEnded (k reason entry detail : Nat) (s : State) (off : Nat) : rd (sheafEnded k reason entry detail s) off =
    rd (sheafLast k reason entry detail (sheafLeave k s)) off := rfl

theorem shfState_sheafEnded (k reason entry detail : Nat) (s : State) : shfState (sheafEnded k reason entry detail s) k = 0 :=
  (shfState_of_rd_eq (rd_sheafEnded ..)).trans
    ((shfState_sheafLast k reason entry detail (sheafLeave k s) k).trans (shfState_sheafLeave k s))

theorem shfState_sheafReject (k reason entry detail : Nat) (s : State) :
    shfState (sheafReject k reason entry detail s) k = 0 := by
  rw [sheafReject_eq]
  split
  · rw [shfState_genStep (by rw [shfState_sheafEnded]; decide), shfState_sheafEnded]
  · exact shfState_sheafEnded ..

/-- No sheaf of the slot is left in the order of submission. -/
theorem order_sheafReject (k reason entry detail : Nat) (s : State) :
    k ∉ (sheafReject k reason entry detail s).shf.order := by
  have order : (sheafEnded k reason entry detail s).shf.order = s.shf.order.filter (fun j => decide (j ≠ k)) :=
    congrArg ShfSt.order (sheafLast_last k reason entry detail (sheafLeave k s)).shf_eq
  rw [(sheafReject_gen k reason entry detail s).shf_eq, order]
  simp

/-- The command that submitted the sheaf completes REJECTED with the reason, the entry and the detail. -/
theorem findCmd_sheafReject {c : Cmd} (reason entry detail : Nat)
    (found : findCmd s (smGet (fun _ => 0) s.shf.tags k) = some c) :
    findCmd (sheafReject k reason entry detail s) (smGet (fun _ => 0) s.shf.tags k) =
      some { c with phase := .due stRejected (reason * 2 ^ 16 + entry) detail 0 (some (tickNow s)) } := by
  have shown := sheafLast_last k reason entry detail (sheafLeave k s)
  have now : tickNow (sheafLast k reason entry detail (sheafLeave k s)) = tickNow s := shown.tickNow_eq
  rw [(sheafReject_gen k reason entry detail s).findCmd_eq, ← now]
  exact findCmd_finishNow ((shown.findCmd_eq _).trans found) ..

end Sys2Proof.Machine
end

section
/-!
PROOFS. Sheaf slots open, take entries and are cancelled (R131, R139, R141).
-/

namespace Sys2Proof.Machine

variable {s : State}

/-! ## OPEN -/

theorem sheafOpen_empty {k : Nat} (empty : shfState s k = 0) : sheafOpen k s = setShfState k 1 (slotSet k 0 0 0 s) :=
  if_neg (not_not.2 empty)

/-! ## Entries -/

theorem length_leBytes (n v : Nat) : (leBytes n v).length = n := by
  induction n generalizing v with
  | zero => rfl
  | succ n ih => rw [leBytes, List.length_cons, ih]

theorem ofLe_leBytes (n v : Nat) : ofLe (leBytes n v) = v % 256 ^ n := by
  induction n generalizing v with
  | zero => rw [leBytes, ofLe, pow_zero, Nat.mod_one]
  | succ n ih => rw [leBytes, ofLe, ih, BitVec.toNat_ofNat, Nat.pow_succ' (n := n), Nat.mod_mul]

/-- A Granary word written reads back. -/
theorem gRead32_gWrite (s : State) (a : Nat) {v : Nat} (hv : v < 2 ^ 32) : gRead32 (gWrite s a (leBytes 4 v)) a = v := by
  have bytes : gRead (gWrite s a (leBytes 4 v)) a 4 = leBytes 4 v := by
    have written := smGetRange_smSetRange_same zeroByte s.granary a (leBytes 4 v)
    rwa [length_leBytes] at written
  rw [gRead32, bytes, ofLe_leBytes]
  exact Nat.mod_eq_of_lt hv

/-- A byte beside those written reads as before. -/
theorem gRead_gWrite_other (s : State) {a b : Nat} (bs : List Byte) (h : b < a ∨ a + bs.length ≤ b) :
    gRead (gWrite s a bs) b 1 = gRead s b 1 :=
  congrArg (· :: []) (smGet_smSetRange_other zeroByte bs s.granary a h)

theorem shfWrite_staging {k : Nat} (staging : shfState s k = 1) (ready : flag s R.GRN_STATUS 0 = true) (a : Nat)
    (bs : List Byte) : shfWrite k a bs s = gWrite s a bs := by
  rw [shfWrite, if_pos staging, if_pos ready]

theorem shfWrite_empty {k : Nat} (empty : shfState s k = 0) (a : Nat) (bs : List Byte) : shfWrite k a bs s = s := by
  rw [shfWrite, if_neg (by omega), if_pos empty]

theorem shfWrite_submitted {k : Nat} (submitted : 2 ≤ shfState s k) (a : Nat) (bs : List Byte) :
    EventsOnly s (shfWrite k a bs s) := by
  rw [shfWrite, if_neg (by omega), if_neg (by omega)]
  exact raiseOnce_events _ _ (by decide : (0x40 : Nat) < 256) s

/-! ## CANCEL -/

theorem sheafCancel_staging {k : Nat} (staging : shfState s k = 1) : sheafCancel k s = setShfState k 0 s := if_pos staging

theorem sheafCancel_empty {k : Nat} (empty : shfState s k = 0) : sheafCancel k s = s := by
  rw [sheafCancel, if_neg (by omega), if_pos empty]

theorem sheafCancel_submitted {k : Nat} (submitted : 2 ≤ shfState s k) : sheafCancel k s = sheafReject k 20 0xFFFF 0 s := by
  rw [sheafCancel, if_neg (by omega), if_neg (by omega)]

/-- What a cancelled sheaf shows. -/
theorem sheafReject_cancelled {k : Nat} (hk : k < 8) (s : State) :
    rd (sheafReject k 20 0xFFFF 0 s) R.SHF_LAST = 2 ^ 31 + k * 2 ^ 28 + 20 * 2 ^ 16 + 0xFFFF ∧
      rd (sheafReject k 20 0xFFFF 0 s) R.SHF_LAST_DETAIL = 0 ∧
      rd (sheafReject k 20 0xFFFF 0 s) R.SHF_REJECT_COUNT = rd s R.SHF_REJECT_COUNT := by
  have counted : ∀ off, genReg off = false → rd (sheafReject k 20 0xFFFF 0 s) off =
      rd (wr (wr (sheafLeave k s) R.SHF_LAST (2 ^ 31 + k * 2 ^ 28 + 20 * 2 ^ 16 + 0xFFFF)) R.SHF_LAST_DETAIL 0) off := by
    intro off h
    rw [← sheafLast_cancelled, ← rd_sheafEnded]
    exact (sheafReject_gen k 20 0xFFFF 0 s).regs off h
  refine ⟨(counted _ (by decide)).trans ?_, (counted _ (by decide)).trans (rd_wr_same ..), (counted _ (by decide)).trans ?_⟩
  · rw [rd_wr_other _ _ (by decide), rd_wr_same_of_lt _ _ (by omega)]
  · rw [rd_wr_other _ _ (by decide), rd_wr_other _ _ (by decide)]
    exact rd_setShfState_other 0 _ (ne_slotState_of_lt (by decide) k).symm

/-- Settles O31, by the state that the slot is in. -/
theorem sheafSlotsOpenWriteCancel : Obligations.SheafSlotsOpenWriteCancel := by
  unfold Obligations.SheafSlotsOpenWriteCancel
  intro k s run
  have opened : exec (.sheafSlotOpen k) s = .next (sheafOpen k.val s) := live_running run _
  have wrote : ∀ w v, exec (.sheafSlotEntryWrite k w v) s =
      .next (shfWrite k.val (shfBase k.val + 4 * w.val) (leBytes 4 v.toNat) s) := fun w v => live_running run _
  have cancelled : exec (.sheafCancel k) s = .next (sheafCancel k.val s) := live_running run _
  refine ⟨fun empty => ?_, fun taken => ?_, fun w v => ⟨fun staging ready => ?_, fun empty => ?_, fun submitted => ?_⟩,
    fun empty => ?_, fun staging => ?_, fun submitted => ?_⟩
  · exact ⟨_, opened.trans (congrArg Host.Outcome.next (sheafOpen_empty empty)), shfState_setShfState k.val (by decide) _,
      rd_slotSet_count .., rd_slotSet_crc .., shfTarget_slotSet .., rfl, slotSet_slot ..⟩
  · exact opened.trans (congrArg Host.Outcome.next (if_pos taken))
  · refine ⟨_, (wrote w v).trans (congrArg Host.Outcome.next (shfWrite_staging staging ready _ _)),
      gRead32_gWrite s _ v.isLt, rfl, fun a outside => gRead_gWrite_other s _ ?_⟩
    rwa [length_leBytes]
  · exact (wrote w v).trans (congrArg Host.Outcome.next (shfWrite_empty empty _ _))
  · exact ⟨_, wrote w v, shfWrite_submitted submitted _ _⟩
  · exact cancelled.trans (congrArg Host.Outcome.next (sheafCancel_empty empty))
  · exact ⟨_, cancelled.trans (congrArg Host.Outcome.next (sheafCancel_staging staging)),
      shfState_setShfState k.val (by decide) s, (OnlyRegs.refl s).setFld _ 1 0 0 (decide_eq_true rfl)⟩
  · obtain ⟨last, detail, rejects⟩ := sheafReject_cancelled k.isLt s
    exact ⟨_, cancelled.trans (congrArg Host.Outcome.next (sheafCancel_submitted submitted)), shfState_sheafReject ..,
      order_sheafReject _ _ _ _ _, last, detail, rejects, fun c found => findCmd_sheafReject 20 0xFFFF 0 found⟩

end Sys2Proof.Machine
end

section
/-!
PROOFS. A sheaf is submitted, and the checker makes it PENDING or rejects it (R132, R135, R140).
-/

namespace Sys2Proof.Machine

variable {s t : State}

/-! ## SUBMIT (R132, R135) -/

/-- The slot that a SHEAF_SUBMIT names, its entry count and its target tick. -/
abbrev Cmd.slot (c : Cmd) : Nat := bits (c.w 2) 2 0
abbrev Cmd.entries (c : Cmd) : Nat := bits (c.w 3) 12 0
abbrev Cmd.target (c : Cmd) : Nat := c.w 4 + 2 ^ 32 * c.w 5

theorem Cmd.target_lt (c : Cmd) : c.target < 2 ^ 64 := by
  have lo := c.w_lt 4
  have hi := c.w_lt 5
  unfold Cmd.target
  omega

theorem Cmd.target_low (c : Cmd) : c.target % 2 ^ 32 = c.w 4 := by
  rw [Cmd.target, Nat.add_mul_mod_self_left, Nat.mod_eq_of_lt (c.w_lt 4)]

/-- A slot's submitted fields as a submission gives them. -/
def slotFilled (c : Cmd) (s : State) : State :=
  slotSet c.slot (bits (c.w 2) 8 8 * 2 ^ 16 + c.entries) (c.w 6) c.target s

/-- A submission takes its place behind those before it. -/
def slotQueue (c : Cmd) (s : State) : State :=
  { s with shf := { s.shf with order := s.shf.order ++ [c.slot], tags := smSet (fun _ => 0) s.shf.tags c.slot c.tag } }

/-- A submission in CHECKING, with its command waiting. -/
def sheafQueued (c : Cmd) (s : State) : State := waitCmd c.tag [] (setShfState c.slot 2 (slotQueue c (slotFilled c s)))

theorem regs_setShfState_slotQueue (k v : Nat) (c : Cmd) (s : State) :
    (setShfState k v (slotQueue c s)).regs = (setShfState k v s).regs := rfl

theorem rd_sheafQueued (c : Cmd) (s : State) (off : Nat) :
    rd (sheafQueued c s) off = rd (setShfState c.slot 2 (slotFilled c s)) off := by
  rw [sheafQueued, rd_waitCmd, rd, regs_setShfState_slotQueue, ← rd]

theorem rd_sheafQueued_low (c : Cmd) (s : State) {off : Nat} (h : off < 0x70100) : rd (sheafQueued c s) off = rd s off :=
  (rd_sheafQueued c s off).trans ((slotSet_slot ..).regs off (slotReg_low h c.slot))

theorem shfState_sheafQueued (c : Cmd) (s : State) : shfState (sheafQueued c s) c.slot = 2 :=
  (shfState_of_rd_eq (rd_sheafQueued c s _)).trans (shfState_setShfState c.slot (by decide) _)

theorem shfTarget_sheafQueued (c : Cmd) (s : State) : shfTarget (sheafQueued c s) c.slot = c.target := by
  rw [shfTarget, rd64, rd_sheafQueued, rd_sheafQueued, ← rd64, ← shfTarget, slotFilled, shfTarget_slotSet,
    Nat.mod_eq_of_lt c.target_lt]

theorem tickRun_sheafQueued (c : Cmd) (s : State) : tickRun (sheafQueued c s) = tickRun s :=
  flag_of_rd_eq (rd_sheafQueued_low c s (by decide)) 0

/-- The timebase stands in registers below the slots'. -/
theorem tickInstant_of_low (low : ∀ off < 0x70100, rd t off = rd s off) (n : Nat) : tickInstant t n = tickInstant s n := by
  rw [tickInstant, tickPhase, tickNum, tickDen, fld_of_rd_eq (low _ (by decide)), low _ (by decide), low _ (by decide),
    fld_of_rd_eq (low _ (by decide)), ← tickPhase, ← tickNum, ← tickDen, ← tickInstant]

theorem tickInstant_sheafQueued (c : Cmd) (s : State) (n : Nat) : tickInstant (sheafQueued c s) n = tickInstant s n :=
  tickInstant_of_low (fun _ h => rd_sheafQueued_low c s h) n

theorem clock_sheafQueued (c : Cmd) (s : State) : (sheafQueued c s).clock = s.clock := by
  simp [sheafQueued, waitCmd, setShfState, slotQueue, slotFilled, slotSet]

theorem tickNow_sheafQueued (c : Cmd) (s : State) : tickNow (sheafQueued c s) = tickNow s := by
  simp [tickNow, sheafQueued, waitCmd, setShfState, slotQueue, slotFilled, slotSet]

theorem shf_sheafQueued (c : Cmd) (s : State) : (sheafQueued c s).shf = { s.shf with
    order := s.shf.order ++ [c.slot], tags := smSet (fun _ => 0) s.shf.tags c.slot c.tag } := by
  simp [sheafQueued, waitCmd, setShfState, slotQueue, slotFilled, slotSet]

theorem findCmd_sheafQueued {c : Cmd} {tag : Nat} (found : findCmd s tag = some c) :
    findCmd (sheafQueued c s) tag = some { c with phase := .waiting, aux := [] } :=
  findCmd_waitCmd found (CmdsKept.of_eq (by simp [setShfState, slotQueue, slotFilled, slotSet])) []

theorem tags_sheafQueued (c : Cmd) (s : State) : smGet (fun _ => 0) (sheafQueued c s).shf.tags c.slot = c.tag := by
  rw [shf_sheafQueued, smGet_smSet_same]

theorem sheafSubmit_refused {c : Cmd} (refused : shfState s c.slot ≠ 1 ∨ c.entries = 0 ∨ 4096 < c.entries) :
    sheafSubmit c s = finishNow c.tag stRejected (19 * 2 ^ 16 + 0xFFFF) (shfState s c.slot) 0
      (sheafLast c.slot 19 0xFFFF (shfState s c.slot) s) := if_pos refused

/-- The command of a sheaf that is refused completes at once with the slot's state. -/
theorem findCmd_sheafRefused {c : Cmd} {tag : Nat} (found : findCmd s tag = some c) (state : Nat) :
    findCmd (finishNow c.tag stRejected (19 * 2 ^ 16 + 0xFFFF) state 0 (sheafLast c.slot 19 0xFFFF state s)) tag =
      some { c with phase := .due stRejected (19 * 2 ^ 16 + 0xFFFF) state 0 (some (tickNow s)) } := by
  have shown := sheafLast_last c.slot 19 0xFFFF state s
  obtain rfl := tag_of_findCmd found
  rw [← shown.tickNow_eq]
  exact findCmd_finishNow ((shown.findCmd_eq _).trans found) ..

theorem sheafSubmit_taken {c : Cmd} (staging : shfState s c.slot = 1) (filled : c.entries ≠ 0) (fits : c.entries ≤ 4096) :
    sheafSubmit c s = if bits (c.w 2) 8 8 = 0 ∧ tickRun (sheafQueued c s) ∧
        tickInstant (sheafQueued c s) c.target ≤ (sheafQueued c s).clock then
      sheafReject c.slot 18 0xFFFF (c.target % 2 ^ 32) (sheafQueued c s) else sheafQueued c s :=
  if_neg (show ¬ (shfState s c.slot ≠ 1 ∨ c.entries = 0 ∨ 4096 < c.entries) by omega)

theorem sheafSubmit_queued {c : Cmd} (staging : shfState s c.slot = 1) (filled : c.entries ≠ 0) (fits : c.entries ≤ 4096)
    (ahead : bits (c.w 2) 8 8 ≠ 0 ∨ tickRun s = false ∨ s.clock < tickInstant s c.target) :
    sheafSubmit c s = sheafQueued c s := by
  rw [sheafSubmit_taken staging filled fits, tickRun_sheafQueued, tickInstant_sheafQueued,
    clock_sheafQueued, if_neg]
  rintro ⟨exactly, ticking, passed⟩
  rcases ahead with notBefore | stopped | coming
  · exact notBefore exactly
  · exact absurd ticking (Bool.eq_false_iff.1 stopped)
  · exact Nat.not_lt.2 passed coming

theorem sheafSubmit_missed {c : Cmd} (staging : shfState s c.slot = 1) (filled : c.entries ≠ 0) (fits : c.entries ≤ 4096)
    (exactly : bits (c.w 2) 8 8 = 0) (ticking : tickRun s = true) (passed : tickInstant s c.target ≤ s.clock) :
    sheafSubmit c s = sheafReject c.slot 18 0xFFFF (c.w 4) (sheafQueued c s) := by
  rw [sheafSubmit_taken staging filled fits, tickRun_sheafQueued, tickInstant_sheafQueued,
    clock_sheafQueued, if_pos ⟨exactly, ticking, passed⟩, c.target_low]

/-- The command of a sheaf that came too late completes with MISSED_TICK. -/
theorem findCmd_sheafMissed {c : Cmd} {tag : Nat} (found : findCmd s tag = some c) :
    findCmd (sheafReject c.slot 18 0xFFFF (c.w 4) (sheafQueued c s)) tag = some { c with
      aux := [], phase := .due stRejected (18 * 2 ^ 16 + 0xFFFF) (c.w 4) 0 (some (tickNow s)) } := by
  have waits := findCmd_sheafQueued found
  obtain rfl := tag_of_findCmd found
  rw [← tags_sheafQueued c s] at waits ⊢
  rw [← tickNow_sheafQueued c s]
  exact findCmd_sheafReject 18 0xFFFF (c.w 4) waits

/-- SHEAF_SUBMIT of a command that may execute. -/
theorem exec_sheafSubmit {tag : Fin 4096} {c : Cmd} (run : running s = true) (found : findCmd s tag.val = some c)
    (op : c.opcode = 0x20) (may : mayExecute s.rng.cmds c = true) : exec (.sheafSubmit tag) s = .next (sheafSubmit c s) := by
  show execSheafSubmit tag s = _
  rw [execSheafSubmit, live_running run, onCmd_started found may op]

/-! ## The checker (R132, R140) -/

/-- A slot whose sheaf has passed the check. -/
def sheafPending (k : Nat) (vals : List (Nat × Nat)) (s : State) : State :=
  setShfState k 3 { s with shf := { s.shf with
    checkedAt := smSet (fun _ => none) s.shf.checkedAt k (some s.updates), vals := smSet (fun _ => []) s.shf.vals k vals } }

theorem shfState_sheafPending (k : Nat) (vals : List (Nat × Nat)) (s : State) : shfState (sheafPending k vals s) k = 3 :=
  shfState_setShfState k (by decide) _

theorem vals_sheafPending (k : Nat) (vals : List (Nat × Nat)) (s : State) :
    smGet (fun _ => []) (sheafPending k vals s).shf.vals k = vals := smGet_smSet_same (fun _ => []) s.shf.vals k vals

theorem checkedAt_sheafPending (k : Nat) (vals : List (Nat × Nat)) (s : State) :
    smGet (fun _ => none) (sheafPending k vals s).shf.checkedAt k = some s.updates :=
  smGet_smSet_same (fun _ => none) s.shf.checkedAt k (some s.updates)

section first

variable {k : Nat} (first : s.shf.order.find? (fun j => decide (shfState s j = 2)) = some k)
include first

theorem sheafCheckDone_passes {vals : List (Nat × Nat)} (ok : sheafCheck s k = .ok vals) :
    sheafCheckDone s = sheafPending k vals s := by
  unfold sheafCheckDone
  rw [first]
  dsimp only
  rw [ok]
  rfl

theorem sheafCheckDone_fails {r i d : Nat} (error : sheafCheck s k = .error (r, i, d)) :
    sheafCheckDone s = sheafReject k r i d (granaryMet (shfBase k) (16 * shfCount s k) s) := by
  unfold sheafCheckDone
  rw [first]
  dsimp only
  rw [error]

end first

/-- The uncorrectable words that the checker meets leave the submitted sheaves and the commands in flight. -/
theorem findCmd_sheafReject_granaryMet {k : Nat} {c : Cmd} (r i d x n : Nat)
    (found : findCmd s (smGet (fun _ => 0) s.shf.tags k) = some c) :
    findCmd (sheafReject k r i d (granaryMet x n s)) (smGet (fun _ => 0) s.shf.tags k) =
      some { c with phase := .due stRejected (r * 2 ^ 16 + i) d 0 (some (tickNow s)) } := by
  have met := granaryMet_access x n (AccessOnly.refl s)
  have tags : s.shf.tags = (granaryMet x n s).shf.tags := by rw [met.rest]
  have now : tickNow s = tickNow (granaryMet x n s) := by rw [met.rest, tickNow, tickNow]
  have kept : findCmd s (smGet (fun _ => 0) s.shf.tags k) = findCmd (granaryMet x n s) (smGet (fun _ => 0) s.shf.tags k) := by
    rw [findCmd, findCmd, met.cmds]
  rw [kept, tags] at found
  rw [tags, now]
  exact findCmd_sheafReject r i d found

/-- Settles O32: a submission is refused, queued or too late, and the first sheaf in CHECKING passes its check or fails. -/
theorem sheafSubmitAndCheck : Obligations.SheafSubmitAndCheck := by
  unfold Obligations.SheafSubmitAndCheck
  refine ⟨fun tag c s run found op may => ⟨fun refused => ?_, fun staging filled fits => ⟨fun ahead => ?_,
    fun exactly ticking passed => ?_⟩⟩, fun k s run first => ⟨fun vals ok => ?_, fun r i d error => ?_⟩⟩
  · exact ⟨_, (exec_sheafSubmit run found op may).trans (congrArg Host.Outcome.next (sheafSubmit_refused refused)),
      (shfState_of_rd_eq (rd_finishNow ..)).trans (shfState_sheafLast ..),
      (shf_finishNow ..).trans (sheafLast_last ..).shf_eq, findCmd_sheafRefused found _⟩
  · exact ⟨_, (exec_sheafSubmit run found op may).trans
        (congrArg Host.Outcome.next (sheafSubmit_queued staging filled fits ahead)),
      shfState_sheafQueued c s, congrArg ShfSt.order (shf_sheafQueued c s), shfTarget_sheafQueued c s,
      findCmd_sheafQueued found⟩
  · exact ⟨_, (exec_sheafSubmit run found op may).trans
        (congrArg Host.Outcome.next (sheafSubmit_missed staging filled fits exactly ticking passed)),
      shfState_sheafReject .., findCmd_sheafMissed found⟩
  · have done : exec .sheafCheckDone s = .next (sheafCheckDone s) := live_running run _
    exact ⟨_, done.trans (congrArg Host.Outcome.next (sheafCheckDone_passes first ok)), shfState_sheafPending ..,
      vals_sheafPending .., checkedAt_sheafPending ..⟩
  · have done : exec .sheafCheckDone s = .next (sheafCheckDone s) := live_running run _
    exact ⟨_, done.trans (congrArg Host.Outcome.next (sheafCheckDone_fails first error)), shfState_sheafReject ..,
      fun c found => findCmd_sheafReject_granaryMet r i d _ _ found⟩

end Sys2Proof.Machine
end

section
/-!
PROOFS. DIRECT mode: the write that puts units in it, and direct writes to ST registers (R144 to R146).
-/

namespace Sys2Proof.Machine

variable {s t : State}

/-! ## A sum of distinct powers of two -/

/-- The value whose bits below n are given. -/
def maskBelow (p : Nat → Bool) (n : Nat) : Nat := ((List.range n).filter p).foldl (fun m i => m + 2 ^ i) 0

theorem maskBelow_succ (p : Nat → Bool) (n : Nat) : maskBelow p (n + 1) = maskBelow p n + if p n then 2 ^ n else 0 := by
  rw [maskBelow, List.range_succ, List.filter_append, List.foldl_append, ← maskBelow]
  cases h : p n <;> simp [h]

theorem maskBelow_lt (p : Nat → Bool) (n : Nat) : maskBelow p n < 2 ^ n := by
  induction n with
  | zero => exact Nat.one_pos
  | succ n ih =>
    rw [maskBelow_succ, pow_succ]
    split <;> omega

theorem bit_maskBelow (p : Nat → Bool) {n j : Nat} (hj : j < n) : bit (maskBelow p n) j = p j := by
  induction n with
  | zero => exact absurd hj (Nat.not_lt_zero j)
  | succ n ih =>
    have below := maskBelow_lt p n
    rw [maskBelow_succ, bit]
    rcases Nat.lt_succ_iff_lt_or_eq.1 hj with less | rfl
    · rw [← ih less, bit]
      split
      · rw [Nat.add_comm, Nat.testBit_two_pow_add_gt less]
      · rfl
    · split
      · next set => rw [Nat.add_comm, Nat.testBit_two_pow_add_eq, Nat.testBit_lt_two_pow below, set]; rfl
      · next clear => rw [Nat.add_zero, Nat.testBit_lt_two_pow below, Bool.eq_false_iff.2 clear]

/-! ## DIRECT_ENTER (R144) -/

/-- A DIRECT register: SHF_DIRECT_HEAD (0), SHF_DIRECT_SRC_0 to _2 (1 to 3) or SHF_DIRECT_DEV (4). -/
def directOff (reg : Nat) : Nat :=
  if reg = 0 then R.SHF_DIRECT_HEAD else if reg = 4 then R.SHF_DIRECT_DEV else R.SHF_DIRECT_SRC (reg - 1)

/-- Does the part have the unit of a DIRECT register's bit. -/
def directUnit (s : State) (reg i : Nat) : Bool :=
  if reg = 0 then unitPresent s.part .head i else if reg = 4 then decide (i = 0)
  else unitPresent s.part .src ((reg - 1) * 32 + i)

theorem bit_directMask (s : State) (reg : Nat) {i : Nat} (hi : i < 32) : bit (directMask s reg) i = directUnit s reg i :=
  bit_maskBelow (directUnit s reg) hi

theorem bit_and (v w i : Nat) : bit (v &&& w) i = (bit v i && bit w i) := Nat.testBit_and v w i

/-- One bit of a write to a DIRECT register: the unit enters DIRECT mode, unless it is in it. -/
def directTake (off v : Nat) (unit sub : Nat) (s : State) (i : Nat) : State :=
  if bit v i && !flag s off i then genStep (raise { code := 0x42, unit := unit + i, sub := sub } (setFlag s off i true)) else s

theorem directEnter_eq (reg v : Nat) (s : State) : directEnter reg v s =
    (List.range 32).foldl (directTake (directOff reg) (v &&& directMask s reg)
      (if 1 ≤ reg ∧ reg ≤ 3 then (reg - 1) * 32 else 0) (4 + if reg = 0 then 0 else if reg = 4 then 2 else 1)) s := rfl

/-- No event and no count of SHF_GEN changes a DIRECT register. -/
theorem directOff_quiet {reg : Nat} (h : reg < 5) : eventReg (directOff reg) = false ∧ genReg (directOff reg) = false := by
  interval_cases reg <;> decide

section directTake

variable {off : Nat} (event : eventReg off = false) (gen : genReg off = false)
include event gen

/-- The bit of a unit that enters is set, and the others are as they were. -/
theorem flag_directTake (v unit sub : Nat) (s : State) {i : Nat} (hi : i < 32) (j : Nat) :
    flag (directTake off v unit sub s i) off j = (flag s off j || (bit v j && decide (j = i))) := by
  have entered : rd (genStep (raise { code := 0x42, unit := unit + i, sub := sub } (setFlag s off i true))) off =
      rd (setFlag s off i true) off :=
    ((genStep_gen _).regs off gen).trans (rd_raise _ (by decide : (0x42 : Nat) < 256) _ event)
  rw [directTake]
  by_cases same : j = i
  · subst same
    split
    · next enters =>
      rw [flag_of_rd_eq entered, flag_setFlag_same s off j true hi, (Bool.and_eq_true_iff.1 enters).1, decide_eq_true rfl,
        Bool.and_true, Bool.or_true]
    · next stays =>
      have already : bit v j = true → flag s off j = true := by simpa using stays
      cases set : bit v j with
      | false => simp
      | true => rw [already set, Bool.true_or]
  · rw [decide_eq_false same, Bool.and_false, Bool.or_false]
    split
    · rw [flag_of_rd_eq entered]
      rcases Nat.lt_or_gt_of_ne same with below | above
      · exact flag_setFlag_below s off true hi below
      · exact flag_setFlag_above s off true above hi
    · rfl

theorem flag_foldl_directTake (v unit sub : Nat) {l : List Nat} (hl : ∀ i ∈ l, i < 32) (s : State) (j : Nat) :
    flag (l.foldl (directTake off v unit sub) s) off j = (flag s off j || (bit v j && decide (j ∈ l))) := by
  induction l generalizing s with
  | nil => simp
  | cons i l ih =>
    rw [List.foldl_cons, ih (fun x hx => hl x (.tail _ hx)), flag_directTake event gen v unit sub s (hl i (.head _)),
      Bool.or_assoc, ← Bool.and_or_distrib_left, ← Bool.decide_or, decide_eq_decide.2 List.mem_cons]

end directTake

theorem latched_directTake (off v unit sub : Nat) (s : State) (i : Nat) :
    (directTake off v unit sub s i).latched = s.latched := by
  rw [directTake]
  split
  · rw [(genStep_gen _).rest]
    exact raise_latched _ (by decide : (0x42 : Nat) < 256) _
  · rfl

/-- Writing 1 to its bit puts a present unit in DIRECT mode. -/
theorem flag_directEnter {reg : Nat} (h : reg < 5) (v : Nat) (s : State) {i : Nat} (hi : i < 32) :
    flag (directEnter reg v s) (directOff reg) i = (flag s (directOff reg) i || (bit v i && directUnit s reg i)) := by
  obtain ⟨event, gen⟩ := directOff_quiet h
  rw [directEnter_eq, flag_foldl_directTake event gen _ _ _ (fun _ => List.mem_range.1), bit_and, bit_directMask s reg hi,
    decide_eq_true (List.mem_range.2 hi), Bool.and_true]

theorem latched_directEnter (reg v : Nat) (s : State) : (directEnter reg v s).latched = s.latched :=
  List.foldlRecOn (motive := fun t : State => t.latched = s.latched) (List.range 32) _ rfl
    fun _ kept _ _ => (latched_directTake _ _ _ _ _ _).trans kept

/-! ## ST_DIRECT_WRITE (R145, R146) -/

/-- SHF_GEN and the states of the slots are no ST registers. -/
theorem st_of_genReg {off i : Nat} {r : RegRow} (gen : genReg off = true) (row : regRow? off = some (r, i)) : r.st = 0 := by
  have plain : ∀ off ∈ R.SHF_GEN :: (List.range 8).map R.SHF_SLOT_STATE,
      (regRow? off).all (fun x => x.1.st == 0) = true := by decide
  have noSt := plain off (List.contains_iff_mem.1 gen)
  rw [row] at noSt
  exact eq_of_beq noSt

section direct

variable {off i : Nat} {r : RegRow} (row : regRow? off = some (r, i)) (st : r.st ≠ 0)
  (present : unitPresent s.part r.unit (i / r.unitDiv) = true)
include row st present

theorem stDirectWrite_outside (outside : (directScope off r).filter (inDirect s) = none) (v : Nat) :
    stDirectWrite off v s = stIgnored off s := by
  unfold stDirectWrite
  rw [row]
  dsimp only
  rw [if_neg (by simp [st, present]), outside]
  rfl

theorem stDirectWrite_inside {u : Nat × Nat} (inside : (directScope off r).filter (inDirect s) = some u) (v : Nat) :
    stDirectWrite off v s = directEffect r off (genStep (wr s off (stStored r off v))) := by
  unfold stDirectWrite
  rw [row]
  dsimp only
  rw [if_neg (by simp [st, present]), inside]
  rfl

end direct

/-- But for the timing of a head, a direct write changes no other register and nothing latched: a layer's address waits for
the layer's next burst. -/
theorem directEffect_plain {r : RegRow} (plain : r.base ∉ [R.HEAD_H 0, R.HEAD_V 0, R.HEAD_MODE 0]) (off : Nat) (s : State) :
    (directEffect r off s).regs = s.regs ∧ (directEffect r off s).latched = s.latched := by
  have noTiming : ¬ (r.base = R.HEAD_H 0 ∨ r.base = R.HEAD_V 0 ∨ r.base = R.HEAD_MODE 0) := by simpa using plain
  unfold directEffect
  dsimp only
  rw [if_neg noTiming]
  split
  · split <;> exact ⟨rfl, rfl⟩
  · exact ⟨rfl, rfl⟩

/-- Settles O33: DIRECT_ENTER by the bits of its register, a direct write by whether its scope is in DIRECT mode. -/
theorem directModeTakesWrites : Obligations.DirectModeTakesWrites := by
  unfold Obligations.DirectModeTakesWrites
  refine ⟨fun v s run => ⟨⟨_, live_running run _, latched_directEnter .., fun h hh => ?_⟩,
    fun q => ⟨_, live_running run _, latched_directEnter .., fun i hi => ?_⟩,
    ⟨_, live_running run _, latched_directEnter .., ?_⟩⟩,
    fun off v r i s run row st present => ⟨fun outside => ?_, fun u inside plain => ?_⟩⟩
  · exact flag_directEnter (reg := 0) (by decide) v.toNat s (by omega)
  · have entered := flag_directEnter (reg := 1 + q.val) (by omega) v.toNat s hi
    have reg : directOff (1 + q.val) = R.SHF_DIRECT_SRC q.val := by
      rw [directOff, if_neg (by omega), if_neg (by omega), Nat.add_sub_cancel_left]
    have unit : directUnit s (1 + q.val) i = unitPresent s.part .src (32 * q.val + i) := by
      rw [directUnit, if_neg (by omega), if_neg (by omega), Nat.add_sub_cancel_left, Nat.mul_comm]
    obtain ⟨quot, rem⟩ : (32 * q.val + i) / 32 = q.val ∧ (32 * q.val + i) % 32 = i := by omega
    rwa [srcDirect, srcDirect, quot, rem, ← unit, ← reg]
  · have entered := flag_directEnter (reg := 4) (by decide) v.toNat s (i := 0) (by decide)
    rw [show directUnit s 4 0 = true from rfl, Bool.and_true] at entered
    exact entered
  · refine ⟨_, live_running run _, ?_⟩
    rw [stDirectWrite_outside row st present outside]
    exact raiseOnce_events _ _ (by decide : (0x41 : Nat) < 256) s
  · refine ⟨_, live_running run _, ?_⟩
    rw [stDirectWrite_inside row st present inside]
    obtain ⟨regs, latched⟩ := directEffect_plain plain off (genStep (wr s off (stStored r off v.toNat)))
    have counted := genStep_gen (wr s off (stStored r off v.toNat))
    have free : genReg off = false := Bool.eq_false_iff.2 fun gen => st (st_of_genReg gen row)
    refine ⟨?_, latched.trans (by rw [counted.rest]; rfl)⟩
    rw [rd, regs, ← rd, counted.regs off free, rd_wr_same]

end Sys2Proof.Machine
end

section
/-!
PROOFS. The PCIe link goes down with PERST_n and comes up with training (R149, R473). That the endpoint's reset clears the
interrupt table (BAR2), and what EV_PCIE_LINK carries, is the model's reading, log entries 18 and 20.
-/

namespace Sys2Proof.Machine

variable {s : State}

theorem powered_of_running (run : running s = true) : powered s = true := (Bool.and_eq_true_iff.1 run).1

/-- The link's event rests on power, reset and the life-cycle state, which the link does not change. -/
theorem linkEvent_running (run : running s = true) (up width gen : Nat) :
    linkEvent up width gen s = raise { code := 8, sub := up, a0 := width * 16 + gen } s := if_pos run

theorem exec_pciePerstN (on : powered s = true) : exec .pciePerstN s =
    .next (if s.linkUp then linkEvent 0 0 0 { s with linkUp := false, bar2 := [] }
      else { s with linkUp := false, bar2 := [] }) := by
  show execPciePerstN s = _
  rw [execPciePerstN, on]
  rfl

theorem exec_pcieLinkUp {width gen : Fin 16} (on : powered s = true) (down : s.linkUp = false)
    (lanes : width.val = 1 ∨ width.val = 2 ∨ width.val = 4) (first : 1 ≤ gen.val) (last : gen.val ≤ 4) :
    exec (.pcieLinkUp width gen) s = .next (linkEvent 1 width.val gen.val { s with linkUp := true }) := by
  show execPcieLinkUp width gen s = _
  rw [execPcieLinkUp, on, down, decide_eq_true ⟨lanes, first, last⟩]
  rfl

/-- Settles O11, by whether the link was up when PERST_n fell, and by the width and generation that training reaches. -/
theorem pcieLinkDownAndUp : Obligations.PcieLinkDownAndUp := by
  refine ⟨fun s run up => ?_, fun s on down => ?_, fun width gen s run down lanes first last => ?_⟩
  · rw [exec_pciePerstN (powered_of_running run), up, if_pos rfl,
      linkEvent_running (s := { s with linkUp := false, bar2 := [] }) run]
  · rw [exec_pciePerstN on, if_neg (by rw [down]; decide), ← down]
  · rw [exec_pcieLinkUp (powered_of_running run) down lanes first last, linkEvent_running (s := { s with linkUp := true }) run]

end Sys2Proof.Machine
end

section
/-!
PROOFS. Calibrations (R181, R454 to R460): the start of an item by TRM_CMD or TRIM_RUN, and the end of its measurement.
-/

namespace Sys2Proof.Machine

variable {a b s : State} {i : Nat}

/-! ## The calibrations in progress -/

/-- The registers from those of the spare slices on, which lie above the TRM block's. -/
def spareReg (off : Nat) : Bool := decide (0x108000 ≤ off)

theorem spareReg_quad (q : Nat) : spareReg (R.QUAD_SPARE q) = true := decide_eq_true (by rw [R.QUAD_SPARE]; omega)

theorem spareShow_spareRegs (s : State) : OnlyRegs spareReg s (spareShow s) := by
  refine (OnlyRegs.refl s).foldl _ fun t q _ h => ?_
  split
  · exact (h.setFld _ _ _ _ (spareReg_quad q)).setFlag _ _ _ (spareReg_quad q)
  · exact h.setFlag _ _ _ (spareReg_quad q)

/-- The calibrations in progress are replaced, and BUSY shows whether there are any. -/
def calsNoted (cs : List Cal) (s : State) : State :=
  setFlag { s with pwr := { s.pwr with cals := cs } } R.TRM_STATUS 15 (!cs.isEmpty)

theorem setCals_eq (cs : List Cal) (s : State) : setCals cs s = spareShow (calsNoted cs s) := rfl

theorem setCals_rest (cs : List Cal) (s : State) :
    setCals cs s = { s with regs := (setCals cs s).regs, pwr := { s.pwr with cals := cs } } := (setCals_onlyRegs cs s).rest

theorem busy_setCals (cs : List Cal) (s : State) : flag (setCals cs s) R.TRM_STATUS 15 = !cs.isEmpty := by
  rw [setCals_eq, flag_of_rd_eq ((spareShow_spareRegs _).regs _ (by decide)) 15]
  exact flag_setFlag_same _ _ _ _ (by decide)

/-- Two states between which a run of calibrations goes on: TRM_STATUS and the spare slices' registers may change, the
calibrations, and the commands in flight. -/
structure CalKept (a b : State) : Prop where
  regs : ∀ off, spareReg off = false → off ≠ R.TRM_STATUS → rd b off = rd a off
  wide : b.wide = a.wide
  clock : b.clock = a.clock

theorem CalKept.refl (s : State) : CalKept s s := ⟨fun _ _ _ => rfl, rfl, rfl⟩

theorem CalKept.trans {c : State} (h : CalKept a b) (j : CalKept b c) : CalKept a c :=
  ⟨fun off hs ht => (j.regs off hs ht).trans (h.regs off hs ht), j.wide.trans h.wide, j.clock.trans h.clock⟩

theorem setCals_kept (cs : List Cal) (s : State) : CalKept s (setCals cs s) := by
  refine ⟨fun off spare status => ?_, by rw [setCals_rest], by rw [setCals_rest]⟩
  rw [setCals_eq, (spareShow_spareRegs _).regs off spare]
  exact rd_setFld_other _ _ _ _ status

theorem statusNoted_kept (hi lo v : Nat) (s : State) : CalKept s (setFld s R.TRM_STATUS hi lo v) :=
  ⟨fun _ _ status => rd_setFld_other s hi lo v status, rfl, rfl⟩

theorem trimTake_kept (i : Nat) (s : State) : CalKept s (trimTake i s) :=
  CalKept.trans (b := setTrim i (s.draws + 1) { s with draws := s.draws + 1 }) ⟨fun _ _ _ => rfl, rfl, rfl⟩ (setCals_kept _ _)

theorem calTell_kept (tag : Option Nat) (i : Nat) (cause : Option Nat) (s : State) : CalKept s (calTell tag i cause s) := by
  have told : ∀ x : RingSt, CalKept s { s with rng := x } := fun _ => ⟨fun _ _ _ => rfl, rfl, rfl⟩
  unfold calTell
  split
  · exact .refl s
  · split
    · exact .refl s
    · dsimp only
      split_ifs
      · exact told _
      · exact told _
      · exact told _
      · split <;> exact told _

theorem calAdvance_kept (i : Nat) (s : State) : CalKept s (calAdvance i s) := by
  unfold calAdvance
  split
  · exact .refl s
  · split
    · exact setCals_kept _ s
    · exact (setCals_kept _ s).trans (statusNoted_kept 14 8 _ _)

theorem calOf_item {c : Cal} (cal : calOf s i = some c) : c.item = i :=
  of_decide_eq_true (List.find?_some (p := fun c : Cal => decide (c.item = i)) cal)

/-- An item whose calibration is changed is still in progress. -/
theorem calOf_trimTake {c : Cal} (cal : calOf s i = some c) :
    calOf (trimTake i s) i = some { c with before := some (trimOf s i) } := by
  have cals : (trimTake i s).pwr.cals =
      s.pwr.cals.map (fun c => if c.item = i then { c with before := some (trimOf s i) } else c) := by
    rw [trimTake, updCal, setCals_rest]
    rfl
  have same : ((fun d : Cal => decide (d.item = i)) ∘ fun d => if d.item = i then { d with before := some (trimOf s i) } else d) =
      fun d => decide (d.item = i) := by
    funext d
    show decide ((if d.item = i then { d with before := some (trimOf s i) } else d).item = i) = _
    split <;> rfl
  rw [calOf, cals, List.find?_map, same]
  show (calOf s i).map _ = _
  rw [cal, Option.map_some, if_pos (calOf_item cal)]

/-! ## The start of a run (R456, R457) -/

/-- The first item of a run is of the group of the item that the run is for. -/
theorem calItems_cons (i : Nat) :
    ∃ j rest, calItems i = j :: rest ∧ calGroup j = calGroup i ∧ (i < 2 ^ 7 → j < 2 ^ 7) ∧ (i < 36 → j = i) := by
  unfold calItems
  split
  · refine ⟨36, [i], rfl, ?_, fun _ => by decide, fun low => by omega⟩
    unfold calGroup
    rw [if_neg (by decide), if_neg (by decide), if_pos (by decide), if_neg (by omega), if_neg (by omega), if_pos (by omega)]
  · exact ⟨i, [], rfl, rfl, id, fun _ => rfl⟩

/-- A run of items whose first has begun. -/
def runBegun (tag : Option Nat) (i : Nat) (rest : List Nat) (s : State) : State :=
  setFld (setCals (s.pwr.cals ++ [{ item := i, next := rest, tag := tag, since := s.elapsed }]) s) R.TRM_STATUS 14 8 i

theorem calStartRun_free (tag : Option Nat) {rest : List Nat} (free : calIn s (calGroup i) = none) :
    calStartRun tag (i :: rest) s = runBegun tag i rest s := by
  rw [calStartRun, free]
  rfl

theorem cals_runBegun (tag : Option Nat) (i : Nat) (rest : List Nat) (s : State) :
    { item := i, next := rest, tag := tag, since := s.elapsed } ∈ (runBegun tag i rest s).pwr.cals := by
  rw [runBegun, setFld_pwr, setCals_rest]
  exact List.mem_append_right _ (List.mem_singleton_self _)

theorem rng_runBegun (tag : Option Nat) (i : Nat) (rest : List Nat) (s : State) : (runBegun tag i rest s).rng = s.rng := by
  rw [runBegun, setFld_rng, setCals_rest]

theorem busy_runBegun (tag : Option Nat) (i : Nat) (rest : List Nat) (s : State) :
    flag (runBegun tag i rest s) R.TRM_STATUS 15 = true := by
  rw [runBegun, flag_setFld_above _ _ _ (by decide) (by decide) (by decide), busy_setCals]
  simp

theorem item_runBegun (tag : Option Nat) (small : i < 2 ^ 7) (rest : List Nat) (s : State) :
    fld (runBegun tag i rest s) R.TRM_STATUS 14 8 = i :=
  (fld_setFld_same _ _ _ _ _ (by decide) (by decide)).trans (Nat.mod_eq_of_lt small)

theorem trmCmdWrite_served {v : Nat} (demal : demalState s = 2) : trmCmdWrite v s = setFlag s R.TRM_STATUS 7 true := if_pos demal

theorem trmCmdWrite_starts {v : Nat} (demal : demalState s ≠ 2) (go : bit v 31 = true)
    (present : calPresent s.part (bits v 6 0) = true) :
    trmCmdWrite v s = calStartRun none (calItems (bits v 6 0)) s := by
  unfold trmCmdWrite
  dsimp only
  rw [if_neg demal, go, present]
  rfl

/-- TRM_CMD without Demal starts a run of the item's group (R460). -/
theorem trimCmd_starts {v : Word} (run : running s = true) (demal : demalState s ≠ 2) (go : bit v.toNat 31 = true)
    (present : calPresent s.part (bits v.toNat 6 0) = true) (free : calIn s (calGroup (bits v.toNat 6 0)) = none) :
    ∃ t, exec (.trimCmd v) s = .next t ∧ (∃ c ∈ t.pwr.cals, c.item :: c.next = calItems (bits v.toNat 6 0)) ∧
      flag t R.TRM_STATUS 15 = true ∧ fld t R.TRM_STATUS 14 8 = (calItems (bits v.toNat 6 0)).headD 0 := by
  obtain ⟨j, rest, items, group, small, -⟩ := calItems_cons (bits v.toNat 6 0)
  have begun : trmCmdWrite v.toNat s = runBegun none j rest s := by
    rw [trmCmdWrite_starts demal go present, items, calStartRun_free none (by rw [group, free])]
  refine ⟨_, (live_running run _).trans (congrArg _ begun), ⟨_, cals_runBegun none j rest s, items.symm⟩,
    busy_runBegun none j rest s, ?_⟩
  rw [item_runBegun none (small (bits_lt v.toNat 6 0)), items]
  rfl

/-! ## TRIM_RUN (R181, R460) -/

theorem exec_trimRun {tag : Fin 4096} {c : Cmd} (run : running s = true) (found : findCmd s tag.val = some c)
    (op : c.opcode = 0x58) (may : mayExecute s.rng.cmds c = true) : exec (.trimRun tag) s = .next (trimRun c s) := by
  show execTrimRun tag s = _
  rw [execTrimRun, live_running run, onCmd_started found may op]

theorem trimRun_unserved {c : Cmd} (demal : demalState s ≠ 2) :
    trimRun c s = finish c.tag stNoFirmware (demalState s) 0 0 s := if_pos demal

theorem trimRun_starts {c : Cmd} (demal : demalState s = 2) (low : bits (c.w 2) 6 0 < 36) (every : bit (c.w 3) 0 = false)
    (free : calIn s (calGroup (bits (c.w 2) 6 0)) = none) :
    ∃ rest, trimRun c s = runBegun (some c.tag) (bits (c.w 2) 6 0) rest (waitCmd c.tag [bits (c.w 2) 6 0, 0, 0] s) := by
  obtain ⟨j, rest, items, -, -, same⟩ := calItems_cons (bits (c.w 2) 6 0)
  obtain rfl := same low
  refine ⟨rest, ?_⟩
  unfold trimRun
  dsimp only
  rw [if_neg (not_not.2 demal), if_neg (by omega), every, Bool.false_and, if_neg Bool.false_ne_true, items]
  exact calStartRun_free _ free

/-! ## The end of a measurement (R454, R457, R459) -/

/-- A register of the TRM block but TRM_STATUS is none that an event or a run of calibrations writes. -/
theorem trmReg_plain {off : Nat} (lo : 0x30100 ≤ off) (hi : off < 0x40000) :
    eventReg off = false ∧ spareReg off = false ∧ off ≠ R.TRM_STATUS := by
  refine ⟨eventReg_low (by omega), ?_, ?_⟩
  · rw [spareReg, decide_eq_false_iff_not]
    omega
  · rw [R.TRM_STATUS]
    omega

theorem trmCount_plain (hi : i < 73) :
    eventReg (R.TRM_COUNT i) = false ∧ spareReg (R.TRM_COUNT i) = false ∧ R.TRM_COUNT i ≠ R.TRM_STATUS :=
  trmReg_plain (by rw [R.TRM_COUNT]; omega) (by rw [R.TRM_COUNT]; omega)

theorem trmInfo_plain (hi : i < 73) :
    eventReg (R.TRM_INFO i) = false ∧ spareReg (R.TRM_INFO i) = false ∧ R.TRM_INFO i ≠ R.TRM_STATUS :=
  trmReg_plain (by rw [R.TRM_INFO]; omega) (by rw [R.TRM_INFO]; omega)

/-- An item of a lane that is OFF or of a quad is measured at once (R455). -/
theorem calReady_idle {c : Cal} (phase : c.phase = 0) (low : c.item < 36) (off : c.item < 32 → laneOff s c.item = true) :
    calReady s c = true := by
  unfold calReady
  rw [if_neg (by rintro ⟨lane, on⟩; rw [off lane] at on; cases on), if_neg (by omega), phase]
  rfl

theorem exec_calibrationComplete {item : Fin 73} {c : Cal} (o : CalObs) (run : running s = true)
    (cal : calOf s item.val = some c) (ready : calReady s c = true) :
    exec (.calibrationComplete item o) s = .next (calMeasured item.val o s) := by
  show execCalibrationComplete item o s = _
  rw [execCalibrationComplete, live_running run, cal]
  exact congrArg Host.Outcome.next (if_pos ready)

theorem calMeasured_fails {o : CalObs} (low : i < 36) (out : o.inRange = false) : calMeasured i o s = calFail i 4 false s := by
  have other : i ≠ 36 := by omega
  simp only [calMeasured, other, false_and, if_false, out, Bool.not_false, if_true]

theorem calMeasured_succeeds {o : CalObs} (low : i < 36) (off : i < 32 → laneOff s i = true) (within : o.inRange = true) :
    calMeasured i o s = calSucceed i (trimTake i s).clock (trimTake i s) := by
  have same : i < 32 → laneOff (trimTake i s) i = true := fun lane => by
    have status : rd (trimTake i s) (R.LANE_STATUS i) = rd s (R.LANE_STATUS i) := by
      refine (trimTake_kept i s).regs _ ?_ ?_
      · rw [spareReg, decide_eq_false_iff_not, R.LANE_STATUS]
        omega
      · rw [R.LANE_STATUS, R.TRM_STATUS]
        omega
    rw [laneOff, fld_of_rd_eq status]
    exact off lane
  have other : i ≠ 36 := by omega
  have ends : ¬ (i < 32 ∧ (!laneOff (trimTake i s) i) = true) := by
    rintro ⟨lane, on⟩
    rw [same lane] at on
    cases on
  simp only [calMeasured, other, false_and, if_false, within, Bool.not_true, Bool.false_eq_true, if_neg ends,
    Nat.not_le.2 low]

/-- Out of range: the cause is recorded, and no success (R457). -/
theorem calFail_records {c : Cal} (hi : i < 73) (cal : calOf s i = some c) :
    fld (calFail i 4 false s) (R.TRM_INFO i) 11 8 = 4 ∧ rd (calFail i 4 false s) (R.TRM_COUNT i) = rd s (R.TRM_COUNT i) := by
  have ended : calFail i 4 false s = calTell c.tag i (some 4) (calAdvance i (calNoteFail i 4 false (trimRestore i s))) := by
    rw [calFail, cal]
  have kept := (calAdvance_kept i (calNoteFail i 4 false (trimRestore i s))).trans (calTell_kept c.tag i (some 4) _)
  obtain ⟨ev, code, noted⟩ : ∃ ev : Ev, ev.code < 256 ∧ calNoteFail i 4 false (trimRestore i s) = raise ev
      (setFld (setFld (addFld (trimRestore i s) (R.TRM_INFO i) 31 16 1) (R.TRM_INFO i) 11 8 4) R.TRM_STATUS 3 0 4) :=
    ⟨_, (by decide : (0xB5 : Nat) < 256), rfl⟩
  rw [ended]
  constructor
  · obtain ⟨event, spare, status⟩ := trmInfo_plain hi
    rw [fld_of_rd_eq (kept.regs (R.TRM_INFO i) spare status), noted, fld_raise ev code _ event,
      fld_setFld_other _ _ _ _ _ _ status]
    exact fld_setFld_same _ _ _ _ _ (by decide) (by decide)
  · obtain ⟨event, spare, status⟩ := trmCount_plain hi
    have apart : R.TRM_COUNT i ≠ R.TRM_INFO i := by
      rw [R.TRM_COUNT, R.TRM_INFO]
      omega
    rw [kept.regs (R.TRM_COUNT i) spare status, noted, rd_raise ev code _ event, rd_setFld_other _ _ _ _ status,
      rd_setFld_other _ _ _ _ apart, addFld, rd_setFld_other _ _ _ _ apart]
    exact (trimRestore_calFrame (p := fun _ => false) i s).regs _ rfl

/-- In range: the success is counted, with its time (R459). -/
theorem calSucceed_records {c : Cal} (low : i < 36) (t : Nat) (cal : calOf s i = some c) :
    rd (calSucceed i t s) (R.TRM_COUNT i) = (rd s (R.TRM_COUNT i) + 1) % 2 ^ 32 ∧
      wideGet (calSucceed i t s) (R.TRM_TIME_LO i) = timeArg t % 2 ^ 64 := by
  have ended : calSucceed i t s = calTell c.tag i none (calAdvance i (calNoteDone i t s)) := by rw [calSucceed, cal]
  have kept := (calAdvance_kept i (calNoteDone i t s)).trans (calTell_kept c.tag i none _)
  obtain ⟨ev, code, noted⟩ : ∃ ev : Ev, ev.code < 256 ∧
      calNoteDone i t s = raise ev (wideSet (R.TRM_TIME_LO i) (timeArg t % 2 ^ 64) (addReg s (R.TRM_COUNT i) 1)) := by
    refine ⟨{ code := 0xB4, unit := i, sub := (calKind i).getD 0, a0 := rd (wideSet (R.TRM_TIME_LO i) (timeArg t % 2 ^ 64)
      (addReg s (R.TRM_COUNT i) 1)) (R.TRM_COUNT i) }, (by decide : (0xB4 : Nat) < 256), ?_⟩
    unfold calNoteDone
    dsimp only
    rw [if_neg (by omega)]
  obtain ⟨event, spare, status⟩ := trmCount_plain (i := i) (by omega)
  have apart : R.TRM_COUNT i ≠ R.TRM_TIME_LO i := by
    rw [R.TRM_COUNT, R.TRM_TIME_LO]
    omega
  rw [ended]
  constructor
  · rw [kept.regs (R.TRM_COUNT i) spare status, noted, rd_raise ev code _ event, wideSet, rd_wr_other _ _ apart]
    exact (rd_addReg s _ _ _).trans (if_pos rfl)
  · rw [wideGet, kept.wide, noted, raise_wide ev code]
    exact (smGet_smSet _ _ _ _ _).trans (if_pos rfl)

/-- Settles O17, by what starts a run of the item's group, and by whether the measurement is in range. -/
theorem calibrationStartsAndRecords : Obligations.CalibrationStartsAndRecords := by
  refine ⟨fun v s run => ⟨fun demal => ?_, trimCmd_starts run⟩,
    fun tag c s run found op may => ⟨fun demal => ?_, fun demal low every free => ?_⟩,
    fun item o c s run cal phase low off => ?_⟩
  · exact (live_running run _).trans (congrArg _ (trmCmdWrite_served demal))
  · exact (exec_trimRun run found op may).trans (congrArg _ (trimRun_unserved demal))
  · obtain ⟨rest, begun⟩ := trimRun_starts demal low every free
    exact ⟨_, (exec_trimRun run found op may).trans (congrArg _ begun), ⟨_, cals_runBegun _ _ _ _, rfl, rfl⟩,
      rng_runBegun _ _ _ _⟩
  · have item_eq := calOf_item cal
    have ready := calReady_idle phase (by omega) (by rw [item_eq]; exact off)
    refine ⟨_, exec_calibrationComplete o run cal ready, fun within => ?_, fun out => ?_⟩
    · have kept := trimTake_kept item.val s
      obtain ⟨-, spare, status⟩ := trmCount_plain item.isLt
      rw [calMeasured_succeeds low off within, ← kept.clock, ← kept.regs (R.TRM_COUNT item.val) spare status]
      exact calSucceed_records low _ (calOf_trimTake cal)
    · rw [calMeasured_fails low out]
      exact calFail_records item.isLt cal

end Sys2Proof.Machine
end

section
/-!
PROOFS. KEY_CONFIG (R181, R408, R409): a command that waits takes effect in an idle gap. That a scan which has ended and
waits for Demal ends the gap, is the model's reading, log entry 70.
-/

namespace Sys2Proof.Machine

variable {a b s : State}

/-! ## Trigger 10 -/

/-- The registers of trigger 10 that change when it is armed, and those of events. -/
structure ArmedOnly (a b : State) : Prop where
  regs : ∀ off, eventReg off = false → off ≠ R.TIM_TRIG_CTRL 10 → rd b off = rd a off
  tch : b.tch = a.tch
  cmds : b.rng.cmds = a.rng.cmds

theorem trigArm_armedOnly (s : State) : ArmedOnly s (trigArm 10 s) := by
  have ctrl : ∀ (i : Nat) (x : Bool), ArmedOnly s (setFlag s (R.TIM_TRIG_CTRL 10) i x) := fun i x =>
    ⟨fun _ _ other => rd_setFld_other s i i _ other, rfl, rfl⟩
  cases valid : trigValid s 10 with
  | false =>
    have code : (0x38 : Nat) < 256 := by decide
    rw [trigArm_bad valid]
    exact ⟨fun off event other => (rd_raise _ code _ event).trans ((ctrl 7 true).regs off event other),
      raise_tch _ code _, raise_rng_cmds _ code _⟩
  | true =>
    rw [trigArm_valid (by decide) valid]
    split_ifs
    · exact ⟨fun off event other => (rd_setTrig _ _ _ off).trans ((ctrl 4 true).regs off event other), by simp, by simp⟩
    · exact ctrl 5 true
    · exact ⟨fun _ _ _ => rfl, rfl, rfl⟩

/-- The registers of trigger 10. -/
def trig10Reg (off : Nat) : Bool := decide (0x40680 ≤ off ∧ off < 0x406C0)

/-- Trigger 10's schedule from the next tick on, before its width is held to R123 and it is armed. -/
def scansSet (ms : Nat) (s : State) : State :=
  let t := tickInstant s (tickAfter s s.clock)
  let s := trigDisarm 10 s
  let s := wr64 s (R.TIM_TRIG_START_SEC_LO 10) (R.TIM_TRIG_START_SEC_HI 10) (timeSec t)
  let s := wr (wr s (R.TIM_TRIG_START_NS 10) (timeNs t)) (R.TIM_TRIG_START_FRAC 10) (timeFrac t)
  wr (wr (wr s (R.TIM_TRIG_PERIOD_NS 10) (ms * 1000000)) (R.TIM_TRIG_PERIOD_FRAC 10) 0) (R.TIM_TRIG_COUNT 10) 0

/-- A pulse width that R123 does not allow becomes 8 ns. -/
def widthHeld (ms : Nat) (s : State) : State :=
  if 8 ≤ rd s (R.TIM_TRIG_WIDTH_NS 10) ∧ rd s (R.TIM_TRIG_WIDTH_NS 10) + 8 ≤ ms * 1000000 then s
  else wr s (R.TIM_TRIG_WIDTH_NS 10) 8

theorem armScans_eq (ms : Nat) (s : State) : armScans ms s = trigArm 10
    (setFlag (setFlag (widthHeld ms (scansSet ms s)) (R.TIM_TRIG_CTRL 10) 2 true) (R.TIM_TRIG_CTRL 10) 0 true) := rfl

theorem scansSet_onlyRegs (ms : Nat) (s : State) : OnlyRegs trig10Reg s (scansSet ms s) := by
  unfold scansSet
  extract_lets t s1 s2 s3
  have started : OnlyRegs trig10Reg s s3 :=
    ((((OnlyRegs.refl s).setFlag _ _ _ (by decide)).wr64 _ _ _ (by decide) (by decide)).wr _ _ (by decide)).wr _ _ (by decide)
  exact ((started.wr _ _ (by decide)).wr _ _ (by decide)).wr _ _ (by decide)

theorem widthHeld_onlyRegs (ms : Nat) (s : State) : OnlyRegs trig10Reg s (widthHeld ms s) :=
  (OnlyRegs.refl s).ite ((OnlyRegs.refl s).wr _ _ (by decide))

theorem period_scansSet (ms : Nat) (s : State) : rd (scansSet ms s) (R.TIM_TRIG_PERIOD_NS 10) = ms * 1000000 % 2 ^ 32 := by
  unfold scansSet
  dsimp only
  rw [rd_wr_other _ _ (by decide), rd_wr_other _ _ (by decide), rd_wr_same]

theorem period_widthHeld (ms : Nat) (s : State) :
    rd (widthHeld ms s) (R.TIM_TRIG_PERIOD_NS 10) = rd s (R.TIM_TRIG_PERIOD_NS 10) := by
  unfold widthHeld
  split
  · rfl
  · exact rd_wr_other _ _ (by decide)

theorem armScans_period (ms : Nat) (s : State) :
    rd (armScans ms s) (R.TIM_TRIG_PERIOD_NS 10) = ms * 1000000 % 2 ^ 32 := by
  rw [armScans_eq, (trigArm_armedOnly _).regs _ (by decide) (by decide), setFlag, rd_setFld_other _ _ _ _ (by decide), setFlag,
    rd_setFld_other _ _ _ _ (by decide), period_widthHeld, period_scansSet]

/-- Beside trigger 10 and events, arming leaves the touch unit and the commands in flight alone. -/
theorem armScans_kept (ms : Nat) (s : State) : (armScans ms s).tch = s.tch ∧ (armScans ms s).rng.cmds = s.rng.cmds ∧
    rd (armScans ms s) R.TCH_CTRL = rd s R.TCH_CTRL := by
  have scheduled := (scansSet_onlyRegs ms s).trans (widthHeld_onlyRegs ms (scansSet ms s))
  have shown := (scheduled.setFlag (R.TIM_TRIG_CTRL 10) 2 true (by decide)).setFlag (R.TIM_TRIG_CTRL 10) 0 true (by decide)
  have armed := trigArm_armedOnly
    (setFlag (setFlag (widthHeld ms (scansSet ms s)) (R.TIM_TRIG_CTRL 10) 2 true) (R.TIM_TRIG_CTRL 10) 0 true)
  rw [armScans_eq]
  refine ⟨armed.tch.trans ?_, armed.cmds.trans ?_, (armed.regs _ (by decide) (by decide)).trans (shown.regs _ (by decide))⟩
  · rw [shown.rest]
  · rw [shown.rest]

/-! ## A command takes effect (R409) -/

/-- The front end's settings that PANEL gives. -/
def panelOf (c : Cmd) (n : PanelSt) : PanelSt :=
  { n with glove := bit (c.w 3) 31, water := bit (c.w 3) 30, noiseAuto := bit (c.w 3) 29, noiseExit := bits (c.w 4) 31 16,
           noiseEnter := bits (c.w 4) 15 0, noisePct := bits (c.w 5) 15 0, driftScans := bits (c.w 6) 7 0 }

/-- PANEL's settings in the front end, before trigger 10 is armed. -/
def panelSet (c : Cmd) (s : State) : State :=
  let n := panelOf c s.tch.panel
  let t := { s with tch := { s.tch with panel := n } }
  wr t R.TCH_CTRL ((if bit (c.w 3) 29 then fld t R.TCH_CTRL 5 4 else 0) * 16 + ofBool n.water * 4 + ofBool n.glove * 2 + 1)

theorem applyPanel_eq (c : Cmd) (s : State) : applyPanel c s = armScans (bits (c.w 3) 7 0) (panelSet c s) := rfl

/-- What a waiting command does when it takes effect. -/
def keyEffect (c : Cmd) (s : State) : State := if bits (c.w 2) 17 16 = 0 then applyKey c s else applyPanel c s

theorem cmds_keyEffect (c : Cmd) (s : State) : (keyEffect c s).rng.cmds = s.rng.cmds := by
  unfold keyEffect
  split
  · rfl
  · exact (armScans_kept _ (panelSet c s)).2.1

theorem keyAt_applyKey (c : Cmd) (s : State) : keyAt (applyKey c s) (bits (c.w 2) 5 0) =
    { keyAt s (bits (c.w 2) 5 0) with cfg := keyCfgOf c, fresh := true } :=
  (smGet_smSet _ _ _ _ _).trans (if_pos rfl)

/-- PANEL: its settings, RUN, and a scan period within 32 bits. -/
theorem applyPanel_shows (c : Cmd) (s : State) : (applyPanel c s).tch.panel = panelOf c s.tch.panel ∧
    flag (applyPanel c s) R.TCH_CTRL 0 = true ∧
    rd (applyPanel c s) (R.TIM_TRIG_PERIOD_NS 10) = bits (c.w 3) 7 0 * 1000000 := by
  obtain ⟨tch, -, ctrl⟩ := armScans_kept (bits (c.w 3) 7 0) (panelSet c s)
  have small : bits (c.w 3) 7 0 < 256 := bits_lt (c.w 3) 7 0
  refine ⟨congrArg TouchSt.panel tch, ?_, ?_⟩
  · rw [applyPanel_eq, flag_of_rd_eq ctrl, flag, panelSet, rd_wr_same, bit_eq_bits, decide_eq_true_iff, bits]
    omega
  · rw [applyPanel_eq, armScans_period]
    omega

/-- The commands in the queue take effect, one after the other. -/
def keyFold (s : State) (tags : List Nat) : State :=
  tags.foldl (fun s t => match findCmd s t with
    | some c => keyEffect c s
    | none => s) s

/-- The queue is empty, and its commands complete with the next scan processed. -/
def gapClosed (tags : List Nat) (s : State) : State :=
  { s with tch := { s.tch with waiting := [], taken := s.tch.taken ++ tags } }

theorem rd_gapClosed (tags : List Nat) (s : State) (off : Nat) : rd (gapClosed tags s) off = rd s off := rfl
theorem keyAt_gapClosed (tags : List Nat) (s : State) (k : Nat) : keyAt (gapClosed tags s) k = keyAt s k := rfl
theorem panel_gapClosed (tags : List Nat) (s : State) : (gapClosed tags s).tch.panel = s.tch.panel := rfl
theorem waiting_gapClosed (tags : List Nat) (s : State) : (gapClosed tags s).tch.waiting = [] := rfl
theorem taken_gapClosed (tags : List Nat) (s : State) : (gapClosed tags s).tch.taken = s.tch.taken ++ tags := rfl

theorem applyWaiting_eq (s : State) : applyWaiting s = gapClosed s.tch.waiting (keyFold s s.tch.waiting) := rfl

theorem cmds_keyFold (tags : List Nat) (s : State) : (keyFold s tags).rng.cmds = s.rng.cmds := by
  induction tags generalizing s with
  | nil => rfl
  | cons t tags ih =>
    refine (ih _).trans ?_
    dsimp only
    split
    · exact cmds_keyEffect _ s
    · rfl

/-- The newest command takes effect last. -/
theorem keyFold_last {c : Cmd} {tag : Nat} (found : findCmd s tag = some c) (tags : List Nat) :
    keyFold s (tags ++ [tag]) = keyEffect c (keyFold s tags) := by
  have kept : findCmd (keyFold s tags) tag = some c := by rw [findCmd, cmds_keyFold, ← findCmd, found]
  show (tags ++ [tag]).foldl _ s = _
  rw [List.foldl_append]
  show (match findCmd (keyFold s tags) tag with
    | some c => keyEffect c (keyFold s tags)
    | none => keyFold s tags) = _
  rw [kept]

/-! ## The command -/

section command

variable {tag : Nat} {c : Cmd}

theorem exec_keyConfig {tag : Fin 4096} (run : running s = true) (found : findCmd s tag.val = some c) (op : c.opcode = 0x40)
    (may : mayExecute s.rng.cmds c = true) : exec (.keyConfig tag) s = .next (keyConfig c s) := by
  show execKeyConfig tag s = _
  rw [execKeyConfig, live_running run, onCmd_started found may op]

/-- A command that has been accepted waits, behind those that wait already. -/
def keyQueued (c : Cmd) (s : State) : State :=
  waitCmd c.tag [] { s with tch := { s.tch with waiting := s.tch.waiting ++ [c.tag] } }

theorem keyConfig_unserved (demal : demalState s ≠ 2) : keyConfig c s = finish c.tag stNoFirmware (demalState s) 0 0 s :=
  if_pos demal

theorem keyConfig_rejected {i : Nat} (demal : demalState s = 2) (bad : keyRange c = some i) :
    keyConfig c s = finish c.tag stRejected (1 * 2 ^ 16) i 0 s := by
  rw [keyConfig, if_neg (not_not.2 demal), bad]
  rfl

theorem keyConfig_accepted (demal : demalState s = 2) (good : keyRange c = none) : keyConfig c s =
    if s.tch.scan.isNone && s.tch.done.isNone then applyWaiting (keyQueued c s) else keyQueued c s := by
  rw [keyConfig, if_neg (not_not.2 demal), good]
  rfl

theorem findCmd_keyQueued (found : findCmd s tag = some c) :
    findCmd (keyQueued c s) tag = some { c with phase := .waiting, aux := [] } :=
  findCmd_waitCmd (t := { s with tch := { s.tch with waiting := s.tch.waiting ++ [c.tag] } }) found (CmdsKept.of_eq rfl) []

/-- In an idle gap a command that is accepted takes effect, the last of those that wait. -/
theorem applyWaiting_keyQueued (found : findCmd s tag = some c) : ∃ u,
    applyWaiting (keyQueued c s) = gapClosed (s.tch.waiting ++ [c.tag]) (keyEffect c u) ∧
    findCmd (keyEffect c u) tag = some { c with phase := .waiting, aux := [] } := by
  have queued := findCmd_keyQueued found
  obtain rfl := tag_of_findCmd found
  refine ⟨keyFold (keyQueued c s) s.tch.waiting, ?_, ?_⟩
  · rw [applyWaiting_eq]
    exact congrArg (gapClosed _) (keyFold_last queued s.tch.waiting)
  · rw [findCmd, cmds_keyEffect, cmds_keyFold, ← findCmd, queued]

/-- A key has its new settings and starts afresh (R409). -/
theorem keyEffect_key (key : bits (c.w 2) 17 16 = 0) (u : State) : (keyAt (keyEffect c u) (bits (c.w 2) 5 0)).cfg = keyCfgOf c ∧
    (keyAt (keyEffect c u) (bits (c.w 2) 5 0)).fresh = true := by
  rw [keyEffect, if_pos key, keyAt_applyKey]
  exact ⟨rfl, rfl⟩

/-- The front end has its new settings and runs, with the new scan period (R409). -/
theorem keyEffect_panel (panel : bits (c.w 2) 17 16 ≠ 0) (u : State) :
    (keyEffect c u).tch.panel.driftScans = bits (c.w 6) 7 0 ∧ (keyEffect c u).tch.panel.noiseAuto = bit (c.w 3) 29 ∧
      flag (keyEffect c u) R.TCH_CTRL 0 = true ∧
      rd (keyEffect c u) (R.TIM_TRIG_PERIOD_NS 10) = bits (c.w 3) 7 0 * 1000000 := by
  obtain ⟨set, runs, period⟩ := applyPanel_shows c u
  rw [keyEffect, if_neg panel, set]
  exact ⟨rfl, rfl, runs, period⟩

end command

/-- Settles O58, by Demal's state, by the first field out of range, and by whether the gap is idle. -/
theorem keyConfigTakesEffect : Obligations.KeyConfigTakesEffect := by
  intro tag c s run found op may
  have executed := exec_keyConfig run found op may
  refine ⟨fun demal => ?_, fun demal i bad => ?_, fun demal good => ?_⟩
  · exact ⟨_, executed.trans (congrArg _ (keyConfig_unserved demal)), rfl, rfl, findCmd_finish found _ _ _ _⟩
  · exact ⟨_, executed.trans (congrArg _ (keyConfig_rejected demal bad)), rfl, rfl, findCmd_finish found _ _ _ _⟩
  · have accepted := executed.trans (congrArg _ (keyConfig_accepted demal good))
    by_cases idle : (s.tch.scan.isNone && s.tch.done.isNone) = true
    · obtain ⟨u, effect, waits⟩ := applyWaiting_keyQueued found
      rw [if_pos idle, effect] at accepted
      refine ⟨_, accepted, waits, fun busy => ?_, fun _ _ => ⟨?_, waiting_gapClosed _ _, fun key => ?_, fun panel => ?_⟩⟩
      · obtain ⟨scan, done⟩ := Bool.and_eq_true_iff.1 idle
        rw [Option.isSome_iff_ne_none, Option.isSome_iff_ne_none] at busy
        exact absurd (busy.resolve_left (not_not.2 (Option.isNone_iff_eq_none.1 scan)))
          (not_not.2 (Option.isNone_iff_eq_none.1 done))
      · rw [taken_gapClosed]
        exact List.mem_append_right _ (List.mem_append_right _ (List.mem_singleton_self _))
      · rw [keyAt_gapClosed]
        exact keyEffect_key key u
      · rw [panel_gapClosed, rd_gapClosed, flag_of_rd_eq (rd_gapClosed _ _ _)]
        exact keyEffect_panel panel u
    · rw [if_neg idle] at accepted
      refine ⟨_, accepted, findCmd_keyQueued found, fun _ => ⟨rfl, rfl⟩, fun scan done => ?_⟩
      rw [scan, done] at idle
      exact absurd rfl idle

end Sys2Proof.Machine
end

section
/-!
PROOFS. Completions and service commands (R157 to R167, R174): a finished command leaves flight with its record, or waits for
room; NOP, BARRIER and LEDGER_READ; the interrupt pins.
-/

namespace Sys2Proof.Machine

variable {a b s : State} {c : Cmd}

/-! ## Rings by number -/

theorem ringBase_cq {q : Nat} (hq : q < 32) : ringBase (64 + q) = 0x82000 + q * 0x40 := by
  rw [ringBase, if_neg (by omega), if_pos (by omega), Nat.add_sub_cancel_left]

theorem sqCfg_eq {r : Nat} (hr : r < 64) : R.RNG_SQ_CFG r = ringCfg r := by
  rw [ringCfg, ringBase_sq hr, R.RNG_SQ_CFG]
  omega

theorem cqIndex_eq {q : Nat} (hq : q < 32) : ringIndex (64 + q) = 0x82010 + q * 0x40 := by
  rw [ringIndex, ringBase_cq hq]
  omega

/-! ## A command leaves flight (R157) -/

theorem findCmd_dropCmd (tag : Nat) (s : State) : findCmd (dropCmd tag s) tag = none := by
  refine findCmd_eq_none_iff.2 fun d hd => ?_
  exact of_decide_eq_true (List.mem_filter.1 hd).2

theorem findCmd_releaseTag (c : Cmd) (s : State) : findCmd (releaseTag c s) c.tag = none := findCmd_dropCmd c.tag s

theorem releaseTag_memories (c : Cmd) (s : State) :
    (releaseTag c s).host = s.host ∧ (releaseTag c s).cellar = s.cellar := ⟨rfl, rfl⟩

/-- The registers of an SQ's counts. -/
theorem rd_releaseTag_other (c : Cmd) (s : State) {off : Nat} (done : off ≠ R.RNG_SQ_COMPLETED c.sq)
    (flight : off ≠ R.RNG_SQ_INFLIGHT c.sq) (all : off ≠ R.RNG_STATUS) : rd (releaseTag c s) off = rd s off := by
  unfold releaseTag
  dsimp only
  rw [rd_setFld_other _ _ _ _ all, rd_setFld_other _ _ _ _ flight, addReg, rd_wr_other _ _ done]
  rfl

theorem completed_releaseTag (c : Cmd) (s : State) :
    rd (releaseTag c s) (R.RNG_SQ_COMPLETED c.sq) = (rd s (R.RNG_SQ_COMPLETED c.sq) + 1) % 2 ^ 32 := by
  have flight : R.RNG_SQ_COMPLETED c.sq ≠ R.RNG_SQ_INFLIGHT c.sq := by
    rw [R.RNG_SQ_COMPLETED, R.RNG_SQ_INFLIGHT]
    omega
  have all : R.RNG_SQ_COMPLETED c.sq ≠ R.RNG_STATUS := by
    rw [R.RNG_SQ_COMPLETED, R.RNG_STATUS]
    omega
  unfold releaseTag
  dsimp only
  rw [rd_setFld_other _ _ _ _ all, rd_setFld_other _ _ _ _ flight, rd_addReg, if_pos rfl]
  rfl

/-! ## A record is written (R162, R163, R165) -/

/-- The ring engine's own write reaches no submission or completion ring's registers. -/
theorem dmaWrite_sqKept (port sp x : Nat) (bs : List Byte) (s : State) : SqKept s (dmaWrite 5 port sp x bs s).1 :=
  (dmaWriteWith_events port sp x bs (fun ev _ hc h => h.trans (raise_events ev hc _)) (EventsOnly.refl s)).sqKept

/-- A record written advances the ring's index; what it signals reaches no submission or completion ring's registers. -/
theorem ringAdvance_sqKept (u : Nat) (s : State) : SqKept (addFld s (ringIndex u) 15 0 1) (ringAdvance u s) :=
  (EventsOnly.ite (msixSignal_events _ ((EventsOnly.refl _).marked _)) ((EventsOnly.refl _).marked _)).sqKept

/-- A completion falls due, and it is its turn where its SQ is ORDERED (R166). -/
theorem completionDue_eq {status r0 r1 r2 : Nat} {tick : Option (Nat × Nat)} {linkOk : Bool}
    (turn : flag s (ringCfg c.sq) 3 = true → firstOfSq s c = true) : completionDue c status r0 r1 r2 tick linkOk s =
      if bit (c.w 0) 8 && decide (status = stSuccess) then releaseTag c s
      else completionPost c status r0 r1 r2 (tick.getD (tickNow s)) linkOk s := by
  have now : ¬ (flag s (ringCfg c.sq) 3 && !firstOfSq s c) = true := by
    rw [Bool.and_eq_true, Bool.not_eq_true']
    rintro ⟨ordered, later⟩
    rw [turn ordered] at later
    cases later
  rw [completionDue, if_neg now]

theorem completionDue_silent {r0 r1 r2 : Nat} {tick : Option (Nat × Nat)} {linkOk : Bool}
    (turn : flag s (ringCfg c.sq) 3 = true → firstOfSq s c = true) (silent : bit (c.w 0) 8 = true) :
    completionDue c stSuccess r0 r1 r2 tick linkOk s = releaseTag c s := by
  rw [completionDue_eq turn, silent]
  rfl

theorem completionDue_posts {status r0 r1 r2 : Nat} {tick : Option (Nat × Nat)} {linkOk : Bool}
    (turn : flag s (ringCfg c.sq) 3 = true → firstOfSq s c = true) (told : bit (c.w 0) 8 = false ∨ status ≠ stSuccess) :
    completionDue c status r0 r1 r2 tick linkOk s = completionPost c status r0 r1 r2 (tick.getD (tickNow s)) linkOk s := by
  rw [completionDue_eq turn, if_neg]
  rw [Bool.and_eq_true, decide_eq_true_iff]
  rintro ⟨silent, success⟩
  rcases told with told | told
  · rw [silent] at told
    cases told
  · exact told success

section post

variable {u status r0 r1 r2 : Nat} {tick : Nat × Nat} {linkOk : Bool} (cq : u = 64 + fld s (ringCfg c.sq) 20 16)
  (runs : ringState s u = 2)
include cq runs

/-- A completion ring without room: the command waits (R165). -/
theorem completionPost_full (full : ringFree s u = 0) :
    EventsOnly s (completionPost c status r0 r1 r2 tick linkOk s) := by
  subst cq
  rw [completionPost]
  dsimp only
  rw [if_neg (not_not.2 runs), if_pos full]
  exact raiseOnce_events _ _ (by decide : (6 : Nat) < 256) s

/-- A record written into a completion ring: the command leaves flight (R157, R163). -/
theorem completionPost_written (room : ringFree s u ≠ 0) (link : linkOk = true)
    (sound : granaryBad s (ringCache u) 0x1000 = false)
    (written : dmaWrite 5 18 (ringSpace s u) (ringAddr s u (fld s (ringIndex u) 15 0) 32)
      (wordBytes (completionWords (ringPhase s u) c status tick.1 tick.2 r0 r1 r2)) s = (b, none)) :
    completionPost c status r0 r1 r2 tick linkOk s = releaseTag c (ringAdvance u b) := by
  subst cq
  rw [completionPost]
  dsimp only
  rw [if_neg (not_not.2 runs), if_neg room, ringCacheMet_sound raise _ sound, written, sound, link]
  rfl

end post

/-- What a command shows that has left flight with its record. -/
theorem released_shows {u : Nat} (hs : c.sq < 64) (cq : u = 64 + fld s (ringCfg c.sq) 20 16) (kept : SqKept s b) :
    findCmd (releaseTag c (ringAdvance u b)) c.tag = none ∧
      fld (releaseTag c (ringAdvance u b)) (ringIndex u) 15 0 = (fld s (ringIndex u) 15 0 + 1) % 2 ^ 16 ∧
      rd (releaseTag c (ringAdvance u b)) (R.RNG_SQ_COMPLETED c.sq) = (rd s (R.RNG_SQ_COMPLETED c.sq) + 1) % 2 ^ 32 := by
  have hq : fld s (ringCfg c.sq) 20 16 < 32 := bits_lt _ 20 16
  have index : ringIndex u = 0x82010 + fld s (ringCfg c.sq) 20 16 * 0x40 := by rw [cq, cqIndex_eq hq]
  have done : R.RNG_SQ_COMPLETED c.sq < 0x82000 := by
    rw [R.RNG_SQ_COMPLETED]
    omega
  have advanced := ringAdvance_sqKept u b
  refine ⟨findCmd_releaseTag c _, ?_, ?_⟩
  · have other : rd (releaseTag c (ringAdvance u b)) (ringIndex u) = rd (addFld b (ringIndex u) 15 0 1) (ringIndex u) := by
      rw [rd_releaseTag_other c _ (by omega) (by rw [R.RNG_SQ_INFLIGHT]; omega) (by rw [R.RNG_STATUS]; omega)]
      exact advanced.regs _ (by omega) (by omega)
    rw [fld_of_rd_eq other, addFld, fld_setFld_same _ _ _ _ _ (by decide) (by decide),
      fld_of_rd_eq (kept.regs (ringIndex u) (by omega) (by omega))]
  · have low : 0x80000 ≤ R.RNG_SQ_COMPLETED c.sq := by
      rw [R.RNG_SQ_COMPLETED]
      omega
    rw [completed_releaseTag, advanced.regs _ low (by omega), addFld, rd_setFld_other _ _ _ _ (by omega),
      kept.regs _ low (by omega)]

/-! ## COMPLETION_WRITE -/

section completionWrite

variable {tag : Fin 4096} (linkOk : Bool) (run : running s = true) (found : findCmd s tag.val = some c)
include run found

theorem exec_completionWrite_due {st r0 r1 r2 : Nat} {n : Option (Nat × Nat)} (due : c.phase = .due st r0 r1 r2 n) :
    exec (.completionWrite tag linkOk) s = .next (completionDue c st r0 r1 r2 n linkOk s) := by
  show execCompletionWrite tag linkOk s = _
  rw [execCompletionWrite, live_running run, found]
  dsimp only
  rw [due]

/-- A BARRIER finishes when its condition is met, and its guards' accesses have completed (R167). -/
theorem exec_completionWrite_barrier (waits : c.phase = .waiting) (op : c.opcode = 0x48) (met : barrierMet s c = true) :
    exec (.completionWrite tag linkOk) s =
      .next (completionDue c stSuccess 0 0 0 none linkOk (waitUpdates (c.aux.headD 0) s)) := by
  show execCompletionWrite tag linkOk s = _
  rw [execCompletionWrite, live_running run, found]
  dsimp only
  rw [waits]
  exact congrArg Host.Outcome.next (if_pos ⟨op, met⟩)

end completionWrite

/-! ## NOP, BARRIER and LEDGER_READ -/

theorem findCmd_updCmd_other {f : Cmd → Cmd} (same : ∀ c, (f c).tag = c.tag) {tag j : Nat} (other : j ≠ tag) (s : State) :
    findCmd (updCmd tag f s) j = findCmd s j := by
  have kept : ((fun d : Cmd => decide (d.tag = j)) ∘ fun d => if d.tag = tag then f d else d) = fun d => decide (d.tag = j) := by
    funext d
    show decide ((if d.tag = tag then f d else d).tag = j) = _
    split
    · rw [same]
    · rfl
  show (s.rng.cmds.map fun d => if d.tag = tag then f d else d).find? _ = _
  rw [List.find?_map, kept]
  show (findCmd s j).map _ = _
  cases found : findCmd s j with
  | none => rfl
  | some d => rw [Option.map_some, if_neg (by rw [tag_of_findCmd found]; exact other)]

/-- A command that only changes itself. -/
theorem updCmd_alone {tag : Nat} {f : Cmd → Cmd} (same : ∀ c, (f c).tag = c.tag) (found : findCmd s tag = some c) :
    findCmd (updCmd c.tag f s) tag = some (f c) ∧
      updCmd c.tag f s = { s with rng := { s.rng with cmds := (updCmd c.tag f s).rng.cmds } } ∧
      ∀ j, j ≠ tag → findCmd (updCmd c.tag f s) j = findCmd s j := by
  obtain rfl := tag_of_findCmd found
  exact ⟨findCmd_updCmd same found, rfl, fun j other => findCmd_updCmd_other same other s⟩

section service

variable {tag : Fin 4096} (run : running s = true) (found : findCmd s tag.val = some c)
  (may : mayExecute s.rng.cmds c = true)
include run found may

theorem exec_nop (op : c.opcode = 0x01) : exec (.nop tag) s = .next (finish c.tag stSuccess 0 0 0 s) := by
  show execNop tag s = _
  rw [execNop, live_running run, onCmd_started found may op]

theorem exec_barrier (op : c.opcode = 0x48) :
    exec (.barrier tag) s = .next (waitCmd c.tag [if bits (c.w 2) 1 0 = 2 then flightsEnd s else 0] s) := by
  show execBarrier tag s = _
  rw [execBarrier, live_running run, onCmd_started found may op]

theorem exec_ledgerRead (op : c.opcode = 0x50) : exec (.ledgerRead tag) s = .next (ledgerRead c s) := by
  show execLedgerRead tag s = _
  rw [execLedgerRead, live_running run, onCmd_started found may op]

end service

/-- The condition that a LEDGER_READ tells of: the first that fails, or the first (R164). -/
theorem ledgerRead_side {p : Side}
    (told : (∀ y ∈ ledgerSides s (bits (c.w 2) 2 0) (bits (c.w 3) 15 0), y.ok = true) ∧
        (ledgerSides s (bits (c.w 2) 2 0) (bits (c.w 3) 15 0)).head? = some p ∨
      (ledgerSides s (bits (c.w 2) 2 0) (bits (c.w 3) 15 0)).find? (fun y => !y.ok) = some p) :
    ledgerRead c s =
      finish c.tag stSuccess p.left p.right (ofBool (ledgerFaulted s (bits (c.w 2) 2 0) (bits (c.w 3) 15 0))) s := by
  unfold ledgerRead
  dsimp only
  generalize ledgerSides s (bits (c.w 2) 2 0) (bits (c.w 3) 15 0) = ds at told ⊢
  have side : ((ds.find? fun d => !d.ok).or ds.head?).getD (Side.eq 0 0) = p := by
    rcases told with ⟨holds, first⟩ | fails
    · have none_fails : ds.find? (fun d => !d.ok) = none := List.find?_eq_none.2 fun y hy => by rw [holds y hy]; decide
      rw [none_fails, first]
      rfl
    · rw [fails]
      rfl
  rw [side]

/-! ## O36 -/

/-- A command whose completion is due leaves flight, with its record or SILENT, or waits for room. -/
theorem completionWrite_due {tag : Fin 4096} (linkOk : Bool) (run : running s = true) (found : findCmd s tag.val = some c)
    (hs : c.sq < 64) (turn : flag s (ringCfg c.sq) 3 = true → firstOfSq s c = true) {st r0 r1 r2 : Nat}
    {n : Option (Nat × Nat)} (due : c.phase = .due st r0 r1 r2 n) :
    (bit (c.w 0) 8 = true → st = stSuccess → ∃ t, exec (.completionWrite tag linkOk) s = .next t ∧
      findCmd t tag.val = none ∧ t.host = s.host ∧ t.cellar = s.cellar ∧
      rd t (R.RNG_SQ_COMPLETED c.sq) = (rd s (R.RNG_SQ_COMPLETED c.sq) + 1) % 2 ^ 32) ∧
    (bit (c.w 0) 8 = false ∨ st ≠ stSuccess → ∀ u b, u = 64 + fld s (ringCfg c.sq) 20 16 → ringState s u = 2 →
      (ringFree s u = 0 → ∃ t, exec (.completionWrite tag linkOk) s = .next t ∧ EventsOnly s t) ∧
      (ringFree s u ≠ 0 → linkOk = true → granaryBad s (ringCache u) 0x1000 = false →
        dmaWrite 5 18 (ringSpace s u) (ringAddr s u (fld s (ringIndex u) 15 0) 32)
          (wordBytes (completionWords (ringPhase s u) c st (n.getD (tickNow s)).1 (n.getD (tickNow s)).2 r0 r1 r2)) s = (b, none) →
        ∃ t, exec (.completionWrite tag linkOk) s = .next t ∧ findCmd t tag.val = none ∧
          fld t (ringIndex u) 15 0 = (fld s (ringIndex u) 15 0 + 1) % 2 ^ 16 ∧
          rd t (R.RNG_SQ_COMPLETED c.sq) = (rd s (R.RNG_SQ_COMPLETED c.sq) + 1) % 2 ^ 32)) := by
  have executed := exec_completionWrite_due linkOk run found due
  have own := tag_of_findCmd found
  refine ⟨fun silent success => ?_, fun told u b cq runs => ⟨fun full => ?_, fun room link sound written => ?_⟩⟩
  · subst success
    rw [completionDue_silent turn silent] at executed
    obtain ⟨host, cellar⟩ := releaseTag_memories c s
    exact ⟨_, executed, own ▸ findCmd_releaseTag c s, host, cellar, completed_releaseTag c s⟩
  · rw [completionDue_posts turn told] at executed
    exact ⟨_, executed, completionPost_full cq runs full⟩
  · rw [completionDue_posts turn told, completionPost_written cq runs room link sound written] at executed
    have kept : SqKept s b := by
      have wrote := dmaWrite_sqKept 18 (ringSpace s u) (ringAddr s u (fld s (ringIndex u) 15 0) 32)
        (wordBytes (completionWords (ringPhase s u) c st (n.getD (tickNow s)).1 (n.getD (tickNow s)).2 r0 r1 r2)) s
      rwa [written] at wrote
    exact ⟨_, executed, own ▸ released_shows hs cq kept⟩

/-- Settles O36, by the completion that is due, the BARRIER whose condition is met, the three service commands and the pin. -/
theorem completionsAndServiceCommands : Obligations.CompletionsAndServiceCommands := by
  refine ⟨fun tag linkOk c s run found hs turn => ?_, fun tag c s run found may x d cases => ?_, fun pin s run => ?_⟩
  · rw [sqCfg_eq hs] at turn ⊢
    refine ⟨fun st r0 r1 r2 n due => completionWrite_due linkOk run found hs turn due, fun waits op met => ?_⟩
    have executed := exec_completionWrite_barrier linkOk run found waits op met
    refine ⟨executed, fun silent => ⟨_, executed, ?_⟩⟩
    rw [completionDue_silent (s := waitUpdates (c.aux.headD 0) s) turn silent, ← tag_of_findCmd found]
    exact findCmd_releaseTag c _
  · rcases cases with ⟨rfl, op, rfl⟩ | ⟨rfl, op, rfl⟩ | ⟨rfl, op, p, -, told, rfl⟩
    · exact ⟨_, exec_nop run found may op, updCmd_alone (by exact fun _ => rfl) found⟩
    · exact ⟨_, exec_barrier run found may op, updCmd_alone (by exact fun _ => rfl) found⟩
    · exact ⟨_, (exec_ledgerRead run found may op).trans (congrArg _ (ledgerRead_side told)),
        updCmd_alone (by exact fun _ => rfl) found⟩
  · exact ⟨_, live_running run (fun s => wr s (R.EVT_PIN_STATUS pin.val) 0), rd_wr_same s _ 0,
      (OnlyRegs.refl s).wr _ _ (decide_eq_true rfl)⟩

end Sys2Proof.Machine
end

section
/-!
PROOFS. Doorbells, and rings that are enabled and disabled (R152 to R154, R172). How the two events of a start or a stop reach a
ring's own registers is said once, by `rd_ringEvent`.
-/

namespace Sys2Proof.Machine

variable {s t : State} {u : Nat}

/-! ## Registers of a ring and events -/

/-- The block of a ring lies among those of the ring unit; an event ring's above those of the other rings. -/
theorem ringBase_bounds (hu : u < 100) : 0x81000 ≤ ringBase u ∧ ringBase u + 0x40 ≤ 0x82900 ∧
    (u < 96 → ringBase u + 0x40 ≤ 0x82800) ∧ (96 ≤ u → ringBase u = 0x82800 + (u - 96) * 0x40) := by
  unfold ringBase
  split_ifs <;> omega

/-- The registers that an event without a record in an event ring writes: its count and its pin (R174, R175). -/
def signalReg (off : Nat) : Bool := decide (0x90400 ≤ off ∧ off < 0x90840)

theorem signalReg_count {c : Nat} (h : c < 256) : signalReg (R.EVT_COUNT c) = true := by
  rw [signalReg, decide_eq_true_iff, R.EVT_COUNT]
  omega

theorem msixSignal_regs (v : Nat) (s : State) : (msixSignal v s).regs = s.regs := by
  unfold msixSignal memStore keepOld
  dsimp only
  split_ifs <;> rfl

theorem rd_eventSignals (code : Nat) (s : State) {off : Nat} (h : signalReg off = false) :
    rd (eventSignals code s) off = rd s off := by
  have msix : ∀ (p : Prop) [Decidable p] (v : Nat), rd (if p then msixSignal v s else s) off = rd s off := fun p _ v => by
    split
    · rw [rd, msixSignal_regs, ← rd]
    · rfl
  have pin : ∀ (p : Nat) (x : State), p < 4 → rd (pinRoute p code x) off = rd x off := fun p x hp => by
    rw [signalReg, decide_eq_false_iff_not] at h
    unfold pinRoute
    dsimp only
    split
    · exact rd_wr_other _ _ (by rw [R.EVT_PIN_COUNT]; omega)
    · rw [rd_wr_other _ _ (by rw [R.EVT_PIN_STATUS]; omega)]
      exact rd_wr_other _ _ (by rw [R.EVT_PIN_COUNT]; omega)
  unfold eventSignals
  dsimp only
  split
  · rw [pin _ _ (bits_lt _ 17 16), msix]
  · exact msix _ _

/-- An event that no event ring records. -/
theorem rd_raise_unrouted {ev : Ev} (hc : ev.code < 256) (unrouted : flag s (R.EVT_CODE ev.code) 31 = false) {off : Nat}
    (h : signalReg off = false) : rd (raise ev s) off = rd s off := by
  have apart : ∀ o, signalReg o = false → rd (addReg s (R.EVT_COUNT ev.code) 1) o = rd s o := fun o ho => by
    refine rd_wr_other _ _ ?_
    rintro rfl
    rw [signalReg_count hc] at ho
    cases ho
  have code : signalReg (R.EVT_CODE ev.code) = false := by
    rw [signalReg, decide_eq_false_iff_not, R.EVT_CODE]
    omega
  have none_posts : ¬ bit (rd (addReg s (R.EVT_COUNT ev.code) 1) (R.EVT_CODE ev.code)) 31 = true := by
    rw [apart _ code]
    exact Bool.eq_false_iff.1 unrouted
  rw [raise, raiseFuel]
  rw [if_neg none_posts, rd_eventSignals _ _ h, apart off h]

/-- The events of a ring's start and stop go to no event ring, where the ring is one. -/
def RingQuiet (u : Nat) (s : State) : Prop :=
  96 ≤ u → flag s (R.EVT_CODE 9) 31 = false ∧ flag s (R.EVT_CODE 3) 31 = false

/-- The registers up to the counts of events, or, of the rings that are not event rings, up to the event rings'. -/
def ringTop (u : Nat) : Nat := if u < 96 then 0x82800 else 0x90400

theorem RingQuiet.of_rd (q : RingQuiet u s)
    (h : 96 ≤ u → ∀ off, 0x90000 ≤ off → off < 0x90400 → rd t off = rd s off) : RingQuiet u t := fun hu => by
  rw [flag_of_rd_eq (h hu _ (by decide) (by decide)), flag_of_rd_eq (h hu _ (by decide) (by decide))]
  exact q hu

theorem RingQuiet.raise (q : RingQuiet u s) (ev : Ev) (hc : ev.code < 256) : RingQuiet u (raise ev s) := by
  refine q.of_rd fun _ off lo hi => rd_raise ev hc s ?_
  rw [eventReg, decide_eq_false_iff_not]
  omega

/-- A write to a ring's own block. -/
theorem RingQuiet.wr (q : RingQuiet u s) (hu : u < 100) {k : Nat} (hk : k < 0x40) (v : Nat) :
    RingQuiet u (wr s (ringBase u + k) v) := by
  have bounds := ringBase_bounds hu
  exact q.of_rd fun _ off lo _ => rd_wr_other s v (by omega)

/-- What the events of a ring's start and stop leave of the ring unit (R170 to R175). -/
theorem rd_ringEvent (q : RingQuiet u s) {ev : Ev} (code : ev.code = 9 ∨ ev.code = 3) {off : Nat} (lo : 0x80000 ≤ off)
    (hi : off < ringTop u) : rd (raise ev s) off = rd s off := by
  have hc : ev.code < 256 := by omega
  unfold ringTop at hi
  split at hi
  · exact rd_raise ev hc s (eventReg_sq lo hi)
  · next eq =>
    obtain ⟨state, error⟩ := q (by omega)
    refine rd_raise_unrouted hc ?_ ?_
    · rcases code with e | e
      · rw [e, state]
      · rw [e, error]
    · rw [signalReg, decide_eq_false_iff_not]
      omega

/-- The registers of the ring itself. -/
theorem rd_ringEvent_own (q : RingQuiet u s) (hu : u < 100) {ev : Ev} (code : ev.code = 9 ∨ ev.code = 3) {k : Nat}
    (hk : k < 0x40) : rd (raise ev s) (ringBase u + k) = rd s (ringBase u + k) := by
  obtain ⟨lo, hi, low, -⟩ := ringBase_bounds hu
  refine rd_ringEvent q code (by omega) ?_
  unfold ringTop
  split
  · next h => have := low h; omega
  · omega

/-! ## The state of a ring -/

/-- A ring moves to a state other than OFF. -/
theorem setUnit_ring {new : Nat} (hn : new ≠ 0) (queued : Bool) (s : State) : ∃ ev : Ev, ev.code = 9 ∧
    setUnit 3 u new queued s = raise ev (setFld s (ringStatus u) 1 0 new) := by
  refine ⟨{ code := 9, unit := u, sub := 3 * 16 + unitState s 3 u * 4 + new, a0 := ofBool queued }, rfl, ?_⟩
  unfold setUnit setUnitThen
  dsimp only
  rw [if_neg hn, if_neg (by decide)]
  rfl

theorem setUnit_ring_off (queued : Bool) (s : State) : ∃ ev : Ev, ev.code = 9 ∧
    setUnit 3 u 0 queued s = raise ev (noteOff 3 u (setFld s (ringStatus u) 1 0 0)) :=
  ⟨{ code := 9, unit := u, sub := 3 * 16 + unitState s 3 u * 4 + 0, a0 := ofBool queued }, rfl, rfl⟩

theorem rd_noteOff (kind u : Nat) (s : State) (off : Nat) : rd (noteOff kind u s) off = rd s off := rfl

/-- Any state of a ring: what its registers read. -/
theorem rd_setUnit_ring (q : RingQuiet u s) (hu : u < 100) (new : Nat) (queued : Bool) {k : Nat} (hk : k < 0x40) :
    rd (setUnit 3 u new queued s) (ringBase u + k) = rd (setFld s (ringStatus u) 1 0 new) (ringBase u + k) := by
  have moved : RingQuiet u (setFld s (ringStatus u) 1 0 new) := q.wr hu (k := 0xC) (by decide) _
  rcases eq_or_ne new 0 with rfl | on
  · obtain ⟨ev, code, eq⟩ := setUnit_ring_off (u := u) queued s
    have noted : RingQuiet u (noteOff 3 u (setFld s (ringStatus u) 1 0 0)) := moved
    rw [eq, rd_ringEvent_own noted hu (.inl code) hk]
    exact rd_noteOff _ _ _ _
  · obtain ⟨ev, code, eq⟩ := setUnit_ring (u := u) on queued s
    rw [eq, rd_ringEvent_own moved hu (.inl code) hk]

theorem RingQuiet.setUnit (q : RingQuiet u s) (hu : u < 100) (new : Nat) (queued : Bool) :
    RingQuiet u (setUnit 3 u new queued s) := by
  have moved : RingQuiet u (setFld s (ringStatus u) 1 0 new) := q.wr hu (k := 0xC) (by decide) _
  rcases eq_or_ne new 0 with rfl | on
  · obtain ⟨ev, code, eq⟩ := setUnit_ring_off (u := u) queued s
    have noted : RingQuiet u (noteOff 3 u (setFld s (ringStatus u) 1 0 0)) := moved
    rw [eq]
    exact noted.raise ev (by omega)
  · obtain ⟨ev, code, eq⟩ := setUnit_ring (u := u) on queued s
    rw [eq]
    exact moved.raise ev (by omega)

theorem ringState_setUnit (q : RingQuiet u s) (hu : u < 100) (new : Nat) (queued : Bool) :
    ringState (setUnit 3 u new queued s) u = new % 4 :=
  (fld_of_rd_eq (rd_setUnit_ring q hu new queued (k := 0xC) (by decide)) 1 0).trans
    (fld_setFld_same _ _ _ _ _ (by decide) (by decide))

theorem flag_setUnit_ring (q : RingQuiet u s) (hu : u < 100) (new : Nat) (queued : Bool) {i : Nat} (hi : 1 < i) :
    flag (setUnit 3 u new queued s) (ringStatus u) i = flag s (ringStatus u) i :=
  (flag_of_rd_eq (rd_setUnit_ring q hu new queued (k := 0xC) (by decide)) i).trans
    (flag_setFld_above _ _ _ (by decide) (by decide) hi)

theorem rd_setUnit_ring_other (q : RingQuiet u s) (hu : u < 100) (new : Nat) (queued : Bool) {k : Nat} (hk : k < 0x40)
    (other : k ≠ 0xC) : rd (setUnit 3 u new queued s) (ringBase u + k) = rd s (ringBase u + k) :=
  (rd_setUnit_ring q hu new queued hk).trans (rd_setFld_other _ _ _ _ (by rw [ringStatus]; omega))

theorem cmds_setUnit_ring (new : Nat) (queued : Bool) (s : State) : (setUnit 3 u new queued s).rng.cmds = s.rng.cmds := by
  rcases eq_or_ne new 0 with rfl | on
  · obtain ⟨ev, code, eq⟩ := setUnit_ring_off (u := u) queued s
    rw [eq, raise_rng_cmds ev (by omega)]
    rfl
  · obtain ⟨ev, code, eq⟩ := setUnit_ring (u := u) on queued s
    rw [eq, raise_rng_cmds ev (by omega)]
    rfl

/-! ## Doorbells (R153, R154) -/

theorem doorbellInRange_of_regs (h : t.regs = s.regs) (u p : Nat) : doorbellInRange t u p = doorbellInRange s u p := by
  unfold doorbellInRange ringSize ringState fld rd
  rw [h]

/-- Without events lost an event ring posts nothing of its own (R172). -/
theorem eqPostLost_none {e : Nat} (none : rd s (R.RNG_EQ_LOST e) = 0) : eqPostLost e s = s := by
  rw [eqPostLost]
  exact if_neg fun h => h.2.1 none

/-- A doorbell word that is not taken. -/
theorem doorbell_refused {w : Nat} {narrow : Bool} (bad : narrow = true ∨ bits w 31 16 ≠ bits w 15 0 ^^^ 0xFFFF ∨
    doorbellInRange s u (bits w 15 0) = false) : EventsOnly (setFlag s (ringStatus u) 2 true) (doorbell u w narrow s) := by
  have code : (1 : Nat) < 256 := by decide
  unfold doorbell
  dsimp only
  split
  · exact raiseOnce_events _ _ code _
  · next sound =>
    rw [Bool.or_eq_true, Bool.not_eq_true', doorbellSound, decide_eq_false_iff_not, not_or, not_not] at sound
    obtain ⟨wide, complement⟩ := sound
    have outside := (bad.resolve_left wide).resolve_left (not_not.2 complement)
    rw [outside, if_pos (by decide)]
    exact raise_events _ code _

/-- A doorbell word that is taken. -/
theorem doorbell_taken {w : Nat} (complement : bits w 31 16 = bits w 15 0 ^^^ 0xFFFF)
    (room : doorbellInRange s u (bits w 15 0) = true) (none : 96 ≤ u → rd s (R.RNG_EQ_LOST (u - 96)) = 0) :
    doorbell u w false s = setFld s (ringIndex u) 31 16 (bits w 15 0) := by
  have sound : doorbellSound w = true := decide_eq_true complement
  unfold doorbell
  dsimp only
  rw [sound, room, if_neg (by decide), if_neg (by decide)]
  split
  · next eq =>
    refine eqPostLost_none ((rd_setFld_other _ _ _ _ ?_).trans (none eq))
    rw [ringIndex, ringBase, if_neg (by omega), if_neg (by omega), R.RNG_EQ_LOST]
    omega
  · rfl

/-- The three doorbell commands, with the ring that each rings and the state in which it is judged. -/
theorem exec_doorbell {r : Fin 64} {q : Fin 32} {e : Fin 4} {w : Word} {narrow : Bool} {hm : Cells} (run : running s = true)
    {c : Instr} {u : Nat} {a : State} (h : (c, u, a) ∈ [(Instr.sqDoorbell r w narrow hm, r.val, hostStore hm s),
      (.cqDoorbell q w narrow, 64 + q.val, s), (.eqDoorbell e w narrow, 96 + e.val, s)]) :
    exec c s = .next (doorbell u w.toNat narrow a) ∧ a.regs = s.regs := by
  simp only [List.mem_cons, Prod.mk.injEq, List.not_mem_nil, or_false] at h
  rcases h with ⟨rfl, rfl, rfl⟩ | ⟨rfl, rfl, rfl⟩ | ⟨rfl, rfl, rfl⟩
  · exact ⟨live_running run fun s => doorbell r.val w.toNat narrow (hostStore hm s), hostStore_regs hm s⟩
  · exact ⟨live_running run _, rfl⟩
  · exact ⟨live_running run _, rfl⟩

/-! ## Enable (R152) -/

theorem ringNum_lt (ring : RingId) : ringNum ring < 100 := by
  cases ring <;> rw [ringNum] <;> omega

theorem bit_enable (v : Nat) : bit (setBits v 0 0 1) 0 = true := bit_arm v
theorem bit_disable (v : Nat) : bit (setBits v 0 0 0) 0 = false := bit_disarm v

theorem ringCfgWrite_off {v : Nat} (off : ringState s u = 0) (en : bit v 0 = true) :
    ringCfgWrite u v s = ringStart u (wr s (ringCfg u) (v &&& (ringCfgMask u + 1))) := by
  rw [ringCfgWrite]
  dsimp only
  rw [if_pos off, if_pos en]

/-- The state of a ring that starts tells nothing of whether its configuration is valid. -/
theorem ringValid_started (q : RingQuiet u s) (hu : u < 100) :
    ringValid (setUnit 3 u 1 false s) u = ringValid s u := by
  have cfg := rd_setUnit_ring_other q hu 1 false (k := 8) (by decide) (by decide)
  have lo := rd_setUnit_ring_other q hu 1 false (k := 0) (by decide) (by decide)
  have hi := rd_setUnit_ring_other q hu 1 false (k := 4) (by decide) (by decide)
  rw [Nat.add_zero] at lo
  rw [← ringCfg] at cfg
  rw [ringValid, ringValid]
  rw [cfg, rd64, rd64, lo, hi]
  by_cases sq : u < 64
  · have hc : bits (rd s (ringCfg u)) 20 16 < 32 := bits_lt _ 20 16
    have ring : ringState (setUnit 3 u 1 false s) (64 + bits (rd s (ringCfg u)) 20 16) =
        ringState s (64 + bits (rd s (ringCfg u)) 20 16) := by
      obtain ⟨ev, code, eq⟩ := setUnit_ring (u := u) (by decide : 1 ≠ 0) false s
      have status : ringStatus (64 + bits (rd s (ringCfg u)) 20 16) ≠ ringStatus u := by
        rw [ringStatus, ringStatus, ringBase_cq hc, ringBase_sq sq]
        omega
      rw [ringState, eq, fld_raise ev (by omega) _ (eventReg_sq ?_ ?_), fld_setFld_other _ _ _ _ _ _ status, ← ringState]
      all_goals
        rw [ringStatus, ringBase_cq hc]
        omega
    rw [ring]
  · rw [decide_eq_true (Nat.not_lt.1 sq), Bool.true_or, Bool.true_or]

/-- A ring whose configuration is valid, before it reports that it runs. -/
def ringZeroed (u : Nat) (s : State) : State :=
  let s := wr (setUnit 3 u 1 false s) (ringIndex u) 0
  { s with rng := { s.rng with posted := smSet (fun _ => 0) s.rng.posted u 0 } }

theorem rd_ringZeroed (s : State) (off : Nat) :
    rd (ringZeroed u s) off = rd (wr (setUnit 3 u 1 false s) (ringIndex u) 0) off := rfl

theorem RingQuiet.zeroed (q : RingQuiet u s) (hu : u < 100) : RingQuiet u (ringZeroed u s) :=
  RingQuiet.wr (q.setUnit hu 1 false) hu (k := 0x10) (by decide) 0

/-- An event ring that runs without events lost: the second step of its start is that of its state. -/
theorem ringStart_valid (q : RingQuiet u s) (hu : u < 100) (valid : ringValid s u = true)
    (none : 96 ≤ u → rd s (R.RNG_EQ_LOST (u - 96)) = 0) : ringStart u s = setUnit 3 u 2 false (ringZeroed u s) := by
  have posts : (if 96 ≤ u then eqPostLost (u - 96) (setFld (ringZeroed u s) (ringStatus u) 1 0 2)
      else setFld (ringZeroed u s) (ringStatus u) 1 0 2) = setFld (ringZeroed u s) (ringStatus u) 1 0 2 := by
    split
    · next eq =>
      obtain ⟨-, -, -, base⟩ := ringBase_bounds hu
      have lost : R.RNG_EQ_LOST (u - 96) = ringBase u + 0x14 := by
        rw [base eq, R.RNG_EQ_LOST]
        omega
      refine eqPostLost_none ?_
      rw [lost] at none ⊢
      rw [rd_setFld_other _ _ _ _ (by rw [ringStatus]; omega), rd_ringZeroed, rd_wr_other _ _ (by rw [ringIndex]; omega),
        rd_setUnit_ring_other q hu 1 false (by decide) (by decide), none eq]
    · rfl
  rw [ringStart]
  dsimp only
  rw [ringValid_started q hu, if_pos valid]
  exact congrArg
    (raise { code := 9, unit := u, sub := 3 * 16 + unitState (ringZeroed u s) 3 u * 4 + 2, a0 := ofBool false }) posts

theorem ringStart_runs (q : RingQuiet u s) (hu : u < 100) (valid : ringValid s u = true)
    (none : 96 ≤ u → rd s (R.RNG_EQ_LOST (u - 96)) = 0) :
    ringState (ringStart u s) u = 2 ∧ rd (ringStart u s) (ringIndex u) = 0 := by
  have zeroed := q.zeroed hu
  rw [ringStart_valid q hu valid none]
  refine ⟨ringState_setUnit zeroed hu 2 false, ?_⟩
  rw [ringIndex, rd_setUnit_ring_other zeroed hu 2 false (by decide) (by decide), rd_ringZeroed]
  exact rd_wr_same _ _ 0

/-- An invalid configuration: the ring is OFF again, with FAULT. -/
theorem ringStart_faults (q : RingQuiet u s) (hu : u < 100) (bad : ringValid s u = false) :
    ringState (ringStart u s) u = 0 ∧ flag (ringStart u s) (ringStatus u) 5 = true := by
  have started := q.setUnit hu 1 false
  have marked : RingQuiet u (setFlag (setUnit 3 u 1 false s) (ringStatus u) 5 true) := started.wr hu (k := 0xC) (by decide) _
  have stopped := marked.setUnit hu 0 false
  obtain ⟨ev, code, eq⟩ : ∃ ev : Ev, ev.code = 3 ∧ ringStart u s =
      raise ev (setUnit 3 u 0 false (setFlag (setUnit 3 u 1 false s) (ringStatus u) 5 true)) := by
    refine ⟨{ code := 3, unit := u, sub := 2,
              a0 := rd (setUnit 3 u 0 false (setFlag (setUnit 3 u 1 false s) (ringStatus u) 5 true)) (ringBase u),
              a1 := rd (setUnit 3 u 0 false (setFlag (setUnit 3 u 1 false s) (ringStatus u) 5 true)) (ringBase u + 4) },
      rfl, ?_⟩
    rw [ringStart]
    dsimp only
    rw [ringValid_started q hu, if_neg (Bool.eq_false_iff.1 bad)]
  have status := rd_ringEvent_own stopped hu (ev := ev) (.inr code) (k := 0xC) (by decide)
  rw [eq]
  refine ⟨(fld_of_rd_eq status 1 0).trans (ringState_setUnit marked hu 0 false), (flag_of_rd_eq status 5).trans ?_⟩
  exact (flag_setUnit_ring marked hu 0 false (by decide)).trans (flag_setFlag_same _ _ _ _ (by decide))

/-! ## Disable (R152) -/

/-- A CFG write to a ring that is not OFF sets at most CFG_IGNORED. -/
theorem ringCfgKeep_cases (u v : Nat) (s : State) :
    ringCfgKeep u v s = s ∨ ringCfgKeep u v s = setFlag s (ringStatus u) 4 true := by
  unfold ringCfgKeep
  split
  · exact .inl rfl
  · exact .inr rfl

theorem ringCfgKeep_kept (u v : Nat) (s : State) : (∀ off, off ≠ ringStatus u → rd (ringCfgKeep u v s) off = rd s off) ∧
    ringState (ringCfgKeep u v s) u = ringState s u ∧ (ringCfgKeep u v s).rng = s.rng := by
  rcases ringCfgKeep_cases u v s with same | marked
  · rw [same]
    exact ⟨fun _ _ => rfl, rfl, rfl⟩
  · rw [marked]
    exact ⟨fun _ other => rd_setFld_other s 4 4 _ other,
      fld_setFld_below s _ 4 4 _ 1 0 le_rfl (by decide) (by decide) (by decide), rfl⟩

theorem ringCfgWrite_stops {v : Nat} (runs : ringState s u = 2) (en : bit v 0 = false) : ringCfgWrite u v s =
    if 64 ≤ u ∧ u < 96 ∧ cqNamed (ringCfgKeep u v s) (u - 64) = true then setFlag (ringCfgKeep u v s) (ringStatus u) 4 true
    else ringDrain u (setFlag (ringCfgKeep u v s) (ringCfg u) 0 false) := by
  rw [ringCfgWrite]
  dsimp only
  rw [runs, if_neg (by decide), en, if_neg (by decide), if_neg (by decide)]

/-- A submission ring that drains keeps its commands in flight. -/
theorem sqDrain_drains (hu : u < 64) (s : State) : ringState (ringDrain u s) u = 3 ∧
    (∀ i, flag (ringDrain u s) (ringCfg u) i = flag s (ringCfg u) i) ∧ (ringDrain u s).rng.cmds = s.rng.cmds := by
  have quiet : RingQuiet u s := fun h => by omega
  rw [ringDrain]
  rw [if_neg (by omega)]
  exact ⟨ringState_setUnit quiet (by omega) 3 false,
    flag_of_rd_eq (rd_setUnit_ring_other quiet (by omega) 3 false (k := 8) (by decide) (by decide)),
    cmds_setUnit_ring 3 false s⟩

/-- A completion ring has nothing to drain. -/
theorem cqDrain_off (lo : 64 ≤ u) (hi : u < 96) (s : State) : ringState (ringDrain u s) u = 0 := by
  have quiet : RingQuiet u s := fun h => by omega
  rw [ringDrain]
  rw [if_pos lo]
  exact ringState_setUnit (quiet.setUnit (by omega) 3 false) (by omega) 0 false

theorem cqNamed_congr (h : ∀ off, 0x81000 ≤ off → off < 0x82000 → rd t off = rd s off) (q : Nat) :
    cqNamed t q = cqNamed s q := by
  have ring : ∀ r < 64, ringState t r = ringState s r ∧ fld t (ringCfg r) 20 16 = fld s (ringCfg r) 20 16 := fun r hr => by
    have base := ringBase_sq hr
    refine ⟨fld_of_rd_eq (h _ ?_ ?_) 1 0, fld_of_rd_eq (h _ ?_ ?_) 20 16⟩ <;> simp only [ringStatus, ringCfg, base] <;> omega
  rw [Bool.eq_iff_iff, cqNamed, cqNamed, List.any_eq_true, List.any_eq_true]
  refine exists_congr fun r => and_congr_right fun hr => ?_
  obtain ⟨state, cq⟩ := ring r (List.mem_range.1 hr)
  rw [state, cq]

theorem cqNamed_ringCfgKeep {q : Nat} (hq : q < 32) (v : Nat) (s : State) (j : Nat) :
    cqNamed (ringCfgKeep (64 + q) v s) j = cqNamed s j := by
  refine cqNamed_congr (fun off _ hi => (ringCfgKeep_kept (64 + q) v s).1 off ?_) j
  rw [ringStatus, ringBase_cq hq]
  omega

/-! ## O34 -/

theorem ringEnable_answers {ring : RingId} {cfg : Word} (run : running s = true) (off : ringState s (ringNum ring) = 0)
    (quiet : 96 ≤ ringNum ring → flag s (R.EVT_CODE 9) 31 = false ∧ flag s (R.EVT_CODE 3) 31 = false ∧
      rd s (R.RNG_EQ_LOST (ringNum ring - 96)) = 0) {a : State}
    (ha : a = wr s (ringCfg (ringNum ring)) (setBits cfg.toNat 0 0 1 &&& (ringCfgMask (ringNum ring) + 1))) :
    exec (.ringEnable ring cfg) s = .next (ringStart (ringNum ring) a) ∧ RingQuiet (ringNum ring) a ∧
      (96 ≤ ringNum ring → rd a (R.RNG_EQ_LOST (ringNum ring - 96)) = 0) := by
  subst ha
  have own : RingQuiet (ringNum ring) s := fun h => ⟨(quiet h).1, (quiet h).2.1⟩
  refine ⟨?_, own.wr (ringNum_lt ring) (k := 8) (by decide) _, fun h => ?_⟩
  · exact (live_running run _).trans (congrArg _ (ringCfgWrite_off off (bit_enable _)))
  · obtain ⟨-, -, -, base⟩ := ringBase_bounds (ringNum_lt ring)
    obtain ⟨-, -, none⟩ := quiet h
    rw [rd_wr_other _ _ ?_, none]
    rw [ringCfg, base h, R.RNG_EQ_LOST]
    omega

theorem exec_ringDisable {ring : RingId} {cfg : Word} (run : running s = true) (runs : ringState s (ringNum ring) = 2) :
    exec (.ringDisable ring cfg) s = .next (
      if 64 ≤ ringNum ring ∧ ringNum ring < 96 ∧
          cqNamed (ringCfgKeep (ringNum ring) (setBits cfg.toNat 0 0 0) s) (ringNum ring - 64) = true then
        setFlag (ringCfgKeep (ringNum ring) (setBits cfg.toNat 0 0 0) s) (ringStatus (ringNum ring)) 4 true
      else ringDrain (ringNum ring)
        (setFlag (ringCfgKeep (ringNum ring) (setBits cfg.toNat 0 0 0) s) (ringCfg (ringNum ring)) 0 false)) :=
  (live_running run _).trans (congrArg _ (ringCfgWrite_stops runs (bit_disable _)))

theorem sqDisable_drains {r : Fin 64} {cfg : Word} (run : running s = true) (runs : ringState s r.val = 2) :
    ∃ t, exec (.ringDisable (.sq r) cfg) s = .next t ∧ ringState t r.val = 3 ∧ flag t (R.RNG_SQ_CFG r.val) 0 = false ∧
      t.rng.cmds = s.rng.cmds := by
  have executed := exec_ringDisable (ring := .sq r) (cfg := cfg) run runs
  rw [if_neg (by rw [ringNum]; omega)] at executed
  obtain ⟨state, cfgBit, cmds⟩ := sqDrain_drains r.isLt
    (setFlag (ringCfgKeep r.val (setBits cfg.toNat 0 0 0) s) (ringCfg r.val) 0 false)
  obtain ⟨-, -, rng⟩ := ringCfgKeep_kept r.val (setBits cfg.toNat 0 0 0) s
  refine ⟨_, executed, state, ?_, cmds.trans (congrArg RingSt.cmds rng)⟩
  rw [sqCfg_eq r.isLt]
  exact (cfgBit 0).trans (flag_setFlag_same _ _ _ _ (by decide))

theorem cqDisable_answers {q : Fin 32} {cfg : Word} (run : running s = true) (runs : ringState s (64 + q.val) = 2) :
    (cqNamed s q.val = false → ∃ t, exec (.ringDisable (.cq q) cfg) s = .next t ∧ ringState t (64 + q.val) = 0) ∧
    (cqNamed s q.val = true → ∃ t, exec (.ringDisable (.cq q) cfg) s = .next t ∧ ringState t (64 + q.val) = 2 ∧
      flag t (R.RNG_CQ_STATUS q.val) 4 = true) := by
  have executed := exec_ringDisable (ring := .cq q) (cfg := cfg) run runs
  rw [ringNum, Nat.add_sub_cancel_left, cqNamed_ringCfgKeep q.isLt] at executed
  obtain ⟨-, state, -⟩ := ringCfgKeep_kept (64 + q.val) (setBits cfg.toNat 0 0 0) s
  refine ⟨fun unnamed => ?_, fun named => ?_⟩
  · rw [if_neg (by rw [unnamed]; simp)] at executed
    exact ⟨_, executed, cqDrain_off (by omega) (by omega) _⟩
  · rw [if_pos ⟨by omega, by omega, named⟩] at executed
    have reg : R.RNG_CQ_STATUS q.val = ringStatus (64 + q.val) := by
      rw [ringStatus, ringBase_cq q.isLt, R.RNG_CQ_STATUS]
      omega
    refine ⟨_, executed, ?_, ?_⟩
    · exact (fld_setFld_below _ _ 4 4 _ 1 0 le_rfl (by decide) (by decide) (by decide)).trans (state.trans runs)
    · rw [reg]
      exact flag_setFlag_same _ _ _ _ (by decide)

/-- Settles O34, by what a doorbell word, an enable of an OFF ring and a disable of a RUNNING one each meet. -/
theorem ringsTakeDoorbellsAndEnables : Obligations.RingsTakeDoorbellsAndEnables := by
  refine ⟨fun r q e w narrow hm s run c u a rung => ?_, fun ring cfg s run off quiet a ha => ?_, fun r cfg s run runs => ?_,
    fun q cfg s run runs => cqDisable_answers run runs⟩
  · obtain ⟨executed, regs⟩ := exec_doorbell run rung
    refine ⟨fun bad => ⟨_, executed, doorbell_refused ?_⟩, fun wide complement room none => ?_⟩
    · rwa [doorbellInRange_of_regs regs]
    · subst wide
      refine executed.trans (congrArg _ (doorbell_taken complement ?_ fun eq => ?_))
      · rw [doorbellInRange_of_regs regs, room]
      · rw [rd, regs, ← rd, none eq]
  · obtain ⟨executed, own, none⟩ := ringEnable_answers run off quiet ha
    exact ⟨fun valid => ⟨_, executed, ringStart_runs own (ringNum_lt ring) valid none⟩,
      fun bad => ⟨_, executed, ringStart_faults own (ringNum_lt ring) bad⟩⟩
  · exact sqDisable_drains run runs

end Sys2Proof.Machine
end

section
/-!
PROOFS. Heads that are enabled and disabled, and their pixel PLLs (R179, R180, R309 to R314). The heads of a pair act in turn:
`HeadKept` says what the act of one leaves of the other, and `eachHead_own` reduces a statement about a head to its own act.
-/

namespace Sys2Proof.Machine

variable {a b s : State} {h k lo new : Nat}

/-! ## What the act of a head leaves of another -/

/-- The time base's registers, and those of a head from an offset on. -/
def headReg (lo h off : Nat) : Bool :=
  decide ((0x50000 ≤ off ∧ off < 0x50100) ∨ (0x300000 + h * 0x4000 + lo ≤ off ∧ off < 0x304000 + h * 0x4000))

/-- Two states in which the registers of `headReg`, the clock, the ticks of OFF and of the last seal, and the commands in flight
but for their steps are the same. -/
structure HeadRegs (lo h : Nat) (a b : State) : Prop where
  regs : ∀ off, headReg lo h off = true → rd b off = rd a off
  clock : b.clock = a.clock
  offAt : b.rng.offAt = a.rng.offAt
  tick : tickNow b = tickNow a
  cmds : CmdsKept a b

/-- The head itself is the same too, but for its writeback buffers. -/
structure HeadKept (lo h : Nat) (a b : State) : Prop extends HeadRegs lo h a b where
  head : headAt b h = { headAt a h with wbs := (headAt b h).wbs }

theorem HeadRegs.refl (lo h : Nat) (s : State) : HeadRegs lo h s s := ⟨fun _ _ => rfl, rfl, rfl, rfl, CmdsKept.refl s⟩

theorem HeadRegs.trans {c : State} (v : HeadRegs lo h a b) (w : HeadRegs lo h b c) : HeadRegs lo h a c :=
  ⟨fun off ho => (w.regs off ho).trans (v.regs off ho), w.clock.trans v.clock, w.offAt.trans v.offAt, w.tick.trans v.tick,
    v.cmds.trans w.cmds⟩

theorem HeadRegs.mono {hi : Nat} (w : HeadRegs lo h a b) (le : lo ≤ hi) : HeadRegs hi h a b := by
  refine ⟨fun off ho => w.regs off ?_, w.clock, w.offAt, w.tick, w.cmds⟩
  rw [headReg, decide_eq_true_iff] at ho ⊢
  omega

theorem HeadRegs.reg {r : Nat} (w : HeadRegs lo h a b) (le : lo ≤ r) (lt : r < 0x4000) :
    rd b (0x300000 + r + h * 0x4000) = rd a (0x300000 + r + h * 0x4000) := by
  refine w.regs _ ?_
  rw [headReg, decide_eq_true_iff]
  omega

theorem HeadRegs.unitState (w : HeadRegs 0 h a b) : unitState b 1 h = unitState a 1 h :=
  fld_of_rd_eq (w.reg (r := 4) (by decide) (by decide)) 1 0

theorem HeadRegs.locked (w : HeadRegs 0 h a b) : headLocked b h = headLocked a h :=
  flag_of_rd_eq (w.reg (r := 4) (by decide) (by decide)) 3

theorem HeadRegs.enabled (w : HeadRegs 0 h a b) : flag b (R.HEAD_CTRL h) 0 = flag a (R.HEAD_CTRL h) 0 :=
  flag_of_rd_eq (w.reg (r := 0) (by decide) (by decide)) 0

theorem HeadRegs.tickAfter (w : HeadRegs lo h a b) (x : Nat) : tickAfter b x = tickAfter a x := by
  refine tickAfter_congr (fun off low high => w.regs off ?_) x
  rw [headReg, decide_eq_true_iff]
  omega

theorem HeadKept.refl (lo h : Nat) (s : State) : HeadKept lo h s s := ⟨.refl lo h s, rfl⟩

theorem HeadKept.trans {c : State} (v : HeadKept lo h a b) (w : HeadKept lo h b c) : HeadKept lo h a c :=
  ⟨v.toHeadRegs.trans w.toHeadRegs, by rw [w.head, v.head]⟩

theorem HeadKept.ite {x y : State} {c : Prop} [Decidable c] (hx : HeadKept lo h a x) (hy : HeadKept lo h a y) :
    HeadKept lo h a (if c then x else y) := by
  split
  · exact hx
  · exact hy

theorem HeadKept.foldlMem {β : Type} {f : State → β → State} (l : List β) (w : HeadKept lo h a s)
    (hf : ∀ t x, x ∈ l → HeadKept lo h a t → HeadKept lo h a (f t x)) : HeadKept lo h a (l.foldl f s) := by
  induction l generalizing s with
  | nil => exact w
  | cons x l ih => exact ih (hf s x (.head _) w) fun t y hy => hf t y (.tail _ hy)

theorem HeadKept.of_heads (regs : HeadRegs lo h a b) (heads : b.heads = a.heads) : HeadKept lo h a b :=
  ⟨regs, by rw [headAt_of_heads_eq heads]⟩

theorem SessionWork.headKept (hh : h < 24) (w : SessionWork a b) : HeadKept lo h a b := by
  obtain ⟨regs, head, rest⟩ := w
  refine ⟨⟨fun off ho => regs off ?_ ?_, by rw [rest], by rw [rest], ?_, .of_eq (by rw [rest])⟩, head h⟩
  · rw [headReg, decide_eq_true_iff] at ho
    rw [accessReg, decide_eq_false_iff_not]
    omega
  · rw [headReg, decide_eq_true_iff] at ho
    rw [sessionReg, decide_eq_false_iff_not]
    omega
  · rw [tickNow, rest, tickNow]

/-- A register of another head, or one of the head's own below the offset. -/
theorem headReg_apart {r : Nat} (hr : r < 0x4000) (hk : k < 24) (out : k ≠ h ∨ r < lo) :
    headReg lo h (0x300000 + r + k * 0x4000) = false := by
  rw [headReg, decide_eq_false_iff_not]
  omega

section acts

variable (w : HeadKept lo h a s)
include w

theorem HeadKept.wr {off : Nat} (v : Nat) (ho : headReg lo h off = false) : HeadKept lo h a (wr s off v) := by
  refine w.trans (.of_heads ⟨fun o hr => rd_wr_other s v ?_, rfl, rfl, rfl, CmdsKept.refl s⟩ rfl)
  rintro rfl
  rw [ho] at hr
  cases hr

theorem HeadKept.setFld {off : Nat} (hi l v : Nat) (ho : headReg lo h off = false) : HeadKept lo h a (setFld s off hi l v) :=
  w.wr _ ho

theorem HeadKept.setFlag {off : Nat} (i : Nat) (x : Bool) (ho : headReg lo h off = false) :
    HeadKept lo h a (setFlag s off i x) := w.wr _ ho

theorem HeadKept.addReg {off : Nat} (n : Nat) (ho : headReg lo h off = false) : HeadKept lo h a (addReg s off n) := w.wr _ ho

theorem HeadKept.work (hh : h < 24) {t : State} (j : SessionWork s t) : HeadKept lo h a t := w.trans (j.headKept hh)

theorem HeadKept.raise (hh : h < 24) (ev : Ev) (hc : ev.code < 256) : HeadKept lo h a (raise ev s) :=
  w.work hh ((AccessOnly.refl s).raise ev hc).work

theorem HeadKept.setHead (x : Head) (other : k ≠ h) : HeadKept lo h a (setHead k x s) := by
  refine w.trans ⟨⟨fun _ _ => rfl, rfl, rfl, rfl, CmdsKept.refl s⟩, ?_⟩
  rw [headAt_setHead, if_neg (Ne.symm other)]

theorem HeadKept.genStep (hh : h < 24) : HeadKept lo h a (genStep s) := by
  obtain ⟨regs, rest⟩ := genStep_onlyRegs s
  refine w.trans (.of_heads ⟨fun off ho => regs off ?_, by rw [rest], by rw [rest], by rw [tickNow, rest, tickNow],
    .of_eq (by rw [rest])⟩ (by rw [rest]))
  rw [headReg, decide_eq_true_iff] at ho
  rw [shfReg, decide_eq_false_iff_not]
  omega

theorem HeadKept.finishWaiters (kind u purpose status : Nat) : HeadKept lo h a (finishWaiters kind u purpose status s) := by
  have offAt : (Machine.finishWaiters kind u purpose status s).rng.offAt = s.rng.offAt := by
    rw [Machine.finishWaiters]
    induction unitWaiters s kind u purpose using List.reverseRecOn with
    | nil => rfl
    | append_singleton l d ih => rw [List.foldl_concat, ← ih]; rfl
  have rest := finishWaiters_rest kind u purpose status s
  refine w.trans (.of_heads ⟨fun off _ => ?_, by rw [rest], offAt, ?_, finishWaiters_cmdsKept _ _ _ _ _⟩ (by rw [rest]))
  · rw [rest]
    rfl
  · rw [rest]
    rfl

theorem HeadKept.headokUpdate (hh : h < 24) (hk : k < 24) : HeadKept lo h a (headokUpdate k s) := by
  have status : headReg lo h (R.WIN_LT_STATUS k) = false := by
    rw [headReg, decide_eq_false_iff_not, R.WIN_LT_STATUS]
    omega
  have shown := w.setFlag 0 (headokRule s k) status
  exact ((shown.setFlag 1 false status).raise hh _ (by decide : (0x27 : Nat) < 256)).ite shown

end acts

end Sys2Proof.Machine
end

section
/-!
PROOFS. The acts of a head that is enabled, disabled, locked, unlocked or re-timed (R309 to R314), as another head of its pair
meets them and as the head's own registers show them.
-/

namespace Sys2Proof.Machine

variable {a s : State} {h k lo new : Nat}

/-! ## A head that moves to a state -/

/-- A head that goes to a state other than RUNNING, before HEADOK follows (R176, R178). -/
def headMoved (k new : Nat) (s : State) : State :=
  let t := setUnit 1 k new (enableQueued s 1 k || decide ((headAt s k).restart ≠ 0 ∧ new = 3)) s
  setFlag (if unitState s 1 k = 3 ∧ new ≠ 0 then finishWaiters 1 k auxQueued stUnitState t else t) (R.HEAD_CTRL k) 0
    (decide (new = 1 ∨ new = 2))

theorem setHeadState_moved (running : new ≠ 2) (s : State) :
    setHeadState k new s = if unitState s 1 k = new then s else headokUpdate k (headMoved k new s) := by
  rw [setHeadState]
  dsimp only
  rw [if_neg running]
  rfl

theorem eventReg_head {r : Nat} (hk : k < 24) (hr : r < 0x4000) : eventReg (0x300000 + r + k * 0x4000) = false := by
  rw [eventReg, decide_eq_false_iff_not]
  omega

section

variable (hh : h < 24) (hk : k < 24) (w : HeadKept lo h a s)
include hh hk w

theorem HeadKept.setUnit (on : new ≠ 0) (queued : Bool) (out : k ≠ h ∨ 4 < lo) :
    HeadKept lo h a (setUnit 1 k new queued s) := by
  obtain ⟨ev, code, eq⟩ := setUnit_moved k (by decide : 1 < 3) on queued s
  rw [eq]
  exact ((w.genStep hh).setFld 1 0 new (headReg_apart (r := 4) (by decide) hk out)).raise hh ev code

theorem HeadKept.headMoved (on : new ≠ 0) (out : k ≠ h ∨ 4 < lo) : HeadKept lo h a (headMoved k new s) := by
  have moved := w.setUnit hh hk on (enableQueued s 1 k || decide ((headAt s k).restart ≠ 0 ∧ new = 3)) out
  exact HeadKept.setFlag ((moved.finishWaiters 1 k auxQueued stUnitState).ite moved) 0 _
    (headReg_apart (r := 0) (by decide) hk (by omega))

theorem HeadKept.setHeadState (on : new ≠ 0) (running : new ≠ 2) (out : k ≠ h ∨ 4 < lo) :
    HeadKept lo h a (setHeadState k new s) := by
  rw [setHeadState_moved running]
  exact w.ite ((w.headMoved hh hk on out).headokUpdate hh hk)

end

theorem rd_headMoved_status (k new : Nat) (s : State) : ∃ queued,
    rd (headMoved k new s) (R.HEAD_STATUS k) = rd (setUnit 1 k new queued s) (R.HEAD_STATUS k) := by
  refine ⟨enableQueued s 1 k || decide ((headAt s k).restart ≠ 0 ∧ new = 3), ?_⟩
  unfold headMoved
  extract_lets t
  refine (rd_setFld_other _ _ _ _ (by rw [R.HEAD_STATUS, R.HEAD_CTRL]; omega)).trans ?_
  split
  · rw [finishWaiters_rest]
    rfl
  · rfl

/-- A head is in the state that it moves to. -/
theorem unitState_setHeadState (hk : k < 24) (on : new ≠ 0) (running : new ≠ 2) (small : new < 4) (s : State) :
    unitState (setHeadState k new s) 1 k = new := by
  rw [setHeadState_moved running]
  split
  · assumption
  · obtain ⟨queued, status⟩ := rd_headMoved_status k new s
    have rule := (HeadKept.refl 0 k (headMoved k new s)).headokUpdate hk hk
    rw [rule.unitState]
    have moved := unitState_setUnit (u := k) (s := s) (by decide : 1 < 3) on queued (eventReg_head (r := 4) hk (by decide))
    exact (fld_of_rd_eq status 1 0).trans (moved.trans (Nat.mod_eq_of_lt small))

theorem enabled_setHeadState (hk : k < 24) (moves : unitState s 1 k ≠ 1) :
    flag (setHeadState k 1 s) (R.HEAD_CTRL k) 0 = true := by
  rw [setHeadState_moved (by decide), if_neg moves, ((HeadKept.refl 0 k (headMoved k 1 s)).headokUpdate hk hk).enabled]
  exact flag_setFlag_same _ _ _ _ (by decide)

/-! ## The PLL, the sheaf completions and the frame that has not begun -/

theorem pllStart_regs (hh : h < 24) (w : HeadRegs 8 h a s) : HeadRegs 8 h a (pllStart h s) := by
  have status := (HeadKept.refl 8 h s).setFlag (off := R.HEAD_STATUS h) 3 false
    (headReg_apart (r := 4) (by decide) hh (.inr (by decide)))
  exact w.trans (status.toHeadRegs.trans ⟨fun _ _ => rfl, rfl, rfl, rfl, CmdsKept.refl _⟩)

theorem locked_pllStart (k : Nat) (s : State) : headLocked (pllStart k s) k = false := flag_setFlag_same _ _ _ _ (by decide)

theorem enabled_pllStart (k : Nat) (s : State) : flag (pllStart k s) (R.HEAD_CTRL k) 0 = flag s (R.HEAD_CTRL k) 0 :=
  flag_of_rd_eq (rd_setFld_other s 3 3 _ (by rw [R.HEAD_CTRL, R.HEAD_STATUS]; omega)) 0

theorem unitState_pllStart (k : Nat) (s : State) : unitState (pllStart k s) 1 k = unitState s 1 k :=
  fld_setFld_below s _ 3 3 _ 1 0 le_rfl (by decide) (by decide) (by decide)

theorem headAt_pllStart (k : Nat) (s : State) : headAt (pllStart k s) k =
    { headAt s k with pllOn := true, pllAt := s.elapsed, lockLate := false, lockedAt := none, nf := none } :=
  headAt_setHead_same _ _ _

theorem deferAbandon_cmdsKept (k : Nat) (s : State) : CmdsKept s (deferAbandon k s) := by
  rw [deferAbandon]
  exact CmdsKept.foldl _ (CmdsKept.refl s) fun t d ht => ht.trans (updCmd_cmdsKept d.1 (by exact fun _ => rfl) t)

theorem deferAbandon_offAt (k : Nat) (s : State) : (deferAbandon k s).rng.offAt = s.rng.offAt := by
  rw [deferAbandon]
  dsimp only
  induction s.shf.deferred.filter (fun d => d.2.2.2.contains k) using List.reverseRecOn with
  | nil => rfl
  | append_singleton l d ih => rw [List.foldl_concat, ← ih]; rfl

theorem HeadKept.deferAbandon (k : Nat) (w : HeadKept lo h a s) : HeadKept lo h a (deferAbandon k s) := by
  have rest := deferAbandon_rest k s
  refine w.trans (.of_heads ⟨fun off _ => ?_, by rw [rest], deferAbandon_offAt k s, ?_, deferAbandon_cmdsKept k s⟩
    (by rw [rest]))
  · rw [rest]
    rfl
  · rw [rest]
    rfl

/-- The frame of a head that its scan has not begun is not scanned: the rest stays. -/
theorem dropUnbegun_regs (hh : h < 24) (w : HeadRegs lo h a s) : HeadRegs lo h a (dropUnbegun k s) := by
  unfold dropUnbegun
  dsimp only
  split
  · next sc scan =>
    split
    · exact w
    · refine w.trans (.trans (b := Machine.setHead k { headAt s k with scan := none } s) ?_ ?_)
      · exact ⟨fun _ _ => rfl, rfl, rfl, rfl, CmdsKept.refl s⟩
      · exact ((encNoScan_work _ _ (SessionWork.refl _)).headKept hh).toHeadRegs
  · exact w

theorem headAt_dropUnbegun_other (other : k ≠ h) (s : State) :
    headAt (dropUnbegun k s) h = { headAt s h with wbs := (headAt (dropUnbegun k s) h).wbs } := by
  unfold dropUnbegun
  dsimp only
  split
  · next sc scan =>
    split
    · rfl
    · refine ((encNoScan_work k sc.n (SessionWork.refl (Machine.setHead k { headAt s k with scan := none } s))).head h).trans ?_
      rw [headAt_setHead, if_neg (Ne.symm other)]
  · rfl

theorem HeadKept.dropUnbegun (hh : h < 24) (other : k ≠ h) (w : HeadKept lo h a s) : HeadKept lo h a (dropUnbegun k s) :=
  w.trans ⟨dropUnbegun_regs hh (HeadRegs.refl lo h s), headAt_dropUnbegun_other other s⟩

/-- The head's own: only the frame goes, unless its scan has begun. -/
theorem headAt_dropUnbegun (k : Nat) (s : State) : headAt (dropUnbegun k s) k =
    { headAt s k with scan := (headAt s k).scan.filter Scan.active, wbs := (headAt (dropUnbegun k s) k).wbs } := by
  unfold dropUnbegun
  dsimp only
  split
  · next sc scan =>
    split
    · next active =>
      rw [scan, Option.filter_some, if_pos active, ← scan]
    · next active =>
      refine ((encNoScan_work k sc.n (SessionWork.refl (Machine.setHead k { headAt s k with scan := none } s))).head k).trans ?_
      rw [headAt_setHead_same, scan, Option.filter_some, if_neg active]
  · next scan =>
    rw [scan, Option.filter_none, ← scan]

end Sys2Proof.Machine
end

section
/-!
PROOFS. Enable, disable, lock, loss of lock and late lock of a head (R179, R180, R309 to R314).
-/

namespace Sys2Proof.Machine

variable {a s : State} {h k lo : Nat} {c : Cmd}

/-- A statement about one head of the group that acts: what the others do leaves it. -/
theorem eachHead_own (hh : h < 24) {f : Nat → State → State} (apart : ∀ k t, k < 24 → k ≠ h → HeadKept 0 h t (f k t))
    (s : State) : ∃ p, HeadKept 0 h s p ∧ HeadKept 0 h (f h p) (eachHead (headGroup s h) f s) := by
  obtain ⟨pre, post, eq, others⟩ := headGroup_split s h
  have each : ∀ l, (∀ k ∈ l, k ∈ pre ++ post) → ∀ t, HeadKept 0 h t (eachHead l f t) := fun l sub t =>
    (HeadKept.refl 0 h t).foldlMem l fun u k hk w => by
      obtain ⟨other, low⟩ := others k (sub k hk)
      exact w.trans (apart k u (by omega) other)
  refine ⟨eachHead pre f s, each pre (fun k hk => List.mem_append_left _ hk) s, ?_⟩
  rw [eq, eachHead_split]
  exact each post (fun k hk => List.mem_append_right _ hk) _

theorem HeadRegs.setHead (k : Nat) (x : Head) (w : HeadRegs lo h a s) : HeadRegs lo h a (setHead k x s) :=
  w.trans ⟨fun _ _ => rfl, rfl, rfl, rfl, CmdsKept.refl s⟩

theorem HeadRegs.setHeadState (hh : h < 24) {new : Nat} (on : new ≠ 0) (running : new ≠ 2) (w : HeadRegs 8 h a s) :
    HeadRegs 8 h a (setHeadState h new s) :=
  w.trans ((HeadKept.refl 8 h s).setHeadState hh hh on running (.inr (by decide))).toHeadRegs

/-! ## Enable (R309) -/

/-- One head that starts. -/
def headStarted (k : Nat) (s : State) : State :=
  pllStart k (setHeadState k 1
    (setHead k { headAt s k with restart := 0, disabling := false, sealedOff := false, endAt := none } s))

theorem headStart_eq (h : Nat) (s : State) : headStart h s = eachHead (headGroup s h) headStarted s := rfl

theorem HeadKept.pllStart (hk : k < 24) (other : k ≠ h) (w : HeadKept lo h a s) : HeadKept lo h a (pllStart k s) :=
  (w.setFlag 3 false (headReg_apart (r := 4) (by decide) hk (.inl other))).setHead _ other

theorem headStarted_apart (hh : h < 24) (hk : k < 24) (other : k ≠ h) (s : State) : HeadKept 0 h s (headStarted k s) :=
  (((HeadKept.refl 0 h s).setHead _ other).setHeadState hh hk (by decide) (by decide) (.inl other)).pllStart hk other

theorem headStarted_regs (hh : h < 24) (s : State) : HeadRegs 8 h s (headStarted h s) :=
  pllStart_regs hh (((HeadRegs.refl 8 h s).setHead h _).setHeadState hh (by decide) (by decide))

/-- A head that starts, in its registers. -/
theorem headStart_own (hh : h < 24) (s : State) : HeadRegs 8 h s (headStart h s) ∧ unitState (headStart h s) 1 h = 1 ∧
    headLocked (headStart h s) h = false ∧ (headAt (headStart h s) h).pllOn = true ∧
    (unitState s 1 h ≠ 1 → flag (headStart h s) (R.HEAD_CTRL h) 0 = true) := by
  obtain ⟨p, before, after⟩ := eachHead_own hh (fun k t hk other => headStarted_apart hh hk other t) s
  rw [← headStart_eq] at after
  refine ⟨(before.toHeadRegs.mono (Nat.zero_le 8)).trans ((headStarted_regs hh p).trans (after.toHeadRegs.mono (Nat.zero_le 8))),
    ?_, ?_, ?_, fun moves => ?_⟩
  · rw [after.unitState, headStarted, unitState_pllStart]
    exact unitState_setHeadState hh (by decide) (by decide) (by decide) _
  · rw [after.locked]
    exact locked_pllStart _ _
  · rw [after.head, headStarted, headAt_pllStart]
  · rw [after.enabled, headStarted, enabled_pllStart]
    exact enabled_setHeadState hh fun same => moves (before.unitState.symm.trans same)

/-! ## Disable (R310) -/

theorem headDrainOne_apart (hh : h < 24) (hk : k < 24) (other : k ≠ h) (s : State) : HeadKept 0 h s (headDrainOne k s) :=
  ((((((HeadKept.refl 0 h s).finishWaiters 1 k auxEnabling stSuccess).setHead _ other).setHeadState hh hk (by decide)
    (by decide) (.inl other)).setFlag 4 false (headReg_apart (r := 4) (by decide) hk (.inl other))).dropUnbegun hh
    other).deferAbandon k

/-- A head that is disabled and DRAINING. -/
def headDraining (k : Nat) (s : State) : State :=
  let t := finishWaiters 1 k auxEnabling stSuccess s
  setHeadState k 3 (setHead k { headAt t k with restart := 0, disabling := true, sealedOff := false, stepPending := false,
                                                directPll := false, directNext := false } t)

theorem headDrainOne_eq (k : Nat) (s : State) : headDrainOne k s =
    deferAbandon k (dropUnbegun k (setFlag (headDraining k s) (R.HEAD_STATUS k) 4 false)) := rfl

theorem headDraining_own (hh : h < 24) (s : State) : HeadRegs 8 h s (headDraining h s) ∧
    unitState (headDraining h s) 1 h = 3 ∧ (headAt (headDraining h s) h).disabling = true := by
  unfold headDraining
  extract_lets t
  have ended : HeadRegs 8 h s t := ((HeadKept.refl 8 h s).finishWaiters 1 h auxEnabling stSuccess).toHeadRegs
  have moved := fun x => (HeadKept.refl 8 h (setHead h x t)).setHeadState hh hh (new := 3) (by decide) (by decide)
    (.inr (by decide))
  refine ⟨(ended.setHead h _).trans (moved _).toHeadRegs, ?_, ?_⟩
  · exact unitState_setHeadState hh (by decide) (by decide) (by decide) _
  · rw [(moved _).head, headAt_setHead_same]

theorem headDrainOne_own (hh : h < 24) (s : State) : HeadRegs 8 h s (headDrainOne h s) ∧
    unitState (headDrainOne h s) 1 h = 3 ∧ (headAt (headDrainOne h s) h).disabling = true := by
  obtain ⟨regs, state, disabling⟩ := headDraining_own hh s
  have status : headReg 8 h (R.HEAD_STATUS h) = false := headReg_apart (r := 4) (by decide) hh (.inr (by decide))
  have left := fun lo t => (HeadKept.refl lo h (dropUnbegun h t)).deferAbandon h
  rw [headDrainOne_eq]
  refine ⟨?_, ?_, ?_⟩
  · have cleared := (HeadKept.refl 8 h (headDraining h s)).setFlag 4 false status
    exact (dropUnbegun_regs hh (regs.trans cleared.toHeadRegs)).trans (left 8 _).toHeadRegs
  · rw [(left 0 _).unitState, (dropUnbegun_regs hh (HeadRegs.refl 0 h _)).unitState]
    exact (fld_setFld_below _ _ 4 4 _ 1 0 le_rfl (by decide) (by decide) (by decide)).trans state
  · rw [(left 0 _).head, headAt_dropUnbegun]
    exact disabling

theorem headDrain_own (hh : h < 24) (on : unitState s 1 h ≠ 0) (enabled : (headAt s h).disabling = false) :
    CmdsKept s (headDrain h s) ∧ unitState (headDrain h s) 1 h = 3 ∧ (headAt (headDrain h s) h).disabling = true := by
  have apart : ∀ k t, k < 24 → k ≠ h → HeadKept 0 h t
      (if unitState t 1 k = 0 ∨ (headAt t k).disabling then t else headDrainOne k t) := fun k t hk other =>
    (HeadKept.refl 0 h t).ite (headDrainOne_apart hh hk other t)
  obtain ⟨p, before, after⟩ := eachHead_own hh apart s
  have goes : ¬ (unitState p 1 h = 0 ∨ (headAt p h).disabling = true) := by
    rw [before.unitState, before.head, enabled]
    simp [on]
  rw [if_neg goes] at after
  obtain ⟨regs, state, disabling⟩ := headDrainOne_own hh p
  rw [headDrain]
  refine ⟨before.cmds.trans (regs.cmds.trans after.cmds), after.unitState.trans state, ?_⟩
  rw [after.head]
  exact disabling

/-! ## Loss of lock (R314) -/

/-- A head whose PLL has left LOCKED. -/
def pllLost (k : Nat) (s : State) : State :=
  let t := setFlag s (R.HEAD_STATUS k) 3 false
  setHead k { headAt t k with lockedAt := none, nf := none } t

/-- The loss of lock of a RUNNING head, told and counted. -/
def pllLossTold (k : Nat) (s : State) : State :=
  addReg (setFlag (raise { code := 0x88, unit := k } s) (R.HEAD_STATUS k) 11 true) (R.HEAD_UNLOCKS k) 1

/-- A head's frame in active scan ends TIMING_TORN. -/
def scanTorn (k : Nat) (s : State) : State :=
  setHead k { headAt s k with scan := (headAt s k).scan.map fun sc => { sc with ended := true, timingTorn := true } } s

theorem pllUnlock_eq (k : Nat) (s : State) : pllUnlock k s =
    if unitState (pllLost k s) 1 k ≠ 2 then pllLost k s else scanTorn k (retimeHead k (pllLossTold k (pllLost k s))) := rfl

theorem unitState_pllLost (k : Nat) (s : State) : unitState (pllLost k s) 1 k = unitState s 1 k :=
  fld_setFld_below s _ 3 3 _ 1 0 le_rfl (by decide) (by decide) (by decide)

theorem retimeHead_apart (hh : h < 24) (hk : k < 24) (other : k ≠ h) (w : HeadKept 0 h a s) :
    HeadKept 0 h a (retimeHead k s) := by
  have status : headReg 0 h (R.HEAD_STATUS k) = false := headReg_apart (r := 4) (by decide) hk (.inl other)
  rw [retimeHead_eq]
  have cleared : HeadKept 0 h a (retimeCleared k s) := (w.deferAbandon k).setHead _ other
  have waits := ((cleared.dropUnbegun hh other).setHeadState hh hk (new := 1) (by decide) (by decide)
    (.inl other)).pllStart hk other
  exact ((waits.setFlag 4 true status).addReg 1 (headReg_apart (r := 0x48) (by decide) hk (.inl other))).raise hh _
    (by decide : (0x86 : Nat) < 256)

theorem pllUnlock_apart (hh : h < 24) (hk : k < 24) (other : k ≠ h) (s : State) : HeadKept 0 h s (pllUnlock k s) := by
  have status : headReg 0 h (R.HEAD_STATUS k) = false := headReg_apart (r := 4) (by decide) hk (.inl other)
  have lost : HeadKept 0 h s (pllLost k s) := ((HeadKept.refl 0 h s).setFlag 3 false status).setHead _ other
  have told : HeadKept 0 h s (pllLossTold k (pllLost k s)) := ((lost.raise hh _ (by decide : (0x88 : Nat) < 256)).setFlag 11 true
    status).addReg 1 (headReg_apart (r := 0x4C) (by decide) hk (.inl other))
  rw [pllUnlock_eq]
  exact lost.ite ((retimeHead_apart hh hk other told).setHead _ other)

/-- What a re-time of a head shows of it. -/
structure Retimed (k : Nat) (s t : State) : Prop where
  state : unitState t 1 k = 1
  locked : headLocked t k = false
  retimes : rd t (R.HEAD_RETIMES k) = (rd s (R.HEAD_RETIMES k) + 1) % 2 ^ 32
  unlocks : rd t (R.HEAD_UNLOCKS k) = rd s (R.HEAD_UNLOCKS k)
  pllOn : (headAt t k).pllOn = true
  lockedAt : (headAt t k).lockedAt = none
  scan : (headAt t k).scan = (headAt s k).scan.filter Scan.active

/-- A head that has given up what it had under way and is STARTING. -/
def retimeWaits (k : Nat) (s : State) : State := setHeadState k 1 (dropUnbegun k (retimeCleared k s))

theorem retimeWaits_own (hh : h < 24) (s : State) : HeadRegs 8 h s (retimeWaits h s) ∧ unitState (retimeWaits h s) 1 h = 1 ∧
    (headAt (retimeWaits h s) h).scan = (headAt s h).scan.filter Scan.active := by
  have cleared : HeadRegs 8 h s (retimeCleared h s) := 
    ((HeadKept.refl 8 h s).deferAbandon h).toHeadRegs.setHead h _
  have moved := (HeadKept.refl 8 h (dropUnbegun h (retimeCleared h s))).setHeadState hh hh (new := 1) (by decide) (by decide)
    (.inr (by decide))
  refine ⟨(dropUnbegun_regs hh cleared).trans moved.toHeadRegs, ?_, ?_⟩
  · exact unitState_setHeadState hh (by decide) (by decide) (by decide) _
  · rw [retimeWaits, moved.head, headAt_dropUnbegun, scan_retimeCleared]

/-- The re-time before its event. -/
def retimeCounted (k : Nat) (s : State) : State :=
  addReg (setFlag (pllStart k s) (R.HEAD_STATUS k) 4 true) (R.HEAD_RETIMES k) 1

theorem retimeHead_waits (k : Nat) (s : State) :
    retimeHead k s = raise { code := 0x86, unit := k, sub := 0, a0 := 0 } (retimeCounted k (retimeWaits k s)) := rfl

theorem headAt_retimeCounted (k : Nat) (s : State) : headAt (retimeCounted k s) k = headAt (pllStart k s) k := rfl

theorem rd_retimeCounted (k : Nat) (s : State) : rd (retimeCounted k s) (R.HEAD_STATUS k) =
    rd (setFlag (pllStart k s) (R.HEAD_STATUS k) 4 true) (R.HEAD_STATUS k) :=
  rd_wr_other _ _ (by rw [R.HEAD_STATUS, R.HEAD_RETIMES]; omega)

theorem retimeHead_own (hh : h < 24) (s : State) : Retimed h s (retimeHead h s) := by
  obtain ⟨regs, state, scan⟩ := retimeWaits_own hh s
  have started := pllStart_regs hh regs
  have told := (HeadKept.refl 0 h (retimeCounted h (retimeWaits h s))).raise hh { code := 0x86, unit := h, sub := 0, a0 := 0 }
    (by decide : (0x86 : Nat) < 256)
  have marked : ∀ r, 8 ≤ r → r < 0x4000 → rd (setFlag (pllStart h (retimeWaits h s)) (R.HEAD_STATUS h) 4 true)
      (0x300000 + r + h * 0x4000) = rd s (0x300000 + r + h * 0x4000) := fun r low high =>
    (rd_setFld_other _ 4 4 _ (by rw [R.HEAD_STATUS]; omega)).trans (started.reg low high)
  rw [retimeHead_waits]
  refine ⟨told.unitState.trans ?_, told.locked.trans ?_, (told.reg (r := 0x48) (by decide) (by decide)).trans ?_,
    (told.reg (r := 0x4C) (by decide) (by decide)).trans ?_, ?_, ?_, ?_⟩
  · refine (fld_of_rd_eq (rd_retimeCounted _ _) 1 0).trans ?_
    exact (fld_setFld_below _ _ 4 4 _ 1 0 le_rfl (by decide) (by decide) (by decide)).trans
      ((unitState_pllStart h _).trans state)
  · refine (flag_of_rd_eq (rd_retimeCounted _ _) 3).trans ?_
    exact (flag_setFlag_below _ _ _ (by decide) (by decide)).trans (locked_pllStart _ _)
  · refine (rd_addReg _ _ _ _).trans ((if_pos rfl).trans ?_)
    exact congrArg (fun n => (n + 1) % 2 ^ 32) (marked 0x48 (by decide) (by decide))
  · refine (rd_addReg _ _ _ _).trans ((if_neg (by rw [R.HEAD_RETIMES]; omega)).trans (marked 0x4C (by decide) (by decide)))
  all_goals rw [told.head, headAt_retimeCounted, headAt_pllStart]
  exact scan

end Sys2Proof.Machine
end

section
/-!
PROOFS. The commands of the heads: HEAD_CTL, the writes of EN, and the edges of a pixel PLL (R179, R180, R309 to R314).
-/

namespace Sys2Proof.Machine

variable {s : State} {h : Nat} {c : Cmd}

/-! ## Loss of lock -/

theorem headAt_wr (s : State) (off v h : Nat) : headAt (wr s off v) h = headAt s h := rfl

theorem headAt_pllLost (k h : Nat) (s : State) :
    headAt (pllLost k s) h = if h = k then { headAt s h with lockedAt := none, nf := none } else headAt s h := by
  refine (headAt_setHead _ _ _ _).trans ?_
  split
  · next e => rw [e]; rfl
  · rfl

theorem scan_pllLossTold (k : Nat) (hh : h < 24) (s : State) :
    (headAt (pllLossTold k (pllLost k s)) h).scan = (headAt s h).scan := by
  have told := (HeadKept.refl 0 h (pllLost k s)).raise hh { code := 0x88, unit := k } (by decide : (0x88 : Nat) < 256)
  rw [pllLossTold, addReg, headAt_wr, setFlag, headAt_setFld, told.head, headAt_pllLost]
  split <;> rfl

theorem rd_pllLossTold (hh : h < 24) {r : Nat} (low : 8 ≤ r) (high : r < 0x4000) (s : State) :
    rd (pllLossTold h (pllLost h s)) (0x300000 + r + h * 0x4000) =
      if r = 0x4C then (rd s (R.HEAD_UNLOCKS h) + 1) % 2 ^ 32 else rd s (0x300000 + r + h * 0x4000) := by
  have told := (HeadKept.refl 0 h (pllLost h s)).raise hh { code := 0x88, unit := h } (by decide : (0x88 : Nat) < 256)
  have kept : ∀ r, 8 ≤ r → r < 0x4000 →
      rd (setFlag (raise { code := 0x88, unit := h } (pllLost h s)) (R.HEAD_STATUS h) 11 true) (0x300000 + r + h * 0x4000) =
        rd s (0x300000 + r + h * 0x4000) := fun r low high =>
    (rd_setFld_other _ 11 11 _ (by rw [R.HEAD_STATUS]; omega)).trans ((told.reg (Nat.zero_le r) high).trans
      (rd_setFld_other s 3 3 _ (by rw [R.HEAD_STATUS]; omega)))
  refine (rd_addReg _ _ _ _).trans ?_
  split
  · next e =>
    rw [if_pos (by rw [R.HEAD_UNLOCKS] at e; omega)]
    exact congrArg (fun n => (n + 1) % 2 ^ 32) (kept 0x4C (by decide) (by decide))
  · next e =>
    rw [if_neg (by rw [R.HEAD_UNLOCKS] at e; omega), kept r low high]

theorem pllUnlock_idle (idle : unitState s 1 h ≠ 2) : pllUnlock h s = pllLost h s := by
  rw [pllUnlock_eq, unitState_pllLost, if_pos idle]

theorem locked_pllLost (h : Nat) (s : State) : headLocked (pllLost h s) h = false := flag_setFlag_same s _ 3 false (by decide)

theorem lockedAt_pllLost (h : Nat) (s : State) : (headAt (pllLost h s) h).lockedAt = none := by
  rw [headAt_pllLost, if_pos rfl]

/-- What the loss of lock of a RUNNING head shows of it. -/
structure Unlocked (k : Nat) (s t : State) : Prop where
  state : unitState t 1 k = 1
  locked : headLocked t k = false
  retimes : rd t (R.HEAD_RETIMES k) = (rd s (R.HEAD_RETIMES k) + 1) % 2 ^ 32
  unlocks : rd t (R.HEAD_UNLOCKS k) = (rd s (R.HEAD_UNLOCKS k) + 1) % 2 ^ 32
  pllOn : (headAt t k).pllOn = true
  lockedAt : (headAt t k).lockedAt = none
  scan : (headAt t k).scan = ((headAt s k).scan.filter Scan.active).map fun sc => { sc with ended := true, timingTorn := true }

theorem headAt_scanTorn (k : Nat) (s : State) : headAt (scanTorn k s) k =
    { headAt s k with scan := (headAt s k).scan.map fun sc => { sc with ended := true, timingTorn := true } } :=
  headAt_setHead_same _ _ _

theorem scanTorn_regs (k : Nat) (s : State) : (scanTorn k s).regs = s.regs := rfl

theorem pllUnlock_running (hh : h < 24) (on : unitState s 1 h = 2) : Unlocked h s (pllUnlock h s) := by
  have retimed := retimeHead_own hh (pllLossTold h (pllLost h s))
  have torn : ∀ off, rd (scanTorn h (retimeHead h (pllLossTold h (pllLost h s)))) off =
      rd (retimeHead h (pllLossTold h (pllLost h s))) off := fun off => by rw [rd, scanTorn_regs, rd]
  rw [pllUnlock_eq, unitState_pllLost, if_neg (not_not.2 on)]
  refine ⟨(fld_of_rd_eq (torn _) 1 0).trans retimed.state, (flag_of_rd_eq (torn _) 3).trans retimed.locked, ?_, ?_, ?_, ?_, ?_⟩
  · rw [torn, retimed.retimes]
    exact congrArg (fun n => (n + 1) % 2 ^ 32) (rd_pllLossTold hh (r := 0x48) (by decide) (by decide) s)
  · rw [torn, retimed.unlocks]
    exact rd_pllLossTold hh (r := 0x4C) (by decide) (by decide) s
  · rw [headAt_scanTorn]
    exact retimed.pllOn
  · rw [headAt_scanTorn]
    exact retimed.lockedAt
  · rw [headAt_scanTorn, retimed.scan, scan_pllLossTold h hh]

theorem Unlocked.group {k : Nat} {a b t u : State} (before : HeadKept 0 k a b) (j : Unlocked k b t) (after : HeadKept 0 k t u) :
    Unlocked k a u := by
  obtain ⟨state, locked, retimes, unlocks, pllOn, lockedAt, scan⟩ := j
  refine ⟨after.unitState.trans state, after.locked.trans locked, ?_, ?_, ?_, ?_, ?_⟩
  · refine (after.reg (r := 0x48) (by decide) (by decide)).trans (retimes.trans ?_)
    exact congrArg (fun n => (n + 1) % 2 ^ 32) (before.reg (r := 0x48) (by decide) (by decide))
  · refine (after.reg (r := 0x4C) (by decide) (by decide)).trans (unlocks.trans ?_)
    exact congrArg (fun n => (n + 1) % 2 ^ 32) (before.reg (r := 0x4C) (by decide) (by decide))
  · rw [after.head, pllOn]
  · rw [after.head, lockedAt]
  · rw [after.head, scan, before.head]

theorem pixelPllUnlock_answers (hh : h < 24) (s : State) :
    ∀ t, t = eachHead (headGroup s h) pllUnlock s → headLocked t h = false ∧ (headAt t h).lockedAt = none ∧
      (unitState s 1 h ≠ 2 → unitState t 1 h = unitState s 1 h) ∧ (unitState s 1 h = 2 → Unlocked h s t) := by
  rintro t rfl
  obtain ⟨p, before, after⟩ := eachHead_own hh (fun k t hk other => pllUnlock_apart hh hk other t) s
  by_cases on : unitState s 1 h = 2
  · have lost := Unlocked.group before (pllUnlock_running hh (before.unitState.trans on)) after
    exact ⟨lost.locked, lost.lockedAt, fun idle => absurd on idle, fun _ => lost⟩
  · rw [pllUnlock_idle (by rwa [before.unitState])] at after
    refine ⟨after.locked.trans (locked_pllLost h p), ?_, fun _ => ?_, fun e => absurd e on⟩
    · rw [after.head, lockedAt_pllLost]
    · rw [after.unitState, unitState_pllLost, before.unitState]

theorem exec_pixelPllUnlock {h : Fin 24} (run : running s = true) (locked : headLocked s h.val = true) :
    exec (.pixelPllUnlock h) s = .next (eachHead (headGroup s h.val) pllUnlock s) :=
  (live_running run _).trans (congrArg _ (if_pos locked))

/-! ## Lock -/

/-- A head whose PLL locks. -/
def pllTakesLock (k : Nat) (s : State) : State :=
  let t := setFlag s (R.HEAD_STATUS k) 3 true
  setHead k { headAt t k with lockedAt := some t.clock, directPll := false, nf := some (tickAfter t t.clock) } t

theorem exec_pixelPllLock {h : Fin 24} (run : running s = true) (on : (headAt s h.val).pllOn = true)
    (unlocked : headLocked s h.val = false) :
    exec (.pixelPllLock h) s = .next (eachHead (headGroup s h.val) pllTakesLock s) := by
  show execPixelPllLock h s = _
  rw [execPixelPllLock, live_running run, on, unlocked]
  rfl

theorem pllTakesLock_apart {k : Nat} (hk : k < 24) (other : k ≠ h) (s : State) : HeadKept 0 h s (pllTakesLock k s) :=
  ((HeadKept.refl 0 h s).setFlag 3 true (headReg_apart (r := 4) (by decide) hk (.inl other))).setHead _ other

theorem pllTakesLock_own (hh : h < 24) (s : State) :
    headLocked (pllTakesLock h s) h = true ∧ (pllTakesLock h s).clock = s.clock ∧
    (headAt (pllTakesLock h s) h).lockedAt = some s.clock ∧ (headAt (pllTakesLock h s) h).nf = some (tickAfter s s.clock) := by
  have status : headReg 8 h (R.HEAD_STATUS h) = false := headReg_apart (r := 4) (by decide) hh (.inr (by decide))
  have ticks := ((HeadKept.refl 8 h s).setFlag 3 true status).tickAfter s.clock
  refine ⟨flag_setFlag_same s _ 3 true (by decide), rfl, ?_, ?_⟩
  all_goals rw [pllTakesLock]; dsimp only; rw [headAt_setHead_same]
  · rfl
  · exact congrArg some ticks

theorem pixelPllLock_answers (hh : h < 24) (s : State) : ∀ t, t = eachHead (headGroup s h) pllTakesLock s →
    headLocked t h = true ∧ (headAt t h).lockedAt = some s.clock ∧ (headAt t h).nf = some (tickAfter s s.clock) ∧
      t.clock = s.clock := by
  rintro t rfl
  obtain ⟨p, before, after⟩ := eachHead_own hh (fun k t hk other => pllTakesLock_apart hk other t) s
  obtain ⟨locked, clock, lockedAt, first⟩ := pllTakesLock_own hh p
  refine ⟨after.locked.trans locked, ?_, ?_, after.clock.trans (clock.trans before.clock)⟩
  · rw [after.head, lockedAt, before.clock]
  · rw [after.head, first, before.clock, before.tickAfter]

/-! ## A late lock -/

theorem exec_pllLockTimeout {h : Fin 24} (run : running s = true) (starting : unitState s 1 h.val = 1)
    (on : (headAt s h.val).pllOn = true) (unlocked : headLocked s h.val = false) (early : (headAt s h.val).lockLate = false)
    {u : State} (hu : u = waitElapsed ((headAt s h.val).pllAt + 10000000 * nsUnit) s) :
    exec (.pllLockTimeout h) s =
      .next (raise { code := 0x88, unit := h.val } (setHead h.val { headAt u h.val with lockLate := true } u)) := by
  subst hu
  show execPllLockTimeout h s = _
  rw [execPllLockTimeout, live_running run]
  dsimp only
  rw [if_neg]
  rw [starting, on, unlocked, early]
  decide

theorem pllLockTimeout_answers (hh : h < 24) (t : Nat) (s : State) : ∀ u v, u = waitElapsed t s →
    v = raise { code := 0x88, unit := h } (setHead h { headAt u h with lockLate := true } u) →
    (headAt v h).lockLate = true ∧ unitState v 1 h = unitState s 1 h ∧ (0 < inc s → t ≤ v.elapsed) := by
  rintro u v hu rfl
  have code : (0x88 : Nat) < 256 := by decide
  have told := (HeadKept.refl 0 h (setHead h { headAt u h with lockLate := true } u)).raise hh { code := 0x88, unit := h } code
  refine ⟨?_, told.unitState.trans ?_, fun ticks => ?_⟩
  · rw [told.head, headAt_setHead_same]
  · rw [hu, waitElapsed_rest]
    rfl
  · rw [raise_elapsed _ code, hu]
    exact le_elapsed_waitElapsed ticks

/-! ## HEAD_CTL -/

section headCtl

variable {tag : Fin 4096} (run : running s = true) (found : findCmd s tag.val = some c) (op : c.opcode = 0x14)
  (may : mayExecute s.rng.cmds c = true) (head : h = bits (c.w 2) 4 0)
include run found op may head

theorem exec_headCtl_enable (en : bit (c.w 3) 0 = true) :
    exec (.headCtl tag) s = .next (enableCmd 1 h c (headOpen h) s) := by
  show execHeadCtl tag s = _
  rw [execHeadCtl, live_running run, onCmd_started found may op]
  dsimp only
  rw [if_pos en, ← head, headEnableCmd]

theorem exec_headCtl_disable (en : bit (c.w 3) 0 = false) (plain : (headAt s h).restart ≠ 2) :
    exec (.headCtl tag) s = .next (disableCmd 1 h c (headDrain h) s) := by
  show execHeadCtl tag s = _
  rw [execHeadCtl, live_running run, onCmd_started found may op]
  dsimp only
  rw [en, if_neg Bool.false_ne_true, ← head, headDisableCmd, if_neg plain]

/-- An enable that starts its head (R309). -/
theorem headCtl_starts (hh : h < 24) (en : bit (c.w 3) 0 = true) (off : unitState s 1 h = 0) (ticks : tickRun s = true)
    (sound : timingBad s (lrd s) h = false) : ∃ t, exec (.headCtl tag) s = .next t ∧ unitState t 1 h = 1 ∧
      flag t (R.HEAD_CTRL h) 0 = true ∧ headLocked t h = false ∧ (headAt t h).pllOn = true ∧
      findCmd t tag.val = some { c with phase := .waiting, aux := [auxEnabling] } := by
  obtain ⟨kept, state, locked, pllOn, enabled⟩ := headStart_own hh s
  have opened : headOpen h c s = waitCmd c.tag [auxEnabling] (headStart h s) := by
    rw [headOpen, if_neg (by rw [sound]; exact Bool.false_ne_true)]
  refine ⟨_, (exec_headCtl_enable run found op may head en).trans (congrArg _ ((enableCmd_off off ticks).trans opened)), state,
    enabled (by rw [off]; decide), locked, pllOn, findCmd_waitCmd found kept.cmds _⟩

/-- An enable that its timing, the tick or its unit's state refuses, or that waits behind a drain (R178, R179, R309). -/
theorem headCtl_refused (en : bit (c.w 3) 0 = true) :
    (unitState s 1 h = 0 → tickRun s = true → timingBad s (lrd s) h = true → ∃ t, exec (.headCtl tag) s = .next t ∧
      t.regs = s.regs ∧ findCmd t tag.val = some { c with phase := .due stRejected (1 * 2 ^ 16) h 0 none }) ∧
    (unitState s 1 h = 0 → tickRun s = false → ∃ t, exec (.headCtl tag) s = .next t ∧
      t.regs = s.regs ∧ findCmd t tag.val = some { c with phase := .due stTickStopped 0 0 0 none }) ∧
    (unitState s 1 h = 1 ∨ unitState s 1 h = 2 → ∃ t, exec (.headCtl tag) s = .next t ∧
      t.regs = s.regs ∧ findCmd t tag.val = some { c with phase := .due stUnitState (unitState s 1 h) 0 0 none }) ∧
    (unitState s 1 h = 3 → ∃ t, exec (.headCtl tag) s = .next t ∧ t.regs = s.regs ∧
      findCmd t tag.val = some (if enableQueued s 1 h then { c with phase := .due stUnitState 3 0 0 none }
        else { c with phase := .waiting, aux := [auxQueued] })) := by
  have executed := exec_headCtl_enable run found op may head en
  refine ⟨fun off ticks bad => ⟨_, executed, ?_⟩, fun off stopped => ⟨_, executed, ?_⟩, fun on => ⟨_, executed, ?_⟩,
    fun drains => ⟨_, executed, regs_enableCmd_draining drains, findCmd_enableCmd_draining found drains⟩⟩
  · rw [enableCmd_off off ticks, headOpen, if_pos bad]
    exact ⟨rfl, findCmd_finish found _ _ _ _⟩
  · rw [enableCmd_stopped off stopped]
    exact ⟨rfl, findCmd_finish found _ _ _ _⟩
  · rw [enableCmd_on on]
    exact ⟨rfl, findCmd_finish found _ _ _ _⟩

/-- A disable (R176, R180, R310). -/
theorem headCtl_disables (hh : h < 24) (plain : (headAt s h).restart ≠ 2) (en : bit (c.w 3) 0 = false) :
    (unitState s 1 h = 0 → ∃ t, exec (.headCtl tag) s = .next t ∧
      t.regs = s.regs ∧ findCmd t tag.val = some { c with phase := .due stSuccess 1 0 0 (some (offTick s 1 h)) }) ∧
    (unitState s 1 h = 1 ∨ unitState s 1 h = 2 → (headAt s h).disabling = false → ∃ t, exec (.headCtl tag) s = .next t ∧
      unitState t 1 h = 3 ∧ (headAt t h).disabling = true ∧
      ∃ d, findCmd t tag.val = some d ∧ d.phase = .waiting ∧ d.aux = [auxDisabling]) := by
  have executed := exec_headCtl_disable run found op may head en plain
  refine ⟨fun off => ⟨_, executed, regs_disableCmd_off off, findCmd_disableCmd_off found off⟩, fun on enabled => ?_⟩
  obtain ⟨kept, state, disabling⟩ := headDrain_own hh (s := s) (by omega) enabled
  rw [disableCmd_on on] at executed
  exact ⟨_, executed, state, disabling, _, findCmd_waitCmd found kept _, rfl, rfl⟩

end headCtl

/-! ## The writes of EN -/

section headReg

variable {h : Fin 24} (run : running s = true) (there : unitPresent s.part .head h.val = true)
include run there

theorem exec_headRegEnable : exec (.headRegEnable h) s = .next (headRegEnable h.val s) :=
  (live_running run _).trans (congrArg _ (if_pos there))

theorem exec_headRegDisable : exec (.headRegDisable h) s = .next (headRegDisable h.val s) :=
  (live_running run _).trans (congrArg _ (if_pos there))

/-- The writes to an OFF head. -/
theorem headReg_off (off : unitState s 1 h.val = 0) : exec (.headRegDisable h) s = .next s ∧
    (tickRun s = true → timingBad s (lrd s) h.val = false → exec (.headRegEnable h) s = .next (headStart h.val s)) ∧
    (tickRun s = false ∨ timingBad s (lrd s) h.val = true →
      exec (.headRegEnable h) s = .next (setFlag s (R.HEAD_STATUS h.val) 10 true)) := by
  have tried : headRegEnable h.val s = if !tickRun s || timingBad s (lrd s) h.val then setFlag s (R.HEAD_STATUS h.val) 10 true
      else headStart h.val s := by
    rw [headRegEnable]
    rw [off, if_neg (by decide), if_neg (by decide)]
  have executed := (exec_headRegEnable run there).trans (congrArg _ tried)
  refine ⟨(exec_headRegDisable run there).trans (congrArg _ (if_pos off)), fun ticks sound => ?_, fun bad => ?_⟩
  · rw [executed, ticks, sound]
    rfl
  · rw [executed, if_pos]
    rw [Bool.or_eq_true, Bool.not_eq_true']
    exact bad

/-- The writes to a head that starts or runs. -/
theorem headReg_on (on : unitState s 1 h.val = 1 ∨ unitState s 1 h.val = 2) : exec (.headRegEnable h) s = .next s ∧
    exec (.headRegDisable h) s = .next (headDrain h.val s) := by
  refine ⟨(exec_headRegEnable run there).trans (congrArg _ ?_), (exec_headRegDisable run there).trans (congrArg _ ?_)⟩
  · rw [headRegEnable]
    rw [if_neg (by omega), if_pos (by omega)]
  · rw [headRegDisable]
    rw [if_neg (by omega), if_neg (by omega)]

/-- An enable of a head that drains is ignored, with its flag and event. -/
theorem headReg_draining (drains : unitState s 1 h.val = 3) : ∃ t, exec (.headRegEnable h) s = .next t ∧
    EventsOnly (setFlag s (R.HEAD_STATUS h.val) 9 true) t :=
  ⟨_, (exec_headRegEnable run there).trans (congrArg _ (if_pos drains)), raise_events _ (by decide : (2 : Nat) < 256) _⟩

end headReg

/-- Settles O48, by what each command does to the head that it names, whatever the other head of its pair does. -/
theorem headsAndPixelPlls : Obligations.HeadsAndPixelPlls := by
  refine ⟨⟨fun tag c h s run found op may head hh plain => ⟨fun en => ⟨?_, ?_⟩, ?_⟩,
    fun h s run there => ⟨fun off => ?_, fun on => ?_, ?_⟩⟩,
    fun h s run => ⟨fun on unlocked => ?_, fun locked => ?_, fun starting on unlocked early => ?_⟩⟩
  · exact headCtl_starts run found op may head hh en
  · exact headCtl_refused run found op may head en
  · exact headCtl_disables run found op may head hh plain
  · obtain ⟨ignored, starts, refused⟩ := headReg_off run there off
    obtain ⟨-, state, pll, pllOn, -⟩ := headStart_own h.isLt s
    exact ⟨ignored, fun ticks sound => ⟨_, starts ticks sound, state, pll, pllOn⟩, refused⟩
  · obtain ⟨ignored, drains⟩ := headReg_on run there on
    refine ⟨ignored, fun enabled => ⟨_, drains, ?_⟩⟩
    obtain ⟨-, state, -⟩ := headDrain_own h.isLt (s := s) (by omega) enabled
    exact state
  · exact headReg_draining run there
  · exact ⟨_, exec_pixelPllLock run on unlocked, pixelPllLock_answers h.isLt s _ rfl⟩
  · obtain ⟨unlocked, lockedAt, idle, lost⟩ := pixelPllUnlock_answers h.isLt s _ rfl
    refine ⟨_, exec_pixelPllUnlock run locked, unlocked, lockedAt, idle, fun on => ?_⟩
    obtain ⟨state, -, retimes, unlocks, pllOn, -, scan⟩ := lost on
    refine ⟨state, pllOn, unlocks, retimes, fun sc has => ?_⟩
    rw [scan, has, Option.filter_some]
    split <;> rfl
  · obtain ⟨late, state, elapsed⟩ := pllLockTimeout_answers h.isLt ((headAt s h.val).pllAt + 10000000 * nsUnit) s _ _ rfl rfl
    exact ⟨_, exec_pllLockTimeout run starting on unlocked early rfl, late, state.trans starting, elapsed⟩

end Sys2Proof.Machine
end

section
/-!
PROOFS. A unit whose drain is complete (R176): what follows the moment at which it reaches OFF leaves it OFF, with the tick that
it keeps (R169), until an enable that waits behind the drain executes (R178).
-/

namespace Sys2Proof.Machine

variable {a b s t : State} {kind u off : Nat}

/-! ## Up to the moment of OFF -/

/-- Two states with the same last seal, of which the later has no command waiting that the earlier has not. -/
structure WaitsKept (a b : State) : Prop where
  tick : tickNow b = tickNow a
  waits : ∀ d ∈ b.rng.cmds, d.phase = .waiting → d ∈ a.rng.cmds

theorem WaitsKept.of_cmds (tick : tickNow b = tickNow a) (cmds : b.rng.cmds = a.rng.cmds) : WaitsKept a b :=
  ⟨tick, fun d hd _ => by rwa [← cmds]⟩

theorem WaitsKept.refl (s : State) : WaitsKept s s := .of_cmds rfl rfl

theorem WaitsKept.trans {c : State} (v : WaitsKept a b) (w : WaitsKept b c) : WaitsKept a c :=
  ⟨w.tick.trans v.tick, fun d hd waiting => v.waits d (w.waits d hd waiting) waiting⟩

theorem EventsOnly.waits (e : EventsOnly a b) : WaitsKept a b := by
  obtain ⟨-, rest⟩ := e
  refine .of_cmds ?_ (by rw [rest])
  rw [tickNow, rest, tickNow]

theorem SessionWork.waits (w : SessionWork a b) : WaitsKept a b := by
  obtain ⟨-, -, rest⟩ := w
  refine .of_cmds ?_ (by rw [rest])
  rw [tickNow, rest, tickNow]

theorem genStep_waits (s : State) : WaitsKept s (genStep s) := by
  obtain ⟨-, rest⟩ := genStep_onlyRegs s
  refine .of_cmds ?_ (by rw [rest])
  rw [tickNow, rest, tickNow]

/-- A unit has no enable waiting, unless it had. -/
theorem WaitsKept.queue (w : WaitsKept a b) (none : enableQueued a kind u = false) : enableQueued b kind u = false := by
  rw [enableQueued, Bool.not_eq_false', List.isEmpty_iff, unitWaiters, List.filter_eq_nil_iff] at none ⊢
  intro d hd waits
  refine none d (w.waits d hd ?_) waits
  rw [Bool.and_eq_true, Bool.and_eq_true, decide_eq_true_iff, decide_eq_true_iff] at waits
  exact waits.1.2

/-- A unit that has reached OFF since a state: OFF, with the last seal of then as its tick. -/
structure ReachesOff (kind u : Nat) (s t : State) : Prop where
  state : unitState t kind u = 0
  tick : offTick t kind u = tickNow s
  waits : WaitsKept s t

theorem setUnit_off (kind u : Nat) (queued : Bool) (s : State) : ∃ ev : Ev, ev.code < 256 ∧ setUnit kind u 0 queued s =
    raise ev (noteOff kind u (setFld (if kind < 3 then genStep s else s) (unitReg kind u) 1 0 0)) :=
  ⟨{ code := 9, unit := u, sub := kind * 16 + unitState s kind u * 4 + 0, a0 := ofBool queued },
    (by decide : (9 : Nat) < 256), rfl⟩

theorem setUnit_reachesOff (quiet : eventReg (unitReg kind u) = false) (queued : Bool) (w : WaitsKept a s) :
    ReachesOff kind u a (setUnit kind u 0 queued s) := by
  obtain ⟨ev, code, eq⟩ := setUnit_off kind u queued s
  have stepped : WaitsKept a (if kind < 3 then genStep s else s) := by
    split
    · exact w.trans (genStep_waits s)
    · exact w
  rw [eq]
  generalize (if kind < 3 then genStep s else s) = x at stepped
  have noted : WaitsKept x (noteOff kind u (setFld x (unitReg kind u) 1 0 0)) := .of_cmds rfl rfl
  have told := (raise_events ev code (noteOff kind u (setFld x (unitReg kind u) 1 0 0))).waits
  refine ⟨?_, ?_, stepped.trans (noted.trans told)⟩
  · exact (fld_raise ev code _ quiet 1 0).trans (fld_setFld_same x _ 1 0 0 (by decide) (by decide))
  · rw [offTick, raise_rng_offAt ev code]
    exact (smGet_smSet_same _ _ _ _).trans stepped.tick

/-! ## From OFF on -/

/-- Two states of which the later keeps the ticks of OFF, and keeps a unit OFF whose state stands at an offset. -/
structure OffKept (off : Nat) (a b : State) : Prop where
  waits : WaitsKept a b
  offAt : b.rng.offAt = a.rng.offAt
  zero : fld a off 1 0 = 0 → fld b off 1 0 = 0

theorem OffKept.refl (off : Nat) (s : State) : OffKept off s s := ⟨WaitsKept.refl s, rfl, id⟩

theorem OffKept.trans {c : State} (v : OffKept off a b) (w : OffKept off b c) : OffKept off a c :=
  ⟨v.waits.trans w.waits, w.offAt.trans v.offAt, w.zero ∘ v.zero⟩

theorem OffKept.ite {x y : State} {c : Prop} [Decidable c] (hx : OffKept off a x) (hy : OffKept off a y) :
    OffKept off a (if c then x else y) := by
  split
  · exact hx
  · exact hy

theorem OffKept.foldl {β : Type} {f : State → β → State} (l : List β) (w : OffKept off a s)
    (hf : ∀ t x, OffKept off a t → OffKept off a (f t x)) : OffKept off a (l.foldl f s) := by
  induction l generalizing s with
  | nil => exact w
  | cons x l ih => exact ih (hf s x w)

theorem ReachesOff.kept (r : ReachesOff kind u s a) (w : OffKept (unitReg kind u) a b) : ReachesOff kind u s b :=
  ⟨w.zero r.state, (congrArg (fun m => smGet (fun _ => (0, 0)) m (128 * kind + u)) w.offAt).trans r.tick, r.waits.trans w.waits⟩

/-- What is not a register, nor the rings' nor the tick's, may change. -/
theorem OffKept.of_eq (w : OffKept off a s) (regs : t.regs = s.regs) (rng : t.rng = s.rng) (tick : tickNow t = tickNow s) :
    OffKept off a t :=
  w.trans ⟨.of_cmds tick (by rw [rng]), by rw [rng], fun zero => by rw [fld, rd, regs]; exact zero⟩

section acts

variable (w : OffKept off a s)
include w

theorem OffKept.wr {o : Nat} (v : Nat) (h : o ≠ off ∨ v = 0) : OffKept off a (wr s o v) := by
  refine w.trans ⟨.of_cmds rfl rfl, rfl, fun zero => ?_⟩
  rcases eq_or_ne off o with rfl | other
  · rw [h.resolve_left (fun ne => ne rfl), fld_wr_same _ _ _ _ (by decide) (by decide)]
    rfl
  · rw [fld_wr_other _ _ _ _ other, zero]

/-- A field apart from the state, or one that is emptied. -/
theorem OffKept.setFld {o hi lo v : Nat} (le : lo ≤ hi) (high : hi < 32) (h : o ≠ off ∨ 1 < lo ∨ (lo = 0 ∧ 1 ≤ hi ∧ v = 0)) :
    OffKept off a (setFld s o hi lo v) := by
  refine w.trans ⟨.of_cmds rfl rfl, rfl, fun zero => ?_⟩
  rcases eq_or_ne off o with rfl | other
  · rcases h with other | above | ⟨rfl, wide, rfl⟩
    · exact absurd rfl other
    · rw [fld_setFld_below _ _ _ _ _ _ _ le high above (by decide), zero]
    · have emptied := fld_setFld_same s off hi 0 0 le high
      rw [Nat.zero_mod, fld, bits, Nat.pow_zero, Nat.div_one] at emptied
      rw [fld, bits, Nat.pow_zero, Nat.div_one]
      exact Nat.mod_eq_zero_of_dvd ((Nat.pow_dvd_pow 2 (by omega)).trans (Nat.dvd_of_mod_eq_zero emptied))
  · rw [fld_setFld_other _ _ _ _ _ _ other, zero]

theorem OffKept.setFlag {o i : Nat} (x : Bool) (high : i < 32) (h : o ≠ off ∨ 1 < i) : OffKept off a (setFlag s o i x) :=
  w.setFld le_rfl high (h.imp_right .inl)

theorem OffKept.raise (quiet : eventReg off = false) (ev : Ev) (hc : ev.code < 256) : OffKept off a (raise ev s) :=
  w.trans ⟨(raise_events ev hc s).waits, raise_rng_offAt ev hc s, fun zero => by rw [fld_raise ev hc s quiet, zero]⟩

end acts

/-- A command that is finished waits no longer. -/
theorem finishWaiters_waits (kind u purpose status : Nat) (s : State) : WaitsKept s (finishWaiters kind u purpose status s) ∧
    (finishWaiters kind u purpose status s).rng.offAt = s.rng.offAt := by
  rw [finishWaiters]
  induction unitWaiters s kind u purpose using List.reverseRecOn with
  | nil => exact ⟨WaitsKept.refl s, rfl⟩
  | append_singleton l c ih =>
    rw [List.foldl_concat]
    obtain ⟨kept, offAt⟩ := ih
    generalize l.foldl (fun s c => finishNow c.tag status 0 0 0 s) s = x at kept offAt
    refine ⟨kept.trans ⟨rfl, fun d hd waiting => ?_⟩, offAt⟩
    obtain ⟨e, he, rfl⟩ := List.mem_map.1 hd
    split at waiting
    · cases waiting
    · next other => rwa [if_neg other]

theorem OffKept.finishWaiters (k v purpose status : Nat) (w : OffKept off a s) :
    OffKept off a (finishWaiters k v purpose status s) := by
  obtain ⟨waits, offAt⟩ := finishWaiters_waits k v purpose status s
  refine w.trans ⟨waits, offAt, fun zero => ?_⟩
  rw [finishWaiters_rest]
  exact zero

/-! ## Repairs (R61, R75) -/

theorem OffKept.huskRepairs (gone : Nat → Nat → Bool) (low : 0x81000 ≤ off) (w : OffKept off a s) :
    OffKept off a (huskRepairs gone s) := by
  have ended : OffKept off a { s with faults := s.faults.filter fun f => !gone f.1 f.2 } := w.of_eq rfl rfl rfl
  exact ended.setFlag (o := R.WIN_STATUS) _ (by decide) (.inl (by rw [R.WIN_STATUS]; omega))

theorem OffKept.damageRepair (kind ix : Nat) (low : 0x81000 ≤ off) (w : OffKept off a s) :
    OffKept off a (damageRepair kind ix s) := by
  have mended : OffKept off a { s with damage := smSet (fun _ => 0) s.damage (kind * 65536 + ix) 0 } := w.of_eq rfl rfl rfl
  rw [Machine.damageRepair, huskRepair]
  exact mended.huskRepairs _ low

theorem OffKept.flowReset (f : Nat) (w : OffKept off a s) : OffKept off a (flowReset f s) := by
  have reset : OffKept off a (setFlow f { keyA := (flowAt s f).keyA, keyB := (flowAt s f).keyB, chan := (flowAt s f).chan,
                                          lastChan := (flowAt s f).lastChan, acceptA := s.elapsed, acceptB := s.elapsed } s) :=
    w.of_eq rfl rfl rfl
  exact (((reset.wr 0 (.inr rfl)).wr 0 (.inr rfl)).wr 0 (.inr rfl)).setFld (by decide) (by decide) (.inr (.inl (by decide)))

theorem OffKept.ringEmptied (i : Nat) (w : OffKept off a s) : OffKept off a
    (Machine.setFld (Machine.wr (Machine.wr s (R.RNG_SQ_ISSUED i) 0) (R.RNG_SQ_COMPLETED i) 0) (R.RNG_SQ_INFLIGHT i) 12 0 0) :=
  ((w.wr 0 (.inr rfl)).wr 0 (.inr rfl)).setFld (by decide) (by decide) (.inr (.inr ⟨rfl, by decide, rfl⟩))

theorem OffKept.dropCmds (w : OffKept off a s) : OffKept off a { s with rng := { s.rng with cmds := [] } } :=
  w.trans ⟨⟨rfl, fun _ hd => absurd hd List.not_mem_nil⟩, rfl, id⟩

theorem OffKept.ringsEmpty (w : OffKept off a s) : OffKept off a (ringsEmpty s) := by
  have emptied := w.foldl (List.range 64) fun t r ht =>
    ht.ite (c := fld t (R.RNG_SQ_INFLIGHT r) 12 0 = 0) (ht.ringEmptied r)
  rw [Machine.ringsEmpty]
  exact emptied.dropCmds.setFld (by decide) (by decide) (.inr (.inr ⟨rfl, by decide, rfl⟩))

/-- The empty balance of a ledger: registers are emptied. -/
theorem OffKept.ledgerEmpty (kind i : Nat) (w : OffKept off a s) : OffKept off a (ledgerEmpty kind i s) := by
  have pool : OffKept off a (poolEmptied i s) :=
    w.ite ((w.wr 0 (.inr rfl)).setFld (by decide) (by decide) (.inr (.inr ⟨rfl, by decide, rfl⟩)))
  exact OffKept.ite (w.of_eq rfl rfl rfl) (pool.ite ((w.ringsEmpty.ite (w.ringEmptied i)).ite ((w.flowReset i).ite
    (w.of_eq rfl rfl rfl))))

/-- The fault of a ledger has ended, before the registers of the ledgers show it. -/
def ledgerMended (kind i : Nat) (s : State) : State :=
  ledgerEmpty kind i { s with tck := { s.tck with faults := s.tck.faults.filter fun f => decide (f ≠ (kind, i)) } }

theorem ledgerClear_eq (kind i : Nat) (s : State) : ∃ shown : Bool, ledgerClear kind i s =
    if s.tck.faults.filter (fun f => decide (f ≠ (kind, i))) = [] then
      wr (setFlag (ledgerMended kind i s) R.TCK_LEDGER_FAULT kind shown) R.TCK_LEDGER_FIRST 0
    else setFlag (ledgerMended kind i s) R.TCK_LEDGER_FAULT kind shown := ⟨_, rfl⟩

theorem OffKept.ledgerClear (kind i : Nat) (low : 0x81000 ≤ off) (w : OffKept off a s) :
    OffKept off a (ledgerClear kind i s) := by
  obtain ⟨shown, eq⟩ := ledgerClear_eq kind i s
  have mended : OffKept off a (ledgerMended kind i s) := OffKept.ledgerEmpty kind i (w.of_eq rfl rfl rfl)
  have told : OffKept off a (Machine.setFlag (ledgerMended kind i s) R.TCK_LEDGER_FAULT kind shown) :=
    mended.wr _ (.inl (by rw [R.TCK_LEDGER_FAULT]; omega))
  rw [eq]
  exact (told.wr 0 (.inr rfl)).ite told

theorem OffKept.ledgerRepair (low : 0x81000 ≤ off) (w : OffKept off a s) : OffKept off a (ledgerRepair s) :=
  w.foldl _ fun _ f ht => (ht.ledgerClear f.1 f.2 low).ite ht

/-! ## An enable that waits behind the drain (R178) -/

/-- A unit that is OFF or, if an enable waited, has been started. -/
structure DrainOver (kind u : Nat) (s t : State) : Prop where
  state : unitState t kind u ≤ 1
  offAt : t.rng.offAt = s.rng.offAt

theorem enableCmd_over {start : Cmd → State → State} {c : Cmd}
    (starts : ∀ t, unitState t kind u = 0 → DrainOver kind u t (start c t)) (low : unitState s kind u ≤ 1) :
    DrainOver kind u s (enableCmd kind u c start s) := by
  rcases Nat.le_one_iff_eq_zero_or_eq_one.1 low with off | on
  · cases ticks : tickRun s with
    | true => rw [enableCmd_off off ticks]; exact starts s off
    | false => rw [enableCmd_stopped off ticks]; exact ⟨low, rfl⟩
  · rw [enableCmd_on (.inl on)]
    exact ⟨low, rfl⟩

/-- An enable that has waited behind a drain executes. -/
def enableAfterDrain (kind u : Nat) (start : Cmd → State → State) (s : State) (c : Cmd) : State :=
  enableCmd kind u c start (updCmd c.tag (fun c => { c with phase := .started, afterDrain := true, aux := [] }) s)

theorem runQueued_eq (kind u : Nat) (start : Cmd → State → State) (s : State) :
    runQueued kind u start s = (unitWaiters s kind u auxQueued).foldl (enableAfterDrain kind u start) s := rfl

theorem enableAfterDrain_over {start : Cmd → State → State} {c : Cmd}
    (starts : ∀ t, unitState t kind u = 0 → DrainOver kind u t (start c t)) (h : DrainOver kind u s t) :
    DrainOver kind u s (enableAfterDrain kind u start t c) := by
  obtain ⟨low, kept⟩ := h
  obtain ⟨state, offAt⟩ := enableCmd_over starts (c := c)
    (s := updCmd c.tag (fun c => { c with phase := .started, afterDrain := true, aux := [] }) t) low
  exact ⟨state, offAt.trans kept⟩

theorem runQueued_over {start : Cmd → State → State}
    (starts : ∀ c t, c.unit = some (kind, u) → unitState t kind u = 0 → DrainOver kind u t (start c t))
    (off : unitState s kind u = 0) : DrainOver kind u s (runQueued kind u start s) := by
  have each : ∀ l : List Cmd, (∀ c ∈ l, c.unit = some (kind, u)) → ∀ t, DrainOver kind u s t →
      DrainOver kind u s (l.foldl (enableAfterDrain kind u start) t) := fun l => by
    induction l with
    | nil => exact fun _ t h => h
    | cons c l ih =>
      exact fun own t h => ih (fun d hd => own d (.tail _ hd)) _
        (enableAfterDrain_over (fun t => starts c t (own c (.head _))) h)
  rw [runQueued_eq]
  refine each _ (fun c hc => ?_) s ⟨by omega, rfl⟩
  have waits := (List.mem_filter.1 hc).2
  rw [Bool.and_eq_true, Bool.and_eq_true, decide_eq_true_iff] at waits
  exact waits.1.1

theorem runQueued_none {start : Cmd → State → State} (none : enableQueued s kind u = false) : runQueued kind u start s = s := by
  rw [enableQueued, Bool.not_eq_false', List.isEmpty_iff] at none
  rw [runQueued, none]
  rfl

/-- A unit that has reached OFF, and on which an enable that waited has run. -/
theorem ReachesOff.answers (r : ReachesOff kind u s t) {e : State} (ends : DrainOver kind u t e)
    (idle : enableQueued t kind u = false → e = t) : unitState e kind u ≠ 3 ∧ offTick e kind u = tickNow s ∧
      (enableQueued s kind u = false → unitState e kind u = 0) := by
  obtain ⟨state, offAt⟩ := ends
  refine ⟨by omega, ?_, fun none => ?_⟩
  · rw [offTick, offAt]
    exact r.tick
  · rw [idle (r.waits.queue none), r.state]

end Sys2Proof.Machine
end

section
/-!
PROOFS. The end of the drain of each kind of unit: channel, head, encode session and ring (R53, R152, R176, R310, R347).
-/

namespace Sys2Proof.Machine

variable {a s t : State} {kind u : Nat} {c : Cmd}

/-- Where the state of a unit that may drain stands: above the ledgers' and Lintel's registers, and apart from the events'. -/
theorem unitReg_apart (hu : u < [96, 24, 16, 64].getD kind 0) :
    0x81000 ≤ unitReg kind u ∧ eventReg (unitReg kind u) = false := by
  have apart : ∀ r, 0x81000 ≤ r → r < 0x82800 ∨ (0x180000 ≤ r ∧ r < 0x400000) → 0x81000 ≤ r ∧ eventReg r = false :=
    fun r low h => ⟨low, by rw [eventReg, decide_eq_false_iff_not]; omega⟩
  match kind, hu with
  | 0, (hu : u < 96) => exact apart (0x180004 + u * 0x100) (by omega) (by omega)
  | 1, (hu : u < 24) => exact apart (0x300004 + u * 0x4000) (by omega) (by omega)
  | 2, (hu : u < 16) => exact apart (0x241000 + u * 0x100) (by omega) (by omega)
  | 3, (hu : u < 64) =>
    show 0x81000 ≤ ringStatus u ∧ eventReg (ringStatus u) = false
    rw [ringStatus, ringBase_sq hu]
    exact apart _ (by omega) (by omega)
  | _ + 4, hu => exact absurd hu (Nat.not_lt_zero u)

theorem unitOff_reachesOff (quiet : eventReg (unitReg kind u) = false) (w : WaitsKept a s) :
    ReachesOff kind u a (unitOff kind u s) :=
  (setUnit_reachesOff quiet _ w).kept ((OffKept.refl _ _).finishWaiters kind u auxDisabling stSuccess)

/-! ## What precedes OFF -/

theorem WaitsKept.foldl {β : Type} {f : State → β → State} (l : List β) (w : WaitsKept a s)
    (hf : ∀ t x, WaitsKept a t → WaitsKept a (f t x)) : WaitsKept a (l.foldl f s) := by
  induction l generalizing s with
  | nil => exact w
  | cons x l ih => exact ih (hf s x w)

theorem WaitsKept.wr (off v : Nat) (w : WaitsKept a s) : WaitsKept a (wr s off v) := w.trans (.of_cmds rfl rfl)

/-- The costs that a unit's sessions return, without what follows. -/
def costsReturned (kind u : Nat) (s : State) : State :=
  (s.tck.entries.filter fun e => decide (e.kind = kind ∧ e.unit = u)).foldl (fun s e =>
    let s := wr s (R.TCK_POOL_COMMITTED e.pool) (rd s (R.TCK_POOL_COMMITTED e.pool) - e.cost)
    setFld s (R.TCK_POOL_SESSIONS e.pool) 7 0 (fld s (R.TCK_POOL_SESSIONS e.pool) 7 0 - 1)) s

theorem uncommit_waits (kind u : Nat) (w : WaitsKept a s) : WaitsKept a (uncommit kind u s) := by
  have returned : WaitsKept a (costsReturned kind u s) := w.foldl _ fun t e ht => (ht.wr _ _).wr _ _
  unfold uncommit
  dsimp only
  split
  · exact w
  · refine WaitsKept.wr _ _ (WaitsKept.trans ?_ (genStep_waits _))
    exact returned.trans (.of_cmds rfl rfl)

theorem flowReset_waits (f : Nat) (w : WaitsKept a s) : WaitsKept a (flowReset f s) :=
  have reset : WaitsKept a (setFlow f { keyA := (flowAt s f).keyA, keyB := (flowAt s f).keyB, chan := (flowAt s f).chan,
                                        lastChan := (flowAt s f).lastChan, acceptA := s.elapsed, acceptB := s.elapsed } s) :=
    w.trans (.of_cmds rfl rfl)
  (((reset.wr _ 0).wr _ 0).wr _ 0).wr _ _

/-! ## A channel (R53) -/

/-- A channel's session has been given up. -/
def srcGivenUp (u : Nat) (s : State) : State :=
  let s := uncommit 0 u s
  let s := setChan u { mappings := (chanAt s u).mappings, mapLapsed := (chanAt s u).mapLapsed } s
  match flowOf s u with
  | some f => flowReset f s
  | none => s

theorem srcOff_eq (free : ∀ k < 16, (slotAt s u k).state = 0) (done : unitCmdsDone s 0 u = true) : srcOff u s =
    runQueued 0 u srcOpen (ledgerRepair (damageRepair 5 (0x300 + u) (damageRepair 3 u (unitOff 0 u (srcGivenUp u s))))) := by
  have all : ((List.range 16).all fun k => decide ((slotAt s u k).state = 0)) = true :=
    List.all_eq_true.2 fun k hk => decide_eq_true (free k (List.mem_range.1 hk))
  rw [srcOff, all, done]
  rfl

theorem srcGivenUp_waits (u : Nat) (s : State) : WaitsKept s (srcGivenUp u s) := by
  unfold srcGivenUp
  extract_lets p q
  have left : WaitsKept s q := (uncommit_waits 0 u (WaitsKept.refl s)).trans (.of_cmds rfl rfl)
  split
  · exact flowReset_waits _ left
  · exact left

theorem srcOff_reachesOff (hu : u < 96) (s : State) : ReachesOff 0 u s
    (ledgerRepair (damageRepair 5 (0x300 + u) (damageRepair 3 u (unitOff 0 u (srcGivenUp u s))))) := by
  obtain ⟨low, quiet⟩ := unitReg_apart (kind := 0) hu
  exact (unitOff_reachesOff quiet (srcGivenUp_waits u s)).kept
    ((((OffKept.refl _ _).damageRepair 3 u low).damageRepair 5 (0x300 + u) low).ledgerRepair low)

/-- The unit that a command names (R158). -/
theorem index_of_unit (hk : kind < 3) (own : c.unit = some (kind, u)) : bits (c.w 2) 15 0 = u := by
  unfold Cmd.unit at own
  split at own <;> simp only [Option.some.injEq, Prod.mk.injEq, reduceCtorEq] at own <;> omega

theorem offAt_setUnit (hk : kind < 3) {new : Nat} (on : new ≠ 0) (queued : Bool) (s : State) :
    (setUnit kind u new queued s).rng.offAt = s.rng.offAt := by
  obtain ⟨ev, code, eq⟩ := setUnit_moved u hk on queued s
  rw [eq, raise_rng_offAt ev code, setFld_rng, (genStep_onlyRegs s).rest]

theorem offAt_srcStart (hu : u < 96) (kind : Nat) (w : Nat → Nat) (s : State) :
    (srcStart u kind w s).rng.offAt = s.rng.offAt := by
  obtain ⟨x, v, eq, only⟩ := srcStart_eq hu kind w s
  have charged : (srcCharged u kind w s).rng = s.rng := by
    unfold srcCharged
    split
    · rfl
    · rw [poolAdmit_rest]
  have declared : v.rng = (srcCharged u kind w s).rng := by rw [only.rest, (srcDeclared_onlyRegs hu kind w _).rest]
  rw [eq, offAt_setUnit (by decide) (by decide)]
  show v.rng.offAt = _
  rw [declared, charged]

theorem srcOpen_over (hu : u < 96) (own : c.unit = some (0, u)) (off : unitState t 0 u = 0) :
    DrainOver 0 u t (srcOpen c t) := by
  have index := index_of_unit (by decide) own
  have refused : ∀ x : State, unitState x 0 u = unitState t 0 u → x.rng.offAt = t.rng.offAt → DrainOver 0 u t x :=
    fun x state offAt => ⟨by omega, offAt⟩
  unfold srcOpen
  dsimp only
  rw [index]
  split
  · exact refused _ rfl rfl
  · split
    · exact refused _ rfl rfl
    · exact ⟨(unitState_srcStart hu _ _ t).le, offAt_srcStart hu _ _ t⟩

/-! ## A head (R310) -/

/-- A head has been given up: its PLL has stopped. -/
def headGivenUp (u : Nat) (s : State) : State :=
  setFlag (setHead u { headAt s u with pllOn := false, lockedAt := none, nf := none, disabling := false, sealedOff := false } s)
    (R.HEAD_STATUS u) 3 false

theorem headOff_eq (disabling : (headAt s u).disabling = true) (sealedOff : (headAt s u).sealedOff = true)
    (idle : (headAt s u).scan = none) (rests : ∀ p ∈ (headAt s u).wbs, p.2.state ≠ 1 ∧ p.2.state ≠ 4)
    (done : unitCmdsDone s 1 u = true) : headOff u s = runQueued 1 u (headOpen u) (ledgerRepair (damageRepair 5 (0x200 + u)
      (finishWaiters 1 u auxDisabling stSuccess (setHeadState u 0 (headGivenUp u s))))) := by
  have none_writes : ((headAt s u).wbs.any fun p => decide (p.2.state = 1 ∨ p.2.state = 4)) = false :=
    List.any_eq_false.2 fun p hp => by
      rw [decide_eq_true_iff, not_or]
      exact rests p hp
  have noneHolds : (!(headAt s u).disabling || !(headAt s u).sealedOff || (headAt s u).scan.isSome
      || (headAt s u).wbs.any (fun p => decide (p.2.state = 1 ∨ p.2.state = 4)) || !unitCmdsDone s 1 u) = false := by
    rw [disabling, sealedOff, idle, none_writes, done]
    rfl
  exact if_neg (Bool.eq_false_iff.1 noneHolds)

theorem unitState_headGivenUp (u : Nat) (s : State) : unitState (headGivenUp u s) 1 u = unitState s 1 u :=
  fld_setFld_below _ _ 3 3 _ 1 0 le_rfl (by decide) (by decide) (by decide)

theorem headMoved_off (u : Nat) (s : State) : ∃ queued,
    headMoved u 0 s = setFlag (setUnit 1 u 0 queued s) (R.HEAD_CTRL u) 0 false := by
  refine ⟨enableQueued s 1 u || decide ((headAt s u).restart ≠ 0 ∧ 0 = 3), ?_⟩
  rw [headMoved]
  rw [if_neg (fun h => h.2 rfl)]
  rfl

theorem OffKept.headokUpdate {off : Nat} (hu : u < 24) (low : 0x81000 ≤ off) (quiet : eventReg off = false)
    (w : OffKept off a s) : OffKept off a (headokUpdate u s) := by
  have other : R.WIN_LT_STATUS u ≠ off := by rw [R.WIN_LT_STATUS]; omega
  have shown := w.setFlag (headokRule s u) (i := 0) (by decide) (.inl other)
  exact ((shown.setFlag false (i := 1) (by decide) (.inl other)).raise quiet _ (by decide : (0x27 : Nat) < 256)).ite shown

theorem setHeadState_reachesOff (hu : u < 24) (on : unitState s 1 u ≠ 0) (w : WaitsKept a s) :
    ReachesOff 1 u a (setHeadState u 0 s) := by
  obtain ⟨low, quiet⟩ := unitReg_apart (kind := 1) hu
  obtain ⟨queued, eq⟩ := headMoved_off u s
  rw [setHeadState_moved (by decide), if_neg on, eq]
  refine (setUnit_reachesOff quiet queued w).kept (OffKept.headokUpdate hu low quiet ?_)
  have other : R.HEAD_CTRL u ≠ R.HEAD_STATUS u := by
    rw [R.HEAD_CTRL, R.HEAD_STATUS]
    omega
  exact (OffKept.refl _ _).setFlag _ (by decide) (.inl other)

theorem headOff_reachesOff (hu : u < 24) (drains : unitState s 1 u = 3) :
    ReachesOff 1 u s (ledgerRepair (damageRepair 5 (0x200 + u)
      (finishWaiters 1 u auxDisabling stSuccess (setHeadState u 0 (headGivenUp u s))))) := by
  obtain ⟨low, quiet⟩ := unitReg_apart (kind := 1) hu
  have on : unitState (headGivenUp u s) 1 u ≠ 0 := by
    rw [unitState_headGivenUp, drains]
    decide
  have left : WaitsKept s (headGivenUp u s) := .of_cmds rfl rfl
  exact (setHeadState_reachesOff hu on left).kept
    ((((OffKept.refl _ _).finishWaiters 1 u auxDisabling stSuccess).damageRepair 5 (0x200 + u) low).ledgerRepair low)

theorem headOpen_over (hu : u < 24) (off : unitState t 1 u = 0) : DrainOver 1 u t (headOpen u c t) := by
  unfold headOpen
  split
  · exact ⟨off.le.trans (Nat.zero_le 1), rfl⟩
  · obtain ⟨regs, state, -⟩ := headStart_own hu t
    exact ⟨state.le, regs.offAt⟩

/-! ## An encode session (R347) -/

theorem encPipe_lt (s : State) (n : Nat) : encPipe s n < 2 := bits_lt _ 2 2

theorem encWrite_work (n x : Nat) (bs : List Byte) (w : SessionWork a s) : SessionWork a (encWrite n x bs s) := by
  have pipe := encPipe_lt s n
  unfold encWrite
  split
  · exact w
  · exact w.trans (dmaWrite_access (by omega) _ _ _ _ (AccessOnly.refl s)).work

theorem encRecord_work (hu : u < 16) (start : Nat) (words : List Nat) (w : SessionWork a s) :
    SessionWork a (encRecord u start words s) := by
  unfold encRecord
  dsimp only
  exact wr_work _ (sessionReg_of (k := 0x3C) hu (by decide)) (wr_work _ (sessionReg_of (k := 0x38) hu (by decide))
    (setEnc_work _ _ (encWrite_work _ _ _ w)))

theorem encEnd_work (hu : u < 16) (s : State) : SessionWork s (encEnd u s) := by
  have drawn : SessionWork s { s with draws := s.draws + 4 } := ⟨fun _ _ _ => rfl, fun _ => rfl, rfl⟩
  exact SessionWork.ite (SessionWork.refl s) (encRecord_work hu _ _ drawn)

theorem encOff_eq (idle : encIdle s u = true) (done : unitCmdsDone s 2 u = true) : encOff u s =
    runQueued 2 u encStart (ledgerRepair (unitOff 2 u (uncommit 2 u (encEnd u s)))) := by
  rw [encOff, idle, done]
  rfl

theorem encOff_reachesOff (hu : u < 16) (s : State) :
    ReachesOff 2 u s (ledgerRepair (unitOff 2 u (uncommit 2 u (encEnd u s)))) := by
  obtain ⟨low, quiet⟩ := unitReg_apart (kind := 2) hu
  exact (unitOff_reachesOff quiet (uncommit_waits 2 u (encEnd_work hu s).waits)).kept ((OffKept.refl _ _).ledgerRepair low)

theorem offAt_encEnter (n level : Nat) (s : State) : (encEnter n c level s).rng.offAt = s.rng.offAt := by
  have charged : (encCharged n c s).rng = s.rng := by
    rw [encCharged, setFld_rng, poolAdmit_rest]
  have declared : (encDeclared n c level s).rng = (encCharged n c s).rng :=
    (foldl_wr_rng (fun i => R.VEN_PICTURES n + 4 * i) (fun _ _ => 0) _ _).trans
      (foldl_wr_rng (venReg n) (fun _ => venWord c level) _ _)
  rw [encEnter_eq, offAt_setUnit (by decide) (by decide), rng_encShowNext]
  show (encDeclared n c level s).rng.offAt = _
  rw [declared, charged]

theorem encStart_over (hu : u < 16) (own : c.unit = some (2, u)) (off : unitState t 2 u = 0) :
    DrainOver 2 u t (encStart c t) := by
  have index : bits (c.w 2) 3 0 = u := by
    have full := index_of_unit (by decide) own
    rw [bits] at full ⊢
    omega
  have refused : ∀ x : State, unitState x 2 u = unitState t 2 u → x.rng.offAt = t.rng.offAt → DrainOver 2 u t x :=
    fun x state offAt => ⟨by omega, offAt⟩
  unfold encStart
  dsimp only
  rw [index]
  split
  · exact refused _ rfl rfl
  · split
    · exact refused _ rfl rfl
    · exact ⟨(unitState_encEnter hu _ t).le, offAt_encEnter u _ t⟩

/-! ## A ring (R152) -/

theorem ringOff_eq (done : ∀ c ∈ s.rng.cmds, c.sq ≠ u) : ringOff u s = ledgerRepair (unitOff 3 u s) := by
  have none_left : (s.rng.cmds.any fun c => decide (c.sq = u)) = false :=
    List.any_eq_false.2 fun c hc => by
      rw [decide_eq_true_iff]
      exact done c hc
  rw [ringOff, none_left]
  rfl

theorem ringOff_reachesOff (hu : u < 64) (s : State) : ReachesOff 3 u s (ledgerRepair (unitOff 3 u s)) := by
  obtain ⟨low, quiet⟩ := unitReg_apart (kind := 3) hu
  exact (unitOff_reachesOff quiet (WaitsKept.refl s)).kept ((OffKept.refl _ _).ledgerRepair low)

/-! ## O37 -/

/-- A unit that has reached OFF runs the enable that waits behind its drain. -/
theorem ReachesOff.queued {start : Cmd → State → State} (r : ReachesOff kind u s t)
    (starts : ∀ c t, c.unit = some (kind, u) → unitState t kind u = 0 → DrainOver kind u t (start c t)) :
    ∀ e, e = runQueued kind u start t → unitState e kind u ≠ 3 ∧ offTick e kind u = tickNow s ∧
      (enableQueued s kind u = false → unitState e kind u = 0) := by
  rintro e rfl
  exact r.answers (runQueued_over starts r.state) runQueued_none

theorem drainComplete_drains {n : Nat} (count : [96, 24, 16, 100].getD kind 0 = n) (hu : u < n)
    (drains : unitState s kind u = 3) :
    drainComplete kind u s = if kind = 0 then srcOff u s else if kind = 1 then headOff u s
      else if kind = 2 then encOff u s else ringOff u s := by
  rw [drainComplete]
  rw [count, if_neg (by omega)]

theorem exec_unitDrainComplete {kind : Fin 4} (run : running s = true) :
    exec (.unitDrainComplete kind u) s = .next (drainComplete kind.val u s) := live_running run _

theorem drainComplete_idle (idle : unitState s kind u ≠ 3) : drainComplete kind u s = s := if_pos (.inr idle)

/-- Settles O37, by what the end of the drain of each kind of unit leaves. -/
theorem drainedUnitsReachOff : Obligations.DrainedUnitsReachOff := by
  refine fun kind u s run hu => ⟨fun idle => ?_, fun drains done src head enc ring => ⟨_, exec_unitDrainComplete run, ?_⟩⟩
  · exact (exec_unitDrainComplete run).trans (congrArg _ (drainComplete_idle idle))
  · rw [drainComplete_drains rfl hu drains]
    match kind with
    | 0 =>
      exact (srcOff_reachesOff hu s).queued (fun _ _ => srcOpen_over hu) _ (srcOff_eq (src rfl) (done (by decide)))
    | 1 =>
      obtain ⟨disabling, sealedOff, idle, rests⟩ := head rfl
      exact (headOff_reachesOff hu drains).queued (fun _ _ _ => headOpen_over hu) _
        (headOff_eq disabling sealedOff idle rests (done (by decide)))
    | 2 => exact (encOff_reachesOff hu s).queued (fun _ _ => encStart_over hu) _ (encOff_eq (enc rfl) (done (by decide)))
    | 3 =>
      obtain ⟨sq, empty⟩ := ring rfl
      have r := ringOff_reachesOff sq s
      have answers := r.answers ⟨r.state.le.trans (Nat.zero_le 1), rfl⟩ fun _ => rfl
      rw [← ringOff_eq empty] at answers
      exact answers

end Sys2Proof.Machine
end
